-- ==== Sys2Proof/Word.lean ====
section
/-! DEFINITION. The plain word and container types of the model: bytes, byte strings, sparse byte memories
and sparse tables keyed by a number. Nothing here computes; the operations are in Machine/Ops.lean. -/

namespace Sys2Proof

/-- One byte. -/
abbrev Byte := BitVec 8

/-- A byte string, the byte at the lowest address first (R7). -/
abbrev Bytes := List Byte

/-- A byte-addressed memory: strictly rising addresses, no entry equal to 0, which is what an unlisted
address reads as. -/
abbrev Mem := List Host.Cell

/-- A sparse table keyed by a number, keys strictly rising. A key that is not listed has the default the
reader of the table names. -/
abbrev AMap (α : Type) := List (Nat × α)

/-- A list that is not absent and holds no repeats by construction of the operations on it. -/
abbrev NSet := List Nat

end Sys2Proof
end

