-- ==== Sys2Proof/Syntax.lean ====
section
/-! DEFINITION. The commands of the block: one constructor per row of spec/opcode_table.json, with the operands the
outside world gives it. A firmware command carries the mailbox request it came in (R59); an internal event names the
unit it happens in, and carries what comes from outside the block (a trained rate, a sensor value, bytes received). -/

namespace Sys2Proof

/-- A mailbox command as firmware took it: its function and inbound slot, the header fields of R59 that a command may
set, its payload, and TAKEN_AT. -/
structure FwReq where
  fn : Nat
  slot : Nat := 0
  quiet : Bool := false
  seq : BitVec 16 := 0
  district : BitVec 8 := 0
  tag : BitVec 32 := 0
  payload : Bytes := []
  takenAt : BitVec 64 := 0
  deriving DecidableEq, Repr

/-- The part of a 64-bit register a read takes (R466). -/
inductive RegPart where
  | whole
  | low
  | high
  deriving DecidableEq, Repr

/-- The carrier of an SPDM request (R431): DOE on PF0, or MCTP. -/
inductive SpdmVia where
  | doe
  | mctp
  deriving DecidableEq, Repr

/-- What error correction found in a memory transaction (R221, R222): nothing, a corrected error, or an
uncorrectable error in the granule at this place of the transaction. -/
inductive MemErr where
  | none
  | ce
  | ue (granule : Nat)
  deriving DecidableEq, Repr

/-- The IDENT payload (R261). -/
structure Ident where
  deviceId : Nat
  port : Nat
  mode : Bool
  partId : Nat
  revision : Nat
  systemTag : BitVec 64
  rsvd : Bool := false
  deriving DecidableEq, Repr

/-- A flit's fields (R249) without its CRC; `rsvd` tells that a reserved bit is set. -/
structure Flit where
  typ : Nat
  chan : Nat := 0
  first : Bool := false
  last : Bool := false
  poison : Bool := false
  transit : Bool := false
  dest : Nat := 0
  src : Nat := 0
  fseq : Nat := 0
  ack : Nat := 0
  crChan : Nat := 0
  crPool : Bool := false
  crCount : Nat := 0
  len : Nat := 0
  payload : Bytes := []
  rsvd : Bool := false
  deriving DecidableEq, Repr

/-- One pool size of a CREDIT_SET flit (R255). -/
structure PoolSize where
  chan : Nat
  transit : Bool
  size : Nat
  deriving DecidableEq, Repr

/-- A received SYNC flit's content with the stamp of its arrival `t4`, stamps in 1/16 ns (R262, R263). `spans` marks a sample that
spans a replay or a retrain. -/
structure SyncMsg where
  t1 : Nat
  t2 : Nat
  t4 : Nat
  root : Nat
  dist : Nat
  rootSeq : Nat
  spans : Bool := false
  deriving DecidableEq, Repr

/-- The rounds of the step gate's messages (R340, R342, R344): contributions to the verdict, position 0's decision under
HOLD, contributions to the commit round, and position 0's choice after a refusal. -/
inductive GateRound where
  | contribution
  | decision
  | commit
  | resume
  deriving DecidableEq, Repr

/-- A gate message's content (R340–R345, R406): inputs combined over the members it has passed. `held` tells that position 0
waits before it decides; `action` is its decision (0 commit, 1 refuse) or choice (0 REPLAY, 1 SKIP, 2 END). -/
structure GateMsg where
  round : GateRound
  sig : Nat := 0
  members : NSet := []
  nf : Nat := 0
  poison : Nat := 0
  taint : Bool := false
  fault : Bool := false
  approx : Bool := false
  loss : Nat := 0
  clean : Bool := true
  /-- Snapshot request causes and BUSY (R406). -/
  request : Nat := 0
  busy : Bool := false
  held : Bool := false
  action : Nat := 0
  deriving DecidableEq, Repr

/-- One decoded frame as the codec of R384 yields it: the input bytes it takes; its size, bit depth, colour description
(full range; matrix 1 BT.709, 2 BT.2020, 3 BT.601, 0 other); its superblock size and its damaged superblocks (number and
cause bit, R391); its frame-level cause bits; its planes, laid out as R388 lays out a frame slot of the job; and the frames
it refers to, by number. Frames come in display order. -/
structure DecodedFrame where
  inBytes : Nat
  width : Nat
  height : Nat
  ten : Bool := false
  mono : Bool := false
  full : Bool := false
  matrix : Nat := 1
  sb : Nat := 64
  damaged : List (Nat × Nat) := []
  causes : Nat := 0
  planes : Bytes := []
  refs : List Nat := []
  deriving DecidableEq, Repr

/-- One prediction block of a frame that is encoded (R393): the reference it is predicted from (0 the newest), its luma place and
size, its vector in quarter samples (R385), and whether that is a predicted candidate, not one that the search found. -/
structure MotionBlock where
  ref : Nat
  x : Nat
  y : Nat
  w : Nat
  h : Nat
  mx : Int
  my : Int
  predicted : Bool := false
  deriving DecidableEq, Repr

/-- One frame as the encoder yields it: the bytes of its encoding at each quantiser index that it is asked for (R394, R395); the
fallback frame; and the padding OBUs for a buffer that would overflow. Then the prediction blocks and the reconstruction of the
encoding that is kept (R393). -/
structure EncodedFrame where
  attempts : AMap Bytes
  fallback : Bytes
  padding : Bytes := []
  motion : List MotionBlock := []
  recon : Bytes := []
  deriving DecidableEq, Repr

/-- What memory training and the near-stack self test yield after SYS_RST_N (R218, R402): the highest rate each LPDDR site
passes (0: none), and whether the stacks train. -/
structure TrainingResult where
  lpRates : AMap Nat := []
  stacksOk : Bool := true
  deriving DecidableEq, Repr

/-- The configuration writes that change the block's state (R54, R56, R76). -/
inductive CfgWrite where
  | vfEnable (n : Nat)
  | bar2Log (log2 : Nat)
  | msixEnable (on fnMask : Bool)
  | msixMask (vec : Nat) (masked : Bool)
  | other (off : Nat) (value : BitVec 32)
  deriving DecidableEq, Repr

/-- A request of the management port (R78, R79): an effecter write; a sensor read and an address that SMBus ARP assigns,
for which the table has no row of their own (log entry 128). -/
inductive MgmtReq where
  | effecter (id value : Nat)
  | sensor (id : Nat)
  | arp (addr : Nat)
  deriving DecidableEq, Repr

/-- The commands, one constructor per row of the table. -/
inductive Instr where
  /-- CONFIG_READ (R55). -/
  | configRead (fn off : Nat)
  /-- FUNCTION_LEVEL_RESET (R66). -/
  | functionLevelReset (fn : Nat)
  /-- FLR_DONE (R66). -/
  | flrDone (fn : Nat)
  /-- INBOUND_OWNER_POST (R61). -/
  | inboundOwnerPost (fn slot : Nat) (rest : Bytes)
  /-- OUTBOUND_SLOT_RETURN (R60). -/
  | outboundSlotReturn (fn slot : Nat)
  /-- MAILBOX_SLOT_WRITE (R60). -/
  | mailboxSlotWrite (fn : Nat) (outbound : Bool) (slot off : Nat) (data : Bytes)
  /-- MAILBOX_TAKE (R62). -/
  | mailboxTake (fn slot : Nat)
  /-- MBOX_SEQ_WAIT_EXPIRY (R63). -/
  | mboxSeqWaitExpiry (fn : Nat)
  /-- REPLY_POST (R64). -/
  | replyPost (fn : Nat)
  /-- BAR2_READ (R58). -/
  | bar2Read (fn off len : Nat)
  /-- BAR2_WRITE (R58). -/
  | bar2Write (fn off : Nat) (data : Bytes)
  /-- HOST_FLAGS_READ (R471). -/
  | hostFlagsRead (fn : Nat) (part : RegPart)
  /-- HOST_FLAGS_CLEAR (R471). -/
  | hostFlagsClear (fn : Nat) (value : BitVec 64)
  /-- REG_LOW_WORD_READ (R466): a read of 4 bytes, or with `whole` of 8 (log entry 129). -/
  | regLowWordRead (fn off : Nat) (whole : Bool := false)
  /-- BAR0_PLAIN_WRITE (R465). -/
  | bar0PlainWrite (fn off : Nat) (data : Bytes)
  /-- DEV_NOP (R70). -/
  | devNop (c : FwReq)
  /-- DEV_INDEX (R39). -/
  | devIndex (c : FwReq)
  /-- DEV_RING_SET (R71). -/
  | devRingSet (c : FwReq)
  /-- DEV_RING_OFF (R72). -/
  | devRingOff (c : FwReq)
  /-- DEV_WINDOW (R70). -/
  | devWindow (c : FwReq)
  /-- DEV_REC_BEGIN (R80). -/
  | devRecBegin (c : FwReq)
  /-- DEV_REC_DATA (R80). -/
  | devRecData (c : FwReq)
  /-- DEV_REC_END (R80). -/
  | devRecEnd (c : FwReq)
  /-- RECOVERY_START (R81). -/
  | recoveryStart
  /-- PCIE_LINK_TRAINED (R473). -/
  | pcieLinkTrained (speed width : Nat) (flitMode : Bool)
  /-- PCIE_LINK_LOSS (R75). -/
  | pcieLinkLoss
  /-- PCIE_LINK_RETURN (R75). -/
  | pcieLinkReturn
  /-- EVENT_RECORD_ARRIVAL (R72). -/
  | eventRecordArrival (record : Nat)
  /-- RING_HOLD_EXPIRY (R72). -/
  | ringHoldExpiry (fresh : AMap (BitVec 64))
  /-- CONS_ROUTINE_READ (R73). -/
  | consRoutineRead (fn : Nat) (value : BitVec 64)
  /-- RING_AGE_EXPIRY (R77). -/
  | ringAgeExpiry (fn : Nat)
  /-- MSI_MODERATION_EXPIRY (R77). -/
  | msiModerationExpiry (fn vec : Nat)
  /-- PLDM_EFFECTER_WRITE (R78, R79). -/
  | pldmEffecterWrite (req : MgmtReq)
  /-- SPDM_GET_VERSION (R431). -/
  | spdmGetVersion (via : SpdmVia)
  /-- SPDM_GET_CAPABILITIES (R431). -/
  | spdmGetCapabilities (via : SpdmVia)
  /-- SPDM_NEGOTIATE_ALGORITHMS (R431). -/
  | spdmNegotiateAlgorithms (via : SpdmVia) (p521 sha512 : Bool)
  /-- SPDM_GET_DIGESTS (R431). -/
  | spdmGetDigests (via : SpdmVia)
  /-- SPDM_GET_CERTIFICATE (R430). -/
  | spdmGetCertificate (via : SpdmVia) (slot off len : Nat)
  /-- SPDM_CHALLENGE (R430). -/
  | spdmChallenge (via : SpdmVia) (slot : Nat) (nonce : BitVec 256)
  /-- SPDM_GET_MEASUREMENTS (R432). -/
  | spdmGetMeasurements (via : SpdmVia) (index : Nat) (signed : Bool) (nonce : BitVec 256)
  /-- DIST_CREATE (R366). -/
  | distCreate (c : FwReq)
  /-- DIST_DESTROY (R383). -/
  | distDestroy (c : FwReq)
  /-- DIST_PAUSE (R378). -/
  | distPause (c : FwReq)
  /-- DIST_RESUME (R379). -/
  | distResume (c : FwReq)
  /-- DIST_RECOVER (R372). -/
  | distRecover (c : FwReq)
  /-- DIST_INFO (R383). -/
  | distInfo (c : FwReq)
  /-- DIST_DRAIN_DONE (R378). -/
  | distDrainDone (d : Nat)
  /-- DIST_SAVE_DONE (R378). -/
  | distSaveDone (d : Nat)
  /-- DIST_RESTORE_DONE (R379). -/
  | distRestoreDone (d : Nat)
  /-- DIST_RECOVER_DONE (R372). -/
  | distRecoverDone (d : Nat)
  /-- PROG_LOAD (R86). -/
  | progLoad (c : FwReq)
  /-- PROG_LOAD_FINAL (R86). -/
  | progLoadFinal (d : Nat)
  /-- PROG_START (R87). -/
  | progStart (c : FwReq)
  /-- PROG_ABORT (R109). -/
  | progAbort (c : FwReq)
  /-- PROG_ABORT_FINAL (R109). -/
  | progAbortFinal (d : Nat)
  /-- PROG_STATUS (R87). -/
  | progStatus (c : FwReq)
  /-- PROG_UNLOAD (R87). -/
  | progUnload (c : FwReq)
  /-- PROG_SLOT_LOAD (R188). -/
  | progSlotLoad (c : FwReq)
  /-- PROG_SLOT_CLEAR (R188). -/
  | progSlotClear (c : FwReq)
  /-- PROG_SLOT_INFO (R188). -/
  | progSlotInfo (c : FwReq)
  /-- PROG_TBL_LOAD (R201). -/
  | progTblLoad (c : FwReq)
  /-- PROG_TBL_CLEAR (R201). -/
  | progTblClear (c : FwReq)
  /-- PROG_TBL_INFO (R201). -/
  | progTblInfo (c : FwReq)
  /-- TABLE_CHANGE_INSTALL (R201). -/
  | tableChangeInstall (d slot : Nat)
  /-- DESC_FETCH (R88). -/
  | descFetch (d core : Nat)
  /-- MATMUL (R91). -/
  | matmul (d core : Nat)
  /-- MATMUL_TILE_DRAIN (R149). -/
  | matmulTileDrain (d core : Nat)
  /-- LANE (R92). -/
  | lane (d core : Nat)
  /-- SFN (R93). -/
  | sfn (d core : Nat)
  /-- MOVE (R94). -/
  | move (d core : Nat)
  /-- SIGNAL (R95). -/
  | signal (d core : Nat)
  /-- WAIT (R96). -/
  | waitDesc (d core : Nat)
  /-- COLL (R97). -/
  | coll (d core : Nat)
  /-- WALK (R98). -/
  | walk (d core : Nat)
  /-- CENSUS (R99). -/
  | census (d core : Nat)
  /-- FENCE (R100). -/
  | fence (d core : Nat)
  /-- NOP (R100). -/
  | nop (d core : Nat)
  /-- PREFETCH_COMPLETE (R112). -/
  | prefetchComplete (d core idx : Nat)
  /-- DESC_COMPLETE (R104). -/
  | descComplete (d core : Nat)
  /-- PAIR_INCREMENT (R106). -/
  | pairIncrement (d : Nat) (cores : List Nat)
  /-- WAIT_CONDITION_MET (R106). -/
  | waitConditionMet (d core : Nat)
  /-- WAIT_TIMER_EXPIRY (R96). -/
  | waitTimerExpiry (d core : Nat)
  /-- READ_DEADLINE_EXPIRY (R230). -/
  | readDeadlineExpiry (d core idx : Nat) (prefetch : Bool)
  /-- SLICE_ACCESS (R208). -/
  | sliceAccess (d core idx : Nat) (prefetch : Bool) (err : MemErr)
  /-- SLICE_ATOMIC (R210). -/
  | sliceAtomic (d core idx : Nat) (err : MemErr)
  /-- ORDSUM_CONTRIBUTION (R213). -/
  | ordsumContribution (d core idx : Nat) (err : MemErr)
  /-- MEM_TRANSACTION_COMPLETE (R223). -/
  | memTransactionComplete (d core idx : Nat) (prefetch : Bool) (err : MemErr)
  /-- MEM_REQUEST_AGE_LIMIT (R216). -/
  | memRequestAgeLimit (chan : Nat)
  /-- MEM_REFRESH (R216). -/
  | memRefresh (chan bank : Nat) (underLoad : Bool)
  /-- PATROL_SCRUB (R221). -/
  | patrolScrub (site : Nat) (err : MemErr)
  /-- MEM_CE (R221). -/
  | memCe (site : Nat)
  /-- MEM_SEG_SET (R225). -/
  | memSegSet (c : FwReq)
  /-- MEM_SEG_ZERO_FILL_DONE (R238). -/
  | memSegZeroFillDone (d seg : Nat)
  /-- MEM_SEG_CLEAR (R226). -/
  | memSegClear (c : FwReq)
  /-- MEM_SEG_INFO (R238). -/
  | memSegInfo (c : FwReq)
  /-- MEM_MOVE (R238). -/
  | memMove (c : FwReq)
  /-- MEM_MOVE_DONE (R238). -/
  | memMoveDone (d : Nat)
  /-- MEM_VOL_CREATE (R240). -/
  | memVolCreate (c : FwReq)
  /-- MEM_VOL_CREATE_DONE (R240). -/
  | memVolCreateDone (vol : Nat)
  /-- MEM_VOL_DELETE (R244). -/
  | memVolDelete (c : FwReq)
  /-- MEM_VOL_OWNER (R240). -/
  | memVolOwner (c : FwReq)
  /-- MEM_FLASH_INFO (R238). -/
  | memFlashInfo (c : FwReq)
  /-- TIER_EXTENT_TRANSFER_DONE (R235). -/
  | tierExtentTransferDone (d : Nat)
  /-- FLASH_EXTENT_READ_DONE (R242). -/
  | flashExtentReadDone (vol ext retries : Nat) (badSectors : List Nat)
  /-- FLASH_PROGRAM_DONE (R241). -/
  | flashProgramDone (vol ext block : Nat) (ok : Bool)
  /-- FLASH_RETENTION_READ (R243). -/
  | flashRetentionRead (block : Nat) (retries : Bool)
  /-- FLASH_CALIBRATION (R239). -/
  | flashCalibration
  /-- COLL_LINK_CONFIG (R265). -/
  | collLinkConfig (c : FwReq)
  /-- COLL_LINK_ROUTE (R258). -/
  | collLinkRoute (c : FwReq)
  /-- COLL_LINK_ENABLE (R260). -/
  | collLinkEnable (c : FwReq)
  /-- COLL_LINK_DISABLE (R265). -/
  | collLinkDisable (c : FwReq)
  /-- COLL_LINK_INFO (R265). -/
  | collLinkInfo (c : FwReq)
  /-- LINK_TRAINING_ATTEMPT_END (R260). -/
  | linkTrainingAttemptEnd (port : Nat) (ok : Bool)
  /-- IDENT_RECEIVE (R261). -/
  | identReceive (port : Nat) (payload : Bytes)
  /-- FLIT_SEND (R251). -/
  | flitSend (port : Nat)
  /-- NULL_SEND (R253). -/
  | nullSend (port : Nat)
  /-- FLIT_RECEIVE (R248, R250): the 256 bytes the peer sent, and the positions of the bytes of its two interleaved codewords that
  the wire changed: even positions lie in the codeword of the even bytes. -/
  | flitReceive (port : Nat) (flit : Bytes) (errs : List Nat)
  /-- NAK_RECEIVE (R250). -/
  | nakReceive (port fseq : Nat)
  /-- NAK_REPEAT_TIMER (R250). -/
  | nakRepeatTimer (port : Nat)
  /-- CREDIT_SET_RECEIVE (R255). -/
  | creditSetReceive (port : Nat) (sizes : List PoolSize)
  /-- SYNC_SEND (R262). -/
  | syncSend (port : Nat)
  /-- SYNC_RECEIVE (R262). -/
  | syncReceive (port : Nat) (sync : SyncMsg)
  /-- ROOT_LOSS_TIMER (R263). -/
  | rootLossTimer
  /-- LINK_WATCHDOG_EXPIRY (R256). -/
  | linkWatchdogExpiry (port : Nat)
  /-- LANE_LOCK_LOSS (R264). -/
  | laneLockLoss (port lane : Nat)
  /-- RETRAIN_COMPLETE (R264). -/
  | retrainComplete (port : Nat) (ok : Bool) (payload : Bytes) (ackFseq : Nat)
  /-- LINK_CE (R265). -/
  | linkCe (port : Nat)
  /-- COLL_GROUP_CREATE (R267). -/
  | collGroupCreate (c : FwReq)
  /-- COLL_GROUP_DESTROY (R291). -/
  | collGroupDestroy (c : FwReq)
  /-- COLL_PLAN_SET (R271). -/
  | collPlanSet (c : FwReq)
  /-- COLL_GROUP_RESET (R290). -/
  | collGroupReset (c : FwReq)
  /-- COLL_ABORT (R289). -/
  | collAbort (c : FwReq)
  /-- COLL_GROUP_INFO (R291). -/
  | collGroupInfo (c : FwReq)
  /-- COLL_PUT_ACCEPT (R269). -/
  | collPutAccept (g : Nat)
  /-- CHUNK_MESSAGE_RECEIVE (R277). -/
  | chunkMessageReceive (g port : Nat)
  /-- CHUNK_CHECK_DONE (R286). -/
  | chunkCheckDone (g chunk src : Nat) (crcOk : Bool)
  /-- CHUNK_ACK_BATCH (R286). -/
  | chunkAckBatch (g : Nat)
  /-- RETX_REQUEST_RECEIVE (R286). -/
  | retxRequestReceive (g src chunk : Nat)
  /-- TAINT_NOTICE_RECEIVE (R287): `pos` is the member the notice is for. -/
  | taintNoticeReceive (g : Nat) (gseq : BitVec 64) (pos : Nat)
  /-- ABORT_NOTICE_RECEIVE (R289): `pos` is the member the notice is for. -/
  | abortNoticeReceive (g : Nat) (gseq : BitVec 64) (detector pos : Nat)
  /-- GROUP_TIMEOUT_EXPIRY (R289). -/
  | groupTimeoutExpiry (g : Nat)
  /-- INSTANCE_CLOSE (R285). -/
  | instanceClose (g : Nat)
  /-- COLL_DIR_WRITE (R311). -/
  | collDirWrite (c : FwReq)
  /-- DIR_WRITE_INSTALL (R312). -/
  | dirWriteInstall (d : Nat)
  /-- COLL_DIR_READ (R327). -/
  | collDirRead (c : FwReq)
  /-- COLL_DISP_BIND (R313). -/
  | collDispBind (c : FwReq)
  /-- COLL_DISP_INFO (R327). -/
  | collDispInfo (c : FwReq)
  /-- DISPATCH_BLOCK_ROUTE (R315). -/
  | dispatchBlockRoute (g : Nat)
  /-- DISPATCH_MESSAGE_RECEIVE (R318). -/
  | dispatchMessageReceive (g port : Nat)
  /-- DISPATCH_INBOX_WRITE (R319). -/
  | dispatchInboxWrite (g : Nat)
  /-- COLD_WARMING_DONE (R322). -/
  | coldWarmingDone (g slot : Nat)
  /-- COLD_DEADLINE_EXPIRY (R322). -/
  | coldDeadlineExpiry (g slot : Nat)
  /-- RETURN_MESSAGE_RECEIVE (R323). -/
  | returnMessageReceive (g port : Nat)
  /-- SLOT_COUNTS_TAKE_DONE (R320). -/
  | slotCountsTakeDone (g : Nat)
  /-- INSTANCE_COUNTS_TAKE_DONE (R324). -/
  | instanceCountsTakeDone (g : Nat)
  /-- STEP_CONFIG (R330). -/
  | stepConfig (c : FwReq)
  /-- STEP_RUN (R348). -/
  | stepRun (c : FwReq)
  /-- STEP_STOP (R345). -/
  | stepStop (c : FwReq)
  /-- STEP_COMMIT (R340). -/
  | stepCommit (c : FwReq)
  /-- STEP_RESUME (R342). -/
  | stepResume (c : FwReq)
  /-- STEP_INFO (R346). -/
  | stepInfo (c : FwReq)
  /-- STEP_SET (R348). -/
  | stepSet (c : FwReq)
  /-- STEP_OPEN (R331). -/
  | stepOpen (d : Nat)
  /-- FEED_MOVE_DONE (R332). -/
  | feedMoveDone (d : Nat)
  /-- GATE_MEMBER_READY (R339). -/
  | gateMemberReady (d : Nat)
  /-- GATE_MESSAGE_RECEIVE (R340). -/
  | gateMessageReceive (d : Nat) (msg : GateMsg)
  /-- UPDATE_PROGRAM_COMPLETE (R344). -/
  | updateProgramComplete (d : Nat)
  /-- GATE_EVAL_TIMEOUT (R344). -/
  | gateEvalTimeout (d : Nat)
  /-- EARLY_REFUSAL_NOTICE (R343). -/
  | earlyRefusalNotice (d pos causes sig : Nat)
  /-- EARLY_ABORT_COMPLETE (R343). -/
  | earlyAbortComplete (d : Nat)
  /-- SERVE_POOL_CREATE (R350). -/
  | servePoolCreate (c : FwReq)
  /-- SERVE_POOL_DESTROY (R365). -/
  | servePoolDestroy (c : FwReq)
  /-- SERVE_JOIN (R363). -/
  | serveJoin (c : FwReq)
  /-- SERVE_LEAVE (R365). -/
  | serveLeave (c : FwReq)
  /-- SERVE_TRUNCATE (R356). -/
  | serveTruncate (c : FwReq)
  /-- IMMEDIATE_EDIT_APPLY (R356). -/
  | immediateEditApply (d slot : Nat)
  /-- SERVE_SEQ_INFO (R365). -/
  | serveSeqInfo (c : FwReq)
  /-- SERVE_POOL_INFO (R365). -/
  | servePoolInfo (c : FwReq)
  /-- SERVE_RUN (R374). -/
  | serveRun (c : FwReq)
  /-- SERVE_STOP (R374). -/
  | serveStop (c : FwReq)
  /-- SERVE_BOUNDARY (R362): the boundary's phases up to and with phase `upto` of 1–3, or all that remain (any other value). -/
  | serveBoundary (d upto : Nat)
  /-- SERVE_STEP_START (R375). -/
  | serveStepStart (d : Nat) (cons : BitVec 64)
  /-- SERVE_STEP_COMPLETE (R375). -/
  | serveStepComplete (d : Nat)
  /-- MEDIA_JOB_START (R387). -/
  | mediaJobStart (c : FwReq)
  /-- MEDIA_JOB_EXTEND (R399). -/
  | mediaJobExtend (c : FwReq)
  /-- MEDIA_JOB_STOP (R400). -/
  | mediaJobStop (c : FwReq)
  /-- MEDIA_PIPE_INFO (R399). -/
  | mediaPipeInfo (c : FwReq)
  /-- MEDIA_FRAME_DECODE (R391). -/
  | mediaFrameDecode (pipe : Nat) (frame : DecodedFrame)
  /-- MEDIA_FRAME_ENCODE (R394). -/
  | mediaFrameEncode (pipe : Nat) (frame : EncodedFrame)
  /-- TOKEN_GROUP_CONVERT (R396). -/
  | tokenGroupConvert (pipe : Nat)
  /-- MEDIA_JOB_END (R399). -/
  | mediaJobEnd (kind : Bool) (pipe : Nat)
  /-- SNAP_POLICY (R405). -/
  | snapPolicy (c : FwReq)
  /-- SNAP_TAKE (R406). -/
  | snapTake (c : FwReq)
  /-- SNAP_INFO (R416). -/
  | snapInfo (c : FwReq)
  /-- SNAP_RESTORE (R410). -/
  | snapRestore (c : FwReq)
  /-- SNAP_RESTORE_DONE (R410). -/
  | snapRestoreDone (d : Nat)
  /-- SNAP_FILL (R412). -/
  | snapFill (c : FwReq)
  /-- SNAP_FILL_INFO (R416). -/
  | snapFillInfo (c : FwReq)
  /-- SNAP_SERVE (R412). -/
  | snapServe (c : FwReq)
  /-- SNAP_CAPTURE_DONE (R407). -/
  | snapCaptureDone (d : Nat)
  /-- SNAP_MIRROR_RECEIVE (R407). -/
  | snapMirrorReceive (d ext : Nat) (data : Bytes) (last : Bool)
  /-- SNAP_REGION_WRITE_DONE (R408). -/
  | snapRegionWriteDone (d : Nat) (mirror : Bool)
  /-- FILL_REQUEST_RECEIVE (R412). -/
  | fillRequestReceive (d ext : Nat)
  /-- FILL_EXTENT_RECEIVE (R412). -/
  | fillExtentReceive (d ext : Nat) (data : Bytes) (crcOk : Bool)
  /-- HEALTH_RECOMPUTE (R403). -/
  | healthRecompute (droops : Nat)
  /-- SEC_UPDATE_BEGIN (R444). -/
  | secUpdateBegin (c : FwReq)
  /-- SEC_UPDATE_DATA (R444). -/
  | secUpdateData (c : FwReq)
  /-- SEC_UPDATE_END (R427). -/
  | secUpdateEnd (c : FwReq)
  /-- SEC_ROLLBACK_ADVANCE (R428). -/
  | secRollbackAdvance (c : FwReq)
  /-- SEC_OWNER_SET (R429). -/
  | secOwnerSet (c : FwReq)
  /-- SEC_LIFECYCLE (R418). -/
  | secLifecycle (c : FwReq)
  /-- LIFECYCLE_RETURN_DONE (R420). -/
  | lifecycleReturnDone
  /-- SEC_STORE_WRITE (R423). -/
  | secStoreWrite (c : FwReq)
  /-- STORE_WRITE_DONE (R423). -/
  | storeWriteDone
  /-- SEC_INFO (R444). -/
  | secInfo (c : FwReq)
  /-- PWR_STATE (R439). -/
  | pwrState (c : FwReq)
  /-- PWR_CAP (R459). -/
  | pwrCap (c : FwReq)
  /-- PWR_INFO (R444). -/
  | pwrInfo (c : FwReq)
  /-- DBG_NONCE (R436). -/
  | dbgNonce (c : FwReq)
  /-- DBG_OPEN (R435). -/
  | dbgOpen (c : FwReq)
  /-- DBG_CLOSE (R437). -/
  | dbgClose (c : FwReq)
  /-- DBG_ACCESS (R444). -/
  | dbgAccess (c : FwReq)
  /-- DBG_INFO (R444). -/
  | dbgInfo (c : FwReq)
  /-- ZEROISE_DONE (R437). -/
  | zeroiseDone (micros : Nat)
  /-- NONCE_EXPIRY (R436). -/
  | nonceExpiry
  /-- DEBUG_SESSION_EXPIRY (R437). -/
  | debugSessionExpiry
  /-- JTAG_IDCODE (R462). -/
  | jtagIdcode
  /-- JTAG_BYPASS (R462). -/
  | jtagBypass (code : BitVec 8)
  /-- JTAG_SAMPLE_PRELOAD (R462). -/
  | jtagSamplePreload (load : Option (List Bool))
  /-- JTAG_EXTEST (R438). -/
  | jtagExtest
  /-- JTAG_CLAMP (R438). -/
  | jtagClamp
  /-- JTAG_HIGHZ (R438). -/
  | jtagHighz
  /-- JTAG_EXTEST_PULSE (R438). -/
  | jtagExtestPulse
  /-- JTAG_EXTEST_TRAIN (R438). -/
  | jtagExtestTrain
  /-- JTAG_DBG_NONCE (R438). -/
  | jtagDbgNonce
  /-- JTAG_DBG_TOKEN (R438). -/
  | jtagDbgToken (payload : Bytes)
  /-- JTAG_DBG_ACCESS (R438). -/
  | jtagDbgAccess (payload : Bytes)
  /-- JTAG_SCAN_CHAIN (R438). -/
  | jtagScanChain (chain : Nat)
  /-- AON_RST_N_ASSERT (R453). -/
  | aonRstNAssert
  /-- AON_RST_N_DEASSERT (R31). -/
  | aonRstNDeassert
  /-- SYS_RST_N_ASSERT (R453). -/
  | sysRstNAssert
  /-- SYS_RST_N_DEASSERT (R427). -/
  | sysRstNDeassert (training : TrainingResult)
  /-- INDEX_BUILD_DONE (R38). -/
  | indexBuildDone
  /-- BOOT_VERIFY_DONE (R427). -/
  | bootVerifyDone
  /-- PERST_N_ASSERT (R453). -/
  | perstNAssert
  /-- PERST_N_DEASSERT (R450). -/
  | perstNDeassert
  /-- PWR_GOOD_FALL (R451). -/
  | pwrGoodFall
  /-- RAIL_OUT_OF_RANGE_EXPIRY (R451). -/
  | railOutOfRangeExpiry (rail : Nat)
  /-- PROCHOT_ASSERT (R459). -/
  | prochotAssert
  /-- PROCHOT_DEASSERT (R459). -/
  | prochotDeassert
  /-- RAIL_CURRENT_LIMIT (R459). -/
  | railCurrentLimit (die : Nat)
  /-- AVS_ACK (R448). -/
  | avsAck (die : Nat)
  /-- POWER_CAP_WINDOW (R459). -/
  | powerCapWindow (meanWatts : Nat)
  /-- THERMAL_SENSOR_SAMPLE (R460). -/
  | thermalSensorSample (east west hub keeper : Int)
  /-- THERMAL_THROTTLE_TICK (R460). -/
  | thermalThrottleTick
  /-- THERMAL_RAISE_TICK (R460). -/
  | thermalRaiseTick
  /-- FW_WATCHDOG_EXPIRY (R402). -/
  | fwWatchdogExpiry (processor : Nat)
  /-- FATAL_ACK_TIMEOUT (R402). -/
  | fatalAckTimeout
  /-- AUTO_IDLE_EXPIRY (R439). -/
  | autoIdleExpiry
  /-- IDLE_EXIT (R439). -/
  | idleExit
  /-- RETAIN_ENTRY_DONE (R440). -/
  | retainEntryDone
  /-- RETAIN_EXIT_DONE (R440). -/
  | retainExitDone
  /-- OFF_WAIT_EXPIRY (R441). -/
  | offWaitExpiry
  /-- CHUNK_ACK_RECEIVE (R286). -/
  | chunkAckReceive (g src : Nat) (chunks : List Nat)
  /-- BRIDGE_LINK_LOSS (R402). -/
  | bridgeLinkLoss
  /-- TIMEBASE_REPLICA_LOCK_FAILURE (R402). -/
  | timebaseReplicaLockFailure
  /-- FLASH_ERASE_DONE (R243). -/
  | flashEraseDone (block : Nat) (ok : Bool)
  /-- CONFIG_WRITE (R56). -/
  | configWrite (fn : Nat) (w : CfgWrite)
  /-- UPDATE_SLOT_WRITE_DONE (R444). -/
  | updateSlotWriteDone
  /-- PCIE_L0P_WIDTH_CHANGE (R473). -/
  | pcieL0pWidthChange (width : Nat)
  deriving DecidableEq, Repr

end Sys2Proof
end

