-- ==== Sys2Proof/Decode.lean ====
section
/-! DEFINITION. Every row of spec/opcode_table.json gives no bits, so no word spells a command. -/

namespace Sys2Proof

/-- The command a word spells by the table's bits. The table gives no row any bits, so there is none. -/
def decodeTableWord (_nbits _w : Nat) : Option Instr := none

end Sys2Proof
end

