-- ==== Sys2Proof/Config.lean ====
section
/-! DEFINITION. What an implementation fixes and the spec does not print, and the free values: opaque constants
without a body, so that no proof can rest on what they are. The rule of each is in its comment and in the
assumption log. -/

namespace Sys2Proof.Config

/-- A coefficient of the built-in functions' ROM (R175, R190): function code, 0 for positive and 1 for negative x,
segment number, power of t. The data file FZ3000_SFN_ROM_A1.csv is not part of the spec (log entry 10);
what the spec promises of it is in Machine/Bounds.lean. -/
opaque sfnCoef : Nat → Nat → Nat → Nat → BitVec 32

/-- What the spec does not print of a shipped micro-program image (R189), by its ID: its numbers of constants and of tables, its
FUNC_ID, its step words, its constants and its table entries (log entry 11). -/
opaque shippedConsts : Nat → Nat
opaque shippedTables : Nat → Nat
opaque shippedFuncId : Nat → BitVec 32
opaque shippedStep : Nat → Nat → BitVec 64
opaque shippedConst : Nat → Nat → BitVec 32
opaque shippedEntry : Nat → Nat → BitVec 64

/-- SHA-512 (R40, R427, R432): a function of the bytes whose definition lies outside the spec (log entry 12). -/
opaque sha512 : List Byte → List Byte

/-- ECDSA P-521 verification of a signature over a digest by a public key (R426, R436) (log entry 12). -/
opaque ecdsaOk : List Byte → List Byte → List Byte → Bool

/-- The ROM's digest of vendor key KEY_INDEX (R427) (log entry 12). -/
opaque vendorKeyDigest : Nat → List Byte

/-- The vendor key that signs identity records (R421) (log entry 12). -/
opaque identityVendorKey : List Byte

/-- The choice of retired sites in an IDENTITY payload's map (R51), whose layout the spec does not give: a number that picks
them, by quarter and rank (log entry 135). -/
opaque retiredMap : List Byte → Nat → Nat → Nat

/-- The public identity key that the PUF yields from the helper data of an IDENTITY payload (R430, R436). -/
opaque identityKey : List Byte → List Byte

/-- The certificate chain held in an IDENTITY payload (R430), whose layout the spec does not give (log entry 12). -/
opaque identityCert : List Byte → List Byte

/-- An attestation signature by the identity key over a digest (R430) (log entry 12). -/
opaque identitySign : List Byte → List Byte

/-- The PUF-keyed HMAC-SHA-512 of the counters (R428) (log entry 12). -/
opaque countersMac : List Nat → List Byte

/-- The ROM image's digest (R432 index 1). -/
opaque romDigest : List Byte

/-- The bytes of the n-th nonce the security processor's generator gives (R436). -/
opaque nonce : Nat → BitVec 256

/-- The value of a PCIe configuration dword, which the PCIe base specification lays out and the spec does not
(R54, R55): the capabilities and settings it shows, function, offset, read number (log entry 13). -/
opaque configSpace : List Nat → Nat → Nat → Nat → BitVec 32

/-- The physical address that the event MEM_UE names (R222): the spec gives no physical map (log entry 14). -/
opaque physAddr : Nat → Nat → Nat

/-- Byte number `i` of the eight parity bytes of an RS(136,128) codeword over its 128 data bytes (R248): the spec names the code, not
its field or generator (log entry 154). -/
opaque rsParity : List Byte → Nat → Byte

/-- Byte number `i` of a SYNC flit's payload (R262): the spec lists what it carries, not its layout (log entry 155). -/
opaque syncPayload : List Nat → Nat → Byte

/-- Byte number `i` of the first flit of a message whose layout the spec does not give (R251): channel, kind and content (log
entry 155). -/
opaque sysHead : Nat → Nat → List Nat → Nat → Byte

/-- The bank and row in which a byte of a backing lies within its channel (R215, R216): the spec gives no hash (log entry 139). -/
opaque bankRow : Nat → Nat → Nat × Nat

/-- The blocks that carry factory marks (R243; log entry 33). -/
opaque factoryMarks : List Nat

/-- A district's segment table base (R21), which the spec does not give (log entry 140). -/
opaque segTable : Nat → Nat

/-- A value the spec leaves open, by the number of its use (log entry 9). -/
opaque freeValue : Nat → Nat

/-- The signature of a job's values that the gate's messages carry (R330), a CRC-32C of bytes whose layout the spec does not
give (log entry 23). -/
opaque jobSig : List Nat → BitVec 32

/-- The number an event's payload gives a cause that the spec names without a number: event code, cause (log entry 24). -/
opaque causeCode : Nat → Nat → Nat

/-- The flash medium's geometry, which the spec does not give (R240, R243; log entry 33): 0 blocks in all, 1 spare blocks when
new. -/
opaque flashGeometry : Nat → Nat

/-- The channel, target and number within the target of a flash block (R243; log entry 33). -/
opaque flashPlace : Nat → Nat × Nat × Nat

/-- Bits of a JTAG data register whose length or content the spec leaves to the boundary-scan description file
(R462): instruction code, use number (log entry 15). -/
opaque jtagBits : Nat → Nat → List Byte

/-- Parenora's JEP106 identity in IDCODE, which the boundary-scan description file gives (R462; log entry 15). -/
opaque jepId : Nat

/-- What a DBG_ACCESS injection with an ADDR and data injects (R433, R444; log entry 37): the kind of error and a number that
picks its target. -/
opaque injection : Nat → List Byte → Nat × Nat

/-- Where a byte of a quarter's slice lies (R206, R433; log entry 38): physical quarter and slice address to the number of a
backing and an offset in it. -/
opaque slicePlace : Nat → Nat → Nat × Nat

end Sys2Proof.Config
end

