-- ==== Sys2Proof/Machine/Bits.lean ====
section
/-! DEFINITION. Byte strings, bit fields, sparse tables, byte memories and CRCs: the plain computations every other
file of the machine uses. Every multi-byte field is little-endian (R7). -/

namespace Sys2Proof.Machine

/-! ## Little-endian numbers and bit fields (R7) -/

/-- The number a byte string holds, byte 0 least significant (R7). -/
def leNat : Bytes → Nat
  | [] => 0
  | b :: bs => b.toNat + 256 * leNat bs

/-- The `n` bytes of a number, byte 0 least significant (R7). -/
def leBytes : Nat → Nat → Bytes
  | 0, _ => []
  | n + 1, v => BitVec.ofNat 8 v :: leBytes n (v / 256)

/-- The field at bits `[hi:lo]` of a byte string; bits beyond its end read 0. -/
def fld (b : Bytes) (hi lo : Nat) : Nat :=
  leNat ((b.drop (lo / 8)).take (hi / 8 + 1 - lo / 8)) / 2 ^ (lo % 8) % 2 ^ (hi + 1 - lo)

/-- Bit `i` of a byte string. -/
def bit (b : Bytes) (i : Nat) : Bool := fld b i i == 1

/-- Every listed field `(hi, lo)` of a byte string is zero: the reserved-field check of R9. -/
def zeroAt (b : Bytes) (fs : List (Nat × Nat)) : Bool := fs.all fun f => fld b f.1 f.2 == 0

/-- Fields `(width, value)` packed upward from bit 0, each cut to its width. -/
def packNat : List (Nat × Nat) → Nat
  | [] => 0
  | (w, v) :: fs => v % 2 ^ w + 2 ^ w * packNat fs

/-- Fields `(width, value)` packed upward from bit 0 into `n` bytes. -/
def pack (n : Nat) (fs : List (Nat × Nat)) : Bytes := leBytes n (packNat fs)

/-- A Boolean as the number of a one-bit field. -/
def b2n (b : Bool) : Nat := if b then 1 else 0

/-- `n` zero bytes. -/
def zeros (n : Nat) : Bytes := List.replicate n 0

/-- The `n` bytes at offset `off`; bytes beyond the end read 0. -/
def slice (b : Bytes) (off n : Nat) : Bytes :=
  let t := (b.drop off).take n
  t ++ zeros (n - t.length)

/-- `v` read as a two's-complement number of `w` bits. -/
def sext (w v : Nat) : Int :=
  let x := v % 2 ^ w
  if x < 2 ^ (w - 1) then (x : Int) else (x : Int) - (2 ^ w : Nat)

/-- An integer as a two's-complement field of `w` bits. -/
def twos (w : Nat) (i : Int) : Nat := (i % (2 ^ w : Nat)).toNat

/-- The numbers of the set bits of `v` below `n`, lowest first. -/
def setBits (n v : Nat) : List Nat := (List.range n).filter fun i => v.testBit i

/-- The mask with the listed bits set. -/
def maskOf (l : List Nat) : Nat := l.foldl (fun a i => a ||| 2 ^ i) 0

/-- Division rounding up. -/
def cdiv (a b : Nat) : Nat := (a + b - 1) / b

/-- `a` rounded up to a multiple of `b`. -/
def roundUp (a b : Nat) : Nat := cdiv a b * b

/-- `v + k` held at `m` (a saturating counter). -/
def satAdd (m v k : Nat) : Nat := min m (v + k)

/-- The list cut into runs of `n` elements; `fuel` bounds the number of runs. -/
def chunksOf {α : Type} (n : Nat) : Nat → List α → List (List α)
  | 0, _ => []
  | _, [] => []
  | fuel + 1, l => l.take n :: chunksOf n fuel (l.drop n)

/-- The list with its element number `i` replaced. -/
def setAt {α : Type} : List α → Nat → α → List α
  | [], _, _ => []
  | _ :: xs, 0, v => v :: xs
  | x :: xs, i + 1, v => x :: setAt xs i v

/-! ## Sparse tables -/

/-- The entry of a table at a key, when it is listed. -/
def tfind {α : Type} : AMap α → Nat → Option α
  | [], _ => none
  | (j, v) :: m, k => if j = k then some v else tfind m k

/-- The entry of a table at a key; an unlisted key has the default `d`. -/
def tget {α : Type} (d : α) (m : AMap α) (k : Nat) : α := (tfind m k).getD d

/-- The table with the entry at a key set; keys stay strictly rising. -/
def tset {α : Type} : AMap α → Nat → α → AMap α
  | [], k, v => [(k, v)]
  | (j, w) :: m, k, v =>
    if k < j then (k, v) :: (j, w) :: m else if k = j then (k, v) :: m else (j, w) :: tset m k v

/-- The table without the entry at a key. -/
def tdel {α : Type} (m : AMap α) (k : Nat) : AMap α := m.filter fun e => e.1 != k

/-- The table with the entry at a key changed by `f`, from the default when it is not listed. -/
def tmod {α : Type} (d : α) (m : AMap α) (k : Nat) (f : α → α) : AMap α := tset m k (f (tget d m k))

/-- Every listed entry changed by `f`. -/
def tmap {α β : Type} (m : AMap α) (f : Nat → α → β) : AMap β := m.map fun e => (e.1, f e.1 e.2)

/-- A key is listed. -/
def thas {α : Type} (m : AMap α) (k : Nat) : Bool := (tfind m k).isSome

/-! ## Byte memories -/

/-- What a byte of a memory reads as: an unlisted address reads 0. -/
def memGet : Mem → Nat → Byte
  | [], _ => 0
  | (j, v) :: m, a => if j = a then v else memGet m a

/-- A memory with one byte written; the form stays canonical: addresses strictly rising, no entry that holds 0. -/
def memSet : Mem → Nat → Byte → Mem
  | [], a, b => if b = 0 then [] else [(a, b)]
  | (j, w) :: m, a, b =>
    if a < j then (if b = 0 then (j, w) :: m else (a, b) :: (j, w) :: m)
    else if a = j then (if b = 0 then m else (a, b) :: m)
    else (j, w) :: memSet m a b

/-- The `n` bytes at an address. -/
def memRead (m : Mem) : Nat → Nat → Bytes
  | _, 0 => []
  | a, n + 1 => memGet m a :: memRead m (a + 1) n

/-- A memory with the bytes written from an address upward. -/
def memWrite (m : Mem) (a : Nat) : Bytes → Mem
  | [] => m
  | b :: bs => memWrite (memSet m a b) (a + 1) bs

/-- A memory with every byte of `[a, a + n)` returned to 0. -/
def memClear (m : Mem) (a n : Nat) : Mem := m.filter fun c => !(a ≤ c.1 && c.1 < a + n)

/-- The memory holding a byte string from address 0. -/
def memOf (b : Bytes) : Mem := memWrite [] 0 b

/-- The canonical form of a memory: addresses strictly rising, and no entry equal to 0. -/
def memWf : Mem → Bool
  | [] => true
  | [c] => c.2 != 0
  | c :: d :: m => c.2 != 0 && decide (c.1 < d.1) && memWf (d :: m)

/-! ## Sets of numbers, held as lists without repeats -/

/-- The set with one number added. -/
def nsAdd (s : NSet) (k : Nat) : NSet := if s.contains k then s else s ++ [k]

/-- The set without one number. -/
def nsDel (s : NSet) (k : Nat) : NSet := s.filter (· != k)

/-- The granules of 64 bytes a byte range touches. -/
def granules (a n : Nat) : List Nat :=
  if n = 0 then [] else (List.range ((a + n - 1) / 64 + 1 - a / 64)).map (· + a / 64)

/-! ## CRCs, bit-reflected, initial value all ones and the result complemented -/

/-- One bit of a reflected CRC with polynomial `p`. -/
def crcBit (p c : Nat) : Nat := if c % 2 = 1 then (c / 2).xor p else c / 2

/-- One byte of a reflected CRC with polynomial `p`. -/
def crcByte (p c : Nat) (b : Byte) : Nat :=
  let x := c.xor b.toNat
  crcBit p (crcBit p (crcBit p (crcBit p (crcBit p (crcBit p (crcBit p (crcBit p x)))))))

/-- A reflected 32-bit CRC with polynomial `p`, initial value all ones, result complemented. -/
def crc32With (p : Nat) (b : Bytes) : Nat := (b.foldl (crcByte p) 0xFFFFFFFF).xor 0xFFFFFFFF

/-- CRC-32C (Castagnoli). PRESUMED: the bit order (reflected) is the customary one; log entry 6. -/
def crc32c (b : Bytes) : Nat := crc32With 0x82F63B78 b

/-- CRC-32 with polynomial 0x04C1_1DB7 (R249). PRESUMED: the bit order (reflected); log entry 6. -/
def crc32 (b : Bytes) : Nat := crc32With 0xEDB88320 b

end Sys2Proof.Machine
end

