-- ==== Sys2Proof/Machine/Num.lean ====
section
/-! DEFINITION. Exact numbers and their rounding: the value of a bit pattern (R113), the grids of R114, FP32
arithmetic that rounds once to nearest even (R138–R141, R159, R170, R185), with the IEEE 754 rules for
infinities, NaN and signed zeros. -/

namespace Sys2Proof.Machine

/-- The exact value of a number: NaN, an infinity, or (−1)^neg × m × 2^e. -/
inductive Fv where
  | nan
  | inf (neg : Bool)
  | fin (neg : Bool) (m : Nat) (e : Int)
  deriving DecidableEq, Repr

/-- What the all-ones exponent means in a format (R113). -/
inductive Special where
  | ieee
  | e4m3
  | none
  deriving DecidableEq, Repr

/-- A floating-point layout: exponent and mantissa widths, bias, specials (R113). -/
structure Layout where
  eb : Nat
  mb : Nat
  bias : Nat
  special : Special
  deriving DecidableEq, Repr

/-- The layouts of the floating-point format codes 0x01–0x08 (R113); 0x09 and 0x0A are INT formats. -/
def layoutOf : Nat → Option Layout
  | 1 => some ⟨8, 23, 127, .ieee⟩
  | 2 => some ⟨8, 7, 127, .ieee⟩
  | 3 => some ⟨5, 10, 15, .ieee⟩
  | 4 => some ⟨4, 3, 7, .e4m3⟩
  | 5 => some ⟨5, 2, 15, .ieee⟩
  | 6 => some ⟨3, 2, 3, .none⟩
  | 7 => some ⟨2, 3, 1, .none⟩
  | 8 => some ⟨2, 1, 1, .none⟩
  | _ => none

/-- Element width in bits of a format code (R47). -/
def fmtBits : Nat → Nat
  | 1 => 32 | 2 => 16 | 3 => 16 | 4 => 8 | 5 => 8 | 6 => 6 | 7 => 6 | 8 => 4 | 9 => 8 | 10 => 4
  | _ => 0

/-- The format codes that exist (R47). -/
def fmtValid (c : Nat) : Bool := 1 ≤ c && c ≤ 10

/-- FP32, BF16 and FP16 are the wide formats. -/
def fmtWide (c : Nat) : Bool := 1 ≤ c && c ≤ 3

/-- The narrow formats, 0x04–0x0A. -/
def fmtNarrow (c : Nat) : Bool := 4 ≤ c && c ≤ 10

/-- The INT formats. -/
def fmtInt (c : Nat) : Bool := c == 9 || c == 10

/-- USE bit 3: scale mode F is permitted (R47, R117). -/
def fmtModeF (c : Nat) : Bool := 6 ≤ c && c ≤ 8

/-- USE bit 4: 2:4 sparse weights are permitted (R47, R137). -/
def fmtSparse (c : Nat) : Bool := 2 ≤ c && c ≤ 10

/-- Matrix dot depth of a format: DEPTH of its FORMAT entry (R47). -/
def fmtDepth (c : Nat) : Nat := if c = 1 then 0 else if c ≤ 3 then 1 else if c = 8 ∨ c = 10 then 4 else 2

/-- The value of a bit pattern in a floating-point layout (R113, R114). -/
def fpDecode (l : Layout) (b : Nat) : Fv :=
  let m := b % 2 ^ l.mb
  let e := b / 2 ^ l.mb % 2 ^ l.eb
  let neg := b / 2 ^ (l.mb + l.eb) % 2 == 1
  let top := 2 ^ l.eb - 1
  if e = top ∧ l.special = .ieee then (if m = 0 then .inf neg else .nan)
  else if e = top ∧ l.special = .e4m3 ∧ m = 2 ^ l.mb - 1 then .nan
  else if e = 0 then .fin neg m (1 - (l.bias : Int) - l.mb)
  else .fin neg (2 ^ l.mb + m) ((e : Int) - l.bias - l.mb)

/-- The value of an element of a format code; INT formats are two's complement, read at their value (R113). -/
def decodeElem (fmt b : Nat) : Fv :=
  match layoutOf fmt with
  | some l => fpDecode l b
  | none =>
    let v := sext (fmtBits fmt) b
    .fin (decide (v < 0)) v.natAbs 0

/-- The magnitude `m × 2^e` rounded to nearest even on the grid with `p` significand bits and least exponent
`emin` (R122): the answer is a multiple of the returned power of two. -/
def roundGrid (p : Nat) (emin : Int) (m : Nat) (e : Int) : Nat × Int :=
  if m = 0 then (0, emin)
  else
    let u := max (e + Nat.log2 m + 1 - p) emin
    if u ≤ e then (m * 2 ^ (e - u).toNat, u)
    else
      let s := (u - e).toNat
      let q := m / 2 ^ s
      let r := m % 2 ^ s
      let h := 2 ^ (s - 1)
      (if r > h ∨ (r = h ∧ q % 2 = 1) then q + 1 else q, u)

/-- `m × 2^e ≤ n × 2^f` -/
def leDy (m : Nat) (e : Int) (n : Nat) (f : Int) : Bool :=
  if e ≤ f then m ≤ n * 2 ^ (f - e).toNat else m * 2 ^ (e - f).toNat ≤ n

/-- The bits of sign and magnitude `q × 2^u` that lies on a layout's grid, with `none` when it is above the
largest finite value. -/
def fpPack (l : Layout) (neg : Bool) (q : Nat) (u : Int) : Option Nat :=
  let s := b2n neg * 2 ^ (l.mb + l.eb)
  if q = 0 then some s
  else
    let lg : Int := Nat.log2 q
    let mn : Int := 1 - (l.bias : Int)
    let ex := u + lg
    let frac : Int := (if ex < mn then mn else ex) - l.mb
    let sig := if u ≤ frac then q / 2 ^ (frac - u).toNat else q * 2 ^ (u - frac).toNat
    let field : Nat := if ex < mn then 0 else (ex + l.bias).toNat
    let body := if ex < mn then sig else field * 2 ^ l.mb + (sig - 2 ^ l.mb)
    let top := 2 ^ (l.mb + l.eb)
    let lim := match l.special with
      | .ieee => top - 2 ^ l.mb
      | .e4m3 => top - 1
      | .none => top
    if body < lim then some (s + body) else none

/-- The FP32 layout. -/
def f32Layout : Layout := ⟨8, 23, 127, .ieee⟩

/-- The canonical quiet NaN in FP32 (R115). -/
def f32Nan : Nat := 0x7FC00000

/-- FP32 infinity of a sign. -/
def f32Inf (neg : Bool) : Nat := b2n neg * 2 ^ 31 + 0x7F800000

/-- The value of an FP32 pattern. -/
def f32 (b : Nat) : Fv := fpDecode f32Layout b

/-- An exact value rounded once to FP32, to nearest even (R138): overflow gives an infinity (R141). -/
def toF32 : Fv → Nat
  | .nan => f32Nan
  | .inf neg => f32Inf neg
  | .fin neg m e =>
    let r := roundGrid 24 (-149) m e
    (fpPack f32Layout neg r.1 r.2).getD (f32Inf neg)

/-- The exact sum, with the IEEE 754 rules for infinities and the sign of zero. -/
def fvAdd : Fv → Fv → Fv
  | .nan, _ => .nan
  | _, .nan => .nan
  | .inf a, .inf b => if a = b then .inf a else .nan
  | .inf a, _ => .inf a
  | _, .inf b => .inf b
  | .fin s m e, .fin t n f =>
    if m = 0 ∧ n = 0 then .fin (s && t) 0 e
    else if m = 0 then .fin t n f
    else if n = 0 then .fin s m e
    else
      let g := min e f
      let a : Int := (if s then -1 else 1) * (m * 2 ^ (e - g).toNat : Nat)
      let b : Int := (if t then -1 else 1) * (n * 2 ^ (f - g).toNat : Nat)
      .fin (decide (a + b < 0)) (a + b).natAbs g

/-- The exact product (R138), with 0 × ∞ a NaN (R141). -/
def fvMul : Fv → Fv → Fv
  | .nan, _ => .nan
  | _, .nan => .nan
  | .inf a, .inf b => .inf (a != b)
  | .inf a, .fin t n _ => if n = 0 then .nan else .inf (a != t)
  | .fin s m _, .inf b => if m = 0 then .nan else .inf (s != b)
  | .fin s m e, .fin t n f => .fin (s != t) (m * n) (e + f)

/-- The sign inverted. -/
def fvNeg : Fv → Fv
  | .nan => .nan
  | .inf s => .inf !s
  | .fin s m e => .fin (!s) m e

/-- The magnitude. -/
def fvAbs : Fv → Fv
  | .nan => .nan
  | .inf _ => .inf false
  | .fin _ m e => .fin false m e

/-- The exact quotient, cut to more bits than any rounding here needs, with a sticky bit below them. -/
def fvDiv : Fv → Fv → Fv
  | .nan, _ => .nan
  | _, .nan => .nan
  | .inf _, .inf _ => .nan
  | .inf a, .fin t _ _ => .inf (a != t)
  | .fin s _ _, .inf b => .fin (s != b) 0 0
  | .fin s m e, .fin t n f =>
    if n = 0 then (if m = 0 then .nan else .inf (s != t))
    else
      let k := 96 + Nat.log2 n
      let q := m * 2 ^ k / n
      let r := m * 2 ^ k % n
      .fin (s != t) (2 * q + (if r = 0 then 0 else 1)) (e - f - k - 1)

/-- A value is NaN. -/
def fvIsNan : Fv → Bool
  | .nan => true
  | _ => false

/-- A value is NaN or infinite. -/
def fvNonfin : Fv → Bool
  | .fin _ _ _ => false
  | _ => true

/-- A value is a zero of either sign. -/
def fvIsZero : Fv → Bool
  | .fin _ m _ => m == 0
  | _ => false

/-- The value is negative, or a negative zero. -/
def fvSign : Fv → Bool
  | .nan => false
  | .inf s => s
  | .fin s _ _ => s

/-- `a < b` as real numbers, false when either is NaN. -/
def fvLt (a b : Fv) : Bool :=
  match fvAdd a (fvNeg b) with
  | .nan => (match a, b with
    | .inf _, .inf _ => false
    | _, _ => false)
  | .inf s => (match a, b with
    | .inf x, _ => x
    | _, .inf y => !y
    | _, _ => s)
  | .fin s m _ => s && m != 0

/-- `a = b` as real numbers, −0 equal to +0, false when either is NaN. -/
def fvEq (a b : Fv) : Bool :=
  match a, b with
  | .nan, _ => false
  | _, .nan => false
  | .inf x, .inf y => x == y
  | .inf _, _ => false
  | _, .inf _ => false
  | a, b => fvIsZero (fvAdd a (fvNeg b))

/-- `a ≤ b` as real numbers, false when either is NaN. -/
def fvLe (a b : Fv) : Bool := fvLt a b || fvEq a b

/-! ## FP32 operations on bit patterns, each rounded once -/

/-- fp32(a + b). -/
def f32Add (a b : Nat) : Nat := toF32 (fvAdd (f32 a) (f32 b))
/-- fp32(a − b). -/
def f32Sub (a b : Nat) : Nat := toF32 (fvAdd (f32 a) (fvNeg (f32 b)))
/-- fp32(a × b). -/
def f32Mul (a b : Nat) : Nat := toF32 (fvMul (f32 a) (f32 b))
/-- fma(a, b, c): a × b + c with one rounding. -/
def f32Fma (a b c : Nat) : Nat := toF32 (fvAdd (fvMul (f32 a) (f32 b)) (f32 c))
/-- q(a / b) of R170. -/
def f32Div (a b : Nat) : Nat := toF32 (fvDiv (f32 a) (f32 b))
/-- The pattern with its sign inverted. -/
def f32Neg (a : Nat) : Nat := a.xor 0x80000000
/-- The pattern is a NaN. -/
def f32IsNan (a : Nat) : Bool := fvIsNan (f32 a)

/-- MAX of R159: NaN if either is NaN; +0 is greater than −0. -/
def f32Max (a b : Nat) : Nat :=
  if f32IsNan a || f32IsNan b then f32Nan
  else if fvEq (f32 a) (f32 b) then (if fvSign (f32 a) then b else a)
  else if fvLt (f32 a) (f32 b) then b else a

/-- MIN of R159. -/
def f32Min (a b : Nat) : Nat :=
  if f32IsNan a || f32IsNan b then f32Nan
  else if fvEq (f32 a) (f32 b) then (if fvSign (f32 a) then a else b)
  else if fvLt (f32 a) (f32 b) then a else b

/-- A natural number as FP32, rounded to nearest even. -/
def f32OfNat (n : Nat) : Nat := toF32 (.fin false n 0)

/-- The greatest integer at most a value, as an exact value (R159 FLOOR). -/
def fvFloor : Fv → Fv
  | .fin s m e =>
    if 0 ≤ e ∨ m = 0 then .fin s m e
    else
      let k := (-e).toNat
      let q := m / 2 ^ k
      .fin s (if s ∧ m % 2 ^ k ≠ 0 then q + 1 else q) 0
  | v => v

/-- A value rounded to an integer, ties to even (R159 RINT, R185). -/
def fvRint : Fv → Fv
  | .fin s m e => if 0 ≤ e then .fin s m e else .fin s (roundGrid 400 0 m e).1 0
  | v => v

/-- An integer value as an integer; 0 for values that are none. -/
def fvToInt : Fv → Int
  | .fin s m e => (if s then -1 else 1) * (if 0 ≤ e then (m * 2 ^ e.toNat : Nat) else (m / 2 ^ (-e).toNat : Nat) : Int)
  | _ => 0

/-- The integer square root, by bits from `k` down. -/
def isqrtGo (n : Nat) : Nat → Nat → Nat
  | 0, r => r
  | k + 1, r => let t := r + 2 ^ k; isqrtGo n k (if t * t ≤ n then t else r)

/-- The integer square root of a number below 2^256. -/
def isqrt (n : Nat) : Nat := isqrtGo n 128 0

/-- A magnitude rounded to a 12-bit significand, to nearest even (R148, R185). -/
def round12 (m : Nat) (e : Int) : Nat × Int := roundGrid 12 (-1000000) m e

/-- The exact split of R148: `hi` has a 12-bit significand, `lo` is the remainder; a non-finite x gives lo = 0. -/
def split12 : Fv → Fv × Fv
  | .fin s m e =>
    let r := round12 m e
    let hi : Fv := .fin s r.1 r.2
    (hi, fvAdd (.fin s m e) (fvNeg hi))
  | v => (v, .fin false 0 0)

end Sys2Proof.Machine
end

