-- ==== Sys2Proof/Machine/Formats.lean ====
section
/-! DEFINITION. The drain path (R114–R124): rounding, saturation, block scales, stochastic draws and what the
census counts; packing of elements (R116) and rows (R117). -/

namespace Sys2Proof.Machine

/-- What one write adds to a census tag (R128). -/
structure Cnt where
  zeros : Nat := 0
  sats : Nat := 0
  nonfin : Nat := 0
  under : Nat := 0
  elems : Nat := 0
  deriving DecidableEq, Repr

/-- Two contributions added. -/
def Cnt.add (a b : Cnt) : Cnt :=
  ⟨a.zeros + b.zeros, a.sats + b.sats, a.nonfin + b.nonfin, a.under + b.under, a.elems + b.elems⟩

/-- The largest finite magnitude of a format (R113). -/
def fmtMax : Nat → Nat × Int
  | 1 => (2 ^ 24 - 1, 104)
  | 2 => (255, 120)
  | 3 => (65504, 0)
  | 4 => (448, 0)
  | 5 => (57344, 0)
  | 6 => (28, 0)
  | 7 => (15, -1)
  | 8 => (6, 0)
  | 9 => (127, 0)
  | 10 => (7, 0)
  | _ => (0, 0)

/-- The magnitude rounded to nearest even on a format's grid continued without an upper limit (R114, R122). -/
def gridRne (fmt m : Nat) (e : Int) : Nat × Int :=
  match layoutOf fmt with
  | some l => roundGrid (l.mb + 1) (1 - (l.bias : Int) - l.mb) m e
  | none => roundGrid 400 0 m e

/-- The magnitude rounded stochastically with the 16-bit draw `u` (R123). -/
def gridSr (fmt u m : Nat) (e : Int) : Nat × Int :=
  if m = 0 then (0, 0)
  else
    let p := match layoutOf fmt with
      | some l => l.mb + 1
      | none => 400
    let emin : Int := match layoutOf fmt with
      | some l => 1 - (l.bias : Int) - l.mb
      | none => 0
    let g := max (e + Nat.log2 m + 1 - p) emin
    if g ≤ e then (m * 2 ^ (e - g).toNat, g)
    else
      let s := (g - e).toNat
      let q := m / 2 ^ s
      let f := m % 2 ^ s * 2 ^ 16 / 2 ^ s
      (if u < f then q + 1 else q, g)

/-- The bits of a signed magnitude that lies on a format's grid and is at most its largest finite value. -/
def encodeMag (fmt : Nat) (neg : Bool) (q : Nat) (u : Int) : Nat :=
  match layoutOf fmt with
  | some l => (fpPack l neg q u).getD 0
  | none => twos (fmtBits fmt) ((if neg then -1 else 1) * (q * 2 ^ u.toNat : Nat))

/-- A finite value written to a format after rounding: saturation at ± the largest finite value (R114 item 2),
underflow and the zero count (R114 item 3, R128). `big` says that the exact value is not zero. -/
def finishElem (fmt : Nat) (neg big : Bool) (r : Nat × Int) : Nat × Cnt :=
  let mx := fmtMax fmt
  if leDy r.1 r.2 mx.1 mx.2 then
    let z := r.1 = 0
    (encodeMag fmt neg r.1 r.2,
      { zeros := if z then 1 else 0, under := if z ∧ big then 1 else 0, elems := 1 })
  else (encodeMag fmt neg mx.1 mx.2, { sats := 1, elems := 1 })

/-- An FP32 value written to a wide format, round-to-nearest-even (R114, R115). -/
def drainWide (fmt x : Nat) : Nat × Cnt :=
  match f32 x with
  | .nan => ((if fmt = 1 then f32Nan else if fmt = 2 then 0x7FC0 else 0x7E00), { nonfin := 1, elems := 1 })
  | .inf s =>
    let b := fmtBits fmt
    let top := if fmt = 1 then 0x7F800000 else if fmt = 2 then 0x7F80 else 0x7C00
    (b2n s * 2 ^ (b - 1) + top, { nonfin := 1, elems := 1 })
  | .fin s m e => finishElem fmt s (m != 0) (gridRne fmt m e)

/-- Elements in a block of a BLOCK code. -/
def blockElems (c : Nat) : Nat := 16 * 2 ^ c

/-- The E4M3 value of a positive code, as magnitude. -/
def e4m3Mag (c : Nat) : Nat × Int :=
  match decodeElem 4 c with
  | .fin _ m e => (m, e)
  | _ => (448, 0)

/-- Magnitudes compared, the greater kept. -/
def maxMag (a b : Nat × Int) : Nat × Int := if leDy a.1 a.2 b.1 b.2 then b else a

/-- The magnitude of an FP32 pattern; NaN and infinities give 0. -/
def f32Mag (x : Nat) : Nat × Int :=
  match f32 x with
  | .fin _ m e => (m, e)
  | _ => (0, 0)

/-- The exponent of a mode P scale: the least e with amax ≤ fmax × 2^e, clamped to −126 … 127 (R119). -/
def scaleExpP (fmt : Nat) (a : Nat × Int) : Int :=
  let mx := fmtMax fmt
  let e0 : Int := a.2 + Nat.log2 a.1 - mx.2 - Nat.log2 mx.1
  let e := if leDy a.1 a.2 mx.1 (mx.2 + e0) then e0 else e0 + 1
  min (max e (-126)) 127

/-- The code of a mode F scale: the least positive E4M3 value s with amax ≤ fmax × s, else 448 (R119). -/
def scaleCodeF (fmt : Nat) (a : Nat × Int) : Nat :=
  let mx := fmtMax fmt
  (((List.range 0x7E).map (· + 1)).find? fun c =>
    let s := e4m3Mag c
    leDy a.1 a.2 (mx.1 * s.1) (mx.2 + s.2)).getD 0x7E

/-- One block of FP32 values written to a narrow format: element bits, scale byte and counts (R119–R123).
`draw i` is the 16-bit draw of element i when rounding is stochastic. -/
def drainBlock (fmt : Nat) (modeF stoch : Bool) (draw : Nat → Nat) (xs : List Nat) : List Nat × Nat × Cnt :=
  let n := xs.length
  let bad := (xs.filter fun x => fvNonfin (f32 x)).length
  if bad ≠ 0 then (List.replicate n 0, if modeF then 0x7F else 0xFF, { nonfin := bad, elems := n })
  else
    let amax := xs.foldl (fun a x => maxMag a (f32Mag x)) (0, 0)
    if amax.1 = 0 then (List.replicate n 0, 0, { zeros := n, elems := n })
    else
      let code := if modeF then scaleCodeF fmt amax else (scaleExpP fmt amax + 127).toNat
      let s : Fv := if modeF then .fin false (e4m3Mag code).1 (e4m3Mag code).2 else .fin false 1 ((code : Int) - 127)
      let outs := xs.mapIdx fun i x =>
        match fvDiv (f32 x) s with
        | .fin neg m e => finishElem fmt neg (m != 0) (if stoch then gridSr fmt (draw i) m e else gridRne fmt m e)
        | _ => (0, {})
      (outs.map (·.1), code, (outs.map (·.2)).foldl Cnt.add {})

/-- Elements of `w` bits packed from bit 0 upward, padded with zero bits to whole bytes (R116). -/
def packElems (w : Nat) (es : List Nat) : Bytes := pack (cdiv (es.length * w) 8) (es.map fun e => (w, e))

/-- Element `i` of a packed run of `w`-bit elements (R116). -/
def elemAt (w : Nat) (b : Bytes) (i : Nat) : Nat := fld b (w * i + w - 1) (w * i)

/-- What the drain path is told by a descriptor. -/
structure Drain where
  fmt : Nat
  block : Nat
  modeF : Bool
  stoch : Bool
  deriving DecidableEq, Repr

/-- A run of FP32 values written under a descriptor's output fields: element bits, scale bytes (none for a wide
format) and counts. `draw i` is the draw of element i of the run. -/
def drainRun (d : Drain) (draw : Nat → Nat) (xs : List Nat) : List Nat × List Nat × Cnt :=
  if fmtWide d.fmt then
    let os := xs.map (drainWide d.fmt)
    (os.map (·.1), [], (os.map (·.2)).foldl Cnt.add {})
  else
    let b := blockElems d.block
    let bs := (chunksOf b (xs.length + 1) xs).mapIdx fun j c => drainBlock d.fmt d.modeF d.stoch (fun i => draw (b * j + i)) c
    ((bs.map (·.1)).flatten, bs.map (·.2.1), (bs.map (·.2.2)).foldl Cnt.add {})

/-- A whole row in the uncoded layout of R117: packed elements, then the scale bytes. -/
def rowBytes (d : Drain) (es scales : List Nat) : Bytes :=
  packElems (fmtBits d.fmt) es ++ scales.map (BitVec.ofNat 8)

/-- Bytes of a row of `n` elements in the layout of R117. -/
def rowLen (fmt block n : Nat) : Nat :=
  cdiv (n * fmtBits fmt) 8 + (if fmtNarrow fmt then n / blockElems block else 0)

/-- 64-bit rotation left. -/
def rotl64 (x n : Nat) : Nat := x * 2 ^ (n % 64) % 2 ^ 64 + x / 2 ^ (64 - n % 64) % 2 ^ 64

/-- One round of `sr_draw` (R124). -/
def srRound (b x r : Nat) : Nat :=
  let x1 := x.xor (x / 2 ^ 29)
  let x2 := x1 * 0x8F3D5A27C4B16E93 % 2 ^ 64
  let x3 := x2.xor (x2 / 2 ^ 32)
  x3.xor (rotl64 b (7 + 13 * r))

/-- The 16-bit draw of one element (R124). -/
def srDraw (step ctag dcore dindex eindex : Nat) : Nat :=
  let b := (ctag * 2 ^ 48 + dcore * 2 ^ 32 + dindex) % 2 ^ 64
  let x := ((step % 2 ^ 64).xor (rotl64 b 21)).xor (rotl64 (eindex % 2 ^ 64) 43)
  srRound b (srRound b (srRound b x 0) 1) 2 / 2 ^ 48

/-- The block size and scale mode of an output format are permitted (R117). -/
def scaleOk (fmt block : Nat) (modeF stoch : Bool) : Bool :=
  if fmtWide fmt then block == 0 && !modeF && !stoch
  else if modeF then fmtModeF fmt && block ≤ 1 else block ≤ 3

/-- The value of an element of a block-scaled row with its scale byte (R118). -/
def scaledValue (fmt : Nat) (modeF : Bool) (scale e : Nat) : Fv :=
  if scale = 0 then .fin false 0 0
  else if modeF then
    (if 0x7F ≤ scale then .nan else fvMul (decodeElem fmt e) (.fin false (e4m3Mag scale).1 (e4m3Mag scale).2))
  else if scale = 0xFF then .nan
  else fvMul (decodeElem fmt e) (.fin false 1 ((scale : Int) - 127))

end Sys2Proof.Machine
end

