-- ==== Sys2Proof/Machine/Compress.lean ====
section
/-! DEFINITION. Exponent compression (R191–R205): places and their headers, the canonical prefix code, table
images, encoding and decoding of a place, and walking a row of places. -/

namespace Sys2Proof.Machine

/-- Element bytes, nibble bytes and scale bytes of a place of `n` elements (R192). Two nibbles share a byte, and the last byte of a row
whose groups are odd in number holds one (R143; log entry 147). -/
def placeE (fmt n : Nat) : Nat := cdiv (n * fmtBits fmt) 8
def placeZ (sparse : Bool) (n : Nat) : Nat := if sparse then cdiv n 4 else 0
def placeS (fmt block : Nat) (sparse : Bool) (n : Nat) : Nat :=
  if fmtNarrow fmt then (if sparse then 2 * n / blockElems block else n / blockElems block) else 0

/-- The capacity P(n) of a place (R192). -/
def placeCap (fmt block : Nat) (sparse : Bool) (n : Nat) : Nat :=
  8 + 8 * cdiv (placeE fmt n + placeZ sparse n + placeS fmt block sparse n) 8

/-- The bytes a coded row of `n` elements occupies (R191, R192). -/
def codedRowLen (fmt block : Nat) (sparse : Bool) (n : Nat) : Nat :=
  n / 256 * placeCap fmt block sparse 256 + (if n % 256 = 0 then 0 else placeCap fmt block sparse (n % 256))

/-- A place header (R193). -/
structure Place where
  slot : Nat
  gen : Nat
  raw : Bool
  sparse : Bool
  fmt : Nat
  block : Nat
  modeF : Bool
  rsvd : Bool
  nelem : Nat
  clen : Nat
  deriving DecidableEq, Repr

/-- A place header read from its 8 bytes (R193). -/
def placeOf (b : Bytes) : Place :=
  { slot := fld b 1 0, gen := fld b 5 2, raw := bit b 6, sparse := bit b 7, fmt := fld b 15 8, block := fld b 17 16,
    modeF := bit b 18, rsvd := !zeroAt b [(23, 19), (39, 33), (63, 51)], nelem := fld b 32 24, clen := fld b 50 40 }

/-- The 8 bytes of a place header (R193). -/
def placeBytes (p : Place) : Bytes :=
  pack 8 [(2, p.slot), (4, p.gen), (1, b2n p.raw), (1, b2n p.sparse), (8, p.fmt), (2, p.block), (1, b2n p.modeF), (5, 0),
    (9, p.nelem), (7, 0), (11, p.clen), (13, 0)]

/-- The header conditions checked on every place read (R203). -/
def placeHdrOk (p : Place) : Bool :=
  !p.rsvd && 1 ≤ p.nelem && p.nelem ≤ 256 && fmtValid p.fmt
    && p.clen + 8 ≤ placeCap p.fmt p.block p.sparse p.nelem && 1 ≤ p.clen

/-- A compression table read from its 48-byte image (R197). -/
structure Table where
  fmt : Nat
  escLen : Nat
  id : Nat
  /-- VALUE_i and LEN_i of symbols 0–15. -/
  syms : List (Nat × Nat)
  deriving DecidableEq, Repr

/-- A table image's fields (R197). -/
def tableOf (b : Bytes) : Table :=
  { fmt := fld b 47 40, escLen := fld b 51 48, id := fld b 127 64,
    syms := (List.range 16).map fun i => (fld b (128 + 16 * i + 7) (128 + 16 * i), fld b (128 + 16 * i + 11) (128 + 16 * i + 8)) }

/-- The format check of a table image (R197). -/
def tableFormatOk (b : Bytes) : Bool :=
  fld b 31 0 == 0x4C425458 && fld b 39 32 == 1 && fld b 63 52 == 0
    && (List.range 16).all fun i => fld b (128 + 16 * i + 15) (128 + 16 * i + 12) == 0

/-- Exponent width of a format (R192). -/
def expBits (fmt : Nat) : Nat :=
  match layoutOf fmt with
  | some l => l.eb
  | none => 0

/-- Mantissa width of a format. -/
def manBits (fmt : Nat) : Nat :=
  match layoutOf fmt with
  | some l => l.mb
  | none => 0

/-- The argument check of a table image (R196, R197). -/
def tableArgsOk (t : Table) : Bool :=
  let used := t.syms.filter fun s => s.2 != 0
  1 ≤ t.fmt && t.fmt ≤ 8 && 1 ≤ t.escLen && t.escLen ≤ 12
    && (t.syms.all fun s => s.2 ≤ 12 && s.1 < 2 ^ expBits t.fmt && (s.2 != 0 || s.1 == 0))
    && (used.map (·.1)).Nodup
    && (used.map fun s => 2 ^ (12 - s.2)).sum + 2 ^ (12 - t.escLen) == 2 ^ 12

/-- The participating entries sorted by length, then symbol index, the escape (`none`) last of its length (R196). -/
def tableOrder (t : Table) : List (Option Nat × Nat) :=
  (List.range 13).flatMap fun l =>
    if l = 0 then []
    else (((t.syms.filter fun s => s.2 == l).map fun s => (some s.1, l))
      ++ (if t.escLen = l then [(none, l)] else []))

/-- Code words in canonical order: (value or escape, word, length) (R196). -/
def tableWords (t : Table) : List (Option Nat × Nat × Nat) :=
  let step (acc : List (Option Nat × Nat × Nat) × Option (Nat × Nat)) (e : Option Nat × Nat) :=
    let w := match acc.2 with
      | none => 0
      | some (pw, pl) => (pw + 1) * 2 ^ (e.2 - pl)
    (acc.1 ++ [(e.1, w, e.2)], some (w, e.2))
  ((tableOrder t).foldl step ([], none)).1

/-- The bits of a word of `n` bits, most significant first. -/
def msbBits (w n : Nat) : List Bool := (List.range n).map fun i => w.testBit (n - 1 - i)

/-- The code of one exponent field: its symbol, or the escape followed by the field (R195, R198). -/
def codeOf (ws : List (Option Nat × Nat × Nat)) (eb v : Nat) : List Bool :=
  match ws.find? fun e => e.1 == some v with
  | some e => msbBits e.2.1 e.2.2
  | none =>
    match ws.find? fun e => e.1 == none with
    | some e => msbBits e.2.1 e.2.2 ++ msbBits v eb
    | none => []

/-- Bits packed from bit 0 of the first byte upward. -/
def bitsToBytes (bs : List Bool) : Bytes := pack (cdiv bs.length 8) (bs.map fun b => (1, b2n b))

/-- The bits of a byte string, bit 0 of byte 0 first. -/
def bytesToBits (b : Bytes) : List Bool := b.flatMap fun x => (List.range 8).map fun i => x.toNat.testBit i

/-- The number whose bits, most significant first, are given. -/
def msbNat (bs : List Bool) : Nat := bs.foldl (fun a b => 2 * a + b2n b) 0

/-- Reads `n` exponent codes from a bit stream: the fields and the number of bits used, or `none` when it ends early
(R195, R203). `fuel` bounds the bits read. -/
def decodeExps (ws : List (Option Nat × Nat × Nat)) (eb : Nat) :
    Nat → Nat → Nat → Nat → List Bool → Nat → Option (List Nat × Nat)
  | _, 0, _, _, _, used => some ([], used)
  | 0, _ + 1, _, _, _, _ => none
  | _ + 1, _ + 1, _, _, [], _ => none
  | fuel + 1, n + 1, w, l, b :: bs, used =>
    let w' := 2 * w + b2n b
    match ws.find? fun e => e.2.1 == w' && e.2.2 == l + 1 with
    | none => decodeExps ws eb fuel (n + 1) w' (l + 1) bs (used + 1)
    | some (some v, _, _) =>
      match decodeExps ws eb fuel n 0 0 bs (used + 1) with
      | some r => some (v :: r.1, r.2)
      | none => none
    | some (none, _, _) =>
      if bs.length < eb then none
      else
        match decodeExps ws eb fuel n 0 0 (bs.drop eb) (used + 1 + eb) with
        | some r => some (msbNat (bs.take eb) :: r.1, r.2)
        | none => none

/-- What a place holds, decoded (R194). -/
structure PlaceData where
  elems : List Nat
  nibbles : Bytes
  scales : List Nat
  deriving DecidableEq, Repr

/-- The table of a slot as an encoder or decoder sees it: image and generation. -/
structure SlotView where
  image : Option Bytes
  gen : Nat
  deriving DecidableEq, Repr

/-- An element's sign and mantissa as they are stored: the sign first, then the mantissa (R194). -/
def signMan (fmt e : Nat) : Nat := e / 2 ^ (fmtBits fmt - 1) % 2 + 2 * (e % 2 ^ manBits fmt)

/-- The payload of a place decoded with the district's slots; `none` on a decode error of R203. -/
def decodePayload (slots : Nat → SlotView) (p : Place) (b : Bytes) : Option PlaceData :=
  let e := placeE p.fmt p.nelem
  let z := placeZ p.sparse p.nelem
  let s := placeS p.fmt p.block p.sparse p.nelem
  let w := fmtBits p.fmt
  if p.raw then
    if p.clen ≠ e + z + s then none
    else some { elems := (List.range p.nelem).map (elemAt w b), nibbles := slice b e z,
                scales := (slice b (e + z) s).map (·.toNat) }
  else
    let v := slots p.slot
    match v.image with
    | none => none
    | some img =>
      let t := tableOf img
      if v.gen ≠ p.gen ∨ t.fmt ≠ p.fmt then none
      else
        let sm := cdiv (p.nelem * (1 + manBits p.fmt)) 8
        let off := s + z + sm
        if p.clen < off then none
        else
          let bits := bytesToBits (slice b off (p.clen - off))
          match decodeExps (tableWords t) (expBits p.fmt) (bits.length + 1) p.nelem 0 0 bits 0 with
          | none => none
          | some (exps, used) =>
            if off + cdiv used 8 ≠ p.clen then none
            else
              let smb := slice b (s + z) sm
              some { elems := exps.mapIdx fun i x =>
                       let f := elemAt (1 + manBits p.fmt) smb i
                       f % 2 * 2 ^ (w - 1) + x * 2 ^ manBits p.fmt + f / 2,
                     nibbles := slice b s z, scales := (slice b 0 s).map (·.toNat) }

/-- The 8 + CLEN bytes of a place, encoded from its contents with the table of a slot (R194, R198). -/
def encodePlace (v : SlotView) (slot : Nat) (fmt block : Nat) (modeF sparse : Bool) (d : PlaceData) : Bytes :=
  let n := d.elems.length
  let sc : Bytes := d.scales.map (BitVec.ofNat 8)
  let rawPay := packElems (fmtBits fmt) d.elems ++ d.nibbles ++ sc
  let hdr (raw : Bool) (clen : Nat) : Bytes := placeBytes
    { slot := if raw then 0 else slot, gen := if raw then 0 else v.gen, raw := raw, sparse := sparse, fmt := fmt,
      block := if fmtWide fmt then 0 else block, modeF := !fmtWide fmt && modeF, rsvd := false, nelem := n, clen := clen }
  let asRaw := hdr true rawPay.length ++ rawPay
  match v.image with
  | none => asRaw
  | some img =>
    let t := tableOf img
    if t.fmt ≠ fmt ∨ fmtInt fmt then asRaw
    else
      let ws := tableWords t
      let eb := expBits fmt
      let mb := manBits fmt
      let sm := packElems (1 + mb) (d.elems.map (signMan fmt))
      let ex := bitsToBytes (d.elems.flatMap fun e => codeOf ws eb (e / 2 ^ mb % 2 ^ eb))
      let pay := sc ++ d.nibbles ++ sm ++ ex
      if pay.length < rawPay.length then hdr false pay.length ++ pay else asRaw

/-- One place as a reader takes it: its header, its data (zeros when it errs) and whether it erred (R203). -/
structure PlaceRead where
  hdr : Place
  off : Nat
  data : PlaceData
  err : Bool
  /-- The place touches a poisoned granule (R222). -/
  pois : Bool
  deriving DecidableEq, Repr

/-- The contents of an erring place: its elements as +0, with no zero flag (R203). -/
def zeroPlace (p : Place) (n : Nat) : PlaceData :=
  { elems := List.replicate n 0, nibbles := List.replicate (placeZ p.sparse n) 0x44,
    scales := List.replicate (placeS p.fmt p.block p.sparse n) 1 }

/-- A place's header names elements and a format that give its capacity. -/
def placeSized (p : Place) : Bool := 1 ≤ p.nelem && p.nelem ≤ 256 && fmtValid p.fmt

/-- The contents of an erring place as they are written again: no block of it is flagged all-zero (R203). -/
def zeroFill (p : Place) : PlaceData :=
  { zeroPlace p p.nelem with scales := List.replicate (placeS p.fmt p.block p.sparse p.nelem) 1 }

/-- What the consuming MATMUL requires of a place (R203, checked by the expander). -/
structure Expect where
  fmt : Nat
  sparse : Bool
  deriving DecidableEq, Repr

/-- The places of a row of `n` elements at an address, read through `rd address length`. An erring place, and, when
the row's places overrun the pitch, every place, reads as zeros (R203). `poisoned a l` marks bytes that may not be used:
a place that touches them reads as zeros too (R108). -/
def readPlaces (slots : Nat → SlotView) (rd : Nat → Nat → Bytes) (poisoned : Nat → Nat → Bool) (ex : Expect) :
    Nat → Nat → Nat → List PlaceRead
  | 0, _, _ => []
  | fuel + 1, off, n =>
    if n = 0 then []
    else
      let k := min n 256
      let p := placeOf (rd off 8)
      let ok := placeHdrOk p && p.fmt == ex.fmt && p.sparse == ex.sparse && p.nelem == k
        && (fmtNarrow p.fmt || (p.block == 0 && !p.modeF)) && !poisoned off 8 && !poisoned off (8 + p.clen)
      let dat := if ok then decodePayload slots p (rd (off + 8) p.clen) else none
      let cap := placeCap ex.fmt p.block ex.sparse k
      { hdr := p, off := off, err := dat.isNone, pois := poisoned off 8 || (placeHdrOk p && poisoned off (8 + p.clen)),
        data := dat.getD (zeroPlace { p with fmt := ex.fmt, sparse := ex.sparse } k) }
        :: readPlaces slots rd poisoned ex fuel (off + cap) (n - k)

/-- The sum of the capacities of a row's places, computed from each header's FMT, BLOCK and SPARSE (R203). -/
def placesCap (ps : List PlaceRead) : Nat :=
  (ps.map fun p => placeCap p.hdr.fmt p.hdr.block p.hdr.sparse p.data.elems.length).sum

/-- Every place of a row erring, when the row overruns its pitch (R203). -/
def pitchCheck (ex : Expect) (pitch : Nat) (ps : List PlaceRead) : List PlaceRead :=
  if placesCap ps ≤ pitch then ps
  else ps.map fun p => { p with err := true, data := zeroPlace { p.hdr with fmt := ex.fmt, sparse := ex.sparse } p.data.elems.length }

/-- The places of an encoded row: offset from the row's start and bytes (R191, R205). -/
def encodeRow (v : SlotView) (slot fmt block : Nat) (modeF : Bool) (es scales : List Nat) : List (Nat × Bytes) :=
  let b := blockElems block
  (chunksOf 256 (es.length + 1) es).mapIdx fun i c =>
    let sc := if fmtWide fmt then [] else (scales.drop (256 * i / b)).take (c.length / b)
    (i * placeCap fmt block false 256, encodePlace v slot fmt block modeF false { elems := c, nibbles := [], scales := sc })

end Sys2Proof.Machine
end

