-- ==== Sys2Proof/Machine/Matrix.lean ====
section
/-! DEFINITION. The matrix engine (R133–R152): operand rows, chunk values, the ladder, skipping, the three-pass
split, what a tile writes when it drains, and its cycles. -/

namespace Sys2Proof.Machine

/-- The fields of a MATMUL body (R91). -/
structure MatD where
  fmtA : Nat
  fmtB : Nat
  fmtOut : Nat
  sparse : Bool
  accum : Bool
  send : Bool
  zskip : Bool
  mskip : Bool
  split3 : Bool
  aAddr : Nat
  bAddr : Nat
  outAddr : Nat
  k : Nat
  mT : Nat
  nT : Nat
  aLd : Nat
  bLd : Nat
  outLd : Nat
  ctag : Nat
  block : Nat
  modeF : Bool
  stoch : Bool
  coded : Bool
  outSlot : Nat
  group : Nat
  chunk0 : Nat
  maskAddr : Nat
  deriving DecidableEq, Repr

/-- A MATMUL body read from its descriptor (R91). -/
def matOf (b : Bytes) : MatD :=
  { fmtA := fld b 135 128, fmtB := fld b 143 136, fmtOut := fld b 151 144, sparse := bit b 152, accum := bit b 153,
    send := bit b 155, zskip := bit b 156, mskip := bit b 157, split3 := bit b 158, aAddr := fld b 178 160,
    bAddr := fld b 210 192, outAddr := fld b 242 224, k := fld b 271 256, mT := fld b 279 272, nT := fld b 287 280,
    aLd := fld b 303 288, bLd := fld b 319 304, outLd := fld b 335 320, ctag := fld b 345 336, block := fld b 347 346,
    modeF := bit b 348, stoch := bit b 349, coded := bit b 350, outSlot := fld b 353 352, group := fld b 359 354,
    chunk0 := fld b 375 364, maskAddr := fld b 402 384 }

/-- What an engine sees of a core: its bytes, its poisoned ranges, and the district's table slots. -/
structure Env where
  rd : Nat → Nat → Bytes
  poisoned : Nat → Nat → Bool
  slots : Nat → SlotView

/-- One operand row as the array takes it: the K values, which elements lie in a zero-flagged block, how many places
erred, and how many 2:4 groups have an invalid nibble. -/
structure OpRow where
  vals : List Fv
  flagged : List Bool
  decodeErrs : Nat
  poisErrs : Nat
  badNibbles : Nat
  deriving DecidableEq, Repr

/-- The values of one dense place (R118, R136). Elements after the last whole block of a row have no scale byte: they read as +0 and count
as flagged (DESIGN CHOICE: log entry 148). -/
def denseVals (p : PlaceRead) (fmt : Nat) : List (Fv × Bool) :=
  if fmtWide fmt then p.data.elems.map fun e => (decodeElem fmt e, false)
  else
    let b := blockElems p.hdr.block
    p.data.elems.mapIdx fun i e =>
      let s := p.data.scales.getD (i / b) 0
      (scaledValue fmt p.hdr.modeF s e, s == 0 && !p.err)

/-- The four logical values of a 2:4 group, and whether its nibble is valid (R143, R144). -/
def groupVals (nib : Nat) (v0 v1 : Fv) : List Fv × Bool :=
  let a := nib % 4
  let b := nib / 4 % 4
  if a < b then ((List.range 4).map fun i => if i = a then v0 else if i = b then v1 else .fin false 0 0, true)
  else (List.replicate 4 (.fin false 0 0), false)

/-- The logical values of one 2:4 sparse place and its count of invalid nibbles (R143, R144). -/
def sparseVals (p : PlaceRead) (fmt : Nat) : List Fv × Nat :=
  let b := blockElems p.hdr.block / 2
  let val (i : Nat) : Fv :=
    let e := p.data.elems.getD i 0
    if fmtWide fmt then decodeElem fmt e else scaledValue fmt p.hdr.modeF (p.data.scales.getD (i / b) 0) e
  let gs := (List.range (p.data.elems.length / 2)).map fun g =>
    groupVals (elemAt 4 p.data.nibbles g) (val (2 * g)) (val (2 * g + 1))
  ((gs.map (·.1)).flatten, (gs.filter fun g => !g.2).length)

/-- An operand row of K elements read from an operand buffer (R136, R143, R203). -/
def readRow (env : Env) (fmt : Nat) (sparse : Bool) (addr pitch k : Nat) : OpRow :=
  let ex : Expect := ⟨fmt, sparse⟩
  let ps := pitchCheck ex pitch (readPlaces env.slots env.rd env.poisoned ex 258 addr (if sparse then k / 2 else k))
  let de := (ps.filter fun p => p.err && !p.pois).length
  let pe := (ps.filter fun p => p.pois).length
  if sparse then
    let vs := ps.map fun p => sparseVals p fmt
    { vals := (vs.map (·.1)).flatten, flagged := [], decodeErrs := de, poisErrs := pe, badNibbles := (vs.map (·.2)).sum }
  else
    let vs := ps.flatMap fun p => denseVals p fmt
    { vals := vs.map (·.1), flagged := vs.map (·.2), decodeErrs := de, poisErrs := pe, badNibbles := 0 }

/-- The exact sum of a chunk's products, rounded once to FP32 (R138, R148). A zero product of INT operands takes the sign of its factors,
as any other product does (DESIGN CHOICE: log entry 149). -/
def chunkValue (split3 : Bool) (a b : List Fv) : Nat :=
  let ps := if split3 then
      let pairs := a.zip b
      let sp := pairs.map fun x => (split12 x.1, split12 x.2)
      (sp.map fun x => fvMul x.1.1 x.2.1) ++ (sp.map fun x => fvMul x.1.1 x.2.2) ++ (sp.map fun x => fvMul x.1.2 x.2.1)
    else List.zipWith fvMul a b
  match ps with
  | [] => 0
  | p :: ps => toF32 (ps.foldl fvAdd p)

/-- A value carried into the ladder, as into a binary counter (R139). -/
def ladderPut : List (Option Nat) → Nat → List (Option Nat)
  | [], v => [some v]
  | none :: l, v => some v :: l
  | some x :: l, v => none :: ladderPut l (f32Add x v)

/-- The ladder summed from its lowest level (R139). -/
def ladderSum : List (Option Nat) → Option Nat → Option Nat
  | [], r => r
  | none :: l, r => ladderSum l r
  | some x :: l, none => ladderSum l (some x)
  | some x :: l, some r => ladderSum l (some (f32Add x r))

/-- The chunk values combined through the ladder (R139). -/
def ladder (vs : List Nat) : Nat := (ladderSum (vs.foldl ladderPut []) none).getD 0

/-- One cell's product over K: chunk values in ascending order, a skipped chunk as +0 (R139, R145). -/
def cellProduct (split3 : Bool) (skips : List Bool) (a b : List Fv) : Nat :=
  let ca := chunksOf 32 (a.length + 1) a
  let cb := chunksOf 32 (b.length + 1) b
  ladder ((ca.zip cb).mapIdx fun c x => if skips.getD c false then 0 else chunkValue split3 x.1 x.2)

/-- The chunks of a tile row that ZSKIP skips: every element of every one of the 32 rows is flagged (R145). -/
def zskips (d : MatD) (rows : List OpRow) : List Bool :=
  (List.range (cdiv d.k 32)).map fun c =>
    d.zskip && rows.all fun r => ((r.flagged.drop (32 * c)).take 32).all id

/-- The mask bitmap as the engine reads it when the descriptor starts (R146), poisoned bytes as zero (R108). -/
def maskRead (env : Env) (d : MatD) : Bytes :=
  if d.mskip then (List.range (cdiv (d.mT * d.nT) 8)).map fun i =>
    if env.poisoned (d.maskAddr + i) 1 then 0 else (env.rd (d.maskAddr + i) 1).headD 0
  else []

/-- The mask bitmap includes poison. -/
def maskPois (env : Env) (d : MatD) : Bool := d.mskip && env.poisoned d.maskAddr (cdiv (d.mT * d.nT) 8)

/-- The bit of a tile in the mask bitmap (R146). -/
def maskBit (mask : Bytes) (t : Nat) : Bool := fld mask t t == 1

/-- K positions per cell per cycle (R134); with SPLIT3 a chunk of L takes 3L cycles instead (R142). -/
def matDepth (d : MatD) : Nat := min (fmtDepth d.fmtA) (fmtDepth d.fmtB) * (if d.sparse then 2 else 1)

/-- Cycles of chunk `c` at a depth (R142). -/
def chunkCycles (d : MatD) (depth c : Nat) : Nat :=
  let l := min 32 (d.k - 32 * c)
  if d.split3 then 3 * l else cdiv l depth

/-- The work counters of one quarter other than QCYCLES (R152). -/
structure WorkCnt where
  busy : Nat := 0
  exec : Nat := 0
  sparse : Nat := 0
  zskip : Nat := 0
  mskip : Nat := 0
  deriving DecidableEq, Repr

/-- Two increments added; each counter wraps at 2^64 (R152). -/
def WorkCnt.add (a b : WorkCnt) : WorkCnt :=
  ⟨(a.busy + b.busy) % 2 ^ 64, (a.exec + b.exec) % 2 ^ 64, (a.sparse + b.sparse) % 2 ^ 64, (a.zskip + b.zskip) % 2 ^ 64,
    (a.mskip + b.mskip) % 2 ^ 64⟩

/-- What a tile adds to the work counters when it drains (R142, R152). -/
def tileWork (d : MatD) (masked : Bool) (skips : List Bool) : WorkCnt :=
  let dep := matDepth d
  let cyc (keep : Bool → Bool) (depth : Nat) :=
    ((List.range (cdiv d.k 32)).map fun c => if keep (skips.getD c false) then chunkCycles d depth c else 0).sum
  let run := cyc (! ·) dep
  if masked then { busy := 24, mskip := 768 * run }
  else
    { busy := max run 24, exec := 768 * run, zskip := 768 * cyc id dep,
      sparse := if d.sparse then 768 * (cyc (! ·) (dep / 2) - run) else 0 }

/-- What one tile's drain does. -/
structure TileOut where
  /-- Local writes: address and bytes. -/
  writes : List (Nat × Bytes)
  cnt : Cnt
  softs : List Nat
  work : WorkCnt
  /-- The chunk handed to the collective engine under SEND (R150). -/
  chunk : Bytes
  /-- The values, per row, of columns whose block or place a later tile completes (R149). -/
  part : List (List Nat)
  deriving DecidableEq, Repr

/-- The output is written as places: in coded form with CODED, and as raw places in the A buffer, which always holds coded
form (R191). A raw place fills as its tiles drain; a coded one is written when its last tile does (R149; log entry 150). -/
def MatD.placed (d : MatD) : Bool := d.coded || decide (d.outAddr < 0x10000)

/-- The table that codes the output: OUT_SLOT's with CODED, none otherwise. -/
def MatD.outView (env : Env) (d : MatD) : SlotView := if d.coded then env.slots d.outSlot else ⟨none, 0⟩

/-- The initial values of an output row's columns `lo` to `lo + n` under ACCUM (R140), its erring places and whether
poison was read; the A buffer holds them as FP32 places (R191), work memory as plain FP32 words, with CODED too (DESIGN CHOICE: log
entry 151). A poisoned value is zero (R108). -/
def initRow (env : Env) (d : MatD) (row lo n : Nat) : List Nat × Nat × Bool :=
  let a := d.outAddr + row * d.outLd
  if d.outAddr < 0x10000 then
    let ps := readPlaces env.slots env.rd env.poisoned ⟨1, false⟩ 258 a (24 * d.nT)
    (((ps.flatMap fun p => p.data.elems).drop lo).take n, (ps.filter fun p => p.err && !p.pois).length, ps.any (·.pois))
  else
    let cell (i : Nat) : Nat := if env.poisoned (a + 4 * (lo + i)) 4 then 0 else leNat (env.rd (a + 4 * (lo + i)) 4)
    ((List.range n).map cell, 0, env.poisoned (a + 4 * lo) (4 * n))

/-- The columns of an output row whose elements are written when tile column `n` drains: from the first column of the
unit that column 24n lies in, to the end of the last unit that this tile completes (R149). -/
def drainCols (d : MatD) (n : Nat) : Nat × Nat :=
  let total := 24 * d.nT
  let u := if d.coded then 256 else if fmtNarrow d.fmtOut then blockElems d.block else 1
  (24 * n / u * u, if n + 1 = d.nT then total else 24 * (n + 1) / u * u)

/-- The part of one raw place of an output row that a tile's drain writes (R149, R191, R194): the header, which the descriptor fixes, the
elements from column `lo` of the row on, and their blocks' scales. -/
def rawPart (d : MatD) (rowAddr lo : Nat) (es scales : List Nat) : List (Nat × Bytes) :=
  if es = [] then []
  else
    let n := min 256 (24 * d.nT - lo / 256 * 256)
    let a := rowAddr + lo / 256 * placeCap d.fmtOut d.block false 256
    let e := placeE d.fmtOut n
    let w := fmtBits d.fmtOut
    let h : Place := { slot := 0, gen := 0, raw := true, sparse := false, fmt := d.fmtOut, block := if fmtWide d.fmtOut then 0 else d.block
                       modeF := !fmtWide d.fmtOut && d.modeF, rsvd := false, nelem := n, clen := e + placeS d.fmtOut d.block false n }
    [(a, placeBytes h), (a + 8 + lo % 256 * w / 8, packElems w es)]
      ++ (if fmtWide d.fmtOut then [] else [(a + 8 + e + lo % 256 / blockElems d.block, scales.map (BitVec.ofNat 8))])

/-- The bytes one output row receives when a tile drains: `vals` are the FP32 values of columns `lo` and up (R149). -/
def drainRowOut (env : Env) (d : MatD) (rowAddr lo : Nat) (draw : Nat → Nat) (vals : List Nat) : List (Nat × Bytes) × Cnt :=
  if vals = [] then ([], {})
  else
    let r := drainRun ⟨d.fmtOut, d.block, d.modeF, d.stoch⟩ (fun i => draw (lo + i)) vals
    let w := fmtBits d.fmtOut
    if d.placed && !d.coded then
      let k := 256 - lo % 256
      (rawPart d rowAddr lo (r.1.take k) (r.2.1.take (k / blockElems d.block))
        ++ rawPart d rowAddr (lo + k) (r.1.drop k) (r.2.1.drop (k / blockElems d.block)), r.2.2)
    else if d.placed then
      let ps := encodeRow (d.outView env) d.outSlot d.fmtOut d.block d.modeF r.1 r.2.1
      (ps.map fun p => (rowAddr + lo / 256 * placeCap d.fmtOut d.block false 256 + p.1, p.2), r.2.2)
    else
      let e := (rowAddr + lo * w / 8, packElems w r.1)
      if fmtWide d.fmtOut then ([e], r.2.2)
      else
        let base := rowAddr + cdiv (24 * d.nT * w) 8 + lo / blockElems d.block
        ([e, (base, r.2.1.map (BitVec.ofNat 8))], r.2.2)

/-- Tile `t` of a MATMUL: its products, what it writes and counts (R138–R152); the one non-finite input that poison counts
(R108) is not among them, since it counts once per descriptor. Invalid nibbles count once per descriptor, at its first tile
(R144). `marked`: an operand range includes a
skip-marked unit, so every tile is masked (R232). `mask` is the bitmap as it was read. Operand rows are read and their errors counted
whether or not the tiles that use them are masked (DESIGN CHOICE: log entry 152). `part` holds, per output row, the FP32 values of the columns of a block
or place that earlier tiles of the row began (R149). `step`, `dcore` and `dindex` are the draw's inputs (R124). -/
def tileDrain (env : Env) (d : MatD) (t : Nat) (marked : Bool) (mask : Bytes) (part : List (List Nat)) (step dcore dindex : Nat) : TileOut :=
  let m := t / d.nT
  let n := t % d.nT
  let rowsA := (List.range 32).map fun r => readRow env d.fmtA false (d.aAddr + (32 * m + r) * d.aLd) d.aLd d.k
  let skips := zskips d rowsA
  let cols := drainCols d n
  let rowsB := (List.range 24).map fun i => readRow env d.fmtB d.sparse (d.bAddr + (24 * n + i) * d.bLd) d.bLd d.k
  let masked := marked || maskBit mask t
  let inits := if d.accum then (List.range 32).map fun r => initRow env d (32 * m + r) (24 * n) 24 else []
  let initAt (r i : Nat) : Nat := (inits.getD r ([], 0, false)).1.getD i 0
  let cell (r : Nat) (ra : OpRow) (i : Nat) (rb : OpRow) : Nat :=
    if masked then (if d.accum then initAt r i else 0)
    else
      let v := cellProduct d.split3 skips ra.vals rb.vals
      if d.accum then f32Add (initAt r i) v else v
  let own := rowsA.mapIdx fun r ra => rowsB.mapIdx fun i rb => cell r ra i rb
  let vals := own.mapIdx fun r vs => part.getD r [] ++ vs
  let outs := vals.mapIdx fun r vs =>
    drainRowOut env d (d.outAddr + (32 * m + r) * d.outLd) cols.1
      (fun c => srDraw step d.ctag dcore dindex ((32 * m + r) * (24 * d.nT) + c)) (vs.take (cols.2 - cols.1))
  let errs := if marked then [] else (if n = 0 then rowsA else []) ++ (if m = 0 then rowsB else [])
  let badNib := !marked && d.sparse && t == 0 && (List.range (24 * d.nT)).any fun i =>
    (readRow env d.fmtB true (d.bAddr + i * d.bLd) d.bLd d.k).badNibbles != 0
  let de := (errs.map fun r => r.decodeErrs).sum + b2n badNib + (if n = 0 then (inits.map fun x => x.2.1).sum else 0)
  let pois := errs.any (fun r => r.poisErrs != 0) || inits.any (fun x => x.2.2)
  let bits := own.flatten.map fun v => (drainWide d.fmtOut v).1
  let sent := if !d.send then []
    else if d.coded then
      ((encodeRow (env.slots d.outSlot) d.outSlot d.fmtOut 0 false bits []).map
        fun p => slice p.2 0 (placeCap d.fmtOut 0 false 256)).flatten
    else packElems (fmtBits d.fmtOut) bits
  { writes := (outs.map (·.1)).flatten,
    cnt := (outs.map (·.2)).foldl Cnt.add { nonfin := de },
    softs := (if pois then [0x80] else []) ++ (if de = 0 then [] else [0x81]),
    work := tileWork d masked skips, chunk := sent,
    part := if n + 1 = d.nT then [] else vals.map fun vs => vs.drop (cols.2 - cols.1) }

/-! ## Local ranges (R102) and load-time lengths (R117, R192) -/

/-- Bytes of an operand row at its greatest, by the load-time rule of R192. -/
def operandRowMin (fmt : Nat) (sparse : Bool) (k : Nat) : Nat :=
  codedRowLen fmt (if fmtNarrow fmt then 3 else 0) sparse (if sparse then k / 2 else k)

/-- Bytes of an operand row at its greatest capacity, block size 16. -/
def operandRowMax (fmt : Nat) (sparse : Bool) (k : Nat) : Nat := codedRowLen fmt 0 sparse (if sparse then k / 2 else k)

/-- Bytes of an output row: places, or the layout of R117. -/
def matOutRow (d : MatD) : Nat :=
  if d.placed then codedRowLen d.fmtOut d.block false (24 * d.nT) else rowLen d.fmtOut d.block (24 * d.nT)

/-- The spans a MATMUL reads: A, B, the mask bitmap, and the initial values under ACCUM (R102, R146). -/
def matReads (d : MatD) : List (Nat × Nat) :=
  [(d.aAddr, d.aAddr + (32 * d.mT - 1) * d.aLd + min d.aLd (operandRowMax d.fmtA false d.k)),
    (d.bAddr, d.bAddr + (24 * d.nT - 1) * d.bLd + min d.bLd (operandRowMax d.fmtB d.sparse d.k))]
    ++ (if d.mskip then [(d.maskAddr, d.maskAddr + cdiv (d.mT * d.nT) 8)] else [])
    ++ (if d.accum then [(d.outAddr, d.outAddr + (32 * d.mT - 1) * d.outLd + matOutRow d)] else [])

/-- The span a MATMUL writes. -/
def matWrites (d : MatD) : List (Nat × Nat) :=
  [(d.outAddr, d.outAddr + (32 * d.mT - 1) * d.outLd + matOutRow d)]

end Sys2Proof.Machine
end

