-- ==== Sys2Proof/Machine/State.lean ====
section
/-! DEFINITION. The state of the block as plain data: every register, queue, buffer and mode that the spec gives the
device, its value after reset, and the reasons a step can stop. A field with a default has that value at reset. -/

namespace Sys2Proof.Machine

/-- Why a step stops with a fault. -/
inductive Fault where
  /-- Raised by every command that names a PCIe function above 31: the port has 32 functions (R56), so no such
  command exists. Safe: nothing of the device runs. -/
  | noFunction
  deriving DecidableEq, Repr

/-- Why a step is refused. -/
inductive Refusal where
  /-- Raised by an arm of exec whose command has no meaning yet, under its mnemonic. Safe. -/
  | notModelled (mnemonic : String)
  deriving DecidableEq, Repr

/-! ## The LINKS record (R257, R265) -/

/-- What COLL_LINK_CONFIG expects at a port. -/
structure Peer where
  id : Nat := 0
  port : Nat := 0
  expect : Bool := false
  deriving DecidableEq, Repr

/-- Link configuration and route table: PORTS masks by destination ID, an unlisted one 0. -/
structure LinksRec where
  deviceId : Nat := 0
  /-- MODE: false DIRECT, true WARD. -/
  ward : Bool := false
  tag : BitVec 64 := 0
  peers : AMap Peer := []
  routes : AMap Nat := []
  deriving DecidableEq, Repr

/-! ## Host port: functions, mailboxes, event rings, flags (R54–R77, R465–R478) -/

/-- A reply that firmware has formed and not yet written into an outbound slot (R64). -/
structure Reply where
  req : FwReq
  cmd : Nat
  final : Bool := true
  status : Nat := 0
  state : Nat := 0
  payload : Bytes := []
  /-- It is the command's first reply, which frees the inbound slot (R64). -/
  first : Bool := true
  /-- The BAR2 window base that applies once this reply is posted (R70). -/
  window : Option (BitVec 64) := none
  deriving DecidableEq, Repr

/-- A two-stage command under way: its request, its CMD code and the number of resets its function had seen
when it was accepted, so that the final reply is discarded after a Function Level Reset (R64, R66). -/
structure Pend where
  req : FwReq
  cmd : Nat
  epoch : Nat
  deriving DecidableEq, Repr

/-- A taken command that waits for an earlier SEQ (R63). -/
structure Held where
  req : FwReq
  cmd : Nat
  hdrOk : Bool
  deriving DecidableEq, Repr

/-- One event record before it is written to a ring (R71); the payload is the list of its fields in the
order of the kind's table (R479). -/
structure EventRec where
  stamp : BitVec 64
  source : Nat
  kind : Nat
  sev : Nat
  district : Nat
  payload : List Nat
  deriving DecidableEq, Repr

/-- A record the ring writer holds, with the functions whose rings it is destined for (R72). -/
structure HeldRec where
  ev : EventRec
  dests : List Nat
  deriving DecidableEq, Repr

/-- A function's event ring and its registers (R70–R77, R474). -/
structure Ring where
  enabled : Bool := false
  base : BitVec 64 := 0
  consAddr : BitVec 64 := 0
  log2n : Nat := 0
  vector : Nat := 0
  modUs : Nat := 0
  watermark : Nat := 0
  mirror : Bool := false
  /-- EVT_PRODUCE, the produce count P (R73). -/
  produce : BitVec 64 := 0
  /-- EVT_LOST (R474). -/
  lost : BitVec 64 := 0
  /-- EVT_CONS, the consume count C as last read (R474). -/
  cons : BitVec 64 := 0
  /-- The next record written carries AFTER_LOSS (R73). -/
  afterLoss : Bool := false
  /-- When C was last read by a routine read (R73). -/
  consReadAt : Option Nat := none
  /-- When each record that may be unconsumed was written: (record number, time) (R77). -/
  writtenAt : List (Nat × Nat) := []
  /-- The record number whose age cause has arisen (R77). -/
  ageRaised : Option Nat := none
  deriving DecidableEq, Repr

/-- One W1C flag: its internal count and the reader's snapshot (R471). -/
structure Flag where
  count : Nat := 0
  snap : Option Nat := none
  set : Bool := false
  deriving DecidableEq, Repr

/-- A binding of an MSI-X vector 3–63 to a purpose (R76). -/
structure VecBind where
  purpose : Nat
  vec : Nat
  deriving DecidableEq, Repr

/-- One PCIe function (R56) with its mailboxes, ring, flags and interrupt state. -/
structure Fn where
  /-- Inbound slots 0–31 of 512 bytes (R57, R59). -/
  inbox : Mem := []
  /-- Outbound slots 0–31 of 512 bytes (R57, R59). -/
  outbox : Mem := []
  /-- EXPECTED_SEQ (R63, R473). -/
  expSeq : BitVec 16 := 0
  held : List Held := []
  /-- NEXT_OUT (R64, R473). -/
  nextOut : Nat := 0
  /-- Replies formed and not yet posted, oldest first. -/
  replies : List Reply := []
  /-- Model's own: the number of Function Level Resets seen. -/
  epoch : Nat := 0
  /-- A Function Level Reset is under way (R66). -/
  flr : Bool := false
  ring : Ring := {}
  /-- HOST_FLAGS, flags 0–5 (R470). -/
  flags : AMap Flag := []
  /-- The latched high word and the offset of its register (R466). -/
  latch : Option (Nat × BitVec 32) := none
  /-- BAR2 window base (R58, R70). -/
  winBase : BitVec 64 := 0
  /-- log2 of the BAR2 size: 28 (256 MiB) to 36 (64 GiB), default 30 (R57). -/
  bar2Log : Nat := 30
  /-- MSI-X enable, function mask, vector masks and pending bits (R76). -/
  msixEnable : Bool := false
  msixFnMask : Bool := false
  msixMasked : NSet := List.range 64
  msixPending : NSet := []
  /-- Vectors whose moderation interval is open, with its end (R77). -/
  modUntil : AMap Nat := []
  /-- Vectors raised once more at the end of their interval (R77). -/
  modAgain : NSet := []
  binds : List VecBind := []
  deriving DecidableEq, Repr

/-- The PCIe port (R54, R450, R473, R75). -/
structure Pcie where
  linkUp : Bool := false
  speed : Nat := 0
  width : Nat := 0
  flit : Bool := false
  l0p : Bool := false
  l0pWidth : Nat := 0
  /-- DOWN_COUNT (R472). -/
  downCount : BitVec 16 := 0
  /-- Virtual functions enabled: the highest VF number (R56); 0 while VF Enable is clear. -/
  vfs : Nat := 0
  deriving DecidableEq, Repr

/-- What the device sends, newest first: messages, completions and pin changes that leave the block. The
model's own log; nothing reads it back. -/
inductive Out where
  /-- An MSI-X message (R76). -/
  | msix (fn vec : Nat)
  /-- A 32-byte event record written to host memory (R71): header bits [127:0] as bytes, and the payload's fields, whose
  bits the event file gives (R479). -/
  | ringWrite (fn pos : Nat) (addr : BitVec 64) (header : Bytes) (payload : List Nat)
  /-- A 16-byte token record written to host memory (R376). -/
  | tokenWrite (fn pos : Nat) (addr : BitVec 64) (rec : Bytes)
  /-- A completion with data; `ep` marks a poisoned TLP (R58). -/
  | readData (fn : Nat) (data : Bytes) (ep : Bool)
  /-- A configuration read's answer (R55). -/
  | cfgData (fn off : Nat) (value : BitVec 32)
  /-- A poisoned read reported through AER by a function (R58). -/
  | aer (fn : Nat)
  /-- A PLDM response: effecter or sensor, and completion code (R79). -/
  | pldm (id : Nat) (ok : Bool)
  /-- A PLDM sensor's reading; none while it is Unavailable (R79). -/
  | sensor (id : Nat) (value : Option Int)
  /-- An SPDM response (R431). -/
  | spdm (via : SpdmVia) (code : Nat) (data : Bytes)
  /-- A JTAG data register shifted out (R462). -/
  | jtag (code : Nat) (data : Bytes)
  /-- A flit sent on a port (R248, R249): the two codewords of its even and its odd bytes, with their parity. -/
  | flit (port : Nat) (even odd : Bytes)
  deriving DecidableEq, Repr

/-! ## Security processor, store and boot (R417–R437) -/

/-- One copy of a store record in one bank (R421, R422): its 32 header bytes and its payload. -/
structure StoreCopy where
  header : Bytes
  payload : Bytes
  /-- The LINKS record's content (R265), whose layout the spec does not give. -/
  links : Option LinksRec := none
  deriving DecidableEq, Repr

/-- A store write that is queued or being made (R423). -/
structure StoreWrite where
  typ : Nat
  payload : Bytes
  links : Option LinksRec := none
  deriving DecidableEq, Repr

/-- The OWNER record (R429). -/
structure Owner where
  key : Bytes
  require : Bool
  vendorDebug : Bool
  gen : Nat
  deriving DecidableEq, Repr

/-- One DEBUG_HISTORY entry (R435). -/
structure HistEntry where
  boots : Nat
  level : Nat
  jtag : Bool
  signer : Nat
  lifecycle : Nat
  cause : Nat
  deriving DecidableEq, Repr

/-- A bundle or record under assembly: its announced length and the bytes written so far (R80, R444). -/
structure Staging where
  len : Nat
  data : Mem := []
  /-- The byte ranges written: (offset, length). -/
  ranges : List (Nat × Nat) := []
  writeFlash : Bool := false
  deriving DecidableEq, Repr

/-- The running bundle (R427). -/
structure Running where
  slot : Nat
  svn : Nat
  release : Nat
  keyIndex : Nat
  length : Nat
  /-- The bundle's bytes as loaded. -/
  image : Mem := []
  deriving DecidableEq, Repr

/-- A debug session (R433, R435, R437). -/
structure Session where
  level : Nat
  jtag : Bool
  signer : Nat
  /-- End of VALID_S; none: until reset. -/
  expires : Option Nat
  deriving DecidableEq, Repr

/-- Why memories are being zeroised (R420, R437). -/
inductive ZeroWhy where
  | scan (s : Session)
  | toReturn
  deriving DecidableEq, Repr

/-- The security processor's state: the security state word (R17), boot, store images, tokens, updates. -/
structure Sec where
  /-- Boot state code (R427). -/
  boot : Nat := 0
  lifecycle : Nat := 0
  session : Option Session := none
  /-- PUF-derived keys are available (R419). -/
  keys : Bool := false
  boots : BitVec 32 := 0
  /-- Anti-rollback counters 0–7 (R428). -/
  counters : List Nat := [0, 0, 0, 0, 0, 0, 0, 0]
  owner : Option Owner := none
  /-- Running counts of sessions at CONTROL and SCAN, then the entries, oldest first (R435). -/
  histControl : Nat := 0
  histScan : Nat := 0
  history : List HistEntry := []
  /-- The outstanding nonce and the end of its 60 s (R436). -/
  nonce : Option (BitVec 256 × Nat) := none
  /-- Bundle staged by SEC_UPDATE_ (R444) and by DEV_REC_ (R80). -/
  update : Option Staging := none
  recovery : Option Staging := none
  /-- DEV_REC_END passed: Voxub starts from the loaded copy (R81). -/
  recStart : Bool := false
  /-- Boot-flash writes of SEC_UPDATE_END under way, oldest first (R444): the command, the slot and the bundle. -/
  slotWrites : List (Pend × Nat × Mem) := []
  /-- Store records staged by SEC_STORE_WRITE, by TYPE: bytes and highest byte written (R444). -/
  staged : AMap (Mem × Nat) := []
  /-- Measurements 1–4, 6 and 7, fixed at boot (R432). -/
  meas : AMap Bytes := []
  /-- The IDENTITY payload in use (R424). -/
  identity : Option Bytes := none
  /-- The retired-site map that each quarter sequencer was loaded with at boot: the 4 retired sites of 68, by quarter
  (R14, R51, R52). -/
  siteMaps : AMap NSet := []
  running : Option Running := none
  /-- Memories being zeroised, for a command of the mailbox or of JTAG (R420, R437). -/
  zeroising : Option (Option Pend × ZeroWhy) := none
  /-- SCAN has been entered since SYS_RST_N was last deasserted: PUF keys stay unavailable (R419). -/
  scanned : Bool := false
  /-- After ZEROISE_DONE of R420: the steps that end in RETURN are due. -/
  returning : Option Pend := none
  deriving DecidableEq, Repr

/-- Non-volatile parts: the two-bank store and the boot flash (R421, R425). -/
structure Nvm where
  bankA : AMap StoreCopy := []
  bankB : AMap StoreCopy := []
  /-- Writes in the order taken; the first is being made (R423). -/
  writes : List StoreWrite := []
  /-- Boot flash slots A and B of 32 MiB (R425). -/
  slotA : Mem := []
  slotB : Mem := []
  deriving DecidableEq, Repr

/-- The BOARD record in use (R456, R457). -/
structure Board where
  lpFitted : Nat := 0
  lpSecded : Nat := 0
  lpRate : Nat := 0
  lpDensity : Nat := 0
  flFitted : Nat := 0
  flTargets : Nat := 0
  flLuns : Nat := 0
  flIface : Nat := 0
  flRate : Nat := 0
  flChGb : Nat := 0
  linkWired : Nat := 0
  iccA : Nat := 400
  capW : Nat := 900
  pcieClk : Nat := 0
  deriving DecidableEq, Repr

/-! ## Power, clocks and management (R439–R442, R448–R460, R19, R79) -/

/-- The power, clock and thermal state kept by the management processor. -/
structure Pwr where
  /-- Power state code (R439). -/
  state : Nat := 0
  autoWake : Bool := false
  idleUs : Nat := 0
  /-- Entry to RETAIN (2) or OFF (3), or exit to ACTIVE (0), under way. -/
  going : Option (Nat × Option Pend) := none
  /-- The OK reply to PWR_STATE OFF has been formed; the 1 ms wait runs to this time (R441). -/
  offAt : Option Nat := none
  /-- When IDLE exit on demand is under way (R439). -/
  waking : Bool := false
  /-- Last moment a descriptor issued in any quarter (R439). -/
  lastIssue : Nat := 0
  /-- Ports that were UP at the entry to RETAIN (R440). -/
  retainPorts : NSet := []
  capW : Nat := 900
  meanW : Nat := 0
  /-- Clock in MHz of each quarter, 0–15 East and 16–31 West (R20, R23): an unlisted one runs at 2,000. -/
  mhz : AMap Nat := []
  /-- Compute voltage of each die in mV (R448). -/
  mvE : Nat := 780
  mvW : Nat := 780
  /-- The clocks that quarters rise to once their die's regulator acknowledges the higher voltage (R448). -/
  rise : AMap Nat := []
  prochot : Bool := false
  /-- PLDM sensors 1–4 in °C (R79). -/
  tEast : Int := 25
  tWest : Int := 25
  tHub : Int := 25
  tKeeper : Int := 25
  throttling : Bool := false
  raising : Bool := false
  lastThrottle : Nat := 0
  /-- Pins: THERMTRIP_N and PWR_OFF_REQ_N driven low, CMP_EN high (R449, R452, R460). -/
  thermTrip : Bool := false
  pwrOffReq : Bool := false
  cmpEn : Bool := false
  /-- The quarter, command-processor and link clocks are stopped (R20, R402). -/
  clocksStopped : Bool := false
  /-- Effecters 101 and 102 (R79) as kept in SETTINGS. -/
  riskThreshold : Nat := 4
  bootHost : Bool := false
  smbusAddr : Nat := 0x64
  /-- The SMBus address that ARP has assigned (R78). -/
  arpAddr : Option Nat := none
  deriving DecidableEq, Repr

/-- The advisory slots (R19): the payload of each kind, and whether control has yet to read it. -/
structure Advisory where
  value : Nat := 0
  margin : Int := 0
  unread : Bool := false
  deriving DecidableEq, Repr
/-! ## Segments, memory and the flash tier (R206–R246) -/

/-- A valid segment entry (R224), with the model's own number of the memory that backs it. -/
structure Seg where
  tier : Nat
  coded : Bool
  cached : Bool
  ro : Bool
  fallback : Nat
  prio : Nat
  deadlineUs : Nat
  subst : Nat
  place : Nat
  dbase : Nat
  size : Nat
  firstExt : Nat
  volume : Nat
  /-- Model's own: the key of its backing. -/
  bid : Nat
  deriving DecidableEq, Repr

/-- Memory that firmware has allocated: a segment's backing, a program copy, a save area, group staging or a frame
store (R86, R226, R269, R377, R388). `units` are the stacks or sites it is interleaved over. -/
structure Backing where
  tier : Nat
  units : List Nat
  size : Nat
  data : Mem := []
  /-- Poisoned 64-byte granules (R222). -/
  poison : NSet := []
  /-- Cached lines of 128 bytes that differ from memory (R207). -/
  dirty : NSet := []
  /-- 4 KiB granules written since the district's creation (R377). -/
  live : NSet := []
  /-- Cleared while a descriptor still holds it latched (R22, R227): it no longer takes capacity. -/
  released : Bool := false
  deriving DecidableEq, Repr

/-- One extent's contents (R240–R242, R244). -/
structure Extent where
  data : Mem := []
  poison : NSet := []
  /-- The volume nonce and the tweak of sector 0 under which it is encrypted; none while it is unwritten. -/
  xts : Option (Nat × Nat) := none
  /-- NAND sectors it occupies (R241). -/
  sectors : Nat := 16
  deriving DecidableEq, Repr

/-- A flash volume (R240). -/
structure Vol where
  owner : Nat
  extents : Nat
  /-- Created, its zero contents not yet acknowledged (R238). -/
  creating : Option Pend := none
  /-- Key nonce (R244). -/
  nonce : Nat := 0
  data : AMap Extent := []
  deriving DecidableEq, Repr

/-- One NAND block as the translation layer keeps it (R243). -/
structure FlBlock where
  erases : Nat := 0
  reads : Nat := 0
  lastRead : Nat := 0
  retired : Bool := false
  /-- Extents (volume, extent) whose data it holds. -/
  holds : List (Nat × Nat) := []
  deriving DecidableEq, Repr

/-- A flash access that outlives its request: a cancelled read on its way to staging (R233), or an extent write whose NAND
program is not yet acknowledged (R241). -/
structure FlashOp where
  vol : Nat
  ext : Nat
  write : Option Extent := none
  deriving DecidableEq, Repr

/-- The flash controller and the tier-move engine's staging (R235–R246). -/
structure Flash where
  vols : AMap Vol := []
  blocks : AMap FlBlock := []
  /-- Extents held in staging, least recently used first (R236). -/
  staging : List (Nat × Nat) := []
  /-- Cancelled reads and unacknowledged writes. -/
  inflight : List FlashOp := []
  /-- The district whose queue the engine served last (R235). -/
  rr : Nat := 31
  /-- The block that writes go to (R243). -/
  openBlk : Option Nat := none
  /-- Factory-marked bad blocks, and whether the first power-up has read them (R243). -/
  factory : NSet := []
  marksRead : Bool := false
  readOnly : Bool := false
  spareLow : Bool := false
  calibratedAt : Nat := 0
  /-- Blocks relocated by maintenance (R243). -/
  relocated : Nat := 0
  deriving DecidableEq, Repr

/-- A MEM_MOVE under way (R238): what it copies and how far it is. -/
structure MemMove where
  pend : Pend
  src : Seg
  dst : Seg
  srcOff : Nat
  dstOff : Nat
  len : Nat
  /-- The source bytes as they stood when the move began, when the ranges overlap (R238). -/
  snapshot : Option (Mem × NSet) := none
  done : Nat := 0
  /-- When it was accepted (R235). -/
  at_ : Nat := 0
  deriving DecidableEq, Repr

/-- Corrected-error bookkeeping of a memory site (R221). -/
structure SiteCe where
  count : Nat := 0
  total : Nat := 0
  lastEvent : Option Nat := none
  deriving DecidableEq, Repr

/-- One memory channel's scheduling state (R216): direction, bytes moved in it since it turned (16 KiB or more leave it free to
turn), the open row of each bank, and refreshes owed per bank. Its queues are the waiting transfers' next transactions. -/
structure Chan where
  writing : Bool := false
  moved : Nat := 16384
  rows : AMap Nat := []
  postponed : AMap Nat := []
  deriving DecidableEq, Repr

/-! ## Cores, descriptors and signal pairs (R82–R112) -/

/-- One descriptor in a core's queue, with what was latched when it was fetched (R22): the entry generation and the
district's segments. -/
structure QEntry where
  raw : Bytes
  idx : Nat
  gen : BitVec 16
  segs : AMap Seg
  deriving DecidableEq, Repr

/-- One end of a transfer: local SRAM at an address, or an offset in a latched segment. -/
inductive End where
  | lcl (addr : Nat)
  | seg (num : Nat) (e : Seg) (off : Nat)
  deriving DecidableEq, Repr

/-- A transfer of rows between two ends (R94, R112): `pos` counts the bytes moved, row after row. -/
structure Xfer where
  src : End
  dst : End
  rowBytes : Nat
  rows : Nat
  srcStride : Nat
  dstStride : Nat
  pos : Nat := 0
  aop : Nat := 0
  recode : Option Nat := none
  /-- Deadline instant (R229). -/
  deadline : Option Nat := none
  /-- The fallback taken (R230). -/
  fell : Option Nat := none
  /-- Page read or page write of a serving pool (R357, R358): the page index form of the transfer. -/
  page : Bool := false
  /-- When it issued (R235), and since when its next transaction waits (R216). -/
  at_ : Nat := 0
  since : Nat := 0
  deriving DecidableEq, Repr

/-- What an issued descriptor has still to do. -/
inductive Work where
  /-- Nothing: it waits only to complete in program order. -/
  | fin
  /-- It has issued and its arithmetic has not begun (R102). -/
  | compute
  /-- A MATMUL: tiles drained so far; `hold` while the last drained tile waits to be taken (R150, R151); `part` the values
  of columns whose block a later tile completes (R149). -/
  | mat (tiles : Nat) (hold : Bool) (part : List (List Nat))
  | xfer (x : Xfer)
  /-- A SIGNAL whose increment has not landed, with its place in the order of issue (R13). -/
  | sig (n : Nat)
  /-- A WAIT: the end of its timeout. -/
  | wait (expires : Option Nat)
  /-- A COLL put or take that the collective engine has not served (R97). -/
  | coll
  deriving DecidableEq, Repr

/-- An issued, uncompleted descriptor. -/
structure Issued where
  q : QEntry
  work : Work
  begun : Bool := false
  /-- Soft faults it has taken (R108). -/
  softs : NSet := []
  /-- Table slots it counts a reference to (R200). -/
  refs : NSet := []
  /-- The local spans a begun LANE reads and writes, as its program gave them (R163). -/
  spans : Option (List (Nat × Nat) × List (Nat × Nat)) := none
  /-- A begun MATMUL's mask bitmap (R146); its quarter's cycle count, in thousandths, when its last tile began to wait for the
  collective engine, and the cycles it has waited since that tile (R151, R152). -/
  mask : Bytes := []
  holdAt : Nat := 0
  stall : Nat := 0
  deriving DecidableEq, Repr

/-- A prefetch under way (R112), with its carrier's index. -/
structure Prefetch where
  idx : Nat
  tag : Nat
  /-- The segments its carrier latched (R22). -/
  segs : AMap Seg
  x : Xfer
  begun : Bool := false
  deriving DecidableEq, Repr

/-- A signal pair (R106). -/
structure Pair where
  filled : BitVec 16 := 0
  freed : BitVec 16 := 0
  deriving DecidableEq, Repr

/-- One core of a district (R82, R101, R106). -/
structure Core where
  sram : Mem := []
  poison : NSet := []
  /-- Skip-marked 256-byte units (R232). -/
  skip : NSet := []
  /-- 4 KiB granules written since the district's creation (R377). -/
  live : NSet := []
  pairs : AMap Pair := []
  /-- The vector register file (R154): 64 registers of 64 lanes, keyed 64 × register + lane, 32 bits each. -/
  vregs : AMap Nat := []
  queue : List QEntry := []
  /-- Index of the next descriptor to fetch. -/
  next : Nat := 0
  issued : List Issued := []
  prefetches : List Prefetch := []
  halted : Bool := false
  deriving DecidableEq, Repr

/-- A loaded core program (R85–R87): the firmware-owned copy and its counters. -/
structure Prog where
  image : Mem
  length : Nat
  progId : Nat
  bid : Nat
  completed : Nat := 0
  hard : Nat := 0
  soft : Nat := 0
  deriving DecidableEq, Repr

/-- A PROG_LOAD between its ACCEPTED and final reply (R86). -/
structure Loading where
  pend : Pend
  /-- The image as firmware read it, at acceptance. -/
  image : Mem
  len : Nat
  /-- Extents, (volume, extent), that the engine has yet to read for it, its source's PRIO and when it was accepted (R235). -/
  need : List (Nat × Nat) := []
  prio : Nat := 0
  at_ : Nat := 0
  deriving DecidableEq, Repr

/-- What a run was started by. -/
inductive RunBy where
  | plain
  | compute
  | update
  | serve
  deriving DecidableEq, Repr

/-- The running program of a district. -/
structure Run where
  handle : Nat
  by_ : RunBy
  /-- T_start of R229. -/
  tStart : Nat
  /-- The quarter sequencers have stopped issuing (R108, R109). -/
  stopped : Bool := false
  /-- The PROG_ABORT commands to answer (R109). -/
  aborts : List Pend := []
  /-- Causes of an early stop: fault codes and 0xFF for an abort. -/
  causes : NSet := []
  /-- The first hard fault: code and district core number (R372). -/
  first : Option (Nat × Nat) := none
  deriving DecidableEq, Repr

/-- A census tag: its five 48-bit counters, and which of them have raised CENSUS_FULL in this reset period (R99, R128). -/
structure Tag where
  cnt : Cnt := {}
  full : NSet := []
  deriving DecidableEq, Repr

/-- A compression table slot (R199–R201): its installed image, its generation, and the changes that wait for its
reference count to reach 0, oldest first (an image to load, or none to clear). -/
structure Tbl where
  image : Option Bytes := none
  gen : Nat := 0
  pending : List (Option Bytes × Pend) := []
  deriving DecidableEq, Repr
/-! ## Links (R247–R265) -/

/-- A pool as its transmitter counts it (R253): size, flits sent and flits reported freed, both modulo 4,096; a reduction
that waits to apply (R255). -/
structure TxPool where
  size : Nat := 0
  sent : Nat := 0
  freed : Nat := 0
  reduce : Option Nat := none
  deriving DecidableEq, Repr

/-- A pool as its receiver counts it: size, flits freed and the count last reported, modulo 4,096, and when it was (R253). -/
structure RxPool where
  size : Nat := 0
  freed : Nat := 0
  reported : Nat := 0
  reportAt : Nat := 0
  deriving DecidableEq, Repr

/-- A flit waiting to be sent; a forwarded one names the port and pool it still occupies (R252). -/
structure TxFlit where
  f : Flit
  origin : Option (Nat × Nat) := none
  deriving DecidableEq, Repr

/-- A message queued on a channel of a port: `key` tells messages apart, `open_` that flits are still to come. -/
structure TxMsg where
  key : Nat
  flits : List TxFlit
  open_ : Bool
  deriving DecidableEq, Repr

/-- A link port (R260). Pools and queues are keyed by 2 × channel + pool, or by channel. -/
structure Port where
  /-- State code (R260). -/
  state : Nat := 0
  attempts : Nat := 0
  /-- Own ID, mode and tag and the expected peer, as they stood when training began (R265). -/
  ownId : Nat := 0
  ownWard : Bool := false
  ownTag : BitVec 64 := 0
  peer : Peer := {}
  /-- Identity confirmed (R261), and the peer's pool sizes taken, in this training (R260). -/
  identOk : Bool := false
  credited : Bool := false
  /-- FSEQ of the next new sequenced flit, and the sequenced flits not yet acknowledged, oldest first (R250). -/
  txNext : Nat := 0
  replay : List Flit := []
  /-- Position in the replay buffer of the next flit to resend. -/
  resend : Option Nat := none
  /-- The FSEQ replayed last and how often. -/
  replayOf : Nat := 0
  replayCount : Nat := 0
  /-- Expected FSEQ, and when the last NAK for it was sent. -/
  rxNext : Nat := 0
  nak : Option Nat := none
  txPools : AMap TxPool := []
  rxPools : AMap RxPool := []
  /-- The pool whose report went out last (R253). -/
  reportRr : Nat := 0
  /-- CREDIT_SET flits to send (R255). -/
  ctl : List Flit := []
  /-- Pool sizes that grow once the reductions announced before them have applied (R255). -/
  grow : List PoolSize := []
  queue : AMap (List TxMsg) := []
  /-- The channel served last, and flits sent since the last one of a system channel (R251). -/
  rr : Nat := 0
  sinceSys : Nat := 7
  /-- LOCAL flits of group channels not yet taken as messages, and how many of them still stand in the link pool, since their
  district was PAUSED as they came: the engine has moved the others into staging (R252, R255, R269). -/
  rx : AMap (List Flit) := []
  held : AMap Nat := []
  /-- The out port of a message being forwarded. -/
  fwd : AMap Nat := []
  lastRx : Nat := 0
  lastTx : Nat := 0
  /-- A retrain is under way, with its cause (R264). -/
  retrain : Option Nat := none
  retrains : Nat := 0
  replays : Nat := 0
  fec : Nat := 0
  /-- Corrections and replays since the last LINK_CE, and when it was logged (R265). -/
  ceFec : Nat := 0
  ceReplays : Nat := 0
  ceAt : Option Nat := none
  offsetPs : Int := 0
  /-- SYNC: own last two send stamps, arrival stamp of the peer's last, what it said and when its sequence advanced (R262,
  R263). -/
  syncT1 : Nat := 0
  syncOld : Nat := 0
  syncT2 : Nat := 0
  syncAt : Option Nat := none
  root : Nat := 0
  dist : Nat := 0
  rootSeq : Nat := 0
  rootAt : Option Nat := none
  deriving DecidableEq, Repr

/-- A COLL_LINK_ENABLE under way (R265). -/
structure LinkEnable where
  pend : Pend
  ports : NSet
  deriving DecidableEq, Repr

/-- The links as a whole: configuration, ports, time root and time correction (R33, R257, R262, R263). -/
structure Links where
  cfg : LinksRec := {}
  ports : AMap Port := []
  enables : List LinkEnable := []
  /-- Model's own: numbers for message keys. -/
  nextKey : Nat := 0
  /-- The time root followed (none: this package), its sequence number and the parent port, whose recovered clock also sets the
  rate of the time-base (R262). -/
  root : Option Nat := none
  rootSeq : Nat := 0
  parent : Option Nat := none
  dist : Nat := 0
  rootAt : Nat := 0
  synced : Bool := false
  /-- Nanoseconds still to lose at half rate, and the offset still to slew (R33). -/
  lead : Nat := 0
  halfPhase : Bool := false
  slew : Int := 0
  slewCount : Nat := 0
  deriving DecidableEq, Repr

/-! ## Collectives and expert dispatch (R266–R327) -/

/-- A member of a group (R282). -/
structure Member where
  id : Nat
  relay : Option Nat
  deriving DecidableEq, Repr

/-- A chunk record (R271). -/
structure ChunkRec where
  units : Nat
  owner : Nat
  peer : Nat
  coded : Bool
  slot : Nat
  deriving DecidableEq, Repr

/-- A plan (R271). -/
structure Plan where
  op : Nat
  redop : Nat
  fmt : Nat
  acc : Bool
  early : Bool
  root : Nat
  chunks : List ChunkRec
  deriving DecidableEq, Repr

/-- A chunk as it stands at a member: the bytes, poison, taint and ready stamps (R281, R285). -/
structure ChunkVal where
  data : Bytes := []
  poison : Bool := false
  taint : Bool := false
  latePos : Nat := 0
  lateReady : Nat := 0
  earlyReady : Nat := 0
  deriving DecidableEq, Repr

/-- A chunk message (R281): header fields, the source position and the bytes sent. -/
structure Msg where
  gseq : Nat
  chunk : Nat
  pass : Nat
  level : Nat
  relayed : Bool
  epoch : Nat
  sig : Nat
  crc : Nat
  src : Nat
  v : ChunkVal
  /-- When and by which port it arrived, and whether its check has passed. -/
  at_ : Nat := 0
  port : Nat := 0
  checked : Bool := false
  deriving DecidableEq, Repr

/-- A message kept until its receiver acknowledges it (R286). -/
structure Kept where
  dst : Nat
  m : Msg
  deriving DecidableEq, Repr

/-- An open instance at this member (R274, R285). -/
structure Inst where
  gseq : Nat
  tOpen : Nat
  /-- Chunks put, with their bytes; chunks whose put or take has been issued; takes complete. -/
  puts : AMap ChunkVal := []
  putIssued : NSet := []
  takeIssued : NSet := []
  taken : NSet := []
  /-- Partials that arrived, keyed 2 × chunk + level, with the time of arrival. -/
  parts : AMap (ChunkVal × Nat) := []
  /-- Ward totals that wait for the system ring. -/
  totals : AMap ChunkVal := []
  /-- Final values at this member. -/
  vals : AMap ChunkVal := []
  /-- Chunks of a BROADCAST sent so far by the root. -/
  bcast : Nat := 0
  tainted : Bool := false
  poisoned : Bool := false
  /-- Intervals in which a contribution waited for a predecessor's chunk (R285). -/
  waits : List (Nat × Nat) := []
  /-- Chunks whose reduction at this member is done. -/
  done0 : NSet := []
  /-- The latest and earliest stamps over the chunks taken or reduced (R285). -/
  late : Option (Nat × Nat × Nat) := none
  early : Option Nat := none
  deriving DecidableEq, Repr

/-- A COLL descriptor, or a drained tile, that waits for the collective engine (R97, R284). -/
structure CollReq where
  d : Nat
  core : Nat
  idx : Nat
  put : Bool
  tile : Bool
  chunk : Nat
  addr : Nat
  bytes : Nat
  fmt : Nat
  /-- The bytes of a drained tile. -/
  data : Bytes := []
  poison : Bool := false
  /-- The segment of a buffer that is not local, with the generation's entry. -/
  seg : Option (Nat × Seg) := none
  /-- The instance it belongs to, once known (R274). -/
  inst : Option Nat := none
  /-- When it came to the engine (R235). -/
  at_ : Nat := 0
  deriving DecidableEq, Repr

/-- A token as a dispatch message carries it (R319, R325). -/
structure DTok where
  src : Nat
  tok : Nat
  rank : Nat
  gate : Nat
  slot : Nat
  entry : Nat
  dst : Nat
  row : Bytes := []
  poison : Bool := false
  deriving DecidableEq, Repr

/-- A local expert slot in a dispatch instance (R319–R322): the cold entry it serves, if any. -/
structure DSlot where
  /-- The cold entry's index; whether it is pinned and warm, and the extents it pins: (volume, extent) (R321). -/
  cold : Option Nat := none
  pinned : Bool := false
  pins : List (Nat × Nat) := []
  warm : Bool := false
  /-- Fallback taken: 0 none, 1 substituted, 2 skipped. -/
  state : Nat := 0
  written : Bool := false
  /-- The inbox as written. -/
  inbox : List DTok := []
  /-- Extents, (volume, extent), that the engine has yet to read for its cold entry, and since when (R321). -/
  need : List (Nat × Nat) := []
  at_ : Nat := 0
  deriving DecidableEq, Repr

/-- A dispatch instance at this member (R314–R324). -/
structure DInst where
  headers : Bool := false
  routed : Nat := 0
  cnt : AMap Nat := []
  toks : List DTok := []
  counts : List Nat := [0, 0, 0, 0, 0, 0, 0, 0]
  unrLogged : Bool := false
  pinLogged : Bool := false
  sent : Bool := false
  slots : AMap DSlot := []
  /-- Tokens a fallback moved to a slot. -/
  moved : AMap (List DTok) := []
  returned : Bool := false
  deriving DecidableEq, Repr

/-- The completion record (R285). -/
structure Compl where
  gseq : Nat := 0
  tOpen : Nat := 0
  tClose : Nat := 0
  laggard : Nat := 0
  laggardId : Nat := 0
  lagNs : Nat := 0
  predWait : Nat := 0
  tainted : Bool := false
  taintFinal : Bool := false
  poisoned : Bool := false
  retx : Nat := 0
  deriving DecidableEq, Repr

/-- A collective group (R266–R270). -/
structure Group where
  dist : Nat
  /-- State code (R270). -/
  state : Nat := 0
  tag : BitVec 64 := 0
  members : List Member := []
  myPos : Nat := 0
  flat : Bool := false
  evt : Bool := false
  stageKib : Nat := 0
  bid : Nat := 0
  timeoutUs : Nat := 0
  links : Nat := 0
  epoch : Nat := 0
  /-- The open instance's number, or the next one's. -/
  seq : Nat := 0
  sig : Nat := 0
  plan : Option Plan := none
  /-- The dispatch binding's payload (R313). -/
  bind : Option Bytes := none
  cur : Option Inst := none
  nxt : Option Inst := none
  /-- What messages of instance `seq` have brought before a put or take opens it (R274, R280). -/
  pre : Option Inst := none
  /-- Requests the engine has not served, oldest first. -/
  reqs : List CollReq := []
  /-- Messages in staging: unchecked ones, and checked ones of the next instance. -/
  inbox : List Msg := []
  kept : List Kept := []
  /-- Messages of a bound group that this member has sent on as a relay: (source position, instance, chunk) (R282). -/
  relays : List (Nat × Nat × Nat) := []
  /-- Acknowledgements to send: (source position, chunk). -/
  acks : List (Nat × Nat) := []
  acksAt : Nat := 0
  /-- Early-use checks outstanding: (instance, chunk, source position, the CRC agrees) (R287). -/
  checks : List (Nat × Nat × Nat × Bool) := []
  /-- Failed checks in verified mode, one entry each: (instance, chunk) (R286). -/
  fails : List (Nat × Nat) := []
  /-- The last progress of the open instance, for TIMEOUT_US. -/
  progress : Nat := 0
  record : Compl := {}
  disp : DInst := {}
  /-- The eight running totals of COLL_DISP_INFO (R327). -/
  totals : List Nat := [0, 0, 0, 0, 0, 0, 0, 0]
  deriving DecidableEq, Repr

/-- A COLL_DIR_WRITE that is held (R312). -/
structure DirWrite where
  pend : Pend
  first : Nat
  entries : List Bytes
  deriving DecidableEq, Repr

/-! ## The step gate and the step engine (R330–R348) -/

/-- The job that STEP_CONFIG defines (R330), with the member list and the layer records as firmware read them. -/
structure Job where
  compute : Nat
  update : Nat
  early : Bool
  hold : Bool
  evt : Bool
  /-- ON_NUMERIC: true SKIP. -/
  skip : Bool
  replayMax : Nat
  infoSeg : Nat
  infoOff : Nat
  members : List Member
  memberBytes : Bytes
  layerBytes : Bytes
  myPos : Nat
  lossPos : Nat
  feedSeg : Nat
  feedOff : Nat
  bufSeg : Nat
  bufOff : Nat
  recBytes : Nat
  recs : Nat
  feedRecs : Nat
  evalMs : Nat
  protect : Nat
  /-- The signature the gate's messages carry. -/
  sig : Nat
  deriving DecidableEq, Repr

/-- The step outcome record (R346). -/
structure Outcome where
  step : Nat := 0
  cursor : Nat := 0
  verdict : Nat := 0
  causes : Nat := 0
  replays : Nat := 0
  approx : Bool := false
  loss : Nat := 0
  nf : Nat := 0
  poison : Nat := 0
  tOpen : Nat := 0
  tEval : Nat := 0
  tDone : Nat := 0
  deriving DecidableEq, Repr

/-- A STEP_RUN under way: COUNT and the steps done (R348). -/
structure StepRun where
  pend : Pend
  count : Nat
  done : Nat := 0
  deriving DecidableEq, Repr

/-- The step gate and step engine of a district (R338–R348). -/
structure Gate where
  /-- Gate state code (R338). -/
  code : Nat := 0
  /-- The inputs of R339. -/
  nf : Nat := 0
  poison : Nat := 0
  taint : Bool := false
  fault : Bool := false
  approx : Bool := false
  job : Option Job := none
  /-- The step counter and the data cursor (R332). -/
  step : Nat := 0
  cursor : Nat := 0
  /-- The attempt of the step. -/
  replay : Nat := 0
  run : Option StepRun := none
  /-- The next step waits to open. -/
  opening : Bool := false
  /-- A feed move under way: its first record, and the step it is for (R332). -/
  feeding : Option (Nat × Nat) := none
  stop : Bool := false
  /-- The loop ends with the verdict of its step, since the district became FAULTED (R372). -/
  ends : Bool := false
  /-- The update program was aborted (R344). -/
  broken : Bool := false
  /-- Messages that wait while the district is PAUSED, oldest first (R381). -/
  waiting : List GateMsg := []
  tOpen : Nat := 0
  tEval : Nat := 0
  /-- When EVAL_TIMEOUT_MS started to run, moved on by pauses (R344). -/
  evalFrom : Nat := 0
  /-- The contributions to the verdict and to the commit round combined so far, and whether this member has contributed and
  sent on in the round under way. -/
  acc : Option GateMsg := none
  accC : Option GateMsg := none
  mine : Bool := false
  sent : Bool := false
  /-- The verdict that waits for position 0's decision, and the decision taken beforehand (R340, R345). -/
  held : Option GateMsg := none
  commit : Option Bool := none
  /-- The update program waits for the snapshot's capture (R407). -/
  updWait : Bool := false
  /-- Early refusal under way: the causes known (R343). -/
  early : Option Nat := none
  /-- The sequence numbers of the district's groups when the step opened (R343). -/
  seqs : AMap Nat := []
  record : Outcome := {}
  deriving DecidableEq, Repr

/-! ## The serving pool and loop (R349–R365, R374–R376) -/

/-- A page table entry (R352). -/
structure Pte where
  page : Nat
  /-- RESERVE: the column was the growth reserve when taken. -/
  reserve : Bool := false
  gen : Nat
  deriving DecidableEq, Repr

/-- A sequence slot (R352, R353). -/
structure Seq where
  /-- State code (R353). -/
  state : Nat := 0
  tag : Nat := 0
  prio : Nat := 0
  admitting : Bool := false
  gen : Nat := 0
  /-- Tokens in the cache; tokens in history; tokens a prefill has to write. -/
  len : Nat := 0
  hist : Nat := 0
  goal : Nat := 0
  /-- The prefill is a readmission's recompute (R364). -/
  again : Bool := false
  order : Nat := 0
  /-- Valid page table entries. -/
  table : AMap Pte := []
  /-- The growth reserve: a column, and whether it is in use as a page. -/
  spare : Option Nat := none
  resUsed : Bool := false
  pend : Option Pend := none
  deferred : Bool := false
  noPage : Bool := false
  dropped : Bool := false
  /-- In the running step: NEW, LAST_CHUNK, and its output is void (R356). -/
  inStep : Bool := false
  new : Nat := 0
  last : Bool := false
  void : Bool := false
  /-- The sequence ends at the next phase 1: 1 DONE, 2 length limit. -/
  ends : Nat := 0
  /-- Truncations that wait, with their new LEN (R356). -/
  edits : List (Nat × Pend) := []
  deriving DecidableEq, Repr

/-- The page pool of a serving district (R350). -/
structure Pool where
  seg : Nat
  histSeg : Nat
  histOff : Nat
  batchSeg : Nat
  batchOff : Nat
  /-- POLICY NONE. -/
  noDrop : Bool
  layers : Nat
  window : Nat
  slots : Nat
  maxPages : Nat
  pages : Nat
  columns : Nat
  bid : Nat
  /-- Columns held by sequences or reserves, and columns that immediate edits released since the last boundary. -/
  used : NSet := []
  back : NSet := []
  seqs : AMap Seq := []
  drops : Nat := 0
  deferrals : Nat := 0
  nextOrder : Nat := 0
  deriving DecidableEq, Repr

/-- The serving loop (R374–R376): phase 0 a boundary is due, 1 it waits for a command, 2 a step waits to start, 3 the step
runs. -/
structure Loop where
  pend : Pend
  handle : Nat
  ringBase : Nat
  consAddr : Nat
  log2n : Nat
  modUs : Nat
  vec : Nat
  produce : Nat := 0
  cons : Nat := 0
  phase : Nat := 0
  /-- Phases of the boundary in progress that have run, 0–3 (R362). -/
  part : Nat := 0
  stop : Bool := false
  heldLogged : Bool := false
  deriving DecidableEq, Repr

/-! ## Snapshots (R405–R416) -/

/-- SNAP_POLICY's values (R405). -/
structure Policy where
  volume : Nat
  intervalS : Nat
  regions : List Nat
  regionExt : Nat
  ms : Nat
  group : Nat
  bufSeg : Nat
  bufOff : Nat
  deriving DecidableEq, Repr

/-- A snapshot being written (R407, R408): header fields fixed at capture and what is still to do. -/
structure Capture where
  seq : Nat
  step : Nat
  cursor : Nat
  cause : Nat
  at_ : Nat
  /-- Extent 0 without the check, and the saved data's extents. -/
  head : Bytes := []
  ownDone : Bool := false
  mirDone : Bool := false
  /-- CHECK_KIND and CHECK_LOSS once known. -/
  check : Option (Nat × Nat) := none
  bytes : Nat := 0
  deriving DecidableEq, Repr

/-- A SNAP_RESTORE under way (R410). -/
structure Restore where
  pend : Pend
  region : Nat
  mirror : Bool
  verify : Bool
  remap : Bytes
  /-- Extents of the region, by number in it, that the engine has read (R235). -/
  got : NSet := []
  deriving DecidableEq, Repr

/-- A fill of a spare (R412): the bitmap, extent 0 and the metadata extents received. -/
structure Fill where
  /-- The SNAP_FILL commands that wait for the fill's end. -/
  pend : List Pend := []
  seq : Nat
  src : Nat
  verify : Bool
  head : Option Bytes := none
  have_ : NSet := []
  metas : AMap Bytes := []
  resent : Nat := 0
  deriving DecidableEq, Repr

/-- The snapshot engine of a district. -/
structure Snap where
  /-- State code (R416). -/
  code : Nat := 0
  policy : Option Policy := none
  /-- Snapshots taken so far, and when the last one started. -/
  seq : Nat := 0
  lastAt : Nat := 0
  /-- Pending request causes: bit 1 advised, bit 2 host (R406). -/
  asked : Nat := 0
  /-- The verdict's request, to be honoured at the next boundary. -/
  due : Option Nat := none
  /-- Next own and mirror region: false A, true B. -/
  nextOwn : Bool := false
  nextMir : Bool := false
  cap : Option Capture := none
  /-- Extent 0 of the mirror being received, and the extents received. -/
  mirHead : Option Bytes := none
  mirAll : Bool := false
  restore : Option Restore := none
  /-- A verify that the next verdict of this step takes: snapshot, step, CHECK_KIND, CHECK_LOSS, comparable (R411). -/
  verify : Option (Nat × Nat × Nat × Nat × Bool) := none
  fill : Option Fill := none
  /-- The SEQ this member serves to a spare. -/
  serving : Option Nat := none
  deriving DecidableEq, Repr

/-! ## Media pipes (R384–R400) -/

/-- A decoded frame kept for tokens and concealment: its frame slot's bytes, poison, depth and colour description. -/
structure MFrame where
  planes : Bytes
  poison : Bool
  ten : Bool
  mono : Bool
  full : Bool
  matrix : Nat
  deriving DecidableEq, Repr

/-- The luma window of one reference (R393): its superblock, and its 256 columns of 128 samples. -/
structure Window where
  sx : Nat
  sy : Nat
  cols : List (List Nat)
  deriving DecidableEq, Repr

/-- A media pipe (R386–R399). -/
structure Pipe where
  /-- State code (R386). -/
  state : Nat := 0
  dist : Nat := 0
  pend : Option Pend := none
  /-- The start payload. -/
  job : Bytes := []
  inLen : Nat := 0
  isEnd : Bool := false
  storeBid : Nat := 0
  /-- Input used so far: bytes, or frames of an encode. -/
  inPos : Nat := 0
  /-- END cause once the job is to end. -/
  ending : Option Nat := none
  frames : Nat := 0
  damaged : Nat := 0
  concealed : Nat := 0
  reenc : Nat := 0
  fallback : Nat := 0
  outBytes : Nat := 0
  tokRows : Nat := 0
  dropped : Nat := 0
  capOver : Nat := 0
  /-- The last output frame (R391). -/
  prev : Option MFrame := none
  /-- Frames of the temporal group under way, and the number of groups converted. -/
  group : List MFrame := []
  groups : Nat := 0
  /-- Frames that have concealed superblocks, by number (R391). -/
  conc : NSet := []
  /-- Bits of the last frames of an encode's cap window, newest first (R394); bits in the smoothing buffer model, times
  FPS_NUM (R395). -/
  window : List Nat := []
  bufFull : Nat := 0
  /-- An encode pipe's reference frames, newest first, in the frame slots beside the frame under way (R388, R393). -/
  refs : List MFrame := []
  /-- The window of each reference in use, as the last frame left it, and the vectors used in that frame (R393). -/
  windows : List Window := []
  vectors : List (Int × Int) := []
  /-- Feed records moved out of the token area (R398). -/
  moved : Nat := 0
  deriving DecidableEq, Repr

/-! ## Districts (R21, R366–R383) -/

/-- A DIST_PAUSE under way (R378). -/
structure Pausing where
  pend : Pend
  atBoundary : Bool
  start : Nat
  drained : Option Nat := none
  deriving DecidableEq, Repr

/-- A DIST_RESUME under way (R379). -/
structure Resuming where
  pend : Pend
  start : Nat
  quarters : List Nat
  deriving DecidableEq, Repr

/-- What a district's entry allocates beside its cores and channels (R21): the segment table base, and in each core its signal
pairs; the census tags; the compression table and micro-program slots. -/
structure Alloc where
  segTable : Nat := 0
  pairs : Nat := 128
  tags : Nat := 1024
  tblSlots : Nat := 4
  uslots : Nat := 16
  deriving DecidableEq, Repr

/-- A district: its entry of the district table and everything it owns (R21, R369). -/
structure Dist where
  /-- District state code (R370). -/
  state : Nat := 0
  /-- The state before the pause (R379, R383). -/
  prior : Nat := 0
  /-- Entry generation (R21). -/
  gen : BitVec 16 := 0
  alloc : Alloc := {}
  serving : Bool := false
  approx : Bool := false
  preempt : Bool := false
  /-- Quarter count Q. -/
  q : Nat := 0
  /-- The physical quarters it holds, ascending; none while it is PAUSED. -/
  quarters : List Nat := []
  sharedMib : Nat := 0
  channels : NSet := []
  dirBase : Nat := 0
  dirCount : Nat := 0
  /-- Credit share on each port (R255). -/
  shares : AMap Nat := []
  /-- Command processor (R368). -/
  cp : Nat := 0
  saveBid : Option Nat := none
  segs : AMap Seg := []
  /-- Segments whose zero fill is under way (R238). -/
  filling : AMap (Seg × Pend) := []
  progs : AMap Prog := []
  loadings : List Loading := []
  run : Option Run := none
  cores : AMap Core := []
  /-- Micro-program slots (R181). -/
  uslots : AMap Bytes := []
  /-- Compression table slots (R199). -/
  tbls : AMap Tbl := []
  census : AMap Tag := []
  moves : List MemMove := []
  pause : Option Pausing := none
  resume : Option Resuming := none
  recover : Option Pend := none
  /-- S_LIVE of the last save (R383), and the written 4 KiB granules of the shared portion that no segment holds any more (R377). -/
  sLive : Nat := 0
  gone : Nat := 0
  /-- Its directory entries by index, 32 bytes each (R309, R310), and held writes (R312). -/
  dir : AMap Bytes := []
  dirWrites : List DirWrite := []
  gate : Gate := {}
  pool : Option Pool := none
  loop : Option Loop := none
  /-- The batch-step number (R375). -/
  bstep : Nat := 0
  /-- When the district was last PAUSED or drained, for the timers that a pause freezes (R107, R344). -/
  pausedAt : Nat := 0
  snap : Snap := {}
  /-- Issue is halted by DBG_ACCESS, and the descriptors that single steps still allow (R433). -/
  dbgHalt : Bool := false
  dbgSteps : Nat := 0
  deriving DecidableEq, Repr
/-! ## Health and package-fatal causes (R402–R404) -/

/-- The health monitor's window and the package-fatal condition. -/
structure Health where
  /-- Corrected errors: (time, count); link retrains: time; hottest junction: (time, °C). -/
  ce : List (Nat × Nat) := []
  retrains : List Nat := []
  hot : List (Nat × Int) := []
  /-- Risk level, PLDM sensor 6 (R403). -/
  level : Nat := 0
  /-- CHECKPOINT_ADVISED is armed, and since when the level has stayed below the threshold (R404). -/
  armed : Bool := true
  belowSince : Option Nat := some 0
  lastAt : Option Nat := none
  /-- The package-fatal cause, when it was detected, and whether control has acknowledged it (R402). -/
  fatal : Option Nat := none
  fatalAt : Nat := 0
  fatalAck : Bool := false
  /-- Command processors whose firmware watchdog has expired (R402 cause 6). -/
  wdog : NSet := []
  /-- Times of uncorrectable codewords per near stack (R402 cause 3). -/
  ueLog : AMap (List Nat) := []
  deriving DecidableEq, Repr

/-! ## The whole state -/

/-- The reset inputs and PWR_GOOD (R451, R453). -/
structure Pins where
  aonRst : Bool := true
  /-- The reset of the SYS_RST_N domain: it also holds while AON_RST_N is asserted (R454). -/
  sysRst : Bool := true
  perst : Bool := true
  /-- The SYS_RST_N pin itself. -/
  sysPin : Bool := true
  pwrGood : Bool := true
  deriving DecidableEq, Repr

/-- The state of the block. -/
structure State where
  /-- The commands that are waiting, first in, first out. -/
  pending : List Instr := []
  /-- The 64-bit time-base, in ns (R31). One counter stands for every island's replica: their skew is 0 (DESIGN CHOICE, log entry 163). -/
  now : BitVec 64 := 0
  /-- Model's own: the number of free values used so far. -/
  freeCtr : Nat := 0
  /-- Population code: 0x46 F, 0x4E N, 0x43 C (R4, R44). -/
  population : Nat := 0x46
  pins : Pins := {}
  /-- The index-complete indication and the index (R38). -/
  indexOk : Bool := false
  index : Bytes := []
  /-- What training yielded, until the index is built (R218). -/
  training : Option TrainingResult := none
  board : Board := {}
  /-- LPDDR sites present after training, their common rate and common capacity in MiB (R218). -/
  lpSites : NSet := []
  lpRate : Nat := 0
  lpMib : Nat := 0
  /-- Functions 0–31 (R56). -/
  fns : AMap Fn := []
  pcie : Pcie := {}
  /-- Event records emitted and not yet at the ring writer, oldest first (R34, R72). -/
  emitted : List EventRec := []
  /-- Records logged once the event ring can carry them (R75, R218). -/
  deferred : List EventRec := []
  /-- Records the ring writer holds, in the order of R34 (R72). -/
  held : List HeldRec := []
  out : List Out := []
  /-- When the last mailbox command was released for execution, and its function (R65). -/
  lastRel : Option (Nat × Nat) := none
  sec : Sec := {}
  nvm : Nvm := {}
  pwr : Pwr := {}
  health : Health := {}
  /-- Advisory slots, kinds 1–5 (R19). -/
  adv : AMap Advisory := []
  /-- The last advisory values control has read: risk level, power cap, thermal limit (R19). -/
  planned : AMap Nat := []
  /-- The district table (R21). -/
  dists : AMap Dist := []
  backs : AMap Backing := []
  nextBid : Nat := 1
  /-- Model's own: the number of SIGNALs issued so far (R13). -/
  nextSig : Nat := 0
  flash : Flash := {}
  sites : AMap SiteCe := []
  chans : AMap Chan := []
  links : Links := {}
  groups : AMap Group := []
  /-- Media pipes, keyed 8 × KIND + pipe (R386). -/
  pipes : AMap Pipe := []
  /-- JTAG: the boundary register's update cells, and HIGHZ or EXTEST holding the pins (R462). -/
  jtagCells : List Bool := []
  jtagMode : Nat := 0
  /-- Work counters per quarter, and each quarter's cycles in thousandths (R152, R478). -/
  work : AMap WorkCnt := []
  cyc : AMap Nat := []
  deriving DecidableEq, Repr

/-- The machine right after reset: all three reset pins asserted and a blank two-bank store; every field at its
default. -/
def State.reset : State := {}

end Sys2Proof.Machine
end

