-- ==== Sys2Proof/Machine/Flags.lean ====
section
/-! DEFINITION. W1C flags with the set-wins rule (R8, R470, R471) and MSI-X messages (R76, R77). -/

namespace Sys2Proof.Machine

/-- The state of a function. -/
def getFn (s : State) (f : Nat) : Fn := tget {} s.fns f

/-- The state with a function changed. -/
def modFn (s : State) (f : Nat) (g : Fn → Fn) : State := { s with fns := tmod {} s.fns f g }

/-- A set by hardware or firmware: the flag becomes 1 and its count advances, saturating at 16 bits (R471 item 1). -/
def flagSet (x : Flag) : Flag := { x with set := true, count := satAdd 65535 x.count 1 }

/-- The count field: the internal count, or 255 above it (R471 item 1). -/
def flagField (x : Flag) : Nat := min x.count 255

/-- A write of 1 (R471 item 3): the writer's snapshot is subtracted; without one the count becomes 0. -/
def flagClear (x : Flag) : Flag :=
  let n := match x.snap with
    | some k => x.count - k
    | none => 0
  { set := n != 0, count := n, snap := none }

/-- Flag `i` of a function set (R470). PCIE_RETURN (5) is PF0 only. -/
def setFlag (s : State) (f i : Nat) : State :=
  if i = 5 ∧ f ≠ 0 then s else modFn s f fun x => { x with flags := tmod {} x.flags i flagSet }

/-- HOST_FLAGS as read (R470). -/
def hostFlags (x : Fn) : BitVec 64 :=
  BitVec.ofNat 64 ((List.range 6).map fun i =>
    let g := tget {} x.flags i
    b2n g.set * 2 ^ i + flagField g * 2 ^ (16 + 8 * i)).sum

/-- An output added to the log of what leaves the device. -/
def send (s : State) (o : Out) : State := { s with out := o :: s.out }

/-- An MSI-X message of a vector, or its pending bit while it is masked (R76). -/
def msix (s : State) (f vec : Nat) : State :=
  let x := getFn s f
  if !x.msixEnable then s
  else if x.msixFnMask || x.msixMasked.contains vec then modFn s f fun x => { x with msixPending := nsAdd x.msixPending vec }
  else send s (.msix f vec)

/-- The moderation interval of a vector in µs (R77): the ring's, or a serving loop's for its token vector (R374). -/
def modInterval (s : State) (f vec : Nat) : Nat :=
  let x := getFn s f
  if x.ring.enabled && x.ring.vector == vec then x.ring.modUs
  else match (tget {} s.dists f).loop with
    | some l => if l.vec = vec then l.modUs else 0
    | none => 0

/-- A vector raised. Within its moderation interval the raise waits for the interval's end (R77). -/
def raiseVec (s : State) (f vec : Nat) : State :=
  let x := getFn s f
  let m := modInterval s f vec
  if m != 0 then
    if thas x.modUntil vec then modFn s f fun x => { x with modAgain := nsAdd x.modAgain vec }
    else modFn (msix s f vec) f fun x => { x with modUntil := tset x.modUntil vec (s.now.toNat + 1000 * m) }
  else msix s f vec

end Sys2Proof.Machine
end

