-- ==== Sys2Proof/Machine/Ops.lean ====
section
/-! DEFINITION. The operations every meaning shares: reading and changing functions, districts and cores; the event log;
replies; the order of a firmware command's checks; the outcome of a command. -/

namespace Sys2Proof.Machine

abbrev Answer := Host.Outcome State Fault Refusal

/-! ## Access -/

/-- The state of a district. -/
def getDist (s : State) (d : Nat) : Dist := tget {} s.dists d

/-- The state with a district changed. -/
def modDist (s : State) (d : Nat) (g : Dist → Dist) : State := { s with dists := tmod {} s.dists d g }

/-- A core of a district, by district core number (R84). -/
def getCore (s : State) (d c : Nat) : Core := tget {} (getDist s d).cores c

/-- The state with a core changed. -/
def modCore (s : State) (d c : Nat) (g : Core → Core) : State :=
  modDist s d fun x => { x with cores := tmod {} x.cores c g }

/-- The time-base value as a number (R31). -/
def time (s : State) : Nat := s.now.toNat

/-- A free value: the next use of `Config.freeValue` (log entry 9). -/
def freshNat (s : State) : Nat × State := (Config.freeValue s.freeCtr, { s with freeCtr := s.freeCtr + 1 })

/-- The backing of a segment. -/
def getBack (s : State) (b : Nat) : Backing := tget ⟨0, [], 0, [], [], [], [], true⟩ s.backs b

/-- The state with a backing changed. -/
def modBack (s : State) (b : Nat) (g : Backing → Backing) : State := { s with backs := tset s.backs b (g (getBack s b)) }

/-! ## Quarter clocks (R20, R23) -/

/-- A quarter's clock in MHz. -/
def quarterMhz (p : Pwr) (q : Nat) : Nat := tget 2000 p.mhz q

/-- The physical quarters of a die, 0 East and 1 West. -/
def dieQuarters (die : Nat) : List Nat := (List.range 16).map (· + 16 * die)

/-- The lowest quarter clock. -/
def lowestMhz (p : Pwr) : Nat := (List.range 32).foldl (fun m q => min m (quarterMhz p q)) 2000

/-! ## Events (R34, R72, R76, R479) -/

/-- Severities of an event record (R71). -/
def sevInfo : Nat := 0
def sevNotice : Nat := 1
def sevError : Nat := 2
def sevFatal : Nat := 3

/-- The function of a district's own events: function d for district d, and PF0 for device-wide records (R72). -/
def districtFn (d : Nat) : Nat := if d < 32 then d else 0

/-- A FATAL record sets the FATAL flag of its function and raises vector 2 (R76, R470). -/
def fatalRaised (s : State) (f : Nat) : State := raiseVec (setFlag s f 2) f 2

/-- An event logged: a record stamped with the time-base, on its way to the ring writer (R34). -/
def emit (s : State) (source kind sev district : Nat) (payload : List Nat) : State :=
  let s := { s with emitted := s.emitted ++ [⟨s.now, source, kind, sev, district, payload⟩] }
  if sev = 3 then fatalRaised s (districtFn district) else s

/-- An event that is logged once the event ring can carry it (R75, R218). -/
def emitLater (s : State) (source kind sev district : Nat) (payload : List Nat) : State :=
  { s with deferred := s.deferred ++ [⟨s.now, source, kind, sev, district, payload⟩] }

/-- The source number of a district's command processor (R35, R368). -/
def cpSource (s : State) (d : Nat) : Nat :=
  if d < 32 ∧ (getDist s d).state ≠ 0 then 0x881 + (getDist s d).cp else 0x881

/-! ## Which firmware is running (R62, R80, R402, R440) -/

/-- Voxub serves the mailboxes. -/
def voxubRuns (s : State) : Bool := s.sec.boot == 3 && !s.pins.sysRst && !s.pwr.clocksStopped && s.pwr.state != 3

/-- The ROM serves PF0's mailboxes in recovery (R80), once the index is complete (R38). -/
def romServes (s : State) : Bool := s.sec.boot == 2 && s.indexOk && !s.pins.sysRst && !s.pwr.clocksStopped && s.pwr.state != 3

/-- The debug level (R433). -/
def dbgLevel (s : State) : Nat := match s.sec.session with
  | some x => x.level
  | none => 0

/-! ## Replies and the checks of R49 -/

/-- A failed check: status, STATE field and reply payload (R68, R69). -/
structure Err where
  status : Nat
  state : Nat := 0
  payload : Bytes := []
  deriving DecidableEq, Repr

/-- Status codes (R68). -/
def badFormat : Err := { status := 0x10 }
def unknownCommand : Err := { status := 0x11 }
def badArgument : Err := { status := 0x12 }
def exhausted : Err := { status := 0x21 }
def notPresent : Err := { status := 0x22 }
def denied : Err := { status := 0x30 }

/-- STATE_CONFLICT with an object kind and its state (R69). -/
def conflict (kind st : Nat) : Err := { status := 0x20, state := kind * 256 + st }

/-- The first failing check (R49). -/
def firstErr : List (Bool × Err) → Option Err
  | [] => none
  | (true, e) :: _ => some e
  | (false, _) :: l => firstErr l

/-- A reply formed: it waits for its function's next outbound slot (R64). A function whose resets have advanced since
the command was accepted gets none (R66). -/
def queueReply (s : State) (epoch : Nat) (r : Reply) : State :=
  if (getFn s r.req.fn).epoch = epoch then modFn s r.req.fn fun x => { x with replies := x.replies ++ [r] } else s

/-- The reply that refuses a command. -/
def refuse (s : State) (c : FwReq) (cmd : Nat) (e : Err) : State :=
  queueReply s (getFn s c.fn).epoch { req := c, cmd := cmd, status := e.status, state := e.state, payload := e.payload }

/-- The OK reply of a command that completes at once. -/
def replyOk (s : State) (c : FwReq) (cmd : Nat) (payload : Bytes) : State :=
  queueReply s (getFn s c.fn).epoch { req := c, cmd := cmd, payload := payload }

/-- The ACCEPTED reply of a two-stage command (R64). -/
def replyAccepted (s : State) (c : FwReq) (cmd : Nat) : State :=
  queueReply s (getFn s c.fn).epoch { req := c, cmd := cmd, final := false, status := 1 }

/-- A two-stage command's own record for its final reply. -/
def pendOf (s : State) (c : FwReq) (cmd : Nat) : Pend := ⟨c, cmd, (getFn s c.fn).epoch⟩

/-- The final reply of a two-stage command (R64). -/
def finish (s : State) (p : Pend) (status state : Nat) (payload : Bytes) : State :=
  queueReply s p.epoch { req := p.req, cmd := p.cmd, status := status, state := state, payload := payload, first := false }

/-- The final OK reply. -/
def finishOk (s : State) (p : Pend) (payload : Bytes) : State := finish s p 0 0 payload

/-- What the shared checks need to know of a command: CMD code; issued by PF0 only; device-wide (R67); legal in
EMPTY (R371); permitted at debug level SCAN (R433). -/
structure Spec where
  cmd : Nat
  pf0 : Bool := false
  wide : Bool := false
  emptyOk : Bool := false
  scanOk : Bool := false
  romOk : Bool := false
  deriving DecidableEq, Repr

/-- The district a command acts on. -/
def cmdDist (c : FwReq) : Nat := c.district.toNat

/-- The DISTRICT-field checks of R67. -/
def districtChecks (k : Spec) (c : FwReq) : List (Bool × Err) :=
  let d := c.district.toNat
  [(c.fn != 0 && d != c.fn, denied), (c.fn == 0 && 32 ≤ d && d ≤ 0xFE, badArgument),
   (c.fn == 0 && !k.wide && d == 0xFF, badArgument)]

/-- The checks that stand before a command's own arguments: format, command code, presence, the DISTRICT field, and the
EMPTY district of R49. In recovery the ROM knows only its own commands (R80); at SCAN a command outside the grants is
denied (R433). -/
def headChecks (k : Spec) (fmtOk present : Bool) (c : FwReq) (s : State) : List (Bool × Err) :=
  [(!fmtOk || 480 < c.payload.length, badFormat), (romServes s && !k.romOk, unknownCommand), (k.pf0 && c.fn != 0, denied),
   (dbgLevel s == 3 && !k.scanOk, denied), (!present, notPresent)]
    ++ districtChecks k c
    ++ [(!k.wide && !k.emptyOk && (getDist s (cmdDist c)).state == 0, conflict 1 0)]

/-- Some firmware serves the command. -/
def served (s : State) : Bool := voxubRuns s || romServes s

/-- A serving loop that waits for a command runs its next boundary once one that passes its checks is taken for its district
(R68, R375; log entry 132). -/
def wakeLoop (s : State) (d : Nat) : State :=
  match (getDist s d).loop with
  | some l => if l.phase = 1 then modDist s d fun x => { x with loop := some { l with phase := 0 } } else s
  | none => s

/-- A firmware command: the first failing check decides the status and nothing else changes; otherwise `eff` acts and
forms its own reply. Without running firmware no command is executed. -/
def fwRun (k : Spec) (c : FwReq) (checks : State → List (Bool × Err)) (eff : State → State) (s : State) : State :=
  if served s then
    match firstErr (checks s) with
    | some e => refuse s c k.cmd e
    | none => eff (if k.wide then s else wakeLoop s (cmdDist c))
  else s

/-- The outcome of a firmware command: a fault when it names no function of the port. -/
def fwStep (k : Spec) (c : FwReq) (checks : State → List (Bool × Err)) (eff : State → State) (s : State) : Answer :=
  if c.fn < 32 then .next (fwRun k c checks eff s) else .fault .noFunction

/-- The outcome of a host request to a function. -/
def hostStep (f : Nat) (g : State → State) (s : State) : Answer :=
  if f < 32 then .next (g s) else .fault .noFunction

/-- An event inside the block: when it is not due, nothing happens (log entry 4). -/
def when (due : Bool) (g : State → State) (s : State) : State := if due then g s else s

/-- The legality check of R371: the district's state is among those listed. -/
def legalIn (s : State) (d : Nat) (ok : List Nat) : Bool × Err :=
  (!ok.contains (getDist s d).state, conflict 1 (getDist s d).state)

/-! ## District state (R370) -/

/-- A change of district state: the entry generation advances and DIST_STATE is logged (R370, R383). -/
def setDistState (s : State) (d st : Nat) : State :=
  let o := getDist s d
  if o.state = st then s
  else
    let g := o.gen + 1
    let src := if st = 0 then cpSource s d else if o.state = 0 then 0x881 + o.cp else cpSource s d
    emit (modDist s d fun x => { x with state := st, gen := g }) src 0x1E0 sevInfo d [o.state, st, g.toNat]

/-- The district's function (R56): function d serves district d. -/
def bindVec (s : State) (d vec purpose : Nat) : Option (Nat × State) :=
  let x := getFn s d
  let used := x.binds.map (·.vec)
  if 3 ≤ vec ∧ vec ≤ 63 then some (vec, modFn s d fun x => { x with binds := x.binds ++ [⟨purpose, vec⟩] })
  else if vec = 0xFF then
    match ((List.range 61).map (· + 3)).find? fun v => !used.contains v && !(x.ring.enabled && x.ring.vector == v) with
    | some v => some (v, modFn s d fun x => { x with binds := x.binds ++ [⟨purpose, v⟩] })
    | none => none
  else none

/-- The checks of a vector field (R76): 3–63, or 0xFF while a vector is unbound. -/
def vecArgOk (vec : Nat) : Bool := (3 ≤ vec && vec ≤ 63) || vec == 0xFF

/-- An unbound vector exists where one is asked for (R76). -/
def vecFree (s : State) (d vec : Nat) : Bool := vec != 0xFF || (bindVec s d vec 0).isSome

/-- The binding of a purpose released. -/
def unbind (s : State) (d purpose : Nat) : State :=
  modFn s d fun x => { x with binds := x.binds.filter fun b => b.purpose != purpose }

/-- The vector bound to a purpose raised. -/
def raiseBound (s : State) (d purpose : Nat) : State :=
  match (getFn s d).binds.find? fun b => b.purpose == purpose with
  | some b => raiseVec s d b.vec
  | none => s

/-- Purposes of vector bindings: program runs, the step loop, the serving loop, media pipes. -/
def vbProg : Nat := 1
def vbStep : Nat := 2
def vbServe : Nat := 3
def vbMedia (pipe : Nat) : Nat := 16 + pipe

/-! ## The census (R128, R129) -/

/-- 2^48 − 1, where a census counter stops (R128). -/
def censusMax : Nat := 2 ^ 48 - 1

/-- The five counters of a tag in the order of R99. -/
def cntList (c : Cnt) : List Nat := [c.zeros, c.sats, c.nonfin, c.under, c.elems]

/-- Counts added to a tag of a district: each counter stops at its maximum and raises CENSUS_FULL once per reset
period (R128); the non-finite counts reach the step gate (R339). `source` is the writing core. -/
def censusAdd (s : State) (d tag source : Nat) (n : Cnt) : State :=
  let t := tget {} (getDist s d).census tag
  let c : Cnt := ⟨satAdd censusMax t.cnt.zeros n.zeros, satAdd censusMax t.cnt.sats n.sats,
    satAdd censusMax t.cnt.nonfin n.nonfin, satAdd censusMax t.cnt.under n.under, satAdd censusMax t.cnt.elems n.elems⟩
  let newFull := (List.range 5).filter fun i => (cntList c).getD i 0 == censusMax && !t.full.contains i
  let s := modDist s d fun x => { x with
    census := tset x.census tag ⟨c, t.full ++ newFull⟩
    gate := { x.gate with nf := satAdd censusMax x.gate.nf n.nonfin } }
  newFull.foldl (fun s i => emit s source 0x080 sevNotice d [d, tag, i]) s

end Sys2Proof.Machine
end

