-- ==== Sys2Proof/Machine/EventRing.lean ====
section
/-! DEFINITION. The ring writer (R71–R77, R474, R475): arrival, the 4 µs hold, the write of a record into a ring, the
consume count, watermark and age causes, interrupt moderation, and the link's loss and return (R75). -/

namespace Sys2Proof.Machine

/-- The order of R34 within one package: stamp, then source number (R10). -/
def evBefore (a b : EventRec) : Bool :=
  a.stamp.toNat < b.stamp.toNat || (a.stamp == b.stamp && a.source < b.source)

/-- A record put into the writer's list in the order of R34; records of one source keep their order. -/
def heldInsert (x : HeldRec) : List HeldRec → List HeldRec
  | [] => [x]
  | y :: l => if evBefore x.ev y.ev then x :: y :: l else y :: heldInsert x l

/-- The functions whose rings a record is destined for (R72): its district's function, PF0 for a device-wide record,
and PF0 again when it mirrors every district. -/
def evDests (s : State) (e : EventRec) : List Nat :=
  let own := if e.district < 32 then e.district else 0
  if own ≠ 0 ∧ (getFn s 0).ring.mirror ∧ (getFn s 0).ring.enabled then [own, 0] else [own]

/-- A record lost to a function: EVT_LOST advances and the LOST flag is set (R72, R470). -/
def loseRecord (s : State) (f : Nat) : State :=
  setFlag (modFn s f fun x => { x with ring := { x.ring with lost := x.ring.lost + 1 } }) f 3

/-- Unconsumed records as last read: P − C (R77). -/
def unconsumed (r : Ring) : Nat := (r.produce - r.cons).toNat

/-- A ring-interrupt cause: the RING flag is set and the ring's vector raised (R77, R470). -/
def ringCause (s : State) (f : Nat) : State := raiseVec (setFlag s f 1) f (getFn s f).ring.vector

/-- The consume count read: C is what memory holds (R73); records consumed leave the list of written times. -/
def readCons (s : State) (f : Nat) (c : BitVec 64) : State :=
  modFn s f fun x => { x with ring := { x.ring with cons := c, writtenAt := x.ring.writtenAt.filter fun w => c.toNat ≤ w.1 } }

/-- The watermark cause arises when P − C passes to WATERMARK or above (R77). -/
def watermarkCheck (s : State) (f before : Nat) : State :=
  let r := (getFn s f).ring
  if before < r.watermark ∧ r.watermark ≤ unconsumed r then ringCause s f else s

/-- Bits [127:0] of an event record (R71). -/
def recordHeader (e : EventRec) (phase late afterLoss : Bool) (rseq : Nat) : Bytes :=
  pack 16 [(64, e.stamp.toNat), (12, e.source), (10, e.kind), (2, e.sev), (1, b2n phase), (1, b2n late), (1, b2n afterLoss),
    (5, 0), (8, e.district), (24, rseq)]

/-- A fresh read of C (R73): what host memory shows, which a command may carry and is a free value otherwise (log entry 130). -/
def freshRead (s : State) (f : Nat) (fresh : AMap (BitVec 64)) : State :=
  match tfind fresh f with
  | some v => readCons s f v
  | none => readCons (freshNat s).2 f (BitVec.ofNat 64 (freshNat s).1)

/-- One record written to a function's ring (R71, R73): a fresh read of C when the ring looks full, an overwrite when
it is full, then the record at position P mod N and the produce count. `fresh` holds what host memory shows. -/
def ringPut (s : State) (f : Nat) (e : EventRec) (late : Bool) (fresh : AMap (BitVec 64)) : State :=
  let r0 := (getFn s f).ring
  if !r0.enabled || !s.pcie.linkUp then loseRecord s f
  else
    let n := 2 ^ r0.log2n
    let s := if n ≤ unconsumed r0 then freshRead s f fresh else s
    let r := (getFn s f).ring
    let past := n ≤ unconsumed r
    let p := r.produce.toNat
    let pos := p % n
    let s := send s (.ringWrite f pos (r.base + BitVec.ofNat 64 (32 * pos))
      (recordHeader e (p / n % 2 == 0) late r.afterLoss (p % 2 ^ 24)) e.payload)
    let s := modFn s f fun x => { x with ring := { x.ring with
      produce := x.ring.produce + 1, afterLoss := past, writtenAt := x.ring.writtenAt ++ [(p, time s)] } }
    let s := if past then loseRecord s f else s
    watermarkCheck s f (unconsumed r)

/-- A record written to each of several rings. -/
def ringPutAll (s : State) (fs : List Nat) (e : EventRec) (late : Bool) (fresh : AMap (BitVec 64)) : State :=
  fs.foldl (fun s f => ringPut s f e late fresh) s

/-- EVENT_RECORD_ARRIVAL (R72): the i-th emitted record reaches the writer, unless an earlier record of its source has
not. Later than 4 µs after its stamp it is written on arrival with LATE; otherwise it is held. A ring that is
disabled counts it lost, and so does every ring while the link is down (R75). -/
def eventArrival (i : Nat) (s : State) : State :=
  match s.emitted[i]? with
  | none => s
  | some e =>
    if (s.emitted.take i).any fun x => x.source == e.source then s
    else
      let s1 := { s with emitted := s.emitted.eraseIdx i }
      let ds := evDests s e
      if e.stamp.toNat + 4000 < time s then ringPutAll s1 ds e true []
      else
        let off := ds.filter fun f => !((getFn s f).ring.enabled && s.pcie.linkUp)
        let on := ds.filter fun f => (getFn s f).ring.enabled && s.pcie.linkUp
        let s2 := off.foldl loseRecord s1
        if on = [] then s2 else { s2 with held := heldInsert ⟨e, on⟩ s2.held }

/-- RING_HOLD_EXPIRY (R72): the first held record, once its 4 µs are past, goes to each of its rings. -/
def holdExpiry (fresh : AMap (BitVec 64)) (s : State) : State :=
  match s.held with
  | [] => s
  | h :: l => if time s < h.ev.stamp.toNat + 4000 then s else ringPutAll { s with held := l } h.dests h.ev false fresh

/-- Every record held for one function's ring written at once, in order (R72, DEV_RING_OFF). -/
def flushHeld (f : Nat) : List HeldRec → State → State
  | [], s => s
  | h :: l, s => flushHeld f l (if h.dests.contains f then ringPut s f h.ev false [] else s)

/-- The held records without one destination. -/
def dropDest (f : Nat) (l : List HeldRec) : List HeldRec :=
  (l.map fun h => { h with dests := h.dests.filter (· != f) }).filter fun h => h.dests != []

/-- CONS_ROUTINE_READ (R73): a routine read of C, at most once per µs; a fall below WATERMARK re-arms its cause. -/
def routineRead (f : Nat) (v : BitVec 64) (s : State) : State :=
  let r := (getFn s f).ring
  let due := r.enabled && s.pcie.linkUp && (match r.consReadAt with
    | none => true
    | some t => t + 1000 ≤ time s)
  when due (fun s => modFn (readCons s f v) f fun x => { x with ring := { x.ring with consReadAt := some (time s) } }) s

/-- RING_AGE_EXPIRY (R77): the oldest unconsumed record is 100 µs old and its age cause has not arisen. -/
def ageExpiry (f : Nat) (s : State) : State :=
  let r := (getFn s f).ring
  match r.writtenAt.find? fun w => r.cons.toNat ≤ w.1 with
  | none => s
  | some w =>
    when (r.enabled && r.ageRaised != some w.1 && w.2 + 100000 ≤ time s)
      (fun s => ringCause (modFn s f fun x => { x with ring := { x.ring with ageRaised := some w.1 } }) f) s

/-- MSI_MODERATION_EXPIRY (R77): the interval of a vector ends; a cause that arose in it raises the vector once, and
that raise opens a new interval. -/
def moderationExpiry (f vec : Nat) (s : State) : State :=
  let x := getFn s f
  match tfind x.modUntil vec with
  | none => s
  | some t =>
    when (t ≤ time s) (fun s =>
      let again := x.modAgain.contains vec
      let s := modFn s f fun x => { x with modUntil := tdel x.modUntil vec, modAgain := nsDel x.modAgain vec }
      if again then raiseVec s f vec else s) s

/-- A ring disabled: what is held for it has no destination any more. -/
def ringDisable (s : State) (f : Nat) : State :=
  modFn { s with held := dropDest f s.held } f fun x => { x with ring := { x.ring with enabled := false } }

/-- EVT_CTRL as read (R474). -/
def evtCtrl (r : Ring) (f : Nat) : Nat :=
  packNat [(1, b2n r.enabled), (7, 0), (8, r.log2n), (8, r.vector), (1, b2n (r.mirror && f == 0))]

/-- Records deferred until the ring can carry them are emitted (R75, R218), with their own stamps. -/
def releaseDeferred (s : State) : State := { s with emitted := s.emitted ++ s.deferred, deferred := [] }

/-- Meaning of EVENT_RECORD_ARRIVAL (R72). -/
def execEventRecordArrival (i : Nat) (s : State) : Answer := .next (eventArrival i s)

/-- Meaning of RING_HOLD_EXPIRY (R72, R73). -/
def execRingHoldExpiry (fresh : AMap (BitVec 64)) (s : State) : Answer := .next (holdExpiry fresh s)

/-- Meaning of CONS_ROUTINE_READ (R73). -/
def execConsRoutineRead (f : Nat) (v : BitVec 64) (s : State) : Answer := hostStep f (routineRead f v) s

/-- Meaning of RING_AGE_EXPIRY (R77). -/
def execRingAgeExpiry (f : Nat) (s : State) : Answer := hostStep f (ageExpiry f) s

/-- Meaning of MSI_MODERATION_EXPIRY (R77). -/
def execMsiModerationExpiry (f vec : Nat) (s : State) : Answer := hostStep f (moderationExpiry f vec) s

/-- Meaning of PCIE_LINK_LOSS (R75): every district runs on; the loss is counted and logged after the link returns. -/
def execPcieLinkLoss (s : State) : Answer :=
  .next (when s.pcie.linkUp (fun s =>
    let n := s.pcie.downCount
    emitLater { s with pcie := { s.pcie with linkUp := false, downCount := if n.toNat = 65535 then n else n + 1 } }
      0x880 0x006 sevError 0xFF []) s)

/-- Every ring disabled and EVT_CTRL cleared at the link's return (R75, R468); a record still held over the outage is counted in
the EVT_LOST of each ring it was destined for. -/
def ringsOff (s : State) : State :=
  let s := s.held.foldl (fun s h => h.dests.foldl loseRecord s) s
  (List.range 32).foldl (fun s f =>
    modFn (ringDisable s f) f fun x => { x with ring := { x.ring with log2n := 0, vector := 0, mirror := false } }) s

/-- The link is down after a loss: it had trained since PERST_N. -/
def linkWasLost (s : State) : Bool := !s.pcie.linkUp && s.pcie.speed != 0

/-- The link back after a loss (R75, R470): every ring is disabled, and PCIE_RETURN is set on PF0. -/
def linkReturned (s : State) : State := setFlag (ringsOff { s with pcie := { s.pcie with linkUp := true } }) 0 5

/-- Meaning of PCIE_LINK_RETURN (R75, R470): every ring is disabled, and PCIE_RETURN is set on PF0. -/
def execPcieLinkReturn (s : State) : Answer :=
  .next (when (linkWasLost s && !s.pins.perst && s.indexOk) linkReturned s)

/-- Meaning of PCIE_LINK_TRAINED (R54, R75, R473): PCIE_LINK shows the training; below 64 GT/s x16 it is logged. The training
that ends an outage is the link's return. -/
def execPcieLinkTrained (speed width : Nat) (flitMode : Bool) (s : State) : Answer :=
  let ok := 1 ≤ speed && speed ≤ 6 && [1, 2, 4, 8, 16].contains width && !s.pins.perst && s.indexOk && s.sec.boot != 4
  .next (when ok (fun s =>
    let s := if linkWasLost s then linkReturned s else s
    let s := { s with pcie := { s.pcie with linkUp := true, speed := speed, width := width, flit := flitMode, l0p := false, l0pWidth := 0 } }
    if speed = 6 ∧ width = 16 then s else emit s 0x880 0x005 sevNotice 0xFF [speed, width]) s)

/-- Meaning of PCIE_L0P_WIDTH_CHANGE (R54, R472): x16 down to x2 in FLIT mode; the trained width ends L0p. -/
def execPcieL0pWidthChange (width : Nat) (s : State) : Answer :=
  .next (when (s.pcie.linkUp && s.pcie.flit && [2, 4, 8, 16].contains width && width ≤ s.pcie.width)
    (fun s => { s with pcie := { s.pcie with l0p := width != s.pcie.width, l0pWidth := if width = s.pcie.width then 0 else width } }) s)

end Sys2Proof.Machine
end

