-- ==== Sys2Proof/Machine/StreetIndex.lean ====
section
/-! DEFINITION. What the part holds: populations, presence, and the Street Index (R4, R37–R48, R217–R219, R237). -/

namespace Sys2Proof.Machine

/-! ## Presence (R4, R44, R48) -/

/-- Decode pipes of the population (R4). -/
def decPipes (s : State) : Nat := if s.population = 0x46 then 4 else if s.population = 0x4E then 2 else 0

/-- Encode pipes of the population (R4). -/
def encPipes (s : State) : Nat := if s.population = 0x46 then 2 else if s.population = 0x4E then 1 else 0

/-- The part has a flash controller (R4). -/
def hasFlashCtl (s : State) : Bool := s.population != 0x43

/-- Flash channels that BOARD fits and the population has (R4, R456). -/
def fittedChannels (s : State) : List Nat :=
  if s.population = 0x46 then setBits 16 s.board.flFitted else if s.population = 0x4E then setBits 8 s.board.flFitted else []

/-- Flash channels in the index: none without a board tier to hold the map (R237). -/
def flashChannels (s : State) : List Nat := if s.lpSites = [] then [] else fittedChannels s

/-- The flash tier is present (R48, R237). -/
def flashPresent (s : State) : Bool := flashChannels s != []

/-- A link port is present: the board wires it (R48). -/
def portPresent (s : State) (p : Nat) : Bool := p < 24 && s.board.linkWired.testBit p

/-- A tier is present (R225): near always, board with a trained site, flash with a channel, shared cache always. -/
def tierPresent (s : State) (t : Nat) : Bool :=
  t == 1 || t == 4 || (t == 2 && s.lpSites != []) || (t == 3 && flashPresent s)

/-! ## The board configuration record (R456, R457) -/

/-- LPDDR rates in descending order (R217). -/
def lpRates : List Nat := [8533, 7500, 6400, 5500, 4267, 3200]

/-- Site capacity in MiB of a density code (R456). -/
def densityMib (code : Nat) : Nat := if code = 0 then 0 else 4096 * 2 ^ code

/-- The BOARD record's fields from its payload (R456); an absent record gives the defaults (R457). -/
def boardOf (p : Option Bytes) : Board :=
  match p with
  | none => {}
  | some b =>
    { lpFitted := fld b 15 0, lpSecded := fld b 31 16, lpRate := fld b 47 32, lpDensity := fld b 111 48
      flFitted := fld b 127 112, flTargets := fld b 129 128, flLuns := fld b 131 130, flIface := fld b 135 132
      flRate := fld b 159 144, flChGb := fld b 191 160, linkWired := fld b 215 192, iccA := fld b 239 224
      capW := fld b 255 240, pcieClk := fld b 257 256 }

/-- The reserved fields of a BOARD payload are 0 (R9, R456). -/
def boardRsvdOk (p : Bytes) : Bool := zeroAt p [(143, 136), (223, 216), (511, 258)]

/-- The checks of R456 on a BOARD payload of 64 bytes. R456 bounds the flash capacity by 8 TB on every population; that an N part's
8 channels stay within the 4 TB of R4 is not checked (log entry 136). -/
def boardOk (p : Bytes) : Bool :=
  let b := boardOf (some p)
  let sites := setBits 16 b.lpFitted
  p.length == 64 && lpRates.contains b.lpRate
    && sites.all (fun i => let c := b.lpDensity / 2 ^ (4 * i) % 16; 1 ≤ c && c ≤ 4)
    && b.flIface ≤ 1 && b.flRate ≤ 3600
    && (setBits 16 b.flFitted).length * b.flChGb ≤ 8000
    && (b.flFitted == 0 || b.lpFitted != 0)
    && 400 ≤ b.iccA && b.iccA ≤ 950 && 900 ≤ b.capW && b.capW ≤ 1800 && b.pcieClk != 3

/-! ## Memory training (R218) -/

/-- Fitted LPDDR sites. -/
def fittedSites (b : Board) : List Nat := setBits 16 b.lpFitted

/-- The sites that pass some rate. -/
def passingSites (b : Board) (t : TrainingResult) : List Nat :=
  (fittedSites b).filter fun i => 3200 ≤ tget 0 t.lpRates i

/-- The trained rate: the highest supported rate, from the configured one down, that every passing site passes. -/
def trainedRate (b : Board) (t : TrainingResult) : Nat :=
  ((lpRates.filter (· ≤ b.lpRate)).find? fun r => (passingSites b t).all fun i => r ≤ tget 0 t.lpRates i).getD 0

/-- The common capacity: that of the smallest fitted site. -/
def commonMib (b : Board) : Nat :=
  match (fittedSites b).map fun i => densityMib (b.lpDensity / 2 ^ (4 * i) % 16) with
  | [] => 0
  | c :: cs => cs.foldl min c

/-- What training left, and its events (R218): LPDDR_SITE_FAILED is logged once the ring can carry it. -/
def trainMemory (t : TrainingResult) (s : State) : State :=
  let b := s.board
  let ok := passingSites b t
  let rate := trainedRate b t
  let s := { s with lpSites := ok, lpRate := if ok = [] then 0 else rate, lpMib := if ok = [] then 0 else commonMib b }
  let s := ((fittedSites b).filter fun i => !ok.contains i).foldl
    (fun s i => emitLater s (0x868 + i) 0x0C3 sevError 0xFF [i, 3200]) s
  if ok = [] ∨ rate = b.lpRate then s
  else
    let next := ((lpRates.reverse).find? fun r => rate < r).getD 8533
    let src := ((fittedSites b).find? fun i => tget 0 t.lpRates i < next).getD 0
    emit s (0x868 + src) 0x0C4 sevNotice 0xFF [b.lpRate, rate]

/-! ## Building the index (R40–R47) -/

/-- Runs of consecutive numbers with one attribute: (first, count, attribute). -/
def runsOf (key : Nat → Nat) : List Nat → List (Nat × Nat × Nat)
  | [] => []
  | i :: l =>
    match runsOf key l with
    | (j, n, k) :: r => if j = i + 1 ∧ k = key i then (i, n + 1, k) :: r else (i, 1, key i) :: (j, n, k) :: r
    | [] => [(i, 1, key i)]

/-- An entry: its 8-byte header and its body (R42). -/
def entry (typ : Nat) (body : Bytes) : Bytes := pack 8 [(8, typ), (8, 1), (16, 8 + body.length)] ++ body

/-- A UNIT entry (R44). -/
def unitEntry (kind first count source base : Nat) : Bytes :=
  entry 1 (pack 16 [(8, kind), (8, first), (16, count), (12, source), (4, 0), (16, 0x0101), (64, base)])

/-- The UNIT entries of a kind with `n` instances numbered from 0. -/
def unitKind (kind n source base : Nat) : List Bytes := if n = 0 then [] else [unitEntry kind 0 n source base]

/-- The UNIT entries (R44): only quarters have a window (R477). -/
def unitEntries (s : State) : List Bytes :=
  unitKind 1 32 0x800 0x20000 ++ unitKind 2 32 0x820 0 ++ unitKind 3 8 0x860 0
    ++ (runsOf (fun _ => 0) s.lpSites).map (fun r => unitEntry 4 r.1 r.2.1 (0x868 + r.1) 0)
    ++ unitKind 5 24 0x840 0 ++ unitKind 6 4 0x881 0 ++ unitKind 7 1 0x888 0 ++ unitKind 8 1 0x889 0
    ++ unitKind 9 (decPipes s) 0x890 0 ++ unitKind 10 (encPipes s) 0x894 0
    ++ unitKind 11 (b2n (hasFlashCtl s)) 0x8A0 0 ++ unitKind 12 1 0x887 0 ++ unitKind 13 1 0x8A1 0

/-- The ISLAND entries (R45): kind, count, nominal and lowest clock in MHz. -/
def islandEntries (s : State) : List Bytes :=
  ([(1, 32, 2000, 800), (2, 1, 2000, 2000), (3, 24, 1562, 1562), (4, 8, 2000, 2000),
    (5, b2n (s.lpSites != []), s.lpRate / 8, s.lpRate / 8), (6, decPipes s + encPipes s, 1200, 1200), (7, 4, 1500, 1500),
    (8, 1, 500, 500), (9, 1, 400, 400), (10, 1, 1000, 1000)].filter fun i => i.2.1 != 0).map fun i =>
      entry 3 (pack 8 [(8, i.1), (8, 0), (8, i.2.1), (8, 0), (16, i.2.2.1), (16, i.2.2.2)])

/-- A MEMORY entry. -/
def memEntry (tier first sites channels rate flags cap : Nat) : Bytes :=
  entry 4 (pack 16 [(8, tier), (8, first), (8, sites), (8, channels), (16, rate), (16, flags), (32, cap)])

/-- The flash interface rate in use: NV-DDR3 carries up to 1,600 MT/s (R239). -/
def flashRate (b : Board) : Nat := if b.flIface = 1 then min b.flRate 1600 else b.flRate

/-- The MEMORY entries: near, then board runs of equal SECDED, then flash runs. -/
def memoryEntries (s : State) : List Bytes :=
  [memEntry 1 0 8 32 0 0 32768]
    ++ (runsOf (fun i => b2n (s.board.lpSecded.testBit i)) s.lpSites).map
        (fun r => memEntry 2 r.1 r.2.1 4 s.lpRate (2 + r.2.2) s.lpMib)
    ++ (runsOf (fun _ => 0) (flashChannels s)).map (fun r => memEntry 3 r.1 r.2.1 1 (flashRate s.board) 12 s.board.flChGb)

/-- The MEDIA entry, when the part has a media engine. -/
def mediaEntries (s : State) : List Bytes :=
  if decPipes s + encPipes s = 0 then []
  else [entry 6 [BitVec.ofNat 8 (decPipes s), BitVec.ofNat 8 (encPipes s), 7, 1, if s.population = 0x46 then 3 else 1, 63, 62, 0x0F]]

/-- The limits of R46, by ascending identifier. -/
def limits : List Nat := [32, 64, 128, 1024, 4, 16, 64, 256, 65536, 4096, 32, 65536, 4096, 128, 16]

/-- The format rows of R47: code, bits, depth, use. -/
def formatRows : List (Nat × Nat × Nat × Nat) :=
  [(1, 32, 0, 0x03), (2, 16, 1, 0x13), (3, 16, 1, 0x13), (4, 8, 2, 0x15), (5, 8, 2, 0x15), (6, 6, 2, 0x1D), (7, 6, 2, 0x1D),
   (8, 4, 4, 0x1D), (9, 8, 2, 0x15), (10, 4, 4, 0x15)]

/-- Every entry in the order of R43. -/
def indexEntries (s : State) : List Bytes :=
  unitEntries s ++ [entry 2 (pack 8 [(8, s.population)])] ++ islandEntries s ++ memoryEntries s
    ++ [entry 5 (pack 8 [(8, 24), (8, 4), (16, 200), (24, s.board.linkWired)])] ++ mediaEntries s
    ++ [entry 7 ((limits.zipIdx).flatMap fun l => pack 8 [(16, l.2 + 1), (16, 0), (32, l.1)])]
    ++ formatRows.map fun f => entry 8 (pack 8 [(8, f.1), (8, f.2.1), (8, f.2.2.1), (8, f.2.2.2)])

/-- The header with a given DIGEST (R40). -/
def indexHeader (total count built : Nat) (digest : Bytes) : Bytes :=
  pack 32 [(32, 0x58495453), (8, 0), (8, 1), (16, 96), (32, total), (16, count), (16, 0), (16, 0x3000), (16, 0x0101), (32, 0),
    (64, built)] ++ slice digest 0 64

/-- The whole index (R40–R47). -/
def buildIndex (s : State) : Bytes :=
  let es := indexEntries s
  let body := es.flatten
  let total := 96 + body.length
  let digest := Config.sha512 (indexHeader total es.length (time s) [] ++ body)
  indexHeader total es.length (time s) digest ++ body

/-- The index bytes at an offset: zeros at and beyond TOTAL_LEN (R39, R476). -/
def indexBytes (s : State) (off n : Nat) : Bytes := slice s.index off n

/-- TOTAL_LEN. -/
def indexLen (s : State) : Nat := s.index.length

/-- Meaning of INDEX_BUILD_DONE (R38, R218, R237): the index is built from the board record and the training, and the
index-complete indication is set. -/
def execIndexBuildDone (s : State) : Answer :=
  .next (when (!s.pins.sysRst && !s.indexOk && s.sec.boot != 4 && s.training.isSome && s.health.fatal.isNone) (fun s =>
    let s := trainMemory (s.training.getD {}) s
    let s := if s.lpSites = [] ∧ hasFlashCtl s then emit s 0x8A0 0x0D5 sevError 0xFF [maskOf (fittedChannels s)] else s
    { s with indexOk := true, index := buildIndex s, training := none }) s)

end Sys2Proof.Machine
end

