-- ==== Sys2Proof/Machine/SegMem.lean ====
section
/-! DEFINITION. The bytes of memory: backings of near, board and shared-cache segments, flash extents, local SRAM, with
poison (R222), skip marks (R232), cached lines (R207) and capacity (R206, R219, R226, R236, R240). -/

namespace Sys2Proof.Machine

/-! ## Poisoned byte stores -/

/-- The poison marks after a write of `[a, a + n)` to a store: only a write that covers a whole granule clears its mark
(R222). -/
def clearPoison (p : NSet) (a n : Nat) : NSet := p.filter fun g => !(a ≤ g * 64 && g * 64 + 64 ≤ a + n)

/-- Poison marks set on the granules of a range (R222). -/
def addPoison (p : NSet) (gs : List Nat) : NSet := gs.foldl nsAdd p

/-- A granule of the range is poisoned. -/
def anyPoison (p : NSet) (a n : Nat) : Bool := p.any fun g => n != 0 && a / 64 ≤ g && g ≤ (a + n - 1) / 64

/-- The units of `u` bytes that a range touches. -/
def unitsOf (u a n : Nat) : List Nat :=
  if n = 0 then [] else (List.range ((a + n - 1) / u + 1 - a / u)).map (· + a / u)

/-! ## Backings (R206, R215, R220, R226) -/

/-- The lines of 128 bytes that a write of `[a, a + n)` covers in part: only these are allocated in the cache (R207). -/
def partLines (a n : Nat) : List Nat := (unitsOf 128 a n).filter fun u => !(a ≤ 128 * u && 128 * u + 128 ≤ a + n)

/-- Bytes written to a backing: marks, the written pages of R377 and the dirty lines of R207 follow. -/
def backWrite (cached : Bool) (b : Backing) (a : Nat) (d : Bytes) : Backing :=
  { b with
    data := memWrite b.data a d
    poison := clearPoison b.poison a d.length
    dirty := if cached then (partLines a d.length).foldl nsAdd b.dirty else b.dirty
    live := (unitsOf 4096 a d.length).foldl nsAdd b.live }

/-- Bytes a backing takes on one of its units: its share of the interleaving. -/
def unitShare (b : Backing) : Nat := cdiv b.size (max 1 b.units.length)

/-- Bytes in use on a stack or site. -/
def unitUse (s : State) (tier unit : Nat) : Nat :=
  (s.backs.map fun e => if e.2.tier = tier ∧ !e.2.released ∧ e.2.units.contains unit then unitShare e.2 else 0).sum

/-- Bytes a stack or site offers: with a flash controller, staging (256 MiB of near) and map (512 MiB of board) are
reserved, spread over the stacks and sites (R236); SECDED takes a sixteenth (R219). DESIGN CHOICE: log entry 16. -/
def unitCap (s : State) (tier unit : Nat) : Nat :=
  if tier = 1 then 32 * 2 ^ 30 - (if hasFlashCtl s then 32 * 2 ^ 20 else 0)
  else if tier = 2 then
    let raw := s.lpMib * 2 ^ 20
    (if s.board.lpSecded.testBit unit then raw / 16 * 15 else raw)
      - (if hasFlashCtl s then cdiv (512 * 2 ^ 20) (max 1 s.lpSites.length) else 0)
  else 0

/-- The stacks or sites of a placement mask: 0 means every present one (R224). -/
def placeUnits (s : State) (tier place : Nat) : List Nat :=
  if tier = 1 then (if place = 0 then List.range 8 else setBits 8 place)
  else if tier = 2 then (if place = 0 then s.lpSites else setBits 16 place)
  else []

/-- Backing of a size is free over the units (R226). -/
def fits (s : State) (tier : Nat) (units : List Nat) (size : Nat) : Bool :=
  units != [] && units.all fun u => unitUse s tier u + cdiv size units.length ≤ unitCap s tier u

/-- Granules that a shared-cache segment reserves in every slice of a district (R206). -/
def sharedGranules (q size : Nat) : Nat := cdiv size (4096 * max 1 q)

/-- Granules in use in each slice of a district. -/
def sharedUse (x : Dist) : Nat :=
  ((x.segs.map fun e => if e.2.tier = 4 then sharedGranules x.q e.2.size else 0)
    ++ (x.filling.map fun e => if e.2.1.tier = 4 then sharedGranules x.q e.2.1.size else 0)).sum

/-- A fresh backing, which reads as zero (R226): its key and the state. -/
def alloc (s : State) (tier : Nat) (units : List Nat) (size : Nat) : Nat × State :=
  (s.nextBid, { s with nextBid := s.nextBid + 1, backs := tset s.backs s.nextBid { tier := tier, units := units, size := size } })

/-- A segment snapshot refers to a backing. -/
def segsUse (m : AMap Seg) (b : Nat) : Bool := m.any fun e => e.2.bid == b && e.2.tier != 3

/-- A descriptor of a core holds a backing latched (R22). -/
def coreUses (c : Core) (b : Nat) : Bool :=
  c.queue.any (fun q => segsUse q.segs b) || c.issued.any (fun i => segsUse i.q.segs b) || c.prefetches != []

/-- A backing is held: a descriptor has it latched, or a move uses it (R22, R238). -/
def backHeld (s : State) (b : Nat) : Bool :=
  s.dists.any fun d => d.2.cores.any (fun c => coreUses c.2 b) || d.2.moves.any (fun m => m.src.bid == b || m.dst.bid == b)

/-- A backing released: it takes no capacity any more, and its bytes go once nothing holds it (R22, R226). -/
def release (s : State) (b : Nat) : State :=
  if backHeld s b then modBack s b fun x => { x with released := true } else { s with backs := tdel s.backs b }

/-- Released backings that nothing holds any more are gone. -/
def sweepBacks (s : State) : State := { s with backs := s.backs.filter fun e => !e.2.released || backHeld s e.1 }

/-! ## Segments (R224–R228, R240–R244) -/

/-- The volume of a flash segment. -/
def getVol (s : State) (v : Nat) : Vol := tget { owner := 0, extents := 0 } s.flash.vols v

/-- The state with a volume changed; without the volume, nothing is (R240). -/
def modVol (s : State) (v : Nat) (g : Vol → Vol) : State :=
  if thas s.flash.vols v then { s with flash := { s.flash with vols := tset s.flash.vols v (g (getVol s v)) } } else s

/-- The XTS tweak of a sector of an extent (R244). -/
def xtsTweak (v e k : Nat) : Nat := v * 2 ^ 32 + e * 16 + k

/-- What an extent of a volume is sealed under (R244): the volume's nonce, which with the PUF gives its key, and the tweak of its
first sector. -/
def sealOf (s : State) (v e : Nat) : Nat × Nat := ((getVol s v).nonce, xtsTweak v e 0)

/-- One extent of a volume: an unwritten one reads as zero (R240), and one sealed otherwise does not decrypt (R244): poison. -/
def getExtent (s : State) (v e : Nat) : Extent :=
  let x := tget {} (getVol s v).data e
  if x.xts.all (· == sealOf s v e) then x else { x with data := [], poison := List.range 1024 }

/-- Flash can be read: keys are available and the volume exists (R244). -/
def flashReadable (s : State) (v : Nat) : Bool := s.sec.keys && thas s.flash.vols v

/-- One byte of a segment at an offset. -/
def segByte (s : State) (e : Seg) (off : Nat) : Byte :=
  if e.tier = 3 then memGet (getExtent s e.volume (e.firstExt + off / 65536)).data (off % 65536)
  else memGet (getBack s e.bid).data off

/-- The bytes of a segment. -/
def segRead (s : State) (e : Seg) (off n : Nat) : Bytes :=
  if e.tier = 3 then (List.range n).map fun i => segByte s e (off + i)
  else memRead (getBack s e.bid).data off n

/-- Granule `g` of a segment is poisoned (R222); every granule of an unreadable flash segment is (R244). -/
def segPoisoned (s : State) (e : Seg) (g : Nat) : Bool :=
  if e.tier = 3 then
    !flashReadable s e.volume || (getExtent s e.volume (e.firstExt + g / 1024)).poison.contains (g % 1024)
  else (getBack s e.bid).poison.contains g

/-- The poisoned granules of a range of a segment. -/
def segPoison (s : State) (e : Seg) (off n : Nat) : List Nat := (granules off n).filter (segPoisoned s e)

/-- Bytes written to a near, board or shared-cache segment. -/
def segWrite (s : State) (e : Seg) (off : Nat) (d : Bytes) : State :=
  if e.tier = 3 ∨ d = [] then s else modBack s e.bid fun b => backWrite e.cached b off d

/-- Granules of a segment marked poisoned. -/
def segMark (s : State) (e : Seg) (gs : List Nat) : State :=
  if e.tier = 3 ∨ gs = [] then s else modBack s e.bid fun b => { b with poison := addPoison b.poison gs }

/-- Blocks that hold no data and are not retired (R243). -/
def freeBlocks (s : State) : List (Nat × FlBlock) :=
  s.flash.blocks.filter fun e => !e.2.retired && e.2.holds == [] && !s.flash.factory.contains e.1

/-- A block no write has used yet. -/
def newBlock (s : State) : Nat :=
  ((List.range (s.flash.blocks.length + s.flash.factory.length + 1)).find? fun b =>
    !thas s.flash.blocks b && !s.flash.factory.contains b).getD 0

/-- The free block with the lowest erase count (R243): a new one has none. -/
def lowestFree (s : State) : Nat :=
  match (freeBlocks s).find? fun e => (freeBlocks s).all fun o => e.2.erases ≤ o.2.erases with
  | some e => if e.2.erases = 0 then e.1 else newBlock s
  | none => newBlock s

/-- A block may take writes. -/
def blockGood (s : State) (b : Nat) : Bool := !(tget {} s.flash.blocks b).retired && !s.flash.factory.contains b

/-- The block that writes go to: the open one, else the free one with the lowest erase count (R243). -/
def writeBlock (s : State) : Nat := match s.flash.openBlk with
  | some b => if blockGood s b then b else lowestFree s
  | none => lowestFree s

/-- An extent's data lies in a block and in no other (R243). -/
def holdIn (s : State) (b v e : Nat) : State :=
  { s with flash := { s.flash with
    openBlk := some b
    blocks := tmod {} (tmap s.flash.blocks fun _ x => { x with holds := x.holds.erase (v, e) }) b fun x => { x with holds := x.holds ++ [(v, e)] } } }

/-- One extent written whole, encrypted under its volume's key (R241, R243, R244): its staging copy changes in the same action, which
changes only timing. Without the volume nothing is written (R240). -/
def extentWrite (s : State) (v e : Nat) (d : Bytes) (poison : List Nat) : State :=
  if thas s.flash.vols v then
    holdIn (modVol s v fun x => { x with data := tset x.data e { data := memOf d, poison := poison, xts := some (sealOf s v e) } }) (writeBlock s) v e
  else s

/-- Extents that a range of a flash segment touches. -/
def extentsIn (e : Seg) (off n : Nat) : List Nat := (unitsOf 65536 off n).map (· + e.firstExt)

/-- The extents of a flash range are in staging (R235); without keys or volume nothing is read (R244). -/
def staged (s : State) (e : Seg) (off n : Nat) : Bool :=
  e.tier != 3 || !flashReadable s e.volume || (extentsIn e off n).all fun x => s.flash.staging.contains (e.volume, x)

/-- The extents of a flash range that the engine has yet to read into staging (R235). -/
def needOf (s : State) (e : Seg) (off n : Nat) : List (Nat × Nat) :=
  if e.tier ≠ 3 ∨ !flashReadable s e.volume then []
  else ((extentsIn e off n).map fun x => (e.volume, x)).filter fun k => !s.flash.staging.contains k

/-- The segment number of a district's page pool; 256 without a pool. -/
def poolSeg (x : Dist) : Nat := match x.pool with
  | some p => p.seg
  | none => 256

/-- The valid segment of a district that holds a district address, flash and the page pool apart (R228, R351): its number and
entry. -/
def segAt (s : State) (d a : Nat) : Option (Nat × Seg) :=
  (getDist s d).segs.find? fun e => e.2.tier != 3 && e.1 != poolSeg (getDist s d) && e.2.dbase ≤ a && a < e.2.dbase + e.2.size

/-! ## Local SRAM (R82, R222, R232) -/

/-- Bytes written to a core's local SRAM: poison and skip marks follow. -/
def sramWrite (c : Core) (a : Nat) (d : Bytes) : Core :=
  if d = [] then c
  else
    { c with
      sram := memWrite c.sram a d
      poison := clearPoison c.poison a d.length
      skip := c.skip.filter fun u => !(unitsOf 256 a d.length).contains u
      live := (unitsOf 4096 a d.length).foldl nsAdd c.live }

/-- Granules of local SRAM marked poisoned. -/
def sramMark (c : Core) (gs : List Nat) : Core := { c with poison := addPoison c.poison gs }

/-- A range touches a skip-marked unit (R232). -/
def anySkip (c : Core) (a n : Nat) : Bool := (unitsOf 256 a n).any c.skip.contains

/-! ## Staging of the tier-move engine (R236) -/

/-- The extents that open dispatch instances pin in staging (R321). -/
def pinnedExts (s : State) : List (Nat × Nat) := s.groups.flatMap fun g => g.2.disp.slots.flatMap fun q => q.2.pins

/-- The `n` least recently used extents leave, but for pinned ones. -/
def evict (pins : List (Nat × Nat)) : Nat → List (Nat × Nat) → List (Nat × Nat)
  | 0, l => l
  | _, [] => []
  | n + 1, k :: l => if pins.contains k then k :: evict pins (n + 1) l else evict pins n l

/-- An extent enters staging as the most recently used; the least recently used of 4,096 leaves. -/
def stageIn (s : State) (v e : Nat) : State :=
  let l := s.flash.staging.filter (fun x => x != (v, e)) ++ [(v, e)]
  { s with flash := { s.flash with staging := evict (pinnedExts s) (l.length - 4096) l } }

/-- A read of a flash range from staging makes its extents the most recently used (R236). -/
def useStaged (s : State) (e : Seg) (off n : Nat) : State :=
  if e.tier = 3 then ((extentsIn e off n).filter fun x => s.flash.staging.contains (e.volume, x)).foldl (fun s x => stageIn s e.volume x) s else s

/-! ## Poison events (R222) -/

/-- The physical quarter whose slice serves a byte of a segment: its shared-cache granule's (R206), or the home slice of its line of
near or board memory, by the line's physical address (R207). -/
def sliceQuarter (s : State) (d : Nat) (e : Seg) (off : Nat) : Nat :=
  let x := getDist s d
  x.quarters.getD ((if e.tier = 4 then off else Config.physAddr e.bid (off / 128 * 128)) / 4096 % max 1 x.q) 0

/-- The stack or site a byte of a backing lies on, and its tier (R215, R220); shared-cache bytes lie in a slice. -/
def siteOf (b : Backing) (off : Nat) : Nat :=
  let n := max 1 b.units.length
  b.units.getD ((if b.tier = 1 then off / 512 else off / 4096) % n) 0

/-- The site a byte of a segment's backing lies at: its stack or LPDDR site, else the slice of the district's quarter
that holds it (R35, R206). -/
def memSite (s : State) (d : Nat) (b : Backing) (off : Nat) : Nat :=
  if b.tier = 1 || b.tier = 2 then siteOf b off
  else (getDist s d).quarters.getD (off / 4096 % max 1 (getDist s d).q) 0

/-- The source number of a memory event (R35): stack, LPDDR site, or the slice of the district's quarter (R206). -/
def memSource (s : State) (d : Nat) (b : Backing) (off : Nat) : Nat :=
  (if b.tier = 1 then 0x860 else if b.tier = 2 then 0x868 else 0x820) + memSite s d b off

/-- An uncorrectable error in granule `g` of a segment: the granule is poisoned and MEM_UE logged (R222). The physical
address is left open (log entry 14). -/
def memUe (s : State) (d : Nat) (e : Seg) (g : Nat) : State :=
  let b := getBack s e.bid
  emit (segMark s e [g]) (memSource s d b (g * 64)) 0x0C1 sevError d
    [e.tier, memSite s d b (g * 64), Config.physAddr e.bid (g * 64), d]

end Sys2Proof.Machine
end

