-- ==== Sys2Proof/Machine/HostPort.lean ====
section
/-! DEFINITION. The PCIe port as the host sees it: functions and Function Level Reset (R56, R66), mailbox slots
(R57–R61, R64), BAR0 registers (R465–R478), BAR2 (R58) and configuration space (R55). -/

namespace Sys2Proof.Machine

/-- The port is out of reset and the hub die has power (R427, R439, R450, R454). -/
def portUp (s : State) : Bool := !s.pins.perst && !s.pins.sysRst && s.indexOk && s.sec.boot != 4 && s.pwr.state != 3

/-- A host request reaches a function: the port is up, its link trained, and the function enabled (R56, R465). -/
def reaches (s : State) (f : Nat) : Bool := portUp s && s.pcie.linkUp && (f == 0 || f ≤ s.pcie.vfs)

/-- A host request to a function: without a link or an enabled function it does not arrive (R465). -/
def hostReq (f : Nat) (g : State → State) (s : State) : Answer := hostStep f (when (reaches s f) g) s

/-! ## Slots (R57, R59, R60) -/

/-- Owner codes (R60). -/
def ownEmpty : Nat := 0x00
def ownPosted : Nat := 0x5A
def ownTaken : Nat := 0xA5

/-- OWNER of a slot in a mailbox memory. -/
def slotOwner (m : Mem) (slot : Nat) : Nat := (memGet m (512 * slot)).toNat

/-- A slot's OWNER written. -/
def setOwner (m : Mem) (slot code : Nat) : Mem := memSet m (512 * slot) (BitVec.ofNat 8 code)

/-- A host write of this function discarded (R60): logged, and the flag set. -/
def violation (f slot off : Nat) (s : State) : State := setFlag (emit s 0x880 0x002 sevNotice f [f, slot, off]) f 4

/-- The host's write of OWNER is a transition of R60, or repeats the current value. -/
def ownerWriteOk (outbound : Bool) (cur new : Nat) : Bool :=
  cur == new || (!outbound && cur == ownEmpty && new == ownPosted) || (outbound && cur == ownPosted && new == ownEmpty)

/-- Whether a host write of `n` bytes at offset `off` of a slot is accepted (R60, R61): an outbound slot takes OWNER
alone, a TAKEN inbound slot nothing but a repeat of OWNER, and OWNER moves only as R60 lists. -/
def slotWriteOk (outbound : Bool) (cur off : Nat) (d : Bytes) : Bool :=
  let other := off != 0 || 1 < d.length
  let ownOk := off != 0 || ownerWriteOk outbound cur (d.headD 0).toNat
  d == [] || (ownOk && !(other && (outbound || cur == ownTaken)))

/-- A host write to a mailbox slot: every byte of one request at once, or none (R60, R61, R465). -/
def slotWrite (f : Nat) (outbound : Bool) (slot off : Nat) (d : Bytes) (s : State) : State :=
  let m := if outbound then (getFn s f).outbox else (getFn s f).inbox
  if slot < 32 ∧ off + d.length ≤ 512 ∧ slotWriteOk outbound (slotOwner m slot) off d then
    modFn s f fun x =>
      if outbound then { x with outbox := memWrite x.outbox (512 * slot + off) d, latch := none }
      else { x with inbox := memWrite x.inbox (512 * slot + off) d, latch := none }
  else violation f slot off (modFn s f fun x => { x with latch := none })

/-- Meaning of MAILBOX_SLOT_WRITE (R60, R61, R465). -/
def execMailboxSlotWrite (f : Nat) (outbound : Bool) (slot off : Nat) (d : Bytes) (s : State) : Answer :=
  hostReq f (slotWrite f outbound slot off d) s

/-- Meaning of INBOUND_OWNER_POST (R61): OWNER = 0x5A, with the header bytes 1, 2, … that the same write carries. -/
def execInboundOwnerPost (f slot : Nat) (rest : Bytes) (s : State) : Answer :=
  hostReq f (slotWrite f false slot 0 (BitVec.ofNat 8 ownPosted :: rest)) s

/-- Meaning of OUTBOUND_SLOT_RETURN (R60): OWNER = 0x00. -/
def execOutboundSlotReturn (f slot : Nat) (s : State) : Answer :=
  hostReq f (slotWrite f true slot 0 [BitVec.ofNat 8 ownEmpty]) s

/-! ## Replies (R59, R64) -/

/-- An outbound slot's 512 bytes for a reply, OWNER POSTED (R59). -/
def replyBytes (r : Reply) (doneAt : BitVec 64) : Bytes :=
  pack 32 [(8, ownPosted), (8, b2n r.final), (16, r.req.seq.toNat), (16, r.cmd), (16, r.payload.length),
    (8, r.req.district.toNat), (8, r.status), (16, r.state), (32, r.req.tag.toNat), (64, r.req.takenAt.toNat), (64, doneAt.toNat)] ++ slice r.payload 0 480

/-- The inbound slot of a request freed, when firmware holds it (R64). -/
def freeInbound (x : Fn) (r : Reply) : Fn :=
  if r.first ∧ slotOwner x.inbox r.req.slot = ownTaken then { x with inbox := setOwner x.inbox r.req.slot ownEmpty } else x

/-- The oldest reply of a function written into slot NEXT_OUT, if that slot is EMPTY (R64): REPLY is set, the inbound slot
freed, vector 0 raised unless QUIET, and a new BAR2 window base applies (R70). -/
def postReply (f : Nat) (s : State) : State :=
  let x := getFn s f
  match x.replies with
  | [] => s
  | r :: l =>
    when (served s && slotOwner x.outbox x.nextOut == ownEmpty && !x.flr) (fun s =>
      let s := modFn s f fun x =>
        let x := { x with
          outbox := memWrite (memClear x.outbox (512 * x.nextOut) 512) (512 * x.nextOut) (replyBytes r s.now)
          nextOut := (x.nextOut + 1) % 32
          replies := l
          winBase := r.window.getD x.winBase }
        freeInbound x r
      let s := setFlag s f 0
      if r.req.quiet then s else raiseVec s f 0) s

/-- Meaning of REPLY_POST (R64). -/
def execReplyPost (f : Nat) (s : State) : Answer := hostStep f (postReply f) s

/-! ## Function Level Reset (R66, R453) -/

/-- What a reset of a function resets: slots, expected SEQ, waiting commands, ring, flags, window base, bindings,
MSI-X; replies of commands under way are discarded (R66, R468). -/
def resetFn (f : Nat) (s : State) : State :=
  modFn { s with held := dropDest f s.held } f fun x =>
    { ({} : Fn) with epoch := x.epoch + 1, bar2Log := x.bar2Log, flr := x.flr }

/-- Meaning of FUNCTION_LEVEL_RESET (R66). -/
def execFunctionLevelReset (f : Nat) (s : State) : Answer :=
  hostReq f (fun s => modFn (resetFn f s) f fun x => { x with flr := true }) s

/-- Meaning of FLR_DONE (R66, R480): the event is device-wide. -/
def execFlrDone (f : Nat) (s : State) : Answer :=
  hostStep f (when (getFn s f).flr fun s =>
    emit (modFn s f fun x => { x with flr := false }) 0x880 0x007 sevInfo 0xFF [f]) s

/-! ## BAR2 (R58, R222, R228) -/

/-- What each byte of a BAR2 access falls on: district address, then segment, entry and offset when it lies on one. -/
def bar2Map (s : State) (f off n : Nat) : List (Nat × Option (Nat × Seg)) :=
  let base := (getFn s f).winBase.toNat + off
  (List.range n).map fun i => (base + i, segAt s f (base + i))

/-- One BAR2_UNBACKED for an access, with the lowest of the addresses it carries (R58). -/
def unbacked (s : State) (f : Nat) (bad : List Nat) : State :=
  match bad with
  | [] => s
  | a :: _ => emit s 0x880 0x003 sevNotice f [f, a]

/-- A BAR2 access lies in the window, which has the size of BAR2. -/
def inBar2 (s : State) (f off n : Nat) : Bool := off + n ≤ 2 ^ (getFn s f).bar2Log

/-- A BAR2 read (R58): bytes off every segment and bytes of a poisoned granule read 0xFF; the latter set EP
and are reported through AER. -/
def bar2Read (f off n : Nat) (s : State) : State :=
  let m := bar2Map s f off n
  let pois := fun (e : Nat × Option (Nat × Seg)) => match e.2 with
    | some x => segPoisoned s x.2 ((e.1 - x.2.dbase) / 64)
    | none => false
  let d := m.map fun e => match e.2 with
    | some x => if pois e then 0xFF else segByte s x.2 (e.1 - x.2.dbase)
    | none => 0xFF
  let s := unbacked s f ((m.filter fun e => e.2.isNone).map (·.1))
  let s := send s (.readData f d (m.any pois))
  if m.any pois then send s (.aer f) else s

/-- The bytes of a BAR2 write that one segment takes, as one write at the offset of the first. -/
def bar2WriteSeg (a : Nat) (d : Bytes) (s : State) (e : Seg) : State :=
  let lo := max a e.dbase
  let hi := min (a + d.length) (e.dbase + e.size)
  segWrite s e (lo - e.dbase) ((d.drop (lo - a)).take (hi - lo))

/-- A BAR2 write (R58, R228): what lies on a writable segment is written; the rest is discarded and logged once. -/
def bar2Write (f off : Nat) (d : Bytes) (s : State) : State :=
  let m := bar2Map s f off d.length
  let bad := (m.filter fun e => match e.2 with
    | some x => x.2.ro
    | none => true).map (·.1)
  let a := (getFn s f).winBase.toNat + off
  let es := (getDist s f).segs.filter fun e => e.2.tier != 3 && e.1 != poolSeg (getDist s f) && !e.2.ro && a < e.2.dbase + e.2.size && e.2.dbase < a + d.length
  unbacked (es.foldl (fun s e => bar2WriteSeg a d s e.2) s) f bad

/-- Meaning of BAR2_READ (R58). -/
def execBar2Read (f off n : Nat) (s : State) : Answer :=
  hostReq f (fun s => when (inBar2 s f off n) (bar2Read f off n) s) s

/-- Meaning of BAR2_WRITE (R58). -/
def execBar2Write (f off : Nat) (d : Bytes) (s : State) : Answer :=
  hostReq f (fun s => when (inBar2 s f off d.length) (bar2Write f off d) s) s

/-! ## BAR0 registers (R465–R478) -/

/-- GLOBAL_STATUS (R469). -/
def globalStatus (s : State) (f : Nat) : Nat :=
  let p := fun v => if f = 0 then v else 0
  packNat [(3, s.sec.boot), (1, 0), (2, s.pwr.state), (2, p s.sec.lifecycle), (2, p (dbgLevel s)), (1, p (b2n s.sec.keys)),
    (1, b2n (getFn s f).ring.enabled), (4, 0), (8, (getDist s f).state), (5, f)]

/-- PCIE_LINK (R472). -/
def pcieLink (s : State) : Nat :=
  let p := s.pcie
  packNat [(4, p.speed), (5, p.width), (1, b2n p.flit), (1, b2n p.l0p), (5, p.l0pWidth), (16, p.downCount.toNat)]

/-- MBOX_STATUS (R473). -/
def mboxStatus (s : State) (f : Nat) : Nat :=
  let x := getFn s f
  packNat [(16, x.expSeq.toNat), (5, x.nextOut), (1, b2n (x.replies != [] && slotOwner x.outbox x.nextOut != ownEmpty)),
    (1, b2n (romServes s))]

/-- A quarter's QCYCLES (R477, R478): whole cycles of its clock. -/
def qcycles (s : State) (q : Nat) : Nat := tget 0 s.cyc q / 1000

/-- The matrix work counters of a quarter in the order of R152. -/
def workList (s : State) (q : Nat) : List Nat :=
  let w := tget {} s.work q
  [qcycles s q, w.busy, w.exec, w.sparse, w.zskip, w.mskip]

/-- Every BAR0 register outside the mailbox regions as bytes from an 8-byte boundary (R468); what is not listed reads
zero (R57, R468), and so does a unit window in RETAIN (R478). -/
def reg64 (s : State) (f off : Nat) : BitVec 64 :=
  let r := (getFn s f).ring
  if off = 0x00 then BitVec.ofNat 64 (0x3000 + 0x0101 * 2 ^ 32)
  else if off = 0x08 then BitVec.ofNat 64 (globalStatus s f)
  else if off = 0x10 then s.now
  else if off = 0x18 then hostFlags (getFn s f)
  else if off = 0x20 then BitVec.ofNat 64 (pcieLink s + mboxStatus s f * 2 ^ 32)
  else if off = 0x1000 then r.produce
  else if off = 0x1008 then r.lost
  else if off = 0x1010 then r.cons
  else if off = 0x1018 then BitVec.ofNat 64 (evtCtrl r f)
  else if 0x2000 ≤ off ∧ off < 0x4000 then BitVec.ofNat 64 (leNat (indexBytes s (off - 0x2000) 8))
  else if f = 0 ∧ 0x20000 ≤ off ∧ off < 0x28000 ∧ off % 0x400 < 0x30 ∧ s.pwr.state ≠ 2 then
    BitVec.ofNat 64 ((workList s ((off - 0x20000) / 0x400)).getD (off % 0x400 / 8) 0)
  else 0

/-- The offsets of the 64-bit registers (R468, R477). -/
def isReg64 (f off : Nat) : Bool :=
  [0x10, 0x18, 0x1000, 0x1008, 0x1010].contains off
    || (f == 0 && 0x20000 ≤ off && off < 0x28000 && off % 0x400 < 0x30 && off % 8 == 0)

/-- The low or high half of a 64-bit value. -/
def half (v : BitVec 64) (hi : Bool) : BitVec 32 := if hi then v.extractLsb' 32 32 else v.extractLsb' 0 32

/-- The reader's snapshots of the flags whose count fields a read returned (R471). -/
def snapFlags (x : Fn) (l : List Nat) (v : BitVec 64) : Fn :=
  { x with flags := l.foldl (fun m i => tmod {} m i fun g => { g with snap := some (v.toNat / 2 ^ (16 + 8 * i) % 256) }) x.flags }

/-- The high word that a 4-byte read at `off` returns (R466): the latched one after a low-word read of the same register. -/
def highWord (s : State) (f off : Nat) : BitVec 32 :=
  match (getFn s f).latch with
  | some (o, h) => if o + 4 = off then h else half (reg64 s f (off - 4)) true
  | none => half (reg64 s f (off - 4)) true

/-- The bits of byte `i` of an inbound slot that a host read returns (R8, R59): those of a reserved field read 0. -/
def slotMask (i : Nat) : Byte := if i = 1 then 0x01 else if (9 ≤ i ∧ i < 12) ∨ (16 ≤ i ∧ i < 32) then 0x00 else 0xFF

/-- A byte of an inbound slot as the host reads it; firmware still finds a reserved bit that was written (R9, log entry 131). -/
def inboxByte (m : Mem) (a : Nat) : Byte := memGet m a &&& slotMask (a % 512)

/-- Bytes of the mailbox regions (R465): an access that one slot does not contain reads zero. -/
def slotWord (s : State) (f off n : Nat) : Bytes :=
  if off % 512 + n ≤ 512 then
    if off < 0x14000 then (List.range n).map fun i => inboxByte (getFn s f).inbox (off - 0x10000 + i)
    else memRead (getFn s f).outbox (off - 0x14000) n
  else zeros n

/-- A 4-byte BAR0 read that latches nothing (R465–R467): mailbox bytes, a high word, or a 32-bit register. -/
def wordBytes (s : State) (f off : Nat) : Bytes :=
  if 0x10000 ≤ off ∧ off < 0x18000 then slotWord s f off 4
  else if off % 4 ≠ 0 then zeros 4
  else leBytes 4 (if off % 8 = 4 then highWord s f off else half (reg64 s f off) false).toNat

/-- An 8-byte BAR0 read (R39, R152, R465, R466): mailbox bytes, or 8 aligned bytes of the registers, the index window or a unit
window at once. -/
def wholeBytes (s : State) (f off : Nat) : Bytes :=
  if 0x10000 ≤ off ∧ off < 0x18000 then slotWord s f off 8
  else if off % 8 ≠ 0 then zeros 8
  else leBytes 8 (reg64 s f off).toNat

/-- Meaning of REG_LOW_WORD_READ (R39, R152, R466): a 4-byte read of the low word of a 64-bit register latches the whole value for the
function; any other BAR0 access ends an earlier latch, a read of the high word and one of 8 bytes among them. -/
def execRegLowWordRead (f off : Nat) (whole : Bool) (s : State) : Answer :=
  hostReq f (fun s =>
    if whole then
      let d := wholeBytes s f off
      let s := modFn s f fun x =>
        let x := { x with latch := none }
        if off = 0x18 then snapFlags x [0, 1, 2, 3, 4, 5] (BitVec.ofNat 64 (leNat d)) else x
      send s (.readData f d false)
    else if isReg64 f off then
      let v := reg64 s f off
      let s := modFn s f fun x =>
        let x := { x with latch := some (off, half v true) }
        if off = 0x18 then snapFlags x [0, 1] v else x
      send s (.readData f (leBytes 4 (half v false).toNat) false)
    else
      let d := wordBytes s f off
      let s := modFn s f fun x =>
        let x := { x with latch := none }
        if off = 0x1C then snapFlags x [2, 3, 4, 5] (BitVec.ofNat 64 (leNat d * 2 ^ 32)) else x
      send s (.readData f d false)) s

/-- Meaning of HOST_FLAGS_READ (R466, R471): the count fields that the read returns are the reader's snapshots; the high
word may come from the latch. -/
def execHostFlagsRead (f : Nat) (part : RegPart) (s : State) : Answer :=
  hostReq f (fun s =>
    let x := getFn s f
    let v := hostFlags x
    match part with
    | .whole =>
      send (modFn s f fun x => snapFlags { x with latch := none } [0, 1, 2, 3, 4, 5] v) (.readData f (leBytes 8 v.toNat) false)
    | .low =>
      send (modFn s f fun x => snapFlags { x with latch := some (0x18, half v true) } [0, 1] v)
        (.readData f (leBytes 4 (half v false).toNat) false)
    | .high =>
      let hi := highWord s f 0x1C
      send (modFn s f fun x => snapFlags { x with latch := none } [2, 3, 4, 5] (BitVec.ofNat 64 (hi.toNat * 2 ^ 32)))
        (.readData f (leBytes 4 hi.toNat) false)) s

/-- HOST_FLAGS written (R471): each 1 in bits 0–5 clears what its writer's snapshot saw. PCIE_RETURN is PF0 only. -/
def flagsWrite (f : Nat) (v : BitVec 64) (s : State) : State :=
  modFn s f fun x => { x with
    flags := ((List.range 6).filter fun i => v.toNat.testBit i).foldl (fun m i => tmod {} m i flagClear) x.flags
    latch := none }

/-- Meaning of HOST_FLAGS_CLEAR (R471). -/
def execHostFlagsClear (f : Nat) (v : BitVec 64) (s : State) : Answer := hostReq f (flagsWrite f v) s

/-- A BAR0 write of any kind (R465, R467): mailbox regions take slot writes; outside them aligned writes of 4 or 8 bytes
reach a register, of which HOST_FLAGS alone takes one; all else is discarded. -/
def bar0Write (f off : Nat) (d : Bytes) (s : State) : State :=
  if 0x10000 ≤ off ∧ off < 0x14000 then slotWrite f false ((off - 0x10000) / 512) (off % 512) d s
  else if 0x14000 ≤ off ∧ off < 0x18000 then slotWrite f true ((off - 0x14000) / 512) (off % 512) d s
  else if off = 0x18 ∧ (d.length = 4 ∨ d.length = 8) then flagsWrite f (BitVec.ofNat 64 (leNat d)) s
  else modFn s f fun x => { x with latch := none }

/-- Meaning of BAR0_PLAIN_WRITE (R465). -/
def execBar0PlainWrite (f off : Nat) (d : Bytes) (s : State) : Answer := hostReq f (bar0Write f off d) s

/-! ## Configuration space (R54–R56, R76) -/

/-- What the PCIe port of one function supports and advertises (R54). -/
structure PcieCaps where
  /-- Trained-rate codes and widths it can train to, FLIT mode, the narrowest L0p width. -/
  speeds : List Nat := [1, 2, 3, 4, 5, 6]
  widths : List Nat := [1, 2, 4, 8, 16]
  flit : Bool := true
  l0pFrom : Nat := 2
  /-- ASPM: L1, not its substates nor L0s. -/
  aspmL1 : Bool := true
  l1Substates : Bool := false
  aspmL0s : Bool := false
  maxPayload : Nat := 512
  maxReadReq : Nat := 4096
  tagBits : List Nat := [10, 14]
  /-- SR-IOV with ARI: the number of virtual functions, on PF0. -/
  vfs : Nat := 31
  ari : Bool := true
  msixVectors : Nat := 64
  msi : Bool := false
  intx : Bool := false
  aer : Bool := true
  flrCap : Bool := true
  doe : Bool := true
  ide : Bool := false
  tdisp : Bool := false
  ats : Bool := false
  pri : Bool := false
  pasid : Bool := false
  atomicOps : Bool := false
  ptm : Bool := false
  /-- log2 of the smallest and the largest size that the resizable BAR2 takes. -/
  bar2Logs : Nat × Nat := (28, 36)
  /-- Peer-to-peer: completer only, to BAR2. -/
  p2pCompleter : Bool := true
  /-- Relaxed Ordering and ID-Based Ordering: accepted on received requests, never set on issued ones. -/
  roIdoAccepted : Bool := true
  roIdoSet : Bool := false
  deriving DecidableEq, Repr

/-- The capabilities of a function (R54): SR-IOV and DOE on PF0 only. -/
def pcieCaps (f : Nat) : PcieCaps := if f = 0 then {} else { vfs := 0, doe := false }

/-- What a configuration read shows, as numbers in a fixed order: the capabilities of R54, then what the configuration
writes and the training left. The PCIe base specification lays them out (log entry 13). -/
def capabilities (s : State) (f : Nat) : List Nat :=
  let c := pcieCaps f
  let x := getFn s f
  let p := s.pcie
  c.speeds ++ c.widths ++ c.tagBits
    ++ [b2n c.flit, c.l0pFrom, b2n c.aspmL1, b2n c.l1Substates, b2n c.aspmL0s, c.maxPayload, c.maxReadReq, c.vfs, b2n c.ari,
      c.msixVectors, b2n c.msi, b2n c.intx, b2n c.aer, b2n c.flrCap, b2n c.doe, b2n c.ide, b2n c.tdisp, b2n c.ats, b2n c.pri,
      b2n c.pasid, b2n c.atomicOps, b2n c.ptm, c.bar2Logs.1, c.bar2Logs.2, b2n c.p2pCompleter, b2n c.roIdoAccepted,
      b2n c.roIdoSet]
    ++ [p.speed, p.width, b2n p.flit, b2n p.l0p, p.l0pWidth, if f = 0 then p.vfs else 0, x.bar2Log, b2n x.msixEnable,
      b2n x.msixFnMask, maskOf x.msixMasked, maskOf x.msixPending]

/-- Meaning of CONFIG_READ (R54, R55): answered while the port is out of reset, also during a Function Level Reset. -/
def execConfigRead (f off : Nat) (s : State) : Answer :=
  hostReq f (fun s =>
    let s1 := { s with freeCtr := s.freeCtr + 1 }
    send s1 (.cfgData f off (Config.configSpace (capabilities s f) f off s.freeCtr))) s

/-- The messages a vector's unmasking releases (R76). -/
def releasePending (f : Nat) (s : State) : State :=
  let x := getFn s f
  let go := x.msixPending.filter fun v => x.msixEnable && !x.msixFnMask && !x.msixMasked.contains v
  go.foldl (fun s v => send s (.msix f v)) (modFn s f fun x => { x with msixPending := x.msixPending.filter fun v => !go.contains v })

/-- What a configuration write changes: VF Enable on PF0 (not in recovery, R80), the BAR2 size, MSI-X control and masks. -/
def configWrite (f : Nat) (w : CfgWrite) (s : State) : State :=
  match w with
  | .vfEnable n => if f = 0 ∧ n ≤ 31 ∧ !romServes s then { s with pcie := { s.pcie with vfs := n } } else s
  | .bar2Log l => if 28 ≤ l ∧ l ≤ 36 then modFn s f fun x => { x with bar2Log := l } else s
  | .msixEnable on mask => releasePending f (modFn s f fun x => { x with msixEnable := on, msixFnMask := mask })
  | .msixMask v m =>
    if v < 64 then
      releasePending f (modFn s f fun x => { x with msixMasked := if m then nsAdd x.msixMasked v else nsDel x.msixMasked v })
    else s
  | .other _ _ => s

/-- Meaning of CONFIG_WRITE (R54, R56, R76). -/
def execConfigWrite (f : Nat) (w : CfgWrite) (s : State) : Answer := hostReq f (configWrite f w) s

end Sys2Proof.Machine
end

