-- ==== Sys2Proof/Machine/DevCmd.lean ====
section
/-! DEFINITION. The DEV_ group (R70–R72) and the bundle staging that DEV_REC_ and SEC_UPDATE_ share (R80, R426, R427, R444). -/

namespace Sys2Proof.Machine

/-- DEV_NOP (R70). -/
def specDevNop : Spec := { cmd := 0x0100, wide := true, scanOk := true, romOk := true }

/-- Meaning of DEV_NOP (R70): the reply carries the time-base at execution. -/
def execDevNop (c : FwReq) (s : State) : Answer :=
  fwStep specDevNop c (headChecks specDevNop (c.payload == []) true c)
    (fun s => replyOk s c 0x0100 (leBytes 8 s.now.toNat)) s

/-- DEV_INDEX (R39, R70). -/
def specDevIndex : Spec := { cmd := 0x0101, wide := true, scanOk := true, romOk := true }

/-- Meaning of DEV_INDEX (R39, R70). -/
def execDevIndex (c : FwReq) (s : State) : Answer :=
  let p := c.payload
  let off := fld p 31 0
  let n := fld p 47 32
  fwStep specDevIndex c
    (fun s => headChecks specDevIndex (p.length == 8 && zeroAt p [(63, 48)]) true c s
      ++ [(off % 8 != 0 || n % 8 != 0 || n == 0 || 448 < n || indexLen s < off + n, badArgument)])
    (fun s => replyOk s c 0x0101 (slice p 0 8 ++ indexBytes s off n)) s

/-- DEV_RING_SET (R70). -/
def specDevRingSet : Spec := { cmd := 0x0102, wide := true, scanOk := true }

/-- The argument checks of DEV_RING_SET (R70). -/
def ringArgsOk (p : Bytes) : Bool :=
  let l := fld p 135 128
  let v := fld p 143 136
  let w := fld p 191 160
  fld p 63 0 % 4096 == 0 && fld p 127 64 % 8 == 0 && 8 ≤ l && l ≤ 20 && (v == 1 || (3 ≤ v && v ≤ 63))
    && fld p 159 144 ≤ 1000 && 1 ≤ w && w ≤ 2 ^ l

/-- The ring as DEV_RING_SET leaves it (R70, R474): counts P and C restart, EVT_LOST accumulates. -/
def ringOf (p : Bytes) (old : Ring) : Ring :=
  { enabled := true, base := BitVec.ofNat 64 (fld p 63 0), consAddr := BitVec.ofNat 64 (fld p 127 64)
    log2n := fld p 135 128, vector := fld p 143 136, modUs := fld p 159 144, watermark := fld p 191 160
    mirror := bit p 192, lost := old.lost }

/-- Meaning of DEV_RING_SET (R70–R72). On PF0 the records that wait for a ring are released (R75, R218). -/
def execDevRingSet (c : FwReq) (s : State) : Answer :=
  let p := c.payload
  fwStep specDevRingSet c
    (fun s => headChecks specDevRingSet (p.length == 32 && zeroAt p [(255, 193)]) true c s
      ++ [(c.fn != 0 && bit p 192, denied), (!ringArgsOk p, badArgument), ((getFn s c.fn).ring.enabled, conflict 2 1)])
    (fun s =>
      let s := modFn s c.fn fun x => { x with ring := ringOf p x.ring }
      replyOk (if c.fn = 0 then releaseDeferred s else s) c 0x0102 []) s

/-- DEV_RING_OFF (R70). -/
def specDevRingOff : Spec := { cmd := 0x0103, wide := true, scanOk := true }

/-- Meaning of DEV_RING_OFF (R70, R72): the held records are written first, then the ring is disabled. -/
def execDevRingOff (c : FwReq) (s : State) : Answer :=
  fwStep specDevRingOff c
    (fun s => headChecks specDevRingOff (c.payload == []) true c s ++ [(!(getFn s c.fn).ring.enabled, conflict 2 0)])
    (fun s =>
      let s := ringDisable (flushHeld c.fn s.held s) c.fn
      let r := (getFn s c.fn).ring
      replyOk s c 0x0103 (leBytes 8 r.produce.toNat ++ leBytes 8 r.lost.toNat)) s

/-- DEV_WINDOW (R70). -/
def specDevWindow : Spec := { cmd := 0x0104, wide := true, scanOk := true }

/-- Meaning of DEV_WINDOW (R58, R70): the new base applies once the reply is posted. -/
def execDevWindow (c : FwReq) (s : State) : Answer :=
  let p := c.payload
  let b := fld p 63 0
  fwStep specDevWindow c
    (fun s => headChecks specDevWindow (p.length == 8) true c s
      ++ [(b % 2 ^ (getFn s c.fn).bar2Log != 0 || 2 ^ 48 < b + 2 ^ (getFn s c.fn).bar2Log, badArgument)])
    (fun s => queueReply s (getFn s c.fn).epoch { req := c, cmd := 0x0104, window := some (BitVec.ofNat 64 b) }) s

/-! ## Bundle staging and checks (R80, R426, R427, R444) -/

/-- The largest bundle: 32 MiB. -/
def bundleMax : Nat := 33554432

/-- The end of the bytes written without a gap from `pos`; `fuel` bounds the ranges followed. -/
def coveredTo (rs : List (Nat × Nat)) : Nat → Nat → Nat
  | 0, pos => pos
  | fuel + 1, pos =>
    match rs.find? fun r => r.1 ≤ pos && pos < r.1 + r.2 with
    | some r => coveredTo rs fuel (r.1 + r.2)
    | none => pos

/-- Every byte of the announced length is written. -/
def fullyWritten (g : Staging) : Bool := g.len ≤ coveredTo g.ranges g.ranges.length 0

/-- Data written into a bundle under assembly. -/
def stageData (g : Staging) (off : Nat) (d : Bytes) : Staging :=
  { g with data := memWrite g.data off d, ranges := (off, d.length) :: g.ranges }

/-- The payload form of a data command: 8 bytes, then up to 448. -/
def dataFormOk (p : Bytes) : Bool := 8 ≤ p.length && p.length ≤ 456 && zeroAt p [(63, 32)]

/-- The argument and state checks of a data command. -/
def dataChecks (p : Bytes) (g : Option Staging) : List (Bool × Err) :=
  let off := fld p 31 0
  [(off % 8 != 0, badArgument),
   (match g with
    | some g => g.len < off + (p.length - 8)
    | none => false, badArgument),
   (g.isNone, conflict 8 0)]

/-- The checks of an END command before the bundle's own. -/
def endChecks (g : Option Staging) : List (Bool × Err) :=
  [(match g with
    | some g => !fullyWritten g
    | none => false, badArgument),
   (g.isNone, conflict 8 0)]

/-- LENGTH of the bundle in a memory (R426). -/
def bundleLen (m : Mem) : Nat := leNat (memRead m 8 4)

/-- SVN × 2^32 + RELEASE of a bundle (R427). -/
def bundleRank (m : Mem) : Nat := leNat (memRead m 12 4) * 2 ^ 32 + leNat (memRead m 16 4)

/-- The header is well formed (R426, R427). -/
def bundleHeaderOk (m : Mem) : Bool :=
  let h := memRead m 0 256
  let n := bundleLen m
  fld h 31 0 == 0x42584F56 && fld h 39 32 == 1 && zeroAt h [(63, 43), (2047, 160)] && n % 8 == 0 && n ≤ bundleMax
    && 392 + 272 ≤ n

/-- The six checks of R427 on a bundle, in order: the number of the first that fails. -/
def bundleFail (sec : Sec) (m : Mem) : Option Nat :=
  let n := bundleLen m
  let k := fld (memRead m 0 8) 41 40
  let key := memRead m 256 136
  let ownerOk := match sec.owner with
    | some o =>
      !o.require || (fld (memRead m 0 8) 42 42 == 1
        && Config.ecdsaOk o.key (Config.sha512 (memRead m 0 (n - 136))) (memRead m (n - 136) 136))
    | none => true
  ([(1, bundleHeaderOk m), (2, sec.counters.getD 1 0 ≤ k), (3, Config.sha512 key == Config.vendorKeyDigest k),
    (4, sec.counters.getD 0 0 ≤ leNat (memRead m 12 4)),
    (5, Config.ecdsaOk key (Config.sha512 (memRead m 0 (n - 272))) (memRead m (n - 272) 136)), (6, ownerOk)].find? fun c => !c.2).map (·.1)

/-- DEV_REC_BEGIN (R80). -/
def specDevRecBegin : Spec := { cmd := 0x01F0, wide := true, romOk := true }
/-- DEV_REC_DATA (R80). -/
def specDevRecData : Spec := { cmd := 0x01F1, wide := true, romOk := true }
/-- DEV_REC_END (R80). -/
def specDevRecEnd : Spec := { cmd := 0x01F2, wide := true, romOk := true }

/-- The first checks of a recovery command (R49, R80): its format, then its code, which only the ROM knows. -/
def recoveryOnly (fmtOk : Bool) (c : FwReq) (s : State) : List (Bool × Err) :=
  [(!fmtOk || 480 < c.payload.length, badFormat), (!romServes s, unknownCommand)]

/-- Meaning of DEV_REC_BEGIN (R80): only the ROM knows it. -/
def execDevRecBegin (c : FwReq) (s : State) : Answer :=
  let p := c.payload
  fwStep specDevRecBegin c
    (fun s => recoveryOnly (p.length == 8 && zeroAt p [(63, 33)]) c s ++ headChecks specDevRecBegin true true c s
      ++ [(decide (bundleMax < fld p 31 0), badArgument)])
    (fun s => replyOk { s with sec := { s.sec with recovery := some { len := fld p 31 0, writeFlash := bit p 32 }, recStart := false } }
      c 0x01F0 []) s

/-- Meaning of DEV_REC_DATA (R80). -/
def execDevRecData (c : FwReq) (s : State) : Answer :=
  let p := c.payload
  fwStep specDevRecData c
    (fun s => recoveryOnly (dataFormOk p) c s ++ headChecks specDevRecData true true c s ++ dataChecks p s.sec.recovery)
    (fun s => replyOk { s with sec := { s.sec with
      recovery := s.sec.recovery.map fun g => stageData g (fld p 31 0) (p.drop 8) } } c 0x01F1 []) s

/-- Meaning of DEV_REC_END (R80): the checks of R427; then the start is due (R81). A bundle whose own LENGTH differs from the announced
LEN is DENIED too (DESIGN CHOICE, log entry 169). -/
def execDevRecEnd (c : FwReq) (s : State) : Answer :=
  fwStep specDevRecEnd c
    (fun s => recoveryOnly (c.payload == []) c s ++ headChecks specDevRecEnd true true c s ++ endChecks s.sec.recovery
      ++ [(match s.sec.recovery with
           | some g => (bundleFail s.sec g.data).isSome || bundleLen g.data != g.len
           | none => false, denied)])
    (fun s => replyOk { s with sec := { s.sec with recStart := true } } c 0x01F2 []) s

/-- The slots in the order R427 tries them: higher rank first, slot A on a tie. -/
def slotOrder (nvm : Nvm) : List Nat := if bundleRank nvm.slotA < bundleRank nvm.slotB then [1, 0] else [0, 1]

/-- The bundle of a boot slot. -/
def slotMem (nvm : Nvm) (i : Nat) : Mem := if i = 0 then nvm.slotA else nvm.slotB

/-- The state with a boot slot written. -/
def writeSlot (s : State) (i : Nat) (m : Mem) : State :=
  { s with nvm := if i = 0 then { s.nvm with slotA := m } else { s.nvm with slotB := m } }

/-- The slot that WRITE_FLASH writes (R427): the one that holds no running candidate, or A when both are invalid. -/
def recoverySlot (s : State) : Nat :=
  match (slotOrder s.nvm).find? fun i => (bundleFail s.sec (slotMem s.nvm i)).isNone with
  | some 0 => 1
  | _ => 0

/-- The running bundle's record from its bytes. -/
def runningOf (slot : Nat) (m : Mem) : Running :=
  { slot := slot, svn := leNat (memRead m 12 4), release := leNat (memRead m 16 4), keyIndex := fld (memRead m 0 8) 41 40
    length := bundleLen m, image := m }

/-- Meaning of RECOVERY_START (R81): the bundle is first written to the boot flash, if asked; Voxub then starts from the
loaded copy and logs RECOVERY_BOOTED. Expected SEQ values carry over. -/
def execRecoveryStart (s : State) : Answer :=
  .next (when (romServes s && s.sec.recStart && (getFn s 0).replies == []) (fun s =>
    match s.sec.recovery with
    | none => s
    | some g =>
      let slot := recoverySlot s
      let s := if g.writeFlash then writeSlot s slot g.data else s
      emit { s with sec := { s.sec with boot := 3, recStart := false, recovery := none, running := some (runningOf slot g.data) } }
        0x881 0x009 sevNotice 0xFF []) s)

end Sys2Proof.Machine
end

