-- ==== Sys2Proof/Machine/Store.lean ====
section
/-! DEFINITION. The two-bank store (R421–R424, R428, R429, R435): copies, the winner of a type, queued writes, and the
payloads of the records that the security processor reads. -/

namespace Sys2Proof.Machine

/-- Record types (R421). -/
def stIdentity : Nat := 1
def stBoard : Nat := 2
def stLinks : Nat := 3
def stCounters : Nat := 5
def stOwner : Nat := 6
def stSettings : Nat := 7
def stHistory : Nat := 8
def stCalibration : Nat := 9

/-- The slot size of a type (R421); 0 for a type that is reserved. -/
def slotSize (typ : Nat) : Nat :=
  match typ with
  | 1 => 65536
  | 2 => 16384
  | 3 => 32768
  | 5 => 4096
  | 6 => 4096
  | 7 => 4096
  | 8 => 131072
  | 9 => 262144
  | _ => 0

/-- The COUNTERS payload (R428): 8 counters, then their HMAC. -/
def countersPayload (cs : List Nat) : Bytes := (cs.flatMap fun c => leBytes 4 c) ++ slice (Config.countersMac cs) 0 64

/-- The counters in a payload. -/
def countersOf (p : Bytes) : List Nat := (List.range 8).map fun i => fld p (32 * i + 31) (32 * i)

/-- The integrity check of a type beyond the CRC (R421, R429): `gen` is counter 2. -/
def copyValid (typ gen : Nat) (p : Bytes) : Bool :=
  if typ = stIdentity then
    Config.ecdsaOk Config.identityVendorKey (Config.sha512 (p.take (p.length - 136))) (p.drop (p.length - 136))
  else if typ = stCounters then p == countersPayload (countersOf p)
  else if typ = stOwner then gen ≤ fld p 1151 1120
  else true

/-- The first 20 bytes of a record header: MAGIC, TYPE, VERSION, SEQ, LENGTH (R421). -/
def storeHead (typ seq len : Nat) : Bytes := pack 20 [(32, 0x524F5453), (8, typ), (8, 1), (16, 0), (64, seq), (32, len)]

/-- The CRC of a record: header bytes 0–19 and the payload (R421). -/
def storeCrc (header payload : Bytes) : Nat := crc32c (slice header 0 20 ++ payload)

/-- A record header (R421); a write that is cut leaves a CRC that fails (R423). -/
def storeHeader (typ seq : Nat) (payload : Bytes) (torn : Bool) : Bytes :=
  let h := storeHead typ seq payload.length
  let c := storeCrc h payload
  h ++ leBytes 4 (if torn then 2 ^ 32 - 1 - c else c) ++ zeros 8

/-- SEQ of a copy. -/
def copySeq (c : StoreCopy) : Nat := fld c.header 127 64

/-- MAGIC, TYPE, VERSION, LENGTH and CRC pass (R422). -/
def copyPresent (typ : Nat) (c : StoreCopy) : Bool :=
  let h := c.header
  fld h 31 0 == 0x524F5453 && fld h 39 32 == typ && fld h 47 40 == 1 && fld h 159 128 == c.payload.length
    && 32 + c.payload.length ≤ slotSize typ && fld h 191 160 == storeCrc h c.payload

/-- The copy of a type in a bank, when it is present (R422). -/
def presentCopy (bank : AMap StoreCopy) (typ : Nat) : Option StoreCopy := (tfind bank typ).filter (copyPresent typ)

/-- The valid copy of a type in a bank. -/
def validCopy (bank : AMap StoreCopy) (typ gen : Nat) : Option StoreCopy :=
  match presentCopy bank typ with
  | some c => if copyValid typ gen c.payload then some c else none
  | none => none

/-- The winning copy of a type and its bank, 0 for A (R422): the higher SEQ, bank A on a tie. -/
def winner (n : Nvm) (typ gen : Nat) : Option (Nat × StoreCopy) :=
  match validCopy n.bankA typ gen, validCopy n.bankB typ gen with
  | some a, some b => if copySeq a < copySeq b then some (1, b) else some (0, a)
  | some a, none => some (0, a)
  | none, some b => some (1, b)
  | none, none => none

/-- A record's payload as read (R422); a type with no valid copy is absent. -/
def storeRead (n : Nvm) (typ gen : Nat) : Option Bytes := (winner n typ gen).map (·.2.payload)

/-- Where a write of a type goes and its SEQ (R423). -/
def writeTarget (n : Nvm) (typ gen : Nat) : Nat × Nat :=
  match winner n typ gen with
  | some (b, c) => (1 - b, copySeq c + 1)
  | none => (0, 1)

/-- A copy put into a bank. -/
def putCopy (n : Nvm) (typ bank : Nat) (c : StoreCopy) : Nvm :=
  if bank = 0 then { n with bankA := tset n.bankA typ c } else { n with bankB := tset n.bankB typ c }

/-- A write made, or cut while it was made (R423). -/
def makeWrite (n : Nvm) (gen : Nat) (w : StoreWrite) (torn : Bool) : Nvm :=
  let t := writeTarget n w.typ gen
  putCopy n w.typ t.1 { header := storeHeader w.typ t.2 w.payload torn, payload := w.payload, links := w.links }

/-- Counter 2 as the store holds it, which bounds the OWNER record's GEN (R428, R429). -/
def ownerGen (s : State) : Nat := match storeRead s.nvm stCounters 0 with
  | some p => (countersOf p).getD 2 0
  | none => 0

/-- A store write queued: writes are performed in the order taken (R423). -/
def storeWrite (s : State) (typ : Nat) (p : Bytes) : State :=
  { s with nvm := { s.nvm with writes := s.nvm.writes ++ [{ typ := typ, payload := p }] } }

/-- Meaning of STORE_WRITE_DONE (R423): the oldest queued write completes. -/
def execStoreWriteDone (s : State) : Answer :=
  match s.nvm.writes with
  | [] => .next s
  | w :: ws => .next (when (!s.pins.aonRst) (fun s => { s with nvm := { makeWrite s.nvm (ownerGen s) w false with writes := ws } }) s)

/-- A reset cuts the write under way and drops those behind it (R423, R454). -/
def cutWrites (s : State) : State :=
  match s.nvm.writes with
  | [] => s
  | w :: _ => { s with nvm := { makeWrite s.nvm (ownerGen s) w true with writes := [] } }

/-! ## Payloads (R428, R429, R435) -/

/-- The OWNER payload: KEY, REQUIRE, VENDOR_DEBUG, GEN (R429). -/
def ownerPayload (o : Owner) : Bytes :=
  slice o.key 0 136 ++ pack 4 [(1, b2n o.require), (1, b2n o.vendorDebug)] ++ leBytes 4 o.gen

/-- The OWNER record in a payload; one whose GEN is below counter 2 is absent (R429), as is an erased one (R420). -/
def ownerOf (gen : Nat) (p : Option Bytes) : Option Owner :=
  match p with
  | some b =>
    if b.length < 144 ∨ fld b 1151 1120 < gen then none
    else some { key := slice b 0 136, require := bit b 1088, vendorDebug := bit b 1089, gen := fld b 1151 1120 }
  | none => none

/-- One DEBUG_HISTORY entry (R435). -/
def histBytes (h : HistEntry) : Bytes :=
  pack 16 [(32, h.boots), (2, h.level), (1, b2n h.jtag), (2, h.signer), (1, 0), (2, h.lifecycle), (4, h.cause)]

/-- The entry in 16 bytes. -/
def histOf (b : Bytes) : HistEntry :=
  { boots := fld b 31 0, level := fld b 33 32, jtag := bit b 34, signer := fld b 36 35, lifecycle := fld b 39 38, cause := fld b 43 40 }

/-- The DEBUG_HISTORY payload (R435). -/
def historyPayload (sec : Sec) : Bytes :=
  leBytes 8 sec.histControl ++ leBytes 8 sec.histScan ++ sec.history.flatMap histBytes

/-- The SETTINGS payload; the spec gives no layout (log entry 17): threshold, boot source, SMBus address. -/
def settingsPayload (p : Pwr) : Bytes := [BitVec.ofNat 8 p.riskThreshold, BitVec.ofNat 8 (b2n p.bootHost), BitVec.ofNat 8 p.smbusAddr]

/-- Counters raised: each to the higher of its value and the new one (R428), and the record queued. -/
def raiseCounters (s : State) (cs : List Nat) : State :=
  let new := (s.sec.counters.zip cs).map fun c => max c.1 c.2
  if new = s.sec.counters then s
  else storeWrite { s with sec := { s.sec with counters := new } } stCounters (countersPayload new)

end Sys2Proof.Machine
end

