-- ==== Sys2Proof/Machine/Links.lean ====
section
/-! DEFINITION. Chip-to-chip links (R247–R265): ports, replay, channels and credits, routes, bring-up, time-base
synchronisation and the link commands. -/

namespace Sys2Proof.Machine

/-! ## Access -/

def getPort (s : State) (p : Nat) : Port := tget {} s.links.ports p

def modPort (s : State) (p : Nat) (g : Port → Port) : State :=
  { s with links := { s.links with ports := tmod {} s.links.ports p g } }

def getGroup (s : State) (g : Nat) : Option Group := tfind s.groups g

def setGroup (s : State) (g : Nat) (x : Group) : State := { s with groups := tset s.groups g x }

def modGroup (s : State) (g : Nat) (f : Group → Group) : State :=
  match getGroup s g with
  | some x => setGroup s g (f x)
  | none => s

/-- A link event carries the port's source number (R265). -/
def linkEvent (s : State) (p kind sev : Nat) (payload : List Nat) : State := emit s (0x840 + p) kind sev 0xFF payload

/-- The port runs: its clock is not stopped and the device is out of reset. -/
def portRuns (s : State) (p : Nat) : Bool := p < 24 && !s.pins.sysRst && !s.pwr.clocksStopped

/-- UP and not retraining: messages flow. -/
def portLive (s : State) (p : Nat) : Bool :=
  portRuns s p && (getPort s p).state == 2 && (getPort s p).retrain.isNone

/-- Flits flow: UP and not retraining, or the exchanges that end a training (R260). -/
def portFlits (s : State) (p : Nat) : Bool := portLive s p || (portRuns s p && (getPort s p).state == 1)

/-! ## The flit (R249) -/

/-- Bytes 0–251 of a flit (R249). -/
def flitBody (f : Flit) : Bytes :=
  pack 12 [(4, f.typ), (7, f.chan), (1, b2n f.first), (1, b2n f.last), (1, b2n f.poison), (1, b2n f.transit), (1, 0), (12, f.dest), (12, f.src),
    (12, f.fseq), (12, f.ack), (7, f.crChan), (1, b2n f.crPool), (12, f.crCount), (8, f.len), (4, 0)] ++ slice f.payload 0 240

/-- The 256 bytes of a flit: its CRC covers bytes 0–251 (R249). -/
def flitBytes (f : Flit) : Bytes := flitBody f ++ leBytes 4 (crc32 (flitBody f))

/-- A flit's fields from its bytes (R249). -/
def flitOf (b : Bytes) : Flit :=
  { typ := fld b 3 0, chan := fld b 10 4, first := bit b 11, last := bit b 12, poison := bit b 13, transit := bit b 14, dest := fld b 27 16
    src := fld b 39 28, fseq := fld b 51 40, ack := fld b 63 52, crChan := fld b 70 64, crPool := bit b 71, crCount := fld b 83 72
    len := fld b 91 84, payload := slice b 12 240, rsvd := bit b 15 || fld b 95 92 != 0 }

/-- The CRC of a flit's 256 bytes passes (R249). -/
def flitCrcOk (b : Bytes) : Bool := b.length == 256 && leNat (slice b 252 4) == crc32 (b.take 252)

/-- Every second byte of a flit, from byte `k` on (R248): its even or its odd bytes. -/
def halfFlit (b : Bytes) (k : Nat) : Bytes := (List.range 128).map fun i => b.getD (2 * i + k) 0

/-- An RS(136,128) codeword (R248): 128 data bytes and 8 of parity. -/
def codeword (h : Bytes) : Bytes := h ++ (List.range 8).map (Config.rsParity h)

/-- A flit as it stands on the wire (R248). -/
def flitOut (p : Nat) (f : Flit) : Out := .flit p (codeword (halfFlit (flitBytes f) 0)) (codeword (halfFlit (flitBytes f) 1))

/-- The bytes in error of one codeword of a received flit: the codewords interleave byte by byte (R248). -/
def wordErrs (errs : List Nat) (k : Nat) : Nat := ((errs.foldl nsAdd []).filter fun i => i % 2 == k).length

/-- Both codewords can be corrected: at most 4 byte errors in each (R248). -/
def fecOk (errs : List Nat) : Bool := wordErrs errs 0 ≤ 4 && wordErrs errs 1 ≤ 4

/-- The byte errors the codewords correct. -/
def fecCount (errs : List Nat) : Nat := ([0, 1].map fun k => if wordErrs errs k ≤ 4 then wordErrs errs k else 0).sum

/-- A flit leaves on a port. -/
def sendFlit (s : State) (p : Nat) (f : Flit) : State := send s (flitOut p f)

/-! ## Pools (R252–R255) -/

/-- The key of a channel's pool: LOCAL or TRANSIT. -/
def poolKey (chan : Nat) (transit : Bool) : Nat := 2 * chan + b2n transit

/-- The fixed pools of the system channels (R251). -/
def sysPoolKeys : List Nat := (List.range 8).map (128 + ·)

/-- A group's route to another member is one hop over every port in its LINKS (R255). -/
def oneHop (s : State) (x : Group) (id : Nat) : Bool :=
  let ps := (setBits 24 x.links).filter (portPresent s)
  ps.all fun p => (getPort s p).state != 2 && (tget {} s.links.cfg.peers p).id == id || (getPort s p).state == 2 && (getPort s p).peer.id == id

/-- A group is a pair whose two members are neighbours: its part is all LOCAL (R255). -/
def pairGroup (s : State) (x : Group) : Bool :=
  x.members.length == 2 && match x.members[1 - x.myPos]? with
    | some m => oneHop s x m.id
    | none => false

/-- A group uses a port. -/
def usesPort (x : Group) (p : Nat) : Bool := x.links.testBit p

/-- The flits of one group's part on a port with `n` groups of its district there (R255): rounded down to an even count. -/
def partOf (share n : Nat) : Nat := share * 60 / max 1 n / 2 * 2

/-- The groups of a district that use a port. -/
def portGroups (s : State) (d p : Nat) : List (Nat × Group) :=
  s.groups.filter fun e => e.2.dist == d && usesPort e.2 p

/-- The pool sizes of every group of a district on a port (R255). -/
def poolSizes (s : State) (d p : Nat) : List PoolSize :=
  let gs := portGroups s d p
  let part := partOf (tget 0 (getDist s d).shares p) gs.length
  gs.flatMap fun e =>
    if pairGroup s e.2 then [⟨e.1, false, part⟩, ⟨e.1, true, 0⟩]
    else [⟨e.1, false, part / 2⟩, ⟨e.1, true, part / 2⟩]

/-- The pool sizes of every district's groups on a port. -/
def allPoolSizes (s : State) (p : Nat) : List PoolSize := s.dists.flatMap fun e => poolSizes s e.1 p

/-- The payload of a CREDIT_SET flit (R255). -/
def creditBytes (l : List PoolSize) : Bytes :=
  l.flatMap fun z => pack 8 [(7, z.chan), (1, b2n z.transit), (8, 0), (12, z.size)]

/-- The pool sizes a CREDIT_SET payload carries. -/
def creditOf (b : Bytes) : List PoolSize :=
  (chunksOf 8 (b.length / 8) b).map fun e => ⟨fld e 6 0, bit e 7, fld e 27 16⟩

/-- Receive pool sizes set and announced in CREDIT_SET flits of at most 30 pools (R255). -/
def setSizes (x : Port) (l : List PoolSize) : Port :=
  { x with
    rxPools := l.foldl (fun m z => tmod {} m (poolKey z.chan z.transit) fun q => { q with size := z.size }) x.rxPools
    ctl := x.ctl ++ (chunksOf 30 l.length l).map fun c =>
      { typ := 5, len := 8 * c.length, payload := creditBytes c, src := x.ownId, dest := x.peer.id } }

/-- The reductions announced have applied as far as the receiver can tell: the peer has acknowledged them, and no pool holds more
flits than its size (R255; log entry 157). -/
def reduced (x : Port) : Bool :=
  (x.ctl ++ x.replay).all (fun f => f.typ != 5)
    && x.held.all fun e => e.2 ≤ (tget {} x.rxPools (poolKey e.1 false)).size

/-- Freed flits are given to the pools that grow once the reductions have applied (R255). -/
def settleGrow (x : Port) : Port := if x.grow != [] && reduced x then setSizes { x with grow := [] } x.grow else x

/-- Two entries name one pool. -/
def samePool (a b : PoolSize) : Bool := a.chan == b.chan && a.transit == b.transit

/-- New receive pool sizes on a port whose pools are set up (R255): reductions at once, then the increases. -/
def announce (s : State) (p : Nat) (l : List PoolSize) : State :=
  modPort s p fun x =>
    if l = [] ∨ !(x.state == 2 || (x.state == 1 && x.identOk)) then x
    else
      let size := fun (z : PoolSize) => (tget {} x.rxPools (poolKey z.chan z.transit)).size
      let kept := x.grow.filter fun w => !l.any (samePool w)
      settleGrow { setSizes x (l.filter fun z => z.size < size z) with grow := kept ++ l.filter fun z => size z < z.size }

/-- A transmit pool's size set by the receiver (R255): an increase at once; a reduction once no flit of the channel awaits
ACK. -/
def applySize (x : Port) (z : PoolSize) : Port :=
  let k := poolKey z.chan z.transit
  let busy := x.replay.any fun f => f.typ == 1 && f.chan == z.chan
  { x with txPools := tmod {} x.txPools k fun q =>
      if q.size ≤ z.size ∨ !busy then { q with size := z.size, reduce := none } else { q with reduce := some z.size } }

/-- Reductions that wait apply on channels with nothing awaiting ACK. -/
def settleReductions (x : Port) : Port :=
  { x with txPools := tmap x.txPools fun k q =>
      match q.reduce with
      | some n => if (x.replay.any fun f => f.typ == 1 && f.chan == k / 2) then q else { q with size := n, reduce := none }
      | none => q }

/-- A flit leaves its receive pool (R252, R253). -/
def freeRx (s : State) (p k : Nat) : State :=
  modPort s p fun x => { x with rxPools := tmod {} x.rxPools k fun q => { q with freed := (q.freed + 1) % 4096 } }

/-- Flits of a channel that a PAUSED district kept in its pool go into staging (R255, R269). -/
def freeHeld (g : Nat) (s : State) (p : Nat) : State :=
  let s := (List.range (tget 0 (getPort s p).held g)).foldl (fun s _ => freeRx s p (poolKey g false)) s
  modPort s p fun x => { x with held := tdel x.held g }

/-- Credits left in a transmit pool (R253). -/
def credits (x : Port) (k : Nat) : Nat :=
  let q := tget {} x.txPools k
  q.size - (q.sent + 4096 - q.freed) % 4096

/-! ## Routes (R257, R258) -/

/-- The UP ports of a mask. -/
def upPorts (s : State) (mask : Nat) : List Nat := (setBits 24 mask).filter fun p => (getPort s p).state == 2

/-- The port a message to a device takes on a channel, within a mask of ports (R257, R280). -/
def routePort (s : State) (chan dest mask : Nat) : Option Nat :=
  let ps := upPorts s (tget 0 s.links.cfg.routes dest &&& mask)
  ps[(chan + dest) % max 1 ps.length]?

/-- The ward of a device ID. -/
def wardOf (id : Nat) : Nat := id / 16

/-- A route entry obeys R258: each of its ports leads where the mode allows. -/
def routeOk (c : LinksRec) (dest mask : Nat) : Bool :=
  if dest = c.deviceId then mask == 0
  else (setBits 24 mask).all fun p =>
    let q := tget {} c.peers p
    q.expect && (q.id == dest
      || (c.ward && wardOf dest != wardOf c.deviceId && (wardOf q.id == wardOf dest || wardOf q.id == wardOf c.deviceId)))

/-! ## Messages (R251) -/

/-- A message queued on a port's channel. -/
def queueMsg (s : State) (p chan : Nat) (flits : List TxFlit) (key : Nat) (open_ : Bool) : State :=
  modPort s p fun x => { x with queue := tmod [] x.queue chan fun l => l ++ [⟨key, flits, open_⟩] }

/-- A flit added to a message that is still open, or the message begun. -/
def appendFlit (key : Nat) (t : TxFlit) (l : List TxMsg) : List TxMsg :=
  if l.any (fun m => m.key == key && m.open_) then
    l.map fun m => if m.key = key ∧ m.open_ then { m with flits := m.flits ++ [t], open_ := !t.f.last } else m
  else l ++ [⟨key, [t], !t.f.last⟩]

/-- A flit queued on a port's channel as part of its message. -/
def queueFlit (s : State) (p chan key : Nat) (t : TxFlit) : State :=
  modPort s p fun x => { x with queue := tmod [] x.queue chan (appendFlit key t) }

/-- The flits of a message's bytes (R249, R281). -/
def flitsOf (chan dest src : Nat) (transit poison : Bool) (b : Bytes) : List TxFlit :=
  let cs := chunksOf 240 (b.length / 240 + 1) b
  (cs.zipIdx).map fun c =>
    { f := { typ := 1, chan := chan, first := c.2 == 0, last := c.2 + 1 == cs.length, poison := poison, transit := transit,
             dest := dest, src := src, len := c.1.length, payload := slice c.1 0 240 } }

/-- The bytes of a message whose layout the spec does not give: one flit for its content, then its data (R251; log entry 155). -/
def sysBytes (chan kind : Nat) (args : List Nat) (data : Bytes) : Bytes := (List.range 240).map (Config.sysHead chan kind args) ++ data

/-- A message sent to a device on a channel over a port (R249, R251). -/
def sendMsg (s : State) (p chan dest src : Nat) (poison : Bool) (b : Bytes) : State :=
  let transit := dest != (getPort s p).peer.id
  let s1 := { s with links := { s.links with nextKey := s.links.nextKey + 1 } }
  queueMsg s1 p chan (flitsOf chan dest src transit poison b) (4096 + s.links.nextKey) false

/-- A message of a system channel, or other own content, sent over the route table (R251, R257): lost when no port leads there. -/
def sysSend (s : State) (chan mask dest kind : Nat) (args : List Nat) (data : Bytes) : State :=
  match routePort s chan dest mask with
  | some p => sendMsg s p chan dest s.links.cfg.deviceId false (sysBytes chan kind args data)
  | none => s

/-! ## Sending (R250, R251, R253) -/

/-- The head flit of a channel's queue. -/
def headFlit (x : Port) (chan : Nat) : Option TxFlit :=
  match tget [] x.queue chan with
  | m :: _ => m.flits.head?
  | [] => none

/-- A channel's head flit has the credits it needs (R253): one, and a further one unless it ends its message. -/
def sendable (x : Port) (chan : Nat) : Bool :=
  match headFlit x chan with
  | some t => let c := credits x (poolKey chan t.f.transit); if t.f.last then 1 ≤ c else 2 ≤ c
  | none => false

/-- The channel served next (R251): a system channel unless one was served within the last seven flits while a group
channel can send; group channels round-robin. -/
def nextChannel (x : Port) : Option Nat :=
  let sys := ((List.range 4).map (64 + ·)).find? (sendable x)
  let grp := ((List.range 64).map fun i => (x.rr + 1 + i) % 64).find? (sendable x)
  match sys, grp with
  | some c, none => some c
  | some c, some g => if 7 ≤ x.sinceSys then some c else some g
  | none, g => g

/-- The head flit taken from a channel's queue. -/
def takeHead (x : Port) (chan : Nat) : Port :=
  { x with queue := tmod [] x.queue chan fun l =>
      match l with
      | m :: r => if m.flits.length ≤ 1 ∧ !m.open_ then r else { m with flits := m.flits.drop 1 } :: r
      | [] => [] }

/-- A pool's report is due (R253): its count has changed since its last report, or 500 ns have passed, so that every pool is
reported in each µs (log entry 158). -/
def reportDue (x : Port) (now k : Nat) : Bool :=
  let q := tget {} x.rxPools k
  thas x.rxPools k && (q.freed != q.reported || q.reportAt + 500 ≤ now)

/-- The pools in turn after the one reported last. -/
def reportTurn (x : Port) : List Nat := (List.range 136).map fun i => (x.reportRr + 1 + i) % 136

/-- The pool the next header reports (R253): one whose report is due, round-robin; else the next pool in turn. -/
def reportKey (x : Port) (now : Nat) : Nat :=
  (((reportTurn x).find? (reportDue x now)).orElse fun _ => (reportTurn x).find? (thas x.rxPools)).getD x.reportRr

/-- A flit with the header fields every flit carries (R249): ACK and a credit report. -/
def withReport (x : Port) (now : Nat) (f : Flit) : Flit :=
  let k := reportKey x now
  { f with ack := x.rxNext, crChan := k / 2, crPool := k % 2 == 1, crCount := (tget {} x.rxPools k).freed }

/-- The port after it has sent a flit with a report. -/
def reported (x : Port) (now : Nat) : Port :=
  let k := reportKey x now
  { x with reportRr := k, lastTx := now, rxPools := tmod {} x.rxPools k fun q => { q with reported := q.freed, reportAt := now } }

/-- An unsequenced flit of the port sent with ACK and a credit report (R249). -/
def sendFree (s : State) (p : Nat) (typ : Nat) (payload : Bytes) : State :=
  let x := getPort s p
  sendFlit (modPort s p fun x => reported x (time s)) p
    (withReport x (time s) { typ := typ, src := x.ownId, dest := x.peer.id, payload := payload })

/-- A new sequenced flit sent: numbered, kept for replay, counted in its pool (R250, R253). -/
def sendNew (s : State) (p : Nat) (f : Flit) : State :=
  let x := getPort s p
  let f := withReport x (time s) { f with fseq := x.txNext }
  sendFlit (modPort s p fun x => { reported x (time s) with txNext := (x.txNext + 1) % 4096, replay := x.replay ++ [f] }) p f

/-- With no other flit ready, a NULL carries a report that is due (R249, R253). -/
def idleSend (s : State) (p : Nat) : State :=
  if (List.range 136).any (reportDue (getPort s p) (time s)) then sendFree s p 0 [] else s

/-- Meaning of FLIT_SEND (R250, R251, R253): a replay first, then a CREDIT_SET, then the channel whose turn it is. -/
def execFlitSend (p : Nat) (s : State) : Answer :=
  .next (when (portFlits s p) (fun s =>
    let x := getPort s p
    match x.resend with
    | some i =>
      match x.replay[i]? with
      | some f =>
        sendFlit (modPort s p fun x => { reported x (time s) with resend := if i + 1 < x.replay.length then some (i + 1) else none })
          p (withReport x (time s) f)
      | none => modPort s p fun x => { x with resend := none }
    | none =>
      if 512 ≤ x.replay.length then idleSend s p
      else
        match x.ctl with
        | f :: l => sendNew (modPort s p fun x => { x with ctl := l }) p f
        | [] =>
          match nextChannel x with
          | none => idleSend s p
          | some c =>
            match headFlit x c with
            | none => s
            | some t =>
              let s := modPort s p fun x =>
                let x := takeHead x c
                { x with
                  rr := if c < 64 then c else x.rr
                  sinceSys := if c < 64 then x.sinceSys + 1 else 0
                  txPools := tmod {} x.txPools (poolKey c t.f.transit) fun q => { q with sent := (q.sent + 1) % 4096 } }
              let s := match t.origin with
                | some (q, k) => freeRx s q k
                | none => s
              sendNew s p t.f) s)

/-- Meaning of NULL_SEND (R253): a port that has sent nothing for 256 ns sends a NULL with ACK and a credit report. -/
def execNullSend (p : Nat) (s : State) : Answer :=
  .next (when (portFlits s p && (getPort s p).lastTx + 256 ≤ time s) (fun s => sendFree s p 0 []) s)

/-! ## Receiving (R250, R253, R254, R256) -/

/-- The flits an ACK covers leave the replay buffer (R250). -/
def ackDrop (ack : Nat) (l : List Flit) : List Flit :=
  match l with
  | [] => []
  | f :: _ =>
    let n := (ack + 4096 - f.fseq) % 4096
    if n ≤ l.length then l.drop n else l

/-- ACK and credit report of a valid flit. -/
def takeReport (x : Port) (f : Flit) : Port :=
  let l := ackDrop f.ack x.replay
  let gone := x.replay.length - l.length
  settleGrow <| settleReductions { x with
    replay := l
    resend := x.resend.map (· - gone)
    txPools := if f.crCount = 0 ∧ f.crChan = 0 ∧ !f.crPool ∧ !thas x.txPools 0 then x.txPools
      else tmod {} x.txPools (poolKey f.crChan f.crPool) fun q => { q with freed := f.crCount % 4096 } }

/-- The NAK flit of a port: its ACK names the first flit to replay, the expected FSEQ; its header reports a pool as every header does
(R249, R250, R253). -/
def nakFlit (x : Port) (now : Nat) : Flit := withReport x now { typ := 3, src := x.ownId, dest := x.peer.id }

/-- A NAK sent (R250). -/
def sendNak (s : State) (p : Nat) : State :=
  sendFlit (modPort s p fun x => { reported x (time s) with nak := some (time s) }) p (nakFlit (getPort s p) (time s))

/-- A flit that fails: the first failure sends a NAK; the rest are discarded until the expected flit arrives (R250). -/
def flitFail (s : State) (p : Nat) : State := if (getPort s p).nak.isSome then s else sendNak s p

/-- LINK_STRAY: a DATA flit discarded, which frees its place in the pool (R255, R265). -/
def stray (s : State) (p : Nat) (f : Flit) : State :=
  linkEvent (freeRx s p (poolKey f.chan f.transit)) p 0x104 sevNotice [p, f.chan, f.src, f.dest]

/-- The link of a port joins members of one ward (R257): its training's identities tell. -/
def wardLink (x : Port) : Bool := x.ownWard && wardOf x.peer.id == wardOf x.ownId

/-- The ports by which a TRANSIT flit may leave (R254, R258): none in DIRECT mode; from a ward link, avenue links; from an avenue
link, ports whose peer is the destination. -/
def forwardMask (s : State) (p : Nat) (f : Flit) : Nat :=
  maskOf ((List.range 24).filter fun q =>
    (getPort s p).ownWard && if wardLink (getPort s p) then !wardLink (getPort s q) else (getPort s q).peer.id == f.dest)

/-- The port a TRANSIT flit leaves by: its message's, or by route for a first flit (R254, R257, R258). -/
def forwardPort (s : State) (p : Nat) (f : Flit) : Option Nat :=
  if f.first then routePort s f.chan f.dest (forwardMask s p f) else tfind (getPort s p).fwd f.chan

/-- A TRANSIT flit moved to its out port's queue. -/
def forward (s : State) (p : Nat) (f : Flit) : State :=
  match forwardPort s p f with
  | none => stray s p f
  | some q =>
    let s := modPort s p fun x => { x with fwd := if f.last then tdel x.fwd f.chan else tset x.fwd f.chan q }
    queueFlit s q f.chan (68 * p + f.chan)
      ⟨{ f with transit := f.dest != (getPort s q).peer.id }, some (p, poolKey f.chan true)⟩

/-- The group of a channel stands still with its PAUSED district (R255, R290). -/
def frozen (s : State) (g : Nat) : Bool := match getGroup s g with
  | some x => (getDist s x.dist).state == 5
  | none => false

/-- A LOCAL flit of a group channel (R269): the engine moves it into staging at once; while the district is PAUSED it stays in its
pool. -/
def acceptLocal (s : State) (p : Nat) (f : Flit) : State :=
  let s1 := modPort s p fun x => { x with rx := tmod [] x.rx f.chan fun l => l ++ [f] }
  if frozen s f.chan then modPort s1 p fun x => { x with held := tmod 0 x.held f.chan (· + 1) } else freeRx s1 p (poolKey f.chan false)

/-- An accepted DATA flit (R252, R255): for a pool of size 0 it is a stray; TRANSIT is forwarded; system channels are taken
by firmware, gate and engine at once, group channels by the engine. -/
def acceptData (s : State) (p : Nat) (f : Flit) : State :=
  if (tget {} (getPort s p).rxPools (poolKey f.chan f.transit)).size = 0 then stray s p f
  else if f.transit then forward s p f
  else if 64 ≤ f.chan then freeRx s p (poolKey f.chan false)
  else acceptLocal s p f

/-! ## The IDENT exchange (R261) -/

/-- The IDENT payload (R261). -/
def identBytes (x : Port) (p : Nat) : Bytes :=
  pack 240 [(12, x.ownId), (5, p), (1, b2n x.ownWard), (14, 0), (16, 0x3000), (16, 0x0101), (64, x.ownTag.toNat)]

/-- The fields of a received IDENT payload (R261); `rsvd` tells that a reserved bit is set. -/
def identRead (b : Bytes) : Ident :=
  { deviceId := fld b 11 0, port := fld b 16 12, mode := bit b 17, partId := fld b 47 32, revision := fld b 63 48
    systemTag := BitVec.ofNat 64 (fld b 127 64), rsvd := !zeroAt b [(31, 18), (1919, 128)] }

/-- The port's own IDENT sent: it leaves once the lanes have locked, and the model hands it out as the attempt begins (R260; log
entry 156). -/
def sendIdent (s : State) (p : Nat) : State := sendFree s p 4 (identBytes (getPort s p) p)

/-- A retrain forced (R264): messages wait, the replay buffer is kept, and identities are exchanged anew. It feeds the risk level
(R403). -/
def retrain (s : State) (p cause : Nat) : State :=
  let s := sendIdent (modPort s p fun x => { x with retrain := some cause, retrains := x.retrains + 1 }) p
  linkEvent { s with health := { s.health with retrains := s.health.retrains ++ [time s] } } p 0x102 sevNotice [p, cause]

/-- A NAK taken (R250, R264): the transmitter resends from the named FSEQ; the eighth replay of one FSEQ retrains an UP port (one in
TRAINING has its attempt's end). -/
def nakTake (p fseq : Nat) (s : State) : State :=
  let s := modPort s p fun x =>
    let l := ackDrop fseq x.replay
    { x with
      lastRx := time s, replay := l, resend := if l = [] then none else some 0
      replayOf := fseq, replayCount := if x.replayOf = fseq then x.replayCount + 1 else 1
      replays := x.replays + 1, ceReplays := x.ceReplays + 1 }
  if 8 ≤ (getPort s p).replayCount ∧ (getPort s p).state = 2 then retrain (modPort s p fun x => { x with replayCount := 0 }) p 2 else s

/-- Meaning of NAK_RECEIVE (R250). -/
def execNakReceive (p fseq : Nat) (s : State) : Answer := .next (when (portFlits s p) (nakTake p fseq) s)

/-- The peer's pool sizes taken (R255, R260). -/
def takeSizes (x : Port) (l : List PoolSize) : Port := { l.foldl applySize x with credited := true }

/-- A received flit (R249, R250). The content of a SYNC or an IDENT comes with SYNC_RECEIVE and IDENT_RECEIVE. -/
def flitReceive (p : Nat) (f : Flit) (crcOk : Bool) (s : State) : State :=
  if !crcOk || 5 < f.typ || f.rsvd then flitFail s p
  else
    let s := modPort s p fun x => { x with lastRx := time s }
    if f.typ = 1 ∨ f.typ = 5 then
      if f.fseq = (getPort s p).rxNext then
        let s := modPort s p fun x => { takeReport x f with rxNext := (x.rxNext + 1) % 4096, nak := none }
        if f.typ = 1 then acceptData s p f
        else modPort s p fun x => takeSizes x (creditOf (slice f.payload 0 f.len))
      else flitFail s p
    else
      let s := modPort s p fun x => takeReport x f
      if f.typ = 3 then nakTake p f.ack s else s

/-- Corrected bytes counted (R248, R265). -/
def countFec (s : State) (p n : Nat) : State := modPort s p fun x => { x with fec := (x.fec + n) % 2 ^ 32, ceFec := x.ceFec + n }

/-- Meaning of FLIT_RECEIVE (R248–R250): a flit whose codewords cannot be corrected is treated as a CRC failure. -/
def execFlitReceive (p : Nat) (b : Bytes) (errs : List Nat) (s : State) : Answer :=
  .next (when (portFlits s p) (fun s => flitReceive p (flitOf b) (fecOk errs && flitCrcOk b) (countFec s p (fecCount errs))) s)

/-- Meaning of NAK_REPEAT_TIMER (R250): the NAK is repeated every µs. -/
def execNakRepeatTimer (p : Nat) (s : State) : Answer :=
  .next (when (portFlits s p && (match (getPort s p).nak with
    | some t => t + 1000 ≤ time s
    | none => false)) (fun s => sendNak s p) s)

/-- Meaning of CREDIT_SET_RECEIVE (R255, R260): also in the exchange that ends a training. -/
def execCreditSetReceive (p : Nat) (l : List PoolSize) (s : State) : Answer :=
  .next (when (portRuns s p && ((getPort s p).state == 2 || (getPort s p).state == 1))
    (fun s => modPort s p fun x => takeSizes x l) s)

/-! ## Retrain and loss (R256, R264) -/

/-- The port waits on acknowledgements or credits (R256). -/
def portWaits (x : Port) : Bool :=
  x.replay != [] || x.queue.any fun e => (headFlit x e.1).isSome && !sendable x e.1

/-- Meaning of LINK_WATCHDOG_EXPIRY (R256). -/
def execLinkWatchdogExpiry (p : Nat) (s : State) : Answer :=
  .next (when (portLive s p && portWaits (getPort s p) && (getPort s p).lastRx + 4000 ≤ time s) (fun s => retrain s p 1) s)

/-- Meaning of LANE_LOCK_LOSS (R264): the port has lanes 0–3. -/
def execLaneLockLoss (p lane : Nat) (s : State) : Answer :=
  .next (when (portLive s p && lane < 4) (fun s => retrain s p 3) s)

/-- Channels with a message in progress on a port (R264). -/
def busyChannels (x : Port) : List Nat :=
  (List.range 64).filter fun c =>
    tget [] x.queue c != [] || tget [] x.rx c != [] || x.replay.any fun f => f.typ == 1 && f.chan == c

/-- A port that carries nothing any more: its messages are lost, its counts start again (R260, R264). -/
def clearPort (x : Port) (st : Nat) : Port :=
  { state := st, peer := x.peer, ownId := x.ownId, ownWard := x.ownWard, ownTag := x.ownTag, retrains := x.retrains
    replays := x.replays, fec := x.fec, ceFec := x.ceFec, ceReplays := x.ceReplays, ceAt := x.ceAt }

/-- What other ports forward of a lost port's messages goes: those not yet complete leave their channel free, and no flit names the
pool it came from any more (R264). -/
def dropForwards (p : Nat) (x : Port) : Port :=
  { x with
    fwd := x.fwd.filter fun e => e.2 != p
    queue := tmap x.queue fun c l => (l.filter fun m => !(m.open_ && m.key == 68 * p + c)).map fun m =>
      { m with flits := m.flits.map fun t => { t with origin := t.origin.filter fun o => o.1 != p } } }

/-- A port is lost: it carries nothing any more, and what others forward from it goes (R260, R264, R265). -/
def losePort (s : State) (p st : Nat) : State :=
  let s := modPort s p fun x => clearPort x st
  { s with links := { s.links with ports := tmap s.links.ports fun _ x => dropForwards p x } }

/-- Ports that remain in training for an ENABLE. -/
def stillTraining (s : State) (e : LinkEnable) : Bool := e.ports.any fun p => (getPort s p).state == 1

/-- The final reply of a COLL_LINK_ENABLE: which ports are UP and which are not (R265). -/
def enableReply (s : State) (e : LinkEnable) : Bytes :=
  let up := e.ports.filter fun p => (getPort s p).state == 2
  let bad := e.ports.filter fun p => (getPort s p).state != 2
  leBytes 4 (maskOf up) ++ leBytes 4 (maskOf bad)

/-- ENABLEs none of whose ports trains any more get their final reply. -/
def finishEnables (s : State) : State :=
  let done := s.links.enables.filter fun e => !stillTraining s e
  done.foldl (fun s e => finishOk s e.pend (enableReply s e))
    { s with links := { s.links with enables := s.links.enables.filter (stillTraining s) } }

/-! ## Bring-up (R260, R261) -/

/-- An attempt begins on a port in TRAINING: counters at 0, the system channels' pools, own IDENT (R251, R260). -/
def attempt (s : State) (p : Nat) : State :=
  sendIdent (modPort s p fun x => { clearPort x 1 with
    attempts := x.attempts
    txPools := sysPoolKeys.map fun k => (k, { size := 32 })
    rxPools := sysPoolKeys.map fun k => (k, { size := 32 }) }) p

/-- Training begins: identity and expected peer are those of the configuration now (R265). -/
def startTraining (s : State) (p : Nat) : State :=
  let c := s.links.cfg
  attempt (modPort (losePort s p 1) p fun x =>
    { x with ownId := c.deviceId, ownWard := c.ward, ownTag := c.tag, peer := tget {} c.peers p }) p

/-- IDENT names the port's expected peer (R261). -/
def identMatches (x : Port) (i : Ident) : Bool :=
  i.partId == 0x3000 && i.mode == x.ownWard && i.systemTag == x.ownTag && i.deviceId != x.ownId
    && i.deviceId == x.peer.id && i.port == x.peer.port

/-- MISWIRED (R261). -/
def miswire (s : State) (p : Nat) (i : Ident) : State :=
  let x := getPort s p
  linkEvent (losePort s p 4) p 0x103 sevError [p, x.peer.id, x.peer.port, i.deviceId, i.port]

/-- The sizes of the system channels' pools (R251). -/
def sysSizes : List PoolSize := (List.range 4).flatMap fun i => [⟨64 + i, false, 32⟩, ⟨64 + i, true, 32⟩]

/-- Meaning of IDENT_RECEIVE (R260, R261): with the peer's identity confirmed, a CREDIT_SET for every allocated pool is sent. A
payload with a reserved bit set is treated as a CRC failure (R249). -/
def execIdentReceive (p : Nat) (b : Bytes) (s : State) : Answer :=
  let i := identRead b
  .next (when (portRuns s p && (getPort s p).state == 1 && !i.rsvd) (fun s =>
    if identMatches (getPort s p) i then modPort s p fun x => setSizes { x with identOk := true } (sysSizes ++ allPoolSizes s p)
    else finishEnables (miswire s p i)) s)

/-- The exchanges of a training are over (R260): IDENT, CREDIT_SET both ways, and a first SYNC both ways. -/
def trained (x : Port) : Bool :=
  x.identOk && x.credited && (x.ctl ++ x.replay).all (fun f => f.typ != 5) && x.syncAt.isSome && x.syncT2 != 0

/-! ## Corrected errors (R265) -/

/-- LINK_CE (R265): corrections and replays since the last report, logged at most once per second. -/
def linkReport (p : Nat) (s : State) : State :=
  let x := getPort s p
  let due := match x.ceAt with
    | some t => t + 1000000000 ≤ time s
    | none => true
  if due && (x.ceFec != 0 || x.ceReplays != 0) then
    linkEvent (modPort s p fun x => { x with ceFec := 0, ceReplays := 0, ceAt := some (time s) }) p 0x105 sevInfo
      [x.ceFec, x.ceReplays]
  else s

/-- Meaning of LINK_CE (R265). -/
def execLinkCe (p : Nat) (s : State) : Answer := .next (when (portRuns s p) (linkReport p) s)

/-! ## Time-base synchronisation (R31–R33, R262, R263) -/

/-- This package's device ID. -/
def ownId (s : State) : Nat := s.links.cfg.deviceId

/-- The time root's ID. -/
def rootId (s : State) : Nat := s.links.root.getD (ownId s)

/-- Meaning of SYNC_SEND (R260, R262, R263): the root numbers each SYNC it sends; others repeat what they have heard. -/
def execSyncSend (p : Nat) (s : State) : Answer :=
  .next (when (portFlits s p && (match (getPort s p).syncAt with
    | some t => t + 8000 ≤ time s
    | none => true)) (fun s =>
    let s := if s.links.root.isNone then { s with links := { s.links with rootSeq := (s.links.rootSeq + 1) % 2 ^ 32 } } else s
    let x := getPort s p
    let t1 := 16 * time s
    sendFree (modPort s p fun x => { x with syncAt := some (time s), syncOld := x.syncT1, syncT1 := t1 }) p 2
      ((List.range 240).map (Config.syncPayload [t1, x.syncT2, rootId s, s.links.dist, s.links.rootSeq]))) s)

/-- A root ID heard on a port is accepted: its sequence advanced within 64 µs and its distance is at most 70 (R263). -/
def heardFresh (s : State) (p : Nat) : Bool :=
  let x := getPort s p
  x.state == 2 && x.dist + 1 ≤ 70 && match x.rootAt with
    | some t => time s < t + 64000
    | none => false

/-- The parent order of R262: distance, peer ID, port. -/
def parentKey (s : State) (p : Nat) : Nat := (getPort s p).dist * 2 ^ 20 + (getPort s p).peer.id * 32 + p

/-- The port with the least key. -/
def bestPort (s : State) : List Nat → Option Nat
  | [] => none
  | p :: l => match bestPort s l with
    | some q => if parentKey s p ≤ parentKey s q then some p else some q
    | none => some p

/-- A root sequence number is ahead of another: it counts modulo 2^32 (R263). -/
def rootAhead (a b : Nat) : Bool :=
  let d := (b + 2 ^ 32 - a) % 2 ^ 32
  0 < d && d < 2 ^ 31

/-- The ports that hear a root ID advancing. -/
def rootPorts (s : State) (r : Nat) : List Nat := (List.range 24).filter fun p => heardFresh s p && (getPort s p).root == r

/-- The lowest root ID heard advancing that is below the own ID, but for one that is lost (R263). -/
def lowestRoot (s : State) (lost : Option Nat) : Option Nat :=
  match (((List.range 24).filter (heardFresh s)).map fun p => (getPort s p).root).filter fun r => r < ownId s && lost != some r with
  | [] => none
  | r :: rs => some (rs.foldl min r)

/-- The root followed has not advanced for 64 µs (R263). -/
def rootLost (s : State) : Bool := s.links.root.isSome && s.links.rootAt + 64000 ≤ time s

/-- The highest root sequence heard on some ports (R263). -/
def highSeq (s : State) : List Nat → Nat → Nat
  | [], q => q
  | p :: l, q => let r := (getPort s p).rootSeq; highSeq s l (if rootAhead q r then r else q)

/-- A root followed through its best port, and a change logged (R262, R263): with none left that names it, a parent that is not UP
goes, and the root stays until it is lost. -/
def follow (s : State) (r seq at_ : Nat) : State :=
  let l := s.links
  match bestPort s (rootPorts s r) with
  | some p =>
    let s1 := { s with links := { l with root := some r, parent := some p, dist := (getPort s p).dist + 1, rootSeq := seq, rootAt := at_ } }
    if l.root = some r ∧ l.parent = some p then s1 else linkEvent s1 p 0x106 sevNotice [l.parent.getD 31, p, r]
  | none => { s with links := { l with parent := l.parent.filter fun p => (getPort s p).state == 2 } }

/-- A root adopted, at the highest sequence heard from it (R263). -/
def newRoot (s : State) (r : Nat) : State :=
  match rootPorts s r with
  | p :: l => follow s r (highSeq s l (getPort s p).rootSeq) (time s)
  | [] => s

/-- The package becomes the time root, starting at sequence 0 (R263). -/
def becomeRoot (s : State) : State :=
  let l := s.links
  if l.root.isNone then s
  else
    linkEvent { s with links := { l with root := none, parent := none, dist := 0, rootSeq := 0 } } (l.parent.getD 0) 0x106 sevNotice
      [l.parent.getD 31, 31, ownId s]

/-- Root and parent as R262 and R263 choose them: the lowest ID heard advancing; the root followed stays until a lower one is heard or
it is lost, and its next port in order takes over for a parent that has gone. -/
def adopt (s : State) : State :=
  match s.links.root with
  | some r =>
    if rootLost s then
      match lowestRoot s (some r) with
      | some q => newRoot s q
      | none => becomeRoot s
    else
      match lowestRoot s none with
      | some q => if q < r then newRoot s q else follow s r s.links.rootSeq s.links.rootAt
      | none => follow s r s.links.rootSeq s.links.rootAt
  | none =>
    match lowestRoot s none with
    | some q => newRoot s q
    | none => s

/-- An offset to the parent corrected (R33): a lag of 1 µs or more, or any at the first sync, by one jump forward, such a
lead by half rate; a smaller one by slewing. An offset of 1 µs or more after the first sync is logged: TIME_STEP carries the
parent port's source number, which R33 does not name (DESIGN CHOICE: log entry 159). -/
def correct (s : State) (p : Nat) (off : Int) : State :=
  let big := 1000 ≤ off.natAbs
  let s := if s.links.synced && big then emit s (0x840 + p) 0x004 sevNotice 0xFF [twos 64 off] else s
  if !s.links.synced || big then
    if 0 ≤ off then { s with now := s.now + BitVec.ofNat 64 off.toNat, links := { s.links with synced := true, lead := 0, slew := 0 } }
    else { s with links := { s.links with synced := true, lead := off.natAbs, slew := 0 } }
  else { s with links := { s.links with slew := off } }

/-- What a SYNC says of its root, on its port (R263): the ID counts as advancing when its sequence is ahead of the last one heard for
it there. -/
def hearRoot (x : Port) (now : Nat) (m : SyncMsg) : Port :=
  { x with
    lastRx := now, syncT2 := m.t4, root := m.root, dist := m.dist, rootSeq := m.rootSeq
    rootAt := if x.syncT2 = 0 ∨ m.root ≠ x.root then none else if rootAhead x.rootSeq m.rootSeq then some now else x.rootAt }

/-- The sequence of the root followed, as a SYNC advances it (R263). -/
def hearSeq (l : Links) (now : Nat) (m : SyncMsg) : Links :=
  if l.root = some m.root ∧ m.dist + 1 ≤ 70 ∧ rootAhead l.rootSeq m.rootSeq then { l with rootSeq := m.rootSeq, rootAt := now } else l

/-- The stamp of the own SYNC that a peer's `t2` answers: the last one, or the one before when the two SYNCs crossed, which the
negative time under way shows (R262; log entry 160). -/
def ownStamp (x : Port) (m : SyncMsg) : Nat := if m.t2 + m.t4 < x.syncT1 + m.t1 then x.syncOld else x.syncT1

/-- A SYNC taken (R262): what the peer says of its root, and on the parent port the offset of the four stamps. -/
def syncReceive (p : Nat) (m : SyncMsg) (s : State) : State :=
  let t1 := ownStamp (getPort s p) m
  let s := modPort s p fun x => hearRoot x (time s) m
  let s := adopt { s with links := hearSeq s.links (time s) m }
  if s.links.parent = some p ∧ m.t2 ≠ 0 ∧ t1 ≠ 0 then
    let off16 : Int := (((m.t2 : Int) - t1) - ((m.t4 : Int) - m.t1)) / 2
    let s := modPort s p fun x => { x with offsetPs := off16 * 1000 / 16 }
    correct s p (off16 / 16)
  else s

/-- Meaning of SYNC_RECEIVE (R262): a sample that spans a replay or a retrain is discarded. -/
def execSyncReceive (p : Nat) (m : SyncMsg) (s : State) : Answer :=
  .next (when (portFlits s p && !m.spans && (getPort s p).resend.isNone) (syncReceive p m) s)

/-- Meaning of ROOT_LOSS_TIMER (R263): no advance of the root's sequence for 64 µs. -/
def execRootLossTimer (s : State) : Answer :=
  .next (when (rootLost s) adopt s)

/-- Meaning of LINK_TRAINING_ATTEMPT_END (R260): UP after the first success, DOWN after the third failure. -/
def execLinkTrainingAttemptEnd (p : Nat) (ok : Bool) (s : State) : Answer :=
  .next (when (portRuns s p && (getPort s p).state == 1) (fun s =>
    let x := getPort s p
    if ok && trained x then
      let s := linkEvent (modPort s p fun x => { x with state := 2, lastRx := time s, lastTx := time s }) p 0x100 sevInfo
        [p, x.peer.id, x.peer.port]
      adopt (finishEnables s)
    else if x.attempts + 1 < 3 then attempt (modPort s p fun x => { x with attempts := x.attempts + 1 }) p
    else finishEnables (linkEvent (losePort s p 3) p 0x101 sevError [p, Config.causeCode 0x101 0])) s)

/-! ## Link commands (R265) -/

def specLinkConfig : Spec := { cmd := 0x0580, pf0 := true, wide := true }
def specLinkRoute : Spec := { cmd := 0x0581, pf0 := true, wide := true }
def specLinkEnable : Spec := { cmd := 0x0582, pf0 := true, wide := true }
def specLinkDisable : Spec := { cmd := 0x0583, pf0 := true, wide := true }
def specLinkInfo : Spec := { cmd := 0x0584, wide := true }

/-- The LINKS record queued for the store (R421). -/
def storeLinks (s : State) : State :=
  { s with nvm := { s.nvm with writes := s.nvm.writes ++ [{ typ := stLinks, payload := [], links := some s.links.cfg }] } }

/-- The 24 peer words of COLL_LINK_CONFIG. -/
def peersOf (p : Bytes) : AMap Peer :=
  (List.range 24).map fun i =>
    let w := slice p (16 + 4 * i) 4
    (i, { id := fld w 11 0, port := fld w 16 12, expect := bit w 17 })

/-- Meaning of COLL_LINK_CONFIG (R257, R265): it applies to a port at its next training. An EXPECT for a port whose WIRED bit is clear
is stored and checks no presence: the command configures the package and names no port (DESIGN CHOICE: log entry 161). -/
def execCollLinkConfig (c : FwReq) (s : State) : Answer :=
  let p := c.payload
  let rsv := (63, 13) :: (List.range 24).map fun i => (128 + 32 * i + 31, 128 + 32 * i + 18)
  fwStep specLinkConfig c (headChecks specLinkConfig (p.length == 112 && zeroAt p rsv) true c)
    (fun s =>
      let cfg := { s.links.cfg with deviceId := fld p 11 0, ward := bit p 12, tag := BitVec.ofNat 64 (fld p 127 64), peers := peersOf p }
      replyOk (storeLinks { s with links := { s.links with cfg := cfg } }) c 0x0580 []) s

/-- The route entries of COLL_LINK_ROUTE: (destination, word). -/
def routeWords (p : Bytes) : List (Nat × Nat) :=
  (List.range (fld p 23 12)).map fun i => (fld p 11 0 + i, leNat (slice p (8 + 4 * i) 4))

/-- Meaning of COLL_LINK_ROUTE (R257, R258, R265). -/
def execCollLinkRoute (c : FwReq) (s : State) : Answer :=
  let p := c.payload
  let n := fld p 23 12
  let ws := routeWords p
  let form := 8 ≤ p.length && p.length == 8 + 4 * n && zeroAt p [(63, 24)] && ws.all fun w => w.2 < 2 ^ 24
  fwStep specLinkRoute c
    (fun s => headChecks specLinkRoute form (ws.all fun w => (setBits 24 w.2).all (portPresent s)) c s
      ++ [(n == 0 || 110 < n || 4096 < fld p 11 0 + n || !ws.all (fun w => routeOk s.links.cfg w.1 w.2), badArgument)])
    (fun s =>
      let cfg := { s.links.cfg with routes := ws.foldl (fun m w => if w.2 = 0 then tdel m w.1 else tset m w.1 w.2) s.links.cfg.routes }
      replyOk (storeLinks { s with links := { s.links with cfg := cfg } }) c 0x0581 []) s

/-- The payload form of ENABLE and DISABLE. -/
def portsForm (p : Bytes) : Bool := p.length == 8 && zeroAt p [(63, 24)]

/-- The ports a payload lists. -/
def portsOf (p : Bytes) : List Nat := setBits 24 (fld p 23 0)

/-- Entry to RETAIN is under way. -/
def retainEntering (s : State) : Bool := match s.pwr.going with
  | some (2, _) => true
  | _ => false

/-- RETAIN blocks a command that needs a powered-off unit unless AUTO_WAKE is set (R440); so does the entry to it. -/
def retainBlocks (s : State) : Bool × Err := ((s.pwr.state == 2 && !s.pwr.autoWake) || retainEntering s, conflict 8 0xC2)

/-! ## Leaving RETAIN (R440, R452, R478) -/

/-- The device back in ACTIVE from RETAIN: the compute dies have power, ports that were UP train again, the work counters
restart. -/
def retainExit (since : Nat) (s : State) : State :=
  let s1 := { s with
    work := [], cyc := []
    pwr := { s.pwr with state := 0, going := none, retainPorts := [], cmpEn := true, lastIssue := time s } }
  let s2 := s.pwr.retainPorts.foldl startTraining (match s.pwr.going with
    | some (_, some p) => finishOk s1 p []
    | _ => s1)
  emit s2 0x885 0x286 sevInfo 0xFF [2, 0, (time s - since) / 1000]

/-- A command that needs a powered-off unit wakes the device when AUTO_WAKE is set (R439, R440). The time it waits is not
modelled (log entry 18). -/
def autoWake (s : State) : State := if s.pwr.state = 2 ∧ s.pwr.autoWake then retainExit (time s) s else s

/-- IDLE left for ACTIVE (R439): the quarter clocks run again; `micros` is the time the exit took. -/
def idleLeave (micros : Nat) (s : State) : State :=
  if s.pwr.state = 1 then
    emit { s with pwr := { s.pwr with state := 0, waking := false, lastIssue := time s } } 0x885 0x286 sevInfo 0xFF [1, 0, micros]
  else s

/-- A restore or a debug access in IDLE leaves it first (R439); the time it waits is not modelled (log entry 18). -/
def wakeQuarters (s : State) : State := idleLeave 0 (autoWake s)

/-- Meaning of COLL_LINK_ENABLE (R260, R265): listed ports that are not UP begin training. -/
def execCollLinkEnable (c : FwReq) (s : State) : Answer :=
  let p := c.payload
  fwStep specLinkEnable c
    (fun s => headChecks specLinkEnable (portsForm p) ((portsOf p).all (portPresent s)) c s
      ++ [((portsOf p).any (fun i => !(tget {} s.links.cfg.peers i).expect), badArgument), retainBlocks s])
    (fun s =>
      let s := replyAccepted (autoWake s) c 0x0582
      let s := (portsOf p).foldl (fun s i => if [1, 2].contains (getPort s i).state then s else startTraining s i) s
      finishEnables { s with links := { s.links with enables := s.links.enables ++ [⟨pendOf s c 0x0582, portsOf p⟩] } }) s

/-- Meaning of COLL_LINK_DISABLE (R265): messages in progress are lost. -/
def execCollLinkDisable (c : FwReq) (s : State) : Answer :=
  let p := c.payload
  fwStep specLinkDisable c
    (fun s => headChecks specLinkDisable (portsForm p) ((portsOf p).all (portPresent s)) c s)
    (fun s =>
      let s := (portsOf p).foldl (fun s i => if (getPort s i).state = 0 then s else losePort s i 0) s
      replyOk (adopt (finishEnables s)) c 0x0583 []) s

/-- Meaning of COLL_LINK_INFO (R265). -/
def execCollLinkInfo (c : FwReq) (s : State) : Answer :=
  let p := c.payload
  let i := fld p 4 0
  fwStep specLinkInfo c
    (fun s => headChecks specLinkInfo (p.length == 8 && zeroAt p [(63, 5)]) (portPresent s i) c s)
    (fun s =>
      let x := getPort s i
      replyOk s c 0x0584 (pack 32 [(8, x.state), (5, x.peer.port), (3, 0), (12, x.peer.id), (1, b2n (s.links.parent == some i)), (3, 0),
        (32, x.retrains), (32, x.replays), (32, x.fec), (32, twos 32 x.offsetPs)])) s

end Sys2Proof.Machine
end

