-- ==== Sys2Proof/Machine/CoreBase.lean ====
section
/-! DEFINITION. Faults of descriptors and the run they belong to (R84, R108–R110, R129, R339), apart from what the entry
to FAULTED does, which Districts.lean adds. -/

namespace Sys2Proof.Machine

/-- The physical quarter of a district core (R84). -/
def coreQuarter (s : State) (d c : Nat) : Nat := (getDist s d).quarters.getD (c / 64) 0

/-- A district core's source number: its global core number (R15, R35). -/
def coreSource (s : State) (d c : Nat) : Nat := coreQuarter s d c * 64 + c % 64

/-- The source of a district's PROG_ events: its first quarter sequencer (R110). -/
def seqSource (s : State) (d : Nat) : Nat := 0x800 + (getDist s d).quarters.getD 0 0

/-- The issued descriptor of an index. -/
def findIssued (c : Core) (idx : Nat) : Option Issued := c.issued.find? fun i => i.q.idx == idx

/-- The core with an issued descriptor changed. -/
def modIssued (c : Core) (idx : Nat) (g : Issued → Issued) : Core :=
  { c with issued := c.issued.map fun i => if i.q.idx = idx then g i else i }

/-- The core with an issued descriptor gone. -/
def dropIssued (c : Core) (idx : Nat) : Core := { c with issued := c.issued.filter fun i => i.q.idx != idx }

/-- The work of an issued descriptor replaced. -/
def setWork (s : State) (d core idx : Nat) (w : Work) : State :=
  modCore s d core fun c => modIssued c idx fun i => { i with work := w }

/-- The run's program changed. -/
def modProg (s : State) (d : Nat) (g : Prog → Prog) : State :=
  modDist s d fun x =>
    match x.run with
    | some r => match tfind x.progs r.handle with
      | some p => { x with progs := tset x.progs r.handle (g p) }
      | none => x
    | none => x

/-- The payload of DESC_FAULT and DESC_SOFT_FAULT (R110): TAG, KIND, fault code, core, stream index, descriptor index. -/
def faultPayload (raw : Bytes) (code core idx : Nat) : List Nat := [fld raw 31 16, fld raw 7 0, code, core, core, idx]

/-- The gate's inputs of a district changed (R339). -/
def modGate (s : State) (d : Nat) (g : Gate → Gate) : State := modDist s d fun x => { x with gate := g x.gate }

/-- A hard fault (R108): the core halts, the district's sequencers stop issuing, and the gate takes FAULT. The entry to
FAULTED follows (`settle`). -/
def hardFault (s : State) (d core idx code : Nat) : State :=
  match findIssued (getCore s d core) idx with
  | none => s
  | some i =>
    let s := emit s (coreSource s d core) 0x040 sevError d (faultPayload i.q.raw code core idx)
    let s := modProg (modCore s d core fun c => { dropIssued c idx with halted := true }) d fun p => { p with hard := (p.hard + 1) % 2 ^ 32 }
    modGate (modDist s d fun x => { x with run := x.run.map fun r =>
      { r with stopped := true, causes := nsAdd r.causes code, first := some (r.first.getD (code, core)) } }) d
      fun g => { g with fault := true }

/-- A soft fault, logged once per descriptor (R108, R203); POISON counts at the gate (R339). -/
def softFault (s : State) (d core idx code : Nat) : State :=
  match findIssued (getCore s d core) idx with
  | none => s
  | some i =>
    if i.softs.contains code then s
    else
      let s := emit s (coreSource s d core) 0x041 sevNotice d (faultPayload i.q.raw code core idx)
      let s := modCore s d core fun c => modIssued c idx fun i => { i with softs := nsAdd i.softs code }
      let s := modProg s d fun p => { p with soft := (p.soft + 1) % 2 ^ 32 }
      if code = 0x80 then modGate s d fun g => { g with poison := satAdd censusMax g.poison 1 } else s

/-- One non-finite input in tag 1,023: a soft fault of a descriptor without a CTAG (R129). -/
def countSoft (s : State) (d core : Nat) : State :=
  censusAdd s d 1023 (coreSource s d core) { nonfin := 1 }

/-- Tiles of a MATMUL. -/
def matTiles (m : MatD) : Nat := m.mT * m.nT

/-- An issued descriptor has no more to do and waits to complete. -/
def workDone (i : Issued) : Bool := match i.work with
  | .fin => true
  | .mat t hold _ => !hold && t == matTiles (matOf i.q.raw)
  | _ => false

/-- The quarter whose work counters a core feeds. -/
def addWork (s : State) (d core : Nat) (w : WorkCnt) : State :=
  { s with work := tmod {} s.work (coreQuarter s d core) fun x => x.add w }

/-- The collective engine has taken a put: the descriptor has no more to do; a MATMUL goes on to its next tile (R104, R150). The
cycles its tile has waited count as busy: at once after the last tile, else those that the next tile's own do not cover (R151,
R152). -/
def putTaken (s : State) (d core idx : Nat) : State :=
  let cyc := tget 0 s.cyc (coreQuarter s d core)
  match findIssued (getCore s d core) idx with
  | none => s
  | some i => match i.work with
    | .mat t _ p =>
      let n := (cyc - i.holdAt) / 1000
      let s := modCore s d core fun c => modIssued c idx fun i => { i with work := .mat t false p, stall := n }
      if t = matTiles (matOf i.q.raw) then addWork s d core { busy := n } else s
    | _ => setWork s d core idx .fin

/-! ## Transfers (R94, R378) -/

/-- The address of an end's first byte in its own space. -/
def endBase : End → Nat
  | .lcl a => a
  | .seg _ _ off => off

/-- Rows are in coded form at an end: an operand buffer, or a segment with the coded attribute (R205). -/
def endCoded : End → Bool
  | .lcl a => a < 0x20000
  | .seg _ g _ => g.coded

/-- Bytes a transfer moves in all. -/
def xferTotal (x : Xfer) : Nat := x.rows * x.rowBytes

/-- A transfer is complete. -/
def xferDone (x : Xfer) : Bool := xferTotal x ≤ x.pos

/-- Offsets, from the source's and the destination's start, of the next byte, and the bytes left in its row. -/
def xferAt (x : Xfer) : Nat × Nat × Nat :=
  let r := x.pos / max 1 x.rowBytes
  let o := x.pos % max 1 x.rowBytes
  (r * x.srcStride + o, r * x.dstStride + o, x.rowBytes - o)

/-- The bytes of a flash source that a piece needs are in staging (R235). -/
def sourceStaged (s : State) (x : Xfer) : Bool := match x.src with
  | .seg _ e off => staged s e (off + (xferAt x).1) (min 2048 (xferAt x).2.2)
  | .lcl _ => true

/-- The transfers of a core. -/
def coreXfers (c : Core) : List Xfer := c.prefetches.map (·.x) ++ c.issued.filterMap fun i => match i.work with
  | .xfer x => some x
  | _ => none

/-- A transfer stands at a resumable point (R378): at the start of a row, at a 4 KiB boundary of its destination, or, in coded form,
between two places. -/
def resumable (x : Xfer) : Bool :=
  xferDone x || x.pos % max 1 x.rowBytes == 0 || (endBase x.dst + (xferAt x).2.1) % 4096 == 0
    || x.recode.isSome || endCoded x.src || endCoded x.dst

end Sys2Proof.Machine
end

