-- ==== Sys2Proof/Machine/Vector.lean ====
section
/-! DEFINITION. The vector engine (R154–R172): lane instructions and their checks, element-wise and packed programs,
broadcasts, row instructions, row statistics and the moment merge. -/

namespace Sys2Proof.Machine

/-- The fields of a LANE body (R92). -/
structure LaneD where
  fmtIn : Nat
  fmtOut : Nat
  count : Nat
  nin : Nat
  lp : Nat
  in0 : Nat
  in1 : Nat
  in2 : Nat
  out : Nat
  elems : Nat
  rowLen : Nat
  ctag : Nat
  block : Nat
  modeF : Bool
  stoch : Bool
  deriving DecidableEq, Repr

/-- A LANE body read from its descriptor (R92). -/
def laneOf (b : Bytes) : LaneD :=
  { fmtIn := fld b 135 128, fmtOut := fld b 143 136, count := fld b 151 144, nin := fld b 153 152, lp := fld b 178 160,
    in0 := fld b 210 192, in1 := fld b 242 224, in2 := fld b 274 256, out := fld b 306 288, elems := fld b 351 320,
    rowLen := fld b 367 352, ctag := fld b 377 368, block := fld b 379 378, modeF := bit b 380, stoch := bit b 381 }

/-- One lane instruction (R156). -/
structure LInstr where
  op : Nat
  pk : Bool
  dst : Nat
  a : Nat
  b : Nat
  c : Nat
  ma : Nat
  mb : Nat
  mc : Nat
  k : Nat
  rsvd : Bool
  deriving DecidableEq, Repr

/-- A lane instruction read from its 8 bytes (R156). -/
def linstrOf (x : Bytes) : LInstr :=
  let op := fld x 5 0
  { op := op, pk := bit x 6, dst := fld x 13 8, a := fld x 19 14, b := fld x 25 20, c := fld x 31 26,
    ma := if op = 0x10 then 0 else fld x 39 32, mb := if op = 0x10 then 0 else fld x 47 40,
    mc := if op = 0x10 then 0 else fld x 55 48, k := fld x 63 32,
    rsvd := bit x 7 || (op != 0x10 && fld x 63 56 != 0) }

/-- Source operands an opcode uses (R159); `none` for an invalid opcode. -/
def lArity (op : Nat) : Option Nat :=
  if op = 0x01 ∨ op = 0x0E ∨ op = 0x0F ∨ (0x20 ≤ op ∧ op ≤ 0x23) then some 1
  else if (0x02 ≤ op ∧ op ≤ 0x04) ∨ op = 0x06 ∨ op = 0x07 ∨ (0x0A ≤ op ∧ op ≤ 0x0C) then some 2
  else if op = 0x05 ∨ op = 0x08 ∨ op = 0x09 ∨ op = 0x0D then some 3
  else if op = 0x10 then some 0
  else none

/-- A row instruction (R161). -/
def lRow (op : Nat) : Bool := 0x20 ≤ op && op ≤ 0x23

/-- An opcode marked packable (R159). -/
def lPackable (op : Nat) : Bool := op != 0x09 && !lRow op

/-- An operand is one of the input streams. -/
def isIn (code : Nat) : Bool := 32 ≤ code && code ≤ 34

/-- The sources an instruction uses, with their modifiers. -/
def lSources (i : LInstr) : List (Nat × Nat) :=
  [(i.a, i.ma), (i.b, i.mb), (i.c, i.mc)].take ((lArity i.op).getD 0)

/-- BC, FLD and SZ of a modifier (R158). -/
def modBC (m : Nat) : Nat := m % 8
def modFLD (m : Nat) : Nat := m / 8 % 4
def modSZ (m : Nat) : Bool := m / 32 % 2 == 1
def modABS (m : Nat) : Bool := m / 64 % 2 == 1
def modNEG (m : Nat) : Bool := m / 128 % 2 == 1

/-- One source operand and its modifier are valid (R157, R158, R161). -/
def lSourceOk (d : LaneD) (s : Nat × Nat) : Bool :=
  let bc := modBC s.2
  let fld := modFLD s.2
  let code := s.1
  let codeOk := code ≤ 31 || (isIn code && code - 32 < d.nin) || code == 35 || code == 36
    || ((code == 37 || code == 38) && d.rowLen != 0) || code == 39
  let modOk := if isIn code then
      bc ≤ 5 && (if bc == 5 then true else if bc == 3 || bc == 4 then fld ≤ 1 else fld == 0)
        && (!modSZ s.2 || bc == 1 || bc == 2) && (bc == 0 || d.rowLen != 0)
    else bc == 0 && fld == 0 && !modSZ s.2
  codeOk && modOk

/-- One instruction is valid on its own (R156–R159). -/
def lInstrOk (d : LaneD) (i : LInstr) : Bool :=
  match lArity i.op with
  | none => false
  | some n =>
    let unused := ([(i.a, i.ma), (i.b, i.mb), (i.c, i.mc)].drop n)
    let unusedOk := if i.op = 0x23 then 1 ≤ i.b && i.b ≤ 16 && i.mb == 0 && i.c == 0 && i.mc == 0
      else unused.all fun s => s.1 == 0 && s.2 == 0
    !i.rsvd && unusedOk && (i.dst ≤ 31 || i.dst == 63) && (lSources i).all (lSourceOk d)

/-- Input stream `j` (32–34) is read with one BC value throughout (R161); the value, 0 when it is not read. -/
def lBC (p : List LInstr) (j : Nat) : Nat :=
  match (p.flatMap lSources).find? fun s => s.1 == j with
  | some s => modBC s.2
  | none => 0

/-- Input stream `j` is read by the program. -/
def lReads (p : List LInstr) (j : Nat) : Bool := (p.flatMap lSources).any fun s => s.1 == j

/-- The whole program obeys R156–R161 and the packed rules; overlap is checked apart. -/
def lProgOk (d : LaneD) (p : List LInstr) : Bool :=
  match p.getLast? with
  | none => false
  | some last =>
    let front := p.dropLast
    let row := lRow last.op
    let packed := p.any fun i => i.pk
    p.all (lInstrOk d) && last.dst == 63 && (front.all fun i => i.dst != 63 && !lRow i.op)
      && ([32, 33, 34].all fun j => (p.flatMap lSources).all fun s => s.1 != j || modBC s.2 == lBC p j)
      && (!row || (d.rowLen != 0 && (last.op != 0x23 || last.b ≤ d.rowLen) && d.fmtOut == 1 && d.block == 0 && !d.modeF && !d.stoch))
      && (!packed || ((p.all fun i => i.pk && lPackable i.op) && d.fmtIn == 2 && d.fmtOut == 2
          && (p.flatMap lSources).all fun s => s.1 != 37 && s.1 != 38 && s.1 != 39 && modBC s.2 ≤ 2))

/-- Rows of the descriptor. -/
def laneRows (d : LaneD) : Nat := if d.rowLen = 0 then 1 else d.elems / d.rowLen

/-- Bytes of an input stream (table *Lane ranges*, R163). -/
def laneInBytes (d : LaneD) (bc : Nat) : Nat :=
  let w := fmtBits d.fmtIn / 8
  if bc = 0 then d.elems * w
  else if bc = 1 then d.rowLen * w
  else if bc = 2 then laneRows d * w
  else if bc = 3 then d.rowLen * 8
  else if bc = 4 then laneRows d * 8
  else laneRows d * 16

/-- Bytes of the output (table *Lane ranges*, R163). -/
def laneOutBytes (d : LaneD) (last : LInstr) : Nat :=
  if last.op = 0x20 ∨ last.op = 0x21 then laneRows d * 4
  else if last.op = 0x22 then laneRows d * 16
  else if last.op = 0x23 then laneRows d * last.b * 8
  else if d.rowLen = 0 then rowLen d.fmtOut d.block d.elems
  else laneRows d * rowLen d.fmtOut d.block d.rowLen

/-- Two half-open spans overlap. -/
def spansOverlap (a b : Nat × Nat) : Bool := decide (a.1 < b.2) && decide (b.1 < a.2) && decide (a.1 < a.2) && decide (b.1 < b.2)

/-- The instructions of a lane program. -/
def laneProg (rd : Nat → Nat → Bytes) (d : LaneD) : List LInstr :=
  (List.range d.count).map fun i => linstrOf (rd (d.lp + 8 * i) 8)

/-- The input streams read, each with its address and BC. -/
def laneInputs (d : LaneD) (p : List LInstr) : List (Nat × Nat × Nat) :=
  [(32, d.in0), (33, d.in1), (34, d.in2)].filterMap fun x => if lReads p x.1 then some (x.1, x.2, lBC p x.1) else none

/-- The spans a LANE reads: its program and its inputs (R163). -/
def laneReads (d : LaneD) (p : List LInstr) : List (Nat × Nat) :=
  (d.lp, d.lp + 8 * d.count) :: (laneInputs d p).map fun x => (x.2.1, x.2.1 + laneInBytes d x.2.2)

/-- The span a LANE writes. -/
def laneWrites (d : LaneD) (p : List LInstr) : List (Nat × Nat) :=
  match p.getLast? with
  | none => []
  | some last => [(d.out, d.out + laneOutBytes d last)]

/-- The overlap rule of R163, with its exception for an element-wise program in place. -/
def laneOverlapOk (d : LaneD) (p : List LInstr) : Bool :=
  let last := p.getLast?
  let elementwise := match last with
    | some l => !lRow l.op
    | none => false
  (laneWrites d p).all fun w =>
    !spansOverlap w (d.lp, d.lp + 8 * d.count)
      && (laneInputs d p).all fun x =>
        !spansOverlap w (x.2.1, x.2.1 + laneInBytes d x.2.2)
          || (elementwise && x.1 == 32 && x.2.2 == 0 && d.out == d.in0 && d.fmtIn == d.fmtOut && fmtWide d.fmtOut)

/-- Every range lies in work memory (R82, R92); the load check cannot see the ranges (log entry 35). -/
def laneInWork (d : LaneD) (p : List LInstr) : Bool := (laneReads d p ++ laneWrites d p).all fun r => 0x20000 ≤ r.1 && r.2 ≤ 0x80000

/-- The check at issue (R163). -/
def laneOk (d : LaneD) (p : List LInstr) : Bool := lProgOk d p && laneOverlapOk d p && laneInWork d p

/-- An exact value rounded to BF16, as an FP32 pattern (packed programs). -/
def toBf16 : Fv → Nat
  | .nan => f32Nan
  | .inf s => f32Inf s
  | .fin s m e =>
    let r := roundGrid 8 (-133) m e
    match fpPack ⟨8, 7, 127, .ieee⟩ s r.1 r.2 with
    | some b => b * 65536
    | none => f32Inf s

/-- MAX and MIN of R159 on exact values. -/
def fvMax (a b : Fv) : Fv :=
  if fvIsNan a || fvIsNan b then .nan else if fvEq a b then (if fvSign a then b else a) else if fvLt a b then b else a
def fvMin (a b : Fv) : Fv :=
  if fvIsNan a || fvIsNan b then .nan else if fvEq a b then (if fvSign a then a else b) else if fvLt a b then a else b

/-- 1.0 or +0. -/
def fvBool (b : Bool) : Fv := .fin false (b2n b) 0

/-- The exact result of an element-wise opcode (R159). -/
def lExec (op : Nat) (a b c : Fv) (k : Nat) : Fv :=
  if op = 0x01 then a
  else if op = 0x02 then fvAdd a b
  else if op = 0x03 then fvAdd a (fvNeg b)
  else if op = 0x04 then fvMul a b
  else if op = 0x05 then fvAdd (fvMul a b) c
  else if op = 0x06 then fvMax a b
  else if op = 0x07 then fvMin a b
  else if op = 0x08 then fvMin (fvMax a b) c
  else if op = 0x09 then (if fvIsNan a then .fin false 0 0 else fvMin (fvMax a b) c)
  else if op = 0x0A then fvBool (fvLt a b)
  else if op = 0x0B then fvBool (fvLe a b)
  else if op = 0x0C then fvBool (fvEq a b)
  else if op = 0x0D then (if fvIsZero a then c else b)
  else if op = 0x0E then fvFloor a
  else if op = 0x0F then fvRint a
  else f32 k

/-- What SATC adds to the census (R160). -/
def satcCnt (a b c : Fv) : Cnt :=
  { sats := b2n (fvLt a b || fvLt c a), nonfin := b2n (fvIsNan a) }

/-- An input element of a stream in a wide format, widened exactly to FP32 (R157). -/
def wideElem (env : Env) (fmt addr : Nat) : Nat :=
  let w := fmtBits fmt / 8
  if env.poisoned addr w then 0 else toF32 (decodeElem fmt (leNat (env.rd addr w)))

/-- The FP32 word at an address, for ROWP, COLP and COLQ (R164). -/
def wordElem (env : Env) (addr : Nat) : Nat := if env.poisoned addr 4 then 0 else leNat (env.rd addr 4)

/-- What an input supplies to element (r, c) (R164); SZ supplies the same value (R165). -/
def lInput (env : Env) (d : LaneD) (code m e r c : Nat) : Nat :=
  let base := if code = 32 then d.in0 else if code = 33 then d.in1 else d.in2
  let w := fmtBits d.fmtIn / 8
  let bc := modBC m
  if bc = 0 then wideElem env d.fmtIn (base + e * w)
  else if bc = 1 then wideElem env d.fmtIn (base + c * w)
  else if bc = 2 then wideElem env d.fmtIn (base + r * w)
  else if bc = 3 then wordElem env (base + c * 8 + 4 * modFLD m)
  else if bc = 4 then wordElem env (base + r * 8 + 4 * modFLD m)
  else wordElem env (base + r * 16 + 4 * modFLD m)

/-- A source operand's value with its modifier applied: ABS first, NEG after (R157, R158). -/
def lSource (env : Env) (d : LaneD) (ts : AMap Nat) (e : Nat) (s : Nat × Nat) : Fv :=
  let r := if d.rowLen = 0 then 0 else e / d.rowLen
  let c := if d.rowLen = 0 then e else e % d.rowLen
  let v := if s.1 ≤ 31 then tget 0 ts s.1
    else if isIn s.1 then lInput env d s.1 s.2 e r c
    else if s.1 = 36 then 0x3F800000
    else if s.1 = 37 then f32OfNat r
    else if s.1 = 38 then f32OfNat c
    else if s.1 = 39 then f32OfNat e
    else 0
  let x := f32 v
  let y := if modABS s.2 then fvAbs x else x
  if modNEG s.2 then fvNeg y else y

/-- One instruction run for element `e`: the value of its destination and what it counts. -/
def lStep (env : Env) (d : LaneD) (ts : AMap Nat) (e : Nat) (i : LInstr) : Nat × Cnt :=
  let a := lSource env d ts e (i.a, i.ma)
  let n := (lArity i.op).getD 0
  let b := if 2 ≤ n then lSource env d ts e (i.b, i.mb) else .fin false 0 0
  let c := if 3 ≤ n then lSource env d ts e (i.c, i.mc) else .fin false 0 0
  let v := lExec i.op a b c i.k
  (if i.pk then toBf16 v else toF32 v, if i.op = 0x09 then satcCnt a b c else {})

/-- A list of instructions run for element `e`; the temporaries after it and the counts. -/
def lRun (env : Env) (d : LaneD) (e : Nat) : List LInstr → AMap Nat → Cnt → AMap Nat × Cnt
  | [], ts, n => (ts, n)
  | i :: is, ts, n =>
    let r := lStep env d ts e i
    lRun env d e is (tset ts i.dst r.1) (n.add r.2)

/-- The combination of 64 partials by the fixed tree of R167; `fuel` 6 suffices. -/
def treeFold (f : Nat → Nat → Nat) : Nat → List Nat → Nat
  | 0, l => l.headD 0
  | fuel + 1, l =>
    match l with
    | [] => 0
    | [x] => x
    | _ => treeFold f fuel ((chunksOf 2 (l.length + 1) l).map fun p => match p with
      | [a, b] => f a b
      | [a] => a
      | _ => 0)

/-- The values of lane `l` of a row, in ascending column (R167). -/
def laneCols (xs : List Nat) (l : Nat) : List Nat :=
  (List.range (cdiv (xs.length - l) 64)).map fun i => xs.getD (64 * i + l) 0

/-- RSUM of a row (R167, R168). -/
def rsum (xs : List Nat) : Nat :=
  treeFold f32Add 6 ((List.range 64).map fun l => (laneCols xs l).foldl f32Add 0)

/-- RMAX of a row (R167, R168). -/
def rmax (xs : List Nat) : Nat :=
  treeFold f32Max 6 ((List.range 64).map fun l => (laneCols xs l).foldl f32Max 0xFF800000)

/-- A row-statistics triple (R170). -/
structure Triple where
  n : Nat
  mean : Nat
  m2 : Nat
  deriving DecidableEq, Repr

/-- RSTAT of a row (R170). -/
def rstat (xs : List Nat) : Triple :=
  let shift := xs.headD 0
  let ds := xs.map fun x => f32Sub x shift
  let s1 := treeFold f32Add 6 ((List.range 64).map fun l => (laneCols ds l).foldl f32Add 0)
  let s2 := treeFold f32Add 6 ((List.range 64).map fun l => (laneCols ds l).foldl (fun s x => f32Fma x x s) 0)
  let n := f32OfNat xs.length
  let md := toF32 (fvDiv (f32 s1) (.fin false xs.length 0))
  let mean := f32Add shift md
  let nm := toF32 (fvMul (.fin false xs.length 0) (f32 md))
  let m2 := f32Fma (f32Neg nm) md s2
  ⟨n, mean, if fvSign (f32 m2) && !f32IsNan m2 then 0 else m2⟩

/-- The moment-merge operator (R172). -/
def momentMerge (a b : Triple) : Triple :=
  if fvIsZero (f32 a.n) then b
  else if fvIsZero (f32 b.n) then a
  else
    let n := f32Add a.n b.n
    let delta := f32Sub b.mean a.mean
    let mean := f32Add a.mean (f32Mul delta (f32Div b.n n))
    let w := toF32 (fvDiv (fvMul (f32 a.n) (f32 b.n)) (f32 n))
    let m2 := f32Add (f32Add a.m2 b.m2) (f32Mul (f32Mul delta delta) w)
    ⟨n, mean, m2⟩

/-- `a` ranks before `b` in TOPK: NaN above +∞, then descending value, then ascending column (R169). -/
def topkBefore (a b : Nat × Nat) : Bool :=
  let x := f32 a.1
  let y := f32 b.1
  match fvIsNan x, fvIsNan y with
  | true, true => decide (a.2 < b.2)
  | true, false => true
  | false, true => false
  | false, false => fvLt y x || (fvEq x y && decide (a.2 < b.2))

/-- A record inserted in TOPK order. -/
def topkInsert (x : Nat × Nat) : List (Nat × Nat) → List (Nat × Nat)
  | [] => [x]
  | y :: l => if topkBefore x y then x :: y :: l else y :: topkInsert x l

/-- TOPK of a row: the K first (value, column) records (R169). -/
def topk (k : Nat) (xs : List Nat) : List (Nat × Nat) :=
  ((xs.mapIdx fun c x => (x, c)).foldl (fun l x => (topkInsert x l).take k) []).take k

/-- A value written to FP32 output through the drain path, with its counts. -/
def drainF32 (x : Nat) : Bytes × Cnt := let r := drainWide 1 x; (leBytes 4 r.1, r.2)

/-- The record a row instruction writes for one row and what the census counts (R168). -/
def rowRecord (op k : Nat) (xs : List Nat) : Bytes × Cnt :=
  if op = 0x20 then drainF32 (rsum xs)
  else if op = 0x21 then drainF32 (rmax xs)
  else if op = 0x22 then
    let t := rstat xs
    let a := drainF32 t.mean
    let b := drainF32 t.m2
    (leBytes 4 t.n ++ a.1 ++ b.1 ++ zeros 4, a.2.add b.2)
  else
    let rs := (topk k xs).map fun x => (drainF32 x.1, x.2)
    ((rs.map fun r => r.1.1 ++ leBytes 4 r.2).flatten, (rs.map fun r => r.1.2).foldl Cnt.add {})

/-- What an arithmetic descriptor of the vector engine does: the bytes written at OUT, its counts and soft faults, and the lanes of the
register file it leaves written, in order. -/
structure VecOut where
  bytes : Bytes
  cnt : Cnt
  softs : List Nat
  regs : List (Nat × Nat) := []
  deriving DecidableEq, Repr

/-- A granule of some input is poisoned (R222). -/
def lanePois (env : Env) (d : LaneD) (p : List LInstr) : Bool :=
  env.poisoned d.lp (8 * d.count) || (laneInputs d p).any fun x => env.poisoned x.2.1 (laneInBytes d x.2.2)

/-- The register lane, and the half of it in a packed program, that a temporary of element `e` lies in (R154, R167): registers 0–31 for
even element groups and 32–63 for odd ones, 64 elements or 128 packed ones to a group, a row program's groups row by row. -/
def regOf (d : LaneD) (row packed : Bool) (e t : Nat) : Nat × Nat :=
  let per := if packed then 128 else 64
  let (g, k) := if row then (e / d.rowLen * cdiv d.rowLen 64 + e % d.rowLen / 64, e % d.rowLen % 64) else (e / per, e % per)
  (64 * (t + 32 * (g % 2)) + (if packed then k / 2 else k), if packed then 1 + k % 2 else 0)

/-- A temporary's value put in its register lane: whole, or a BF16 value in the lower (1) or upper (2) half. -/
def regPut (m : AMap Nat) (key half v : Nat) : AMap Nat :=
  let o := tget 0 m key
  tset m key (if half = 0 then v else if half = 1 then o / 65536 * 65536 + v / 65536 else o % 65536 + v / 65536 * 65536)

/-- The register lanes that a LANE's elements write, one after another. -/
def regWrites (d : LaneD) (row packed : Bool) (temps : List (AMap Nat)) : AMap Nat :=
  (temps.zipIdx).foldl (fun m x => (x.1.filter fun t => t.1 < 32).foldl (fun m t =>
    let r := regOf d row packed x.2 t.1
    regPut m r.1 r.2 t.2) m) []

/-- Elements that a LANE writes through the drain path (R168): those the census counts. -/
def laneWritten (d : LaneD) (last : LInstr) : Nat :=
  if last.op = 0x20 ∨ last.op = 0x21 then laneRows d
  else if last.op = 0x22 then 2 * laneRows d
  else if last.op = 0x23 then laneRows d * last.b
  else d.elems

/-- A LANE descriptor's work (R92, R156–R170). `draw e` is the draw of element e. A program that fails its check, or is poisoned, writes
zeros, which count as zeros and as elements written (R128), over the range that its last instruction gives, cut at the end of SRAM
(DESIGN CHOICE: log entry 35). -/
def laneRun (env : Env) (d : LaneD) (draw : Nat → Nat) : VecOut :=
  let p := laneProg env.rd d
  match p.getLast? with
  | none => ⟨[], {}, [], []⟩
  | some last =>
    if !laneOk d p || env.poisoned d.lp (8 * d.count) then
      ⟨zeros (min (laneOutBytes d last) (0x80000 - d.out)), { nonfin := 1, zeros := laneWritten d last, elems := laneWritten d last }, if env.poisoned d.lp (8 * d.count) then [0x80] else [0x81], []⟩
    else
      let pois := lanePois env d p
      let extra : Cnt := { nonfin := b2n pois }
      let softs := if pois then [0x80] else []
      let front := p.dropLast
      if lRow last.op then
        let rows := (List.range (laneRows d)).map fun r => (List.range d.rowLen).map fun c =>
          let e := r * d.rowLen + c
          let x := lRun env d e front [] {}
          (toF32 (lSource env d x.1 e (last.a, last.ma)), x.2, x.1)
        let recs := rows.map fun row => rowRecord last.op last.b (row.map (·.1))
        let pre := (rows.flatten.map (·.2.1)).foldl Cnt.add extra
        ⟨(recs.map (·.1)).flatten, (recs.map (·.2)).foldl Cnt.add pre, softs, regWrites d true false (rows.flatten.map (·.2.2))⟩
      else
        let vals := (List.range d.elems).map fun e =>
          let x := lRun env d e p [] {}
          (tget 0 x.1 63, x.2, x.1)
        let dr : Drain := ⟨d.fmtOut, d.block, d.modeF, d.stoch⟩
        let l := if d.rowLen = 0 then d.elems else d.rowLen
        let outs := (chunksOf l (d.elems + 1) (vals.map (·.1))).mapIdx fun r xs =>
          let o := drainRun dr (fun i => draw (r * l + i)) xs
          (rowBytes dr o.1 o.2.1, o.2.2)
        let pre := (vals.map (·.2.1)).foldl Cnt.add extra
        ⟨(outs.map (·.1)).flatten, (outs.map (·.2)).foldl Cnt.add pre, softs, regWrites d false last.pk (vals.map (·.2.2))⟩

end Sys2Proof.Machine
end

