-- ==== Sys2Proof/Machine/Atomics.lean ====
section
/-! DEFINITION. Shared-cache atomics and the ordered scatter-add (R208–R213), performed one granule, or one contribution, at
a time at a segment's slice. -/

namespace Sys2Proof.Machine

/-- The source number of the slice that serves a byte of a segment (R35, R206, R207). -/
def sliceSource (s : State) (d : Nat) (e : Seg) (off : Nat) : Nat := 0x820 + sliceQuarter s d e off

/-- Element bytes of an atomic (R209); a CAS source element is a pair. -/
def aopBytes (aop : Nat) : Nat := if aop = 2 then 2 else if [4, 9, 10, 12].contains aop then 8 else 4

/-- BF16 words widened to FP32, and an exact sum rounded once to BF16 (R209). -/
def bf16Add (a b : Nat) : Nat := toBf16 (fvAdd (decodeElem 2 a) (decodeElem 2 b)) / 65536

/-- The result an element operation writes (R209): `d` is the destination, `x` the source. -/
def aopResult (aop d x : Nat) : Nat :=
  let lt := fun w a b => decide (sext w a < sext w b)
  if aop = 1 then f32Add d x
  else if aop = 2 then bf16Add d x
  else if aop = 3 then (d + x) % 2 ^ 32
  else if aop = 4 then (d + x) % 2 ^ 64
  else if aop = 5 then f32Min d x
  else if aop = 6 then f32Max d x
  else if aop = 7 then (if lt 32 x d then x else d)
  else if aop = 8 then (if lt 32 d x then x else d)
  else if aop = 9 then (if lt 64 x d then x else d)
  else (if lt 64 d x then x else d)

/-- One granule of element operations (R209, R210): the destination bytes after. -/
def aopGranule (aop : Nat) (d x : Bytes) : Bytes :=
  let w := aopBytes aop
  ((chunksOf w (d.length + 1) d).zip (chunksOf w (x.length + 1) x)).flatMap fun e => leBytes w (aopResult aop (leNat e.1) (leNat e.2))

/-- CAS over pairs (R211): the destination after, and the source pairs with the old bits over the compare word. -/
def casGranule (w : Nat) (d x : Bytes) : Bytes × Bytes :=
  let rs := ((chunksOf w (d.length + 1) d).zip (chunksOf (2 * w) (x.length + 1) x)).map fun e =>
    let cmp := e.2.take w
    let new := e.2.drop w
    (if e.1 == cmp then new else e.1, e.1 ++ new)
  (rs.flatMap (·.1), rs.flatMap (·.2))

/-- FP32 rows added element by element (R213). -/
def addRows (a b : Bytes) : Bytes := ((chunksOf 4 (a.length + 1) a).zip (chunksOf 4 (b.length + 1) b)).flatMap fun e =>
  leBytes 4 (f32Add (leNat e.1) (leNat e.2))

/-- The sum of staging rows in ascending rank (R213). -/
def sumRows (rows : List Bytes) : Bytes := match rows with
  | [] => []
  | r :: rs => rs.foldl addRows r

/-- A stray contribution: discarded, logged and counted in tag 1,023 (R213). -/
def ordsumStray (d core : Nat) (e : Seg) (off rank : Nat) (s : State) : State :=
  censusAdd (emit s (sliceSource s d e off) 0x0C2 sevError d [d, e.dbase + off, rank]) d 1023 core { nonfin := 1 }

/-- One ORDSUM contribution performed at its record (R212, R213): `poison` marks a poisoned contribution, which poisons the
result row whole (R323). A stray is logged and counted in tag 1,023. -/
def ordsum (d core : Nat) (e : Seg) (off rank : Nat) (vals : Bytes) (poison : Bool) (s : State) : State :=
  let h := segRead s e off 64
  let expect := fld h 15 0
  let arrived := fld h 31 16
  let len := fld h 40 32 * 64
  if !expect.testBit rank || arrived.testBit rank then
    ordsumStray d core e off rank s
  else
    let row := off + 64 + rank * len
    let s := segWrite s e row (slice vals 0 len)
    let s := if poison then segMark s e (granules row len) else s
    let arr := arrived ||| 2 ^ rank
    if arr ≠ expect then segWrite s e (off + 2) (leBytes 2 arr)
    else
      let ranks := setBits 16 expect
      let stage := ranks.getLastD 0 + 1
      let result := off + 64 + stage * len
      let pois := ranks.any fun r => segPoison s e (off + 64 + r * len) len != []
      let s := segWrite s e result (sumRows (ranks.map fun r => segRead s e (off + 64 + r * len) len))
      let s := if pois then segMark s e (granules result len) else s
      segWrite s e off (pack 8 [(16, expect), (16, 0), (9, fld h 40 32), (7, 0), (1, 1)])

end Sys2Proof.Machine
end

