-- ==== Sys2Proof/Machine/Collectives.lean ====
section
/-! DEFINITION. Collectives (R266–R290): plans, instances, rings, the reduction of a chunk, messages, integrity, aborts. -/

namespace Sys2Proof.Machine

/-! ## Plans (R271–R273) -/

/-- A chunk record (R271). -/
def chunkRecOf (b : Bytes) : ChunkRec :=
  { units := fld b 18 0, owner := fld b 31 19, peer := fld b 44 32, coded := bit b 45, slot := fld b 47 46 }

/-- A plan image's fields (R271). -/
def planOf (b : Bytes) : Plan :=
  { op := fld b 43 40, redop := fld b 47 44, fmt := fld b 55 48, acc := bit b 56, early := bit b 57, root := fld b 76 64
    chunks := (chunksOf 8 (fld b 92 80) (b.drop 32)).map chunkRecOf }

/-- The format of a plan image (R272): MAGIC, VERSION, reserved bits, LENGTH. -/
def planFormatOk (b : Bytes) : Bool :=
  fld b 31 0 == 0x4E414C50 && fld b 39 32 == 1 && zeroAt b [(63, 58), (79, 77), (255, 93)]
    && b.length == 32 + 8 * fld b 92 80
    && (chunksOf 8 (fld b 92 80) (b.drop 32)).all fun c => zeroAt c [(63, 48)]

/-- The argument checks of R271 and R272 for a group of P members. -/
def planArgsOk (p : Plan) (n : Nat) : Bool :=
  let a2a := p.op == 5 || p.op == 6
  1 ≤ p.op && p.op ≤ 6 && p.redop ≤ 4 && fmtValid p.fmt && 1 ≤ p.chunks.length && p.chunks.length ≤ 4096
    && (if p.op ≤ 2 then p.redop != 0 else p.redop == 0)
    && (if 1 ≤ p.redop ∧ p.redop ≤ 3 then p.fmt ≤ 3 else true) && (p.redop != 4 || p.fmt == 1)
    && (p.op != 6 || n == 2) && (if p.op = 4 then p.root < n else p.root == 0)
    && p.chunks.all fun c =>
      1 ≤ c.units && c.units ≤ 262144 && c.owner < n && (if a2a then c.peer < n && (p.op == 6 || c.peer != c.owner) else c.peer == 0)
        && (c.coded || c.slot == 0)

/-- PLAN_SIG (R272, R313): CRC-32C of an image followed by GROUP_TAG. -/
def planSig (b : Bytes) (tag : BitVec 64) : Nat := crc32c (b ++ leBytes 8 tag.toNat)

/-- The chunks that satisfy a test, by index. -/
def chunksWhere (p : Plan) (f : ChunkRec → Bool) : List Nat := ((p.chunks.zipIdx).filter fun c => f c.1).map (·.2)

/-- What the member at a position puts in an instance (R273). -/
def mustPut (p : Plan) (pos : Nat) : List Nat :=
  if p.op ≤ 2 then List.range p.chunks.length
  else if p.op = 4 then (if pos = p.root then List.range p.chunks.length else [])
  else chunksWhere p fun c => c.owner == pos

/-- What it takes (R273). -/
def mustTake (p : Plan) (pos : Nat) : List Nat :=
  if p.op = 1 then List.range p.chunks.length
  else if p.op = 2 then chunksWhere p fun c => c.owner == pos
  else if p.op = 3 then chunksWhere p fun c => c.owner != pos
  else if p.op = 4 then (if pos = p.root then [] else List.range p.chunks.length)
  else chunksWhere p fun c => c.peer == pos

/-! ## The dispatch binding (R313, R314) -/

def bKUse (b : Bytes) : Nat := fld b 12 8
def bKRec (b : Bytes) : Nat := fld b 20 16
def bNext (b : Bytes) : Bool := bit b 24
def bEvt (b : Bytes) : Bool := bit b 25
def bFmtTok (b : Bytes) : Nat := fld b 39 32
def bFmtOut (b : Bytes) : Nat := fld b 47 40
def bTB (b : Bytes) : Nat := fld b 63 48
def bNBlk (b : Bytes) : Nat := fld b 79 64
def bQ (b : Bytes) : Nat := fld b 95 80
def bEBase (b : Bytes) : Nat := fld b 111 96
def bNExp (b : Bytes) : Nat := fld b 127 112
def bNLocal (b : Bytes) : Nat := fld b 143 128
def bInboxSeg (b : Bytes) : Nat := fld b 151 144
def bCombSeg (b : Bytes) : Nat := fld b 159 152
def bRowB (b : Bytes) : Nat := fld b 191 160
def bRowLen (b : Bytes) : Nat := fld b 200 192
def bNPart (b : Bytes) : Nat := fld b 203 201 + 1
def bStride (b : Bytes) : Nat := fld b 255 224
def bInboxOff (b : Bytes) : Nat := fld b 319 256
def bCombOff (b : Bytes) : Nat := fld b 383 320
def bDeadline (b : Bytes) (c : Nat) : Nat := fld b (384 + 32 * c + 15) (384 + 32 * c)
def bFallback (b : Bytes) (c : Nat) : Nat := fld b (384 + 32 * c + 17) (384 + 32 * c + 16)

/-- CAP, OROWB and RECB (R313). -/
def bCap (b : Bytes) (p : Nat) : Nat := p * bQ b
def bORowB (b : Bytes) : Nat := bNPart b * bRowLen b * 64 * (fmtBits (bFmtOut b) / 8) / 4
def bRecB (b : Bytes) : Nat := 64 + (bKUse b + 1) * bRowLen b * 64

/-- The puts and takes of a bound group's member (R314): chunk, bytes, format. -/
def bindPuts (b : Bytes) (p : Nat) : List (Nat × Nat × Nat) :=
  (List.range (bNBlk b)).flatMap (fun i => [(2 * i, bTB b * bKRec b * 8, 1), (2 * i + 1, bTB b * bRowB b, bFmtTok b)])
    ++ (List.range (bNLocal b)).map fun x => (0x800 + x, bCap b p * bORowB b, bFmtOut b)

def bindTakes (b : Bytes) : List (Nat × Nat × Nat) := [(0xFFE, 64 * cdiv (bNLocal b) 16, 1), (0xFFF, 64, 1)]

/-! ## A group's shape (R266, R268, R278) -/

/-- P, the member count. -/
def gP (x : Group) : Nat := x.members.length

/-- The wards of the members, in the order they first appear. -/
def wardsOf (x : Group) : List Nat := (x.members.map fun m => wardOf m.id).foldl nsAdd []

/-- The group is hierarchical (R268). -/
def hier (s : State) (x : Group) : Bool := s.links.cfg.ward && !x.flat && 1 < (wardsOf x).length

/-- M and W (R268); a flat ring is one ward of P members. -/
def gM (s : State) (x : Group) : Nat := if hier s x then gP x / (wardsOf x).length else gP x
def gW (s : State) (x : Group) : Nat := if hier s x then (wardsOf x).length else 1

/-- The position of a device ID in the list. -/
def posOf (x : Group) (id : Nat) : Option Nat := x.members.findIdx? fun m => m.id == id

/-- The format and length a put or take must have (R275, R284, R314). -/
def chunkForm (x : Group) (put : Bool) (c : Nat) : Option (Nat × Nat) :=
  match x.plan, x.bind with
  | some p, _ => (p.chunks[c]?).map fun r => (r.units * 64, p.fmt)
  | none, some b => ((if put then bindPuts b (gP x) else bindTakes b).find? fun e => e.1 == c).map (·.2)
  | none, none => none

/-- The puts or takes that R273 or R314 lists for this member. -/
def listed (x : Group) (put : Bool) : List Nat :=
  match x.plan, x.bind with
  | some p, _ => if put then mustPut p x.myPos else mustTake p x.myPos
  | none, some b => (if put then bindPuts b (gP x) else bindTakes b).map (·.1)
  | none, none => []

/-! ## Events and state of a group -/

/-- A collective event (R291). -/
def collEvent (s : State) (x : Group) (kind sev : Nat) (payload : List Nat) : State := emit s 0x888 kind sev x.dist payload

/-- The device ID of a position. -/
def idAt (x : Group) (pos : Nat) : Nat := (x.members.getD pos ⟨0, none⟩).id

/-- A notice or request to one member on the ERROR channel, directly or through its relay (R282, R286, R287, R289): kinds 0
acknowledgements, 1 resend request, 2 taint, 3 abort; the spec gives its meaning, not its bytes. -/
def errorMsg (s : State) (x : Group) (pos kind : Nat) (args : List Nat) : State :=
  let hop := if tget 0 s.links.cfg.routes (idAt x pos) != 0 then some pos else (x.members.getD pos ⟨0, none⟩).relay
  match hop with
  | some q => sysSend s 66 0xFFFFFF (idAt x q) kind (args ++ [pos]) []
  | none => s

/-- The other members' positions. -/
def others (x : Group) : List Nat := (List.range (gP x)).filter (· != x.myPos)

/-- An issued descriptor waits on a group: a COLL, or a SEND MATMUL with tiles outstanding (R151, R289). -/
def waitsOn (g : Nat) (i : Issued) : Bool :=
  let b := i.q.raw
  !workDone i && ((fld b 7 0 == 7 && fld b 133 128 == g) || (fld b 7 0 == 1 && bit b 155 && fld b 359 354 == g))

/-- The descriptors of a district that wait on a group: core and index. -/
def waiters (s : State) (d g : Nat) : List (Nat × Nat) :=
  (getDist s d).cores.flatMap fun c => (c.2.issued.filter (waitsOn g)).map fun i => (c.1, i.q.idx)

/-- An abort (R289): the group becomes ABORTED, its instances and staging go, waiting descriptors take COLL_ABORTED, the
gate takes FAULT. The member that detects it notifies every other. -/
def abortGroup (g cause detector : Nat) (s : State) : State :=
  match getGroup s g with
  | none => s
  | some x =>
    if x.state = 3 then s
    else
      let s := setGroup s g { x with state := 3, cur := none, nxt := none, pre := none, reqs := [], inbox := [], kept := [], acks := [], checks := [], fails := [], disp := {} }
      let s := collEvent s x 0x111 sevError [g, x.seq, cause, detector]
      let s := if cause = 9 then s else (others x).foldl (fun s p => errorMsg s x p 3 [g, x.seq, detector]) s
      let s := (waiters s x.dist g).foldl (fun s r => hardFault s x.dist r.1 r.2 6) s
      modGate s x.dist fun q => { q with fault := true }

/-- An abort detected here. -/
def abortHere (g cause : Nat) (s : State) : State := abortGroup g cause (ownId s) s

/-- An instance opened. -/
def openInst (s : State) (seq : Nat) : Inst := { gseq := seq, tOpen := time s }

/-- Instance `seq` of a group as far as it goes: open, or with what messages have brought before it opens (R274). -/
def liveInst (x : Group) : Option Inst := x.cur.orElse fun _ => x.pre

/-- Instance `seq` of a group changed. -/
def modCur (s : State) (g : Nat) (f : Inst → Inst) : State :=
  modGroup s g fun x => match x.cur with
    | some i => { x with cur := some (f i), progress := time s }
    | none => { x with pre := some (f (x.pre.getD (openInst s x.seq))) }

/-- Instance `seq` marked TAINTED (R287): the gate takes TAINT. -/
def markTaint (s : State) (g : Nat) : State :=
  match getGroup s g with
  | none => s
  | some x => modGate (modCur s g fun i => { i with tainted := true }) x.dist fun q => { q with taint := true }

/-! ## Chunk arithmetic (R172, R277, R279) -/

/-- The elements of bytes, each widened exactly to FP32. -/
def widen (fmt : Nat) (b : Bytes) : List Nat :=
  (List.range (b.length * 8 / fmtBits fmt)).map fun i => toF32 (decodeElem fmt (elemAt (fmtBits fmt) b i))

/-- FP32 values rounded once to a format, round-to-nearest-even. -/
def narrow (fmt : Nat) (xs : List Nat) : Bytes := packElems (fmtBits fmt) (xs.map fun x => (drainWide fmt x).1)

/-- op(v_in, x): the arriving partial is the left operand (R277, R279). Both are FP32 words. -/
def redOp (redop : Nat) (a b : List Nat) : List Nat :=
  if redop = 4 then
    let ra := chunksOf 4 (a.length + 1) a
    let rb := chunksOf 4 (b.length + 1) b
    (ra.zip rb).flatMap fun r =>
      let t := momentMerge ⟨r.1.getD 0 0, r.1.getD 1 0, r.1.getD 2 0⟩ ⟨r.2.getD 0 0, r.2.getD 1 0, r.2.getD 2 0⟩
      [t.n, t.mean, t.m2, 0]
  else (a.zip b).map fun e => if redop = 1 then f32Add e.1 e.2 else if redop = 2 then f32Max e.1 e.2 else f32Min e.1 e.2

/-- The format partials of a plan travel in (R279). -/
def partFmt (p : Plan) : Nat := if p.acc then p.fmt else 1

/-- The places of a coded chunk: offset and header, until the bytes hold no further place (R191, R193, R271). -/
def walkPlaces (b : Bytes) : Nat → Nat → List (Nat × Place)
  | 0, _ => []
  | fuel + 1, off =>
    let h := placeOf (slice b off 8)
    if off + 8 ≤ b.length ∧ placeHdrOk h then (off, h) :: walkPlaces b fuel (off + placeCap h.fmt h.block h.sparse h.nelem) else []

/-- A district's table slots as the codec sees them (R199). -/
def slotViews (s : State) (d : Nat) : Nat → SlotView := fun i => let t := tget {} (getDist s d).tbls i; ⟨t.image, t.gen⟩

/-- The elements of a coded chunk with the places they came from; an erring place reads as +0 (R203). -/
def codedElems (v : Nat → SlotView) (b : Bytes) : List (Nat × Place × List Nat) :=
  (walkPlaces b (b.length / 8 + 1) 0).map fun p =>
    let h := p.2
    let d := (decodePayload v h (slice b (p.1 + 8) h.clen)).getD (zeroPlace h h.nelem)
    (p.1, h, d.elems)

/-- A chunk's bytes as FP32 words; a coded one is decoded, each place in its own format (R279). -/
def chunkWords (s : State) (d fmt : Nat) (coded : Bool) (b : Bytes) : List Nat :=
  if coded then (codedElems (slotViews s d) b).flatMap fun p => p.2.2.map fun e => toF32 (decodeElem p.2.1.fmt e) else widen fmt b

/-- A coded chunk decoded on arrival and encoded again with its SLOT, and how many of its places err (R198, R203, R279): such a place
reads as +0. A header that gives no size makes an erring place of all that follows; fewer than 64 bytes of padding end the
chunk (log entry 46). -/
def recodeChunk (v : Nat → SlotView) (slot : Nat) : Nat → Bytes → Bytes × Nat
  | 0, b => (b, 0)
  | fuel + 1, b =>
    let h := placeOf (slice b 0 8)
    let cap := placeCap h.fmt h.block h.sparse h.nelem
    if b.length < 8 ∨ (b.length < 64 ∧ b.take 8 = zeros 8) then (b, 0)
    else if !placeSized h || b.length < cap then (zeros b.length, 1)
    else
      let got := if placeHdrOk h then decodePayload v h (slice b 8 h.clen) else none
      let r := recodeChunk v slot fuel (b.drop cap)
      (slice (encodePlace (v slot) slot h.fmt h.block h.modeF h.sparse (got.getD (zeroFill h))) 0 cap ++ r.1, r.2 + b2n got.isNone)

/-- The element counts of a coded chunk's places. -/
def placeSizes (b : Bytes) : List Nat := (walkPlaces b (b.length / 8 + 1) 0).map (·.2.nelem)

/-- FP32 words encoded as places of the given element counts in a format, with a slot's table (R198, R279). -/
def codeWords (s : State) (d fmt slot : Nat) : List Nat → List Nat → Bytes
  | [], _ => []
  | n :: ns, xs =>
    let es := (xs.take n).map fun x => (drainWide fmt x).1
    let b := encodePlace (slotViews s d slot) slot fmt 0 false false
      { elems := es ++ List.replicate (n - es.length) 0, nibbles := [], scales := [] }
    slice b 0 (placeCap fmt 0 false n) ++ codeWords s d fmt slot ns (xs.drop n)

/-- FP32 words in a format: a coded chunk's in places like those of `shape`, with its SLOT (R279). -/
def wordsBytes (s : State) (d fmt : Nat) (r : ChunkRec) (shape : Bytes) (xs : List Nat) : Bytes :=
  if r.coded then codeWords s d fmt r.slot (placeSizes shape) xs else narrow fmt xs

/-- A chunk's final bytes in FMT (R279). -/
def finalBytes (s : State) (d : Nat) (p : Plan) (r : ChunkRec) (shape : Bytes) (xs : List Nat) : Bytes :=
  slice (wordsBytes s d p.fmt r shape xs) 0 (r.units * 64)

/-! ## Stamps (R285) -/

/-- A later member's stamp combined into a partial's. -/
def joinStamps (pos : Nat) (part own : ChunkVal) (data : Bytes) : ChunkVal :=
  { data := data, poison := part.poison || own.poison, taint := part.taint || own.taint
    latePos := if part.lateReady < own.lateReady then pos else part.latePos
    lateReady := max part.lateReady own.lateReady, earlyReady := min part.earlyReady own.earlyReady }

/-- The chunk's stamps enter the instance's record: greatest LATE_READY, ties to the lowest CHUNK; least EARLY_READY. -/
def noteStamps (i : Inst) (c : Nat) (v : ChunkVal) : Inst :=
  { i with
    late := match i.late with
      | some (r, k, p) => if r < v.lateReady ∨ (r = v.lateReady ∧ c < k) then some (v.lateReady, c, v.latePos) else some (r, k, p)
      | none => some (v.lateReady, c, v.latePos)
    early := match i.early with
      | some e => some (min e v.earlyReady)
      | none => some v.earlyReady }

/-! ## Messages (R280–R282) -/

/-- The header of a chunk message (R281). -/
def msgHeader (m : Msg) : Bytes :=
  pack 48 [(64, m.gseq), (12, m.chunk), (1, m.pass), (1, m.level), (1, b2n m.v.taint), (1, b2n m.relayed), (8, m.epoch), (8, 0),
    (32, m.sig), (32, m.crc), (13, m.v.latePos), (19, 0), (64, m.v.lateReady), (64, m.v.earlyReady)]

/-- The parts of a coded chunk that are read, written and sent (R205, R281): offset and bytes, 8 + CLEN bytes per place. After a
header that errs the rest goes as it is, unless it is only the padding to a multiple of 64 (R203, R271). DEDUCED: log entry
46. -/
def codedParts (b : Bytes) : List (Nat × Bytes) :=
  let ps := walkPlaces b (b.length / 8 + 1) 0
  let last := match ps.getLast? with
    | some p => p.1 + placeCap p.2.fmt p.2.block p.2.sparse p.2.nelem
    | none => 0
  (ps.map fun p => (p.1, slice b p.1 (8 + p.2.clen))) ++ (if last + 64 ≤ b.length then [(last, b.drop last)] else [])

/-- A coded chunk as it is sent. -/
def squeeze (b : Bytes) : Bytes := (codedParts b).flatMap (·.2)

/-- A coded chunk rebuilt from what was sent: each place in its capacity. -/
def spread : Nat → Bytes → Bytes
  | 0, b => b
  | fuel + 1, b =>
    let h := placeOf (slice b 0 8)
    if 8 ≤ b.length ∧ placeHdrOk h then
      slice (b.take (8 + h.clen)) 0 (placeCap h.fmt h.block h.sparse h.nelem) ++ spread fuel (b.drop (8 + h.clen))
    else b

/-- A chunk travels in coded form. -/
def isCoded (x : Group) (c : Nat) : Bool := match x.plan with
  | some p => (p.chunks[c]?).any (·.coded)
  | none => false

/-- The port a message to a member takes within the group's LINKS (R280). -/
def memberPort (s : State) (g : Nat) (x : Group) (pos : Nat) : Option Nat :=
  routePort s g (x.members.getD pos ⟨0, none⟩).id x.links

/-- The member has a route within LINKS (R267). -/
def hasRoute (s : State) (x : Group) (pos : Nat) : Bool :=
  tget 0 s.links.cfg.routes (x.members.getD pos ⟨0, none⟩).id &&& x.links != 0

/-- Verified mode (R286): not early-use. A bound group is verified. -/
def verified (x : Group) : Bool := match x.plan with
  | some p => !p.early
  | none => true

/-- A chunk message sent to a position (R280–R282): directly, or through that member's RELAY when it has no route; without
either, or when the message has been relayed once, the group aborts with ROUTE. -/
def sendTo (g pos : Nat) (m : Msg) (s : State) : State :=
  match getGroup s g with
  | none => s
  | some x =>
    let via : Option (Nat × Bool) :=
      if hasRoute s x pos then some (pos, m.relayed)
      else if m.relayed then none
      else match (x.members.getD pos ⟨0, none⟩).relay with
        | some r => if hasRoute s x r then some (r, true) else none
        | none => none
    match via with
    | none => abortHere g 5 s
    | some (q, rel) =>
      match memberPort s g x q with
      | none => abortHere g 4 s
      | some p =>
        let body := if isCoded x m.chunk then squeeze m.v.data else m.v.data
        let m := { m with relayed := rel, crc := crc32c body }
        let src := (x.members.getD m.src ⟨0, none⟩).id
        let s := sendMsg s p g (x.members.getD q ⟨0, none⟩).id src m.v.poison (msgHeader m ++ body)
        if verified x then modGroup s g fun x => { x with kept := x.kept ++ [⟨q, m⟩] } else s

/-- A chunk value sent on for the open instance (R277, R278, R287). -/
def passOn (g pos chunk pass level : Nat) (v : ChunkVal) (s : State) : State :=
  match getGroup s g with
  | none => s
  | some x =>
    let taint := v.taint || (liveInst x).any (·.tainted)
    sendTo g pos
      { gseq := x.seq, chunk := chunk, pass := pass, level := level, relayed := false, epoch := x.epoch, sig := x.sig, crc := 0
        src := x.myPos, v := { v with taint := taint } } s

/-! ## The path of a chunk (R277, R278) -/

/-- A value delivered here is kept for the take, and sent on along phase 3 (R278); `level` is that of its arrival. -/
def forwardDeliver (g c owner level : Nat) (v : ChunkVal) (s : State) : State :=
  match getGroup s g with
  | none => s
  | some x =>
    let m := gM s x
    let w := gW s x
    let u := x.myPos / m
    let i := x.myPos % m
    let ow := owner / m
    let oi := owner % m
    let s := if level = 1 ∧ (u + 1) % w ≠ ow then passOn g ((u + 1) % w * m + i) c 1 1 v s else s
    if level = 1 then (if 1 < m then passOn g (u * m + (i + 1) % m) c 1 0 v s else s)
    else if (i + 1) % m ≠ oi then passOn g (u * m + (i + 1) % m) c 1 0 v s
    else s

/-- The origin of a delivery sends its value on (R277, R278). -/
def startDeliver (g c owner : Nat) (v : ChunkVal) (s : State) : State :=
  match getGroup s g with
  | none => s
  | some x =>
    let m := gM s x
    let w := gW s x
    let s := if 1 < w then passOn g ((owner / m + 1) % w * m + owner % m) c 1 1 v s else s
    if 1 < m then passOn g (owner / m * m + (owner % m + 1) % m) c 1 0 v s else s

/-- A partial in the form it travels in (R279): in the partial format, a coded chunk's in places like those of `shape`. -/
def partialBytes (s : State) (d : Nat) (p : Plan) (r : ChunkRec) (shape : Bytes) (xs : List Nat) : Bytes :=
  wordsBytes s d (partFmt p) r shape xs

/-- The FP32 words of a partial. -/
def partWords (s : State) (d : Nat) (p : Plan) (r : ChunkRec) (b : Bytes) : List Nat := chunkWords s d (partFmt p) r.coded b

/-- The value where the reduce pass ends (R279): rounded to FMT, kept, and for ALL_REDUCE sent on. -/
def finishReduce (g c : Nat) (p : Plan) (r : ChunkRec) (shape : Bytes) (v : ChunkVal) (s : State) : State :=
  match getGroup s g with
  | none => s
  | some x =>
    let v := { v with data := finalBytes s x.dist p r shape (partWords s x.dist p r v.data) }
    let s := modCur s g fun i => { i with vals := tset i.vals c v }
    if p.op = 1 then startDeliver g c x.myPos v s else s

/-- The system-ring stage at the member that holds a ward total (R278): the first starts, the others combine, the last
ends the reduce pass. -/
def systemStage (g c : Nat) (p : Plan) (r : ChunkRec) (shape : Bytes) (s : State) : State :=
  match getGroup s g with
  | none => s
  | some x =>
    match x.cur with
    | none => s
    | some i =>
      match tfind i.totals c with
      | none => s
      | some t =>
        let m := gM s x
        let w := gW s x
        let u := x.myPos / m
        let ow := r.owner / m
        let next := (u + 1) % w * m + x.myPos % m
        let gone := fun s => modCur s g fun i => { i with totals := tdel i.totals c, done0 := nsAdd i.done0 c }
        if w = 1 then finishReduce g c p r shape t (gone s)
        else if u = (ow + 1) % w then passOn g next c 0 1 t (gone s)
        else
          match tfind i.parts (2 * c + 1) with
          | none => s
          | some (a, at_) =>
            let words := partWords s x.dist p r
            let v := joinStamps x.myPos a t (partialBytes s x.dist p r shape (redOp p.redop (words a.data) (words t.data)))
            let s := modCur (gone s) g fun i => noteStamps { i with waits := i.waits ++ [(t.lateReady, at_)] } c v
            if u = ow then finishReduce g c p r shape v s else passOn g next c 0 1 v s

/-- The ward-ring stage of a chunk (R277, R278): once this member's contribution and, unless it is first, the arriving
partial are present. -/
def wardStage (g c : Nat) (s : State) : State :=
  match getGroup s g with
  | none => s
  | some x =>
    match x.plan, x.cur with
    | some p, some i =>
      match p.chunks[c]?, tfind i.puts c with
      | some r, some own =>
        if i.done0.contains c ∨ thas i.totals c ∨ 2 < p.op then s
        else
          let m := gM s x
          let j := x.myPos % m
          let oi := r.owner % m
          let next := x.myPos / m * m + (j + 1) % m
          let xs := chunkWords s x.dist p.fmt r.coded own.data
          let part := partialBytes s x.dist p r own.data
          let words := partWords s x.dist p r
          let mine := { own with data := part xs, latePos := x.myPos }
          let total := fun (v : ChunkVal) s =>
            systemStage g c p r own.data (modCur s g fun i => { i with totals := tset i.totals c v })
          let done := fun s => modCur s g fun i => { i with done0 := nsAdd i.done0 c }
          if m = 1 then total mine s
          else if j = (oi + 1) % m then passOn g next c 0 0 mine (done s)
          else
            match tfind i.parts (2 * c) with
            | none => s
            | some (a, at_) =>
              let v := joinStamps x.myPos a mine (part (redOp p.redop (words a.data) (words mine.data)))
              let s := modCur s g fun i => noteStamps { i with waits := i.waits ++ [(own.lateReady, at_)] } c v
              if j = oi then total v s else passOn g next c 0 0 v (done s)
      | _, _ => s
    | _, _ => s

/-- The root of a BROADCAST sends its chunks in ascending order (R280). -/
def broadcastOut (g : Nat) : Nat → State → State
  | 0, s => s
  | fuel + 1, s =>
    match getGroup s g with
    | none => s
    | some x =>
      match x.plan, x.cur with
      | some p, some i =>
        match tfind i.puts i.bcast with
        | some v =>
          let s := modCur s g fun j => { j with bcast := j.bcast + 1, done0 := nsAdd j.done0 i.bcast }
          broadcastOut g fuel (startDeliver g i.bcast p.root v s)
        | none => s
      | _, _ => s

/-- What a put of the open instance sets going (R273, R277–R280); one that is sent on whole leaves the put half (R269). -/
def putAct (g c : Nat) (s : State) : State :=
  match getGroup s g with
  | none => s
  | some x =>
    match x.plan, x.cur with
    | some p, some i =>
      match tfind i.puts c, p.chunks[c]? with
      | some v, some r =>
        let v := { v with latePos := x.myPos }
        let sent := fun s => modCur s g fun i => { i with done0 := nsAdd i.done0 c }
        if p.op ≤ 2 then wardStage g c s
        else if p.op = 3 then startDeliver g c x.myPos v (sent s)
        else if p.op = 4 then broadcastOut g p.chunks.length s
        else passOn g r.peer c 1 0 v (sent s)
      | _, _ => s
    | _, _ => s

/-- A chunk's bytes as they arrived made whole: a coded one's places in their capacities, decoded and encoded again (R205, R279). A
place that errs counts in tag 1,023 (R129, R203). -/
def arrive (s : State) (x : Group) (c : Nat) (b : Bytes) : Bytes × State :=
  match x.plan.bind fun p => p.chunks[c]? with
  | none => (b, s)
  | some r =>
    if !r.coded then (b, s)
    else
      let w := spread (b.length + 1) b
      let rc := recodeChunk (slotViews s x.dist) r.slot (w.length / 8 + 1) (w ++ zeros (64 * r.units - w.length))
      (rc.1, if rc.2 = 0 then s else censusAdd s x.dist 1023 0x888 { nonfin := rc.2 })

/-- A checked message of instance `seq` acted on. -/
def msgAct (g : Nat) (m : Msg) (s : State) : State :=
  match getGroup s g with
  | none => s
  | some x =>
    match x.plan with
    | none => s
    | some p =>
      match p.chunks[m.chunk]? with
      | none => s
      | some r =>
        let s := if m.v.taint then markTaint s g else s
        let a := arrive s x m.chunk m.v.data
        let v := { m.v with data := a.1 }
        let s := a.2
        if m.pass = 0 then
          let s := modCur s g fun i => { i with parts := tset i.parts (2 * m.chunk + m.level) (v, m.at_) }
          if m.level = 1 then systemStage g m.chunk p r (match x.cur with
            | some i => ((tfind i.puts m.chunk).map (·.data)).getD []
            | none => []) s
          else wardStage g m.chunk s
        else
          let s := modCur s g fun i => { i with vals := tset i.vals m.chunk v }
          if p.op = 1 ∨ p.op = 3 then forwardDeliver g m.chunk r.owner m.level v s
          else if p.op = 4 then forwardDeliver g m.chunk p.root m.level v s
          else s

/-! ## Instances (R274, R275) -/

/-- The number of the instance after `seq` (R274). -/
def seqNext (x : Group) : Nat := (x.seq + 1) % 2 ^ 64

/-- A request breaks the rules of R275 for an instance. -/
def reqBad (x : Group) (i : Inst) (r : CollReq) : Bool :=
  chunkForm x r.put r.chunk != some (r.bytes, r.fmt) || !(listed x r.put).contains r.chunk
    || (if r.put then i.putIssued.contains r.chunk else i.takeIssued.contains r.chunk)

/-- The instance records an issued put or take. -/
def issueIn (i : Inst) (r : CollReq) : Inst :=
  if r.put then { i with putIssued := nsAdd i.putIssued r.chunk } else { i with takeIssued := nsAdd i.takeIssued r.chunk }

/-- Every put, or every take, of an instance has been issued. -/
def allIssued (x : Group) (i : Inst) (put : Bool) : Bool :=
  (listed x put).all fun c => if put then i.putIssued.contains c else i.takeIssued.contains c

/-- Where a request belongs (R274): the open instance, the next one, or nowhere yet. -/
inductive Place2 where
  | cur
  | nxt
  | later
  deriving DecidableEq, Repr

def reqPlace (x : Group) (r : CollReq) : Place2 :=
  match x.cur with
  | none => .cur
  | some i =>
    if !allIssued x i r.put then .cur
    else match x.nxt with
      | some n => if allIssued x n r.put then .later else .nxt
      | none => if r.put then .nxt else .later

/-- A waiting request bound to its instance, which may open it; a bad one aborts the group with PLAN. -/
def bindReq (g : Nat) (r : CollReq) (s : State) : State :=
  match getGroup s g with
  | none => s
  | some x =>
    let mark := fun (x : Group) (n : Nat) => { x with reqs := x.reqs.map fun q => if q.core = r.core ∧ q.idx = r.idx ∧ q.chunk = r.chunk then { q with inst := some n } else q }
    match reqPlace x r with
    | .later => s
    | .cur =>
      let i := x.cur.getD { x.pre.getD (openInst s x.seq) with tOpen := time s }
      if reqBad x i r then abortHere g 2 s
      else setGroup s g (mark { x with cur := some (issueIn i r), pre := none, state := 2, progress := if x.cur.isSome then x.progress else time s } x.seq)
    | .nxt =>
      let i := x.nxt.getD (openInst s (seqNext x))
      if reqBad x i r then abortHere g 2 s else setGroup s g (mark { x with nxt := some (issueIn i r) } (seqNext x))

/-- Every waiting request that has no instance yet is looked at again, oldest first. -/
def bindReqs (g : Nat) (s : State) : State :=
  match getGroup s g with
  | none => s
  | some x => (x.reqs.filter fun r => r.inst.isNone).foldl (fun s r => bindReq g r s) s

/-- The checked messages of instance `seq` that are not yet acted on. -/
def dueMsgs (x : Group) : List Msg := x.inbox.filter fun m => m.gseq == x.seq && m.checked

/-- Messages held for instance `seq` are acted on, be it open or not yet (R274, R280). -/
def actHeld (g : Nat) (s : State) : State :=
  match getGroup s g with
  | none => s
  | some x =>
    if x.plan.isNone then s
    else
      let ms := dueMsgs x
      let s := setGroup s g { x with inbox := x.inbox.filter fun m => !ms.contains m }
      ms.foldl (fun s m => msgAct g m s) s

/-- The bytes of puts that still stand in the put half: those whose work is not done. -/
def putBytes (x : Group) : Nat :=
  let n := fun (i : Option Inst) => match i with
    | some i => ((i.puts.filter fun e => !i.done0.contains e.1).map fun e => e.2.data.length).sum
    | none => 0
  n x.cur + n x.nxt

/-- Half of STAGE_KIB in bytes (R269). -/
def stageHalf (x : Group) : Nat := x.stageKib * 512

/-! ## Takes (R274, R285, R288) -/

/-- The parts of a chunk of `n` bytes that a put reads and a take writes: all of it, or 8 + CLEN bytes per place (R205). -/
def chunkParts (coded : Bool) (b : Bytes) (n : Nat) : List (Nat × Bytes) :=
  if coded then codedParts (slice b 0 n) else [(0, slice b 0 n)]

/-- A take's bytes put in place: local SRAM or a segment, poisoned whole when the chunk is (R288). -/
def takeWrite (s : State) (coded : Bool) (r : CollReq) (v : ChunkVal) : State :=
  let ps := chunkParts coded v.data r.bytes
  match r.seg with
  | none =>
    modCore s r.d r.core fun c =>
      let c := ps.foldl (fun c q => sramWrite c (r.addr + q.1) q.2) c
      if v.poison then sramMark c (granules r.addr r.bytes) else c
  | some (_, e) =>
    let s := ps.foldl (fun s q => segWrite s e (r.addr + q.1) q.2) s
    if v.poison then segMark s e (granules r.addr r.bytes) else s

/-- A take whose value exists completes (R97, R274). -/
def serveTake (g : Nat) (r : CollReq) (s : State) : State :=
  match getGroup s g with
  | none => s
  | some x =>
    match x.cur with
    | none => s
    | some i =>
      match tfind i.vals r.chunk with
      | none => s
      | some v =>
        if r.put ∨ r.inst ≠ some i.gseq then s
        else
          let s := setGroup s g { x with
            reqs := x.reqs.filter fun q => q != r, progress := time s
            cur := some (noteStamps { i with taken := nsAdd i.taken r.chunk, poisoned := i.poisoned || v.poison } r.chunk v) }
          let s := if v.poison then collEvent s x 0x114 sevError [g, i.gseq, r.chunk] else s
          let s := if v.poison then softFault (countSoft s r.d r.core) r.d r.core r.idx 0x80 else s
          setWork (takeWrite s (isCoded x r.chunk) r v) r.d r.core r.idx .fin

/-- Every take that can complete does. -/
def serveTakes (g : Nat) (s : State) : State :=
  match getGroup s g with
  | none => s
  | some x => (x.reqs.filter fun r => !r.put).foldl (fun s r => serveTake g r s) s

/-- A COLL descriptor or a drained tile arrives at the engine (R97, R270, R274): a group that is not READY or ACTIVE, or
absent, gives COLL_ABORTED. -/
def collRequest (g : Nat) (r : CollReq) (s : State) : State :=
  match getGroup s g with
  | none => hardFault s r.d r.core r.idx 6
  | some x =>
    if x.dist ≠ r.d ∨ (x.state ≠ 1 ∧ x.state ≠ 2) then hardFault s r.d r.core r.idx 6
    else serveTakes g (actHeld g (bindReq g r (setGroup s g { x with reqs := x.reqs ++ [r] })))

/-- The oldest put the engine can take now: bound to an instance, with room in the put half (R269). -/
def nextPut (x : Group) : Option CollReq :=
  x.reqs.find? fun r => r.put && r.inst.isSome && putBytes x + r.bytes ≤ stageHalf x

/-- The bytes and poison of a put as the engine takes them; the slack of coded places is not read (R205). -/
def putData (s : State) (coded : Bool) (r : CollReq) : Bytes × Bool :=
  if r.tile then (r.data, r.poison)
  else
    let b := match r.seg with
      | none => memRead (getCore s r.d r.core).sram r.addr r.bytes
      | some (_, e) => segRead s e r.addr r.bytes
    (b, (chunkParts coded b r.bytes).any fun q => match r.seg with
      | none => anyPoison (getCore s r.d r.core).poison (r.addr + q.1) q.2.length
      | some (_, e) => segPoison s e (r.addr + q.1) q.2.length != [])

/-- A put's bytes as the engine holds them, and the places that err: a coded chunk is decoded and encoded again (R203, R279). -/
def putRecode (s : State) (x : Group) (r : CollReq) (b : Bytes) : Bytes × Nat :=
  match x.plan.bind fun p => p.chunks[r.chunk]? with
  | some c => if c.coded then recodeChunk (slotViews s x.dist) c.slot (b.length / 8 + 1) b else (b, 0)
  | none => (b, 0)

/-- A put's descriptor whose places err: a non-finite input for each, and DECODE_ERROR (R129, R203). -/
def putDecode (s : State) (r : CollReq) (n : Nat) : State :=
  if n = 0 then s
  else softFault (censusAdd s r.d 1023 (coreSource s r.d r.core) { nonfin := n }) r.d r.core r.idx 0x81

/-- The engine takes a put (R97, R277, R285), one from flash once it stands in staging (R235): its ready stamp is the time-base
now. -/
def acceptPut (g : Nat) (r : CollReq) (s : State) : State :=
  match getGroup s g with
  | none => s
  | some x =>
    let ready := match r.seg with
      | some e => staged s e.2 r.addr r.bytes
      | none => true
    if !ready then s
    else
    let s := match r.seg with
      | some e => useStaged s e.2 r.addr r.bytes
      | none => s
    let dp := putData s (isCoded x r.chunk) r
    let rc := putRecode s x r dp.1
    let v : ChunkVal := { data := rc.1, poison := dp.2, latePos := x.myPos, lateReady := time s, earlyReady := time s }
    let store := fun (i : Inst) => { i with puts := tset i.puts r.chunk v }
    let isCur := r.inst = some x.seq
    let s := setGroup s g { x with
      reqs := x.reqs.filter fun q => q != r, progress := time s
      cur := if isCur then x.cur.map store else x.cur
      nxt := if isCur then x.nxt else x.nxt.map store }
    let s := if dp.2 && !r.tile then softFault (countSoft s r.d r.core) r.d r.core r.idx 0x80 else s
    let s := putTaken (putDecode s r rc.2) r.d r.core r.idx
    if isCur then putAct g r.chunk s else s

/-! ## Closing (R274, R285) -/

/-- An interval placed among others by rising start. -/
def byStart (e : Nat × Nat) : List (Nat × Nat) → List (Nat × Nat)
  | [] => [e]
  | f :: l => if e.1 ≤ f.1 then e :: f :: l else f :: byStart e l

/-- The length of the union of intervals of rising start, above `done`. -/
def sweepLen : List (Nat × Nat) → Nat → Nat
  | [], _ => 0
  | (a, b) :: l, done => (b - max a done) + sweepLen l (max done b)

/-- The length of the union of intervals. -/
def unionLen (l : List (Nat × Nat)) : Nat := sweepLen (l.foldr byStart []) 0

/-- Every reduction of the instance at this member is done (R277); log entry 19. -/
def dutiesDone (x : Group) (i : Inst) : Bool := match x.plan with
  | some p => 2 < p.op || (List.range p.chunks.length).all fun c => i.done0.contains c
  | none => true

/-- The instance's puts and takes are all complete (R274). -/
def closable (x : Group) : Bool := match x.cur with
  | some i => (listed x true).all (fun c => thas i.puts c) && (listed x false).all (fun c => i.taken.contains c) && dutiesDone x i
  | none => false

/-- The completion record of a closing instance (R285). -/
def complOf (s : State) (x : Group) (i : Inst) : Compl :=
  let late := i.late.getD (0, 0, 0)
  { gseq := i.gseq, tOpen := i.tOpen, tClose := time s, laggard := late.2.2
    laggardId := (x.members.getD late.2.2 ⟨0, none⟩).id
    lagNs := min (2 ^ 32 - 1) (late.1 - i.early.getD late.1)
    predWait := min (2 ^ 32 - 1) (unionLen i.waits)
    tainted := i.tainted, taintFinal := !(x.checks.any fun k => k.1 == i.gseq), poisoned := i.poisoned, retx := min 255 (x.fails.filter fun f => f.1 == i.gseq).length }

/-- The 64 bytes of a completion record (R285). -/
def complBytes (r : Compl) : Bytes :=
  pack 64 [(64, r.gseq), (64, r.tOpen), (64, r.tClose), (13, r.laggard), (3, 0), (12, r.laggardId), (4, 0), (32, r.lagNs),
    (32, r.predWait), (1, b2n r.tainted), (1, b2n r.taintFinal), (1, b2n r.poisoned), (5, 0), (8, r.retx)]

/-- The next instance becomes the open one: what was held for it is acted on. -/
def nextInst (g : Nat) (s : State) : State :=
  match getGroup s g with
  | none => s
  | some x =>
    let s := setGroup s g { x with
      seq := seqNext x, cur := x.nxt, nxt := none, pre := none, relays := [], state := if x.nxt.isSome then 2 else 1, progress := time s, disp := {}
      inbox := x.inbox.filter fun m => m.gseq != x.seq, fails := x.fails.filter fun f => f.1 != x.seq }
    let s := bindReqs g s
    match getGroup s g with
    | none => s
    | some x =>
      let s := match x.cur with
        | some i => i.puts.foldl (fun s e => putAct g e.1 s) s
        | none => s
      serveTakes g (actHeld g s)

/-- An instance closes (R274, R285, R327): COLL_DONE and DISP_DONE where they are asked for. -/
def closeInst (g : Nat) (s : State) : State :=
  match getGroup s g with
  | none => s
  | some x =>
    match x.cur with
    | none => s
    | some i =>
      if !closable x then s
      else
        let r := complOf s x i
        let s := setGroup s g { x with record := r }
        let s := if x.evt then collEvent s x 0x110 sevInfo [g, i.gseq, r.laggardId, r.lagNs] else s
        let n := x.disp.counts
        let s := if x.bind.any bEvt then emit s 0x889 0x150 sevInfo x.dist [g, i.gseq, n.getD 0 0, n.getD 1 0, n.getD 2 0] else s
        nextInst g s

/-! ## Receiving (R274, R276, R281, R286, R287, R290) -/

/-- The first whole message of a list of flits, and what follows it. -/
def splitMsg : List Flit → Option (List Flit × List Flit)
  | [] => none
  | f :: l => if f.last then some ([f], l) else (splitMsg l).map fun r => (f :: r.1, r.2)

/-- A message's fields from its bytes (R281): the chunk's bytes stand as they were sent. -/
def msgOf (src : Nat) (poison : Bool) (b : Bytes) (at_ : Nat) : Msg :=
  { gseq := fld b 63 0, chunk := fld b 75 64, pass := fld b 76 76, level := fld b 77 77, relayed := bit b 79, epoch := fld b 87 80
    sig := fld b 127 96, crc := fld b 159 128, src := src, at_ := at_
    v := { data := b.drop 48, poison := poison, taint := bit b 78, latePos := fld b 172 160, lateReady := fld b 255 192, earlyReady := fld b 319 256 } }

/-- The first whole message that came by a port for a group; flits still in their pool leave it (R252, R269). -/
def takeMsg (g p : Nat) (s : State) : Option (List Flit × State) :=
  match splitMsg (tget [] (getPort s p).rx g) with
  | none => none
  | some (fs, rest) =>
    some (fs, modPort (freeHeld g s p) p fun x => { x with rx := tset x.rx g rest })

/-- A message's bytes. -/
def msgBytes (fs : List Flit) : Bytes := fs.flatMap fun f => f.payload.take f.len

/-- Where the member at a position sends a chunk next: what a relay needs to send it on (R282). -/
def hopAfter (s : State) (x : Group) (src : Nat) (m : Msg) : Option Nat :=
  match x.plan with
  | none => none
  | some p =>
    let n := gM s x
    let w := gW s x
    if p.op = 5 ∨ p.op = 6 then (p.chunks[m.chunk]?).map (·.peer)
    else if m.level = 1 then some ((src / n + 1) % w * n + src % n)
    else some (src / n * n + (src % n + 1) % n)

/-- The COLL_STRAY event: a message discarded (R290). -/
def collStray (s : State) (d p g src epoch : Nat) : State := emit s 0x888 0x115 sevNotice d [p, g, src, epoch]

/-- The destinations a relay may send a bound group's message on to: the members that name it as their RELAY (R282). -/
def relayTargets (x : Group) (src : Nat) : List Nat :=
  (List.range (gP x)).filter fun q => q != src && (x.members.getD q ⟨0, none⟩).relay == some x.myPos

/-- A relayed message has reached its destination (R282). A bound group's message names none: it has when no member has this one as
its RELAY, or when it came from this member's own (log entry 21). -/
def relayedHere (s : State) (x : Group) (m : Msg) : Bool :=
  if x.bind.isNone then (hopAfter s x m.src m).all (· == x.myPos)
  else relayTargets x m.src == []
    || (x.members.getD x.myPos ⟨0, none⟩).relay.any fun r => idAt x r == (getPort s m.port).peer.id

/-- Where a relay sends a message on (R282). A source sends its messages of a bound group in position order, so the k-th one goes to
the k-th member that has this one as its RELAY (log entry 21). -/
def relayHop (s : State) (x : Group) (m : Msg) : Option Nat :=
  if x.bind.isNone then hopAfter s x m.src m
  else (relayTargets x m.src)[(x.relays.filter (· == (m.src, m.gseq, m.chunk))).length]?

/-- A message a relay holds is sent on (R279, R282, R287): its taint marks the relay's instance, and the instance's the message. -/
def relayOn (g hop : Nat) (m : Msg) (s : State) : State :=
  match getGroup s g with
  | none => s
  | some x =>
    let s := if m.v.taint then markTaint s g else s
    let s := modGroup s g fun x => if x.bind.isSome then { x with relays := x.relays ++ [(m.src, m.gseq, m.chunk)] } else x
    let a := arrive s x m.chunk m.v.data
    sendTo g hop { m with v := { m.v with data := a.1, taint := m.v.taint || (m.gseq == x.seq && (liveInst x).any (·.tainted)) } } a.2

/-- A message in staging is used (R286, R287): by a relay sent on, for instance `seq` acted on, else held. -/
def useMsg (g : Nat) (m : Msg) (s : State) : State :=
  match getGroup s g with
  | none => s
  | some x =>
    let here := !m.relayed || relayedHere s x m
    let hop := if here then none else relayHop s x m
    if hop.isSome then relayOn g (hop.getD 0) m s
    else
      if x.plan.isSome && m.gseq == x.seq then serveTakes g (msgAct g m s)
      else setGroup s g { x with inbox := x.inbox ++ [{ m with checked := true }] }

/-- An early-use check begun: the CRC is checked alongside (R287). -/
def checkOf (m : Msg) : Nat × Nat × Nat × Bool := (m.gseq, m.chunk, m.src, crc32c m.v.data == m.crc)

/-- A chunk message taken from its pool (R269, R276, R290): a wrong epoch makes it stray, a wrong instance or signature
aborts with COLL_SEQ; in verified mode it waits for its check. -/
def chunkReceive (g p : Nat) (fs : List Flit) (s : State) : State :=
  let b := msgBytes fs
  let srcId := (fs.headD { typ := 1 }).src
  let epoch := fld b 87 80
  match getGroup s g with
  | none => collStray s 0xFF p g srcId epoch
  | some x =>
    match posOf x srcId with
    | none => collStray s x.dist p g srcId epoch
    | some src =>
      let m := { msgOf src (fs.any fun f => f.poison) b (time s) with port := p }
      if m.epoch ≠ x.epoch then collStray s x.dist p g srcId epoch
      else if x.state = 3 then s
      else if (m.gseq ≠ x.seq ∧ m.gseq ≠ seqNext x) ∨ (x.state ≠ 0 ∧ m.sig ≠ x.sig) then abortHere g 1 s
      else
        let s := modGroup s g fun x => { x with progress := time s }
        if verified x then modGroup s g fun x => { x with inbox := x.inbox ++ [m] }
        else useMsg g m (modGroup s g fun x => { x with checks := x.checks ++ [checkOf m] })

/-- A failed check in early-use mode (R287). -/
def taintHere (g seq chunk : Nat) (s : State) : State :=
  match getGroup s g with
  | none => s
  | some x =>
    let s := collEvent s x 0x112 sevNotice [g, seq, chunk]
    let s := (others x).foldl (fun s p => errorMsg s x p 2 [g, seq]) s
    if seq = x.seq then markTaint s g
    else modGate (modGroup s g fun x => { x with
        record := if x.record.gseq = seq then { x.record with tainted := true } else x.record
        inbox := x.inbox.map fun m => if m.gseq = seq ∧ m.chunk = chunk then { m with v := { m.v with taint := true } } else m })
      x.dist fun q => { q with taint := true }

/-- The failed checks of one chunk in one instance. -/
def failCount (x : Group) (gseq chunk : Nat) : Nat := (x.fails.filter fun f => f == (gseq, chunk)).length

/-- The position that sent a message here (R282): at the destination of a relayed one that is its own RELAY; else its SRC. -/
def sentBy (s : State) (x : Group) (m : Msg) : Nat :=
  if m.relayed && relayedHere s x m then ((x.members.getD x.myPos ⟨0, none⟩).relay).getD m.src else m.src

/-- The end of a chunk's check (R286, R287). -/
def checkDone (g chunk src : Nat) (ok : Bool) (s : State) : State :=
  match getGroup s g with
  | none => s
  | some x =>
    if verified x then
      match x.inbox.find? fun m => m.chunk == chunk && m.src == src && !m.checked with
      | none => s
      | some m =>
        let s := setGroup s g { x with inbox := x.inbox.erase m }
        if ok && crc32c m.v.data == m.crc then
          useMsg g { m with checked := true } (modGroup s g fun x => { x with
            acks := x.acks ++ [(sentBy s x m, chunk)], acksAt := if x.acks = [] then time s else x.acksAt })
        else
          let s := modGroup s g fun x => { x with fails := x.fails ++ [(m.gseq, chunk)], progress := time s }
          if 3 ≤ failCount x m.gseq chunk then abortHere g 3 s
          else errorMsg (collEvent s x 0x113 sevNotice [g, m.gseq, chunk, sentBy s x m]) x (sentBy s x m) 1 [g, m.gseq, chunk]
    else
      match x.checks.find? fun k => k.2.1 == chunk && k.2.2.1 == src with
      | none => s
      | some k =>
        let s := setGroup s g { x with checks := x.checks.erase k }
        let s := if ok && k.2.2.2 then s else taintHere g k.1 chunk s
        modGroup s g fun x =>
          if k.1 = x.record.gseq ∧ k.1 ≠ x.seq then
            { x with record := { x.record with taintFinal := x.record.taintFinal || !(x.checks.any fun q => q.1 == k.1) } }
          else x

/-- Acknowledgements sent, batched every µs or every 64 chunks (R286). -/
def ackBatch (g : Nat) (s : State) : State :=
  match getGroup s g with
  | none => s
  | some x =>
    when (x.acks != [] && (64 ≤ x.acks.length || x.acksAt + 1000 ≤ time s)) (fun s =>
      let s := setGroup s g { x with acks := [] }
      ((x.acks.map (·.1)).foldl nsAdd []).foldl
        (fun s p => errorMsg s x p 0 (g :: (x.acks.filter fun a => a.1 == p).map (·.2))) s) s

/-- The oldest kept message to a receiver for a chunk. -/
def keptFor (x : Group) (dst chunk : Nat) : Option Kept := x.kept.find? fun k => k.dst == dst && k.m.chunk == chunk

/-- Acknowledged chunks leave staging (R286). -/
def ackReceive (g src : Nat) (chunks : List Nat) (s : State) : State :=
  chunks.foldl (fun s c => modGroup s g fun x => match keptFor x src c with
    | some k => { x with kept := x.kept.erase k }
    | none => x) s

/-- A chunk resent from staging (R286). -/
def resendChunk (g src chunk : Nat) (s : State) : State :=
  match getGroup s g with
  | none => s
  | some x =>
    match keptFor x src chunk with
    | none => s
    | some k =>
      match memberPort s g x src with
      | none => abortHere g 4 s
      | some p =>
        let body := if isCoded x chunk then squeeze k.m.v.data else k.m.v.data
        sendMsg s p g (x.members.getD src ⟨0, none⟩).id (x.members.getD k.m.src ⟨0, none⟩).id k.m.v.poison (msgHeader k.m ++ body)

/-- Messages held since before the plan or binding was set (R276): one with another PLAN_SIG aborts the group; in early-use mode their
checks begin; those of instance `seq` are acted on. -/
def planTaken (g : Nat) (s : State) : State :=
  match getGroup s g with
  | none => s
  | some x =>
    if x.inbox.any fun m => m.sig != x.sig then abortHere g 1 s
    else if verified x then actHeld g s
    else
      let late := x.inbox.filter fun m => !m.checked
      serveTakes g (actHeld g (setGroup s g { x with
        checks := x.checks ++ late.map checkOf, inbox := x.inbox.map fun m => { m with checked := true } }))

/-- The groups that lose a message in progress when a port is lost abort with cause LINK (R264, R289). -/
def linkLost (p : Nat) (s : State) : State :=
  (busyChannels (getPort s p)).foldl (fun s g =>
    match getGroup s g with
    | some x => if x.cur.isSome ∨ x.pre.isSome ∨ x.inbox ≠ [] then abortHere g 4 s else s
    | none => s) s

end Sys2Proof.Machine
end

