-- ==== Sys2Proof/Machine/Experts.lean ====
section
/-! DEFINITION. The expert dispatch unit (R308–R328): directory, routing, delivery, cold experts, return and combine. -/

namespace Sys2Proof.Machine

/-- The expert dispatch unit's source number (R35). -/
def dispSource : Nat := 0x889

/-! ## The directory (R309–R311) -/

def eValid (b : Bytes) : Bool := bit b 0
def eNrep (b : Bytes) : Nat := fld b 3 2
def eSlot (b : Bytes) : Nat := fld b 15 8
def eTier (b : Bytes) : Nat := fld b 66 64
def eSeg (b : Bytes) : Nat := fld b 79 72
def eClass (b : Bytes) : Nat := fld b 82 80
def eSubst (b : Bytes) : Nat := fld b 111 96
def eOffset (b : Bytes) : Nat := fld b 175 128
def eLength (b : Bytes) : Nat := fld b 223 192

/-- Replica k's device ID. -/
def eRep (b : Bytes) (k : Nat) : Nat := fld b (27 + 12 * k) (16 + 12 * k)

/-- The replicas of an entry. -/
def eReps (b : Bytes) : List Nat := (List.range (eNrep b + 1)).map (eRep b)

/-- An invalid entry at its reset value: SUBST 0xFFFF (R310). -/
def dirReset : Bytes := pack 32 [(96, 0), (16, 0xFFFF)]

/-- An entry of a district's range, by its index in the range. -/
def dirEntry (x : Dist) (i : Nat) : Bytes := if i < x.dirCount then tget dirReset x.dir i else dirReset

/-- The reserved bits of an entry (R310). -/
def dirRsvdOk (b : Bytes) : Bool := zeroAt b [(1, 1), (7, 4), (71, 67), (95, 83), (127, 112), (191, 176), (255, 224)]

/-- The rules of R311 on one written entry, valid or not, against the directory as it will stand. -/
def dirEntryOk (at_ : Nat → Bytes) (b : Bytes) : Bool :=
  let sub := at_ (eSubst b)
  1 ≤ eTier b && eTier b ≤ 3
    && ((List.range 4).all fun k => k ≤ eNrep b || eRep b k == 0)
    && !(eTier b == 3 && 67108864 < eLength b)
    && (eTier b == 3 || eClass b == 0)
    && (eTier b != 3 || eOffset b % 65536 == 0)
    && (eSubst b == 0xFFFF || (eValid sub && eTier sub != 3 && (eReps b).all (eReps sub).contains))

/-- No two valid entries with a common replica have the same SLOT (R311). -/
def slotsDistinct : List Bytes → Bool
  | [] => true
  | b :: l => (l.all fun c => !(eSlot b == eSlot c && (eReps b).any (eReps c).contains)) && slotsDistinct l

/-- A directory with entries written from an index on. -/
def dirPut (m : AMap Bytes) (first : Nat) (es : List Bytes) : AMap Bytes :=
  (es.zipIdx).foldl (fun m e => tset m (first + e.2) e.1) m

/-- The directory once the held writes have installed, which a later write is judged against (R311, R312). -/
def dirAfterHeld (x : Dist) : AMap Bytes := x.dirWrites.foldl (fun m w => dirPut m w.first w.entries) x.dir

/-- The argument checks of COLL_DIR_WRITE (R311). -/
def dirWriteOk (x : Dist) (first : Nat) (es : List Bytes) : Bool :=
  let m := dirPut (dirAfterHeld x) first es
  let at_ := fun i => if i < x.dirCount then tget dirReset m i else dirReset
  first + es.length ≤ x.dirCount && es.all (dirEntryOk at_)
    && slotsDistinct ((m.map (·.2)).filter eValid)

/-! ## Dispatch instances -/

/-- The groups of a district bound to dispatch that have an open instance (R312). -/
def dispOpen (s : State) (d : Nat) : Bool := s.groups.any fun e => e.2.dist == d && e.2.bind.isSome && e.2.cur.isSome

/-- The dispatch part of a group changed. -/
def modDisp (s : State) (g : Nat) (f : DInst → DInst) : State := modGroup s g fun x => { x with disp := f x.disp }

/-- A count of R324 advanced: 0 DISPATCHED, 1 REROUTED, 2 RESIDUAL, 3 EMPTY, 4 UNROUTABLE, 5 SUBST_IN, 6 SUBST_RES, 7 SKIPPED. -/
def count (l : List Nat) (i n : Nat) : List Nat := setAt l i (l.getD i 0 + n)

/-- A segment of a group's district. -/
def groupSeg (s : State) (x : Group) (n : Nat) : Option Seg := tfind (getDist s x.dist).segs n

/-- Record p of token t (R317). -/
def recOff (b : Bytes) (t p : Nat) : Nat := bCombOff b + (t * bNPart b + p) * bRecB b

/-- A contribution of rank r to every record of a token: part p gets its own FP32 row (R316, R323). -/
def contribute (x : Group) (b : Bytes) (t r : Nat) (part : Nat → Bytes) (poison : Bool) (s : State) : State :=
  (List.range (bNPart b)).foldl (fun s p =>
    match groupSeg s x (bCombSeg b) with
    | some e => ordsum x.dist dispSource e (recOff b t p) r (part p) poison s
    | none => s) s

/-- A zero contribution (R316). -/
def zeroContribution (x : Group) (b : Bytes) (t r : Nat) (s : State) : State :=
  contribute x b t r (fun _ => zeros (bRowLen b * 64)) false s

/-- The headers of every combine record (R212, R317). -/
def writeHeaders (x : Group) (b : Bytes) (s : State) : State :=
  match groupSeg s x (bCombSeg b) with
  | none => s
  | some e =>
    let h := pack 64 [(16, 2 ^ bKUse b - 1), (16, 0), (9, bRowLen b)]
    (List.range (bNBlk b * bTB b * bNPart b)).foldl (fun s i => segWrite s e (bCombOff b + i * bRecB b) h) s

/-! ## Routing (R308, R315) -/

/-- What routing keeps between choices: quotas, counts, the token's entries and its next spare, tokens sent, ranks dropped,
failed lookups. -/
structure Rt where
  cnt : AMap Nat := []
  counts : List Nat := [0, 0, 0, 0, 0, 0, 0, 0]
  placed : List Nat := []
  spare : Nat := 0
  toks : List DTok := []
  zero : List (Nat × Nat) := []
  bad : List (Nat × Nat × Nat) := []
  deriving DecidableEq, Repr

/-- A gate is −∞: an empty choice (R308). -/
def isEmpty (g : Nat) : Bool := g == 0xFF800000

/-- The function `try` of R315 for expert number c: the entry placed, if any, and whether the lookup failed. -/
def tryEntry (dir : Nat → Bytes) (b : Bytes) (t r c : Nat) (a : Rt) : Option Nat × Rt :=
  if bNExp b ≤ c ∨ !eValid (dir (bEBase b + c)) then
    (none, { a with counts := count a.counts 4 1, bad := a.bad ++ [(t, r, c)] })
  else
    let e := bEBase b + c
    if a.placed.contains e ∨ tget 0 a.cnt e = bQ b then (none, a)
    else (some e, { a with cnt := tset a.cnt e (tget 0 a.cnt e + 1), placed := e :: a.placed })

/-- The spares of a token, tried in turn (R315): gate and entry of the first that takes. -/
def trySpares (dir : Nat → Bytes) (b : Bytes) (rec : Nat → Nat × Nat) (t r : Nat) : Nat → Rt → Option (Nat × Nat) × Rt
  | 0, a => (none, a)
  | fuel + 1, a =>
    if bKRec b ≤ a.spare then (none, a)
    else
      let k := rec a.spare
      let a := { a with spare := a.spare + 1 }
      if isEmpty k.1 then trySpares dir b rec t r fuel a
      else match tryEntry dir b t r k.2 a with
        | (some e, a) => (some (k.1, e), a)
        | (none, a) => trySpares dir b rec t r fuel a

/-- One rank of a token (R315). `rep` names the replica's position for an entry. RESIDUAL counts every rank that no entry took, as the
pseudocode does (log entry 20). -/
def routeRank (dir : Nat → Bytes) (b : Bytes) (rec : Nat → Nat × Nat) (rep : Bytes → Nat) (src : Nat) (row : Bytes × Bool)
    (t r : Nat) (a : Rt) : Rt :=
  let k := rec r
  if isEmpty k.1 then { a with counts := count a.counts 3 1, zero := a.zero ++ [(t, r)] }
  else
    let got : Option (Nat × Nat × Bool) × Rt := match tryEntry dir b t r k.2 a with
      | (some e, a) => (some (k.1, e, false), a)
      | (none, a) =>
        if bNext b then
          match trySpares dir b rec t r 16 a with
          | (some ge, a) => (some (ge.1, ge.2, true), a)
          | (none, a) => (none, a)
        else (none, a)
    match got with
    | (none, a) => { a with counts := count a.counts 2 1, zero := a.zero ++ [(t, r)] }
    | (some (g, e, spared), a) =>
      let d := dir e
      let n := count a.counts 0 1
      { a with
        counts := if spared then count n 1 1 else n
        toks := a.toks ++ [{ src := src, tok := t, rank := r, gate := g, slot := eSlot d, entry := e, dst := rep d, row := row.1, poison := row.2 }] }

/-- Replica k of a token's entry, as a member's position (R315). -/
def replicaPos (x : Group) (t : Nat) (d : Bytes) : Nat := (posOf x (eRep d ((x.myPos + t) % (eNrep d + 1)))).getD (gP x)

/-- One block routed (R315). -/
def routeBlock (x : Group) (dir : Nat → Bytes) (b : Bytes) (blk : Nat) (routes rows : ChunkVal) (a : Rt) : Rt :=
  (List.range (bTB b)).foldl (fun a i =>
    let t := blk * bTB b + i
    let rec_ := fun r => let o := (i * bKRec b + r) * 8; (leNat (slice routes.data o 4), leNat (slice routes.data (o + 4) 4))
    let row := (slice rows.data (i * bRowB b) (bRowB b), rows.poison || routes.poison)
    (List.range (bKUse b)).foldl (fun a r => routeRank dir b rec_ (replicaPos x t) x.myPos row t r a)
      { a with placed := [], spare := bKUse b }) a

/-! ## Messages (R318, R325) -/

/-- The count, records and rows of a dispatch message (R325), whose tokens stand in source token order, then by rank (R319; log entry
164). -/
def dispatchBody (ts : List DTok) : Bytes :=
  let recs := pack 16 [(24, ts.length)] ++ ts.flatMap fun t =>
    pack 16 [(32, t.gate), (8, t.slot), (4, t.rank), (4, 0), (20, t.tok), (16, t.entry)]
  recs ++ zeros (roundUp recs.length 64 - recs.length) ++ ts.flatMap fun t => t.row

/-- The tokens of a dispatch message. -/
def dispatchToks (b : Bytes) (src dst : Nat) (v : ChunkVal) : List DTok :=
  let n := fld v.data 23 0
  let base := roundUp (16 + 16 * n) 64
  (List.range n).map fun i =>
    let r := slice v.data (16 + 16 * i) 16
    { src := src, tok := fld r 67 48, rank := fld r 43 40, gate := fld r 31 0, slot := fld r 39 32, entry := fld r 83 68
      dst := dst, row := slice v.data (base + i * bRowB b) (bRowB b), poison := v.poison }

/-- A return message's rows in the order of a dispatch message's (R319, R325; log entry 164). -/
def insertRet {α : Type} (r : DTok × α) : List (DTok × α) → List (DTok × α)
  | [] => [r]
  | u :: l => if r.1.tok < u.1.tok ∨ (r.1.tok = u.1.tok ∧ r.1.rank < u.1.rank) then r :: u :: l else u :: insertRet r l

/-- A return message (R325): rows in the order given. -/
def returnBody (rs : List (DTok × Bytes)) : Bytes :=
  let recs := pack 16 [(24, rs.length)] ++ rs.flatMap fun r => pack 8 [(20, r.1.tok), (4, r.1.rank)]
  recs ++ zeros (roundUp recs.length 64 - recs.length) ++ rs.flatMap (·.2)

/-- The rows of a return message: token, rank, row. -/
def returnRows (b : Bytes) (data : Bytes) : List (Nat × Nat × Bytes) :=
  let n := fld data 23 0
  let base := roundUp (16 + 8 * n) 64
  (List.range n).map fun i =>
    let r := slice data (16 + 8 * i) 8
    (fld r 19 0, fld r 23 20, slice data (base + i * bORowB b) (bORowB b))

/-- A dispatch or return message sent to a member (R318, R323): its stamps are the sender's own (R281, R285). -/
def dispSend (g pos chunk : Nat) (data : Bytes) (poison : Bool) (s : State) : State :=
  passOn g pos chunk 0 0
    { data := data, poison := poison, latePos := ((getGroup s g).map (·.myPos)).getD 0, lateReady := time s, earlyReady := time s } s

/-- The dispatch messages of the open instance present here, own tokens included: (source position, tokens). -/
def dispMsgs (x : Group) (b : Bytes) : List (Nat × List DTok) :=
  let theirs := ((x.inbox.filter fun m => m.chunk == 0xFFC && m.checked && m.gseq == x.seq).map fun m =>
    (m.src, dispatchToks b m.src x.myPos m.v))
  if x.disp.sent then theirs ++ [(x.myPos, x.disp.toks.filter fun t => t.dst == x.myPos)] else theirs

/-- Every message of the instance is present (R318). -/
def allMsgs (x : Group) (b : Bytes) : Bool :=
  let ps := (dispMsgs x b).map (·.1)
  (List.range (gP x)).all ps.contains

/-! ## Cold experts (R321, R322) -/

/-- Bytes that one group's instance has pinned in staging. -/
def groupPinned (s : State) (x : Group) : Nat :=
  (x.disp.slots.map fun e => match e.2.cold with
    | some i => if e.2.pinned then roundUp (eLength (dirEntry (getDist s x.dist) i)) 65536 else 0
    | none => 0).sum

/-- Bytes pinned in the package (R321). -/
def pinnedBytes (s : State) : Nat := (s.groups.map fun e => groupPinned s e.2).sum

/-- The class fallback and deadline of an entry (R313). -/
def entryFallback (b e : Bytes) : Nat := bFallback b (eClass e)

/-- The flash range of an entry's weights: its segment when that is in flash (R321). -/
def coldSeg (s : State) (x : Group) (e : Bytes) : Option Seg := (groupSeg s x (eSeg e)).filter fun g => g.tier == 3

/-- The extents of an entry's weights, and those the engine has yet to read (R235, R321). -/
def coldExts (s : State) (x : Group) (e : Bytes) : List (Nat × Nat) := match coldSeg s x e with
  | some g => (extentsIn g (eOffset e) (eLength e)).map fun i => (g.volume, i)
  | none => []
def coldNeed (s : State) (x : Group) (e : Bytes) : List (Nat × Nat) := match coldSeg s x e with
  | some g => needOf s g (eOffset e) (eLength e)
  | none => []

/-- A token placed in a cold entry's slot starts its warming (R321): a read at priority 15 of the extents not in staging, which it
pins. -/
def warmToken (g : Nat) (t : DTok) (s : State) : State :=
  match getGroup s g with
  | none => s
  | some x =>
    match x.bind with
    | none => s
    | some b =>
      let e := dirEntry (getDist s x.dist) t.entry
      if !eValid e ∨ eTier e ≠ 3 ∨ (tget {} x.disp.slots t.slot).cold.isSome then s
      else
        let fits := pinnedBytes s + roundUp (eLength e) 65536 ≤ 128 * 2 ^ 20
        let stall := entryFallback b e == 0
        let sl : DSlot := { tget {} x.disp.slots t.slot with
          cold := some t.entry, pinned := fits, pins := if fits then coldExts s x e else [], need := if fits then coldNeed s x e else []
          at_ := time s, warm := !fits && stall }
        let s := modDisp s g fun q => { q with slots := tset q.slots t.slot sl }
        if fits ∨ !stall ∨ x.disp.pinLogged then s
        else
          modDisp (emit s dispSource 0x152 sevNotice x.dist [g, x.seq, t.entry, pinnedBytes s]) g fun q => { q with pinLogged := true }

/-- The tokens of the messages that have arrived for the open instance start their warming. -/
def warmHeld (g : Nat) (s : State) : State :=
  match getGroup s g with
  | none => s
  | some x =>
    match x.bind with
    | none => s
    | some b =>
      (x.inbox.filter fun m => m.chunk == 0xFFC && m.gseq == x.seq).foldl (fun s m =>
        (dispatchToks b m.src x.myPos m.v).foldl (fun s t => warmToken g t s) s) s

/-- A slot needs no further decision: not cold, warm, or its fallback taken (R322). -/
def decided (q : DSlot) : Bool := q.cold.isNone || q.warm || q.state != 0

/-- Where the tokens of a cold slot go under SUBSTITUTE (R322): the SUBST entry's slot. -/
def substSlot (s : State) (x : Group) (b : Bytes) (q : DSlot) : Option Nat :=
  match q.cold with
  | none => none
  | some i =>
    let e := dirEntry (getDist s x.dist) i
    if entryFallback b e = 1 ∧ eSubst e ≠ 0xFFFF then some (eSlot (dirEntry (getDist s x.dist) (eSubst e))) else none

/-- The deadline instant of a cold slot, if it has one (R321). -/
def coldDeadline (s : State) (x : Group) (b : Bytes) (q : DSlot) : Option Nat :=
  match q.cold with
  | none => none
  | some i =>
    let us := bDeadline b (eClass (dirEntry (getDist s x.dist) i))
    if us = 0 then none else some (((getDist s x.dist).run.map (·.tStart)).getD 0 + 1000 * us)

/-- The tier-move engine has read every extent that a slot waits for; one that cannot be read is not waited for (R235, R244, R321). -/
def coldRead (s : State) (q : DSlot) : Bool := q.need.all fun k => !flashReadable s k.1

/-- Warming of a slot completes (R321). -/
def coldWarm (g slot : Nat) (s : State) : State :=
  match getGroup s g with
  | none => s
  | some x =>
    match x.bind, tfind x.disp.slots slot with
    | some b, some q =>
      let late : Bool := match coldDeadline s x b q with
        | some t => decide (t < time s)
        | none => false
      if q.cold.isNone ∨ !q.pinned ∨ q.warm ∨ q.state ≠ 0 ∨ late = true ∨ !coldRead s q then s
      else modDisp s g fun p => { p with slots := tset p.slots slot { q with warm := true } }
    | _, _ => s

/-- The deadline instant of an unwarmed slot has passed: DEADLINE_MISS, and the class fallback (R322). Warming in the cycle of the instant
still meets it (R321). -/
def coldExpire (g slot : Nat) (s : State) : State :=
  match getGroup s g with
  | none => s
  | some x =>
    match x.bind, tfind x.disp.slots slot with
    | some b, some q =>
      match coldDeadline s x b q with
      | none => s
      | some t =>
        if q.warm ∨ q.state ≠ 0 ∨ time s ≤ t then s
        else
          let i := q.cold.getD 0
          let e := dirEntry (getDist s x.dist) i
          let st := if (substSlot s x b q).isSome then 1 else 2
          let s := emit s dispSource 0x0D0 sevNotice x.dist [x.dist, eSeg e, eOffset e, st, i]
          let s := modGate s x.dist fun a => { a with approx := true }
          modDisp s g fun p => { p with slots := tset p.slots slot { q with state := st } }
    | _, _ => s

/-! ## Inboxes (R319, R320, R322) -/

/-- Tokens ordered by source position, then source token index; equal ones keep their order. -/
def insertTok (t : DTok) : List DTok → List DTok
  | [] => [t]
  | u :: l => if t.src < u.src ∨ (t.src = u.src ∧ t.tok < u.tok) then t :: u :: l else u :: insertTok t l

def sortToks (l : List DTok) : List DTok := l.foldl (fun a t => insertTok t a) []

/-- The tokens that arrived for a slot. -/
def slotToks (x : Group) (b : Bytes) (slot : Nat) : List DTok :=
  sortToks (((dispMsgs x b).flatMap (·.2)).filter fun t => t.slot == slot)

/-- The cold slots whose tokens move to a slot. -/
def movedInto (s : State) (x : Group) (b : Bytes) (slot : Nat) : List Nat :=
  (x.disp.slots.filter fun e => e.2.state == 1 && substSlot s x b e.2 == some slot).map (·.1)

/-- The cold slots that may still move their tokens to a slot. -/
def mayMove (s : State) (x : Group) (b : Bytes) (slot : Nat) : Bool :=
  x.disp.slots.any fun e => !decided e.2 && substSlot s x b e.2 == some slot

/-- The slot's inbox and the tokens beyond its capacity (R319, R322). -/
def inboxOf (s : State) (x : Group) (b : Bytes) (slot : Nat) : List DTok × List DTok :=
  if (tget {} x.disp.slots slot).state ≠ 0 then ([], [])
  else
    let l := slotToks x b slot ++ sortToks ((movedInto s x b slot).flatMap fun z => slotToks x b z)
    (l.take (bCap b (gP x)), l.drop (bCap b (gP x)))

/-- A slot's inbox can be written. -/
def slotReady (s : State) (x : Group) (b : Bytes) (slot : Nat) : Bool :=
  let q := tget {} x.disp.slots slot
  !q.written && decided q && !mayMove s x b slot

/-- The metadata record of an inbox row (R319). -/
def metaBytes (t : DTok) : Bytes :=
  pack 16 [(32, t.gate), (13, t.src), (3, 0), (4, t.rank), (12, 0), (32, t.tok), (32, t.entry)]

/-- A slot's inbox written (R319): rows, metadata, zero rows. -/
def inboxBytes (b : Bytes) (p : Nat) (l : List DTok) : Bytes :=
  let n := bCap b p - l.length
  l.flatMap (fun t => slice t.row 0 (bRowB b)) ++ zeros (n * bRowB b) ++ l.flatMap metaBytes ++ zeros (n * 16)

/-- Every local slot's inbox has been written. -/
def allWritten (x : Group) (b : Bytes) : Bool := (List.range (bNLocal b)).all fun i => (tget {} x.disp.slots i).written

/-- The counts a written slot adds here (R324): tokens moved in and beyond capacity, tokens skipped. -/
def slotCounts (s : State) (x : Group) (b : Bytes) (slot : Nat) (late : Nat) (l : List Nat) : List Nat :=
  let moved := ((movedInto s x b slot).map fun z => (slotToks x b z).length).sum
  let skipped := if (tget {} x.disp.slots slot).state = 2 then (slotToks x b slot).length else 0
  count (count (count l 5 (moved - late)) 6 late) 7 skipped

/-- The next inbox that is ready is written (R319, R322). -/
def inboxWrite (g : Nat) (s : State) : State :=
  match getGroup s g with
  | none => s
  | some x =>
    match x.bind with
    | none => s
    | some b =>
      if x.cur.isNone ∨ !allMsgs x b then s
      else
        match (List.range (bNLocal b)).find? (slotReady s x b) with
        | none => s
        | some slot =>
          let r := inboxOf s x b slot
          let counts := slotCounts s x b slot r.2.length x.disp.counts
          let s := match groupSeg s x (bInboxSeg b) with
            | none => s
            | some e =>
              let off := bInboxOff b + slot * bStride b
              let s := segWrite s e off (inboxBytes b (gP x) r.1)
              (r.1.zipIdx).foldl (fun s t => if t.1.poison then segMark s e (granules (off + t.2 * bRowB b) (bRowB b)) else s) s
          modDisp s g fun q => { q with
            counts := counts
            slots := tset q.slots slot { tget {} q.slots slot with written := true, inbox := r.1 }
            moved := tset q.moved slot r.2 }

/-- The words of the slot counts (R320). -/
def slotCountBytes (x : Group) (b : Bytes) : Bytes :=
  slice ((List.range (bNLocal b)).flatMap fun i =>
    let q := tget {} x.disp.slots i
    pack 4 [(24, q.inbox.length), (2, q.state)]) 0 (64 * cdiv (bNLocal b) 16)

/-- A value made for a take of a bound group, and every take that it lets complete. -/
def giveTake (g c : Nat) (d : Bytes) (s : State) : State :=
  serveTakes g (modCur s g fun i => { i with vals := tset i.vals c { data := d, latePos := 0, lateReady := time s, earlyReady := time s } })

/-- A take of a bound group's open instance has been issued and has no value yet. -/
def takeWaits (x : Group) (c : Nat) : Bool := match x.cur with
  | some i => i.takeIssued.contains c && !thas i.vals c
  | none => false

/-! ## Return and combine (R323, R324) -/

/-- What goes back for the tokens of one slot (R322, R323): a row of the put for each inbox row; a zero row for each token
that was skipped or found no room. -/
def slotReturns (x : Group) (b : Bytes) (i : Inst) (slot : Nat) : List (DTok × Bytes × Bool) :=
  let q := tget {} x.disp.slots slot
  let v := tget {} i.puts (0x800 + slot)
  let zero := fun (t : DTok) => (t, zeros (bORowB b), false)
  ((q.inbox.zipIdx).map fun t => (t.1, slice v.data (t.2 * bORowB b) (bORowB b), v.poison || t.1.poison))
    ++ (tget [] x.disp.moved slot).map zero
    ++ (if q.state = 2 then (slotToks x b slot).map zero else [])

/-- FP32 words of a row's part (R323). -/
def partRow (b : Bytes) (row : Bytes) (p : Nat) : Bytes :=
  let n := bORowB b / bNPart b
  (widen (bFmtOut b) (slice row (p * n) n)).flatMap (leBytes 4)

/-- The rows that came back for this member's tokens, contributed (R323). -/
def takeReturns (x : Group) (b : Bytes) (rs : List (Nat × Nat × Bytes)) (poison : Bool) (s : State) : State :=
  rs.foldl (fun s r => contribute x b r.1 r.2.1 (partRow b r.2.2) poison s) s

/-- When every output put and every inbox is there, one return message goes to every other member, and the own rows are
contributed (R323). -/
def tryReturn (g : Nat) (s : State) : State :=
  match getGroup s g with
  | none => s
  | some x =>
    match x.bind, x.cur with
    | some b, some i =>
      if x.disp.returned ∨ !allWritten x b ∨ !(List.range (bNLocal b)).all (fun k => thas i.puts (0x800 + k)) then s
      else
        let rs := (List.range (bNLocal b)).flatMap fun k => slotReturns x b i k
        let s := modDisp s g fun q => { q with returned := true }
        let s := modCur s g fun i => { i with done0 := (List.range (bNLocal b)).foldl (fun l k => nsAdd l (0x800 + k)) i.done0 }
        let s := (others x).foldl (fun s p =>
          let mine := (rs.filter fun r => r.1.src == p).foldl (fun l r => insertRet r l) []
          dispSend g p 0xFFD (returnBody (mine.map fun r => (r.1, r.2.1))) (mine.any fun r => r.2.2) s) s
        (rs.filter fun r => r.1.src == x.myPos).foldl (fun s r =>
          takeReturns x b [(r.1.tok, r.1.rank, r.2.1)] r.2.2 s) s
    | _, _ => s

/-- Checked return messages of the open instance are applied (R323). -/
def applyReturns (g : Nat) (s : State) : State :=
  match getGroup s g with
  | none => s
  | some x =>
    match x.bind with
    | none => s
    | some b =>
      let ms := x.inbox.filter fun m => m.chunk == 0xFFD && m.checked && m.gseq == x.seq
      let s := modGroup s g fun x => { x with inbox := x.inbox.filter fun m => !ms.contains m }
      ms.foldl (fun s m => takeReturns x b (returnRows b m.v.data) m.v.poison s) s

/-- Every record of the member is done (R324). -/
def recordsDone (s : State) (x : Group) (b : Bytes) : Bool :=
  match groupSeg s x (bCombSeg b) with
  | none => false
  | some e => x.disp.headers && (List.range (bNBlk b * bTB b * bNPart b)).all fun i =>
      fld (segRead s e (bCombOff b + i * bRecB b) 8) 63 48 != 0

/-- The instance counts record (R324). -/
def instCountBytes (gseq : Nat) (l : List Nat) : Bytes := pack 64 ((64, gseq) :: l.map fun v => (32, v))

/-- The take of chunk 0xFFF completes (R324): counts and running totals. -/
def instanceCounts (g : Nat) (s : State) : State :=
  match getGroup s g with
  | none => s
  | some x =>
    match x.bind with
    | none => s
    | some b =>
      if !takeWaits x 0xFFF ∨ !recordsDone s x b then s
      else
        let n := x.disp.counts
        let s := modGroup s g fun y => { y with totals := (y.totals.zip n).map fun e => (e.1 + e.2) % 2 ^ 64 }
        giveTake g 0xFFF (instCountBytes x.seq n) s

/-- The take of chunk 0xFFE completes once every inbox is written (R320). -/
def slotCountsTake (g : Nat) (s : State) : State :=
  match getGroup s g with
  | none => s
  | some x =>
    match x.bind with
    | none => s
    | some b => if !takeWaits x 0xFFE ∨ !allWritten x b then s else giveTake g 0xFFE (slotCountBytes x b) s

/-! ## Routing a block (R315–R318) -/

/-- The next block, when both its chunks are present, is routed, and the two leave the put half (R269); after the last the dispatch
messages go out. -/
def blockRoute (g : Nat) (s : State) : State :=
  match getGroup s g with
  | none => s
  | some x =>
    match x.bind, x.cur with
    | some b, some i =>
      let blk := x.disp.routed
      match tfind i.puts (2 * blk), tfind i.puts (2 * blk + 1) with
      | some routes, some rows =>
        if bNBlk b ≤ blk then s
        else
          let s := if x.disp.headers then s else writeHeaders x b s
          let a := routeBlock x (dirEntry (getDist s x.dist)) b blk routes rows { cnt := x.disp.cnt, counts := x.disp.counts }
          let s := a.zero.foldl (fun s z => zeroContribution x b z.1 z.2 s) s
          let s := a.bad.foldl (fun s _ => censusAdd s x.dist 1023 dispSource { nonfin := 1 }) s
          let s := match x.disp.unrLogged, a.bad with
            | false, u :: _ => emit s dispSource 0x151 sevNotice x.dist [g, x.seq, u.1, u.2.1, u.2.2]
            | _, _ => s
          let s := modCur s g fun i => { i with done0 := nsAdd (nsAdd i.done0 (2 * blk)) (2 * blk + 1) }
          let last := blk + 1 = bNBlk b
          let s := modDisp s g fun q => { q with
            headers := true, routed := blk + 1, cnt := a.cnt, counts := a.counts, toks := q.toks ++ a.toks
            unrLogged := q.unrLogged || a.bad != [], sent := last }
          if !last then s
          else
            let toks := match getGroup s g with
              | some y => y.disp.toks
              | none => []
            let s := (others x).foldl (fun s p =>
              let ts := toks.filter fun t => t.dst == p
              dispSend g p 0xFFC (dispatchBody ts) (ts.any (·.poison)) s) s
            (toks.filter fun t => t.dst == x.myPos).foldl (fun s t => warmToken g t s) s
      | _, _ => s
    | _, _ => s

/-- A waiting message of the wanted kind is taken from its pool into staging (R269, R318). -/
def receiveKind (want : Nat → Bool) (g p : Nat) (s : State) : State :=
  match takeMsg g p s with
  | none => s
  | some (fs, s') => if want (fld (msgBytes fs) 75 64) then chunkReceive g p fs s' else s

end Sys2Proof.Machine
end

