-- ==== Sys2Proof/Machine/Runs.lean ====
section
/-! DEFINITION. Runs of core programs: fetching descriptors, starting and ending a run (R84–R88, R107–R110), and control's
read of the advisory slots (R19). -/

namespace Sys2Proof.Machine

/-! ## Program images (R85) -/

/-- The bytes of a loaded program's copy. -/
def progBytes (p : Prog) (off n : Nat) : Bytes := memRead p.image off n

/-- A stream's first descriptor and its descriptor count. -/
def streamOf (p : Prog) (core : Nat) : Nat × Nat :=
  let r := progBytes p (64 + 16 * core) 16
  (fld r 63 0, fld r 95 64)

/-- The cores of a district: 64 per quarter (R84). -/
def coreCount (x : Dist) : Nat := 64 * x.q

/-! ## Fetch (R88) -/

/-- A group of up to 8 descriptors enters a core's queue when 8 entries are free; each latches the entry generation and the
segments (R22). -/
def fetchInto (x : Dist) (p : Prog) (core : Nat) (c : Core) : Core :=
  let st := streamOf p core
  if 8 < c.queue.length ∨ st.2 ≤ c.next then c
  else
    let n := min 8 (st.2 - c.next)
    { c with
      queue := c.queue ++ (List.range n).map fun i => ⟨progBytes p (st.1 + 64 * (c.next + i)) 64, c.next + i, x.gen, x.segs⟩
      next := c.next + n }

/-- The program that runs in a district. -/
def runProg (x : Dist) : Option (Run × Prog) :=
  match x.run with
  | some r => (tfind x.progs r.handle).map fun p => (r, p)
  | none => none

/-- The sequencers fetch for a core (R88). -/
def fetchCore (s : State) (d core : Nat) : State :=
  match runProg (getDist s d) with
  | some (r, p) => if r.stopped then s else modCore s d core (fetchInto (getDist s d) p core)
  | none => s

/-! ## Start and end of a run (R87, R107, R110) -/

/-- Every core of a district as a run starts: pairs at 0, the first descriptors queued; local SRAM persists (R83). -/
def startCores (x : Dist) (p : Prog) : AMap Core :=
  (List.range (coreCount x)).map fun i =>
    let c := tget {} x.cores i
    (i, fetchInto x p i { c with pairs := [], queue := [], next := 0, issued := [], halted := false })

/-- A loaded program starts (R87, R107); `tStart` is T_start of R229. Its counters restart (log entry 25). -/
def startRun (s : State) (d handle : Nat) (by_ : RunBy) (tStart : Nat) : State :=
  modDist s d fun x =>
    match tfind x.progs handle with
    | some p =>
      { x with
        run := some { handle := handle, by_ := by_, tStart := tStart }
        progs := tset x.progs handle { p with completed := 0, hard := 0, soft := 0 }
        cores := startCores x p }
    | none => x

/-- A core holds no issued descriptor and no prefetch in flight. -/
def coreIdle (c : Core) : Bool := c.issued == [] && c.prefetches == []

/-- Every core of a district is idle. -/
def allIdle (x : Dist) : Bool := x.cores.all fun e => coreIdle e.2

/-- A core has completed its stream. -/
def coreDone (p : Prog) (core : Nat) (c : Core) : Bool := coreIdle c && c.queue == [] && (streamOf p core).2 ≤ c.next

/-- Every stream of the run has completed (R110). -/
def runDone (x : Dist) : Bool :=
  match runProg x with
  | some (r, p) => !r.stopped && x.cores.all fun e => coreDone p e.1 e.2
  | none => false

/-- A program is loaded. -/
def loadedState (x : Dist) : Nat := if x.progs = [] then 1 else 2

/-- A pause starts to drain (R378); `drained` is t_drain where it is known. -/
def beginPause (s : State) (d : Nat) (drained : Option Nat) : State :=
  let s := modDist s d fun x => { x with prior := x.state, pausedAt := time s, pause := x.pause.map fun p => { p with start := time s, drained := drained } }
  setDistState s d 4

/-- The district leaves RUNNING as its run or loop ends (R370); one that is draining pauses from LOADED, and so does one whose
pause waits for a boundary (R381). -/
def leaveRunning (s : State) (d : Nat) : State :=
  let x := getDist s d
  if x.state = 3 then
    let s := setDistState s d (loadedState x)
    if x.pause.isSome then beginPause s d (some 0) else s
  else if x.state = 4 ∨ x.state = 5 then modDist s d fun x => { x with prior := loadedState x }
  else s

/-- The run of a district is over; queued descriptors go. -/
def clearRun (s : State) (d : Nat) : State :=
  modDist s d fun x => { x with run := none, cores := tmap x.cores fun _ c => { c with queue := [], halted := false } }

/-- A run whose streams have all completed ends: PROG_DONE; a plain run takes the district to LOADED (R110, R370). -/
def endRunDone (s : State) (d : Nat) : State :=
  match runProg (getDist s d) with
  | some (r, p) =>
    if !runDone (getDist s d) then s
    else
      let s := emit s (seqSource s d) 0x043 sevInfo d [r.handle, p.progId]
      let s := raiseBound s d vbProg
      let s := clearRun s d
      if r.by_ = .plain then leaveRunning (unbind s d vbProg) d else s
  | none => s

/-- A run that was stopped early ends once every core is idle and its abort, if any, is answered: PROG_HALTED with its causes
(R109, R110). -/
def endRunHalted (s : State) (d : Nat) : State :=
  match runProg (getDist s d) with
  | some (r, _) =>
    if !r.stopped ∨ r.aborts != [] ∨ !allIdle (getDist s d) then s
    else
      let s := raiseBound (emit s (seqSource s d) 0x044 sevNotice d (r.handle :: r.causes)) d vbProg
      let s := clearRun s d
      if r.by_ = .plain then leaveRunning (unbind s d vbProg) d else s
  | none => s

/-- A program unloaded (R87): its memory is free; the last one takes a LOADED district to CONFIGURED (R370). -/
def unloadProg (s : State) (d handle : Nat) : State :=
  match tfind (getDist s d).progs handle with
  | some p =>
    let s := { modDist s d (fun x => { x with progs := tdel x.progs handle }) with backs := tdel s.backs p.bid }
    let x := getDist s d
    if x.state = 2 ∧ x.progs = [] then setDistState s d 1 else s
  | none => s

/-- The sequencers stop issuing and every WAIT in progress is cancelled (R109, R372). -/
def cancelWaits (x : Dist) : Dist :=
  { x with cores := tmap x.cores fun _ c => { c with
      issued := c.issued.filter fun i => match i.work with
        | .wait _ => false
        | _ => true } }

/-- A run is aborted (R109): cause 0xFF stands for the abort. An update program has then not completed (R344). -/
def abortRun (s : State) (d : Nat) (p : Option Pend) : State :=
  modDist s d fun x => cancelWaits { x with gate := { x.gate with broken := x.gate.broken || (x.gate.code == 3 && x.run.isSome) }, run := x.run.map fun r =>
    { r with stopped := true, aborts := r.aborts ++ p.toList, causes := nsAdd r.causes 0xFF } }

/-! ## Advisories (R19) -/

/-- The value of an advisory slot. -/
def advValue (s : State) (k : Nat) : Nat := (tget {} s.adv k).value

/-- The five slot values as ADVISORY_READ carries them (R19): THERMAL_LIMIT's are the junction and the margin. -/
def advValues (s : State) : List Nat :=
  [advValue s 1, advValue s 2, advValue s 3, twos 16 (tget {} s.adv 3).margin, advValue s 4, advValue s 5]

/-- An advisory posted: it replaces an unread one, except the latched kinds 4 and 5. -/
def postAdvisory (s : State) (k value : Nat) : State :=
  let a := tget {} s.adv k
  if a.unread ∧ (k = 4 ∨ k = 5) then s else { s with adv := tset s.adv k { value := value, unread := true } }

/-- Control reads every slot at a boundary of district d: the read is logged, caps and limits are recorded, and an unread
CHECKPOINT_ADVISED asks every configured snapshot engine that is IDLE for a checkpoint (R19, R406). -/
def readAdvisories (s : State) (d : Nat) : State :=
  let s := emit s (cpSource s d) 0x008 sevInfo 0xFF (advValues s)
  let advised := (tget {} s.adv 4).unread
  { s with
    planned := [1, 2, 3].foldl (fun m k => if (tget {} s.adv k).unread then tset m k (advValue s k) else m) s.planned
    adv := tmap s.adv fun _ a => { a with unread := false }
    dists := tmap s.dists fun _ x =>
      if advised && x.snap.policy.isSome && x.snap.code == 0 then { x with snap := { x.snap with asked := x.snap.asked ||| 2 } } else x }

end Sys2Proof.Machine
end

