-- ==== Sys2Proof/Machine/Snapshot.lean ====
section
/-! DEFINITION. The snapshot engine (R405–R412): regions, headers, capture, mirrors, checks, restore and fill. -/

namespace Sys2Proof.Machine

/-- The snapshot engine of a district changed. -/
def modSnap (s : State) (d : Nat) (f : Snap → Snap) : State := modDist s d fun x => { x with snap := f x.snap }

/-- Flash is unusable while PUF-derived keys are unavailable: the blocking setting of R417 (R244). -/
def keyErr (s : State) : Bool × Err :=
  (!s.sec.keys, conflict 8 (if s.sec.lifecycle = 0 ∨ s.sec.lifecycle = 3 then 0x40 + s.sec.lifecycle else 0x80 + dbgLevel s))

/-- A two-stage command that a device fault stopped: INTERNAL_FAULT, with FW_FAULT logged (R68). The internal fault code and
the failing unit are left open (log entry 24). -/
def internalFault (s : State) (d : Nat) (p : Pend) (why : Nat) : State :=
  let s := emit s (cpSource s d) 0x00A sevError p.req.district.toNat
    [p.req.fn, p.req.seq.toNat, p.cmd, Config.causeCode 0x00A why, Config.causeCode 0x00B why]
  finish s p 0x40 0 []

/-! ## Shards (R330, R405, R409) -/

/-- The protected segments of a district, ascending (R330). -/
def shardSegs (x : Dist) : List (Nat × Seg) :=
  match x.gate.job with
  | some j => x.segs.filter fun e => j.protect.testBit e.1
  | none => []

/-- The bytes of all saved segments. -/
def shardBytes (x : Dist) : Nat := ((shardSegs x).map fun e => e.2.size).sum

/-- Extents that a number of bytes takes. -/
def extentsOf (n : Nat) : Nat := cdiv n 65536

/-- META_EXT: the member list and the layer records (R409). -/
def metaExt (j : Job) : Nat := extentsOf (j.memberBytes.length + j.layerBytes.length)

/-- Region extents of the saved segments, each starting on a new one: (number, entry, first extent). -/
def layout : List (Nat × Seg) → Nat → List (Nat × Seg × Nat)
  | [], _ => []
  | (n, e) :: l, at_ => (n, e, at_) :: layout l (at_ + extentsOf e.size)

/-- The directory of extent 0 (R409). -/
def dirBytes (l : List (Nat × Seg × Nat)) : Bytes := l.flatMap fun r =>
  pack 32 [(8, r.1), (3, r.2.1.tier), (1, b2n r.2.1.coded), (52, 0), (64, r.2.1.size), (32, r.2.2)]

/-- Bytes padded to whole extents. -/
def padExt (b : Bytes) : Bytes := slice b 0 (65536 * extentsOf b.length)

/-- The metadata extents. -/
def metaBytesOf (j : Job) : Bytes := padExt (j.memberBytes ++ j.layerBytes)

/-- The saved segments' bytes as they stand in the capture buffer, each padded to whole extents. -/
def bufData (s : State) (buf : Seg) : Nat → List (Nat × Seg) → Bytes
  | _, [] => []
  | off, (_, e) :: l => padExt (segRead s buf off e.size) ++ bufData s buf (off + e.size) l

/-! ## Headers (R408, R409) -/

/-- The header's bytes 0–159 with CHECK_KIND 0 and MIRROR 0. -/
def headerOf (c : Capture) (j : Job) (nseg dataExt : Nat) (digest : Bytes) : Bytes :=
  pack 96 [(32, 0x50414E53), (8, 1), (24, 0), (64, c.seq), (64, c.step), (64, c.cursor), (32, 0), (13, j.myPos), (3, 0),
    (13, j.members.length), (3, 0), (16, 0x3000), (16, 0x0101), (3, c.cause), (29, 0), (32, j.sig), (32, crc32c j.layerBytes),
    (16, nseg), (16, 0), (32, metaExt j), (64, dataExt), (64, c.at_), (64, c.bytes)] ++ slice digest 0 64

/-- Extent 0 with a check and the MIRROR bit put in and HDR_CRC made again (R408). -/
def withCheck (h : Bytes) (kind loss : Nat) (mirror : Bool) : Bytes :=
  let b := slice h 0 5 ++ [BitVec.ofNat 8 (kind + 4 * b2n mirror)] ++ slice h 6 26 ++ leBytes 4 loss ++ slice h 36 124
  b ++ leBytes 4 (crc32c b) ++ h.drop 164

/-- A header is valid (R408). -/
def headValid (h : Bytes) : Bool := fld h 31 0 == 0x50414E53 && fld h 39 32 == 1 && fld h 1311 1280 == crc32c (slice h 0 160)

/-- Extent `i` of a region, region number 0–3: own A, own B, mirror A, mirror B. -/
def regionExtent (s : State) (p : Policy) (r i : Nat) : Bytes :=
  memRead (getExtent s p.volume (p.regions.getD r 0 + i)).data 0 65536

/-- Extent 0 of a region, and whether its header is valid. -/
def regionHead (s : State) (p : Policy) (r : Nat) : Bytes := regionExtent s p r 0

/-- One extent of a region written (R241, R408). -/
def writeRegion (s : State) (p : Policy) (r i : Nat) (d : Bytes) : State :=
  extentWrite s p.volume (p.regions.getD r 0 + i) (slice d 0 65536) []

/-- Consecutive extents of a region written. -/
def writeRun (s : State) (p : Policy) (r first : Nat) (d : Bytes) : State :=
  (((chunksOf 65536 (d.length + 1) d).zipIdx).foldl fun s e => writeRegion s p r (first + e.2) e.1) s

/-- The directory entries of extent 0: segment, tier, coded, size, first extent. -/
def headDir (h : Bytes) : List (Nat × Nat × Bool × Nat × Nat) :=
  (List.range (fld h 463 448)).map fun i =>
    let r := slice h (256 + 32 * i) 32
    (fld r 7 0, fld r 10 8, bit r 11, fld r 127 64, fld r 159 128)

/-- SHA-512 over directory, metadata and data in extent order (R409), read through a region's extents. -/
def digestOf (h : Bytes) (ext : Nat → Bytes) : Bytes :=
  let n := fld h 511 480 + fld h 575 512
  Config.sha512 (slice h 256 (32 * fld h 463 448) ++ (List.range n).flatMap fun i => ext (1 + i))

/-! ## Requests and the start (R406, R407) -/

/-- The request a member carries in the verdict round: cause bits (R406). -/
def snapRequest (s : State) (d : Nat) : Nat :=
  let n := (getDist s d).snap
  match n.policy with
  | none => 0
  | some p => n.asked ||| (if p.intervalS ≠ 0 ∧ n.lastAt + p.intervalS * 1000000000 ≤ time s then 1 else 0)

/-- A snapshot starts (R406, R407). -/
def snapStart (s : State) (d cause : Nat) : State :=
  let x := getDist s d
  let n := x.snap
  if n.policy.isNone ∨ n.code ≠ 0 then s
  else
    let c : Capture := { seq := n.seq + 1, step := x.gate.step, cursor := x.gate.cursor, cause := cause, at_ := time s }
    let s := modSnap s d fun n => { n with code := 1, seq := n.seq + 1, lastAt := time s, asked := 0, due := none, cap := some c }
    emit s (cpSource s d) 0x242 sevInfo d [c.seq, c.step, cause]

/-- A snapshot fails (R409): causes 0 POISON, 1 SPACE, 2 MEDIA, 3 MIRROR, 4 DIGEST, whose numbers the spec does not give. -/
def snapFail (s : State) (d seq cause : Nat) : State :=
  let s := modSnap s d fun n => { n with code := 0, cap := none, mirHead := if cause = 3 then none else n.mirHead }
  emit s (cpSource s d) 0x244 sevError d [seq, Config.causeCode 0x244 cause]

/-- The own and mirror regions being written. -/
def ownRegion (n : Snap) : Nat := b2n n.nextOwn
def mirRegion (n : Snap) : Nat := 2 + b2n n.nextMir

/-- A message to one member of SNAP_GROUP; the spec gives its meaning, not its bytes: kinds 4 shard extent, 5 fill request,
6 fill extent (R407, R412). -/
def snapMsg (s : State) (p : Policy) (j : Job) (pos kind : Nat) (args : List Nat) (data : Bytes) : State :=
  let links := match getGroup s p.group with
    | some x => x.links
    | none => 0
  sysSend s p.group links ((j.members.getD pos ⟨0, none⟩).id) kind args data

/-- The capture is complete (R407–R409). -/
def captureDone (d : Nat) (s : State) : State :=
  let x := getDist s d
  match x.snap.policy, x.snap.cap, x.gate.job with
  | some p, some c, some j =>
    if x.snap.code ≠ 1 then s
    else
      let segs := shardSegs x
      let lay := layout segs (1 + metaExt j)
      let dataExt := (segs.map fun e => extentsOf e.2.size).sum
      if segs.any fun e => segPoison s e.2 0 e.2.size != [] then snapFail s d c.seq 0
      else if p.regionExt < 1 + metaExt j + dataExt then snapFail s d c.seq 1
      else if s.flash.readOnly || !s.sec.keys then snapFail s d c.seq 2
      else
        match tfind x.segs p.bufSeg with
        | none => snapFail s d c.seq 1
        | some buf =>
          let s := (segs.foldl (fun (a : State × Nat) e =>
            (segWrite a.1 buf a.2 (segRead a.1 e.2 0 e.2.size), a.2 + e.2.size)) (s, p.bufOff)).1
          let body := metaBytesOf j ++ bufData s buf p.bufOff segs
          let c := { c with bytes := shardBytes x }
          let h := headerOf c j segs.length dataExt (Config.sha512 (dirBytes lay ++ body))
          let head := withCheck (slice h 0 256 ++ dirBytes lay) 0 0 false
          let s := modSnap s d fun n => { n with code := 2, cap := some { c with head := head } }
          let s := writeRegion s p (ownRegion x.snap) 0 []
          let holder := (j.myPos + p.ms) % max 1 j.members.length
          let s := snapMsg s p j holder 4 [c.seq, 0] head
          (((chunksOf 65536 (body.length + 1) body).zipIdx).foldl fun s e => snapMsg s p j holder 4 [c.seq, 1 + e.2] e.1) s
  | _, _, _ => s

/-- Extent 0 of the own region, and of the mirror region when it holds a header, written with the check (R408). -/
def rewriteChecks (s : State) (d : Nat) (own mir : Nat) (kind loss : Nat) : State :=
  let n := (getDist s d).snap
  match n.policy, n.cap with
  | some p, some c =>
    let s := if c.ownDone then writeRegion s p own 0 (withCheck c.head kind loss false) else s
    let h := regionHead s p mir
    if c.mirDone ∧ headValid h then writeRegion s p mir 0 (withCheck h kind loss true) else s
  | _, _ => s

/-- The snapshot closes when its writes are done and its check is known (R407); until then it is CHECK_PENDING. -/
def closeSnap (s : State) (d : Nat) : State :=
  let n := (getDist s d).snap
  match n.cap with
  | none => s
  | some c =>
    if !c.ownDone ∨ !c.mirDone ∨ n.code < 2 ∨ 3 < n.code then s
    else
      match c.check with
      | none => modSnap s d fun n => { n with code := 3 }
      | some (kind, loss) =>
        let s := rewriteChecks s d (b2n !n.nextOwn) (2 + b2n !n.nextMir) kind loss
        let s := modSnap s d fun n => { n with code := 0, cap := none }
        emit s (cpSource s d) 0x243 sevInfo d [c.seq, kind, c.bytes]

/-- A region is written whole (R408): the metadata and data extents, then the header. -/
def regionDone (d : Nat) (mirror : Bool) (s : State) : State :=
  let x := getDist s d
  let n := x.snap
  match n.policy, x.gate.job with
  | some p, some j =>
    if !s.sec.keys then s
    else if mirror then
      match n.mirHead, n.mirAll with
      | none, _ => s
      | some _, false => s
      | some h, true =>
        let k := match n.cap with
          | some c => c.check.getD (0, 0)
          | none => (0, 0)
        let s := writeRegion s p (mirRegion n) 0 (withCheck h k.1 k.2 true)
        let s := modSnap s d fun n => { n with nextMir := !n.nextMir, mirHead := none, mirAll := false, cap := n.cap.map fun c => { c with mirDone := true } }
        closeSnap s d
    else
      match n.cap with
      | none => s
      | some c =>
        if n.code ≠ 2 ∨ c.ownDone then s
        else if s.flash.readOnly then snapFail s d c.seq 2
        else
          let data := match tfind x.segs p.bufSeg with
            | some buf => bufData s buf p.bufOff (shardSegs x)
            | none => []
          let s := writeRun s p (ownRegion n) 1 (metaBytesOf j ++ data)
          let k := c.check.getD (0, 0)
          let s := writeRegion s p (ownRegion n) 0 (withCheck c.head k.1 k.2 false)
          let s := modSnap s d fun n => { n with nextOwn := !n.nextOwn, cap := some { c with ownDone := true } }
          closeSnap s d
  | _, _ => s

/-- The verdict of the check step gives CHECK_KIND and CHECK_LOSS (R407). -/
def snapCheck (s : State) (d step kind loss : Nat) : State :=
  match (getDist s d).snap.cap with
  | some c =>
    if c.step = step ∧ c.check.isNone then
      closeSnap (modSnap s d fun n => { n with cap := some { c with check := some (kind, loss) } }) d
    else s
  | none => s

/-- A run that ends first leaves the check unverifiable (R407). -/
def snapRunEnds (s : State) (d : Nat) : State :=
  match (getDist s d).snap.cap with
  | some c => snapCheck s d c.step 3 0
  | none => s

/-- A mirror holder writes one extent of the shard it receives (R407, R408); extent 0 waits for the header's turn. -/
def mirrorReceive (d ext : Nat) (data : Bytes) (last : Bool) (s : State) : State :=
  let n := (getDist s d).snap
  match n.policy with
  | none => s
  | some p =>
    if s.flash.readOnly ∨ !s.sec.keys then s
    else
      let s := if ext = 0 then modSnap (writeRegion s p (mirRegion n) 0 []) d fun n => { n with mirHead := some data, mirAll := false }
        else if ext < p.regionExt then writeRegion s p (mirRegion n) ext data else s
      modSnap s d fun n => { n with mirAll := n.mirAll || last }

/-! ## Restore (R410, R411) -/

/-- The segment number a saved segment goes to (R410). -/
def remapTo (remap : Bytes) (seg : Nat) : Nat :=
  let t := leNat (slice remap seg 1)
  if t = 0 then seg else t

/-- Every destination is valid, of the saved tier and large enough (R410). -/
def destsOk (x : Dist) (h remap : Bytes) : Bool :=
  (headDir h).all fun e => match tfind x.segs (remapTo remap e.1) with
    | some g => g.tier == e.2.1 && e.2.2.2.1 ≤ g.size
    | none => false

/-- The region of the wanted kind whose valid header carries SEQ. -/
def findRegion (s : State) (p : Policy) (mirror : Bool) (seq : Nat) : Option Nat :=
  (if mirror then [2, 3] else [0, 1]).find? fun r => headValid (regionHead s p r) && fld (regionHead s p r) 127 64 == seq

/-- What a verify needs to know of a header (R411). -/
def verifyOf (x : Dist) (h : Bytes) : Nat × Nat × Nat × Nat × Bool :=
  let same := match x.gate.job with
    | some j => fld h 316 304 == j.members.length && fld h 415 384 == j.sig && fld h 447 416 == crc32c j.layerBytes
    | none => false
  (fld h 127 64, fld h 191 128, fld h 41 40, fld h 287 256, (fld h 41 40 == 1 || fld h 41 40 == 2) && fld h 335 320 == 0x3000 && same)

/-- The poisoned granules among the extents of a region that a range covers, relative to the range's start. -/
def regionPoison (s : State) (p : Policy) (r first n : Nat) : List Nat :=
  (List.range (cdiv n 64)).filter fun g =>
    (getExtent s p.volume (p.regions.getD r 0 + first + g / 1024)).poison.contains (g % 1024)

/-- Every saved segment written to its destination (R410). -/
def restoreSegs (s : State) (d : Nat) (p : Policy) (r : Nat) (h remap : Bytes) : State :=
  (headDir h).foldl (fun s e =>
    match tfind (getDist s d).segs (remapTo remap e.1) with
    | some g =>
      let n := e.2.2.2.1
      let data := (List.range (extentsOf n)).flatMap fun i => regionExtent s p r (e.2.2.2.2 + i)
      segMark (segWrite s g 0 (slice data 0 n)) g (regionPoison s p r e.2.2.2.2 n)
    | none => s) s

/-- STEP and CURSOR set as STEP_SET does (R348, R410). -/
def setStep (s : State) (d step cursor : Nat) : State :=
  modDist s d fun x => { x with gate := { x.gate with code := 0, step := step, cursor := cursor, replay := 0, opening := false } }

/-- The engine has read every extent of the region that a restore needs (R235, R242). -/
def restoreRead (s : State) (p : Policy) (r : Restore) : Bool :=
  let h := regionHead s p r.region
  s.sec.keys && (List.range (1 + fld h 511 480 + fld h 575 512)).all r.got.contains

/-- The restore completes or fails (R410), once its extents are read. -/
def restoreDone (d : Nat) (s : State) : State :=
  let x := getDist s d
  match x.snap.policy, x.snap.restore with
  | some p, some r =>
    if !restoreRead s p r then s
    else
    let h := regionHead s p r.region
    let s := modSnap s d fun n => { n with code := 0, restore := none }
    if slice (digestOf h (regionExtent s p r.region)) 0 64 != slice h 96 64 then
      let s := emit s (cpSource s d) 0x244 sevError d [fld h 127 64, Config.causeCode 0x244 4]
      internalFault s d r.pend 0
    else
      let s := restoreSegs s d p r.region h r.remap
      let s := setStep s d (fld h 191 128) (fld h 255 192)
      let s := if r.verify then modSnap s d fun n => { n with verify := some (verifyOf x h) } else s
      finishOk s r.pend []
  | _, _ => s

/-! ## Fill (R412–R414) -/

/-- Extents of a snapshot: header, metadata and data. -/
def fillTotal (f : Fill) : Nat := match f.head with
  | some h => 1 + fld h 511 480 + fld h 575 512
  | none => 0

/-- The segment and offset a data extent of a snapshot belongs to. -/
def extentHome (h : Bytes) (i : Nat) : Option (Nat × Nat × Nat) :=
  ((headDir h).find? fun e => e.2.2.2.2 ≤ i && i < e.2.2.2.2 + extentsOf e.2.2.2.1).map fun e =>
    (e.1, (i - e.2.2.2.2) * 65536, min 65536 (e.2.2.2.1 - (i - e.2.2.2.2) * 65536))

/-- The saved TIER of a segment in a snapshot's directory (R409). -/
def destTier (h : Bytes) (seg : Nat) : Nat := (((headDir h).find? fun e => e.1 == seg).map fun e => e.2.1).getD 0

/-- The bytes of extent `i` as the fill holds them: metadata, or read back from its segment. -/
def fillExtent (s : State) (d : Nat) (f : Fill) (h : Bytes) (i : Nat) : Bytes :=
  if i ≤ fld h 511 480 then slice (tget [] f.metas i) 0 65536
  else
    match extentHome h i with
    | some (n, off, len) => match tfind (getDist s d).segs n with
      | some g => slice (segRead s g off len) 0 65536
      | none => zeros 65536
    | none => zeros 65536

/-- A fill stops or fails (R412, R414): causes 1 SOURCE, 2 DIGEST. -/
def fillFail (s : State) (d cause : Nat) : State :=
  match (getDist s d).snap.fill with
  | none => s
  | some f =>
    let s := modSnap s d fun n => { n with code := 0, fill := some { f with pend := [], have_ := if cause = 2 then [] else f.have_ } }
    let s := emit s (cpSource s d) 0x247 sevError d [f.seq, cause]
    f.pend.foldl (fun s p => internalFault s d p 1) s

/-- The extents still missing are requested from the holder (R412). -/
def fillRequests (s : State) (d : Nat) : State :=
  let x := getDist s d
  match x.snap.policy, x.gate.job, x.snap.fill with
  | some p, some j, some f =>
    match f.head with
    | none => snapMsg s p j f.src 5 [f.seq, 0] []
    | some _ =>
      ((List.range (fillTotal f)).filter fun i => !f.have_.contains i).foldl (fun s i => snapMsg s p j f.src 5 [f.seq, i] []) s
  | _, _, _ => s

/-- A full bitmap: DIGEST is verified, STEP and CURSOR set, and the fill is done (R412). -/
def fillCheck (s : State) (d : Nat) : State :=
  let x := getDist s d
  match x.snap.fill, x.gate.job with
  | some f, some j =>
    match f.head with
    | none => s
    | some h =>
      if f.have_.length < fillTotal f then s
      else if slice (digestOf h (fillExtent s d f h)) 0 64 != slice h 96 64 then fillFail s d 2
      else
        let s := setStep s d (fld h 191 128) (fld h 255 192)
        let s := modSnap s d fun n => { n with code := 0, fill := some { f with pend := [] }, verify := if f.verify then some (verifyOf x h) else n.verify }
        let s := emit s (cpSource s d) 0x246 sevInfo d [f.seq, j.myPos, fillTotal f]
        f.pend.foldl (fun s p => finishOk s p (pack 8 [(32, fillTotal f), (32, f.resent)])) s
  | _, _ => s

/-- One extent arrives at the spare (R412): its CRC is checked, it is written into its segment, where that is one that R410 would
restore it to, and its bit is set. A failed
one is requested again; extent 0 comes first, and a different snapshot's clears the bitmap. -/
def fillReceive (d ext : Nat) (data : Bytes) (ok : Bool) (s : State) : State :=
  let x := getDist s d
  match x.snap.policy, x.gate.job, x.snap.fill with
  | some p, some j, some f =>
    if x.snap.code ≠ 5 then s
    else if !ok then snapMsg (modSnap s d fun n => { n with fill := some { f with resent := f.resent + 1 } }) p j f.src 5 [f.seq, ext] []
    else
      match f.head with
      | none =>
        if ext ≠ 0 ∨ !headValid data ∨ fld data 127 64 ≠ f.seq then s
        else fillCheck (fillRequests (modSnap s d fun n => { n with fill := some { f with head := some data, have_ := nsAdd f.have_ 0 } }) d) d
      | some h =>
        if ext = 0 then
          if slice data 96 64 == slice h 96 64 then fillCheck (modSnap s d fun n => { n with fill := some { f with have_ := nsAdd f.have_ 0 } }) d
          else fillRequests (modSnap s d fun n => { n with fill := some { f with head := some data, have_ := [0], metas := [] } }) d
        else if fillTotal f ≤ ext then s
        else
          let g := { f with have_ := nsAdd f.have_ ext, metas := if ext ≤ fld h 511 480 then tset f.metas ext data else f.metas }
          let s := match extentHome h ext with
            | some (n, off, len) => match tfind x.segs n with
              | some e => if fld h 511 480 < ext ∧ off + len ≤ e.size ∧ destTier h n = e.tier then segWrite s e off (slice data 0 len) else s
              | none => s
            | none => s
          fillCheck (modSnap s d fun n => { n with fill := some g }) d
  | _, _, _ => s

/-- A serving holder sends a requested extent of the mirrored snapshot (R412). -/
def fillRequest (d ext : Nat) (s : State) : State :=
  let x := getDist s d
  match x.snap.policy, x.gate.job, x.snap.serving with
  | some p, some j, some seq =>
    if x.snap.code ≠ 6 then s
    else
      match findRegion s p true seq with
      | none => s
      | some r =>
        if p.regionExt ≤ ext then s
        else
        let b := regionExtent s p r ext
        let holder := fld (regionHead s p r) 300 288
        snapMsg s p j holder 6 [seq, ext, crc32c b] b
  | _, _, _ => s

end Sys2Proof.Machine
end

