-- ==== Sys2Proof/Machine/StepGate.lean ====
section
/-! DEFINITION. The step gate and the step engine (R330–R348). -/

namespace Sys2Proof.Machine

/-- The step gate's source number (R35). -/
def gateSource : Nat := 0x887

/-- A gate event: every one raises the job's vector (R330, R348). -/
def gateEvent (s : State) (d kind sev : Nat) (payload : List Nat) : State :=
  raiseBound (emit s gateSource kind sev d payload) d vbStep

/-- Cause bits of the outcome record (R346, R347). -/
def cNf : Nat := 1
def cPoison : Nat := 2
def cTaint : Nat := 4
def cFault : Nat := 8
def cTimeout : Nat := 16
def cHost : Nat := 32
def cEarly : Nat := 64
def cUpdate : Nat := 128

/-- The causes of a combined input. -/
def causesOf (nf poison : Nat) (taint fault : Bool) : Nat :=
  (if nf ≠ 0 then cNf else 0) + (if poison ≠ 0 then cPoison else 0) + (if taint then cTaint else 0) + (if fault then cFault else 0)

def msgCauses (m : GateMsg) : Nat := causesOf m.nf m.poison m.taint m.fault

/-- The member's own causes so far (R339). -/
def ownCauses (g : Gate) : Nat := causesOf g.nf g.poison g.taint g.fault

/-! ## Rings of the gate (R278, R340) -/

/-- Members per ward and wards of a member list: hierarchical in WARD mode when more than one ward is spanned (R268). -/
def gateShape (s : State) (ms : List Member) : Nat × Nat :=
  let ws := (ms.map fun m => wardOf m.id).foldl nsAdd []
  if s.links.cfg.ward ∧ 1 < ws.length then (ms.length / ws.length, ws.length) else (ms.length, 1)

/-- The members of a list are distinct, the own entry is the device's, and the hierarchy rules hold (R267, R268). -/
def membersOk (s : State) (ms : List Member) (myPos : Nat) (flat : Bool) : Bool :=
  let ws := (ms.map fun m => wardOf m.id).foldl nsAdd []
  (ms.zipIdx).all (fun a => (ms.zipIdx).all fun b => a.2 == b.2 || a.1.id != b.1.id)
    && (ms.getD myPos ⟨4096, none⟩).id == ownId s
    && (!s.links.cfg.ward || flat || ws.length ≤ 1
      || (ms.length % ws.length == 0 && (ms.zipIdx).all fun m => wardOf m.1.id == ws.getD (m.2 / (ms.length / ws.length)) 0))

/-- The positions whose contributions a position has when it sends on; position 0 has all. -/
def ringNeeds (m w pos : Nat) : List Nat :=
  let ward := fun u => (List.range m).map fun i => u * m + i
  if pos % m ≠ 0 then (List.range (pos % m)).map fun i => pos / m * m + i + 1
  else if pos / m = 0 then (List.range w).flatMap ward
  else (List.range (pos / m)).flatMap fun u => ward (u + 1)

/-- Where a position sends what it has combined: none at position 0. -/
def ringNext (m w pos : Nat) : Option Nat :=
  if pos % m ≠ 0 then some (pos / m * m + (pos % m + 1) % m)
  else if pos / m ≠ 0 then some ((pos / m + 1) % w * m)
  else none

/-- Where a position passes on what position 0 distributes. -/
def ringSpread (m w pos : Nat) : List Nat :=
  if pos % m = 0 then (if pos / m + 1 < w then [pos + m] else []) ++ (if 1 < m then [pos + 1] else [])
  else if pos % m + 1 < m then [pos + 1] else []

/-- The content of a gate message, whose layout the spec does not give (R340): its round, signature, inputs and action. -/
def gateArgs (m : GateMsg) : List Nat :=
  [match m.round with
    | .contribution => 0
    | .decision => 1
    | .commit => 2
    | .resume => 3,
   m.sig, m.nf, m.poison, b2n m.taint, b2n m.fault, b2n m.approx, m.loss, b2n m.clean, m.request, b2n m.busy, b2n m.held, m.action]
    ++ m.members

/-- A message sent to positions on the GATE channel (R251, R340): kind 0 of that channel. -/
def gateSend (s : State) (j : Job) (ps : List Nat) (m : GateMsg) : State :=
  ps.foldl (fun s p => sysSend s 65 0xFFFFFF ((j.members.getD p ⟨0, none⟩).id) 0 (gateArgs m) []) s

/-- A message passed on along the distribution from this position. -/
def gateSpread (s : State) (j : Job) (m : GateMsg) : State :=
  let sh := gateShape s j.members
  gateSend s j (ringSpread sh.1 sh.2 j.myPos) m

/-- Two contributions combined (R340, R344, R406). -/
def joinMsgs (j : Job) (a b : GateMsg) : GateMsg :=
  { round := a.round, sig := j.sig, members := b.members.foldl nsAdd a.members
    nf := satAdd censusMax a.nf b.nf, poison := satAdd (2 ^ 32 - 1) a.poison b.poison
    taint := a.taint || b.taint, fault := a.fault || b.fault, approx := a.approx || b.approx
    loss := if b.members.contains j.lossPos then b.loss else a.loss
    clean := a.clean && b.clean, request := a.request ||| b.request, busy := a.busy || b.busy }

/-- A message whose signature differs is the FAULT cause, which clears CLEAN (R330, R344). -/
def signed (j : Job) (m : GateMsg) : GateMsg := if m.sig = j.sig then m else { m with fault := true, clean := false }

/-! ## Records, ends and openings (R342, R344–R346, R348) -/

/-- The 64 bytes of an outcome record (R346). -/
def outcomeBytes (o : Outcome) : Bytes :=
  pack 64 [(64, o.step), (64, o.cursor), (2, o.verdict), (6, 0), (8, o.causes), (4, o.replays), (1, b2n o.approx), (11, 0),
    (32, o.loss), (48, o.nf), (16, 0), (32, o.poison), (32, 0), (64, o.tOpen), (64, o.tEval), (64, o.tDone)]

/-- The record written (R346). -/
def writeOutcome (s : State) (d verdict causes : Nat) (m : GateMsg) : State :=
  modGate s d fun g => { g with record :=
    { step := g.step, cursor := g.cursor, verdict := verdict, causes := causes, replays := min g.replay 15, approx := m.approx
      loss := m.loss, nf := m.nf, poison := m.poison, tOpen := g.tOpen, tEval := g.tEval, tDone := time s } }

/-- A STEP_RUN ends: END 0 count reached, 1 stopped, 2 refused, 3 torn (R348). The gate takes state `code`. -/
def endLoop (d end_ code : Nat) (s : State) : State :=
  let s := snapRunEnds s d
  let g := (getDist s d).gate
  let s := modGate s d fun g => { g with
    code := code, run := none, opening := false, stop := false, acc := none, accC := none, mine := false, sent := false, held := none
    commit := none, updWait := false, early := none, ends := false }
  match g.run with
  | some r => leaveRunning (finishOk s r.pend (pack 16 [(64, g.step), (8, end_)])) d
  | none => s

/-- The step counter and the cursor advance (R332). -/
def advanceStep (s : State) (d : Nat) : State :=
  modGate s d fun g => { g with
    step := (g.step + 1) % 2 ^ 64
    cursor := (g.cursor + ((g.job.map (·.recs)).getD 0)) % 2 ^ 64
    replay := 0, run := g.run.map fun r => { r with done := r.done + 1 } }

/-- The next attempt opens at the following boundary, unless the loop is to end (R345, R348, R372). -/
def nextOpening (d : Nat) (s : State) : State :=
  let x := getDist s d
  match x.gate.run with
  | none => modGate s d fun g => { g with code := if g.code = 5 then 5 else 0 }
  | some r =>
    if x.gate.stop then endLoop d 1 0 s
    else if r.count ≠ 0 ∧ r.count ≤ r.done then endLoop d 0 0 s
    else if x.gate.ends then endLoop d 2 x.gate.code s
    else modGate s d fun g => { g with opening := true }

/-- The verify of R411 that applies to a verdict: one of the wanted step that commits or refuses with NF as its only cause. -/
def verifyDue (x : Dist) (causes : Nat) : Option (Nat × Nat × Nat × Nat × Bool) :=
  match x.snap.verify with
  | some v => if v.2.1 = x.gate.step ∧ (causes = 0 ∨ causes = cNf) then some v else none
  | none => none

/-- SNAP_VERIFY logged and the verify spent (R411): result 0 match, 1 mismatch, 2 unverifiable. -/
def logVerify (s : State) (d seq result loss : Nat) : State :=
  let s := modSnap s d fun n => { n with verify := none }
  emit s (cpSource s d) 0x245 (if result = 1 then sevError else sevInfo) d [seq, result, loss]

/-- The result of comparing a loss with a verify's CHECK_LOSS. -/
def verifyResult (v : Nat × Nat × Nat × Nat × Bool) (loss : Nat) : Nat :=
  if !v.2.2.2.2 then 2 else if loss = v.2.2.2.1 then 0 else 1

/-- The gate after a refusal (R342, R345), from the causes and the replay count: one that stays REFUSED spends a STEP_STOP taken before
the verdict, which stops only an opening (log entry 166). -/
def afterRefusal (d causes : Nat) (s : State) : State :=
  let g := (getDist s d).gate
  match g.job with
  | none => s
  | some j =>
    let c := causes % 64
    if c / 8 % 2 = 0 ∧ c / 2 % 4 ≠ 0 ∧ g.replay < j.replayMax then nextOpening d (modGate s d fun g => { g with replay := g.replay + 1 })
    else if c = cNf ∧ j.skip then nextOpening d (advanceStep s d)
    else if g.ends then endLoop d 2 4 s
    else modGate s d fun g => { g with stop := false }

/-- A refusal (R340, R342, R346). -/
def refuseStep (d causes : Nat) (m : GateMsg) (s : State) : State :=
  let s := writeOutcome s d 2 causes m
  let g := (getDist s d).gate
  let s := modGate s d fun g => { g with code := 4, held := none, commit := none, acc := none, mine := false, sent := false, early := none }
  let s := gateEvent s d 0x181 sevNotice [g.step, causes, m.nf, min g.replay 15]
  let s := if causes = cNf then snapCheck s d g.step (if m.approx then 3 else 2) m.loss else s
  let s := match verifyDue (getDist s d) causes with
    | some v => if (g.job.map (·.myPos)).getD 0 = 0 then logVerify s d v.1 (verifyResult v m.loss) m.loss else modSnap s d fun n => { n with verify := none }
    | none => s
  afterRefusal d causes s

/-- The update program starts, unless a capture is under way (R344, R407). -/
def startUpdate (d : Nat) (s : State) : State :=
  let x := getDist s d
  if x.snap.code = 1 then modGate s d fun g => { g with updWait := true }
  else
    match x.gate.job with
    | some j => startRun (modGate s d fun g => { g with updWait := false }) d j.update .update x.gate.tOpen
    | none => s

/-- The verdict commits (R340, R344): the gate's inputs start again for the update. -/
def commitStep (d : Nat) (m : GateMsg) (s : State) : State :=
  let s := writeOutcome s d 1 0 m
  let g := (getDist s d).gate
  let s := modGate s d fun g => { g with
    code := 3, held := none, commit := none, acc := none, mine := false, sent := false, nf := 0, poison := 0, taint := false, fault := false
    broken := false }
  let s := modSnap s d fun n => { n with due := if m.request ≠ 0 ∧ !m.busy then some m.request else none }
  startUpdate d (snapCheck s d g.step (if m.approx then 3 else 1) m.loss)

/-- Position 0 has decided on a held verdict (R340): the decision goes to every member and is applied. -/
def applyDecision (d action : Nat) (s : State) : State :=
  let g := (getDist s d).gate
  match g.held with
  | none => s
  | some v => if action = 1 then refuseStep d cHost v s else commitStep d v s

/-- Position 0 decides. -/
def decide0 (d action : Nat) (s : State) : State :=
  match (getDist s d).gate.job with
  | none => s
  | some j => applyDecision d action (gateSpread s j { round := .decision, sig := j.sig, action := action })

/-- The verdict reaches this member (R340, R345, R346, R411): a held one leaves a pending record. -/
def takeVerdict (d : Nat) (v : GateMsg) (s : State) : State :=
  let x := getDist s d
  match x.gate.job with
  | none => s
  | some j =>
    if x.gate.code ≠ 2 then s
    else if msgCauses v ≠ 0 then refuseStep d (msgCauses v) v s
    else if !v.held then
      let s := match verifyDue x 0 with
        | some w => if j.myPos = 0 then logVerify s d w.1 (verifyResult w v.loss) v.loss else modSnap s d fun n => { n with verify := none }
        | none => s
      commitStep d v s
    else
      let s := writeOutcome (modGate s d fun g => { g with held := some v }) d 0 0 v
      if j.myPos ≠ 0 then s
      else
        match verifyDue x 0 with
        | some w =>
          let r := verifyResult w v.loss
          let s := logVerify s d w.1 r v.loss
          decide0 d (if r = 1 then 1 else 0) s
        | none =>
          match x.gate.commit with
          | some refuse => decide0 d (b2n refuse) s
          | none => gateEvent s d 0x184 sevInfo [x.gate.step, v.loss]

/-- Position 0 holds a committing verdict (R340, R411): under HOLD, or for a verify that can compare. -/
def holds (x : Dist) (j : Job) (v : GateMsg) : Bool :=
  msgCauses v == 0 && (j.hold || (match verifyDue x 0 with
    | some w => w.2.2.2.2
    | none => false))

/-- The commit round is over (R344, R347): the gate leaves COMMITTING, and stands IDLE until the next step opens (log entry 165). -/
def finishCommit (d : Nat) (v : GateMsg) (s : State) : State :=
  let x := getDist s d
  match x.gate.job with
  | none => s
  | some j =>
    if x.gate.code ≠ 3 then s
    else if v.clean then
      let o := x.gate.record
      let s := modGate s d fun g => { g with record := { o with verdict := 1, tDone := time s }, accC := none, mine := false, sent := false, code := 0 }
      let s := if j.evt then gateEvent s d 0x180 sevInfo [o.step, o.loss, b2n o.approx] else s
      let s := advanceStep s d
      let s := match (getDist s d).snap.due with
        | some c => snapStart s d c
        | none => s
      nextOpening d s
    else
      let causes := cUpdate + causesOf v.nf v.poison false v.fault
      let o := x.gate.record
      let s := modGate s d fun g => { g with record := { o with verdict := 3, causes := causes, nf := v.nf, poison := v.poison, tDone := time s } }
      endLoop d 3 5 (gateEvent s d 0x182 sevError [o.step, causes])

/-- What position 0 does when a round is complete: it distributes the result and takes it. -/
def roundDone (d : Nat) (j : Job) (a : GateMsg) (s : State) : State :=
  let x := getDist s d
  if a.round = .commit then finishCommit d a (gateSpread s j a)
  else
    let v := { a with held := holds x j a }
    takeVerdict d v (gateSpread s j v)

/-- When this member has contributed and everything before it has arrived, it sends on, once (R340). -/
def gateProgress (d : Nat) (commit : Bool) (s : State) : State :=
  let g := (getDist s d).gate
  match g.job, (if commit then g.accC else g.acc) with
  | some j, some a =>
    let sh := gateShape s j.members
    if !g.mine ∨ g.sent ∨ (g.code == 3) ≠ commit ∨ !(ringNeeds sh.1 sh.2 j.myPos).all a.members.contains then s
    else
      let s := modGate s d fun g => { g with sent := true }
      match ringNext sh.1 sh.2 j.myPos with
      | some p => gateSend s j [p] a
      | none => roundDone d j a s
  | _, _ => s

/-- A contribution added to a round. -/
def addMsg (s : State) (d : Nat) (j : Job) (m : GateMsg) : State :=
  modGate s d fun g =>
    if m.round = .commit then { g with accC := some (match g.accC with
      | some a => joinMsgs j a m
      | none => m) }
    else { g with acc := some (match g.acc with
      | some a => joinMsgs j a m
      | none => m) }

/-- The member's own contribution (R340, R344, R406). -/
def ownMsg (s : State) (d : Nat) (j : Job) (round : GateRound) (clean : Bool) : GateMsg :=
  let x := getDist s d
  let loss := match tfind x.segs j.infoSeg with
    | some e => leNat (segRead s e (j.infoOff + 24) 4)
    | none => 0
  { round := round, sig := j.sig, members := [j.myPos], nf := x.gate.nf, poison := min (2 ^ 32 - 1) x.gate.poison, taint := x.gate.taint
    fault := x.gate.fault, approx := x.gate.approx, loss := loss, clean := clean
    request := snapRequest s d, busy := x.snap.code != 0 }

/-! ## Opening a step (R331, R332) -/

/-- The step information record as a step opens (R331). -/
def infoBytes (g : Gate) (now : Nat) : Bytes :=
  pack 64 [(64, g.step), (64, g.cursor), (32, f32OfNat g.step), (4, g.replay), (1, g.step % 2), (27, 0), (32, 0), (32, 0), (64, now)]

/-- A pause that waits for its boundary starts here (R378), after a commit and before the next opening: t_drain is 0. -/
def pauseAtBoundary (s : State) (d : Nat) : Option State :=
  let g := (getDist s d).gate
  match (getDist s d).pause with
  | some p => if p.atBoundary ∧ (getDist s d).state = 3 ∧ g.code = 0 ∧ g.record.verdict = 1 then some (beginPause s d (some 0)) else none
  | none => none

/-- The next attempt opens (R331, R332). -/
def stepOpen (d : Nat) (s : State) : State :=
  let x := getDist s d
  match x.gate.job with
  | none => s
  | some j =>
    if !x.gate.opening ∨ x.gate.run.isNone ∨ x.gate.feeding.isSome ∨ x.state ≠ 3 then s
    else
      match pauseAtBoundary s d with
      | some s => s
      | none =>
        let s := readAdvisories s d
        let s := match tfind x.segs j.infoSeg with
          | some e => segWrite s e j.infoOff (infoBytes x.gate (time s))
          | none => s
        let seqs := (s.groups.filter fun e => e.2.dist == d).map fun e => (e.1, e.2.seq)
        let s := modGate s d fun g => { g with
          code := 1, opening := false, nf := 0, poison := 0, taint := false, fault := false, approx := false, tOpen := time s, tEval := time s
          feeding := if j.feedSeg = 0 then none else some (x.gate.cursor + j.recs, x.gate.step + 1), seqs := seqs, early := none, mine := false, sent := false, held := none, commit := none }
        startRun s d j.compute .compute (time s)

/-- Meaning of STEP_OPEN (R331). -/
def execStepOpen (d : Nat) (s : State) : Answer := .next (stepOpen d s)

/-- Bytes copied from one segment to another, with their poison (R222). -/
def copySeg (s : State) (src dst : Seg) (so do_ n : Nat) : State :=
  let bad := (segPoison s src so n).map fun g => (g * 64 - so + do_) / 64
  segMark (segWrite s dst do_ (segRead s src so n)) dst bad

/-- A media pipe that feeds a district, and the rows that make one record (R398). -/
def feedPipe (s : State) (d : Nat) : Option (Nat × Pipe) :=
  s.pipes.find? fun e => e.2.state != 0 && e.2.dist == d && bit e.2.job 10

/-- The row pitch of a job's patch rows (R397): elements padded to 128, scales, rounded up to 64. -/
def tokPitch (job : Bytes) : Nat :=
  let p := ([8, 14, 16, 32] : List Nat).getD (fld job 515 512) 8
  let lp := roundUp (3 * fld job 519 516 * p * p) 128
  roundUp (rowLen (fld job 527 520) (fld job 529 528) lp) 64

/-- The feed link of R398 between a job and a step configuration. -/
def feedMatches (job : Bytes) (j : Job) : Bool :=
  let pitch := tokPitch job
  j.feedSeg == fld job 55 48 && j.feedOff == fld job 959 896 && pitch != 0 && j.recBytes % pitch == 0 && j.recBytes != 0
    && j.feedRecs * (j.recBytes / pitch) == fld job 863 832

/-- The feed records of the next step are there (R398): the feeding job has written all their rows. -/
def feedReady (s : State) (d : Nat) (j : Job) (first : Nat) : Bool :=
  match feedPipe s d with
  | some (_, p) => (first + j.recs) * (j.recBytes / max 1 (tokPitch p.job)) ≤ p.tokRows
  | none => true

/-- The feed move of the next step's records completes (R332, R398). -/
def feedDone (d : Nat) (s : State) : State :=
  let x := getDist s d
  match x.gate.job, x.gate.feeding with
  | some j, some (first, step) =>
    if !feedReady s d j first then s
    else
      let s := modGate s d fun g => { g with feeding := none }
      match tfind x.segs j.feedSeg, tfind x.segs j.bufSeg with
      | some src, some dst =>
        let s := (List.range j.recs).foldl (fun s i =>
          copySeg s src dst (j.feedOff + (first + i) % max 1 j.feedRecs * j.recBytes) (j.bufOff + (step % 2 * j.recs + i) * j.recBytes) j.recBytes) s
        { s with pipes := tmap s.pipes fun _ p =>
          if p.state != 0 && p.dist == d && bit p.job 10 then { p with moved := max p.moved (first + j.recs) } else p }
      | _, _ => s
  | _, _ => s

/-- Meaning of FEED_MOVE_DONE (R332). -/
def execFeedMoveDone (d : Nat) (s : State) : Answer := .next (feedDone d s)

end Sys2Proof.Machine
end

