-- ==== Sys2Proof/Machine/GateCmd.lean ====
section
/-! DEFINITION. The step gate's events and the STEP_ commands (R330, R333, R334, R339–R348). -/

namespace Sys2Proof.Machine

/-- The compute or update program has completed or halted (R339, R344): no run, or a run that a hard fault stopped. -/
def runOver (x : Dist) : Bool := match x.run with
  | none => true
  | some r => r.stopped && r.causes.any (· != 0xFF)

/-- Every instance of the district's groups shows TAINT_FINAL: none is open and no early-use check is outstanding (R287, R339). -/
def groupsFinal (s : State) (d : Nat) : Bool :=
  s.groups.all fun e => e.2.dist != d || (e.2.cur.isNone && e.2.checks == [])

/-- The member is ready (R339): it enters EVALUATING and contributes. -/
def memberReady (d : Nat) (s : State) : State :=
  let x := getDist s d
  match x.gate.job with
  | none => s
  | some j =>
    if x.gate.code ≠ 1 ∨ x.gate.early.isSome ∨ x.state = 5 ∨ !runOver x ∨ !groupsFinal s d then s
    else
      let m := ownMsg s d j .contribution true
      let s := modGate s d fun g => { g with code := 2, tEval := time s, evalFrom := time s, mine := true, sent := false }
      gateProgress d false (addMsg s d j m)

/-- Meaning of GATE_MEMBER_READY (R339). -/
def execGateMemberReady (d : Nat) (s : State) : Answer := .next (memberReady d s)

/-- Position 0's choice after a refusal, at every member (R342): 0 REPLAY, 1 SKIP, 2 END. -/
def applyResume (d action : Nat) (s : State) : State :=
  if (getDist s d).gate.code ≠ 4 then s
  else if action = 2 then endLoop d 2 0 s
  else if action = 1 then nextOpening d (advanceStep s d)
  else nextOpening d (modGate s d fun g => { g with replay := g.replay + 1 })

/-- Every member's contribution is in a message. -/
def isFull (j : Job) (m : GateMsg) : Bool := (List.range j.members.length).all m.members.contains

/-- A gate message arrives (R330, R340, R342, R344). -/
def gateReceive (d : Nat) (m0 : GateMsg) (s : State) : State :=
  match (getDist s d).gate.job with
  | none => s
  | some j =>
    let m := signed j m0
    let s := if m0.sig ≠ j.sig then modGate s d fun g => { g with fault := true } else s
    match m.round with
    | .decision =>
      let s := gateSpread s j m0
      if m0.sig = j.sig then applyDecision d m.action s
      else match (getDist s d).gate.held with
        | some v => refuseStep d cFault v s
        | none => s
    | .resume => if m0.sig = j.sig then applyResume d m.action (gateSpread s j m0) else gateSpread s j m0
    | .contribution =>
      if isFull j m then takeVerdict d m (gateSpread s j m0) else gateProgress d false (addMsg s d j m)
    | .commit =>
      if isFull j m then finishCommit d m (gateSpread s j m0) else gateProgress d true (addMsg s d j m)

/-- A message for the gate: while the district is PAUSED the gate is frozen, and it waits (R381). -/
def gateTake (d : Nat) (m : GateMsg) (s : State) : State :=
  if (getDist s d).state = 5 then modGate s d fun g => { g with waiting := g.waiting ++ [m] } else gateReceive d m s

/-- Meaning of GATE_MESSAGE_RECEIVE (R340). -/
def execGateMessageReceive (d : Nat) (m : GateMsg) (s : State) : Answer := .next (gateTake d m s)

/-- The gate goes on after a pause (R371, R381): the messages that waited are taken in order, and a STEP_STOP taken at REFUSED acts. -/
def gateThaw (d : Nat) (s : State) : State :=
  let ms := (getDist s d).gate.waiting
  let s := ms.foldl (fun s m => gateReceive d m s) (modGate s d fun g => { g with waiting := [] })
  if (getDist s d).gate.code = 4 ∧ (getDist s d).gate.stop then endLoop d 1 0 s else s

/-- The update program ends (R344): CLEAN when it completed, not aborted, with no NF, POISON or FAULT input. -/
def updateComplete (d : Nat) (s : State) : State :=
  let x := getDist s d
  match x.gate.job with
  | none => s
  | some j =>
    if x.gate.code ≠ 3 ∨ x.gate.mine ∨ x.gate.updWait ∨ x.state = 5 ∨ !runOver x then s
    else
      let clean := x.gate.nf = 0 ∧ x.gate.poison = 0 ∧ !x.gate.fault ∧ !x.gate.broken
      let m := ownMsg s d j .commit clean
      gateProgress d true (addMsg (modGate s d fun g => { g with mine := true, sent := false }) d j m)

/-- Meaning of UPDATE_PROGRAM_COMPLETE (R344). -/
def execUpdateProgramComplete (d : Nat) (s : State) : Answer := .next (updateComplete d s)

/-- No verdict within EVAL_TIMEOUT_MS of readiness (R344); the timer stands still while the district is PAUSED. -/
def evalTimeout (d : Nat) (s : State) : State :=
  let x := getDist s d
  match x.gate.job with
  | none => s
  | some j =>
    if x.gate.code ≠ 2 ∨ x.gate.held.isSome ∨ x.gate.early.isSome ∨ x.state = 5 ∨ time s < x.gate.evalFrom + j.evalMs * 1000000 then s
    else
      let s := writeOutcome s d 3 cTimeout (ownMsg s d j .contribution true)
      endLoop d 3 5 (gateEvent s d 0x182 sevError [x.gate.step, cTimeout])

/-- Meaning of GATE_EVAL_TIMEOUT (R344). -/
def execGateEvalTimeout (d : Nat) (s : State) : Answer := .next (evalTimeout d s)

/-! ## Early refusal (R343) -/

/-- A group's waiting COLL descriptors end with the aborted program: they take no fault (log entry 26). -/
def dropColls (s : State) (g : Nat) (x : Group) : State :=
  x.reqs.foldl (fun s r => modCore s r.d r.core fun c => dropIssued c r.idx) (setGroup s g { x with reqs := [] })

/-- An early refusal starts at this member, which is OPEN or, on a notice, already EVALUATING (R343): the compute program and every
group of the district are aborted. -/
def earlyStart (d pos causes : Nat) (s : State) : State :=
  let x := getDist s d
  if x.gate.code ≠ 1 ∧ x.gate.code ≠ 2 then s
  else
    match x.gate.early with
    | some c => modGate s d fun g => { g with early := some (c ||| causes) }
    | none =>
      let s := gateEvent (modGate s d fun g => { g with early := some causes }) d 0x183 sevNotice [x.gate.step, pos]
      let s := abortRun s d none
      (s.groups.filter fun e => e.2.dist == d).foldl (fun s e => abortHere e.1 7 (dropColls s e.1 e.2)) s

/-- A member that detects a refusal input while OPEN with EARLY set notifies every other (R343): the notice carries the
causes (log entry 27). -/
def earlyCheck (d : Nat) (s : State) : State :=
  let x := getDist s d
  match x.gate.job with
  | none => s
  | some j =>
    let c := ownCauses x.gate
    if !j.early ∨ x.gate.code ≠ 1 ∨ x.gate.early.isSome ∨ c = 0 then s
    else
      let s := ((List.range j.members.length).filter (· != j.myPos)).foldl (fun s p =>
        sysSend s 65 0xFFFFFF ((j.members.getD p ⟨0, none⟩).id) 1 [j.sig, x.gate.step, j.myPos, c] []) s
      earlyStart d j.myPos c s

/-- A notice of an early refusal (R330, R343): one whose signature differs is the FAULT cause. -/
def earlyNotice (d pos causes sig : Nat) (s : State) : State :=
  match (getDist s d).gate.job with
  | some j => if sig = j.sig then earlyStart d pos causes s else earlyCheck d (modGate s d fun g => { g with fault := true })
  | none => s

/-- Meaning of EARLY_REFUSAL_NOTICE (R343). -/
def execEarlyRefusalNotice (d pos causes sig : Nat) (s : State) : Answer := .next (earlyNotice d pos causes sig s)

/-- A group reset (R290): READY with a plan or binding, IDLE without; the sequence number set, EPOCH advanced. -/
def resetGroup (x : Group) (seq : Nat) : Group :=
  { x with
    state := if x.plan.isSome ∨ x.bind.isSome then 1 else 0
    seq := seq, epoch := (x.epoch + 1) % 256, cur := none, nxt := none, reqs := [], inbox := [], kept := [], acks := [], checks := [], fails := [], pre := none, relays := [], disp := {} }

/-- Every member has completed its abort (R343): groups are rewound and the gate is REFUSED with EARLY. -/
def earlyComplete (d : Nat) (s : State) : State :=
  let x := getDist s d
  match x.gate.job, x.gate.early with
  | some j, some c =>
    if (x.gate.code ≠ 1 ∧ x.gate.code ≠ 2) ∨ x.run.isSome then s
    else
      let s := (s.groups.filter fun e => e.2.dist == d).foldl (fun s e =>
        setGroup s e.1 (resetGroup e.2 (tget e.2.seq x.gate.seqs e.1))) s
      let m := { ownMsg s d j .contribution true with taint := x.gate.taint, fault := c / 8 % 2 == 1 }
      refuseStep d (cEarly + c) m (modGate s d fun g => { g with tEval := time s })
  | _, _ => s

/-- Meaning of EARLY_ABORT_COMPLETE (R343). -/
def execEarlyAbortComplete (d : Nat) (s : State) : Answer := .next (earlyComplete d s)

/-! ## STEP_CONFIG (R330, R333, R334) -/

/-- A member list entry (R282): 4 bytes. -/
def memberOf (b : Bytes) : Member := ⟨fld b 11 0, if fld b 28 16 = 0x1FFF then none else some (fld b 28 16)⟩

/-- The reserved bits of a member list. -/
def memberListOk (b : Bytes) : Bool := (chunksOf 4 (b.length + 1) b).all fun e => zeroAt e [(15, 12), (31, 29)]

/-- A member list's entries. -/
def membersOf (b : Bytes) : List Member := (chunksOf 4 (b.length + 1) b).map memberOf

/-- The reserved bits of STEP_CONFIG's payload (R330). -/
def stepRsvd : List (Nat × Nat) :=
  [(63, 48), (255, 232), (399, 397), (415, 413), (431, 429), (831, 800)]

/-- The layer records (R333, R334): reserved bits, ascending numbers, segments. -/
def layersOk (x : Dist) (protect : Nat) : List Bytes → Option Nat → Bool
  | [], _ => true
  | r :: l, prev =>
    let n := fld r 15 0
    let save := fld r 29 28
    let seg := fld r 39 32
    let param := fld r 47 40
    let tier := match tfind x.segs seg with
      | some e => e.tier
      | none => 0
    (match prev with
      | some p => decide (p < n)
      | none => true)
      && (if save = 0 then tier == 1 && !protect.testBit seg else if save = 1 then tier == 2 && !protect.testBit seg else save == 2 && seg == 0)
      && thas x.segs param && protect.testBit param && layersOk x protect l (some n)

/-- A descriptor writes a protected segment (R330): a MOVE or AOP destination, or a COLL take. -/
def writesProtected (protect : Nat) (d : Bytes) : Bool :=
  let k := fld d 7 0
  (k == 4 && !bit d 129 && protect.testBit (fld d 159 152)) || (k == 7 && bit d 134 && !bit d 135 && protect.testBit (fld d 151 144))

/-- Every descriptor of a loaded program. -/
def allDescs (x : Dist) (p : Prog) : List Bytes :=
  (List.range (coreCount x)).flatMap fun c =>
    let st := streamOf p c
    (List.range st.2).map fun i => progBytes p (st.1 + 64 * i) 64

/-- The range [off, off + n) lies in a valid segment of one of the tiers. -/
def rangeIn (x : Dist) (seg off n : Nat) (tiers : List Nat) : Bool :=
  match tfind x.segs seg with
  | some e => off + n ≤ e.size && tiers.contains e.tier
  | none => false

/-- The job a payload defines, with the list and records firmware read. -/
def jobOf (p ms ls : Bytes) : Job :=
  let mems := membersOf ms
  { compute := fld p 15 0, update := fld p 31 16, early := bit p 32, hold := bit p 33, evt := bit p 34, skip := bit p 35
    replayMax := fld p 39 36, infoSeg := fld p 199 192, infoOff := fld p 319 256, members := mems, memberBytes := ms, layerBytes := ls
    myPos := fld p 412 400, lossPos := fld p 428 416, feedSeg := fld p 223 216, feedOff := fld p 575 512, bufSeg := fld p 231 224
    bufOff := fld p 767 704, recBytes := fld p 607 576, recs := fld p 639 608, feedRecs := fld p 703 640, evalMs := fld p 799 768
    protect := fld p 1087 832
    sig := (Config.jobSig ([fld p 127 64, fld p 191 128, fld p 39 36, fld p 35 35, fld p 32 32, fld p 33 33]
      ++ mems.flatMap fun m => [m.id, m.relay.getD 0x1FFF])).toNat }

/-- The argument checks of R330. -/
def jobOk (s : State) (x : Dist) (p : Bytes) (j : Job) : Bool :=
  let n := fld p 396 384
  let any := [1, 2, 3, 4]
  thas x.progs j.compute && thas x.progs j.update && 1 ≤ n && n ≤ 4096 && j.myPos < n && j.lossPos < n
    && 1 ≤ fld p 447 432 && fld p 447 432 ≤ 4096 && 1 ≤ j.evalMs && j.evalMs ≤ 60000 && vecArgOk (fld p 47 40) && j.infoOff % 64 == 0
    && rangeIn x j.infoSeg j.infoOff 64 [1] && rangeIn x (fld p 207 200) (fld p 383 320) (4 * n) any
    && rangeIn x (fld p 215 208) (fld p 511 448) (32 * fld p 447 432) any
    && (if j.feedSeg = 0 then j.bufSeg == 0
        else j.recBytes != 0 && j.recBytes % 64 == 0 && j.feedRecs != 0 && rangeIn x j.feedSeg j.feedOff (j.feedRecs * j.recBytes) any
          && rangeIn x j.bufSeg j.bufOff (2 * j.recs * j.recBytes) [1, 2])
    && membersOk s j.members j.myPos false
    && layersOk x j.protect (chunksOf 32 4097 j.layerBytes) none
    && (match tfind x.progs j.compute with
      | some c => (allDescs x c).all fun d => !writesProtected j.protect d
      | none => false)

/-- The bytes of a table in a segment that a payload names, if it lies in one. -/
def tableBytes (s : State) (x : Dist) (seg off n : Nat) : Bytes :=
  match tfind x.segs seg with
  | some e => if off + n ≤ e.size then segRead s e off n else []
  | none => []

/-- A STEP_ command in a serving district is DENIED (R371). -/
def notTraining (x : Dist) : Bool × Err := (x.serving, denied)

/-- The gate is in one of the states (R348). -/
def gateIn (x : Dist) (ok : List Nat) : Bool × Err := (!ok.contains x.gate.code, conflict 4 x.gate.code)

def specStepConfig : Spec := { cmd := 0x0600 }

/-- A media job whose feed link no longer matches ends at its next frame boundary (R398). -/
def unlinkFeeds (s : State) (d : Nat) (j : Job) : State :=
  { s with pipes := tmap s.pipes fun _ p =>
    if p.state != 0 && p.dist == d && bit p.job 10 && !feedMatches p.job j then { p with ending := some (p.ending.getD 4), state := 3 } else p }

/-- Meaning of STEP_CONFIG (R330). -/
def execStepConfig (c : FwReq) (s : State) : Answer :=
  let p := c.payload
  let d := cmdDist c
  let x := getDist s d
  let ms := tableBytes s x (fld p 207 200) (fld p 383 320) (4 * min 4096 (fld p 396 384))
  let ls := tableBytes s x (fld p 215 208) (fld p 511 448) (32 * min 4096 (fld p 447 432))
  let j := jobOf p ms ls
  let form := p.length == 136 && zeroAt p stepRsvd && memberListOk ms
    && (chunksOf 32 4097 ls).all fun r => zeroAt r [(31, 30), (63, 48), (255, 192)]
  fwStep specStepConfig c
    (fun s => headChecks specStepConfig form true c s ++ [notTraining x, (!jobOk s x p j, badArgument), legalIn s d [2], gateIn x [0, 5],
      (!vecFree (unbind s d vbStep) d (fld p 47 40), exhausted)])
    (fun s =>
      let s := modGate s d fun g => { g with
        code := 0, job := some j, step := fld p 127 64, cursor := fld p 191 128, replay := 0, opening := false, feeding := none
        acc := none, accC := none, mine := false, sent := false }
      let s := match bindVec (unbind s d vbStep) d (fld p 47 40) vbStep with
        | some (_, s) => s
        | none => s
      replyOk (unlinkFeeds s d j) c 0x0600 []) s

/-! ## The other STEP_ commands (R345, R348) -/

def specStepRun : Spec := { cmd := 0x0601 }
def specStepStop : Spec := { cmd := 0x0602 }
def specStepCommit : Spec := { cmd := 0x0603 }
def specStepResume : Spec := { cmd := 0x0604 }
def specStepInfo : Spec := { cmd := 0x0605 }
def specStepSet : Spec := { cmd := 0x0606 }

/-- The district states in which the unlisted commands of a district are legal (R371). -/
def anyState : List Nat := [1, 2, 3, 4, 5, 6]

/-- The district's job names two loaded programs (R330); a STEP_RUN without it is BAD_ARGUMENT (log entry 28). -/
def jobReady (x : Dist) : Bool := match x.gate.job with
  | some j => thas x.progs j.compute && thas x.progs j.update
  | none => false

/-- Meaning of STEP_RUN (R348): the loop starts; STEP_OPEN opens the first step. -/
def execStepRun (c : FwReq) (s : State) : Answer :=
  let p := c.payload
  let d := cmdDist c
  let x := getDist s d
  fwStep specStepRun c
    (fun s => headChecks specStepRun (p.length == 8 && zeroAt p [(63, 32)]) true c s
      ++ [notTraining x, legalIn s d [2], (!jobReady x, badArgument), gateIn x [0], (x.snap.code == 5, conflict 7 5), retainBlocks s])
    (fun s =>
      let s := replyAccepted (autoWake s) c 0x0601
      let s := modGate s d fun g => { g with run := some ⟨pendOf s c 0x0601, fld p 31 0, 0⟩, opening := true, stop := false }
      setDistState s d 3) s

/-- Meaning of STEP_STOP (R345, R348): while the district is PAUSED it acts after the resume (R371). -/
def execStepStop (c : FwReq) (s : State) : Answer :=
  let d := cmdDist c
  let x := getDist s d
  fwStep specStepStop c
    (fun s => headChecks specStepStop (c.payload == []) true c s ++ [notTraining x, legalIn s d anyState, gateIn x [1, 2, 3, 4]])
    (fun s =>
      let s := if x.gate.code = 4 ∧ x.state ≠ 5 then endLoop d 1 0 s else modGate s d fun g => { g with stop := true }
      replyOk s c 0x0602 []) s

/-- A command that only position 0 may issue (R345). -/
def notZero (x : Dist) : Bool × Err := ((match x.gate.job with
  | some j => j.myPos != 0
  | none => false), denied)

/-- Position 0's decision or choice taken by a command: while the district is PAUSED it waits with the gate's messages (R371). -/
def gateChoose (d : Nat) (round : GateRound) (action : Nat) (s : State) : State :=
  match (getDist s d).gate.job with
  | some j => gateTake d { round := round, sig := j.sig, action := action } s
  | none => s

/-- Meaning of STEP_COMMIT (R340, R345): applied to a held verdict, or kept for the one to come. -/
def execStepCommit (c : FwReq) (s : State) : Answer :=
  let p := c.payload
  let d := cmdDist c
  let x := getDist s d
  let hold := match x.gate.job with
    | some j => j.hold
    | none => false
  fwStep specStepCommit c
    (fun s => headChecks specStepCommit (p.length == 8 && zeroAt p [(63, 1)]) true c s
      ++ [notTraining x, notZero x, legalIn s d anyState, gateIn x (if hold then [1, 2] else [])])
    (fun s =>
      let s := if x.gate.held.isSome then gateChoose d .decision (b2n (bit p 0)) s else modGate s d fun g => { g with commit := some (bit p 0) }
      replyOk s c 0x0603 []) s

/-- Meaning of STEP_RESUME (R342): the choice goes to every member and is applied. -/
def execStepResume (c : FwReq) (s : State) : Answer :=
  let p := c.payload
  let d := cmdDist c
  let x := getDist s d
  fwStep specStepResume c
    (fun s => headChecks specStepResume (p.length == 8 && zeroAt p [(63, 2)]) true c s
      ++ [notTraining x, (fld p 1 0 == 3, badArgument), notZero x, legalIn s d anyState, gateIn x [4]])
    (fun s =>
      replyOk (gateChoose d .resume (fld p 1 0) s) c 0x0604 []) s

/-- Meaning of STEP_INFO (R346, R348). -/
def execStepInfo (c : FwReq) (s : State) : Answer :=
  let d := cmdDist c
  let x := getDist s d
  fwStep specStepInfo c
    (fun s => headChecks specStepInfo (c.payload == []) true c s ++ [notTraining x, legalIn s d anyState])
    (fun s => replyOk s c 0x0605 (pack 16 [(8, x.gate.code), (56, 0), (64, x.gate.step)] ++ outcomeBytes x.gate.record)) s

/-- Meaning of STEP_SET (R348). -/
def execStepSet (c : FwReq) (s : State) : Answer :=
  let p := c.payload
  let d := cmdDist c
  let x := getDist s d
  fwStep specStepSet c
    (fun s => headChecks specStepSet (p.length == 16) true c s ++ [notTraining x, legalIn s d [2, 6], gateIn x [0, 5]])
    (fun s => replyOk (setStep s d (fld p 63 0) (fld p 127 64)) c 0x0606 []) s

end Sys2Proof.Machine
end

