-- ==== Sys2Proof/Machine/Media.lean ====
section
/-! DEFINITION. The media engine (R384–R400): jobs on decode and encode pipes, concealment, rate control, frame-to-token. -/

namespace Sys2Proof.Machine

/-! ## Pipes and frame slots (R386, R388) -/

/-- The key of a pipe: 8 × KIND + number. -/
def pipeKey (enc : Bool) (pipe : Nat) : Nat := 8 * b2n enc + pipe

/-- A pipe's state. -/
def getPipe (s : State) (k : Nat) : Pipe := tget {} s.pipes k

/-- The state with a pipe changed. -/
def modPipe (s : State) (k : Nat) (g : Pipe → Pipe) : State := { s with pipes := tmod {} s.pipes k g }

/-- A media event: the pipe's source number; each raises the job's vector (R387, R399). -/
def mediaEvent (s : State) (k kind sev : Nat) (payload : List Nat) : State :=
  let d := (getPipe s k).dist
  raiseBound (emit s (if k < 8 then 0x890 + k else 0x894 + (k - 8)) kind sev d ((k % 8) :: payload)) d (vbMedia k)

/-- The planes of a frame slot (R388): offset, pitch, samples per row and rows of Y, U and V. -/
def planesOf (w h : Nat) (ten : Bool) : List (Nat × Nat × Nat × Nat) :=
  let b := 1 + b2n ten
  let py := roundUp (w * b) 64
  let cw := cdiv w 2
  let ch := cdiv h 2
  let pc := roundUp (cw * b) 64
  [(0, py, w, h), (py * h, pc, cw, ch), (py * h + pc * ch, pc, cw, ch)]

/-- Bytes of a frame slot (R388). -/
def slotBytes (w h : Nat) (ten : Bool) : Nat := ((planesOf w h ten).map fun p => p.2.1 * p.2.2.2).sum

/-- WIDTH and HEIGHT of a job. -/
def jobW (job : Bytes) : Nat := fld job 335 320
def jobH (job : Bytes) : Nat := fld job 351 336

/-- Bytes put over a string at an offset. -/
def overlay (b : Bytes) (off : Nat) (d : Bytes) : Bytes := slice b 0 off ++ d ++ b.drop (off + d.length)

/-- One sample of a plane. -/
def sampleAt (b : Bytes) (ten : Bool) (p : Nat × Nat × Nat × Nat) (x y : Nat) : Nat :=
  if ten then leNat (slice b (p.1 + y * p.2.1 + 2 * x) 2) % 1024 else leNat (slice b (p.1 + y * p.2.1 + x) 1)

/-- A run of `n` mid-grey samples: 2^(bd − 1) (R391). -/
def grey (ten : Bool) (n : Nat) : Bytes := (List.replicate n (if ten then leBytes 2 512 else leBytes 1 128)).flatten

/-- A frame slot wholly mid-grey. -/
def greyFrame (w h : Nat) (ten : Bool) : Bytes :=
  (planesOf w h ten).flatMap fun p => (List.replicate p.2.2.2 (slice (grey ten p.2.2.1) 0 p.2.1)).flatten

/-- One superblock concealed (R391): the co-located one of the previous output frame, or mid-grey. -/
def concealSb (w h : Nat) (ten : Bool) (prev : Option MFrame) (fw sb : Nat) (b : Bytes) (n : Nat) : Bytes :=
  let cols := cdiv fw (max 1 sb)
  let bps := 1 + b2n ten
  ((planesOf w h ten).zipIdx).foldl (fun b e =>
    let p := e.1
    let sz := if e.2 = 0 then sb else sb / 2
    let x := n % max 1 cols * sz
    let len := min sz (p.2.2.1 - x) * bps
    (List.range sz).foldl (fun b r =>
      let y := n / max 1 cols * sz + r
      if p.2.2.2 ≤ y then b
      else
        let at_ := p.1 + y * p.2.1 + x * bps
        overlay b at_ (match prev with
          | some f => if f.ten = ten then slice f.planes at_ len else grey ten (len / bps)
          | none => grey ten (len / bps))) b) b

/-! ## The end of a job (R399, R400) -/

/-- The job record (R399). -/
def jobRecord (p : Pipe) (end_ : Nat) : Bytes :=
  pack 64 [(8, end_), (56, 0), (64, p.frames), (32, p.damaged), (32, p.concealed), (32, p.reenc), (32, p.fallback), (64, p.outBytes),
    (64, p.tokRows), (32, p.dropped), (32, p.capOver)]

/-- A job ends (R399): an incomplete group is counted, the frame store released, the final reply posted. -/
def endJob (k end_ : Nat) (s : State) : State :=
  let s := modPipe s k fun p => { p with dropped := p.dropped + b2n (p.group != []) }
  let p := getPipe s k
  let s := mediaEvent s k 0x201 sevInfo [end_, p.frames, p.damaged]
  let s := match p.pend with
    | some w => finishOk s w (jobRecord p end_)
    | none => s
  let s := unbind { s with backs := tdel s.backs p.storeBid } p.dist (vbMedia k)
  { s with pipes := tdel s.pipes k }

/-- The group under way is complete and waits for its conversion (R396). -/
def groupFull (p : Pipe) : Bool := p.group != [] && p.group.length == fld p.job 519 516

/-- The job is over when it is stopping or its input is used up under END, and no frame or whole group is under way. -/
def jobOver (p : Pipe) : Option Nat :=
  if groupFull p then none
  else match p.ending with
    | some e => some e
    | none => if p.isEnd && p.inLen ≤ p.inPos then some 0 else none

/-- Meaning of MEDIA_JOB_END (R399). -/
def execMediaJobEnd (enc : Bool) (pipe : Nat) (s : State) : Answer :=
  let k := pipeKey enc pipe
  .next (when (pipe < 8 && (getPipe s k).state != 0) (fun s =>
    match jobOver (getPipe s k) with
    | some e => endJob k e s
    | none => s) s)

/-! ## Decoding (R390–R392) -/

/-- The cause bits of a frame (R391): what the decoder found, poisoned input, a truncated end, a concealed reference. -/
def frameCauses (p : Pipe) (f : DecodedFrame) (poisoned truncated : Bool) : Nat :=
  let c := (f.damaged.foldl (fun a e => a ||| 2 ^ e.2) f.causes)
  let c := if poisoned then c ||| 16 else c
  let c := if truncated then c ||| 4 else c
  let c := if jobW p.job < f.width ∨ jobH p.job < f.height then c ||| 8 else c
  if f.refs.any p.conc.contains then c ||| 128 else c

/-- A decoded frame completes (R390–R392). -/
def frameDecode (k : Nat) (f : DecodedFrame) (s : State) : State :=
  let p := getPipe s k
  let w := jobW p.job
  let h := jobH p.job
  let rest := p.inLen - p.inPos
  if k ≥ 8 ∨ (p.state ≠ 1 ∧ p.state ≠ 2) ∨ p.ending.isSome ∨ groupFull p ∨ rest = 0 then s
  else if rest < f.inBytes ∧ !p.isEnd then modPipe s k fun p => { p with state := 2 }
  else
    let used := min rest f.inBytes
    let slot := slotBytes w h f.ten
    if bit p.job 5 ∧ fld p.job 319 256 < (p.frames + 1) * slot then modPipe s k fun p => { p with ending := some 2, state := 3 }
    else
      let x := getDist s p.dist
      let poisoned := match tfind x.segs (fld p.job 39 32) with
        | some e => segPoison s e (fld p.job 127 64 + p.inPos) used != []
        | none => false
      let c := frameCauses p f poisoned (rest < f.inBytes)
      let whole := c / 8 % 2 == 1 || c / 64 % 2 == 1
      let img := if whole then greyFrame w h f.ten
        else (f.damaged.map (·.1)).foldl (concealSb w h f.ten p.prev f.width f.sb) (slice f.planes 0 slot)
      let m : MFrame := { planes := img, poison := c / 16 % 2 == 1, ten := f.ten, mono := f.mono, full := f.full, matrix := f.matrix }
      let n := p.frames
      let nsb := if whole then 0 else f.damaged.length
      let s := if bit p.job 5 then
          match tfind x.segs (fld p.job 47 40) with
          | some e =>
            let at_ := fld p.job 255 192 + n * slot
            let s := segWrite s e at_ img
            if m.poison then segMark s e (granules at_ slot) else s
          | none => s
        else s
      let damaged := c % 128 != 0
      let s := modPipe s k fun p => { p with
        inPos := p.inPos + used, frames := n + 1, damaged := p.damaged + b2n damaged, concealed := p.concealed + nsb
        outBytes := if bit p.job 5 then p.outBytes + slot else p.outBytes, prev := some m, conc := if nsb = 0 ∧ !whole then p.conc else p.conc ++ [n]
        group := if bit p.job 6 then p.group ++ [m] else p.group
        state := if p.inPos + used = p.inLen ∧ !p.isEnd then 2 else 1 }
      if damaged then mediaEvent s k 0x200 sevNotice [n, c, nsb] else s

/-- Meaning of MEDIA_FRAME_DECODE (R391). -/
def execMediaFrameDecode (pipe : Nat) (f : DecodedFrame) (s : State) : Answer := .next (when (decide (pipe < 4)) (frameDecode pipe f) s)

/-! ## Encoding (R394, R395) -/

/-- Bits of an encoding. -/
def bitsLen (b : Bytes) : Nat := 8 * b.length

/-- A number of bits that the rate control compares with: a quotient by FPS_NUM, or an open value where FPS_NUM is 0 (log entry
125). -/
def perRate (p : Pipe) (bits open_ : Nat) : Nat := if fld p.job 447 432 = 0 then open_ else bits / fld p.job 447 432

/-- The base quantiser index QI of a job. -/
def jobQi (job : Bytes) : Nat := fld job 375 368

/-- The quantiser indexes of RC 1: QI, then raised by 32 each time, up to 255 (R395). -/
def quantSteps (qi : Nat) : List Nat := (List.range (cdiv (255 - qi) 32 + 1)).map fun k => min (qi + 32 * k) 255

/-- The frame encoded at a quantiser index. -/
def encodedAt (f : EncodedFrame) (qi : Nat) : Bytes := tget [] f.attempts qi

/-- RC 0 (R394): the encoding kept, whether it was made twice, and whether the window still exceeds the cap. -/
def encodeCap (p : Pipe) (f : EncodedFrame) (open_ : Nat) : Bytes × Bool × Bool :=
  let budget := perRate p (fld p.job 415 384 * 1000 * fld p.job 431 416 * fld p.job 463 448) open_
  let tooBig := fun (b : Bytes) => decide (budget < bitsLen b + (p.window.take (fld p.job 431 416 - 1)).sum)
  let a := encodedAt f (jobQi p.job)
  if tooBig a then
    let b := encodedAt f (min (jobQi p.job + 32) 255)
    (b, true, tooBig b)
  else (a, false, false)

/-- A frame is a key frame: the first, and every GOP frames (R385). -/
def keyFrame (p : Pipe) : Bool := p.frames == 0 || (fld p.job 479 464 != 0 && p.frames % fld p.job 479 464 == 0)

/-- The most bytes of a fallback frame (R395): at a key position, and at an inter position. -/
def fallbackBound (p : Pipe) : Nat :=
  if keyFrame p then (8192 + jobW p.job * jobH p.job / 4) / 8 else 16 + 2 * (cdiv (jobW p.job) 64 * cdiv (jobH p.job) 64)

/-- RC 1 (R395): the encoding kept, whether it was made more than once, and whether it is the fallback. `room` is the largest
size that keeps the buffer from underflowing. -/
def encodeBuf (p : Pipe) (f : EncodedFrame) (room : Nat) : Bytes × Bool × Bool :=
  let l := quantSteps (jobQi p.job)
  match l.findIdx? fun q => decide (bitsLen (encodedAt f q) ≤ room) with
  | some i => (encodedAt f (l.getD i 0), decide (0 < i), false)
  | none => (f.fallback.take (fallbackBound p), decide (1 < l.length), true)

/-- The smoothing buffer after a frame (R395), in bits × FPS_NUM: the frame leaves, the channel fills; whether it would
overflow, which is open where FPS_NUM is 0 (log entry 125). -/
def bufAfter (p : Pipe) (bits open_ : Nat) : Nat × Bool :=
  let n := fld p.job 447 432
  let full := fld p.job 511 480 * n
  let v := (p.bufFull - bits * n) + fld p.job 415 384 * 1000 * fld p.job 463 448
  (min full v, if n = 0 then open_ % 2 == 1 else decide (full < v))

/-- A luma sample of a reference, its edges extended beyond the picture (R393). -/
def edgeSample (f : MFrame) (w h : Nat) (x y : Int) : Nat :=
  sampleAt f.planes f.ten ((planesOf w h f.ten).getD 0 (0, 0, 0, 0)) (min x.toNat (w - 1)) (min y.toNat (h - 1))

/-- The column of a window at column `x` of the picture, for the superblock row at `sy`: rows sy − 32 to sy + 95 (R393). -/
def windowCol (f : MFrame) (w h sy : Nat) (x : Int) : List Nat :=
  (List.range 128).map fun r => edgeSample f w h x (Int.ofNat sy - 32 + Int.ofNat r)

/-- The window loaded for the superblock at (sx, sy): columns sx − 96 to sx + 159 (R393). -/
def loadWindow (f : MFrame) (w h sx sy : Nat) : Window :=
  ⟨sx, sy, (List.range 256).map fun c => windowCol f w h sy (Int.ofNat sx - 96 + Int.ofNat c)⟩

/-- The window slides to the next superblock of the row: 64 new columns are fetched (R393). -/
def slideWindow (f : MFrame) (w h : Nat) (v : Window) : Window :=
  ⟨v.sx + 64, v.sy, v.cols.drop 64 ++ (List.range 64).map fun c => windowCol f w h v.sy (Int.ofNat v.sx + 160 + Int.ofNat c)⟩

/-- The window at the end of a frame: a new superblock row loads it, and it slides along the row (R393). -/
def lastWindow (f : MFrame) (w h : Nat) : Window :=
  (List.range (cdiv w 64 - 1)).foldl (fun v _ => slideWindow f w h v) (loadWindow f w h 0 (64 * (cdiv h 64 - 1)))

/-- A vector component, in quarter samples, moved to the nearest one that keeps the block inside the window: from `before` samples
before the superblock to `after` beyond its edge (R393). -/
def clampMv (at_ size before after : Nat) (v : Int) : Int :=
  let sb : Int := (at_ / 64 * 64 : Nat)
  max (4 * (sb - before - at_)) (min (4 * (sb + 64 + after - at_ - size)) v)

/-- The vector that a prediction block uses (R393). -/
def useMv (m : MotionBlock) : Int × Int := (clampMv m.x m.w 96 96 m.mx, clampMv m.y m.h 32 32 m.my)

/-- The references after a frame (R393, R395): its reconstruction joins them, and a key frame drops the others. A fallback frame at an
inter position repeats the last one. Four stay beside the frame under way (DESIGN CHOICE: log entry 171). -/
def refsAfter (p : Pipe) (f : EncodedFrame) (fellBack : Bool) : List MFrame :=
  let w := jobW p.job
  let h := jobH p.job
  let ten := bit p.job 352
  let new : MFrame := match fellBack && !keyFrame p, p.refs with
    | true, r :: _ => r
    | _, _ => { planes := slice f.recon 0 (slotBytes w h ten), poison := false, ten := ten, mono := false, full := false, matrix := 0 }
  (new :: if keyFrame p then [] else p.refs).take 4

/-- The motion search of a frame as it leaves the pipe (R393): the references' windows, up to 3 of them, and the vectors used; a key
frame and a fallback frame use none. -/
def motionAfter (p : Pipe) (f : EncodedFrame) (fellBack : Bool) : List Window × List (Int × Int) :=
  if keyFrame p then ([], [])
  else ((p.refs.take 3).map fun r => lastWindow r (jobW p.job) (jobH p.job), if fellBack then [] else f.motion.map useMv)

/-- A frame is encoded (R390, R393–R395). -/
def frameEncode (k : Nat) (f : EncodedFrame) (s : State) : State :=
  let p := getPipe s k
  if k < 8 ∨ (p.state ≠ 1 ∧ p.state ≠ 2) ∨ p.ending.isSome ∨ p.inLen ≤ p.inPos then s
  else
    let rc1 := fld p.job 361 360 == 1
    let o := freshNat s
    let s := if fld p.job 447 432 = 0 then { s with freeCtr := s.freeCtr + 2 } else s
    let room := perRate p p.bufFull o.1
    let r := if rc1 then encodeBuf p f room else encodeCap p f o.1
    let next := bufAfter p (bitsLen r.1) (freshNat o.2).1
    let out := if rc1 && next.2 then r.1 ++ f.padding else r.1
    if fld p.job 319 256 < p.outBytes + out.length then modPipe s k fun p => { p with ending := some 2, state := 3 }
    else
      let s := match tfind (getDist s p.dist).segs (fld p.job 47 40) with
        | some e => segWrite s e (fld p.job 255 192 + p.outBytes) out
        | none => s
      let s := modPipe s k fun p => { p with
        inPos := p.inPos + 1, frames := p.frames + 1, outBytes := p.outBytes + out.length, reenc := p.reenc + b2n r.2.1
        capOver := p.capOver + b2n (!rc1 && r.2.2), fallback := p.fallback + b2n (rc1 && r.2.2)
        window := (bitsLen r.1 :: p.window).take (fld p.job 431 416), bufFull := if rc1 then next.1 else p.bufFull
        refs := refsAfter p f (rc1 && r.2.2), windows := (motionAfter p f (rc1 && r.2.2)).1, vectors := (motionAfter p f (rc1 && r.2.2)).2
        state := if p.inPos + 1 = p.inLen ∧ !p.isEnd then 2 else 1 }
      if rc1 && r.2.2 then mediaEvent s k 0x202 sevNotice [p.frames, room / 8] else s

/-- Meaning of MEDIA_FRAME_ENCODE (R393–R395). -/
def execMediaFrameEncode (pipe : Nat) (f : EncodedFrame) (s : State) : Answer := .next (when (decide (pipe < 2)) (frameEncode (8 + pipe) f) s)

/-! ## Frame to tokens (R396–R398) -/

/-- Patch size P. -/
def patchP (job : Bytes) : Nat := ([8, 14, 16, 32] : List Nat).getD (fld job 515 512) 8

/-- Patches of a group. -/
def patchCount (job : Bytes) : Nat := fld job 623 608 / patchP job * (fld job 639 624 / patchP job)

/-- A decimal fraction rounded to FP32. -/
def f32Ratio (a b : Nat) : Nat := toF32 (fvDiv (.fin false a 0) (.fin false b 0))

/-- The coefficients (a, b, c, d) of a matrix (R396): 2 BT.2020, 3 BT.601, else BT.709. -/
def colour (m : Nat) : Nat × Nat × Nat × Nat :=
  if m = 2 then (f32Ratio 14746 10000, f32Ratio 1646 10000, f32Ratio 5714 10000, f32Ratio 18814 10000)
  else if m = 3 then (f32Ratio 1402 1000, f32Ratio 344136 1000000, f32Ratio 714136 1000000, f32Ratio 1772 1000)
  else (f32Ratio 15748 10000, f32Ratio 1873 10000, f32Ratio 4681 10000, f32Ratio 18556 10000)

/-- A sample less its offset, as FP32. -/
def centred (v off : Nat) : Nat := toF32 (if v < off then .fin true (off - v) 0 else .fin false (v - off) 0)

/-- R, G and B of one sample position of a frame (R396). -/
def rgbAt (job : Bytes) (f : MFrame) (x y : Nat) : List Nat :=
  let k := 2 ^ (if f.ten then 2 else 0)
  let pl := planesOf (jobW job) (jobH job) f.ten
  let oy := if f.full then 0 else 16 * k
  let sy := f32Ratio 1 (if f.full then 256 * k - 1 else 219 * k)
  let sc := if f.full then sy else f32Ratio 1 (224 * k)
  let oc := 128 * k
  let at_ := fun i x y => sampleAt f.planes f.ten (pl.getD i (0, 0, 0, 0)) x y
  let yl := f32Mul (centred (at_ 0 x y) oy) sy
  let u := f32Mul (centred (if f.mono then oc else at_ 1 (x / 2) (y / 2)) oc) sc
  let v := f32Mul (centred (if f.mono then oc else at_ 2 (x / 2) (y / 2)) oc) sc
  let m := colour (if fld job 535 532 = 0 then f.matrix else fld job 535 532)
  [f32Add yl (f32Mul m.1 v), f32Sub (f32Sub yl (f32Mul m.2.1 u)) (f32Mul m.2.2.1 v), f32Add yl (f32Mul m.2.2.2 u)]

/-- The elements of patch `n` of a group, padded with +0 (R396). -/
def patchElems (job : Bytes) (g : List MFrame) (n : Nat) : List Nat :=
  let p := patchP job
  let cols := max 1 (fld job 623 608 / p)
  let x0 := fld job 591 576 + n % cols * p
  let y0 := fld job 607 592 + n / cols * p
  let es := g.flatMap fun f => (List.range p).flatMap fun y => (List.range p).flatMap fun x =>
    ((rgbAt job f (x0 + x) (y0 + y)).zipIdx).map fun e =>
      f32Mul (f32Sub e.1 (fld job (640 + 32 * e.2 + 31) (640 + 32 * e.2))) (fld job (736 + 32 * e.2 + 31) (736 + 32 * e.2))
  es ++ List.replicate (roundUp es.length 128 - es.length) 0

/-- One patch row (R397): its bytes with zero slack, and its counts. -/
def patchRow (k : Nat) (job : Bytes) (group : Nat) (g : List MFrame) (n : Nat) : Bytes × Cnt :=
  let xs := patchElems job g n
  let dr : Drain := ⟨fld job 527 520, fld job 529 528, false, bit job 531⟩
  let r := drainRun dr (fun i => srDraw 0 (fld job 553 544) (0x800 + k) group (n * xs.length + i)) xs
  (slice (rowBytes dr r.1 r.2.1) 0 (tokPitch job), r.2.2)

/-- Rows of the job that may be written (R398): with FEED, a row waits for the feed move of the record it overwrites, unless the
link is broken. -/
def rowLimit (s : State) (p : Pipe) (want : Nat) : Nat :=
  match bit p.job 10, (getDist s p.dist).gate.job with
  | true, some j => if feedMatches p.job j then min want ((p.moved + j.feedRecs) * (j.recBytes / max 1 (tokPitch p.job))) else want
  | _, _ => want

/-- The rows of a whole group written, as far as the feed link allows (R396–R398). -/
def groupConvert (k : Nat) (s : State) : State :=
  let p := getPipe s k
  if p.state = 0 ∨ !groupFull p then s
  else
    let n := patchCount p.job
    let last := rowLimit s p ((p.groups + 1) * n)
    let pitch := tokPitch p.job
    let bad := p.group.any (·.poison)
    let s := match tfind (getDist s p.dist).segs (fld p.job 55 48) with
      | none => s
      | some e =>
        (List.range (last - p.tokRows)).foldl (fun s i =>
          let row := p.tokRows + i
          let r := patchRow k p.job p.groups p.group (row - p.groups * n)
          let at_ := fld p.job 959 896 + row % max 1 (fld p.job 863 832) * pitch
          let s := censusAdd (segWrite s e at_ r.1) p.dist (fld p.job 553 544) (0x890 + k) r.2
          if bad then segMark s e (granules at_ pitch) else s) s
    modPipe s k fun p => { p with
      tokRows := max p.tokRows last
      groups := if (p.groups + 1) * n ≤ last then p.groups + 1 else p.groups
      group := if (p.groups + 1) * n ≤ last then [] else p.group }

/-- Meaning of TOKEN_GROUP_CONVERT (R396–R398). -/
def execTokenGroupConvert (pipe : Nat) (s : State) : Answer := .next (when (decide (pipe < 4)) (groupConvert pipe) s)

/-! ## The MEDIA_ commands (R387, R399, R400) -/

def specMediaStart : Spec := { cmd := 0x0800 }
def specMediaExtend : Spec := { cmd := 0x0801 }
def specMediaStop : Spec := { cmd := 0x0802 }
def specMediaInfo : Spec := { cmd := 0x0803 }

/-- A pipe of the population (R4, R384). -/
def pipePresent (s : State) (enc : Bool) (pipe : Nat) : Bool := decide (pipe < if enc then encPipes s else decPipes s)

/-- The reserved bits of MEDIA_JOB_START, and the fields that do not apply to its KIND (R387). -/
def mediaRsvd (enc : Bool) : List (Nat × Nat) :=
  [(15, 11), (63, 56), (359, 353), (367, 362), (383, 376), (543, 536), (575, 554), (895, 864)]
    ++ (if enc then [(7, 5), (10, 9), (55, 48), (535, 512), (553, 544), (863, 576), (959, 896)] else [(352, 352), (361, 360), (375, 368), (511, 384)])

/-- A range lies in a valid uncoded segment; a written one is near or board memory and not read-only (R387). -/
def mediaRange (x : Dist) (seg off n : Nat) (write : Bool) : Bool :=
  match tfind x.segs seg with
  | some e => off + n ≤ e.size && !e.coded && (!write || ((e.tier == 1 || e.tier == 2) && !e.ro))
  | none => false

/-- The checks of the token fields (R387, R396, R397). -/
def tokensOk (x : Dist) (p : Bytes) : Bool :=
  let pp := patchP p
  let w := fld p 623 608
  let h := fld p 639 624
  fld p 515 512 ≤ 3 && [1, 2, 4].contains (fld p 519 516) && [2, 4, 5].contains (fld p 527 520)
    && scaleOk (fld p 527 520) (fld p 529 528) (bit p 530) (bit p 531) && !bit p 530 && fld p 535 532 ≤ 3
    && fld p 591 576 % 2 == 0 && fld p 607 592 % 2 == 0 && w % pp == 0 && h % pp == 0 && w % 2 == 0 && h % 2 == 0
    && fld p 591 576 + w ≤ jobW p && fld p 607 592 + h ≤ jobH p
    && (List.range 6).all (fun i => !fvNonfin (f32 (fld p (640 + 32 * i + 31) (640 + 32 * i))))
    && fld p 959 896 % 64 == 0 && mediaRange x (fld p 55 48) (fld p 959 896) (fld p 863 832 * tokPitch p) true

/-- The argument checks of R387. -/
def mediaOk (s : State) (x : Dist) (p : Bytes) : Bool :=
  let enc := bit p 4
  let codec := fld p 23 16
  let slot := slotBytes (jobW p) (jobH p) (bit p 352)
  let out := fld p 255 192 % 64 == 0 && mediaRange x (fld p 47 40) (fld p 255 192) (fld p 319 256) true
  vecArgOk (fld p 31 24)
    && (if enc then
        codec == 1 && (fld p 361 360 == 0 || (fld p 361 360 == 1 && s.population == 0x46))
          && mediaRange x (fld p 39 32) (fld p 127 64) (fld p 191 128 * slot) false && out
          && (if fld p 361 360 = 0 then 1 ≤ fld p 431 416 else 8192 + cdiv (jobW p * jobH p) 4 ≤ fld p 511 480)
      else
        (codec == 1 || codec == 2) && mediaRange x (fld p 39 32) (fld p 127 64) (fld p 191 128) false
          && (!bit p 5 || out) && (!bit p 6 || tokensOk x p)
          && (!bit p 10 || (bit p 6 && (match x.gate.job with
            | some j => feedMatches p j
            | none => false))))

/-- Bytes of the frame store (R388): 10 slots for a decode pipe, at the depth of 10-bit samples (log entry 32), 5 for an
encode pipe. -/
def storeBytes (p : Bytes) : Nat :=
  if bit p 4 then 5 * slotBytes (jobW p) (jobH p) (bit p 352) else 10 * slotBytes (jobW p) (jobH p) true

/-- The states in which MEDIA_ commands are legal (R371). -/
def mediaStates : List Nat := [1, 2, 3, 5, 6]

/-- Meaning of MEDIA_JOB_START (R387). -/
def execMediaJobStart (c : FwReq) (s : State) : Answer :=
  let p := c.payload
  let d := cmdDist c
  let x := getDist s d
  let k := pipeKey (bit p 4) (fld p 3 0)
  fwStep specMediaStart c
    (fun s => headChecks specMediaStart (p.length == 120 && zeroAt p (mediaRsvd (bit p 4))) (pipePresent s (bit p 4) (fld p 3 0)) c s
      ++ [(!mediaOk s x p, badArgument), legalIn s d mediaStates, ((getPipe s k).state != 0, conflict 6 (getPipe s k).state), retainBlocks s,
        (!fits s 2 s.lpSites (storeBytes p) || !vecFree s d (fld p 31 24), exhausted)])
    (fun s =>
      let s := replyAccepted (autoWake s) c 0x0800
      let a := alloc s 2 s.lpSites (storeBytes p)
      let s := match bindVec a.2 d (fld p 31 24) (vbMedia k) with
        | some (_, s) => s
        | none => a.2
      let q : Pipe := {
        state := if fld p 191 128 = 0 ∧ !bit p 8 then 2 else 1, dist := d, pend := some (pendOf s c 0x0800), job := p, inLen := fld p 191 128
        isEnd := bit p 8, storeBid := a.1, bufFull := fld p 511 480 * fld p 447 432 }
      modPipe s k fun _ => q) s

/-- The pipe a command names is one the district's job holds in RUNNING or WAITING (R399). -/
def pipeHeld (s : State) (d k : Nat) : Bool × Err :=
  let p := getPipe s k
  (!((p.state == 1 || p.state == 2) && p.dist == d), conflict 6 p.state)

/-- Meaning of MEDIA_JOB_EXTEND (R399, R400). -/
def execMediaJobExtend (c : FwReq) (s : State) : Answer :=
  let p := c.payload
  let d := cmdDist c
  let x := getDist s d
  let k := pipeKey (bit p 4) (fld p 3 0)
  let q := getPipe s k
  let unit := if bit p 4 then slotBytes (jobW q.job) (jobH q.job) (bit q.job 352) else 1
  let bad := q.state != 0 && q.dist == d && (decide (fld p 127 64 < q.inLen)
    || !mediaRange x (fld q.job 39 32) (fld q.job 127 64) (fld p 127 64 * unit) false)
  fwStep specMediaExtend c
    (fun s => headChecks specMediaExtend (p.length == 16 && zeroAt p [(7, 5), (63, 9)]) (pipePresent s (bit p 4) (fld p 3 0)) c s
      ++ [(bad, badArgument), legalIn s d mediaStates, pipeHeld s d k])
    (fun s => replyOk (modPipe s k fun q => { q with
      inLen := fld p 127 64, isEnd := bit p 8, state := if q.inPos < fld p 127 64 ∨ bit p 8 then 1 else q.state }) c 0x0801 []) s

/-- Meaning of MEDIA_JOB_STOP (R399, R400). -/
def execMediaJobStop (c : FwReq) (s : State) : Answer :=
  let p := c.payload
  let d := cmdDist c
  let k := pipeKey (bit p 4) (fld p 3 0)
  fwStep specMediaStop c
    (fun s => headChecks specMediaStop (p.length == 8 && zeroAt p [(63, 5)]) (pipePresent s (bit p 4) (fld p 3 0)) c s
      ++ [legalIn s d mediaStates, pipeHeld s d k])
    (fun s => replyOk (modPipe s k fun q => { q with state := 3, ending := some (q.ending.getD 1) }) c 0x0802 []) s

/-- Meaning of MEDIA_PIPE_INFO (R399). -/
def execMediaPipeInfo (c : FwReq) (s : State) : Answer :=
  let p := c.payload
  let d := cmdDist c
  let k := pipeKey (bit p 4) (fld p 3 0)
  fwStep specMediaInfo c
    (fun s => headChecks specMediaInfo (p.length == 8 && zeroAt p [(63, 5)]) (pipePresent s (bit p 4) (fld p 3 0)) c s ++ [legalIn s d mediaStates])
    (fun s =>
      let q := getPipe s k
      replyOk s c 0x0803 (pack 8 [(8, q.state), (8, if q.state = 0 then 0 else q.dist)] ++ jobRecord q (q.ending.getD 0))) s

end Sys2Proof.Machine
end

