-- ==== Sys2Proof/Machine/Serving.lean ====
section
/-! DEFINITION. The page pool, sequences, walks and the batch-step boundary (R349–R365), and the serving loop (R374–R376). -/

namespace Sys2Proof.Machine

/-! ## Slots and columns (R350, R352) -/

/-- The pool of a district changed. -/
def modPool (s : State) (d : Nat) (g : Pool → Pool) : State := modDist s d fun x => { x with pool := x.pool.map g }

/-- A sequence slot of a pool. -/
def getSeq (p : Pool) (i : Nat) : Seq := tget {} p.seqs i

/-- The pool with a sequence slot changed. -/
def modSeq (p : Pool) (i : Nat) (g : Seq → Seq) : Pool := { p with seqs := tmod {} p.seqs i g }

/-- Columns on the free list. -/
def freeCols (p : Pool) : Nat := p.columns - p.used.length

/-- The lowest column that is not in use. -/
def lowestCol (used : NSet) : Nat := ((List.range (used.length + 1)).find? fun c => !used.contains c).getD 0

/-- The lowest free columns, taken. -/
def takeCols : Nat → Pool → List Nat × Pool
  | 0, p => ([], p)
  | n + 1, p =>
    let c := lowestCol p.used
    let r := takeCols n { p with used := p.used ++ [c] }
    (c :: r.1, r.2)

/-- The columns a slot holds: those of its table entries and its reserve. -/
def colsOf (p : Pool) (q : Seq) : NSet :=
  (q.spare.toList).foldl nsAdd ((q.table.map fun e => e.2.page / max 1 p.layers).foldl nsAdd [])

/-- An edit of a slot's table applied: its generation advances (R352). -/
def nextGen (q : Seq) : Nat := (q.gen + 1) % 65536

/-- Every column and the reserve of a slot released: the number of columns, and the pool. -/
def releaseSeq (p : Pool) (i : Nat) : Nat × Pool :=
  let cs := colsOf p (getSeq p i)
  (cs.length, modSeq { p with used := p.used.filter fun c => !cs.contains c } i fun q =>
    { q with table := [], spare := none, resUsed := false, gen := nextGen q })

/-- Continuing slots: ACTIVE or PAUSED_NO_PAGE (R362). -/
def continuing (q : Seq) : Bool := q.state == 3 || q.state == 4

/-- The next token of a slot starts a page without a column (R362). -/
def startsPage (q : Seq) : Bool := !thas q.table (q.len / 16)

/-- The order of slots in a boundary: descending PRIORITY, then ascending admission order (R362). -/
def slotBefore (p : Pool) (a b : Nat) : Bool :=
  let x := getSeq p a
  let y := getSeq p b
  decide (y.prio < x.prio) || (x.prio == y.prio && decide (x.order < y.order))

/-- A slot put into that order. -/
def insertSlot (p : Pool) (a : Nat) : List Nat → List Nat
  | [] => [a]
  | b :: l => if slotBefore p a b then a :: b :: l else b :: insertSlot p a l

/-- The slots that a test selects, in the order of R362. -/
def slotsWhere (p : Pool) (f : Seq → Bool) : List Nat :=
  (p.seqs.filter fun e => f e.2).foldl (fun l e => insertSlot p e.1 l) []

/-- A cache event: stamped by the district's command processor (R365). -/
def cacheEvent (s : State) (d kind sev : Nat) (payload : List Nat) : State := emit s (cpSource s d) kind sev d payload

/-! ## Walks (R354) -/

/-- The step length of a slot: LEN + NEW of its batch record for a slot in the step, else 0. -/
def stepLen (q : Seq) : Nat := if q.inStep then q.len + q.new else 0

/-- One page word (R354), with the generation and the step length latched at the walk's start; none is WALK_FAULT. -/
def walkWord (p : Pool) (q : Seq) (g lstep layer i : Nat) : Option Nat :=
  if cdiv lstep 16 ≤ i then some 0xFFFFFFFF
  else
    match tfind q.table i with
    | none => some 0xFFFFFFFF
    | some e =>
      let ahead := (e.gen + 65536 - g) % 65536
      if (1 ≤ ahead ∧ ahead < 32768) ∨ p.pages ≤ e.page + layer then none
      else some (e.page + layer + (min 16 (lstep - 16 * i) - 1) * 2 ^ 28)

/-- The words of a walk over `n` entries. -/
def walkWords (p : Pool) (q : Seq) (layer first n : Nat) : Option Bytes :=
  (List.range n).foldl (fun a i => match a, walkWord p q q.gen (stepLen q) layer (first + i) with
    | some b, some w => some (b ++ leBytes 4 w)
    | _, _ => none) (some [])

/-- A walk of a slot is in progress in a district (R356). -/
def walking (x : Dist) (slot : Nat) : Bool :=
  x.cores.any fun c => c.2.issued.any fun i => i.begun && fld i.q.raw 7 0 == 8 && fld i.q.raw 159 128 == slot

/-! ## Immediate edits (R356) -/

/-- A truncation applies (R356): the generation advances, later entries are invalid, their columns wait for phase 1; a reserve
among them is no longer in use (log entry 31). -/
def truncateSeq (p : Pool) (i len : Nat) (inStep : Bool) : Pool :=
  let q := getSeq p i
  let keep := q.table.filter fun e => e.1 < cdiv len 16
  let gone := (q.table.filter fun e => cdiv len 16 ≤ e.1).map fun e => e.2.page / max 1 p.layers
  let resGone := q.resUsed && (match q.spare with
    | some c => gone.contains c
    | none => false)
  modSeq { p with back := (gone.filter fun c => some c != q.spare || !q.resUsed).foldl nsAdd p.back } i fun q => { q with
    table := keep, gen := nextGen q, len := len, hist := min q.hist (len + 1), resUsed := q.resUsed && !resGone
    void := q.void || (inStep && q.inStep) }

/-- The pending truncations of a slot apply, in the order taken, each answered (R356). -/
def takeEdits (d slot : Nat) (s : State) : State :=
  let es := match (getDist s d).pool with
    | some p => (getSeq p slot).edits
    | none => []
  let s := modPool s d fun p => modSeq p slot fun q => { q with edits := [] }
  es.foldl (fun s e =>
    let s := modPool s d fun p => if e.1 < (getSeq p slot).len then truncateSeq p slot e.1 true else p
    queueReply s e.2.epoch { req := e.2.req, cmd := e.2.cmd }) s

/-- Every pending truncation of a district applies: no walk is in progress (R356). -/
def settleEdits (d : Nat) (s : State) : State :=
  match (getDist s d).pool with
  | none => s
  | some p => ((p.seqs.filter fun e => !e.2.edits.isEmpty).map (·.1)).foldl (fun s i => takeEdits d i s) s

/-- A boundary of the district is between two of its phases (R362). -/
def inBoundary (x : Dist) : Bool := x.loop.any fun l => l.part != 0

/-- A slot's pending truncations apply once no walk of it is in progress, and during a boundary at the end of the phase in
progress (R356). A walk frozen by a pause stays in progress, and with it the wait. -/
def applyEdit (d slot : Nat) (s : State) : State :=
  let x := getDist s d
  if walking x slot ∨ inBoundary x then s else takeEdits d slot s

/-! ## The boundary (R362–R364) -/

/-- A prefill that has written its last chunk becomes ACTIVE at the following boundary (R364). -/
def promote (p : Pool) : Pool :=
  { p with seqs := tmap p.seqs fun _ q => if q.state = 2 ∧ q.goal ≤ q.len then { q with state := 3, again := false, dropped := false } else { q with dropped := false } }

/-- Phase 1: one slot released; a truncation still pending of it applies first, for no walk is in progress (R356). -/
def endSlot (d : Nat) (s : State) (i : Nat) : State :=
  let s := takeEdits d i s
  match (getDist s d).pool with
  | none => s
  | some p =>
    let q := getSeq p i
    let cause := if q.state = 6 then 0 else q.ends
    let s := modPool s d fun p =>
      let r := releaseSeq p i
      modSeq r.2 i fun q => { gen := q.gen }
    cacheEvent s d 0x1C5 sevInfo [i, q.tag, q.len, cause]

/-- Phase 1 (R362): leaves and ends; then the columns of immediate edits return. -/
def phase1 (d : Nat) (s : State) : State :=
  match (getDist s d).pool with
  | none => s
  | some p =>
    let s := (slotsWhere p fun q => q.state == 6 || (q.state != 0 && q.ends != 0)).foldl (endSlot d) s
    modPool s d fun p => { p with used := p.used.filter fun c => !p.back.contains c, back := [] }

/-- A slot's columns dropped (R362): cause 1 policy, 2 ADMIT_PRIORITY. -/
def dropSlot (d cause i : Nat) (s : State) : State :=
  match (getDist s d).pool with
  | none => s
  | some p =>
    let r := releaseSeq p i
    let s := modPool s d fun _ =>
      { modSeq r.2 i fun q => { q with state := 5, dropped := true, noPage := false } with drops := p.drops + 1 }
    cacheEvent s d 0x1C2 sevNotice [i, r.1, cause]

/-- Columns that phase 3 will need (R362). -/
def needCols (p : Pool) : Nat :=
  (p.seqs.map fun e => if continuing e.2 then b2n e.2.resUsed + b2n (startsPage e.2) else 0).sum

/-- Phase 2 (R362): policy drops. -/
def phase2 : Nat → Nat → State → State
  | 0, _, s => s
  | fuel + 1, d, s =>
    match (getDist s d).pool with
    | none => s
    | some p =>
      if needCols p ≤ freeCols p then s
      else
        match (slotsWhere p continuing).getLast? with
        | some v => phase2 fuel d (dropSlot d 1 v s)
        | none => s

/-- A column becomes the page of a slot's next token. -/
def growWith (p : Pool) (i c : Nat) (res : Bool) : Pool :=
  modSeq p i fun q => { q with
    table := tset q.table (q.len / 16) ⟨c * p.layers, res, nextGen q⟩, gen := nextGen q, resUsed := q.resUsed || res
    state := 3, noPage := false }

/-- A free column becomes the new reserve. -/
def newReserve (p : Pool) (i : Nat) : Pool :=
  if (getSeq p i).resUsed && 0 < freeCols p then
    let r := takeCols 1 p
    modSeq r.2 i fun q => { q with spare := r.1.head?, resUsed := false }
  else p

/-- Phase 3 of one continuing slot (R362). A paused slot whose next token has a column goes on (log entry 29). -/
def grow (d : Nat) (s : State) (i : Nat) : State :=
  match (getDist s d).pool with
  | none => s
  | some p =>
    let q := getSeq p i
    if !startsPage q then modPool s d fun p => newReserve (modSeq p i fun q => { q with state := 3, noPage := false }) i
    else if 0 < freeCols p then
      let r := takeCols 1 p
      modPool s d fun _ => newReserve (growWith r.2 i (r.1.headD 0) false) i
    else
      match q.spare, q.resUsed with
      | some c, false =>
        cacheEvent (modPool s d fun p => growWith p i c true) d 0x1C4 sevInfo [i, q.len / 16]
      | _, _ =>
        let s := modPool s d fun p => modSeq p i fun q => { q with state := 4, noPage := true }
        if q.noPage then s else cacheEvent s d 0x1C3 sevNotice [i, q.len]

/-- Phase 3 (R362). -/
def phase3 (d : Nat) (s : State) : State :=
  match (getDist s d).pool with
  | none => s
  | some p => (slotsWhere p continuing).foldl (grow d) s

/-- Columns a QUEUED or dropped slot needs: those of its tokens and a reserve (R362, R363). -/
def joinCols (q : Seq) : Nat := cdiv (if q.state = 1 then q.goal else q.len) 16 + 1

/-- ADMIT_PRIORITY (R362): continuing slots of strictly lower priority are dropped, lowest first, until `n` columns are free. -/
def admitDrops : List Nat → Nat → Nat → State → State
  | [], _, _, s => s
  | v :: l, d, n, s =>
    match (getDist s d).pool with
    | none => s
    | some p => if n ≤ freeCols p then s else admitDrops l d n (dropSlot d 2 v s)

/-- A slot admitted (R362, R364): its columns in order, the last of them its reserve; a join is answered. -/
def admitSlot (d i : Nat) (s : State) : State :=
  match (getDist s d).pool with
  | none => s
  | some p =>
    let q := getSeq p i
    let r := takeCols (joinCols q) p
    let again := q.state == 5
    let s := modPool s d fun _ => modSeq r.2 i fun q => { q with
      state := 2, goal := if again then q.len else q.goal, len := 0, again := again, gen := nextGen q, pend := none, deferred := false
      table := (r.1.dropLast.zipIdx).map fun e => (e.2, ⟨e.1 * p.layers, false, nextGen q⟩)
      spare := r.1.getLast?, resUsed := false }
    let s := cacheEvent s d 0x1C0 sevInfo [i, q.tag, joinCols q, b2n again]
    match q.pend with
    | some w => finishOk s w (leBytes 8 1)
    | none => s

/-- A slot deferred (R363): the first deferral of a join is logged. -/
def deferSlot (d : Nat) (s : State) (i : Nat) : State :=
  match (getDist s d).pool with
  | none => s
  | some p =>
    let q := getSeq p i
    let s := modPool s d fun p => { modSeq p i fun q => { q with deferred := true } with deferrals := p.deferrals + 1 }
    if q.deferred ∨ q.state ≠ 1 then s else cacheEvent s d 0x1C1 sevNotice [i, joinCols q, freeCols p]

/-- Phase 4 (R362): joins and readmissions, until one does not fit. -/
def phase4 : List Nat → Nat → State → State
  | [], _, s => s
  | i :: l, d, s =>
    match (getDist s d).pool with
    | none => s
    | some p =>
      let q := getSeq p i
      let n := joinCols q
      let low := (slotsWhere p fun v => continuing v && decide (v.prio < q.prio)).reverse
      let gain := (low.map fun v => (colsOf p (getSeq p v)).length).sum
      let s := if freeCols p < n ∧ q.admitting ∧ n ≤ freeCols p + gain then admitDrops low d n s else s
      let free := match (getDist s d).pool with
        | some p => freeCols p
        | none => 0
      if n ≤ free then phase4 l d (admitSlot d i s) else (i :: l).foldl (deferSlot d) s

/-! ## The batch area (R360) -/

/-- What a slot writes in the coming step: 1 token when decoding, up to WINDOW of its prefill. -/
def newTokens (p : Pool) (q : Seq) : Nat :=
  if q.state = 3 then 1 else if q.state = 2 then min p.window (q.goal - q.len) else 0

/-- The slot's part in the coming step (R356, R364). -/
def setStepSeq (p : Pool) (q : Seq) : Seq :=
  let n := newTokens p q
  { q with inStep := q.state == 3 || q.state == 2, new := n, last := q.state == 2 && q.len + n == q.goal, void := false }

/-- Words 0–2 of a batch record with word 3 zeroed: 32 bytes. -/
def batchRecord (q : Seq) : Bytes :=
  pack 32 [(8, q.state), (1, b2n q.inStep), (1, b2n (q.inStep && q.state == 2)), (1, b2n q.last), (5, 0), (4, q.prio), (12, 0)
    , (16, q.new), (16, 0), (32, q.len), (32, 0), (64, q.tag), (64, 0)]

/-- The write window of a slot: targets in position order, the others SKIP (R358, R360). -/
def windowBytes (p : Pool) (q : Seq) : Bytes :=
  (List.range p.window).flatMap fun k =>
    let pos := q.len + k
    match (if k < q.new then tfind q.table (pos / 16) else none) with
    | some e => pack 8 [(32, e.page), (4, pos % 16)]
    | none => pack 8 [(63, 0), (1, 1)]

/-- The batch area written (R360). -/
def writeBatch (d : Nat) (s : State) : State :=
  match (getDist s d).pool with
  | none => s
  | some p =>
    let p := { p with seqs := tmap p.seqs fun _ q => setStepSeq p q }
    let s := modPool s d fun _ => p
    match tfind (getDist s d).segs p.batchSeg with
    | none => s
    | some e =>
      (List.range p.slots).foldl (fun s i =>
        let q := getSeq p i
        segWrite (segWrite s e (p.batchOff + 64 * i) (batchRecord q)) e (p.batchOff + 64 * p.slots + 8 * (i * p.window)) (windowBytes p q)) s

/-! ## The serving loop (R374–R376) -/

/-- The loop of a district changed. -/
def modLoop (s : State) (d : Nat) (g : Loop → Loop) : State := modDist s d fun x => { x with loop := x.loop.map g }

/-- The serving loop ends: 0 stopped, 1 faulted (R374). The sequences keep their states. -/
def endServe (s : State) (d end_ : Nat) : State :=
  match (getDist s d).loop with
  | none => s
  | some l =>
    let s := unbind (modDist s d fun x => { x with loop := none }) d vbServe
    let s := finishOk s l.pend (pack 8 [(8, end_)])
    leaveRunning s d

/-- Between steps a SERVE_STOP or a waiting pause takes effect (R374, R375, R378). -/
def loopEdge (d : Nat) (s : State) : State :=
  match (getDist s d).loop with
  | none => s
  | some l =>
    if l.phase = 3 ∨ l.part ≠ 0 ∨ (getDist s d).state ≠ 3 then s
    else if l.stop then endServe s d 0
    else (pauseAtBoundary s d).getD s

/-- Some slot takes part in the step. -/
def stepSlots (p : Pool) : List Nat := (p.seqs.filter fun e => e.2.inStep).map (·.1)

/-- One phase of the boundary, 0–3 for phases 1–4 (R362), the advisories read before the first (R19); the immediate edits taken in
it apply at its end (R356; log entry 170). -/
def boundaryPhase (d : Nat) (s : State) (k : Nat) : State :=
  match (getDist s d).pool with
  | none => s
  | some p =>
    let s := match k with
      | 0 => phase1 d (modPool (readAdvisories s d) d promote)
      | 1 => if p.noDrop then s else phase2 p.slots d s
      | 2 => phase3 d s
      | _ => phase4 (slotsWhere p fun q => q.state == 1 || (q.state == 5 && !q.dropped)) d s
    settleEdits d s

/-- The boundary's end (R360, R375): the batch area is written; a stop or pause taken during the boundary takes effect. -/
def boundaryEnd (d : Nat) (s : State) : State :=
  let s := writeBatch d s
  let none_ := match (getDist s d).pool with
    | some p => stepSlots p == []
    | none => true
  loopEdge d (modLoop s d fun l => { l with phase := if none_ then 1 else 2, part := 0, heldLogged := false })

/-- A boundary runs, up to and with its phase `upto` of 1–3, or to its end (R362, R375). -/
def serveBoundary (d upto : Nat) (s : State) : State :=
  let x := getDist s d
  match x.loop, x.pool with
  | some l, some _ =>
    if l.phase ≠ 0 ∨ x.state ≠ 3 ∨ x.run.isSome then s
    else if l.part = 0 ∧ (l.stop ∨ x.pause.isSome) then loopEdge d s
    else
      let last := if upto = 0 ∨ 4 ≤ upto then 4 else max upto l.part
      let s := ((List.range last).drop l.part).foldl (boundaryPhase d) s
      if last = 4 then boundaryEnd d s else modLoop s d fun l => { l with part := last }
  | _, _ => s

/-- Meaning of SERVE_BOUNDARY (R362). -/
def execServeBoundary (d upto : Nat) (s : State) : Answer := .next (serveBoundary d upto s)

/-- Free records of the token ring, with the consume count as just read (R376). -/
def ringRoom (l : Loop) (cons : Nat) : Nat := 2 ^ l.log2n - (l.produce + 2 ^ 64 - cons) % 2 ^ 64

/-- The step starts when the token ring has room for one record per slot in it; else it is held (R375, R376). Host memory
must be reachable (log entry 30). -/
def serveStepStart (d cons : Nat) (s : State) : State :=
  let x := getDist s d
  match x.loop, x.pool with
  | some l, some p =>
    if l.phase ≠ 2 ∨ x.state ≠ 3 ∨ x.run.isSome ∨ !s.pcie.linkUp then s
    else
      let n := (stepSlots p).length
      let s := modLoop s d fun l => { l with cons := cons }
      if ringRoom l cons < n then
        if l.heldLogged then s
        else cacheEvent (modLoop s d fun l => { l with heldLogged := true }) d 0x1E3 sevNotice [n, ringRoom l cons]
      else
        let s := modDist (modLoop s d fun l => { l with phase := 3, heldLogged := false }) d fun x => { x with bstep := (x.bstep + 1) % 2 ^ 64 }
        startRun s d l.handle .serve (time s)
  | _, _ => s

/-- Meaning of SERVE_STEP_START (R375). -/
def execServeStepStart (d : Nat) (cons : BitVec 64) (s : State) : Answer := .next (serveStepStart d cons.toNat s)

/-- A token record (R376). -/
def tokenRecord (q : Seq) (token pos : Nat) (phase : Bool) : Bytes :=
  pack 16 [(64, q.tag), (32, token), (24, pos), (1, b2n phase), (1, b2n (q.ends != 0)), (2, q.ends), (4, 0)]

/-- One token record written at the produce count (R73, R376). -/
def putToken (s : State) (d : Nat) (q : Seq) (token pos : Nat) : State :=
  match (getDist s d).loop with
  | none => s
  | some l =>
    let n := 2 ^ l.log2n
    let s := send s (.tokenWrite d (l.produce % n) (BitVec.ofNat 64 (l.ringBase + 16 * (l.produce % n))) (tokenRecord q token pos (l.produce / n % 2 == 0)))
    modLoop s d fun l => { l with produce := (l.produce + 1) % 2 ^ 64 }

/-- One slot after the step's program (R356, R364, R375): its NEXT and DONE, its history and its token record. -/
def slotAfter (d : Nat) (s : State) (i : Nat) : State :=
  let x := getDist s d
  match x.pool with
  | none => s
  | some p =>
    let q := getSeq p i
    let out := { q with inStep := false, new := 0, last := false, void := false }
    if q.void then
      cacheEvent (modPool s d fun p => modSeq p i fun _ => out) d 0x1C6 sevNotice [i, x.bstep, q.gen]
    else if q.state = 6 then modPool s d fun p => modSeq p i fun _ => { out with len := q.len + q.new }
    else
      let rec_ := match tfind x.segs p.batchSeg with
        | some e => segRead s e (p.batchOff + 64 * i + 24) 8
        | none => []
      let len := q.len + q.new
      let gives := q.state = 3 ∨ (q.last ∧ !q.again)
      let q1 := { out with
        len := len, ends := if bit rec_ 32 then 1 else if p.maxPages * 16 ≤ len then 2 else 0
        hist := if gives then len + 1 else q.hist }
      let s := modPool s d fun p => modSeq p i fun _ => q1
      if !gives then s
      else
        let s := match tfind x.segs p.histSeg with
          | some e => if len < p.maxPages * 16 then segWrite s e (p.histOff + i * p.maxPages * 64 + 4 * len) (slice rec_ 0 4) else s
          | none => s
        putToken s d q1 (fld rec_ 31 0) len

/-- The step's program is complete (R375 item 4). -/
def serveStepComplete (d : Nat) (s : State) : State :=
  let x := getDist s d
  match x.loop, x.pool with
  | some l, some p =>
    if l.phase ≠ 3 ∨ x.run.isSome ∨ (x.state ≠ 3 ∧ x.state ≠ 4) ∨ !s.pcie.linkUp then s
    else
      let s := (stepSlots p).foldl (slotAfter d) (settleEdits d s)
      let wrote := match (getDist s d).loop with
        | some k => k.produce != l.produce
        | none => false
      let s := if wrote then raiseBound s d vbServe else s
      loopEdge d (modLoop s d fun l => { l with phase := 0 })
  | _, _ => s

/-- Meaning of SERVE_STEP_COMPLETE (R375). -/
def execServeStepComplete (d : Nat) (s : State) : Answer := .next (serveStepComplete d s)

/-- The faulted step is void for every slot in it, and the loop ends (R372). -/
def serveFaulted (s : State) (d : Nat) : State :=
  endServe (modPool s d fun p => { p with
    seqs := tmap p.seqs fun _ q => if q.inStep then { q with inStep := false, new := 0, last := false, void := false } else q }) d 1

/-- Meaning of IMMEDIATE_EDIT_APPLY (R356). -/
def execImmediateEditApply (d slot : Nat) (s : State) : Answer := .next (applyEdit d slot s)

/-! ## The SERVE_ commands (R365, R374) -/

def specServePoolCreate : Spec := { cmd := 0x0700 }
def specServePoolDestroy : Spec := { cmd := 0x0701 }
def specServeJoin : Spec := { cmd := 0x0702 }
def specServeLeave : Spec := { cmd := 0x0703 }
def specServeTruncate : Spec := { cmd := 0x0704 }
def specServeSeqInfo : Spec := { cmd := 0x0705 }
def specServePoolInfo : Spec := { cmd := 0x0706 }
def specServeRun : Spec := { cmd := 0x0710 }
def specServeStop : Spec := { cmd := 0x0711 }

/-- A SERVE_ command in a training district is DENIED (R371). -/
def notServing (x : Dist) : Bool × Err := (x.state != 0 && !x.serving, denied)

/-- In a district without a pool a SERVE_ command is BAD_ARGUMENT (R365). -/
def noPool (x : Dist) : Bool × Err := (x.pool.isNone, badArgument)

/-- The slot a payload names is one of the pool's. -/
def slotBad (x : Dist) (slot : Nat) : Bool × Err := ((match x.pool with
  | some p => decide (p.slots ≤ slot)
  | none => false), badArgument)

/-- The sequence state of a slot. -/
def seqState (x : Dist) (slot : Nat) : Nat := match x.pool with
  | some p => (getSeq p slot).state
  | none => 0

/-- The slot is in one of the states (R365). -/
def slotIn (x : Dist) (slot : Nat) (ok : List Nat) : Bool × Err := (!ok.contains (seqState x slot), conflict 3 (seqState x slot))

/-- The pool a payload defines in a segment of a size (R350). -/
def poolOf (p : Bytes) (size bid : Nat) : Pool :=
  let layers := fld p 40 32
  let pages := min 268435455 (size / 8192)
  { seg := fld p 7 0, histSeg := fld p 15 8, histOff := fld p 191 128, batchSeg := fld p 23 16, batchOff := fld p 255 192
    noDrop := bit p 24, layers := layers, window := fld p 63 48, slots := fld p 76 64, maxPages := fld p 96 80, pages := pages
    columns := pages / max 1 layers, bid := bid }

/-- Bytes of the page tables (R352). -/
def tableSize (p : Bytes) : Nat := fld p 76 64 * fld p 96 80 * 8

/-- The argument checks of SERVE_POOL_CREATE (R365). -/
def poolArgsOk (x : Dist) (p : Bytes) : Bool :=
  let layers := fld p 40 32
  let window := fld p 63 48
  let slots := fld p 76 64
  let maxp := fld p 96 80
  1 ≤ layers && layers ≤ 256 && 1 ≤ window && window ≤ 4096 && 1 ≤ slots && slots ≤ 4096 && 1 ≤ maxp && maxp ≤ 65536
    && (match tfind x.segs (fld p 7 0) with
      | some e => (e.tier == 1 || e.tier == 2) && !e.coded
      | none => false)
    && rangeIn x (fld p 15 8) (fld p 191 128) (slots * maxp * 64) [1, 2, 3, 4]
    && rangeIn x (fld p 23 16) (fld p 255 192) (slots * (64 + 8 * window)) [1, 2, 3, 4]

/-- Meaning of SERVE_POOL_CREATE (R350, R351, R365). -/
def execServePoolCreate (c : FwReq) (s : State) : Answer :=
  let p := c.payload
  let d := cmdDist c
  let x := getDist s d
  fwStep specServePoolCreate c
    (fun s => headChecks specServePoolCreate (p.length == 48 && zeroAt p [(31, 25), (47, 41), (79, 77), (127, 97), (383, 256)]) true c s
      ++ [notServing x, (!poolArgsOk x p, badArgument), legalIn s d [1, 2], (x.pool.isSome, exhausted),
        (!fits s 1 (List.range 8) (tableSize p), exhausted)])
    (fun s =>
      let a := alloc s 1 (List.range 8) (tableSize p)
      let size := match tfind x.segs (fld p 7 0) with
        | some e => e.size
        | none => 0
      let q := poolOf p size a.1
      replyOk (modDist a.2 d fun x => { x with pool := some q, bstep := 0 }) c 0x0700 (pack 16 [(32, q.pages), (32, q.columns), (64, tableSize p)])) s

/-- A descriptor is a WALK, a page read or a page write (R365). -/
def usesPool (seg : Nat) (r : Bytes) : Bool :=
  fld r 7 0 == 8 || (fld r 7 0 == 4 && ((!bit r 128 && fld r 151 144 == seg) || (!bit r 129 && fld r 159 152 == seg)))

/-- Meaning of SERVE_POOL_DESTROY (R365). -/
def execServePoolDestroy (c : FwReq) (s : State) : Answer :=
  let d := cmdDist c
  let x := getDist s d
  let busy : Option (Nat × Seq) := match x.pool with
    | some p => p.seqs.find? fun e => e.2.state != 0
    | none => none
  fwStep specServePoolDestroy c
    (fun s => headChecks specServePoolDestroy (c.payload == []) true c s ++ [notServing x, noPool x, legalIn s d [1, 2, 6],
      (x.run.isSome, conflict 1 x.state), (busy.isSome, conflict 3 ((busy.map (·.2.state)).getD 0))])
    (fun s =>
      match x.pool with
      | none => s
      | some q =>
        let hs := (x.progs.filter fun e => (allDescs x e.2).any (usesPool q.seg)).map (·.1)
        let s := hs.foldl (fun s h => unloadProg s d h) s
        let s := { modDist s d (fun x => { x with pool := none }) with backs := tdel s.backs q.bid }
        replyOk s c 0x0701 []) s

/-- The lowest FREE slot (R365). -/
def freeSlot (x : Dist) : Option Nat := x.pool.bind fun p => (List.range p.slots).find? fun i => (getSeq p i).state == 0

/-- The argument checks of SERVE_JOIN (R365). -/
def joinOk (x : Dist) (p : Bytes) : Bool :=
  match x.pool with
  | some q => 1 ≤ fld p 127 96 && fld p 127 96 ≤ q.maxPages * 16 - 1 && rangeIn x (fld p 79 72) (fld p 191 128) (4 * fld p 127 96) [1, 2, 3, 4]
  | none => false

/-- Meaning of SERVE_JOIN (R360, R363, R365): the prompt is copied into history; admission is a boundary's. -/
def execServeJoin (c : FwReq) (s : State) : Answer :=
  let p := c.payload
  let d := cmdDist c
  let x := getDist s d
  fwStep specServeJoin c
    (fun s => headChecks specServeJoin (p.length == 32 && zeroAt p [(71, 69), (95, 80), (255, 192)]) true c s
      ++ [notServing x, noPool x, (!joinOk x p, badArgument), legalIn s d anyState, ((freeSlot x).isNone, exhausted)])
    (fun s =>
      match x.pool, freeSlot x with
      | some q, some i =>
        let n := fld p 127 96
        let s := match tfind x.segs (fld p 79 72), tfind x.segs q.histSeg with
          | some a, some b => segWrite s b (q.histOff + i * q.maxPages * 64) (segRead s a (fld p 191 128) (4 * n))
          | _, _ => s
        let w := pendOf s c 0x0702
        let s := modPool s d fun q => { modSeq q i fun y =>
          { gen := y.gen, state := 1, tag := fld p 63 0, prio := fld p 67 64, admitting := bit p 68, goal := n, hist := n, order := q.nextOrder, pend := some w }
          with nextOrder := q.nextOrder + 1 }
        queueReply s w.epoch { req := c, cmd := 0x0702, final := false, status := 1, payload := leBytes 8 i }
      | _, _ => s) s

/-- Meaning of SERVE_LEAVE (R365). -/
def execServeLeave (c : FwReq) (s : State) : Answer :=
  let p := c.payload
  let d := cmdDist c
  let x := getDist s d
  let i := fld p 11 0
  fwStep specServeLeave c
    (fun s => headChecks specServeLeave (p.length == 8 && zeroAt p [(63, 12)]) true c s
      ++ [notServing x, noPool x, slotBad x i, legalIn s d anyState, slotIn x i [1, 2, 3, 4, 5]])
    (fun s =>
      let s := if seqState x i = 1 then
          let w := x.pool.bind fun q => (getSeq q i).pend
          let s := modPool s d fun q => modSeq q i fun y => { gen := y.gen }
          match w with
          | some w => finishOk s w (leBytes 8 0)
          | none => s
        else modPool s d fun q => modSeq q i fun y => { y with state := 6 }
      replyOk s c 0x0703 []) s

/-- Meaning of SERVE_TRUNCATE (R356, R365): applied at once, or when the last walk of the slot in progress ends. -/
def execServeTruncate (c : FwReq) (s : State) : Answer :=
  let p := c.payload
  let d := cmdDist c
  let x := getDist s d
  let i := fld p 11 0
  let n := fld p 63 32
  let len := match x.pool with
    | some q => (getSeq q i).len
    | none => 0
  fwStep specServeTruncate c
    (fun s => headChecks specServeTruncate (p.length == 8 && zeroAt p [(31, 12)]) true c s
      ++ [notServing x, noPool x, slotBad x i, (n == 0 || decide (len ≤ n), badArgument), legalIn s d anyState, slotIn x i [3, 4]])
    (fun s => applyEdit d i (modPool s d fun q => modSeq q i fun y => { y with edits := y.edits ++ [(n, pendOf s c 0x0704)] })) s

/-- Meaning of SERVE_SEQ_INFO (R365). -/
def execServeSeqInfo (c : FwReq) (s : State) : Answer :=
  let p := c.payload
  let d := cmdDist c
  let x := getDist s d
  let i := fld p 11 0
  fwStep specServeSeqInfo c
    (fun s => headChecks specServeSeqInfo (p.length == 8 && zeroAt p [(63, 12)]) true c s
      ++ [notServing x, noPool x, slotBad x i, legalIn s d anyState])
    (fun s =>
      let q := match x.pool with
        | some q => getSeq q i
        | none => {}
      replyOk s c 0x0705 (pack 32 [(8, q.state), (4, q.prio), (1, b2n q.resUsed), (3, 0), (16, q.gen), (32, q.len), (32, q.table.length), (32, 0),
        (64, q.tag)])) s

/-- Meaning of SERVE_POOL_INFO (R365). -/
def execServePoolInfo (c : FwReq) (s : State) : Answer :=
  let d := cmdDist c
  let x := getDist s d
  fwStep specServePoolInfo c
    (fun s => headChecks specServePoolInfo (c.payload == []) true c s ++ [notServing x, noPool x, legalIn s d anyState])
    (fun s => replyOk s c 0x0706 (match x.pool with
      | some q => pack 32 [(32, freeCols q), (32, q.columns), (64, q.drops), (64, q.deferrals)]
      | none => zeros 32)) s

/-- The argument checks of SERVE_RUN (R374). -/
def serveArgsOk (x : Dist) (p : Bytes) : Bool :=
  thas x.progs (fld p 15 0) && vecArgOk (fld p 23 16) && 8 ≤ fld p 31 24 && fld p 31 24 ≤ 20 && fld p 47 32 ≤ 1000 && fld p 127 64 % 4096 == 0

/-- Meaning of SERVE_RUN (R374): the loop starts with a boundary. -/
def execServeRun (c : FwReq) (s : State) : Answer :=
  let p := c.payload
  let d := cmdDist c
  let x := getDist s d
  fwStep specServeRun c
    (fun s => headChecks specServeRun (p.length == 32 && zeroAt p [(63, 48), (255, 192)]) true c s
      ++ [notServing x, noPool x, (!serveArgsOk x p, badArgument), legalIn s d [2], retainBlocks s, (!vecFree s d (fld p 23 16), exhausted)])
    (fun s =>
      let s := replyAccepted (autoWake s) c 0x0710
      match bindVec s d (fld p 23 16) vbServe with
      | none => s
      | some (v, s) =>
        let l : Loop := { pend := pendOf s c 0x0710, handle := fld p 15 0, ringBase := fld p 127 64, consAddr := fld p 191 128, log2n := fld p 31 24
                          modUs := fld p 47 32, vec := v }
        setDistState (modDist s d fun x => { x with loop := some l }) d 3) s

/-- Meaning of SERVE_STOP (R374). -/
def execServeStop (c : FwReq) (s : State) : Answer :=
  let d := cmdDist c
  let x := getDist s d
  fwStep specServeStop c
    (fun s => headChecks specServeStop (c.payload == []) true c s ++ [notServing x, noPool x, legalIn s d [3, 4, 5]])
    (fun s => loopEdge d (replyOk (modLoop s d fun l => { l with stop := true }) c 0x0711 [])) s

end Sys2Proof.Machine
end

