-- ==== Sys2Proof/Machine/SnapCmd.lean ====
section
/-! DEFINITION. The SNAP_ commands and the snapshot engine's events (R405–R416). -/

namespace Sys2Proof.Machine

def specSnapPolicy : Spec := { cmd := 0x0900 }
def specSnapTake : Spec := { cmd := 0x0901 }
def specSnapInfo : Spec := { cmd := 0x0902 }
def specSnapRestore : Spec := { cmd := 0x0903 }
def specSnapFill : Spec := { cmd := 0x0904 }
def specSnapFillInfo : Spec := { cmd := 0x0905 }
def specSnapServe : Spec := { cmd := 0x0906 }

/-- The shared checks of a SNAP_ command (R416): presence, training district, arguments, keys and legality (R371). -/
def snapChecks (k : Spec) (form : Bool) (c : FwReq) (args : List (Bool × Err)) (s : State) : List (Bool × Err) :=
  let d := cmdDist c
  headChecks k form (flashPresent s) c s ++ [notTraining (getDist s d)] ++ args ++ [keyErr s, legalIn s d [1, 2, 3, 5, 6]]

/-- The engine is in one of the states (R416). -/
def snapIn (x : Dist) (ok : List Nat) : Bool × Err := (!ok.contains x.snap.code, conflict 7 x.snap.code)

/-- The policy a payload defines (R405). -/
def policyOf (p : Bytes) : Policy :=
  { volume := fld p 31 0, intervalS := fld p 63 32, regions := [fld p 95 64, fld p 127 96, fld p 159 128, fld p 191 160]
    regionExt := fld p 223 192, ms := fld p 236 224, group := fld p 245 240, bufSeg := fld p 255 248, bufOff := fld p 319 256 }

/-- The argument checks of R405: the volume is the district's and holds the regions; SNAP_GROUP holds all positions in order
and has no plan; the capture buffer is an unprotected board or near segment that holds the shard. -/
def policyOk (s : State) (d : Nat) (p : Policy) : Bool :=
  let x := getDist s d
  match x.gate.job with
  | none => false
  | some j =>
    thas s.flash.vols p.volume && (getVol s p.volume).owner == d
      && p.regions.all (fun r => r + p.regionExt ≤ (getVol s p.volume).extents)
      && (match tfind s.groups p.group with
        | some g => g.dist == d && g.members.map (·.id) == j.members.map (·.id) && g.plan.isNone
        | none => false)
      && rangeIn x p.bufSeg p.bufOff (shardBytes x) [1, 2] && !j.protect.testBit p.bufSeg

/-- Meaning of SNAP_POLICY (R405, R416). -/
def execSnapPolicy (c : FwReq) (s : State) : Answer :=
  let p := c.payload
  let d := cmdDist c
  fwStep specSnapPolicy c
    (fun s => snapChecks specSnapPolicy (p.length == 48 && zeroAt p [(239, 237), (247, 246), (383, 320)]) c
      [(!policyOk s d (policyOf p), badArgument)] s ++ [snapIn (getDist s d) [0]])
    (fun s => replyOk (modSnap s d fun n => { n with policy := some (policyOf p), lastAt := time s }) c 0x0900 []) s

/-- Meaning of SNAP_TAKE (R406, R416): a request with cause host. -/
def execSnapTake (c : FwReq) (s : State) : Answer :=
  let d := cmdDist c
  fwStep specSnapTake c (snapChecks specSnapTake (c.payload == []) c [])
    (fun s => replyOk (modSnap s d fun n => { n with asked := n.asked ||| 4 }) c 0x0901 []) s

/-- The 96 bits SNAP_INFO gives of a region. -/
def regionInfo (s : State) (p : Policy) (r : Nat) : List (Nat × Nat) :=
  let h := regionHead s p r
  if headValid h then [(64, fld h 127 64), (2, fld h 41 40), (1, 1), (29, 0)] else [(96, 0)]

/-- Meaning of SNAP_INFO (R416). -/
def execSnapInfo (c : FwReq) (s : State) : Answer :=
  let d := cmdDist c
  fwStep specSnapInfo c (snapChecks specSnapInfo (c.payload == []) c [])
    (fun s =>
      let n := (getDist s d).snap
      let rs := match n.policy with
        | some p => (List.range 4).flatMap (regionInfo s p)
        | none => []
      replyOk s c 0x0902 (pack 64 ((64, n.code) :: rs))) s

/-- The remap table of a SNAP_RESTORE: none gives all zero (R410). -/
def remapTable (s : State) (x : Dist) (p : Bytes) : Bytes :=
  if fld p 79 72 = 0 then zeros 256 else tableBytes s x (fld p 79 72) (fld p 191 128) 256

/-- The restore's arguments name a valid snapshot and destinations that hold it (R410). -/
def restoreOk (s : State) (x : Dist) (p : Bytes) : Bool :=
  match x.snap.policy with
  | none => false
  | some q =>
    (fld p 79 72 == 0 || rangeIn x (fld p 79 72) (fld p 191 128) 256 [1, 2, 3, 4])
      && (match findRegion s q (bit p 64) (fld p 63 0) with
        | some r => destsOk x (regionHead s q r) (remapTable s x p)
        | none => false)

/-- Meaning of SNAP_RESTORE (R410): accepted; SNAP_RESTORE_DONE carries it out. -/
def execSnapRestore (c : FwReq) (s : State) : Answer :=
  let p := c.payload
  let d := cmdDist c
  let x := getDist s d
  fwStep specSnapRestore c
    (fun s => snapChecks specSnapRestore (p.length == 32 && zeroAt p [(71, 66), (127, 80), (255, 192)]) c
      [(!restoreOk s x p, badArgument)] s ++ [(x.state == 3, conflict 1 3), snapIn x [0], gateIn x [0, 5]])
    (fun s =>
      let s := replyAccepted s c 0x0903
      match x.snap.policy.bind fun q => findRegion s q (bit p 64) (fld p 63 0) with
      | some r => modSnap s d fun n => { n with
          code := 4, restore := some { pend := pendOf s c 0x0903, region := r, mirror := bit p 64, verify := bit p 65, remap := remapTable s x p } }
      | none => s) s

/-- Meaning of SNAP_RESTORE_DONE (R410). -/
def execSnapRestoreDone (d : Nat) (s : State) : Answer :=
  .next (when ((getDist s d).snap.code == 4) (restoreDone d) s)

/-- The fill as SNAP_FILL starts or resumes it (R412): RESUME keeps the bitmap when SEQ matches; extent 0 is asked for again,
so that DIGEST is compared. -/
def fillOf (old : Option Fill) (p : Bytes) (w : Pend) : Fill :=
  let fresh : Fill := { pend := [w], seq := fld p 63 0, src := fld p 76 64, verify := bit p 78 }
  match old with
  | none => fresh
  | some f =>
    if bit p 77 && f.seq == fld p 63 0 then { f with pend := f.pend ++ [w], src := fld p 76 64, verify := bit p 78, have_ := nsDel f.have_ 0, resent := 0 }
    else { fresh with pend := f.pend ++ [w] }

/-- Meaning of SNAP_FILL (R412, R416). -/
def execSnapFill (c : FwReq) (s : State) : Answer :=
  let p := c.payload
  let d := cmdDist c
  let x := getDist s d
  let ok := x.snap.policy.isSome && (match x.gate.job with
    | some j => decide (fld p 76 64 < j.members.length)
    | none => false)
  fwStep specSnapFill c
    (fun s => snapChecks specSnapFill (p.length == 16 && zeroAt p [(127, 79)]) c [(!ok, badArgument)] s
      ++ [snapIn x (if bit p 77 then [0, 5] else [0])])
    (fun s =>
      let s := replyAccepted s c 0x0904
      fillRequests (modSnap s d fun n => { n with code := 5, fill := some (fillOf n.fill p (pendOf s c 0x0904)) }) d) s

/-- Meaning of SNAP_FILL_INFO (R416). -/
def execSnapFillInfo (c : FwReq) (s : State) : Answer :=
  let d := cmdDist c
  fwStep specSnapFillInfo c (snapChecks specSnapFillInfo (c.payload == []) c [])
    (fun s =>
      let b := match (getDist s d).snap.fill with
        | some f => pack 16 [(32, f.have_.length), (32, fillTotal f), (64, f.seq)]
        | none => zeros 16
      replyOk s c 0x0905 b) s

/-- The mirror region holds the snapshot to be served (R412). -/
def serveOk (s : State) (x : Dist) (p : Bytes) : Bool :=
  match x.snap.policy with
  | none => false
  | some q => bit p 64 || (findRegion s q true (fld p 63 0)).isSome

/-- Meaning of SNAP_SERVE (R412, R416). -/
def execSnapServe (c : FwReq) (s : State) : Answer :=
  let p := c.payload
  let d := cmdDist c
  let x := getDist s d
  fwStep specSnapServe c
    (fun s => snapChecks specSnapServe (p.length == 16 && zeroAt p [(127, 65)]) c [(!serveOk s x p, badArgument)] s ++ [snapIn x [0, 6]])
    (fun s => replyOk (modSnap s d fun n =>
      if bit p 64 then { n with code := 0, serving := none } else { n with code := 6, serving := some (fld p 63 0) }) c 0x0906 []) s

/-- Meaning of SNAP_CAPTURE_DONE (R407): the capture completes or fails, and an update program that waited for it starts. -/
def execSnapCaptureDone (d : Nat) (s : State) : Answer :=
  .next (when ((getDist s d).snap.code == 1) (fun s =>
    let s := captureDone d s
    if (getDist s d).gate.updWait then startUpdate d s else s) s)

/-- The flits of a message of SNAP_GROUP leave with the command that brings its content (R252). -/
def snapTaken (d : Nat) (s : State) : State :=
  match (getDist s d).snap.policy with
  | some p => match (List.range 24).findSome? fun q => takeMsg p.group q s with
    | some r => r.2
    | none => s
  | none => s

/-- Meaning of SNAP_MIRROR_RECEIVE (R407, R408). -/
def execSnapMirrorReceive (d ext : Nat) (data : Bytes) (last : Bool) (s : State) : Answer :=
  .next (mirrorReceive d ext data last (snapTaken d s))

/-- Meaning of SNAP_REGION_WRITE_DONE (R408). -/
def execSnapRegionWriteDone (d : Nat) (mirror : Bool) (s : State) : Answer := .next (regionDone d mirror s)

/-- Meaning of FILL_REQUEST_RECEIVE (R412). -/
def execFillRequestReceive (d ext : Nat) (s : State) : Answer := .next (fillRequest d ext (snapTaken d s))

/-- Meaning of FILL_EXTENT_RECEIVE (R412): the CRC-32C check's outcome comes with the message. -/
def execFillExtentReceive (d ext : Nat) (data : Bytes) (ok : Bool) (s : State) : Answer := .next (fillReceive d ext data ok (snapTaken d s))

end Sys2Proof.Machine
end

