-- ==== Sys2Proof/Machine/Districts.lean ====
section
/-! DEFINITION. Districts (R366–R383): creation, destruction, pause, resume, recovery; the entry to FAULTED (R372); and
`settle`, which carries out what a step's faults and completions bring about. -/

namespace Sys2Proof.Machine

/-! ## Quarters and other resources (R366–R369) -/

/-- Quarters that some district holds, or that a resume has taken. -/
def heldQuarters (s : State) : List Nat :=
  s.dists.flatMap fun e => if e.2.state = 0 then [] else e.2.quarters ++ (match e.2.resume with
    | some r => r.quarters
    | none => [])

/-- The quarters a request gets (R368): those of QMASK, or the free ones with the lowest numbers; none when they are not
free. -/
def pickQuarters (s : State) (q mask : Nat) : Option (List Nat) :=
  let free := (List.range 32).filter fun i => !(heldQuarters s).contains i
  if mask = 0 then (if q ≤ free.length then some (free.take q) else none)
  else if (setBits 32 mask).all free.contains then some (setBits 32 mask) else none

/-- The district is not EMPTY. -/
def alive (x : Dist) : Bool := x.state != 0

/-- The processor that runs the fewest districts, the lowest-numbered on a tie (R368). -/
def pickCp (s : State) : Nat :=
  let n := fun c => (s.dists.filter fun e => alive e.2 && e.2.cp == c).length
  ([1, 2, 3] : List Nat).foldl (fun b c => if n c < n b then c else b) 0

/-- The lowest free contiguous directory range of `n` entries (R309, R367). -/
def pickDir (s : State) (n : Nat) : Option Nat :=
  let used := (s.dists.filter fun e => alive e.2 && e.2.dirCount != 0).map fun e => (e.2.dirBase, e.2.dirCount)
  if n = 0 then some 0
  else ((0 :: used.map fun u => u.1 + u.2).filter fun b => b + n ≤ 65536 && used.all fun u => b + n ≤ u.1 || u.1 + u.2 ≤ b).min?

/-- The credit shares of a DIST_CREATE payload. -/
def sharesOf (p : Bytes) : AMap Nat :=
  (((List.range 24).map fun i => (i, fld p (192 + 8 * i + 6) (192 + 8 * i))).filter fun e => e.2 != 0)

/-- The sum of the shares on a port. -/
def portShare (s : State) (p : Nat) : Nat := ((s.dists.filter fun e => alive e.2).map fun e => tget 0 e.2.shares p).sum

/-- A channel belongs to some district. -/
def channelHeld (s : State) (g : Nat) : Bool := s.dists.any fun e => alive e.2 && e.2.channels.contains g

/-- Bytes of a save area (R377). -/
def saveBytes (q : Nat) : Nat := 46137344 * q

def specDistCreate : Spec := { cmd := 0x0200, pf0 := true, emptyOk := true }
def specDistDestroy : Spec := { cmd := 0x0201, pf0 := true }
def specDistPause : Spec := { cmd := 0x0202, pf0 := true }
def specDistResume : Spec := { cmd := 0x0203, pf0 := true }
def specDistRecover : Spec := { cmd := 0x0204, pf0 := true }
def specDistInfo : Spec := { cmd := 0x0205, pf0 := true, emptyOk := true }

/-- The reserved bits of DIST_CREATE (R366). -/
def createRsvd : List (Nat × Nat) :=
  [(7, 0), (15, 11), (23, 22), (31, 28), (191, 145)] ++ (List.range 24).map fun i => (192 + 8 * i + 7, 192 + 8 * i + 7)

/-- The argument checks of R367. -/
def createOk (p : Bytes) : Bool :=
  let q := fld p 21 16
  let m := fld p 63 32
  1 ≤ q && q ≤ 32 && (m == 0 || (setBits 32 m).length == q) && fld p 27 24 ≤ 8 && !(bit p 9 && bit p 8)
    && ((fld p 127 64 == 0) == (sharesOf p == []))

/-- The resources of a DIST_CREATE are free (R367). -/
def createFree (s : State) (p : Bytes) : Bool :=
  (pickQuarters s (fld p 21 16) (fld p 63 32)).isSome && (setBits 64 (fld p 127 64)).all (fun g => !channelHeld s g)
    && (sharesOf p).all (fun e => portShare s e.1 + e.2 ≤ 64) && (pickDir s (fld p 144 128)).isSome
    && (!bit p 10 || fits s 1 (List.range 8) (saveBytes (fld p 21 16)))

/-- Meaning of DIST_CREATE (R366–R370, R383). -/
def execDistCreate (c : FwReq) (s : State) : Answer :=
  let p := c.payload
  let d := cmdDist c
  fwStep specDistCreate c
    (fun s => headChecks specDistCreate (p.length == 48 && zeroAt p createRsvd) ((sharesOf p).all fun e => portPresent s e.1) c s
      ++ [(!createOk p, badArgument), legalIn s d [0], (!createFree s p, exhausted)])
    (fun s =>
      let qs := (pickQuarters s (fld p 21 16) (fld p 63 32)).getD []
      let base := (pickDir s (fld p 144 128)).getD 0
      let cp := pickCp s
      let a := if bit p 10 then (let r := alloc s 1 (List.range 8) (saveBytes (fld p 21 16)); (some r.1, r.2)) else (none, s)
      let x : Dist := {
        gen := (getDist s d).gen, alloc := { segTable := Config.segTable d }, serving := bit p 8, approx := bit p 9, preempt := bit p 10, q := fld p 21 16, quarters := qs, sharedMib := fld p 27 24
        channels := setBits 64 (fld p 127 64), dirBase := base, dirCount := fld p 144 128, shares := sharesOf p, cp := cp, saveBid := a.1 }
      let s := setDistState (modDist a.2 d fun _ => x) d 1
      replyOk s c 0x0200 (pack 8 [(32, maskOf qs), (2, cp), (14, 0), (16, base)])) s

/-! ## Groups removed -/

/-- A group removed from a port: its flits leave their pools and the parts are divided anew (R252, R255). -/
def closePools (g d : Nat) (s : State) (p : Nat) : State :=
  let s := modPort (freeHeld g s p) p fun x => { x with rx := tdel x.rx g, queue := tdel x.queue g }
  announce s p (poolSizes s d p ++ [⟨g, false, 0⟩, ⟨g, true, 0⟩])

/-- A group removed: its number is ABSENT, its staging is released (R269, R291). -/
def removeGroup (s : State) (g : Nat) : State :=
  match getGroup s g with
  | none => s
  | some x =>
    let s := { s with groups := tdel s.groups g, backs := tdel s.backs x.bid }
    ((List.range 24).filter (usesPort x)).foldl (closePools g x.dist) s

/-- Every group of a district aborts with cause DISTRICT (R289, R372). -/
def abortGroups (s : State) (d : Nat) : State :=
  (s.groups.filter fun e => e.2.dist == d).foldl (fun s e => abortHere e.1 8 s) s

/-! ## Timers through a pause (R107, R344, R378) -/

/-- Timers that a pause froze run on: WAITs, the gate's evaluation timeout, and the groups' progress timers (R290); flits that it kept
in the link pools go into staging (R255). -/
def thaw (s : State) (d : Nat) : State :=
  let dt := time s - (getDist s d).pausedAt
  let s := modDist s d fun x => { x with
    gate := { x.gate with evalFrom := x.gate.evalFrom + dt }
    cores := tmap x.cores fun _ c => { c with issued := c.issued.map fun i => match i.work with
      | .wait (some t) => { i with work := .wait (some (t + dt)) }
      | _ => i } }
  let s := (s.groups.filter fun e => e.2.dist == d).foldl (fun s e => (List.range 24).foldl (freeHeld e.1) s) s
  { s with groups := tmap s.groups fun _ g => if g.dist = d then { g with progress := g.progress + dt } else g }

/-! ## FAULTED (R372, R381) -/

/-- A snapshot or fill whose group has aborted fails (R409, R414): causes MIRROR and SOURCE. -/
def snapAborts (s : State) (d : Nat) : State :=
  let x := getDist s d
  match x.snap.policy with
  | none => s
  | some p =>
    match getGroup s p.group with
    | none => s
    | some g =>
      if g.state ≠ 3 then s
      else
        let s := match x.snap.cap with
          | some c => if !c.mirDone ∧ x.snap.code ≠ 1 then snapFail s d c.seq 3 else s
          | none => s
        if x.snap.code = 5 then fillFail s d 1 else s

/-- The running step loop of a FAULTED district (R372): it ends at once between steps, else with its step's verdict, which the FAULT
input makes a refusal, be the district recovered by then or not. -/
def stepFaulted (s : State) (d : Nat) : State :=
  let g := (getDist s d).gate
  if g.run.isSome then (if g.code = 0 ∨ g.code = 4 then endLoop d 2 g.code s else modGate s d fun g => { g with ends := true }) else s

/-- The entry to FAULTED (R372): a pause under way is given up (R381), DIST_FAULTED is logged, groups abort, loops end. -/
def enterFaulted (d code core : Nat) (s : State) : State :=
  let x := getDist s d
  if !([1, 2, 3, 4, 5].contains x.state) then s
  else
    let s := if x.state = 4 ∨ x.state = 5 then thaw s d else s
    let s := match x.pause with
      | some p => finish s p.pend 0x20 0x0106 []
      | none => s
    let s := setDistState (modDist s d fun x => { x with pause := none }) d 6
    let s := emit s (cpSource s d) 0x1E1 sevError d [code, core]
    let s := modGate (abortGroups s d) d fun g => { g with fault := true }
    gateThaw d (stepFaulted (serveFaulted s d) d)

/-- What follows from a step's faults and completions in one district: FAULTED, failed snapshots, an early refusal, the end
of the run. -/
def settle (d : Nat) (s : State) : State :=
  let x := getDist s d
  let s := match x.run.bind (·.first) with
    | some (code, core) => if x.state = 3 ∨ x.state = 4 then enterFaulted d code core s else s
    | none => s
  let s := earlyCheck d (snapAborts s d)
  endRunHalted (endRunDone s d) d

/-- The PROG_ABORT commands that wait for a district's run. -/
def abortsOf (x : Dist) : List Pend := match x.run with
  | some r => r.aborts
  | none => []

/-- A run's PROG_ABORT commands answered (R109). -/
def answerAbort (s : State) (d : Nat) : State :=
  (abortsOf (getDist s d)).foldl (fun s p => finishOk s p []) (modDist s d fun x => { x with run := x.run.map fun r => { r with aborts := [] } })

/-- The PROG_ABORT of a district's run is answered once its cores are idle, and the run ends (R109). -/
def abortDone (d : Nat) (s : State) : State :=
  let x := getDist s d
  if abortsOf x != [] && allIdle x then settle d (answerAbort s d) else s

/-- `settle` for every district. -/
def settleAll (s : State) : State := s.dists.foldl (fun s e => settle e.1 s) s

/-! ## Destruction (R381, R383) -/

/-- The two-stage commands of a district still under way. -/
def pendsOf (x : Dist) : List Pend :=
  x.loadings.map (·.pend) ++ x.filling.map (·.2.2) ++ abortsOf x ++ x.moves.map (·.pend)
    ++ (x.pause.map (·.pend)).toList ++ (x.resume.map (·.pend)).toList ++ x.recover.toList ++ x.dirWrites.map (·.pend)
    ++ (x.gate.run.map (·.pend)).toList ++ (x.loop.map (·.pend)).toList ++ (x.snap.restore.map (·.pend)).toList
    ++ (match x.snap.fill with
      | some f => f.pend
      | none => [])
    ++ x.tbls.flatMap (fun e => e.2.pending.map (·.2))
    ++ (match x.pool with
      | some p => p.seqs.flatMap fun e => e.2.pend.toList
      | none => [])

/-- Truncations that wait: their one reply is still to come. -/
def editsOf (x : Dist) : List Pend := match x.pool with
  | some p => p.seqs.flatMap fun e => e.2.edits.map (·.2)
  | none => []

/-- The memory a district owns (R369). -/
def backsOf (x : Dist) : List Nat :=
  (x.segs.filter fun e => e.2.tier != 3).map (·.2.bid) ++ (x.filling.filter fun e => e.2.1.tier != 3).map (·.2.1.bid)
    ++ x.progs.map (·.2.bid) ++ x.saveBid.toList ++ (x.pool.map (·.bid)).toList

/-- A district removed (R369, R381, R383, R400): groups abort and go, media jobs end with END 3, what it owns is released,
commands under way end with 0x0100. -/
def removeDist (d : Nat) (s : State) : State :=
  let s := abortGroups s d
  let s := ((s.pipes.filter fun e => e.2.state != 0 && e.2.dist == d).map (·.1)).foldl (fun s k => endJob k 3 s) s
  let x := getDist s d
  let s := (pendsOf x).foldl (fun s p => finish s p 0x20 0x0100 []) s
  let s := (editsOf x).foldl (fun s p => queueReply s p.epoch { req := p.req, cmd := p.cmd, status := 0x20, state := 0x0100 }) s
  let s := ((s.groups.filter fun e => e.2.dist == d).map (·.1)).foldl removeGroup s
  let s := { s with backs := s.backs.filter fun e => !(backsOf x).contains e.1 }
  let s := setDistState s d 0
  modDist s d fun y => { gen := y.gen }

/-- The function of a removed district (R383): VF d is reset; PF0 keeps its mailboxes and ring, and loses the window and
district 0's bindings. -/
def removeFn (d : Nat) (s : State) : State :=
  if d = 0 then modFn s 0 fun x => { x with winBase := 0, binds := [] }
  else modFn (resetFn d s) d fun x => { x with flr := true }

/-- Meaning of DIST_DESTROY (R369, R381, R383). -/
def execDistDestroy (c : FwReq) (s : State) : Answer :=
  let d := cmdDist c
  fwStep specDistDestroy c
    (fun s => headChecks specDistDestroy (c.payload == []) true c s ++ [legalIn s d [1, 2, 5, 6]])
    (fun s => replyOk (removeFn d (removeDist d s)) c 0x0201 []) s

/-! ## Pause (R377, R378, R381) -/

/-- A loop is active. -/
def loopActive (x : Dist) : Bool := x.gate.run.isSome || x.loop.isSome

/-- Meaning of DIST_PAUSE (R378, R381). -/
def execDistPause (c : FwReq) (s : State) : Answer :=
  let p := c.payload
  let d := cmdDist c
  let x := getDist s d
  fwStep specDistPause c
    (fun s => headChecks specDistPause (p.length == 8 && zeroAt p [(63, 1)]) true c s
      ++ [(x.state != 0 && !x.preempt, denied), (bit p 0 && !loopActive x, badArgument), legalIn s d [1, 2, 3], (x.pause.isSome, conflict 1 x.state)])
    (fun s =>
      let s := replyAccepted s c 0x0202
      let s := modDist s d fun x => { x with pause := some { pend := pendOf s c 0x0202, atBoundary := bit p 0, start := time s } }
      if bit p 0 then loopEdge d s else beginPause s d none) s

/-- Every transfer of the district stands at a resumable point, or waits for flash (R378). -/
def atRest (s : State) (x : Dist) : Bool := x.cores.all fun c => (coreXfers c.2).all fun t => resumable t || !sourceStaged s t

/-- The drain is over (R378): engines stand at resumable points and issued memory transactions are complete. t_drain counts from the
end of the 4 µs of command and sequencer work that precede it (R380; log entry 168). -/
def drainDone (d : Nat) (s : State) : State :=
  let x := getDist s d
  match x.pause with
  | some p =>
    if x.state ≠ 4 ∨ p.drained.isSome ∨ !atRest s x then s
    else modDist s d fun x => { x with pause := some { p with drained := some (time s - (p.start + 4000)) } }
  | none => s

/-- Meaning of DIST_DRAIN_DONE (R378). -/
def execDistDrainDone (d : Nat) (s : State) : Answer := .next (drainDone d s)

/-- The bytes of every live granule, those of cleared segments of the shared portion among them, and of every core's pair and queue
state (R377; log entry 167). -/
def liveBytes (s : State) (x : Dist) : Nat :=
  4096 * (x.cores.map fun e => e.2.live.length).sum + 1024 * coreCount x
    + 4096 * min (x.q * x.sharedMib * 256) (x.gone + (x.segs.map fun e => if e.2.tier = 4 then (getBack s e.2.bid).live.length else 0).sum)

/-- The dirty bytes of the district's cached segments (R377). -/
def dirtyBytes (s : State) (x : Dist) : Nat :=
  128 * (x.segs.map fun e => if e.2.tier = 4 ∨ e.2.tier = 3 then 0 else (getBack s e.2.bid).dirty.length).sum

/-- A core has a descriptor stopped mid-way. -/
def midway (c : Core) : Bool := c.issued.any fun i => i.begun && i.work != .fin

/-- The engine state saved for stopped descriptors: at most 40 KiB per core, otherwise left open (R377, log entry 9). -/
def engineBytes (s : State) (x : Dist) : Nat × State :=
  (x.cores.filter fun e => midway e.2).foldl (fun a _ => let r := freshNat a.2; (a.1 + r.1 % 40961, r.2)) (0, s)

/-- The save is complete (R377, R378): dirty lines are clean, the quarters are free, the district is PAUSED. -/
def saveDone (d : Nat) (s : State) : State :=
  let x := getDist s d
  match x.pause with
  | none => s
  | some p =>
    match p.drained with
    | none => s
    | some t =>
      if x.state ≠ 4 then s
      else
        let e := engineBytes s x
        let live := liveBytes s x + dirtyBytes s x + e.1
        let save := time s - (p.start + 4000 + t)
        let s := x.segs.foldl (fun s g => if g.2.tier = 3 then s else modBack s g.2.bid fun b => { b with dirty := [] }) e.2
        let s := setDistState (modDist s d fun x => { x with pause := none, sLive := live, quarters := [] }) d 5
        let s := emit s (cpSource s d) 0x1E2 sevInfo d [live, t, save]
        finishOk s p.pend (pack 16 [(64, live), (32, t), (32, save)])

/-- Meaning of DIST_SAVE_DONE (R378). -/
def execDistSaveDone (d : Nat) (s : State) : Answer := .next (saveDone d s)

/-! ## Resume (R379) -/

/-- Meaning of DIST_RESUME (R379). -/
def execDistResume (c : FwReq) (s : State) : Answer :=
  let p := c.payload
  let d := cmdDist c
  let x := getDist s d
  let m := fld p 31 0
  fwStep specDistResume c
    (fun s => headChecks specDistResume (p.length == 8 && zeroAt p [(63, 32)]) true c s
      ++ [(m != 0 && (setBits 32 m).length != x.q, badArgument), legalIn s d [5], (x.resume.isSome, conflict 1 5), retainBlocks s,
        ((pickQuarters s x.q m).isNone, exhausted)])
    (fun s =>
      let s := replyAccepted (wakeQuarters s) c 0x0203
      modDist s d fun y => { y with resume := some ⟨pendOf s c 0x0203, time s, (pickQuarters s x.q m).getD []⟩ }) s

/-- The restore is complete (R379): the state before the pause returns; one paused from CONFIGURED or LOADED follows the
programs loaded now. -/
def restored (d : Nat) (s : State) : State :=
  let x := getDist s d
  match x.resume with
  | none => s
  | some r =>
    if x.state ≠ 5 then s
    else
      let next := if x.prior = 1 ∨ x.prior = 2 then loadedState x else x.prior
      let s := thaw s d
      let s := setDistState (modDist s d fun x => { x with resume := none, quarters := r.quarters }) d next
      let s := gateThaw d s
      let dt := time s - r.start
      let s := emit s (cpSource s d) 0x1E2 sevInfo d [x.sLive, 0, dt]
      finishOk s r.pend (pack 8 [(32, maskOf r.quarters), (32, dt)])

/-- Meaning of DIST_RESTORE_DONE (R379). -/
def execDistRestoreDone (d : Nat) (s : State) : Answer := .next (settle d (restored d s))

/-! ## Recovery (R372) -/

/-- The district leaves FAULTED once no descriptor of it remains issued (R372). -/
def recovered (d : Nat) (s : State) : State :=
  let s := clearRun (endRunHalted (answerAbort s d) d) d
  setDistState s d (loadedState (getDist s d))

/-- Meaning of DIST_RECOVER (R372, R383). -/
def execDistRecover (c : FwReq) (s : State) : Answer :=
  let d := cmdDist c
  let x := getDist s d
  fwStep specDistRecover c
    (fun s => headChecks specDistRecover (c.payload == []) true c s ++ [legalIn s d [6], (x.recover.isSome, conflict 1 6)])
    (fun s =>
      let s := modDist s d fun x => cancelWaits { x with run := x.run.map fun r => { r with stopped := true } }
      if allIdle (getDist s d) then replyOk (recovered d s) c 0x0204 []
      else
        let s := replyAccepted s c 0x0204
        modDist s d fun x => { x with recover := some (pendOf s c 0x0204) }) s

/-- DIST_RECOVER completes (R372). -/
def recoverDone (d : Nat) (s : State) : State :=
  let x := getDist s d
  match x.recover with
  | some p => if x.state = 6 ∧ allIdle x then finishOk (recovered d (modDist s d fun x => { x with recover := none })) p [] else s
  | none => s

/-- Meaning of DIST_RECOVER_DONE (R372). -/
def execDistRecoverDone (d : Nat) (s : State) : Answer := .next (recoverDone d s)

/-- Meaning of DIST_INFO (R383). -/
def execDistInfo (c : FwReq) (s : State) : Answer :=
  let d := cmdDist c
  fwStep specDistInfo c (headChecks specDistInfo (c.payload == []) true c)
    (fun s =>
      let x := getDist s d
      replyOk s c 0x0205 (pack 40 [(8, x.state), (8, x.prior), (2, x.cp), (1, b2n x.serving), (1, b2n x.approx), (1, b2n x.preempt), (11, 0),
        (32, maskOf x.quarters), (16, x.gen.toNat), (16, 0), (16, x.dirBase), (17, x.dirCount), (63, 0), (64, x.sLive), (64, x.bstep)])) s

end Sys2Proof.Machine
end

