-- ==== Sys2Proof/Machine/CollRows.lean ====
section
/-! DEFINITION. The group, directory and dispatch commands (R267, R271, R290, R291, R311–R313, R327), the events of the
collective engine and the dispatch unit, and the end of a link's retrain (R264). -/

namespace Sys2Proof.Machine

/-! ## Events of the engine -/

/-- Work of a group, and what its faults bring about: nothing while its district is PAUSED (R290). -/
def groupWork (g : Nat) (f : State → State) (s : State) : Answer := .next (settleAll (when (!frozen s g) f s))

/-- What arrives on the ERROR channel, which the engine always drains (R283). -/
def errorWork (f : State → State) (s : State) : Answer := .next (settleAll (f s))

/-- Meaning of COLL_PUT_ACCEPT (R97, R269, R277, R323): the engine takes the oldest put that has room. -/
def execCollPutAccept (g : Nat) (s : State) : Answer :=
  groupWork g (fun s => match (getGroup s g).bind nextPut with
    | some r => serveTakes g (tryReturn g (acceptPut g r s))
    | none => s) s

/-- Meaning of CHUNK_MESSAGE_RECEIVE (R269, R274, R276, R277, R290). -/
def execChunkMessageReceive (g p : Nat) (s : State) : Answer :=
  groupWork g (receiveKind (fun c => c != 0xFFC && c != 0xFFD) g p) s

/-- Meaning of DISPATCH_MESSAGE_RECEIVE (R318, R321). -/
def execDispatchMessageReceive (g p : Nat) (s : State) : Answer :=
  groupWork g (fun s => warmHeld g (receiveKind (· == 0xFFC) g p s)) s

/-- Meaning of RETURN_MESSAGE_RECEIVE (R323). -/
def execReturnMessageReceive (g p : Nat) (s : State) : Answer := groupWork g (receiveKind (· == 0xFFD) g p) s

/-- Meaning of CHUNK_CHECK_DONE (R286, R287, R323). -/
def execChunkCheckDone (g chunk src : Nat) (ok : Bool) (s : State) : Answer :=
  groupWork g (fun s => applyReturns g (checkDone g chunk src ok s)) s

/-- Meaning of CHUNK_ACK_BATCH (R286). -/
def execChunkAckBatch (g : Nat) (s : State) : Answer := groupWork g (ackBatch g) s

/-- Meaning of CHUNK_ACK_RECEIVE (R286). -/
def execChunkAckReceive (g src : Nat) (chunks : List Nat) (s : State) : Answer := errorWork (ackReceive g src chunks) s

/-- Meaning of RETX_REQUEST_RECEIVE (R286). -/
def execRetxRequestReceive (g src chunk : Nat) (s : State) : Answer := errorWork (resendChunk g src chunk) s

/-- A notice of a group: taken by the member it is for, and sent on to it by its relay (R282, R289). -/
def notice (g pos kind : Nat) (args : List Nat) (f : Group → State → State) (s : State) : State :=
  match getGroup s g with
  | some x => if x.myPos = pos then f x s else errorMsg s x pos kind args
  | none => s

/-- Meaning of TAINT_NOTICE_RECEIVE (R287): the notice is logged. -/
def execTaintNoticeReceive (g : Nat) (gseq : BitVec 64) (pos : Nat) (s : State) : Answer :=
  errorWork (notice g pos 2 [g, gseq.toNat] fun x s => collEvent s x 0x112 sevNotice [g, gseq.toNat, 0xFFFF]) s

/-- Meaning of ABORT_NOTICE_RECEIVE (R289): cause PEER. -/
def execAbortNoticeReceive (g : Nat) (gseq : BitVec 64) (detector pos : Nat) (s : State) : Answer :=
  errorWork (notice g pos 3 [g, gseq.toNat, detector] fun _ => abortGroup g 9 detector) s

/-- The open instance has made no progress for TIMEOUT_US (R289). -/
def timedOut (s : State) (x : Group) : Bool :=
  x.cur.isSome && x.timeoutUs != 0 && x.progress + 1000 * x.timeoutUs ≤ time s

/-- Meaning of GROUP_TIMEOUT_EXPIRY (R289). -/
def execGroupTimeoutExpiry (g : Nat) (s : State) : Answer :=
  groupWork g (fun s => when ((getGroup s g).any (timedOut s)) (abortHere g 6) s) s

/-- Meaning of INSTANCE_CLOSE (R274, R285): what was held for the next instance is acted on. -/
def execInstanceClose (g : Nat) (s : State) : Answer :=
  groupWork g (fun s => applyReturns g (warmHeld g (closeInst g s))) s

/-- Meaning of DISPATCH_BLOCK_ROUTE (R315–R318). -/
def execDispatchBlockRoute (g : Nat) (s : State) : Answer := groupWork g (blockRoute g) s

/-- Meaning of DISPATCH_INBOX_WRITE (R319, R322, R323). -/
def execDispatchInboxWrite (g : Nat) (s : State) : Answer := groupWork g (fun s => tryReturn g (inboxWrite g s)) s

/-- Meaning of COLD_WARMING_DONE (R321, R322). -/
def execColdWarmingDone (g slot : Nat) (s : State) : Answer := groupWork g (coldWarm g slot) s

/-- Meaning of COLD_DEADLINE_EXPIRY (R322). -/
def execColdDeadlineExpiry (g slot : Nat) (s : State) : Answer := groupWork g (coldExpire g slot) s

/-- Meaning of SLOT_COUNTS_TAKE_DONE (R320). -/
def execSlotCountsTakeDone (g : Nat) (s : State) : Answer := groupWork g (slotCountsTake g) s

/-- Meaning of INSTANCE_COUNTS_TAKE_DONE (R324). -/
def execInstanceCountsTakeDone (g : Nat) (s : State) : Answer := groupWork g (instanceCounts g) s

/-! ## Group commands (R267–R272, R289–R291) -/

def specGroupCreate : Spec := { cmd := 0x0500 }
def specGroupDestroy : Spec := { cmd := 0x0501 }
def specPlanSet : Spec := { cmd := 0x0502 }
def specGroupReset : Spec := { cmd := 0x0503 }
def specCollAbort : Spec := { cmd := 0x0504 }
def specGroupInfo : Spec := { cmd := 0x0505 }

/-- The district states of R371 for commands that set things up. -/
def setUpStates : List Nat := [1, 2, 3, 5, 6]

/-- The GROUP field of a group command. -/
def cmdGroup (c : FwReq) : Nat := fld c.payload 5 0

/-- The group is in one of the states (R291); one of another district, or none, is ABSENT. -/
def groupIn (s : State) (d g : Nat) (ok : List Nat) : Bool × Err :=
  match getGroup s g with
  | some x => if x.dist = d then (!ok.contains x.state, conflict 5 x.state) else (true, conflict 5 0xFF)
  | none => (true, conflict 5 0xFF)

/-- The members this one must send to in the ring or rings (R277, R278). -/
def ringPeers (s : State) (x : Group) : List Nat :=
  let m := gM s x
  let w := gW s x
  let u := x.myPos / m
  let i := x.myPos % m
  (if 1 < m then [u * m + (i + 1) % m] else []) ++ (if 1 < w then [(u + 1) % w * m + i] else [])

/-- The ports a LINKS field names (R291): 0 names every wired one. -/
def linksOf (s : State) (v : Nat) : Nat := if v = 0 then maskOf ((List.range 24).filter (portPresent s)) else v

/-- The group a COLL_GROUP_CREATE payload and its member list define. -/
def groupOf (s : State) (d : Nat) (p ms : Bytes) : Group :=
  { dist := d, tag := BitVec.ofNat 64 (fld p 127 64), members := membersOf ms, myPos := fld p 44 32, flat := bit p 8, evt := bit p 9
    stageKib := fld p 287 256, timeoutUs := fld p 319 288, links := linksOf s (fld p 343 320) }

/-- The argument checks of COLL_GROUP_CREATE (R266–R269). -/
def groupOk (s : State) (d : Nat) (p : Bytes) (x : Group) : Bool :=
  let n := fld p 28 16
  2 ≤ n && n ≤ 4096 && x.myPos < n && 256 ≤ x.stageKib && x.stageKib ≤ 65536
    && rangeIn (getDist s d) (fld p 135 128) (fld p 255 192) (4 * n) [1, 2, 3, 4]
    && membersOk s x.members x.myPos x.flat
    && (x.members.all fun m => m.relay.all (· < n))
    && (ringPeers s x).all fun q => hasRoute s x q || (x.members.getD q ⟨0, none⟩).relay.isSome

/-- The resources of a new group are free (R267): a number, staging, and 16 flits for every group on each of its ports. -/
def groupFree (s : State) (d : Nat) (x : Group) : Bool :=
  s.groups.length < 64 && fits s 1 (List.range 8) (1024 * x.stageKib)
    && (setBits 24 x.links).all fun p => 16 ≤ partOf (tget 0 (getDist s d).shares p) ((portGroups s d p).length + 1)

/-- The reserved bits of COLL_GROUP_CREATE (R291). -/
def groupRsvd : List (Nat × Nat) := [(7, 6), (15, 10), (31, 29), (63, 45), (191, 136), (383, 344)]

/-- Meaning of COLL_GROUP_CREATE (R267, R269, R255). -/
def execCollGroupCreate (c : FwReq) (s : State) : Answer :=
  let p := c.payload
  let d := cmdDist c
  let g := cmdGroup c
  let ms := tableBytes s (getDist s d) (fld p 135 128) (fld p 255 192) (4 * min 4096 (fld p 28 16))
  let x := groupOf s d p ms
  fwStep specGroupCreate c
    (fun s => headChecks specGroupCreate (p.length == 48 && zeroAt p groupRsvd && memberListOk ms)
        ((setBits 24 (fld p 343 320)).all (portPresent s)) c s
      ++ [(!groupOk s d p x, badArgument), (!(getDist s d).channels.contains g, denied), (!groupFree s d x, exhausted),
        legalIn s d setUpStates, (thas s.groups g, conflict 5 (((getGroup s g).map (·.state)).getD 0xFF))])
    (fun s =>
      let a := alloc s 1 (List.range 8) (1024 * x.stageKib)
      let s := setGroup a.2 g { x with bid := a.1 }
      let s := (setBits 24 x.links).foldl (fun s q => announce s q (poolSizes s d q)) s
      replyOk s c 0x0500 []) s

/-- An 8-byte payload that names a group. -/
def groupForm (p : Bytes) : Bool := p.length == 8 && zeroAt p [(63, 6)]

/-- Meaning of COLL_GROUP_DESTROY (R291). -/
def execCollGroupDestroy (c : FwReq) (s : State) : Answer :=
  let d := cmdDist c
  let g := cmdGroup c
  fwStep specGroupDestroy c
    (fun s => headChecks specGroupDestroy (groupForm c.payload) true c s ++ [legalIn s d anyState, groupIn s d g [0, 1, 3]])
    (fun s => replyOk (removeGroup s g) c 0x0501 []) s

/-- Meaning of COLL_PLAN_SET (R271, R272): the plan replaces a binding (R313). -/
def execCollPlanSet (c : FwReq) (s : State) : Answer :=
  let p := c.payload
  let d := cmdDist c
  let g := cmdGroup c
  let len := fld p 223 192
  let inSeg := rangeIn (getDist s d) (fld p 71 64) (fld p 191 128) len [1, 2, 3, 4]
  let img := tableBytes s (getDist s d) (fld p 71 64) (fld p 191 128) (min len 65600)
  let n := ((getGroup s g).map gP).getD 0
  fwStep specPlanSet c
    (fun s => headChecks specPlanSet (p.length == 32 && zeroAt p [(63, 6), (127, 72), (255, 224)] && (!inSeg || planFormatOk img)) true c s
      ++ [(!inSeg, badArgument), ((getGroup s g).any (fun x => x.dist == d) && !planArgsOk (planOf img) n, badArgument), legalIn s d setUpStates, groupIn s d g [0, 1]])
    (fun s => match getGroup s g with
      | some x =>
        let sig := planSig img x.tag
        settleAll (replyOk (planTaken g (setGroup s g { x with plan := some (planOf img), bind := none, sig := sig, state := 1 })) c 0x0502
          (leBytes 8 sig))
      | none => s) s

/-- Meaning of COLL_GROUP_RESET (R290). -/
def execCollGroupReset (c : FwReq) (s : State) : Answer :=
  let p := c.payload
  let d := cmdDist c
  let g := cmdGroup c
  fwStep specGroupReset c
    (fun s => headChecks specGroupReset (p.length == 16 && zeroAt p [(63, 6)]) true c s ++ [legalIn s d anyState, groupIn s d g [1, 3]])
    (fun s => match getGroup s g with
      | some x =>
        let y := resetGroup x (fld p 127 64)
        replyOk (setGroup s g y) c 0x0503 (leBytes 8 y.epoch)
      | none => s) s

/-- Meaning of COLL_ABORT (R289): OK without effect when ABORTED. -/
def execCollAbort (c : FwReq) (s : State) : Answer :=
  let d := cmdDist c
  let g := cmdGroup c
  fwStep specCollAbort c
    (fun s => headChecks specCollAbort (groupForm c.payload) true c s ++ [legalIn s d anyState, groupIn s d g [1, 2, 3]])
    (fun s => settleAll (abortHere g 7 (replyOk s c 0x0504 []))) s

/-- Meaning of COLL_GROUP_INFO (R285, R291). -/
def execCollGroupInfo (c : FwReq) (s : State) : Answer :=
  let d := cmdDist c
  let g := cmdGroup c
  fwStep specGroupInfo c
    (fun s => headChecks specGroupInfo (groupForm c.payload) true c s ++ [legalIn s d anyState, groupIn s d g [0, 1, 2, 3]])
    (fun s => match getGroup s g with
      | some x =>
        let next := (x.seq + b2n x.cur.isSome + b2n x.nxt.isSome) % 2 ^ 64
        replyOk s c 0x0505 (pack 16 [(8, x.state), (8, x.epoch), (48, 0), (64, next)] ++ complBytes x.record)
      | none => s) s

/-! ## Directory and binding (R311–R313, R327) -/

def specDirWrite : Spec := { cmd := 0x0540 }
def specDirRead : Spec := { cmd := 0x0541 }
def specDispBind : Spec := { cmd := 0x0542 }
def specDispInfo : Spec := { cmd := 0x0543 }

/-- The entries of a COLL_DIR_WRITE. -/
def dirEntries (p : Bytes) : List Bytes := chunksOf 32 15 (p.drop 8)

/-- Meaning of COLL_DIR_WRITE (R311, R312): at once while no bound group has an open instance, else held. -/
def execCollDirWrite (c : FwReq) (s : State) : Answer :=
  let p := c.payload
  let d := cmdDist c
  let n := fld p 19 16
  let first := fld p 15 0
  let es := dirEntries p
  fwStep specDirWrite c
    (fun s => headChecks specDirWrite (8 ≤ p.length && p.length == 8 + 32 * n && zeroAt p [(63, 20)] && es.all dirRsvdOk) true c s
      ++ [(n == 0 || 14 < n || !dirWriteOk (getDist s d) first es, badArgument), legalIn s d setUpStates])
    (fun s =>
      if !dispOpen s d ∧ (getDist s d).dirWrites = [] then
        replyOk (modDist s d fun x => { x with dir := dirPut x.dir first es }) c 0x0540 []
      else
        let s := replyAccepted s c 0x0540
        modDist s d fun x => { x with dirWrites := x.dirWrites ++ [⟨pendOf s c 0x0540, first, es⟩] }) s

/-- Held directory writes install, in the order taken, while no bound group has an open instance (R312). -/
def dirInstall (d : Nat) (s : State) : State :=
  if dispOpen s d then s
  else
    let ws := (getDist s d).dirWrites
    let s := modDist s d fun x => { x with dir := dirAfterHeld x, dirWrites := [] }
    ws.foldl (fun s w => finishOk s w.pend []) s

/-- Meaning of DIR_WRITE_INSTALL (R312). -/
def execDirWriteInstall (d : Nat) (s : State) : Answer := .next (dirInstall d s)

/-- Meaning of COLL_DIR_READ (R327): the entries as installed. -/
def execCollDirRead (c : FwReq) (s : State) : Answer :=
  let p := c.payload
  let d := cmdDist c
  let n := fld p 19 16
  let first := fld p 15 0
  fwStep specDirRead c
    (fun s => headChecks specDirRead (p.length == 8 && zeroAt p [(63, 20)]) true c s
      ++ [(n == 0 || 14 < n || (getDist s d).dirCount < first + n, badArgument), legalIn s d anyState])
    (fun s => replyOk s c 0x0541 ((List.range n).flatMap fun i => dirEntry (getDist s d) (first + i))) s

/-- The reserved bits of COLL_DISP_BIND (R313). -/
def bindRsvd : List (Nat × Nat) :=
  [(7, 6), (15, 13), (23, 21), (31, 26), (223, 204), (767, 640)] ++ (List.range 8).map fun c => (384 + 32 * c + 31, 384 + 32 * c + 18)

/-- The segment of a binding: its tier is among those listed, it is not coded, and it holds `n` bytes from an offset. -/
def bindSegOk (x : Dist) (seg off n : Nat) (tiers : List Nat) : Bool :=
  match tfind x.segs seg with
  | some e => tiers.contains e.tier && !e.coded && off % 64 == 0 && off + n ≤ e.size
  | none => false

/-- The class table of a binding (R313). -/
def classesOk (b : Bytes) : Bool :=
  bDeadline b 0 == 0 && bFallback b 0 == 0
    && (List.range 8).all fun c => bFallback b c != 3 && ((bFallback b c == 0) == (bDeadline b c == 0))

/-- The argument checks of R313 for a group of `n` members. -/
def bindOk (x : Dist) (b : Bytes) (n : Nat) : Bool :=
  1 ≤ bKUse b && bKUse b ≤ 16 && bKUse b ≤ bKRec b && bKRec b ≤ 16 && fmtValid (bFmtTok b)
    && (bFmtOut b == 1 || bFmtOut b == 2) && 8 ≤ bTB b && bTB b ≤ 512 && bTB b % 8 == 0 && 1 ≤ bNBlk b && bNBlk b ≤ 1024
    && 1 ≤ bQ b && 1 ≤ bNExp b && 1 ≤ bNLocal b && bNLocal b ≤ 256 && bRowB b % 64 == 0
    && 1 ≤ bRowLen b && bRowLen b ≤ 256 && (bFmtOut b == 1 || bRowLen b % 2 == 0)
    && bStride b % 64 == 0 && bCap b n * (bRowB b + 16) ≤ bStride b && bEBase b + bNExp b ≤ x.dirCount
    && bindSegOk x (bInboxSeg b) (bInboxOff b) (bNLocal b * bStride b) [1, 2, 4]
    && bindSegOk x (bCombSeg b) (bCombOff b) (bNBlk b * bTB b * bNPart b * bRecB b) [4]
    && classesOk b

/-- A class other than STALL appears (R313). -/
def anyFallback (b : Bytes) : Bool := (List.range 8).any fun c => bFallback b c != 0

/-- Meaning of COLL_DISP_BIND (R313). -/
def execCollDispBind (c : FwReq) (s : State) : Answer :=
  let p := c.payload
  let d := cmdDist c
  let g := cmdGroup c
  let x := getDist s d
  let n := ((getGroup s g).map gP).getD 0
  fwStep specDispBind c
    (fun s => headChecks specDispBind (p.length == 96 && zeroAt p bindRsvd) true c s
      ++ [(!bindOk x p n, badArgument), legalIn s d setUpStates, (anyFallback p && !x.serving && !x.approx, conflict 1 x.state),
        groupIn s d g [0, 1]])
    (fun s => match getGroup s g with
      | some y =>
        let sig := planSig p y.tag
        settleAll (replyOk (planTaken g (setGroup s g { y with plan := none, bind := some p, sig := sig, state := 1 })) c 0x0542 (leBytes 8 sig))
      | none => s) s

/-- Meaning of COLL_DISP_INFO (R327). -/
def execCollDispInfo (c : FwReq) (s : State) : Answer :=
  let d := cmdDist c
  let g := cmdGroup c
  fwStep specDispInfo c
    (fun s => headChecks specDispInfo (groupForm c.payload) true c s ++ [legalIn s d anyState, groupIn s d g [0, 1, 2, 3]])
    (fun s => match getGroup s g with
      | some x => replyOk s c 0x0543 (leBytes 8 (b2n x.bind.isSome) ++ x.totals.flatMap (leBytes 8))
      | none => s) s

/-! ## The end of a retrain (R264) -/

/-- A retrain ends (R264): with the earlier peer's IDENT sending resumes at the acknowledged FSEQ; otherwise the port goes to
DOWN or MISWIRED and what it carried is lost. -/
def retrainEnd (p : Nat) (ok : Bool) (i : Ident) (ack : Nat) (s : State) : State :=
  if !ok || i.rsvd then
    adopt (linkEvent (losePort (linkLost p s) p 3) p 0x101 sevError [p, Config.causeCode 0x101 1])
  else if identMatches (getPort s p) i then
    modPort s p fun x =>
      let l := ackDrop ack x.replay
      { x with retrain := none, replay := l, resend := if l = [] then none else some 0, lastRx := time s }
  else adopt (miswire (linkLost p s) p i)

/-- Meaning of RETRAIN_COMPLETE (R264, R289). -/
def execRetrainComplete (p : Nat) (ok : Bool) (b : Bytes) (ack : Nat) (s : State) : Answer :=
  .next (when (portRuns s p && (getPort s p).retrain.isSome) (fun s => settleAll (retrainEnd p ok (identRead b) ack s)) s)

end Sys2Proof.Machine
end

