-- ==== Sys2Proof/Machine/Fatal.lean ====
section
/-! DEFINITION. Package-fatal causes (R402) and the FATAL advisory (R19, R20), the count of memory errors that can raise one
(R221, R222), and what the command processors' watchdogs and the acknowledgement timeout do. -/

namespace Sys2Proof.Machine

/-- The management processor's source number (R35). -/
def mgmtSource : Nat := 0x885

/-- The package-fatal causes (R402). -/
def pfThermal : Nat := 1
def pfRail : Nat := 2
def pfStack : Nat := 3
def pfBridge : Nat := 4
def pfTime : Nat := 5
def pfWatchdog : Nat := 6

/-- The command processors that run. -/
def liveCps (s : State) : List Nat :=
  if voxubRuns s then (List.range 4).filter fun c => !s.health.wdog.contains c else []

/-- A port disabled: messages in progress are lost (R265). -/
def disablePort (s : State) (p : Nat) : State := if (getPort s p).state = 0 then s else losePort s p 0

/-- Every link port disabled. -/
def disablePorts (s : State) : State := adopt (finishEnables ((List.range 24).foldl disablePort s))

/-- The command processors take the FATAL advisory (R19, R402): each read is logged, every district becomes FAULTED and every
link port is disabled. -/
def fatalActed (cause : Nat) (s : State) : State :=
  let vals := advValues s
  let s := (liveCps s).foldl (fun s c => emit s (0x881 + c) 0x008 sevInfo 0xFF vals) s
  let s := { s with
    adv := tmap s.adv fun _ a => { a with unread := false }
    health := { s.health with fatalAck := true } }
  let s := s.dists.foldl (fun s e => enterFaulted e.1 (Config.causeCode 0x1E1 cause) 0 s) s
  settleAll (disablePorts s)

/-- A package-fatal cause is detected (R402); the first one holds until SYS_RST_N. -/
def goFatal (cause : Nat) (s : State) : State :=
  if s.health.fatal.isSome ∨ s.pins.aonRst ∨ s.pins.sysRst then s
  else
    let s := { s with health := { s.health with fatal := some cause, fatalAt := time s, fatalAck := false } }
    let s := postAdvisory (emit s mgmtSource 0x248 sevFatal 0xFF [cause]) 5 cause
    if liveCps s = [] then s else fatalActed cause s

/-- The advisory has stood unacknowledged for 100 µs: the clocks stop and CMP_EN goes low (R20, R402). -/
def fatalTimeout (s : State) : State :=
  if s.health.fatal.isSome ∧ !s.health.fatalAck ∧ s.health.fatalAt + 100000 ≤ time s then
    { s with pwr := { s.pwr with clocksStopped := true, cmpEn := false } }
  else s

/-- Meaning of FATAL_ACK_TIMEOUT (R402). -/
def execFatalAckTimeout (s : State) : Answer := .next (fatalTimeout s)

/-- A command processor's firmware watchdog expires; when every one has, the cause is package-fatal (R402). -/
def watchdog (c : Nat) (s : State) : State :=
  if 4 ≤ c ∨ !voxubRuns s then s
  else
    let s := { s with health := { s.health with wdog := nsAdd s.health.wdog c } }
    if liveCps s = [] then goFatal pfWatchdog s else s

/-- Meaning of FW_WATCHDOG_EXPIRY (R402). -/
def execFwWatchdogExpiry (c : Nat) (s : State) : Answer := .next (watchdog c s)

/-- Meaning of BRIDGE_LINK_LOSS (R402). -/
def execBridgeLinkLoss (s : State) : Answer := .next (goFatal pfBridge s)

/-- Meaning of TIMEBASE_REPLICA_LOCK_FAILURE (R402). -/
def execTimebaseReplicaLockFailure (s : State) : Answer := .next (goFatal pfTime s)

/-! ## Corrected and uncorrectable errors (R221, R222) -/

/-- A corrected error at a site, 0–7 a near stack, 8–23 an LPDDR site, 24–55 a quarter's slice: it is counted and feeds the risk level
(R221, R403). -/
def countCe (s : State) (site : Nat) : State :=
  { s with
    sites := tmod {} s.sites site fun x => { x with count := x.count + 1, total := x.total + 1 }
    health := { s.health with ce := s.health.ce ++ [(time s, 1)] } }

/-- An uncorrectable codeword of a near stack: more than 64 in 1 s lose the stack (R402 cause 3). -/
def countUe (s : State) (site : Nat) : State :=
  if 8 ≤ site then s
  else
    let l := (tget [] s.health.ueLog site).filter (fun t => time s < t + 1000000000) ++ [time s]
    let s := { s with health := { s.health with ueLog := tset s.health.ueLog site l } }
    if 64 < l.length then goFatal pfStack s else s

/-- The number of the stack or site that holds a byte of a near or board backing, in the numbering of `countCe`. -/
def siteNum (b : Backing) (off : Nat) : Nat := if b.tier = 1 then siteOf b off else 8 + siteOf b off

/-- An error that a transaction of a near or board segment at an offset meets (R221, R222). -/
def memError (d : Nat) (e : Seg) (off : Nat) (err : MemErr) (s : State) : State :=
  let b := getBack s e.bid
  match err with
  | .none => s
  | .ce => countCe s (siteNum b off)
  | .ue g => countUe (memUe s d e (off / 64 + g)) (siteNum b (off + 64 * g))

/-- An error that an access at a slice meets (R221, R222): it counts at the slice's quarter, or poisons the granule there. -/
def sliceError (d : Nat) (e : Seg) (off : Nat) (err : MemErr) (s : State) : State :=
  let q := sliceQuarter s d e off
  match err with
  | .none => s
  | .ce => countCe s (24 + q)
  | .ue _ => emit (segMark s e [off / 64]) (0x820 + q) 0x0C1 sevError d [4, q, Config.physAddr e.bid (off / 64 * 64), d]

end Sys2Proof.Machine
end

