-- ==== Sys2Proof/Machine/Memory.lean ====
section
/-! DEFINITION. Segment, move and volume commands (R224–R228, R234–R240, R244), the tier-move engine (R235, R236, R238), the
flash medium (R239–R243), and the memory controllers' own events (R216, R221). -/

namespace Sys2Proof.Machine

/-! ## Segment entries (R224–R227) -/

/-- A segment entry's fields; RO is forced to 1 for flash (R224). -/
def segOf (b : Bytes) (bid : Nat) : Seg :=
  { tier := fld b 2 0, coded := bit b 3, cached := bit b 4, ro := bit b 5 || fld b 2 0 == 3, fallback := fld b 7 6, prio := fld b 11 8
    deadlineUs := fld b 31 16, subst := fld b 39 32, place := fld b 63 48, dbase := fld b 111 64, size := fld b 175 128
    firstExt := fld b 223 192, volume := fld b 255 224, bid := bid }

/-- The 32 bytes of a segment entry (R224). -/
def segBytes (e : Seg) : Bytes :=
  pack 32 [(3, e.tier), (1, b2n e.coded), (1, b2n e.cached), (1, b2n e.ro), (2, e.fallback), (4, e.prio), (4, 0), (16, e.deadlineUs),
    (8, e.subst), (8, 0), (16, e.place), (48, e.dbase), (16, 0), (48, e.size), (16, 0), (32, e.firstExt), (32, e.volume)]

/-- The reserved bits of MEM_SEG_SET: of the payload's head and of the entry (R224, R238). -/
def segRsvd : List (Nat × Nat) := [(63, 8), (79, 76), (111, 104), (191, 176), (255, 240)]

/-- What an entry names is present (R225). -/
def segPresent (s : State) (e : Seg) : Bool :=
  if e.tier = 2 then s.lpSites != [] && (setBits 16 e.place).all s.lpSites.contains
  else if e.tier = 3 then flashPresent s
  else true

/-- The entries that hold a range of the district address space: installed ones and ones whose zero fill runs, other than
number `n` (R238). -/
def heldSegs (x : Dist) (n : Nat) : List Seg :=
  (x.segs.filter fun e => e.1 != n).map (·.2) ++ x.filling.map (·.2.1)

/-- Two ranges of `a` and `b` bytes overlap. -/
def overlaps (p a q b : Nat) : Bool := p < q + b && q < p + a

/-- A volume exists: it has been created and its creation is complete (R240). -/
def volReady (s : State) (v : Nat) : Bool := (tfind s.flash.vols v).any fun x => x.creating.isNone

/-- The rules of R225 on the placement hint. -/
def hintOk (x : Dist) (e : Seg) : Bool :=
  e.fallback ≤ 2 && (e.fallback == 0 || e.deadlineUs != 0)
    && (if e.fallback = 1 then (match tfind x.segs e.subst with
        | some t => t.tier == 1 || t.tier == 2
        | none => false)
      else e.subst == 0)

/-- The argument checks of R224 and R225 on a new entry; `fn` is the issuing function. -/
def newSegOk (s : State) (x : Dist) (d fn n : Nat) (e : Seg) : Bool :=
  1 ≤ e.tier && e.tier ≤ 4 && !thas x.filling n && e.size != 0 && e.size % 4096 == 0 && (e.tier != 3 || e.size % 65536 == 0)
    && e.dbase % 4096 == 0 && e.dbase + e.size ≤ 2 ^ 48
    && (heldSegs x n).all (fun t => !overlaps e.dbase e.size t.dbase t.size)
    && (!e.cached || e.tier ≤ 2) && (if e.tier = 1 then decide (e.place < 256) else e.tier == 2 || e.place == 0)
    && (if e.tier = 3 then
          e.volume != 0 && volReady s e.volume && (fn == 0 || (getVol s e.volume).owner == d)
            && e.firstExt + e.size / 65536 ≤ (getVol s e.volume).extents
        else e.volume == 0 && e.firstExt == 0)
    && (e.tier != 4 || sharedUse x + sharedGranules x.q e.size ≤ x.sharedMib * 256)
    && hintOk x e

/-- What MEM_SEG_SET may change on a valid entry (R227). -/
def sameFixed (a b : Seg) : Bool :=
  { a with prio := 0, deadlineUs := 0, fallback := 0, subst := 0 } == { b with prio := 0, deadlineUs := 0, fallback := 0, subst := 0 }

def specSegSet : Spec := { cmd := 0x0400 }
def specSegClear : Spec := { cmd := 0x0401 }
def specSegInfo : Spec := { cmd := 0x0402 }
def specMemMove : Spec := { cmd := 0x0403 }
def specVolCreate : Spec := { cmd := 0x0404, pf0 := true, wide := true }
def specVolDelete : Spec := { cmd := 0x0405, pf0 := true, wide := true }
def specVolOwner : Spec := { cmd := 0x0406, pf0 := true, wide := true }
def specFlashInfo : Spec := { cmd := 0x0407 }

/-- The key check of R244, for a command that names flash. -/
def flashKeys (s : State) (needs : Bool) : Bool × Err := (needs && (keyErr s).1, (keyErr s).2)

/-- A segment installed: the entry generation advances (R227). -/
def installSeg (s : State) (d n : Nat) (e : Seg) : State := modDist s d fun x => { x with segs := tset x.segs n e, gen := x.gen + 1 }

/-- The effect of MEM_SEG_SET (R225–R227, R238): a hint changed or a flash segment mapped at once, else the zero fill begins. -/
def segSet (c : FwReq) (n : Nat) (e : Seg) (s : State) : State :=
  let d := cmdDist c
  match tfind (getDist s d).segs n with
  | some o =>
    let e := { e with bid := o.bid }
    replyOk (if e = o then s else installSeg s d n e) c 0x0400 []
  | none =>
    if e.tier = 3 then replyOk (installSeg s d n e) c 0x0400 []
    else
      let s := replyAccepted s c 0x0400
      let a := alloc s e.tier (placeUnits s e.tier e.place) e.size
      modDist a.2 d fun x => { x with filling := tset x.filling n ({ e with bid := a.1 }, pendOf s c 0x0400) }

/-- Meaning of MEM_SEG_SET (R224–R227, R234, R238). -/
def execMemSegSet (c : FwReq) (s : State) : Answer :=
  let p := c.payload
  let d := cmdDist c
  let n := fld p 7 0
  let e := segOf (p.drop 8) 0
  let x := getDist s d
  let old := tfind x.segs n
  let argsOk := match old with
    | some o => sameFixed { e with bid := o.bid } o && hintOk x e
    | none => newSegOk s x d c.fn n e
  fwStep specSegSet c
    (fun s => headChecks specSegSet (p.length == 40 && zeroAt p segRsvd) (segPresent s e) c s
      ++ [(!argsOk, badArgument), legalIn s d setUpStates, (e.fallback != 0 && !x.serving && !x.approx, conflict 1 x.state),
        flashKeys s (e.tier == 3),
        (old.isNone && (e.tier == 1 || e.tier == 2) && !fits s e.tier (placeUnits s e.tier e.place) e.size, exhausted)])
    (segSet c n e) s

/-- The zero fill of a segment is complete: the entry is installed (R238). -/
def fillDone (d n : Nat) (s : State) : State :=
  match tfind (getDist s d).filling n with
  | some (e, p) => finishOk (installSeg (modDist s d fun x => { x with filling := tdel x.filling n }) d n e) p []
  | none => s

/-- Meaning of MEM_SEG_ZERO_FILL_DONE (R238). -/
def execMemSegZeroFillDone (d n : Nat) (s : State) : Answer := .next (fillDone d n s)

/-- An 8-byte payload that names a segment. -/
def segForm (p : Bytes) : Bool := p.length == 8 && zeroAt p [(63, 8)]

/-- A segment cleared: its backing is released, a volume stays (R226, R227). -/
def segClear (s : State) (d n : Nat) : State :=
  match tfind (getDist s d).segs n with
  | some e =>
    let s := modDist s d fun x => { x with
      segs := tdel x.segs n, gen := x.gen + 1, gone := x.gone + if e.tier = 4 then (getBack s e.bid).live.length else 0 }
    if e.tier = 3 then s else release s e.bid
  | none => s

/-- Meaning of MEM_SEG_CLEAR (R225–R227). -/
def execMemSegClear (c : FwReq) (s : State) : Answer :=
  let d := cmdDist c
  let n := fld c.payload 7 0
  fwStep specSegClear c
    (fun s => headChecks specSegClear (segForm c.payload) true c s
      ++ [((getDist s d).segs.any (fun e => e.1 != n && e.2.fallback == 1 && e.2.subst == n) && thas (getDist s d).segs n, badArgument),
        legalIn s d setUpStates])
    (fun s => replyOk (segClear s d n) c 0x0401 []) s

/-- Meaning of MEM_SEG_INFO (R238). -/
def execMemSegInfo (c : FwReq) (s : State) : Answer :=
  let d := cmdDist c
  fwStep specSegInfo c
    (fun s => headChecks specSegInfo (segForm c.payload) true c s ++ [legalIn s d anyState])
    (fun s => replyOk s c 0x0402 (match tfind (getDist s d).segs (fld c.payload 7 0) with
      | some e => segBytes e
      | none => zeros 32)) s

/-! ## MEM_MOVE and the tier-move engine (R235, R238) -/

/-- Where a range of a segment lies, as a number of the store and an offset in it. -/
def homeOf (e : Seg) (off : Nat) : Nat × Nat :=
  if e.tier = 3 then (2 * e.volume + 1, e.firstExt * 65536 + off) else (2 * e.bid, off)

/-- Two ranges of segments overlap. -/
def rangesMeet (a : Seg) (ao an : Nat) (b : Seg) (bo bn : Nat) : Bool :=
  (homeOf a ao).1 == (homeOf b bo).1 && overlaps (homeOf a ao).2 an (homeOf b bo).2 bn

/-- Two moves overlap and either writes the common bytes (R235, R238). -/
def movesMeet (a b : MemMove) : Bool :=
  rangesMeet a.dst a.dstOff a.len b.dst b.dstOff b.len || rangesMeet a.dst a.dstOff a.len b.src b.srcOff b.len
    || rangesMeet a.src a.srcOff a.len b.dst b.dstOff b.len

/-- Meaning of MEM_MOVE (R238). -/
def execMemMove (c : FwReq) (s : State) : Answer :=
  let p := c.payload
  let d := cmdDist c
  let x := getDist s d
  let so := fld p 127 64
  let do_ := fld p 191 128
  let len := fld p 255 192
  let src := tfind x.segs (fld p 7 0)
  let dst := tfind x.segs (fld p 15 8)
  let fits_ := fun (o : Option Seg) (off : Nat) => o.any fun e => off + len ≤ e.size
  let flashTo := dst.any fun e => e.tier == 3
  let needs := fun (t : Seg → Bool) => src.any t || dst.any t
  let argsOk := len != 0 && len % 64 == 0 && fits_ src so && fits_ dst do_ && (!flashTo || (do_ % 65536 == 0 && len % 65536 == 0))
  let away := needs fun e => 3 ≤ e.tier || e.cached
  fwStep specMemMove c
    (fun s => headChecks specMemMove (p.length == 40 && zeroAt p [(63, 16), (319, 256)]) true c s
      ++ [(!argsOk, badArgument), legalIn s d setUpStates, flashKeys s (needs fun e => e.tier == 3),
        (away && (retainBlocks s).1, (retainBlocks s).2), (flashTo && s.flash.readOnly, exhausted)])
    (fun s => match src, dst with
      | some a, some b =>
        let s := replyAccepted (if away then autoWake s else s) c 0x0403
        modDist s d fun x => { x with moves := x.moves ++ [{ pend := pendOf s c 0x0403, src := a, dst := b, srcOff := so, dstOff := do_, len := len, at_ := time s }] }
      | _, _ => s) s

/-- One transfer in the engine's queues (R235): an extent to read into staging, or the next extent of a move. -/
inductive EngWork where
  | read (v e : Nat)
  | move (m : MemMove)
  deriving DecidableEq, Repr

/-- A queued transfer with what orders it: the source segment's PRIO and the time of issue. -/
structure EngJob where
  prio : Nat
  at_ : Nat
  work : EngWork
  deriving DecidableEq, Repr

/-- The extents of staging: at most this many transfers are in flight (R235, R236). -/
def engMax : Nat := 4096

/-- Reads of extents. -/
def readJobs (prio at_ : Nat) (l : List (Nat × Nat)) : List EngJob := l.map fun k => ⟨prio, at_, .read k.1 k.2⟩

/-- The moves of a list that wait for no earlier overlapping one (R235, R238). -/
def freeMoves : List MemMove → List MemMove → List MemMove
  | [], _ => []
  | m :: l, earlier => (if m.done < m.len && !earlier.any (movesMeet m) then [m] else []) ++ freeMoves l (earlier ++ [m])

/-- What a move asks of the engine: its source extents not in staging, and its next extent once that is. -/
def moveJobs (s : State) (m : MemMove) : List EngJob :=
  readJobs m.src.prio m.at_ (needOf s m.src (m.srcOff + m.done) (min (65536 * engMax) (m.len - m.done)))
    ++ (if staged s m.src (m.srcOff + m.done) (min 65536 (m.len - m.done)) then [⟨m.src.prio, m.at_, .move m⟩] else [])

/-- The extents that a core's transfer from flash waits for. -/
def xferJobs (s : State) (x : Xfer) : List EngJob := match x.src with
  | .seg _ g off => readJobs g.prio x.at_ (needOf s g off ((x.rows - 1) * x.srcStride + x.rowBytes))
  | .lcl _ => []

/-- The extents that a put from flash waits for. -/
def putJobs (s : State) (r : CollReq) : List EngJob := match r.seg with
  | some e => if r.put then readJobs e.2.prio r.at_ (needOf s e.2 r.addr r.bytes) else []
  | none => []

/-- The extents that a group's cold experts wait for, at the highest priority (R321). -/
def coldJobs (x : Group) : List EngJob := x.disp.slots.flatMap fun e => readJobs 15 e.2.at_ e.2.need

/-- The extents that a restore has yet to read of its region, `0` to META_EXT + DATA_EXT (R410); no segment gives it a PRIO. -/
def restoreJobs (s : State) (n : Snap) : List EngJob := match n.policy, n.restore with
  | some p, some r =>
    let base := p.regions.getD r.region 0
    let h := memRead (getExtent s p.volume base).data 0 256
    readJobs 0 0 (((List.range (1 + fld h 511 480 + fld h 575 512)).filter fun i => !r.got.contains i).map fun i => (p.volume, base + i))
  | _, _ => []

/-- A queued transfer placed behind those of at least its priority and no later issue. -/
def insJob (j : EngJob) : List EngJob → List EngJob
  | [] => [j]
  | k :: l => if k.prio < j.prio || (k.prio == j.prio && decide (j.at_ < k.at_)) then j :: k :: l else k :: insJob j l

/-- A district's queue in the tier-move engine (R235): by PRIO, highest first, then by issue time. -/
def engQueue (s : State) (d : Nat) : List EngJob :=
  let x := getDist s d
  let jobs := (freeMoves x.moves []).flatMap (moveJobs s)
    ++ x.cores.flatMap (fun c => (coreXfers c.2).flatMap (xferJobs s))
    ++ (x.loadings.flatMap fun l => readJobs l.prio l.at_ l.need)
    ++ (s.groups.flatMap fun g => if g.2.dist = d then g.2.reqs.flatMap (putJobs s) ++ coldJobs g.2 else [])
    ++ restoreJobs s x.snap
  jobs.foldl (fun l j => insJob j l) []

/-- One entry of each queue in turn, round after round (R235). -/
def roundRobin {α : Type} : Nat → List (List α) → List α
  | 0, _ => []
  | n + 1, qs => match qs.filterMap List.head? with
    | [] => []
    | hs => hs ++ roundRobin n (qs.map List.tail)

/-- The transfers in flight: the first 4,096 in the engine's order, with their districts, from the district after the one served
last (R235; log entry 141). -/
def engServes (s : State) : List (Nat × EngWork) :=
  let ds := (List.range 32).map fun i => (s.flash.rr + 1 + i) % 32
  (roundRobin engMax (ds.map fun d => (engQueue s d).map fun j => (d, j.work))).take engMax

/-- The move whose extent the engine carries next for a district. -/
def pickMove (s : State) (d : Nat) : Option MemMove := (engServes s).findSome? fun j => match j.2 with
  | .move m => if j.1 = d then some m else none
  | .read _ _ => none

/-- The engine has served a district's queue. -/
def servedDist (s : State) (d : Nat) : State := { s with flash := { s.flash with rr := d } }

/-- Destination granules that a poisoned source granule reaches. -/
def poisonTo (so do_ n g : Nat) : List Nat :=
  let lo := max (g * 64) so
  let hi := min (g * 64 + 64) (so + n)
  granules (do_ + lo - so) (hi - lo)

/-- The places that the start of a coded extent holds, one capacity after another: offset in the extent and bytes used (R205). A
header that does not read as one ends the walk, and the rest of the extent counts as used (log entry 142). -/
def codedUse : Nat → Bytes → Nat → List (Nat × Nat)
  | 0, _, _ => []
  | fuel + 1, b, at_ =>
    if b = [] then []
    else
      let p := placeOf (b.take 8)
      let cap := placeCap p.fmt p.block p.sparse p.nelem
      if 8 ≤ cap && placeHdrOk p && cap ≤ b.length then (at_, 8 + p.clen) :: codedUse fuel (b.drop cap) (at_ + cap) else [(at_, b.length)]

/-- Sectors that a coded extent takes (R241). -/
def codedSectors (b : Bytes) : Nat := max 1 (cdiv ((codedUse 8193 b 0).map (·.2)).sum 4096)

/-- The granules that a sector of an extent delivers (R242): sector after sector of the whole extent, or of its used bytes packed
together. -/
def packedGranules (k : Nat) : List (Nat × Nat) → Nat → List Nat
  | [], _ => []
  | (a, n) :: l, done =>
    let lo := max done (4096 * k)
    let hi := min (done + n) (4096 * (k + 1))
    (if lo < hi then granules (a + (lo - done)) (hi - lo) else []) ++ packedGranules k l (done + n)

/-- The granules of an extent that sector `k` delivers. -/
def sectorGranules (x : Extent) (k : Nat) : List Nat :=
  if x.sectors = 16 then (List.range 64).map (· + 64 * k) else packedGranules k (codedUse 8193 (memRead x.data 0 65536) 0) 0

/-- Bytes and poison written to a range of a segment; into flash an extent write starts (R222, R238, R241). -/
def writeTo (s : State) (e : Seg) (off : Nat) (b : Bytes) (gs : List Nat) : State :=
  if e.tier = 3 then
    let x := e.firstExt + off / 65536
    if volReady s e.volume then
      let w : Extent := { data := memOf b, poison := gs.map (· - off / 64), xts := some (sealOf s e.volume x)
                          sectors := if e.coded then codedSectors b else 16 }
      let s := { s with flash := { s.flash with inflight := s.flash.inflight ++ [⟨e.volume, x, some w⟩] } }
      if s.flash.staging.contains (e.volume, x) then stageIn s e.volume x else s
    else s
  else segMark (segWrite s e off b) e gs

/-- The source of a move as it stood when it began, kept when the two ranges overlap within one segment (R238). -/
def moveSnapshot (s : State) (m : MemMove) : MemMove :=
  if m.done = 0 ∧ m.src.dbase = m.dst.dbase ∧ overlaps m.srcOff m.len m.dstOff m.len then
    { m with snapshot := some (memOf (segRead s m.src m.srcOff m.len), segPoison s m.src m.srcOff m.len) }
  else m

/-- One extent of a move (R235, R238). -/
def moveExtent (s : State) (m : MemMove) (n : Nat) : State :=
  let so := m.srcOff + m.done
  let do_ := m.dstOff + m.done
  let data := match m.snapshot with
    | some q => memRead q.1 m.done n
    | none => segRead s m.src so n
  let gs := match m.snapshot with
    | some q => q.2.filter (granules so n).contains
    | none => segPoison s m.src so n
  writeTo s m.dst do_ data (gs.flatMap (poisonTo so do_ n))

/-- A move replaced in its district. -/
def setMove (s : State) (d : Nat) (old new : MemMove) : State :=
  modDist s d fun x => { x with moves := x.moves.map fun m => if m = old then new else m }

/-- The engine carries one extent of a district's next move (R235). A flash source stands in staging; a tier that has become read-only
ends a move into it (R243). -/
def extentTransfer (d : Nat) (s : State) : State :=
  match pickMove s d with
  | none => s
  | some m0 =>
    let s := servedDist s d
    let m := moveSnapshot s m0
    let n := min 65536 (m.len - m.done)
    if m.dst.tier = 3 ∧ s.flash.readOnly then
      finish (modDist s d fun x => { x with moves := x.moves.erase m0 }) m.pend 0x21 0 []
    else moveExtent (useStaged (setMove s d m0 { m with done := m.done + n }) m.src (m.srcOff + m.done) n) m n

/-- Meaning of TIER_EXTENT_TRANSFER_DONE (R235, R238). -/
def execTierExtentTransferDone (d : Nat) (s : State) : Answer := .next (extentTransfer d s)

/-- Every extent written by a move has been acknowledged (R241). -/
def moveAcked (s : State) (m : MemMove) : Bool :=
  m.dst.tier != 3 || !s.flash.inflight.any fun o => o.write.isSome && o.vol == m.dst.volume
    && (extentsIn m.dst m.dstOff m.len).contains o.ext

/-- A move whose bytes are all in place gets its final reply (R238). -/
def moveDone (d : Nat) (s : State) : State :=
  match (getDist s d).moves.find? fun m => m.len ≤ m.done && moveAcked s m with
  | some m => sweepBacks (finishOk (modDist s d fun x => { x with moves := x.moves.erase m }) m.pend [])
  | none => s

/-- Meaning of MEM_MOVE_DONE (R238). -/
def execMemMoveDone (d : Nat) (s : State) : Answer := .next (moveDone d s)

/-! ## Volumes (R240, R244) -/

/-- Extents the tier offers (R240): seven eighths of the raw bytes of its channels. -/
def flashExtents (s : State) : Nat := (flashChannels s).length * s.board.flChGb * 1000000000 * 7 / 8 / 65536

/-- Extents in volumes. -/
def usedExtents (s : State) : Nat := (s.flash.vols.map fun e => e.2.extents).sum

/-- Meaning of MEM_VOL_CREATE (R240): ACCEPTED; the volume exists once its creation is complete. -/
def execMemVolCreate (c : FwReq) (s : State) : Answer :=
  let p := c.payload
  let v := fld p 31 0
  let n := fld p 95 64
  fwStep specVolCreate c
    (fun s => headChecks specVolCreate (p.length == 16 && zeroAt p [(63, 40), (127, 96)]) (flashPresent s) c s
      ++ [(v == 0 || 32 ≤ fld p 39 32 || n == 0 || thas s.flash.vols v, badArgument), flashKeys s true,
        (s.flash.readOnly || flashExtents s < usedExtents s + n, exhausted)])
    (fun s =>
      let s := replyAccepted s c 0x0404
      let r := freshNat s
      { r.2 with flash := { r.2.flash with
        vols := tset r.2.flash.vols v { owner := fld p 39 32, extents := n, creating := some (pendOf s c 0x0404), nonce := r.1 % 2 ^ 64 } } }) s

/-- A volume's creation is complete: it reads as zero (R240). -/
def volCreated (v : Nat) (s : State) : State :=
  match tfind s.flash.vols v with
  | some x => match x.creating with
    | some p => finishOk (modVol s v fun x => { x with creating := none }) p []
    | none => s
  | none => s

/-- Meaning of MEM_VOL_CREATE_DONE (R238, R240). -/
def execMemVolCreateDone (v : Nat) (s : State) : Answer := .next (volCreated v s)

/-- A volume deleted: its nonce is destroyed, and it is unreadable at once (R244). -/
def volDelete (v : Nat) (s : State) : State :=
  { s with flash := { s.flash with
    vols := tdel s.flash.vols v
    staging := s.flash.staging.filter fun x => x.1 != v
    inflight := s.flash.inflight.filter fun o => o.vol != v
    blocks := tmap s.flash.blocks fun _ b => { b with holds := b.holds.filter fun h => h.1 != v } } }

/-- Meaning of MEM_VOL_DELETE (R238, R244). -/
def execMemVolDelete (c : FwReq) (s : State) : Answer :=
  let p := c.payload
  let v := fld p 31 0
  fwStep specVolDelete c
    (fun s => headChecks specVolDelete (p.length == 8 && zeroAt p [(63, 32)]) (flashPresent s) c s
      ++ [(!volReady s v, badArgument), flashKeys s true])
    (fun s => replyOk (volDelete v s) c 0x0405 []) s

/-- Meaning of MEM_VOL_OWNER (R238, R240). -/
def execMemVolOwner (c : FwReq) (s : State) : Answer :=
  let p := c.payload
  let v := fld p 31 0
  fwStep specVolOwner c
    (fun s => headChecks specVolOwner (p.length == 8 && zeroAt p [(63, 40)]) (flashPresent s) c s
      ++ [(32 ≤ fld p 39 32 || !volReady s v, badArgument), flashKeys s true])
    (fun s => replyOk (modVol s v fun x => { x with owner := fld p 39 32 }) c 0x0406 []) s

/-! ## The flash medium (R239, R242, R243) -/

/-- Flash controller events carry source 0x8A0 (R35, R246). -/
def flashSource : Nat := 0x8A0

/-- A block's record. -/
def getBlock (s : State) (b : Nat) : FlBlock := tget {} s.flash.blocks b

/-- A block's record changed. -/
def modBlock (s : State) (b : Nat) (f : FlBlock → FlBlock) : State :=
  { s with flash := { s.flash with blocks := tmod {} s.flash.blocks b f } }

/-- Blocks in all, and the spare ones in tenths of a percent (R243). -/
def flashBlocks (_s : State) : Nat := Config.flashGeometry 0
def sparePct (s : State) : Nat :=
  (Config.flashGeometry 1 - (s.flash.blocks.filter fun e => e.2.retired).length) * 1000 / max 1 (flashBlocks s)

/-- A block's data moved to the free block with the lowest erase count (R243). -/
def relocate (s : State) (b : Nat) : State :=
  let h := (getBlock s b).holds
  if h = [] then s
  else
    let s := modBlock (modBlock s b fun x => { x with holds := [] }) (lowestFree s) fun x => { x with holds := x.holds ++ h }
    { s with flash := { s.flash with relocated := s.flash.relocated + 1, openBlk := if s.flash.openBlk = some b then none else s.flash.openBlk } }

/-- Events of the spare reserve (R243): below 2.0 % and below 0.5 %. -/
def spareCheck (s : State) : State :=
  let p := sparePct s
  let s := if p < 20 ∧ !s.flash.spareLow then
      emit { s with flash := { s.flash with spareLow := true } } flashSource 0x0D3 sevNotice 0xFF [p] else s
  if p < 5 ∧ !s.flash.readOnly then emit { s with flash := { s.flash with readOnly := true } } flashSource 0x0D4 sevError 0xFF [] else s

/-- A block that fails a program or an erase is retired and its data relocated (R243). -/
def retireBlock (s : State) (b : Nat) : State :=
  if (getBlock s b).retired then s
  else
    let s := modBlock (relocate s b) b fun x => { x with retired := true }
    let w := Config.flashPlace b
    spareCheck (emit s flashSource 0x0D2 sevInfo 0xFF [w.1, w.2.1, w.2.2])

/-- A block is read: after 100,000 reads since its erase, or when a sector needs a soft-decision retry, it is relocated
(R243). -/
def blockRead (s : State) (b : Nat) (retried : Bool) : State :=
  let s := modBlock s b fun x => { x with reads := x.reads + 1, lastRead := time s }
  if retried || 100000 ≤ (getBlock s b).reads then relocate s b else s

/-- The block that holds an extent. -/
def blockOf (s : State) (v e : Nat) : Option Nat := (s.flash.blocks.find? fun b => b.2.holds.contains (v, e)).map (·.1)

/-- A cancelled read of an extent goes on (R233). -/
def cancelledRead (s : State) (v e : Nat) : Bool := s.flash.inflight.any fun o => o.vol == v && o.ext == e && o.write.isNone

/-- The district for which the engine has a read of an extent in flight (R235). -/
def readFor (s : State) (v e : Nat) : Option Nat := ((engServes s).find? fun j => j.2 == .read v e).map (·.1)

/-- An extent is on its way to staging: the engine has a read of it in flight, or a cancelled read goes on (R233, R235). -/
def extentWanted (s : State) (v e : Nat) : Bool := cancelledRead s v e || (readFor s v e).isSome

/-- Those that wait for an extent itself have it: loads, cold experts and restores. -/
def extentArrived (v e : Nat) (s : State) : State :=
  let drop (l : List (Nat × Nat)) : List (Nat × Nat) := l.filter (· != (v, e))
  { s with
    dists := tmap s.dists fun _ x => { x with
      loadings := x.loadings.map fun l => { l with need := drop l.need }
      snap := { x.snap with restore := x.snap.restore.map fun r => match x.snap.policy with
        | some p => if p.volume = v ∧ p.regions.getD r.region 0 ≤ e then { r with got := nsAdd r.got (e - p.regions.getD r.region 0) } else r
        | none => r } }
    groups := tmap s.groups fun _ g => { g with disp := { g.disp with slots := tmap g.disp.slots fun _ q => { q with need := drop q.need } } } }

/-- The extents that loads, cold experts and restores wait for, whether or not staging still holds them, are read again. -/
def heldRead (s : State) (v e : Nat) : Bool := !s.flash.staging.contains (v, e) || (readFor s v e).isSome

/-- An extent read lands in staging (R235, R242), after at most three retries: a sector that stays uncorrectable poisons its granules
and raises FLASH_UE. -/
def extentRead (v e retries : Nat) (bad : List Nat) (s : State) : State :=
  if !s.sec.keys ∨ !volReady s v ∨ (getVol s v).extents ≤ e ∨ 3 < retries ∨ !heldRead s v e ∨ !extentWanted s v e then s
  else
    let x := getExtent s v e
    let bad := bad.filter (· < x.sectors)
    let s := match readFor s v e with
      | some d => servedDist s d
      | none => s
    let s := { s with flash := { s.flash with inflight := s.flash.inflight.filter fun o => !(o.vol == v && o.ext == e && o.write.isNone) } }
    let s := match blockOf s v e with
      | some b => blockRead s b (retries != 0)
      | none => s
    let s := if bad = [] then s else modVol s v fun y => { y with
      data := tmod {} y.data e fun t => { t with poison := addPoison t.poison (bad.flatMap (sectorGranules x)) } }
    let s := bad.foldl (fun s k => emit s flashSource 0x0D1 sevError (getVol s v).owner [v, e, k]) s
    extentArrived v e (stageIn s v e)

/-- Meaning of FLASH_EXTENT_READ_DONE (R235, R242, R243). -/
def execFlashExtentReadDone (v e retries : Nat) (bad : List Nat) (s : State) : Answer := .next (extentRead v e retries bad s)

/-- A block that a write may go to (R243): the open one, or a free one of which none has a lower erase count. -/
def mayProgram (s : State) (b : Nat) : Bool :=
  blockGood s b && (s.flash.openBlk == some b
    || ((getBlock s b).holds == [] && (getBlock s b).erases ≤ (getBlock s (lowestFree s)).erases))

/-- An extent's NAND program ends in the block the controller writes (R241, R243): the write is acknowledged, or the block is retired
and the write goes to another block. -/
def programDone (v e b : Nat) (ok : Bool) (s : State) : State :=
  match s.flash.inflight.find? fun o => o.vol == v && o.ext == e && o.write.isSome with
  | none => s
  | some o =>
    if !s.sec.keys ∨ !mayProgram s b then s
    else if !ok then retireBlock s b
    else
      let s := holdIn { s with flash := { s.flash with inflight := s.flash.inflight.erase o } } b v e
      match o.write with
      | some w => modVol s v fun x => { x with data := tset x.data e w }
      | none => s

/-- Meaning of FLASH_PROGRAM_DONE (R241, R243). -/
def execFlashProgramDone (v e b : Nat) (ok : Bool) (s : State) : Answer := .next (programDone v e b ok s)

/-- The erase counts of the blocks. -/
def eraseCounts (s : State) : List Nat := s.flash.blocks.map fun e => e.2.erases

/-- The blocks that hold data, lowest erase count first. -/
def coldest (s : State) : Option (Nat × FlBlock) :=
  let l := s.flash.blocks.filter fun e => e.2.holds != [] && s.flash.openBlk != some e.1
  l.find? fun e => l.all fun o => e.2.erases ≤ o.2.erases

/-- While the erase-count spread exceeds 200, the block whose data has stayed longest, that with the fewest erases, is relocated
(R243). -/
def levelWear (s : State) : State :=
  let cs := eraseCounts s
  let lo := if s.flash.blocks.length < flashBlocks s then 0 else cs.min?.getD 0
  if cs.max?.getD 0 ≤ lo + 200 then s
  else match coldest s with
    | some e => relocate s e.1
    | none => s

/-- A block's erase ends (R243). -/
def eraseDone (b : Nat) (ok : Bool) (s : State) : State :=
  if !flashPresent s ∨ !s.sec.keys ∨ !blockGood s b ∨ (getBlock s b).holds ≠ [] then s
  else if ok then levelWear (modBlock s b fun x => { x with erases := x.erases + 1, reads := 0 })
  else retireBlock s b

/-- Meaning of FLASH_ERASE_DONE (R243). -/
def execFlashEraseDone (b : Nat) (ok : Bool) (s : State) : Answer := .next (eraseDone b ok s)

/-- Meaning of FLASH_RETENTION_READ (R243): every block is read at least every 7 days; one that needs retries is relocated. -/
def execFlashRetentionRead (b : Nat) (retries : Bool) (s : State) : Answer :=
  .next (when (flashPresent s && s.sec.keys && blockGood s b) (fun s => blockRead s b retries) s)

/-- The factory's bad-block marks are read at the first power-up (R243). -/
def readMarks (s : State) : State :=
  if s.flash.marksRead then s else { s with flash := { s.flash with marksRead := true, factory := Config.factoryMarks } }

/-- Meaning of FLASH_CALIBRATION (R239): at power-up and every 10 minutes. -/
def execFlashCalibration (s : State) : Answer :=
  .next (when (flashPresent s && (s.flash.calibratedAt == 0 || s.flash.calibratedAt + 600000000000 ≤ time s))
    (fun s => readMarks { s with flash := { s.flash with calibratedAt := time s } }) s)

/-- Meaning of MEM_FLASH_INFO (R238, R243). What FREE says of one volume is left open (log entry 34). -/
def execMemFlashInfo (c : FwReq) (s : State) : Answer :=
  let p := c.payload
  let d := cmdDist c
  let v := fld p 31 0
  fwStep specFlashInfo c
    (fun s => headChecks specFlashInfo (p.length == 8 && zeroAt p [(63, 32)]) (flashPresent s) c s
      ++ [(v != 0 && !volReady s v, badArgument), legalIn s d anyState, flashKeys s true])
    (fun s =>
      let r := freshNat s
      let free := if v = 0 then flashExtents s - usedExtents s else r.1
      let s := if v = 0 then s else r.2
      replyOk s c 0x0407 (pack 32 [(32, if v = 0 then flashExtents s else (getVol s v).extents), (32, free), (16, sparePct s), (16, 0),
        (32, (eraseCounts s).max?.getD 0), (32, (eraseCounts s).sum / max 1 (flashBlocks s)), (96, 0)])) s

/-! ## Memory controllers (R216, R219–R221) -/

/-- A channel number: 256 near pseudo-channels, then four per LPDDR site. -/
def chanOk (s : State) (ch : Nat) : Bool := ch < 256 || (ch < 320 && s.lpSites.contains ((ch - 256) / 4))

/-- Meaning of MEM_REFRESH (R216): postponed under load by at most 4 intervals, else performed. -/
def execMemRefresh (ch bank : Nat) (underLoad : Bool) (s : State) : Answer :=
  .next (when (chanOk s ch && bank < 32) (fun s => { s with chans := tmod {} s.chans ch fun x =>
    let n := tget 0 x.postponed bank
    if underLoad ∧ n < 4 then { x with postponed := tset x.postponed bank (n + 1) }
    else { x with postponed := tdel x.postponed bank, rows := tdel x.rows bank } }) s)

/-- A stack or LPDDR site of `countCe` is present. -/
def siteOk (s : State) (site : Nat) : Bool := site < 8 || (site < 24 && s.lpSites.contains (site - 8))

/-- A number of `countCe` as an event gives it (R35, R221): source, site and tier. -/
def siteNames (site : Nat) : Nat × Nat × Nat :=
  if site < 8 then (0x860 + site, site, 1) else if site < 24 then (0x860 + site, site - 8, 2) else (0x820 + (site - 24), site - 24, 4)

/-- The backings that lie on a site. -/
def siteBacks (s : State) (site : Nat) : List (Nat × Backing) :=
  s.backs.filter fun e => e.2.tier == (if site < 8 then 1 else 2) && e.2.units.contains (if site < 8 then site else site - 8)

/-- The `k`-th granule of a backing on one of its units (R215, R220). -/
def siteGranule (b : Backing) (unit k : Nat) : Nat :=
  let pos := (b.units.findIdx? (· == unit)).getD 0
  let per := if b.tier = 1 then 8 else 64
  (k / per * max 1 b.units.length + pos) * per + k % per

/-- The district that owns a backing; 255 for none. -/
def ownerOfBack (s : State) (b : Nat) : Nat := ((s.dists.find? fun e => (backsOf e.2).contains b).map (·.1)).getD 0xFF

/-- The patrol scrubber finds an uncorrectable error at a site (R221, R222). Which allocation it lies in is left open (log
entry 9). -/
def patrolUe (s : State) (site g : Nat) : State :=
  let l := siteBacks s site
  let r := freshNat s
  let unit := if site < 8 then site else site - 8
  let tier := if site < 8 then 1 else 2
  let s := match l[r.1 % max 1 l.length]? with
    | some (bid, b) =>
      let k := siteGranule b unit g
      let s := if 64 * k < b.size then modBack r.2 bid fun x => { x with poison := nsAdd x.poison k } else r.2
      emit s (0x860 + site) 0x0C1 sevError (ownerOfBack s bid) [tier, unit, Config.physAddr bid (64 * k), ownerOfBack s bid]
    | none => emit r.2 (0x860 + site) 0x0C1 sevError 0xFF [tier, unit, Config.physAddr 0 (64 * g), 0xFF]
  countUe s site

/-- Meaning of PATROL_SCRUB (R221, R222). -/
def execPatrolScrub (site : Nat) (err : MemErr) (s : State) : Answer :=
  .next (when (siteOk s site) (fun s => match err with
    | .none => s
    | .ce => countCe s site
    | .ue g => patrolUe s site g) s)

/-- Meaning of MEM_CE (R221): at most once per second and site, with the count since the last event. -/
def execMemCe (site : Nat) (s : State) : Answer :=
  let x := tget {} s.sites site
  .next (when ((siteOk s site || (24 ≤ site && site < 56)) && x.count != 0 && (x.lastEvent.all fun t => t + 1000000000 ≤ time s)) (fun s =>
    let s := { s with sites := tset s.sites site { x with count := 0, lastEvent := some (time s) } }
    emit s (siteNames site).1 0x0C0 sevInfo 0xFF [(siteNames site).2.1, (siteNames site).2.2, x.count]) s)

end Sys2Proof.Machine
end

