-- ==== Sys2Proof/Machine/Levels.lean ====
section
/-! DEFINITION. Debug levels and tokens (R433–R437), lifecycle states (R417–R420) and zeroising: what SEC_, DBG_, PWR_ commands,
JTAG and boot share. -/

namespace Sys2Proof.Machine

/-- The security processor's source number (R35). -/
def secSource : Nat := 0x886

/-- Lifecycle states (R418). -/
def lcTest : Nat := 0
def lcProvisioned : Nat := 1
def lcField : Nat := 2
def lcReturn : Nat := 3

/-- State codes of R417: the setting in bits 7:6, its value in bits 5:0. -/
def levelConflict (s : State) : Err := conflict 8 (0x80 + dbgLevel s)
def powerConflict (s : State) : Err := conflict 8 (0xC0 + s.pwr.state)

/-- PUF-derived keys are available in a lifecycle state until SCAN is entered (R419). -/
def keysIn (lifecycle : Nat) (scanned : Bool) : Bool := (lifecycle == 1 || lifecycle == 2) && !scanned

/-! ## Changes of level (R435) -/

/-- Causes of a change of level (R435). -/
def dcOpen : Nat := 0
def dcClose : Nat := 1
def dcExpiry : Nat := 2
def dcPower : Nat := 3
def dcReset : Nat := 4

/-- A change of level that a session brings about: an entry is appended to DEBUG_HISTORY, of which the latest 4,096 are kept,
the record is written to the store, and DEBUG_LEVEL is logged (R435). Source and signer are those of the session concerned. -/
def recordLevel (old new : Nat) (by_ : Session) (cause : Nat) (s : State) : State :=
  let e : HistEntry := { boots := s.sec.boots.toNat, level := new, jtag := by_.jtag, signer := by_.signer, lifecycle := s.sec.lifecycle, cause := cause }
  let l := s.sec.history ++ [e]
  let s := { s with sec := { s.sec with
    history := l.drop (l.length - 4096)
    histControl := s.sec.histControl + b2n (cause == 0 && new == 2)
    histScan := s.sec.histScan + b2n (cause == 0 && new == 3) } }
  emit (storeWrite s stHistory (historyPayload s.sec)) secSource 0x283 sevNotice 0xFF [old, new, b2n by_.jtag, by_.signer, cause]

/-- Halts that a lower level no longer grants end with it (R433). -/
def dropHalts (s : State) : State :=
  if 2 ≤ dbgLevel s then s else { s with dists := tmap s.dists fun _ x => { x with dbgHalt := false, dbgSteps := 0 } }

/-- A session takes effect (R435, R437). -/
def openSession (x : Session) (s : State) : State :=
  let old := dbgLevel s
  recordLevel old x.level x dcOpen { s with sec := { s.sec with session := some x, scanned := s.sec.scanned || x.level == 3 } }

/-- The session ends and the level becomes CLOSED, or OBSERVE at the entry to RETAIN (R437). -/
def endSession (cause new : Nat) (s : State) : State :=
  match s.sec.session with
  | none => s
  | some x =>
    if x.level = new then s
    else
      let next : Option Session := if new = 0 then none else some { level := new, jtag := x.jtag, signer := 0, expires := none }
      dropHalts (recordLevel x.level new x cause { s with sec := { s.sec with session := next } })

/-- The session's VALID_S is over (R437). -/
def sessionOver (s : State) : Bool := match s.sec.session.bind (·.expires) with
  | some t => t ≤ time s
  | none => false

/-! ## Tokens (R436) -/

/-- Bytes of a token. -/
def tokenLen : Nat := 264

/-- The reserved fields of a token. -/
def tokenRsvd : List (Nat × Nat) := [(63, 47), (127, 96), (1023, 896)]

/-- A token's form: its length, and its reserved fields zero. -/
def tokenForm (t : Bytes) : Bool := t.length == tokenLen && zeroAt t tokenRsvd

/-- The key that the token's signer holds: the vendor key that verified the running bundle, or the OWNER key (R436). -/
def signerKey (s : State) (signer : Nat) : Option Bytes :=
  if signer = 0 then s.sec.running.map fun r => memRead r.image 256 136 else s.sec.owner.map (·.key)

/-- The outstanding nonce, unless its 60 s are over (R436). -/
def liveNonce (s : State) : Option (BitVec 256) := match s.sec.nonce with
  | some (n, t) => if time s < t then some n else none
  | none => none

/-- The checks of R436 in order, as pass or fail, for a command of a purpose and a level. -/
def tokenChecks (s : State) (t : Bytes) (purpose level : Nat) : List Bool :=
  [fld t 31 0 == 0x4E4B5444 && fld t 39 32 == 1,
   (match s.sec.identity with
    | some p => slice t 16 64 == slice (Config.sha512 (Config.identityKey p)) 0 64
    | none => false),
   (match liveNonce s with
    | some n => fld t 895 640 == n.toNat
    | none => false),
   (match signerKey s (fld t 42 42) with
    | some k => Config.ecdsaOk k (Config.sha512 (t.take 128)) (slice t 128 136)
    | none => false),
   fld t 42 42 == 1 || s.sec.lifecycle != lcField || (s.sec.owner.any fun o => o.vendorDebug),
   fld t 46 43 == purpose && fld t 41 40 == level]

/-- The number of the first failing check, 1–6. -/
def tokenFail (s : State) (t : Bytes) (purpose level : Nat) : Option Nat :=
  ((tokenChecks s t purpose level).zipIdx.find? fun c => !c.1).map fun c => c.2 + 1

/-- The nonce used up (R436). -/
def useNonce (s : State) : State := { s with sec := { s.sec with nonce := none } }

/-- A failing token: it is logged and the nonce consumed (R436). -/
def rejectToken (n : Nat) (s : State) : State := emit (useNonce s) secSource 0x284 sevNotice 0xFF [n]

/-- A fresh nonce, valid for 60 s; it replaces an outstanding one (R436). -/
def newNonce (s : State) : State :=
  { s with sec := { s.sec with nonce := some (Config.nonce s.freeCtr, time s + 60000000000) }, freeCtr := s.freeCtr + 1 }

/-- The outstanding nonce as 32 bytes. -/
def nonceBytes (s : State) : Bytes := match s.sec.nonce with
  | some (n, _) => leBytes 32 n.toNat
  | none => zeros 32

/-- Meaning of NONCE_EXPIRY (R436). -/
def execNonceExpiry (s : State) : Answer :=
  .next (when (match s.sec.nonce with
    | some (_, t) => t ≤ time s
    | none => false) useNonce s)

/-- Meaning of DEBUG_SESSION_EXPIRY (R437, R443): VALID_S is over and the level becomes CLOSED. -/
def execDebugSessionExpiry (s : State) : Answer :=
  .next (when (!s.pins.sysRst && sessionOver s) (endSession dcExpiry 0) s)

/-! ## Zeroising (R420, R437) -/

/-- Every district destroyed, as DIST_DESTROY does (R437 step 1). -/
def destroyAll (s : State) : State :=
  s.dists.foldl (fun s e => if e.2.state = 0 then s else removeFn e.1 (removeDist e.1 s)) s

/-- Steps 1–3 of R437: no district, no link, no keys. -/
def zeroiseBegin (s : State) : State :=
  let s := disablePorts (destroyAll s)
  { s with sec := { s.sec with keys := false } }

/-- Step 4 of R437: near memory, board memory, slices and local SRAM hold zeros; staging in near memory is gone. -/
def zeroMemories (s : State) : State :=
  let s := zeroiseBegin s
  { s with backs := [], flash := { s.flash with staging := [], inflight := [] } }

/-- Meaning of ZEROISE_DONE (R420, R437): ZEROISED is logged; on the way to SCAN the level becomes SCAN and the command is
answered; on the way to RETURN the remaining steps are due. -/
def execZeroiseDone (micros : Nat) (s : State) : Answer :=
  match s.sec.zeroising with
  | none => .next s
  | some (p, .scan x) =>
    let s := zeroMemories { s with sec := { s.sec with zeroising := none } }
    let s := emit (openSession x s) secSource 0x285 sevNotice 0xFF [micros]
    .next (match p with
      | some p => finishOk s p []
      | none => s)
  | some (p, .toReturn) =>
    let s := zeroMemories { s with sec := { s.sec with zeroising := none, returning := p } }
    .next (emit s secSource 0x285 sevNotice 0xFF [micros])

/-- The rest of R420: flash volumes deleted, the OWNER record cleared, the lifecycle value written last. -/
def toReturn (p : Pend) (s : State) : State :=
  let s := s.flash.vols.foldl (fun s e => volDelete e.1 s) s
  let s := { s with
    nvm := { s.nvm with bankA := tdel s.nvm.bankA stOwner, bankB := tdel s.nvm.bankB stOwner }
    sec := { s.sec with owner := none, returning := none, lifecycle := 3, keys := false } }
  let cs := s.sec.counters.set 3 3
  let s := { s with
    sec := { s.sec with counters := cs }
    nvm := makeWrite s.nvm (ownerGen s) { typ := stCounters, payload := countersPayload cs } false }
  finishOk (emit s secSource 0x282 sevNotice 0xFF [2, 3]) p []

/-- Meaning of LIFECYCLE_RETURN_DONE (R420): due once every earlier store write has been made. -/
def execLifecycleReturnDone (s : State) : Answer :=
  match s.sec.returning with
  | some p => .next (when (s.nvm.writes == []) (toReturn p) s)
  | none => .next s

end Sys2Proof.Machine
end

