-- ==== Sys2Proof/Machine/Debug.lean ====
section
/-! DEFINITION. DBG_NONCE, DBG_OPEN, DBG_CLOSE, DBG_ACCESS and DBG_INFO (R433–R437, R444), as the mailbox and JTAG use them. -/

namespace Sys2Proof.Machine

def specDbgNonce : Spec := { cmd := 0x0C00, pf0 := true, wide := true, scanOk := true }
def specDbgOpen : Spec := { cmd := 0x0C01, pf0 := true, wide := true, scanOk := true }
def specDbgClose : Spec := { cmd := 0x0C02, pf0 := true, wide := true, scanOk := true }
def specDbgAccess : Spec := { cmd := 0x0C03, pf0 := true, wide := true, scanOk := true }
def specDbgInfo : Spec := { cmd := 0x0C04, pf0 := true, wide := true, scanOk := true }

/-- Meaning of DBG_NONCE (R436). -/
def execDbgNonce (c : FwReq) (s : State) : Answer :=
  fwStep specDbgNonce c (headChecks specDbgNonce (c.payload == []) true c)
    (fun s => let s := newNonce s; replyOk s c 0x0C00 (nonceBytes s)) s

/-! ## DBG_OPEN -/

/-- The combined matrix asks a token of a level (R442). -/
def needsToken (lifecycle level : Nat) : Bool :=
  (level == 3 && (lifecycle == 1 || lifecycle == 2)) || (level == 2 && lifecycle == 2)

/-- The form of a DBG_OPEN payload: the token when the matrix requires one. -/
def openForm (s : State) (p : Bytes) : Bool :=
  8 ≤ p.length && zeroAt p [(63, 2)]
    && (if needsToken s.sec.lifecycle (fld p 1 0) then tokenForm (p.drop 8) else p.length == 8)

/-- The state checks of DBG_OPEN: a level above the current one (R435); no level above OBSERVE in RETAIN or on the way to it
(R442, R443). -/
def openChecks (s : State) (p : Bytes) : List (Bool × Err) :=
  let l := fld p 1 0
  [(l ≤ dbgLevel s || s.sec.zeroising.isSome || s.sec.returning.isSome, levelConflict s),
   (2 ≤ l && (s.pwr.state == 2 || retainEntering s), conflict 8 0xC2)]

/-- The token of a DBG_OPEN checked, when one is needed. -/
def openToken (s : State) (p : Bytes) : Option Nat :=
  if needsToken s.sec.lifecycle (fld p 1 0) then tokenFail s (p.drop 8) 0 (fld p 1 0) else none

/-- The session that a DBG_OPEN opens. -/
def openedBy (s : State) (p : Bytes) (jtag : Bool) : Session :=
  let t := p.drop 8
  if needsToken s.sec.lifecycle (fld p 1 0) then
    { level := fld p 1 0, jtag := jtag, signer := 1 + fld t 42 42
      expires := if fld t 95 64 = 0 then none else some (time s + 1000000000 * fld t 95 64) }
  else { level := fld p 1 0, jtag := jtag, signer := 0, expires := none }

/-- Entry to SCAN zeroises first (R437). -/
def openTwoStage (s : State) (p : Bytes) : Bool := fld p 1 0 == 3 && (s.sec.lifecycle == 1 || s.sec.lifecycle == 2)

/-- A DBG_OPEN carried out: in IDLE the entry to SCAN first leaves it (R442); from PROVISIONED and FIELD it zeroises, otherwise
the level changes at once, and no district exists at SCAN (R433). -/
def openAct (p : Bytes) (jtag : Bool) (pend : Option Pend) (s : State) : State :=
  let x := openedBy s p jtag
  let s := if needsToken s.sec.lifecycle (fld p 1 0) then useNonce s else s
  let s := if fld p 1 0 = 3 then idleLeave 0 s else s
  if openTwoStage s p then
    let s := zeroiseBegin s
    { s with sec := { s.sec with zeroising := some (pend, .scan x), scanned := true } }
  else openSession x (if fld p 1 0 = 3 then destroyAll s else s)

/-- Meaning of DBG_OPEN (R433–R437, R442). -/
def execDbgOpen (c : FwReq) (s : State) : Answer :=
  let p := c.payload
  fwStep specDbgOpen c
    (fun s => headChecks specDbgOpen (openForm s p) true c s ++ openChecks s p)
    (fun s => match openToken s p with
      | some n => refuse (rejectToken n s) c 0x0C01 denied
      | none =>
        if openTwoStage s p then openAct p false (some (pendOf s c 0x0C01)) (replyAccepted s c 0x0C01)
        else replyOk (openAct p false none s) c 0x0C01 []) s

/-- Meaning of DBG_CLOSE (R433, R437): CLOSED does not grant it. -/
def execDbgClose (c : FwReq) (s : State) : Answer :=
  fwStep specDbgClose c
    (fun s => headChecks specDbgClose (c.payload == []) true c s ++ [(dbgLevel s == 0, denied)])
    (fun s => replyOk (endSession dcClose 0 s) c 0x0C02 []) s

/-! ## DBG_ACCESS (R433, R444) -/

/-- The fields of a DBG_ACCESS. -/
structure Access where
  op : Nat
  space : Nat
  dist : Nat
  core : Nat
  addr : Nat
  len : Nat
  data : Bytes
  deriving DecidableEq, Repr

/-- The fields from a payload. -/
def accessOf (p : Bytes) : Access :=
  { op := fld p 3 0, space := fld p 7 4, dist := fld p 23 16, core := fld p 42 32, addr := fld p 127 64, len := fld p 143 128, data := p.drop 24 }

/-- An OP that carries data: write and inject. -/
def opHasData (op : Nat) : Bool := op == 1 || op == 5

/-- The form of a DBG_ACCESS payload. -/
def accessForm (p : Bytes) : Bool :=
  let a := accessOf p
  24 ≤ p.length && zeroAt p [(15, 8), (31, 24), (63, 43), (191, 144)]
    && p.length == 24 + (if opHasData a.op then a.len else 0)

/-- The level an access needs: OBSERVE for a read of SPACE 0, CONTROL for anything else. -/
def accessLevel (a : Access) : Nat := if a.op = 0 ∧ a.space = 0 then 1 else 2

/-- OP and SPACE go together: reads of SPACE 0–3, writes of 1–3, injection of 4. -/
def opSpaceOk (a : Access) : Bool :=
  (a.op == 0 && a.space ≤ 3) || (a.op == 1 && 1 ≤ a.space && a.space ≤ 3) || (2 ≤ a.op && a.op ≤ 4 && a.space ≤ 4) || (a.op == 5 && a.space == 4)

/-- The access acts on a district. -/
def onDistrict (a : Access) : Bool := (a.op ≤ 1 && 1 ≤ a.space) || (2 ≤ a.op && a.op ≤ 4)

/-- Bytes of a quarter's slice (R206). -/
def sliceBytes : Nat := 8388608

/-- The address range of an access lies in its space. -/
def accessRange (s : State) (a : Access) : Bool :=
  if a.space = 1 then a.core < coreCount (getDist s a.dist) && a.addr + a.len ≤ 524288
  else if a.space = 2 then a.core < coreCount (getDist s a.dist) && a.addr + a.len ≤ sliceBytes
  else match segAt s a.dist a.addr with
    | some (_, e) => a.addr + a.len ≤ e.dbase + e.size
    | none => false

/-- The checks of a DBG_ACCESS after its form. -/
def accessChecks (s : State) (a : Access) : List (Bool × Err) :=
  let x := getDist s a.dist
  [(dbgLevel s < accessLevel a, denied),
   (!opSpaceOk a || 32 ≤ a.dist || ((a.op ≤ 1 || a.op == 5) && (a.len == 0 || 448 < a.len)), badArgument),
   (onDistrict a && x.state == 0, conflict 1 0),
   (a.op ≤ 1 && 1 ≤ a.space && !accessRange s a, badArgument),
   (a.op ≤ 1 && (a.space == 1 || a.space == 2) && x.state == 5, conflict 1 5)]

/-- `n` bytes whose values the spec leaves open. -/
def freshBytes : Nat → State → Bytes × State
  | 0, s => ([], s)
  | n + 1, s =>
    let r := freshNat s
    let t := freshBytes n r.2
    (BitVec.ofNat 8 r.1 :: t.1, t.2)

/-- Where a byte of a slice of the district lies: the backing of one of its shared-cache segments and an offset in a granule that
the slice holds (R206, log entry 38). -/
def sliceAt (s : State) (a : Access) (i : Nat) : Option (Nat × Nat) :=
  let x := getDist s a.dist
  let r := Config.slicePlace (coreQuarter s a.dist a.core) (a.addr + i)
  if x.segs.any (fun e => e.2.tier == 4 && e.2.bid == r.1 && r.2 < e.2.size) && r.2 / 4096 % max 1 x.q == a.core / 64 then some r else none

/-- A slice read: bytes that hold no segment are left open. -/
def sliceRead (a : Access) (s : State) : Bytes × State :=
  (List.range a.len).foldl (fun r i => match sliceAt r.2 a i with
    | some (b, off) => (r.1 ++ [memGet (getBack r.2 b).data off], r.2)
    | none => let f := freshNat r.2; (r.1 ++ [BitVec.ofNat 8 f.1], f.2)) ([], s)

/-- A slice write, byte by byte. -/
def sliceWrite (a : Access) (s : State) : State :=
  a.data.zipIdx.foldl (fun s d => match sliceAt s a d.2 with
    | some (b, off) => modBack s b fun x => backWrite false x off [d.1]
    | none => s) s

/-- Data read by a DBG_ACCESS. -/
def accessRead (a : Access) (s : State) : Bytes × State :=
  if a.space = 1 then (memRead (getCore s a.dist a.core).sram a.addr a.len, s)
  else if a.space = 2 then sliceRead a s
  else if a.space = 3 then match segAt s a.dist a.addr with
    | some (_, e) => (segRead s e (a.addr - e.dbase) a.len, s)
    | none => ([], s)
  else freshBytes a.len s

/-- Data written by a DBG_ACCESS. -/
def accessWrite (a : Access) (s : State) : State :=
  if a.space = 1 then modCore s a.dist a.core fun c => sramWrite c a.addr a.data
  else if a.space = 2 then sliceWrite a s
  else match segAt s a.dist a.addr with
    | some (_, e) => segWrite s e (a.addr - e.dbase) a.data
    | none => s

/-- An injected error (R433): corrected at a site, uncorrectable at a district address, or a corrected link error; which one and
where the spec does not encode (log entry 37). -/
def inject (a : Access) (s : State) : State :=
  let r := Config.injection a.addr a.data
  if r.1 % 3 = 0 then countCe s (r.2 % 24)
  else if r.1 % 3 = 1 then match segAt s a.dist r.2 with
    | some (_, e) => memError a.dist e (r.2 - e.dbase) (.ue 0) s
    | none => countUe s (r.2 % 24)
  else linkReport (r.2 % 24) (countFec s (r.2 % 24) 1)

/-- A DBG_ACCESS carried out: its reply data and the state. In IDLE it leaves IDLE first (R439). -/
def accessAct (a : Access) (s : State) : Bytes × State :=
  let s := idleLeave 0 s
  if a.op = 0 then accessRead a s
  else if a.op = 1 then ([], accessWrite a s)
  else if a.op = 2 then ([], modDist s a.dist fun x => { x with dbgHalt := true, dbgSteps := 0 })
  else if a.op = 3 then ([], modDist s a.dist fun x => { x with dbgHalt := false, dbgSteps := 0 })
  else if a.op = 4 then ([], modDist s a.dist fun x => { x with dbgSteps := x.dbgSteps + b2n x.dbgHalt })
  else ([], inject a s)

/-- Meaning of DBG_ACCESS (R433, R444). -/
def execDbgAccess (c : FwReq) (s : State) : Answer :=
  let a := accessOf c.payload
  fwStep specDbgAccess c
    (fun s => headChecks specDbgAccess (accessForm c.payload) true c s ++ accessChecks s a)
    (fun s => let r := accessAct a s; replyOk r.2 c 0x0C03 r.1) s

/-- Meaning of DBG_INFO (R444). -/
def execDbgInfo (c : FwReq) (s : State) : Answer :=
  fwStep specDbgInfo c (headChecks specDbgInfo (c.payload == []) true c)
    (fun s =>
      let x := s.sec.session
      let src := match x with
        | some x => b2n x.jtag
        | none => 0
      let sg := match x with
        | some x => x.signer
        | none => 0
      replyOk s c 0x0C04 (pack 16 [(2, dbgLevel s), (1, src), (2, sg), (1, b2n s.sec.keys), (58, 0), (64, (x.bind (·.expires)).getD 0)])) s

end Sys2Proof.Machine
end

