-- ==== Sys2Proof/Machine/Sfn.lean ====
section
/-! DEFINITION. The special-function unit (R174–R190): the built-ins' piecewise form over the coefficient ROM, the
micro-program images and their checks, and the basic steps. -/

namespace Sys2Proof.Machine

/-- The fields of an SFN body (R93). -/
structure SfnD where
  func : Nat
  fmtIn : Nat
  fmtOut : Nat
  inp : Nat
  out : Nat
  elems : Nat
  ctag : Nat
  block : Nat
  modeF : Bool
  stoch : Bool
  deriving DecidableEq, Repr

/-- An SFN body read from its descriptor (R93). -/
def sfnOf (b : Bytes) : SfnD :=
  { func := fld b 135 128, fmtIn := fld b 143 136, fmtOut := fld b 151 144, inp := fld b 178 160, out := fld b 210 192,
    elems := fld b 255 224, ctag := fld b 265 256, block := fld b 267 266, modeF := bit b 268, stoch := bit b 269 }

/-! ## Built-ins -/

/-- The segment of a positive magnitude and the offset from its lower seam, with `n` segments per binade from 2^`j0`
(R175, R190): the segment number and t = |x| − lo, exact. -/
def segmentOf (n : Nat) (j0 : Int) (m : Nat) (e : Int) : Nat × Fv :=
  let j : Int := e + Nat.log2 m
  let lg := Nat.log2 m
  let i := (m - 2 ^ lg) * n / 2 ^ lg
  let lo : Fv := .fin false (n + i) (j - Nat.log2 n)
  (n * (j - j0).toNat + i, fvAdd (.fin false m e) (fvNeg lo))

/-- A ROM coefficient. -/
def coef (func set seg k : Nat) : Nat := (Config.sfnCoef func set seg k).toNat

/-- The segment value: cubic for the native functions, quadratic in FZ-2000 mode (R175, R190). -/
def segValue (func set seg : Nat) (t : Fv) : Nat :=
  let tb := toF32 t
  let quad := f32Fma (f32Fma (coef func set seg 2) tb (coef func set seg 1)) tb (coef func set seg 0)
  if 0x10 ≤ func then quad
  else f32Fma (f32Fma (f32Fma (coef func set seg 3) tb (coef func set seg 2)) tb (coef func set seg 1)) tb (coef func set seg 0)

/-- tanh, native (0x01) or FZ-2000 (0x11) (R175–R177, R190). -/
def sfnTanh (func x : Nat) : Nat :=
  match f32 x with
  | .nan => f32Nan
  | .inf s => b2n s * 2 ^ 31 + 0x3F800000
  | .fin s m e =>
    let native := func < 0x10
    let low : Int := if native then -8 else -6
    if m = 0 ∨ leDy m e 1 low && !leDy 1 low m e then x
    else if leDy (if native then 9 else 8) 0 m e then b2n s * 2 ^ 31 + 0x3F800000
    else
      let g := segmentOf (if native then 16 else 8) low m e
      let v := segValue func 0 g.1 g.2
      if s then f32Neg v else v

/-- The logistic curve, native (0x02) or FZ-2000 (0x12) (R175–R177, R190). -/
def sfnLogistic (func x : Nat) : Nat :=
  match f32 x with
  | .nan => f32Nan
  | .inf s => if s then 0 else 0x3F800000
  | .fin s m e =>
    let native := func < 0x10
    let low : Int := if native then -8 else -6
    if m = 0 ∨ leDy m e 1 low && !leDy 1 low m e then f32Fma x 0x3E800000 0x3F000000
    else if leDy 16 0 m e then (if s then 0 else 0x3F800000)
    else
      let g := segmentOf (if native then 16 else 8) low m e
      segValue func (b2n s) g.1 g.2

/-! ## Micro-programs -/

/-- One micro-program step (R183). -/
structure MStep where
  op : Nat
  mode : Nat
  dst : Nat
  a : Nat
  b : Nat
  c : Nat
  aux : Nat
  rsvd : Bool
  deriving DecidableEq, Repr

/-- A step read from its 8 bytes (R183). -/
def mstepOf (x : Bytes) : MStep :=
  { op := fld x 3 0, mode := fld x 7 4, dst := fld x 10 8, a := fld x 17 12, b := fld x 23 18, c := fld x 29 24,
    aux := fld x 34 32, rsvd := !zeroAt x [(11, 11), (31, 30), (63, 35)] }

/-- A micro-program image's parts (R182). -/
structure MProg where
  steps : List MStep
  consts : List Nat
  /-- NTBL tables of 256 entries, as one run of bytes. -/
  tables : Bytes
  ntbl : Nat
  funcId : Nat
  length : Nat
  deriving DecidableEq, Repr

/-- The length an image's header implies (R182). -/
def mprogLen (steps nconst ntbl : Nat) : Nat := 64 + 8 * steps + 8 * cdiv nconst 2 + 2048 * ntbl

/-- An image's parts (R182). -/
def mprogOf (b : Bytes) : MProg :=
  let n := fld b 46 40
  let nc := fld b 53 48
  let nt := fld b 57 56
  { steps := (List.range n).map fun i => mstepOf (slice b (64 + 8 * i) 8),
    consts := (List.range nc).map fun i => leNat (slice b (64 + 8 * n + 4 * i) 4),
    tables := slice b (64 + 8 * n + 8 * cdiv nc 2) (2048 * nt), ntbl := nt, funcId := fld b 127 96, length := fld b 95 64 }

/-- The BAD_FORMAT checks of an image of `len` bytes (R182, R187). -/
def mprogFormatOk (b : Bytes) (len : Nat) : Bool :=
  let n := fld b 46 40
  let nc := fld b 53 48
  let nt := fld b 57 56
  fld b 31 0 == 0x4752504D && fld b 39 32 == 1 && fld b 95 64 == len && len ≤ 4800 && mprogLen n nc nt == len
    && 1 ≤ n && n ≤ 64 && nc ≤ 32 && nt ≤ 2 && zeroAt b [(47, 47), (55, 54), (63, 58), (511, 128)]
    && (nc % 2 == 0 || leNat (slice b (64 + 8 * n + 4 * nc) 4) == 0)
    && (mprogOf b).steps.all fun s => !s.rsvd

/-- STEPS, NCONST and NTBL of a shipped image (R189): printed for images 0x01 and 0x03, else only STEPS. -/
def shippedShape (id : Nat) : Nat × Nat × Nat :=
  (([3, 3, 7, 8, 5, 7, 9, 12] : List Nat).getD (id - 1) 1,
    if id = 1 then 7 else if id = 3 then 6 else Config.shippedConsts id % 33, if id = 1 then 0 else if id = 3 then 1 else Config.shippedTables id % 3)

/-- A step word of a shipped image (R189). -/
def shippedStepWord (id k : Nat) : Nat :=
  if id = 1 then ([0x00808011, 0x400881203, 0x00002004] : List Nat).getD k 0 else (Config.shippedStep id k).toNat

/-- A constant of a shipped image (R189): C0 of image 0x01 is log2(e) in FP32, C1 the FP32 value nearest the remainder. -/
def shippedConstWord (id k : Nat) : Nat :=
  if id = 1 ∧ k = 0 then 0x3FB8AA3B else if id = 1 ∧ k = 1 then 0x32A57060 else (Config.shippedConst id k).toNat

/-- The image of a shipped micro-program, 0x01–0x08 (R182, R189). -/
def shippedImage (id : Nat) : Bytes :=
  let (n, nc, nt) := shippedShape id
  pack 64 [(32, 0x4752504D), (8, 1), (7, n), (1, 0), (6, nc), (2, 0), (2, nt), (6, 0), (32, mprogLen n nc nt), (32, (Config.shippedFuncId id).toNat)]
    ++ ((List.range n).flatMap fun k => leBytes 8 (shippedStepWord id k))
    ++ ((List.range nc).flatMap fun k => leBytes 4 (shippedConstWord id k)) ++ zeros (4 * (nc % 2))
    ++ ((List.range (256 * nt)).flatMap fun k => leBytes 8 (Config.shippedEntry id k).toNat)

/-- An operand code of a step is valid (R184). -/
def mOperandOk (nc code : Nat) : Bool := code ≤ 10 || (32 ≤ code && code - 32 < nc)

/-- A constant index `j` (code 32 + j) with `k` further constants after it (R185). -/
def mConstOk (nc code k : Nat) : Bool := 32 ≤ code && code - 32 + k < nc

/-- One step's argument checks (R183–R185, R187). -/
def mstepOk (nc nt : Nat) (s : MStep) : Bool :=
  let a := mOperandOk nc s.a
  let b := mOperandOk nc s.b
  let c := mOperandOk nc s.c
  let pairDst := s.dst % 2 == 0
  let noB := s.b == 0
  let noC := s.c == 0
  let aux0 := s.aux == 0
  if s.op = 1 then
    pairDst && a && noC && aux0 && (if s.mode = 0 then noB else if s.mode = 1 then mConstOk nc s.b 1 else s.mode == 2 && b)
  else if s.op = 2 then s.mode == 0 && pairDst && a && noB && noC && s.aux < nt
  else if s.op = 3 then
    if s.mode = 0 then a && noC && 1 ≤ s.aux && s.aux ≤ 4 && mConstOk nc s.b s.aux
    else if s.mode = 1 then a && b && c && aux0
    else s.mode == 2 && a && b && noC && aux0
  else if s.op = 4 then s.mode == 0 && a && b && noC && aux0
  else if s.op = 5 then s.mode ≤ 1 && a && noB && noC && aux0
  else if s.op = 6 then s.mode == 0 && a && b && c && aux0
  else if s.op = 7 then s.mode == 0 && a && b && c && aux0
  else false

/-- The index of the first failing step (R187). -/
def mprogBadStep (p : MProg) : Option Nat := p.steps.findIdx? fun s => !mstepOk p.consts.length p.ntbl s

/-- The slot is fused (R186). -/
def mprogFused (p : MProg) : Bool :=
  match p.steps with
  | [s0, s1, s2] =>
    s0.op == 1 && (s0.mode == 1 || s0.mode == 2) && s0.dst == 0 && s1.op == 3 && s1.mode == 0 && s1.a == 1 && s1.dst == 2
      && s2.op == 4 && s2.a == 2 && s2.b == 0 && s2.dst == 0
  | _ => false

/-- An operand's FP32 pattern (R184): `us` holds U0–U7, `x` is the widened input. -/
def mOperand (p : MProg) (us : AMap Nat) (x code : Nat) : Nat :=
  if code ≤ 7 then tget 0 us code
  else if code = 8 then x
  else if code = 9 then 0
  else if code = 10 then 0x3F800000
  else p.consts.getD (code - 32) 0

/-- Constant C(j). -/
def mConst (p : MProg) (j : Nat) : Nat := p.consts.getD j 0

/-- SPLIT mode EM (R185): exponent and mantissa. -/
def splitEM (a : Nat) : Nat × Nat :=
  match f32 a with
  | .nan => (f32Nan, f32Nan)
  | .inf s => (f32Inf false, b2n s * 2 ^ 31 + 0x3F800000)
  | .fin s m e =>
    if m = 0 then (f32Inf true, a)
    else
      let lg := Nat.log2 m
      let ex : Int := e + lg
      (toF32 (.fin (decide (ex < 0)) ex.natAbs 0), toF32 (.fin s m (-(lg : Int))))

/-- SPLIT modes IF (R185): the nearest integer k of A × c, and the fraction with a second multiplier. -/
def splitIF (a c d : Nat) : Nat × Nat :=
  let prod := fvMul (f32 a) (f32 c)
  match prod with
  | .nan => (f32Nan, f32Nan)
  | .inf s => (f32Inf s, 0)
  | _ =>
    let k := fvRint prod
    (toF32 k, toF32 (fvAdd (fvAdd prod (fvNeg k)) (fvMul (f32 a) (f32 d))))

/-- POLY mode 0, Horner from the highest constant (R185). -/
def horner (p : MProg) (a j : Nat) : Nat → Nat → Nat
  | 0, r => r
  | n + 1, r => horner p a j n (f32Fma r a (mConst p (j + n)))

/-- SCALE (R185): q(A × 2^rint(B)). -/
def scaleStep (a b : Nat) : Nat :=
  match f32 a, fvRint (f32 b) with
  | .nan, _ => f32Nan
  | _, .nan => f32Nan
  | .inf s, .inf t => if t then f32Nan else f32Inf s
  | .inf s, _ => f32Inf s
  | .fin s m _, .inf t => if t then b2n s * 2 ^ 31 else if m = 0 then f32Nan else f32Inf s
  | .fin s m e, k => toF32 (.fin s m (e + max (min (fvToInt k) 1000) (-1000)))

/-- RSEED mode 0, the reciprocal seed (R185). -/
def rseedRecip (a : Nat) : Nat :=
  match f32 a with
  | .nan => f32Nan
  | .inf s => b2n s * 2 ^ 31
  | .fin s m e =>
    if m = 0 then f32Inf s
    else
      let lg := Nat.log2 m
      let j := (m - 2 ^ lg) * 256 / 2 ^ lg
      match fvDiv (.fin false 512 0) (.fin false (513 + 2 * j) 0) with
      | .fin _ qm qe =>
        let r := round12 qm qe
        toF32 (.fin s r.1 (r.2 - (e + lg)))
      | _ => f32Nan

/-- RSEED mode 1, the rsqrt seed (R185). -/
def rseedRsqrt (a : Nat) : Nat :=
  match f32 a with
  | .nan => f32Nan
  | .inf s => if s then f32Nan else 0
  | .fin s m e =>
    if m = 0 then f32Inf s
    else if s then f32Nan
    else
      let lg := Nat.log2 m
      let top : Int := e + lg
      let ev := if top % 2 = 0 then top else top - 1
      let pm := if top % 2 = 0 then m else 2 * m
      let j := (pm * 64 / 2 ^ lg) - 64
      let n := 128 * 2 ^ 120 / (129 + 2 * j)
      let q := isqrt n
      let r := round12 (2 * q + 1) (-61)
      toF32 (.fin false r.1 (r.2 - ev / 2))

/-- TBL (R185): both words of the entry. -/
def tblStep (p : MProg) (a aux : Nat) : Nat × Nat :=
  match f32 a with
  | .nan => (f32Nan, f32Nan)
  | v =>
    let i := match v with
      | .inf s => if s then 0 else 255
      | v => (min (max (fvToInt (fvFloor v)) 0) 255).toNat
    let b := slice p.tables (2048 * aux + 8 * i) 8
    (fld b 31 0, fld b 63 32)

/-- One step run on the registers U0–U7 (R185). -/
def mstepRun (p : MProg) (x : Nat) (us : AMap Nat) (s : MStep) : AMap Nat :=
  let a := mOperand p us x s.a
  let b := mOperand p us x s.b
  let c := mOperand p us x s.c
  let two (r : Nat × Nat) : AMap Nat := tset (tset us s.dst r.1) (s.dst + 1) r.2
  if s.op = 1 then
    if s.mode = 0 then two (splitEM a)
    else if s.mode = 1 then two (splitIF a b (mConst p (s.b - 32 + 1)))
    else two (splitIF a b 0)
  else if s.op = 2 then two (tblStep p a s.aux)
  else
    let r := if s.op = 3 then
        if s.mode = 0 then horner p a (s.b - 32) s.aux (mConst p (s.b - 32 + s.aux))
        else if s.mode = 1 then f32Fma a b c
        else f32Mul a b
      else if s.op = 4 then scaleStep a b
      else if s.op = 5 then (if s.mode = 0 then rseedRecip a else rseedRsqrt a)
      else if s.op = 6 then (if fvIsZero (f32 a) then c else b)
      else if f32IsNan a then f32Nan else f32Min (f32Max a b) c
    tset us s.dst r

/-- A micro-program's result for one input (R184): U0 after the last step. -/
def mprogEval (p : MProg) (x : Nat) : Nat := tget 0 (p.steps.foldl (mstepRun p x) []) 0

/-- The FP32 result of a function for one widened input (R93, R174). -/
def sfnEval (func : Nat) (img : Option Bytes) (x : Nat) : Nat :=
  if func = 0x01 ∨ func = 0x11 then sfnTanh func x
  else if func = 0x02 ∨ func = 0x12 then sfnLogistic func x
  else match img with
    | some b => mprogEval (mprogOf b) x
    | none => 0

/-- An SFN descriptor's work: the bytes written at OUT, its counts and soft faults (R93, R174). -/
def sfnRun (env : Env) (d : SfnD) (img : Option Bytes) (draw : Nat → Nat) : VecOut :=
  let w := fmtBits d.fmtIn / 8
  let pois := env.poisoned d.inp (d.elems * w)
  let xs := (List.range d.elems).map fun e => sfnEval d.func img (wideElem env d.fmtIn (d.inp + e * w))
  let dr : Drain := ⟨d.fmtOut, d.block, d.modeF, d.stoch⟩
  let o := drainRun dr draw xs
  ⟨rowBytes dr o.1 o.2.1, Cnt.add { nonfin := b2n pois } o.2.2, if pois then [0x80] else [], []⟩

/-- The span an SFN reads, and the span it writes. -/
def sfnReads (d : SfnD) : List (Nat × Nat) := [(d.inp, d.inp + d.elems * (fmtBits d.fmtIn / 8))]
def sfnWrites (d : SfnD) : List (Nat × Nat) := [(d.out, d.out + rowLen d.fmtOut d.block d.elems)]

end Sys2Proof.Machine
end

