-- ==== Sys2Proof/Machine/LoadCheck.lean ====
section
/-! DEFINITION. The load checks of core programs (R83, R86, R89–R100, R137, R191, R209, R228, R351, R352, R357, R358): what
each descriptor fails, and the one failure a refused load names. -/

namespace Sys2Proof.Machine

/-! ## Local ranges (R82, R86 check 0x04) -/

/-- The region of a local range: 0 the A buffer, 1 the B buffer, 2 work memory; none when the range crosses an edge. An empty range
lies where its address does. -/
def localRegion (a n : Nat) : Option Nat :=
  let e := a + max 1 n
  if e ≤ 0x10000 then some 0
  else if 0x10000 ≤ a ∧ e ≤ 0x20000 then some 1
  else if 0x20000 ≤ a ∧ e ≤ 0x80000 then some 2
  else none

/-- A local range lies in work memory: the operand buffers are read only by the MATMUL ports and written only by MOVE, prefetch and
MATMUL output (R82; log entry 137). -/
def inWork (a n : Nat) : Bool := localRegion a n == some 2

/-- Bytes from the first to the last of `rows` rows of `n` bytes. -/
def rowsSpan (rows stride n : Nat) : Nat := (rows - 1) * stride + n

/-- Two ranges given as (start, length) share a byte. -/
def meets (a b : Nat × Nat) : Bool := spansOverlap (a.1, a.1 + a.2) (b.1, b.1 + b.2)

/-! ## Reserved fields (check 0x02) -/

/-- The reserved fields of a kind's body; the upper bits of a LADDR field are reserved too (R83). `none`: no such kind. -/
def kindRsvd (b : Bytes) : Option (List (Nat × Nat)) :=
  match fld b 7 0 with
  | 0 => some [(511, 128)]
  | 1 => some [(154, 154), (159, 159), (191, 179), (223, 211), (255, 243), (351, 351), (363, 360), (383, 376), (415, 403), (511, 416)]
  | 2 => some [(159, 154), (191, 179), (223, 211), (255, 243), (287, 275), (319, 307), (511, 382)]
  | 3 => some [(159, 152), (191, 179), (223, 211), (511, 270)]
  | 4 => some [(131, 131), (135, 134), (143, 140), (351, 336), (511, 416)]
  | 5 => some [(143, 139), (151, 151), (159, 153), (511, 168)]
  | 6 => some [(143, 139), (151, 151), (159, 153), (191, 176), (511, 224)]
  | 7 => some ([(159, 152), (511, 268)] ++ (if bit b 135 then [(223, 179)] else []))
  | 8 => some [(175, 168), (223, 208), (255, 243), (511, 256)]
  | 9 => some [(143, 138), (159, 146), (191, 179), (511, 192)]
  | 10 => some [(511, 130)]
  | _ => none

/-- A MOVE in the form of a page read (R357). -/
def isPageRead (x : Dist) (b : Bytes) : Bool :=
  !bit b 128 && fld b 151 144 == poolSeg x && bit b 129 && fld b 139 136 == 0 && !bit b 130

/-- A MOVE in the form of a page write (R358). -/
def isPageWrite (x : Dist) (b : Bytes) : Bool :=
  !bit b 129 && fld b 159 152 == poolSeg x && bit b 128 && fld b 139 136 == 0 && !bit b 130

/-- The fields of a MOVE's offsets that are zero: above a LADDR, and in the page forms (R94, R357, R358). -/
def moveRsvd (x : Dist) (b : Bytes) : List (Nat × Nat) :=
  (if isPageRead x b then [(191, 179), (223, 194)] else if bit b 128 then [(223, 179)] else [])
    ++ (if isPageWrite x b then [(255, 243), (287, 264)] else if bit b 129 then [(287, 243)] else [])

/-- Check 0x02: a known KIND and every reserved field zero (R9, R89, R90). -/
def formOk (x : Dist) (b : Bytes) : Bool :=
  match kindRsvd b with
  | some l => zeroAt b ([(15, 11), (47, 40), (127, 105)] ++ l ++ (if fld b 7 0 = 4 then moveRsvd x b else []))
  | none => false

/-! ## Segments (checks 0x03 and 0x05) -/

/-- What naming a range of a segment fails: presence of its tier, the limit, RO (R50, R86, R228), and the page pool, which
only the page forms may name (R351). -/
def segFails (s : State) (x : Dist) (n off len : Nat) (writes : Bool) : List Nat :=
  match tfind x.segs n with
  | none => [5]
  | some e =>
    (if tierPresent s e.tier then [] else [3])
      ++ (if e.size < off + len ∨ (writes ∧ e.ro) ∨ n = poolSeg x then [5] else [])

/-- `c` when a condition fails. -/
def need (ok : Bool) (c : Nat) : List Nat := if ok then [] else [c]

/-! ## The kinds -/

/-- The prefetch a header requests (R89, R112). -/
def pfFails (s : State) (x : Dist) (b : Bytes) : List Nat :=
  let n := fld b 63 48
  if bit b 10 then
    need (1 ≤ n && n ≤ 256) 6 ++ need (n == 0 || localRegion (256 * fld b 104 96) (256 * n) == some 0 || localRegion (256 * fld b 104 96) (256 * n) == some 1) 4
      ++ segFails s x (fld b 39 32) (256 * fld b 95 64) (256 * n) false
  else need (zeroAt b [(39, 32), (63, 48), (95, 64), (104, 96)]) 6

/-- MATMUL (R91, R126, R137, R143, R150, R192). The operand rows are measured at their least capacity; a row of no valid format
at one byte. -/
def matFails (x : Dist) (b : Bytes) : List Nat :=
  let d := matOf b
  let ra := if fmtValid d.fmtA then operandRowMin d.fmtA false d.k else 1
  let rb := if fmtValid d.fmtB then operandRowMin d.fmtB d.sparse d.k else 1
  let ro := if fmtValid d.fmtOut then matOutRow d else 1
  let a := (d.aAddr, rowsSpan (32 * d.mT) d.aLd ra)
  let bb := (d.bAddr, rowsSpan (24 * d.nT) d.bLd rb)
  let o := (d.outAddr, rowsSpan (32 * d.mT) d.outLd ro)
  let m := (d.maskAddr, cdiv (d.mT * d.nT) 8)
  let fmts := fmtValid d.fmtA && fmtValid d.fmtB && fmtValid d.fmtOut
  let pairOk := fmtInt d.fmtA == fmtInt d.fmtB
      && (if d.split3 then d.fmtA == 1 && d.fmtB == 1 && !d.sparse && !d.zskip else d.fmtA != 1 && d.fmtB != 1)
  let ok6 := fmts && 1 ≤ d.k && 1 ≤ d.mT && 1 ≤ d.nT && pairOk && (!d.sparse || (fmtSparse d.fmtB && d.k % 4 == 0))
      && (!d.zskip || fmtNarrow d.fmtA) && (!d.send || fmtWide d.fmtOut) && (!d.accum || d.fmtOut == 1)
      && (d.mskip || d.maskAddr == 0) && scaleOk d.fmtOut d.block d.modeF d.stoch
      && (fmtWide d.fmtOut || 24 * d.nT % blockElems d.block == 0)
      && (!d.send || d.chunk0 + d.mT * d.nT ≤ 4096) && ra ≤ d.aLd && rb ≤ d.bLd && ro ≤ d.outLd
  let ok4 := localRegion a.1 a.2 == some 0 && localRegion bb.1 bb.2 == some 1
      && (localRegion o.1 o.2 == some 0 || localRegion o.1 o.2 == some 2) && (!d.mskip || localRegion m.1 m.2 == some 2)
      && !meets o a && !meets o bb && !(d.mskip && meets o m)
  need ok6 6 ++ need ok4 4 ++ need (!d.send || x.channels.contains d.group) 7

/-- LANE (R92, R117, R126, R162): the ranges of its streams depend on the lane program and are checked at issue (R163). -/
def laneFails (b : Bytes) : List Nat :=
  let d := laneOf b
  let row := if d.rowLen = 0 then d.elems else d.rowLen
  let ok6 := fmtWide d.fmtIn && fmtValid d.fmtOut && 1 ≤ d.count && d.count ≤ 128 && 1 ≤ d.nin && 1 ≤ d.elems
    && (2 ≤ d.nin || d.in1 == 0) && (3 ≤ d.nin || d.in2 == 0) && d.lp % 8 == 0 && (d.rowLen == 0 || d.elems % d.rowLen == 0)
    && scaleOk d.fmtOut d.block d.modeF d.stoch && (fmtWide d.fmtOut || row % blockElems d.block == 0)
  let addrs := [d.in0, d.out] ++ (if 2 ≤ d.nin then [d.in1] else []) ++ (if 3 ≤ d.nin then [d.in2] else [])
  let ok4 := localRegion d.lp (8 * max 1 d.count) == some 2 && addrs.all fun a => localRegion a 1 == some 2
  need ok6 6 ++ need ok4 4

/-- SFN (R93, R117, R126). A range of no valid format is measured at one byte. -/
def sfnFails (b : Bytes) : List Nat :=
  let d := sfnOf b
  let okF := d.func == 1 || d.func == 2 || d.func == 0x11 || d.func == 0x12 || (0x20 ≤ d.func && d.func ≤ 0x2F)
  let ok6 := okF && fmtWide d.fmtIn && fmtValid d.fmtOut && 1 ≤ d.elems && scaleOk d.fmtOut d.block d.modeF d.stoch
    && (fmtWide d.fmtOut || d.elems % blockElems d.block == 0)
  let ok4 := inWork d.inp (if fmtWide d.fmtIn then d.elems * (fmtBits d.fmtIn / 8) else 1)
    && inWork d.out (if fmtValid d.fmtOut then rowLen d.fmtOut d.block d.elems else 1)
  need ok6 6 ++ need ok4 4

/-- BYTES of a page read's row and its row count (R357); `none` for PART 3 or ROWS out of range. -/
def pagePart (part rows : Nat) : Option (Nat × Nat) :=
  if rows = 0 then none
  else if part = 0 then some (448, 16 * rows)
  else if part = 1 then some (128, 16 * rows)
  else if part = 2 ∧ rows ≤ 16 then some (64 * cdiv (8 * cdiv (16 * rows) 256 + 32 * rows) 64, 384)
  else none

/-- Bytes of a destination row of a MOVE (R211, R212): a CAS writes half of its pairs; an ORDSUM record takes at least BYTES. -/
def dstRowBytes (b : Bytes) : Nat := if fld b 139 136 = 11 ∨ fld b 139 136 = 12 then fld b 319 288 / 2 else fld b 319 288

/-- MOVE (R94, R205, R209, R228) and its page forms (R351, R357, R358). A local source lies in work memory (R82). -/
def moveFails (s : State) (x : Dist) (b : Bytes) : List Nat :=
  let aop := fld b 139 136
  let n := fld b 319 288
  let rows := fld b 335 320
  let ss := fld b 383 352
  let ds := fld b 415 384
  let ok6 := aop ≤ 13 && n % 64 == 0 && 64 ≤ n && 1 ≤ rows && ss % 64 == 0 && ds % 64 == 0
    && (!bit b 128 || fld b 151 144 == 0) && (!bit b 129 || fld b 159 152 == 0)
  let srcLen := rowsSpan rows ss n
  let dstLen := rowsSpan rows ds (dstRowBytes b)
  if isPageRead x b then
    let dst := match pagePart (fld b 193 192) rows with
      | some (bytes, r) =>
        let rg := localRegion (fld b 242 224) (rowsSpan r ds n)
        need (n == bytes && bytes ≤ ds) 6 ++ need (rg == some 0 || rg == some 1) 4
      | none =>
        let rg := localRegion (fld b 242 224) 1
        6 :: need (rg == some 0 || rg == some 1) 4
    need ok6 6 ++ dst ++ need (inWork (fld b 178 160) (4 * rows)) 4
  else if isPageWrite x b then
    let layers := match x.pool with
      | some p => p.layers
      | none => 0
    need (ok6 && n == 512 && 512 ≤ ss && fld b 263 256 < layers) 6
      ++ need (inWork (fld b 178 160) srcLen && inWork (fld b 242 224) (8 * rows)) 4
  else
    let src := if bit b 128 then need (inWork (fld b 178 160) srcLen) 4 else segFails s x (fld b 151 144) (fld b 223 160) srcLen false
    let dst := if bit b 129 then need (localRegion (fld b 242 224) dstLen).isSome 4 else segFails s x (fld b 159 152) (fld b 287 224) dstLen true
    let shared := match tfind x.segs (fld b 159 152) with
      | some e => e.tier == 4 && !e.coded
      | none => false
    let aopOk := aop == 0 || (bit b 128 && !bit b 129 && shared && fld b 287 224 % 64 == 0 && !bit b 130)
    need (ok6 && aopOk) 6 ++ src ++ dst

/-- SIGNAL and WAIT (R95, R96). -/
def signalFails (x : Dist) (b : Bytes) : List Nat :=
  need (decide (fld b 138 128 < 64 * x.q)) 7 ++ need (1 ≤ fld b 167 160 && fld b 167 160 ≤ 8) 6

def waitFails (x : Dist) (b : Bytes) : List Nat := need (decide (fld b 138 128 < 64 * x.q)) 7

/-- COLL (R97, R228, R351). A local buffer lies in work memory (R82). -/
def collFails (s : State) (x : Dist) (b : Bytes) : List Nat :=
  let n := fld b 255 224
  let buf := if bit b 135 then need (fld b 151 144 == 0) 6 ++ need (n == 0 || inWork (fld b 178 160) n) 4
    else segFails s x (fld b 151 144) (fld b 223 160) n (bit b 134)
  need (x.channels.contains (fld b 133 128)) 7 ++ need (fmtValid (fld b 143 136) && n % 64 == 0) 6 ++ buf

/-- WALK (R98, R352). -/
def walkFails (x : Dist) (b : Bytes) : List Nat :=
  let n := fld b 207 192
  let ok6 := match x.pool with
    | some p => fld b 159 128 < p.slots && fld b 167 160 < p.layers && fld b 191 176 + n ≤ p.maxPages && 1 ≤ n
    | none => false
  need ok6 6 ++ need (n == 0 || localRegion (fld b 242 224) (4 * n) == some 2) 4

/-- CENSUS (R99). -/
def censusFails (b : Bytes) : List Nat :=
  let op := fld b 145 144
  let out := fld b 178 160
  need (op != 3 && (if op == 1 then out == 0 else out % 64 == 0)) 6
    ++ need (op == 1 || op == 3 || localRegion out 40 == some 2) 4

/-- The census tags, pairs and slots that a descriptor names are allocated to the district (R21, R86 check 0x07). -/
def allocOk (a : Alloc) (b : Bytes) : Bool :=
  match fld b 7 0 with
  | 1 => fld b 345 336 < a.tags && (!bit b 350 || fld b 353 352 < a.tblSlots)
  | 2 => fld b 377 368 < a.tags
  | 3 => fld b 265 256 < a.tags && (fld b 135 128 < 0x20 || fld b 135 128 < 0x20 + a.uslots)
  | 4 => !bit b 130 || fld b 133 132 < a.tblSlots
  | 5 | 6 => fld b 150 144 < a.pairs
  | 9 => fld b 137 128 < a.tags
  | _ => true

/-- Every check a descriptor fails (R86). A descriptor that fails check 0x02 is not read further. -/
def descFails (s : State) (x : Dist) (b : Bytes) : List Nat :=
  if !formOk x b then [2]
  else
    pfFails s x b ++ need (allocOk x.alloc b) 7 ++ match fld b 7 0 with
      | 1 => matFails x b
      | 2 => laneFails b
      | 3 => sfnFails b
      | 4 => moveFails s x b
      | 5 => signalFails x b
      | 6 => waitFails x b
      | 7 => collFails s x b
      | 8 => walkFails x b
      | 9 => censusFails b
      | 10 => need (fld b 129 128 != 3) 6
      | _ => []

/-! ## The failure a load names (R86) -/

/-- A failed load check: STREAM, INDEX, CHECK. -/
structure LoadFail where
  stream : Nat
  index : Nat
  check : Nat
  deriving DecidableEq, Repr

/-- The class of a check, in the order format, presence, argument, ownership. -/
def checkClass (c : Nat) : Nat := if c ≤ 2 then 0 else if c = 3 then 1 else if c ≤ 6 then 2 else 3

/-- Lexicographic order on lists of numbers. -/
def lexLt : List Nat → List Nat → Bool
  | a :: l, b :: m => decide (a < b) || (a == b && lexLt l m)
  | [], _ :: _ => true
  | _, [] => false

/-- The order in which failures are preferred: class, check 0x01 first, stream, index, check. -/
def LoadFail.key (f : LoadFail) : List Nat := [checkClass f.check, if f.check = 1 then 0 else 1, f.stream, f.index, f.check]

/-- The preferred failure. -/
def worst (l : List LoadFail) : Option LoadFail :=
  l.foldl (fun b f => match b with
    | none => some f
    | some g => some (if lexLt f.key g.key then f else g)) none

/-- The header check (R85, R86). -/
def progHeaderOk (x : Dist) (img : Mem) (len : Nat) : Bool :=
  let h := memRead img 0 64
  64 ≤ len && fld h 31 0 == 0x47525043 && fld h 39 32 == 1 && zeroAt h [(63, 48), (191, 128), (511, 256)] && fld h 47 40 == x.q
    && fld h 95 64 == len && fld h 127 96 == 64 * x.q && 64 + 16 * (64 * x.q) ≤ len

/-- What one stream fails: its directory record, else its descriptors (R85, R86). Reserved bits of the record, like those of the
header, are part of check 0x01 (DESIGN CHOICE: log entry 138). -/
def streamFails (s : State) (x : Dist) (img : Mem) (len core : Nat) : List LoadFail :=
  let r := memRead img (64 + 16 * core) 16
  let off := fld r 63 0
  let n := fld r 95 64
  if !(zeroAt r [(127, 96)] && off % 64 == 0 && 1 ≤ n && off + 64 * n ≤ len) then [⟨core, 0xFFFFFFFF, 1⟩]
  else (List.range n).flatMap fun i => (descFails s x (memRead img (off + 64 * i) 64)).map fun c => ⟨core, i, c⟩

/-- The failure of an image against a district, if any (R86). -/
def loadFail (s : State) (x : Dist) (img : Mem) (len : Nat) : Option LoadFail :=
  if !progHeaderOk x img len then some ⟨0xFFFFFFFF, 0xFFFFFFFF, 1⟩
  else worst ((List.range (64 * x.q)).flatMap (streamFails s x img len))

/-- The status of a failed check (R86). -/
def checkStatus (c : Nat) : Nat :=
  match checkClass c with
  | 0 => badFormat.status
  | 1 => notPresent.status
  | 2 => badArgument.status
  | _ => denied.status

end Sys2Proof.Machine
end

