-- ==== Sys2Proof/Machine/Cores.lean ====
section
/-! DEFINITION. Issue, hazards and the arithmetic of descriptors (R82, R88–R106): a descriptor issues in program order, begins
once nothing earlier stands in its way, and completes in program order. Transfers are in Transfers.lean. -/

namespace Sys2Proof.Machine

/-! ## What a descriptor touches (R102, R103) -/

/-- The local spans, half open, that a descriptor reads and writes (R102). -/
def localSpans (x : Dist) (c : Core) (b : Bytes) : List (Nat × Nat) × List (Nat × Nat) :=
  match fld b 7 0 with
  | 1 => (matReads (matOf b), matWrites (matOf b))
  | 2 => let p := laneProg (memRead c.sram) (laneOf b); (laneReads (laneOf b) p, laneWrites (laneOf b) p)
  | 3 => (sfnReads (sfnOf b), sfnWrites (sfnOf b))
  | 4 =>
    let rows := fld b 335 320
    let n := fld b 319 288
    let src := (fld b 178 160, fld b 178 160 + rowsSpan rows (fld b 383 352) n)
    if isPageRead x b then
      let r := match pagePart (fld b 193 192) rows with
        | some (_, r) => r
        | none => 0
      ([(fld b 178 160, fld b 178 160 + 4 * rows)], [(fld b 242 224, fld b 242 224 + rowsSpan r (fld b 415 384) n)])
    else if isPageWrite x b then ([src, (fld b 242 224, fld b 242 224 + 8 * rows)], [])
    else
      (if bit b 128 then [src] else [],
       (if bit b 129 then [(fld b 242 224, fld b 242 224 + rowsSpan rows (fld b 415 384) n)] else [])
         ++ (if fld b 139 136 = 11 ∨ fld b 139 136 = 12 then [src] else []))
  | 7 =>
    let r := [(fld b 178 160, fld b 178 160 + fld b 255 224)]
    if !bit b 135 then ([], []) else if bit b 134 then ([], r) else (r, [])
  | 8 => ([], [(fld b 242 224, fld b 242 224 + 4 * fld b 207 192)])
  | 9 => ([], if fld b 145 144 = 1 then [] else [(fld b 178 160, fld b 178 160 + 40)])
  | _ => ([], [])

/-- A WALK, page read or page write: these execute in program order among themselves (R359). -/
def isPageOp (x : Dist) (b : Bytes) : Bool := fld b 7 0 == 8 || (fld b 7 0 == 4 && (isPageRead x b || isPageWrite x b))

/-- One district-address span of a MOVE or COLL: start, end, and whether it is written; the segment as it was latched. -/
def segSpan (q : QEntry) (seg off n : Nat) (w : Bool) : List (Nat × Nat × Bool) := match tfind q.segs seg with
  | some e => [(e.dbase + off, e.dbase + off + n, w)]
  | none => []

/-- Bytes of a destination row that a MOVE may touch (R103): a combine record with its staging rows and result row at most
(R212), half of a CAS's pairs (R211). -/
def dstRowSpan (b : Bytes) : Nat := if fld b 139 136 = 13 then 64 + 17 * (fld b 319 288 - 64) else dstRowBytes b

/-- The district-address spans of a MOVE or COLL (R103). -/
def distSpans (x : Dist) (q : QEntry) : List (Nat × Nat × Bool) :=
  let b := q.raw
  if isPageOp x b then []
  else if fld b 7 0 = 4 then
    (if bit b 128 then [] else segSpan q (fld b 151 144) (fld b 223 160) (rowsSpan (fld b 335 320) (fld b 383 352) (fld b 319 288)) false)
      ++ (if bit b 129 then [] else segSpan q (fld b 159 152) (fld b 287 224) (rowsSpan (fld b 335 320) (fld b 415 384) (dstRowSpan b)) true)
  else if fld b 7 0 = 7 && !bit b 135 then segSpan q (fld b 151 144) (fld b 223 160) (fld b 255 224) (bit b 134)
  else []

/-- Two lists of spans overlap. -/
def anyOverlap (a b : List (Nat × Nat)) : Bool := a.any fun x => b.any (spansOverlap x)

/-- Two lists of district spans overlap and one of the two overlapping spans is written. -/
def distClash (a b : List (Nat × Nat × Bool)) : Bool :=
  a.any fun x => b.any fun y => (x.2.2 || y.2.2) && spansOverlap (x.1, x.2.1) (y.1, y.2.1)

/-- The move unit runs a kind (R90). -/
def isMoveKind (k : Nat) : Bool := k == 4 || k == 7 || k == 8

/-- The local range a prefetch writes (R112). -/
def pfSpan (p : Prefetch) : List (Nat × Nat) := match p.x.dst with
  | .lcl a => [(a, a + p.x.rowBytes)]
  | .seg _ _ _ => []

/-- An earlier descriptor or prefetch may still write the program of a LANE that has not begun: its ranges are not known yet. -/
def laneOpen (x : Dist) (c : Core) (i : Issued) : Bool :=
  let l := laneOf i.q.raw
  let prog := [(l.lp, l.lp + 8 * l.count)]
  fld i.q.raw 7 0 == 2 && !i.begun
    && (c.issued.any (fun e => e.q.idx < i.q.idx && anyOverlap (localSpans x c e.q.raw).2 prog)
      || c.prefetches.any fun p => p.idx < i.q.idx && anyOverlap (pfSpan p) prog)

/-- The local spans of an issued descriptor (R102, R163): a begun LANE's as its program gave them; while an earlier write of its program
is outstanding, any part of work memory may be among a LANE's (log entry 153). -/
def spansOf (x : Dist) (c : Core) (i : Issued) : List (Nat × Nat) × List (Nat × Nat) :=
  match i.spans with
  | some t => t
  | none => if laneOpen x c i then ([(0x20000, 0x80000)], [(0x20000, 0x80000)]) else localSpans x c i.q.raw

/-- An earlier issued descriptor stands in the way of accesses to local spans (R102). -/
def issuedBlocks (x : Dist) (c : Core) (e : Issued) (reads writes : List (Nat × Nat)) : Bool :=
  let t := spansOf x c e
  anyOverlap t.2 (reads ++ writes) || (!workDone e && anyOverlap t.1 writes)

/-- An issued descriptor may begin: no earlier descriptor or prefetch stands in its way (R101, R102, R103, R112, R359). -/
def mayBegin (x : Dist) (c : Core) (i : Issued) : Bool :=
  let t := if fld i.q.raw 7 0 = 2 then localSpans x c i.q.raw else spansOf x c i
  let mover := isMoveKind (fld i.q.raw 7 0)
  (c.issued.all fun e => i.q.idx ≤ e.q.idx
    || (!issuedBlocks x c e t.1 t.2
      && (workDone e || (!distClash (distSpans x e.q) (distSpans x i.q) && !(isPageOp x e.q.raw && isPageOp x i.q.raw)))
      && (!mover || e.begun || workDone e || !isMoveKind (fld e.q.raw 7 0))))
    && c.prefetches.all fun p => i.q.idx ≤ p.idx || (!anyOverlap (pfSpan p) (t.1 ++ t.2) && (!mover || p.begun))

/-- A prefetch may begin: it counts as a write at its carrier's place (R112). -/
def mayPrefetch (x : Dist) (c : Core) (p : Prefetch) : Bool :=
  (c.issued.all fun e => p.idx < e.q.idx
    || (!issuedBlocks x c e [] (pfSpan p) && (e.begun || workDone e || !isMoveKind (fld e.q.raw 7 0))))
    && c.prefetches.all fun e => p.idx ≤ e.idx || (!anyOverlap (pfSpan e) (pfSpan p) && e.begun)

/-! ## When cores run -/

/-- The quarters have power and clocks (R20, R402, R439). -/
def quartersRun (s : State) : Bool := s.pwr.state ≤ 1 && !s.pwr.clocksStopped && !s.pins.sysRst

/-- Issued descriptors of a district go on: while it runs, drains or is FAULTED, and not once a pause has drained it (R108,
R378). -/
def coresWork (s : State) (d : Nat) : Bool :=
  let x := getDist s d
  quartersRun s && (x.state == 3 || x.state == 6 || (x.state == 4 && x.pause.all fun p => p.drained.isNone))

/-- Work begins, and WAITs run: not while the engines stop for a pause (R378). -/
def coresStart (s : State) (d : Nat) : Bool := coresWork s d && (getDist s d).state != 4

/-- The step number of a district's draws (R124). -/
def drawStep (x : Dist) : Nat := if x.serving then x.bstep else x.gate.step

/-! ## The bridge (R13) -/

/-- A transfer between two quarters crosses the bridge. -/
def crossesBridge (a b : Nat) : Bool := a / 16 != b / 16

/-- The places in the order of issue of the SIGNALs under way over the bridge from one quarter to another. -/
def sigsToward (s : State) (d src dst : Nat) : List Nat :=
  if !crossesBridge src dst then []
  else (getDist s d).cores.flatMap fun c =>
    if coreQuarter s d c.1 != src then [] else c.2.issued.filterMap fun i => match i.work with
      | .sig n => if coreQuarter s d (fld i.q.raw 138 128) = dst then some n else none
      | _ => none

/-- What an engine of a core sees. -/
def coreEnv (s : State) (d core : Nat) : Env :=
  let c := getCore s d core
  { rd := memRead c.sram, poisoned := anyPoison c.poison, slots := slotViews s d }

/-! ## Beginning (R102) -/

/-- A soft fault of an arithmetic descriptor: POISON counts one non-finite input, once per descriptor (R108, R129). -/
def softOnce (s : State) (d core idx code tag : Nat) : State :=
  match findIssued (getCore s d core) idx with
  | some i => if i.softs.contains code then s
    else softFault (if code = 0x80 then censusAdd s d tag (coreSource s d core) { nonfin := 1 } else s) d core idx code
  | none => s

/-- An issued descriptor marked begun, with its work. -/
def beginAs (s : State) (d core idx : Nat) (w : Work) : State :=
  modCore s d core fun c => modIssued c idx fun i => { i with begun := true, work := w }

/-- The outcome of a LANE or SFN: bytes at an address, counts in a tag, soft faults. -/
def vecApply (s : State) (d core idx out tag : Nat) (r : VecOut) : State :=
  let s := beginAs (modCore s d core fun c => { sramWrite c out r.bytes with vregs := r.regs.foldl (fun m e => tset m e.1 e.2) c.vregs }) d core idx .fin
  let s := censusAdd s d tag (coreSource s d core) r.cnt
  r.softs.foldl (fun s k => softFault s d core idx k) s

/-- A LANE runs (R92, R163). -/
def runLane (d core : Nat) (i : Issued) (s : State) : State :=
  let l := laneOf i.q.raw
  let s := modCore s d core fun c => modIssued c i.q.idx fun j => { j with spans := some (localSpans (getDist s d) c i.q.raw) }
  vecApply s d core i.q.idx l.out l.ctag (laneRun (coreEnv s d core) l (srDraw (drawStep (getDist s d)) l.ctag core i.q.idx))

/-- An SFN runs; an empty slot is SLOT_EMPTY (R93). -/
def runSfn (d core : Nat) (i : Issued) (s : State) : State :=
  let f := sfnOf i.q.raw
  let img := if 0x20 ≤ f.func then tfind (getDist s d).uslots (f.func - 0x20) else none
  if 0x20 ≤ f.func ∧ img = none then hardFault s d core i.q.idx 5
  else vecApply s d core i.q.idx f.out f.ctag (sfnRun (coreEnv s d core) f img (srDraw (drawStep (getDist s d)) f.ctag core i.q.idx))

/-- A CENSUS reads, resets, or both in one action (R99). -/
def runCensus (d core : Nat) (i : Issued) (s : State) : State :=
  let b := i.q.raw
  let op := fld b 145 144
  let tag := fld b 137 128
  let words := (cntList (tget {} (getDist s d).census tag).cnt).flatMap (leBytes 8)
  let s := if op = 1 then s else modCore s d core fun c => sramWrite c (fld b 178 160) words
  let s := if op = 0 then s else modDist s d fun x => { x with census := tdel x.census tag }
  beginAs s d core i.q.idx .fin

/-- A WALK (R98, R354): its words are written when it starts, since no edit applies before it ends (R356). -/
def runWalk (d core : Nat) (i : Issued) (s : State) : State :=
  let b := i.q.raw
  match (getDist s d).pool with
  | none => hardFault s d core i.q.idx 7
  | some p =>
    let q := getSeq p (fld b 159 128)
    if q.edits ≠ [] then s
    else match walkWords p q (fld b 167 160) (fld b 191 176) (fld b 207 192) with
      | none => hardFault s d core i.q.idx 7
      | some w => beginAs (modCore s d core fun c => sramWrite c (fld b 242 224) w) d core i.q.idx .fin

/-- A COLL reaches the collective engine (R97, R274). -/
def runColl (d core : Nat) (i : Issued) (s : State) : State :=
  let b := i.q.raw
  let n := fld b 151 144
  let seg := if bit b 135 then none else (tfind i.q.segs n).map fun e => (n, e)
  collRequest (fld b 133 128)
    { d := d, core := core, idx := i.q.idx, put := !bit b 134, tile := false, chunk := fld b 267 256, at_ := time s
      addr := if bit b 135 then fld b 178 160 else fld b 223 160, bytes := fld b 255 224, fmt := fld b 143 136, seg := seg }
    (beginAs s d core i.q.idx .coll)

/-- A MATMUL begins (R142, R146, R152): it reads its mask bitmap and takes its start cycles. -/
def beginMat (d core : Nat) (i : Issued) (w : Work) (s : State) : State :=
  let m := matOf i.q.raw
  let env := coreEnv s d core
  let s := modCore (beginAs s d core i.q.idx w) d core fun c => modIssued c i.q.idx fun j => { j with mask := maskRead env m }
  let s := addWork s d core { busy := 48 }
  if maskPois env m then softOnce s d core i.q.idx 0x80 m.ctag else s

/-- One tile of the MATMUL in the matrix engine drains (R138–R152). A chunk of SEND goes to the collective engine, and the
next tile waits until it is taken (R151). -/
def drainTile (d core : Nat) (s : State) : State :=
  let c := getCore s d core
  match c.issued.find? fun i => fld i.q.raw 7 0 == 1 && i.begun && !workDone i with
  | none => s
  | some i =>
    match i.work with
    | .mat t false part =>
      let m := matOf i.q.raw
      let marked := (matReads m).take 2 |>.any fun r => anySkip c r.1 (r.2 - r.1)
      let o := tileDrain (coreEnv s d core) m t marked i.mask part (drawStep (getDist s d)) core i.q.idx
      let s := modCore s d core fun c => o.writes.foldl (fun c w => sramWrite c w.1 w.2) c
      let s := censusAdd s d m.ctag (coreSource s d core) o.cnt
      let s := o.softs.foldl (fun s k => softOnce s d core i.q.idx k m.ctag) s
      let waited : WorkCnt := { busy := i.stall - o.work.busy }
      let s := addWork s d core ((if t + 1 = matTiles m then o.work.add { busy := 24 } else o.work).add waited)
      let s := modCore (setWork s d core i.q.idx (.mat (t + 1) m.send o.part)) d core fun c =>
        modIssued c i.q.idx fun j => { j with stall := 0, holdAt := tget 0 s.cyc (coreQuarter s d core) }
      if m.send then
        collRequest m.group
          { d := d, core := core, idx := i.q.idx, put := true, tile := true, chunk := m.chunk0 + t, at_ := time s, addr := 0, bytes := cdiv o.chunk.length 64 * 64
            fmt := m.fmtOut, data := slice o.chunk 0 (cdiv o.chunk.length 64 * 64) } s
      else s
    | _ => s

end Sys2Proof.Machine
end

