-- ==== Sys2Proof/Machine/Transfers.lean ====
section
/-! DEFINITION. The move unit (R94, R112, R191–R205, R206–R213, R222, R223, R229–R233, R357, R358): MOVE, its atomics, page
reads and page writes, prefetches, and their deadlines. A transfer advances piece by piece: memory transactions of up to 512 bytes,
in the order their channel schedules, and slice accesses. Pieces are cut at the destination's edges. -/

namespace Sys2Proof.Machine

/-! ## Ends -/

/-- Bytes at an offset from an end's start. -/
def endRead (s : State) (d core : Nat) (e : End) (o n : Nat) : Bytes := match e with
  | .lcl a => memRead (getCore s d core).sram (a + o) n
  | .seg _ g off => segRead s g (off + o) n

/-- The poisoned granules, in the end's own space, of a range. -/
def endPoison (s : State) (d core : Nat) (e : End) (o n : Nat) : List Nat := match e with
  | .lcl a => (granules (a + o) n).filter (getCore s d core).poison.contains
  | .seg _ g off => segPoison s g (off + o) n

/-- Bytes and poison marks written at an offset from an end's start. -/
def endWrite (s : State) (d core : Nat) (e : End) (o : Nat) (b : Bytes) (gs : List Nat) : State := match e with
  | .lcl a => modCore s d core fun c => sramMark (sramWrite c (a + o) b) gs
  | .seg _ g off => segMark (segWrite s g (off + o) b) g gs

/-- An end whose accesses pass through a slice (R206, R207). -/
def endSlice : End → Bool
  | .lcl _ => false
  | .seg _ g _ => g.tier == 4 || g.cached

/-- An end in near, board or flash memory. -/
def endMem : End → Bool
  | .lcl _ => false
  | .seg _ g _ => g.tier != 4

/-! ## One piece of a copy (R94, R203, R205) -/

/-- The bytes one piece writes, how far the transfer advances, and whether a place erred. -/
structure Piece where
  data : Bytes
  adv : Nat
  err : Bool
  deriving DecidableEq, Repr

/-- The next piece of a coded row at its source offset, `o` bytes into the row with `left` bytes to go: a place's header and
payload (R205), or the rest of the row after a header error or past its last place (R203; log entry 36). -/
def codedPiece (views : Nat → SlotView) (recode : Option Nat) (rd : Nat → Nat → Bytes) (so o left : Nat) : Piece :=
  let h := rd so 8
  let p := placeOf h
  let cap := placeCap p.fmt p.block p.sparse p.nelem
  if left < 8 ∨ (o ≠ 0 ∧ h = zeros 8) then ⟨rd so left, left, false⟩
  else match recode with
    | none => if placeHdrOk p && cap ≤ left then ⟨rd so (8 + p.clen), cap, false⟩ else ⟨rd so left, left, true⟩
    | some slot =>
      if !placeSized p || left < cap then ⟨rd so left, left, true⟩
      else
        let got := if placeHdrOk p then decodePayload views p (rd (so + 8) p.clen) else none
        match got with
        | some v => ⟨encodePlace (views slot) slot p.fmt p.block p.modeF p.sparse v, cap, false⟩
        | none => ⟨encodePlace ⟨none, 0⟩ 0 p.fmt p.block p.modeF p.sparse (zeroFill p), cap, true⟩

/-- The next piece of a transfer: where the row is not coded, up to the destination's next edge of `lim` bytes (R222, R223). -/
def nextPiece (s : State) (d core : Nat) (x : Xfer) (coded : Bool) (lim : Nat) : Piece :=
  let a := xferAt x
  if coded || x.recode.isSome then
    codedPiece (slotViews s d) x.recode (endRead s d core x.src) a.1 (x.pos % max 1 x.rowBytes) a.2.2
  else
    let n := min (lim - (endBase x.dst + a.2.1) % max 1 lim) a.2.2
    ⟨endRead s d core x.src a.1 n, n, false⟩

/-- One piece of a copy performed: bytes, and poison with them (R222). The flags: poison was met at either end; a place erred. -/
def copyPiece (s : State) (d core : Nat) (x : Xfer) (coded : Bool) (lim : Nat) : State × Xfer × Bool × Bool :=
  let a := xferAt x
  let p := nextPiece s d core x coded lim
  let so := endBase x.src + a.1
  let dof := endBase x.dst + a.2.1
  let n := if x.recode.isSome then p.adv else p.data.length
  let pg := endPoison s d core x.src a.1 n
  let dg := endPoison s d core x.dst a.2.1 p.data.length
  let marks := if x.recode.isSome then (if pg = [] then [] else granules dof p.data.length) else pg.flatMap (poisonTo so dof n)
  (endWrite s d core x.dst a.2.1 p.data marks, { x with pos := x.pos + max 1 p.adv }, pg != [] || dg != [], p.err)

/-! ## Page reads and page writes (R357, R358) -/

/-- Where a page's token row lies in the pool's segment (R349): row r at bytes 495r of its 8,192-byte slot. -/
def tokenRow (page row : Nat) : Nat := page * 8192 + row * 495

/-- What a page word delivers for a token row (R354, R357): its page, none for a zero row, or a fault. -/
inductive RowOf where
  | page (n : Nat)
  | zero
  | bad
  deriving DecidableEq, Repr

/-- The token row `t` of a page word in a pool of `pages` pages. -/
def rowOf (pages : Nat) (word t : Nat) : RowOf :=
  let n := word % 2 ^ 28
  if n = 0x0FFFFFFF then .zero
  else if pages ≤ n then .bad
  else if word / 2 ^ 28 < t then .zero
  else .page n

/-- The 495 bytes of a token row and whether one of its granules is poisoned; zeros for a row beyond NROWS. -/
def rowBytes495 (s : State) (e : Seg) (t : Nat) : RowOf → Bytes × Bool
  | .page n => (segRead s e (tokenRow n t) 495, segPoison s e (tokenRow n t) 495 != [])
  | _ => (zeros 495, false)

/-- One raw place over FP8-E4M3 elements with BLOCK 1 (R357). -/
def rawFp8 (n : Nat) (elems scales : Bytes) : Bytes :=
  placeBytes { slot := 0, gen := 0, raw := true, sparse := false, fmt := 4, block := 1, modeF := false, rsvd := false, nelem := n,
               clen := elems.length + scales.length } ++ elems ++ scales

/-- The pieces of a delivered row of PART 0 or 1: offset in the row and bytes (R357); slack stays unwritten (R205). -/
def pagePartRow (part : Nat) (b : Bytes) : List (Nat × Bytes) :=
  if part = 0 then
    [(0, rawFp8 256 (slice b 0 256) (slice b 384 8)), (272, rawFp8 128 (slice b 256 128) (slice b 392 4)), (416, zeros 32)]
  else [(0, rawFp8 96 (slice b 396 96) (slice b 492 3)), (112, zeros 16)]

/-- One latent element of a token row as BF16, the exact product of element and scale (R357). -/
def latentBf16 (b : Bytes) (j : Nat) : Nat :=
  toBf16 (scaledValue 4 false (fld (slice b (384 + j / 32) 1) 7 0) (fld (slice b j 1) 7 0)) / 65536

/-- Word `i` of a list of page words or targets of `w` bytes in local SRAM; a poisoned one reads as zeros. -/
def listWord (c : Core) (a w i : Nat) : Nat := if anyPoison c.poison (a + w * i) w then 0 else leNat (memRead c.sram (a + w * i) w)

/-- One delivered row of a page read: the state after, whether poison was met, or WALK_FAULT. -/
def pageReadRow (s : State) (d core : Nat) (b : Bytes) (e : Seg) (pages i : Nat) : Option (State × Bool) :=
  let c := getCore s d core
  let list := fld b 178 160
  let word (k : Nat) : Nat := listWord c list 4 k
  let listPois := anyPoison c.poison list (4 * fld b 335 320)
  let dst := fld b 242 224 + i * fld b 415 384
  let put (ps : List (Nat × Bytes)) (pois : Bool) : State :=
    modCore s d core fun c =>
      let c := ps.foldl (fun c p => sramWrite c (dst + p.1) p.2) c
      if pois then sramMark c (granules dst (fld b 319 288)) else c
  if fld b 193 192 = 2 then
    let rows := (List.range (fld b 335 320)).flatMap fun k => (List.range 16).map fun t => (t, rowOf pages (word k) t)
    if rows.any fun r => r.2 == .bad then none
    else
      let bs := rows.map fun r => rowBytes495 s e r.1 r.2
      let pois := bs.any (·.2)
      let vals := bs.map fun r => latentBf16 r.1 i
      some (put (encodeRow ⟨none, 0⟩ 0 2 0 false vals []) pois, pois || listPois)
  else
    match rowOf pages (word (i / 16)) (i % 16) with
    | .bad => none
    | r =>
      let q := rowBytes495 s e (i % 16) r
      some (put (pagePartRow (fld b 193 192) q.1) q.2, q.2 || listPois)

/-- One target of a page write (R358). -/
def pageWriteRow (s : State) (d core : Nat) (b : Bytes) (e : Seg) (pages i : Nat) : Option (State × Bool) :=
  let c := getCore s d core
  let t := listWord c (fld b 242 224) 8 i
  let listPois := anyPoison c.poison (fld b 242 224) (8 * fld b 335 320)
  let page := t % 2 ^ 32 + fld b 263 256
  let src := fld b 178 160 + i * fld b 383 352
  if t / 2 ^ 63 = 1 then some (s, listPois)
  else if pages ≤ page then none
  else
    let off := tokenRow page (t / 2 ^ 32 % 16)
    let gs := (granules src 495).filter c.poison.contains
    let dg := segPoison s e off 495
    some (segMark (segWrite s e off (memRead c.sram src 495)) e (gs.flatMap (poisonTo src off 495)), gs != [] || dg != [] || listPois)

/-! ## Building transfers -/

/-- A deadline instant (R229). -/
def deadlineOf (x : Dist) (e : Seg) : Option Nat :=
  if e.deadlineUs = 0 then none else x.run.map fun r => r.tStart + 1000 * e.deadlineUs

/-- An end that a MOVE names: a local address or an offset in a latched segment; none when the segment is gone. -/
def moveEnd (q : QEntry) (isLocal : Bool) (laddr seg off : Nat) : Option End :=
  if isLocal then some (.lcl laddr) else (tfind q.segs seg).map fun e => .seg seg e off

/-- A range that a latched segment does not hold, or may not be written (R227, R228). -/
def pastLimit (e : End) (n : Nat) (writes : Bool) : Bool := match e with
  | .lcl _ => false
  | .seg _ g off => g.size < off + n || (writes && g.ro)

/-- The transfer of a MOVE (R94), or none when a range lies outside its latched segment: SEGMENT_LIMIT (R227). -/
def moveXfer (x : Dist) (now : Nat) (q : QEntry) : Option Xfer :=
  let b := q.raw
  let n := fld b 319 288
  let rows := fld b 335 320
  let ss := fld b 383 352
  let ds := fld b 415 384
  let aop := fld b 139 136
  let dl (e : End) : Option Nat := match e with
    | .seg _ g _ => deadlineOf x g
    | .lcl _ => none
  if isPageRead x b ∨ isPageWrite x b then
    match tfind q.segs (poolSeg x), pagePart (fld b 193 192) rows with
    | some e, part =>
      if isPageRead x b then part.map fun p =>
        { src := .seg (poolSeg x) e 0, dst := .lcl (fld b 242 224), rowBytes := 1, rows := p.2, srcStride := 0, dstStride := ds, deadline := deadlineOf x e
          page := true, at_ := now, since := now }
      else some { src := .lcl (fld b 178 160), dst := .seg (poolSeg x) e 0, rowBytes := 1, rows := rows, srcStride := ss, dstStride := 0, page := true, at_ := now
                  since := now }
    | none, _ => none
  else
    match moveEnd q (bit b 128) (fld b 178 160) (fld b 151 144) (fld b 223 160), moveEnd q (bit b 129) (fld b 242 224) (fld b 159 152) (fld b 287 224) with
    | some src, some dst =>
      let dn := if aop = 13 then 64 else if aop = 11 ∨ aop = 12 then n / 2 else n
      let shared := match dst with
        | .seg _ g _ => g.tier == 4 && !g.coded
        | .lcl _ => false
      if pastLimit src (rowsSpan rows ss n) false || pastLimit dst (rowsSpan rows ds dn) true || (aop != 0 && !shared) then none
      else some { src := src, dst := dst, rowBytes := n, rows := rows, srcStride := ss, dstStride := ds, aop := aop
                  recode := if bit b 130 then some (fld b 133 132) else none, deadline := dl src, at_ := now, since := now }
    | _, _ => none

/-- The prefetch a header carries (R89, R112), or none when its range lies outside its latched segment. -/
def pfXfer (x : Dist) (now : Nat) (q : QEntry) : Option Xfer :=
  let b := q.raw
  let n := 256 * fld b 63 48
  match tfind q.segs (fld b 39 32) with
  | none => none
  | some e =>
    if e.size < 256 * fld b 95 64 + n then none
    else some { src := .seg (fld b 39 32) e (256 * fld b 95 64), dst := .lcl (256 * fld b 104 96), rowBytes := n, rows := 1, srcStride := 0
                dstStride := 0, deadline := deadlineOf x e, at_ := now, since := now }

/-! ## Advancing -/

/-- The transfer of an issued MOVE, or of a prefetch. -/
def findXfer (c : Core) (idx : Nat) (pf : Bool) : Option Xfer :=
  if pf then (c.prefetches.find? fun p => p.idx == idx).map (·.x)
  else match findIssued c idx with
    | some i => match i.work with
      | .xfer x => some x
      | _ => none
    | none => none

/-- A transfer replaced, and begun; its next transaction waits from now on; a complete one leaves its descriptor nothing more to do. -/
def setXfer (s : State) (d core idx : Nat) (pf : Bool) (y : Xfer) : State :=
  let x := { y with since := time s }
  if pf then modCore s d core fun c => { c with prefetches := c.prefetches.map fun p => if p.idx = idx then { p with x := x, begun := true } else p }
  else beginAs s d core idx (if xferDone x then .fin else .xfer x)

/-- A transfer may move bytes now (R101, R102); while its district drains, only up to its next resumable point (R378). -/
def xferReady (s : State) (d core idx : Nat) (pf : Bool) : Bool :=
  let c := getCore s d core
  coresWork s d && (coresStart s d || (findXfer c idx pf).any fun x => !resumable x) && (if pf then (match c.prefetches.find? fun p => p.idx == idx with
      | some p => mayPrefetch (getDist s d) c p
      | none => false)
    else match findIssued c idx with
      | some i => mayBegin (getDist s d) c i
      | none => false)

/-- A soft fault of a MOVE: POISON counts one non-finite input in tag 1,023 once, a decode error one per place (R129, R203,
R222). A prefetch is no descriptor and takes none. -/
def moveSofts (s : State) (d core idx : Nat) (pf pois err : Bool) : State :=
  if pf then s
  else
    let s := if pois then softOnce s d core idx 0x80 1023 else s
    if err then softOnce (countSoft s d core) d core idx 0x81 1023 else s

/-- A read of flash takes its bytes from staging (R235, R236). -/
def useSource (s : State) (x : Xfer) : State := match x.src with
  | .seg _ e off => useStaged s e (off + (xferAt x).1) (min 2048 (xferAt x).2.2)
  | .lcl _ => s

/-- The next piece of a plain transfer, or the next row of a page transfer. A read cancelled by SKIP moves nothing (R233). -/
def advance (s : State) (d core idx : Nat) (pf : Bool) (lim : Nat) (x : Xfer) : State :=
  if xferDone x ∨ x.fell = some 2 then s
  else if x.page then
    match findIssued (getCore s d core) idx, (getDist s d).pool with
    | some i, some p =>
      let r := match x.src, x.dst with
        | .seg _ e _, _ => pageReadRow s d core i.q.raw e p.pages x.pos
        | _, .seg _ e _ => pageWriteRow s d core i.q.raw e p.pages x.pos
        | _, _ => none
      (match r with
       | none => hardFault s d core idx 7
       | some (s, pois) => setXfer (moveSofts s d core idx pf pois false) d core idx pf { x with pos := x.pos + 1 })
    | _, _ => hardFault s d core idx 7
  else
    let r := copyPiece (useSource s x) d core x (endCoded x.src || endCoded x.dst) lim
    setXfer (moveSofts r.1 d core idx pf r.2.2.1 r.2.2.2) d core idx pf r.2.1

/-- A transfer between two local ranges runs as it begins; `fuel` bounds its pieces. -/
def runLocal (d core idx : Nat) : Nat → State → State
  | 0, s => s
  | fuel + 1, s =>
    match findXfer (getCore s d core) idx false with
    | some x => runLocal d core idx fuel (advance s d core idx false 512 x)
    | none => s

/-! ## Channels (R215, R216, R220) -/

/-- The memory channel of a byte of a backing (R215, R220). -/
def chanOf (b : Backing) (off : Nat) : Nat :=
  let n := max 1 b.units.length
  let g := off / 512
  if b.tier = 1 then siteOf b off * 32 + (g / n % 32).xor (g / (32 * n) % 32) else 256 + siteOf b off * 4 + g % 4

/-- A channel carries `n` bytes of a granule: it keeps its direction or turns, and its bank's row opens (R216). -/
def chanServe (s : State) (ch bid off n : Nat) (write : Bool) : State :=
  let r := Config.bankRow bid off
  { s with chans := tmod {} s.chans ch fun x =>
    { x with writing := write, moved := if x.writing = write then min 16384 (x.moved + n) else n, rows := tset x.rows r.1 r.2 } }

/-- The channels of a range of a backing each carry their part of it, granule by granule (R215, R220). -/
def chanRange (s : State) (bid off n : Nat) (write : Bool) : State :=
  (unitsOf 512 off n).foldl (fun s g =>
    let lo := max off (512 * g)
    chanServe s (chanOf (getBack s bid) lo) bid lo (min (off + n) (512 * g + 512) - lo) write) s

/-- The pool address of a page transfer's row: its word or target's first page (R357, R358). -/
def pageAddr (c : Core) (b : Bytes) (read : Bool) (i : Nat) : Nat :=
  if read then (if fld b 193 192 = 2 then tokenRow (listWord c (fld b 178 160) 4 0 % 2 ^ 28) 0
    else tokenRow (listWord c (fld b 178 160) 4 (i / 16) % 2 ^ 28) (i % 16))
  else
    let t := listWord c (fld b 242 224) 8 i
    tokenRow (t % 2 ^ 32 + fld b 263 256) (t / 2 ^ 32 % 16)

/-- The near or board end of a transfer, its address now, and whether it is written. -/
def memEnd (c : Core) (b : Bytes) (x : Xfer) : Option (Seg × Nat × Bool) :=
  let a := if x.page then (pageAddr c b true x.pos, pageAddr c b false x.pos, 0) else xferAt x
  match x.src, x.dst with
  | .seg _ e off, _ => if e.tier = 1 ∨ e.tier = 2 then some (e, off + a.1, false) else match x.dst with
    | .seg _ g o => if g.tier = 1 ∨ g.tier = 2 then some (g, o + a.2.1, true) else none
    | .lcl _ => none
  | _, .seg _ g o => if g.tier = 1 ∨ g.tier = 2 then some (g, o + a.2.1, true) else none
  | _, _ => none

/-- An error lies within the 512 bytes of a transaction and within the segment (R223). -/
def errWithin (e : Seg) (a : Nat) (err : MemErr) : MemErr := match err with
  | .ue g => if g < 8 ∧ (a / 64 + g + 1) * 64 ≤ e.size then err else .none
  | _ => err

/-- An end whose accesses go to a slice and not to memory (R207). -/
def endCached : End → Bool
  | .lcl _ => false
  | .seg _ g _ => g.cached

/-- A transfer whose next piece is a memory transaction: one end in near, board or flash memory, and neither in a cached segment
(R207, R223). -/
def memMoves (s : State) (d core idx : Nat) (pf : Bool) (x : Xfer) : Bool :=
  xferReady s d core idx pf && x.aop == 0 && (endMem x.src || endMem x.dst) && !endCached x.src && !endCached x.dst && !xferDone x
    && x.fell != some 2 && sourceStaged s x

/-- A core's transaction that waits in a memory channel's queue (R216): whose it is, where, how long it has waited. -/
structure MemReq where
  d : Nat
  core : Nat
  idx : Nat
  pf : Bool
  source : Nat
  seg : Seg
  addr : Nat
  bytes : Nat
  write : Bool
  since : Nat
  deriving DecidableEq, Repr

/-- The channel a transaction waits at. -/
def MemReq.chan (s : State) (r : MemReq) : Nat := chanOf (getBack s r.seg.bid) r.addr

/-- The next transaction of a transfer, where it goes to a near or board channel. -/
def reqOf (s : State) (d core idx : Nat) (pf : Bool) (x : Xfer) : Option MemReq :=
  let c := getCore s d core
  let raw := if pf then [] else ((findIssued c idx).map (·.q.raw)).getD []
  if memMoves s d core idx pf x then
    (memEnd c raw x).map fun m =>
      { d := d, core := core, idx := idx, pf := pf, source := coreSource s d core, seg := m.1, addr := m.2.1
        bytes := if x.page then 512 else min (512 - (endBase x.dst + (xferAt x).2.1) % 512) (xferAt x).2.2, write := m.2.2, since := x.since }
  else none

/-- The transactions that a core has waiting. -/
def coreReqs (s : State) (d core : Nat) : List MemReq :=
  let c := getCore s d core
  c.prefetches.filterMap (fun p => reqOf s d core p.idx true p.x) ++ c.issued.filterMap fun i => match i.work with
    | .xfer x => reqOf s d core i.q.idx false x
    | _ => none

/-- A transaction placed behind those that have waited as long: of one moment, the lower source number first. -/
def insReq (r : MemReq) : List MemReq → List MemReq
  | [] => [r]
  | k :: l => if r.since < k.since || (r.since == k.since && r.source < k.source) then r :: k :: l else k :: insReq r l

/-- A channel's queue, oldest first (R216; log entry 143). -/
def chanReqs (s : State) (ch : Nat) : List MemReq :=
  ((s.dists.flatMap fun d => d.2.cores.flatMap fun c => coreReqs s d.1 c.1).filter fun r => r.chan s == ch).foldl (fun l r => insReq r l) []

/-- Two transactions touch a common 64-byte granule (R216). -/
def sameGranule (a b : MemReq) : Bool :=
  a.seg.bid == b.seg.bid && (granules a.addr a.bytes).any (granules b.addr b.bytes).contains

/-- The transactions that no earlier one to the same granule holds back (R216). -/
def reqsFree : List MemReq → List MemReq → List MemReq
  | [], _ => []
  | r :: l, earlier => (if earlier.any (sameGranule r) then [] else [r]) ++ reqsFree l (earlier ++ [r])

/-- The direction a channel serves (R216, R220): the one it has turned to, until that has moved 16 KiB, or 32 bursts of 64 bytes at a
board channel, or has nothing waiting; then reads, unless 48 writes wait or no read does. -/
def chanDir (x : Chan) (ch reads writes : Nat) : Bool :=
  let mine := if x.writing then writes else reads
  if mine ≠ 0 ∧ x.moved < (if ch < 256 then 16384 else 2048) then x.writing else reads == 0 || decide (48 ≤ writes)

/-- The row of a transaction is open (R216). -/
def rowHit (x : Chan) (r : MemReq) : Bool := tfind x.rows (Config.bankRow r.seg.bid r.addr).1 == some (Config.bankRow r.seg.bid r.addr).2

/-- Of some transactions, oldest first: the oldest that hits an open row, else the oldest. -/
def firstHit (x : Chan) : List MemReq → Option MemReq
  | [] => none
  | [r] => some r
  | l => (l.find? (rowHit x)).orElse fun _ => l.head?

/-- The oldest transaction of a queue has waited 2 µs. -/
def aged (s : State) (l : List MemReq) : Option MemReq := l.head?.bind fun r => if r.since + 2000 ≤ time s then some r else none

/-- The transaction a channel serves next, from queues of 64 reads and 64 writes (R216, R220). -/
def chanPick (s : State) (ch : Nat) : Option MemReq :=
  let x := tget {} s.chans ch
  let l := chanReqs s ch
  let rs := (l.filter fun r => !r.write).take 64
  let ws := (l.filter (·.write)).take 64
  let w := chanDir x ch rs.length ws.length
  let ok := reqsFree l []
  let cands (w : Bool) : List MemReq := (if w then ws else rs).filter ok.contains
  (aged s l).orElse fun _ => (firstHit x (cands w)).orElse fun _ => firstHit x (cands !w)

/-- A transfer's transaction is the one its channel serves next; flash reads come from staging and wait for no channel. -/
def chanGrants (s : State) (d core idx : Nat) (pf : Bool) (x : Xfer) : Bool := match reqOf s d core idx pf x with
  | some r => chanPick s (r.chan s) == some r
  | none => true

/-- The memory channels carry a transaction: at the end that waited, and at a destination in memory that is not that end. -/
def chanCarry (s : State) (d core idx : Nat) (pf : Bool) (x : Xfer) : State :=
  match reqOf s d core idx pf x with
  | none => s
  | some r =>
    let s := chanRange s r.seg.bid r.addr r.bytes r.write
    match r.write, x.dst with
    | false, .seg _ g o => if (g.tier = 1 ∨ g.tier = 2) ∧ !x.page then chanRange s g.bid (o + (xferAt x).2.1) r.bytes true else s
    | _, _ => s

/-- One transaction of a transfer completes (R223) when its channel serves it (R216), after the error it may have met (R221, R222). -/
def memTransaction (d core idx : Nat) (pf : Bool) (err : MemErr) (s : State) : State :=
  match findXfer (getCore s d core) idx pf with
  | none => s
  | some x =>
    if !memMoves s d core idx pf x || !chanGrants s d core idx pf x then s
    else
      let t := match reqOf s d core idx pf x with
        | some r => memError d r.seg r.addr (errWithin r.seg r.addr err) s
        | none => s
      advance (chanCarry t d core idx pf x) d core idx pf 512 x

/-- The transaction that has waited 2 µs at a channel is served, whatever its row or direction (R216). -/
def ageLimit (ch : Nat) (s : State) : Option MemReq := aged s (chanReqs s ch)

/-! ## Slices (R206–R208) -/

/-- The slice that an access of a transfer reaches first: its segment, and the address there. -/
def sliceEnd (x : Xfer) : Option (Seg × Nat) :=
  let a := xferAt x
  match x.src, x.dst with
  | .seg _ e off, .seg _ g o => if endSlice x.src then some (e, off + a.1) else if endSlice x.dst then some (g, o + a.2.1) else none
  | .seg _ e off, .lcl _ => if endSlice x.src then some (e, off + a.1) else none
  | .lcl _, .seg _ g o => if endSlice x.dst then some (g, o + a.2.1) else none
  | _, _ => none

/-- No SIGNAL of the core's quarter that was issued earlier is still under way over the bridge to the slice's quarter (R13;
log entry 144). -/
def bridgeClear (s : State) (d core : Nat) (e : Option (Seg × Nat)) : Bool := match e with
  | some (g, a) => (sigsToward s d (coreQuarter s d core) (sliceQuarter s d g a)).isEmpty
  | none => true

/-- One access at a slice (R207, R208), after the error it may have met (R221, R222): of one 64-byte granule, or of a line of 128 bytes
when it writes a cached segment, so that a write of a whole line is one (log entry 145). -/
def sliceAccess (d core idx : Nat) (pf : Bool) (err : MemErr) (s : State) : State :=
  match findXfer (getCore s d core) idx pf with
  | none => s
  | some x =>
    if !xferReady s d core idx pf || x.aop != 0 || !(endSlice x.src || endSlice x.dst) || xferDone x || x.fell == some 2 || !sourceStaged s x
        || !bridgeClear s d core (sliceEnd x) then s
    else
      let s := match sliceEnd x with
        | some (e, a) => sliceError d e a (errWithin e a err) s
        | none => s
      advance s d core idx pf (if endCached x.dst then 128 else 64) x

/-! ## Atomics and ORDSUM (R208–R213) -/

/-- One granule of an atomic performed at its slice (R209–R211, R222), after the error it may have met. -/
def sliceAtomic (d core idx : Nat) (err : MemErr) (s : State) : State :=
  match findXfer (getCore s d core) idx false with
  | none => s
  | some x =>
    match x.dst with
    | .lcl _ => s
    | .seg _ e off =>
      if !xferReady s d core idx false || x.aop = 0 || x.aop = 13 || xferDone x then s
      else
        let cas := x.aop = 11 ∨ x.aop = 12
        let r := x.pos / max 1 x.rowBytes
        let o := x.pos % max 1 x.rowBytes
        let n := min (if cas then 128 else 64) (x.rowBytes - o)
        let dn := if cas then n / 2 else n
        let dof := off + r * x.dstStride + (if cas then o / 2 else o)
        let so := r * x.srcStride + o
        if !bridgeClear s d core (some (e, dof)) then s
        else
        let s := sliceError d e dof (errWithin e dof err) s
        let next := { x with pos := x.pos + n }
        if segPoison s e dof dn ≠ [] then setXfer (softOnce s d core idx 0x80 1023) d core idx false next
        else if endPoison s d core x.src so n ≠ [] then
          setXfer (softOnce (segMark s e (granules dof dn)) d core idx 0x80 1023) d core idx false next
        else
          let dst := segRead s e dof dn
          let src := endRead s d core x.src so n
          if cas then
            let t := casGranule (if x.aop = 11 then 4 else 8) dst src
            setXfer (endWrite (segWrite s e dof t.1) d core x.src so t.2 []) d core idx false next
          else setXfer (segWrite s e dof (aopGranule x.aop dst src)) d core idx false next

/-- A contribution whose record, rank and length fit together (R212, R213). -/
def contributionOk (pre h : Bytes) (n : Nat) : Bool :=
  zeroAt pre [(511, 4)] && 1 ≤ fld h 40 32 && fld h 40 32 ≤ 256 && n == 64 + 64 * fld h 40 32

/-- One ORDSUM contribution reaches its slice (R213), after the error its record may have met. -/
def ordsumRow (d core idx : Nat) (err : MemErr) (s : State) : State :=
  match findXfer (getCore s d core) idx false with
  | none => s
  | some x =>
    match x.dst with
    | .lcl _ => s
    | .seg _ e off =>
      if !xferReady s d core idx false || x.aop != 13 || xferDone x then s
      else
        let r := x.pos / max 1 x.rowBytes
        let rec_ := off + r * x.dstStride
        let row := endRead s d core x.src (r * x.srcStride) x.rowBytes
        let pois := endPoison s d core x.src (r * x.srcStride) x.rowBytes != []
        let next := { x with pos := (r + 1) * x.rowBytes }
        if !bridgeClear s d core (some (e, rec_)) then s
        else
        let s := sliceError d e rec_ (errWithin e rec_ err) s
        let h := segRead s e rec_ 64
        let stage := ((setBits 16 (fld h 15 0)).getLast?.map (· + 1)).getD 0
        if segPoison s e rec_ 64 ≠ [] then setXfer (softOnce s d core idx 0x80 1023) d core idx false next
        else if e.size < rec_ + 64 + (stage + 1) * (64 * fld h 40 32) then hardFault s d core idx 2
        else
          let s := if contributionOk row h x.rowBytes then ordsum d (coreSource s d core) e rec_ (fld row 3 0) (row.drop 64) pois s
            else ordsumStray d (coreSource s d core) e rec_ (fld row 3 0) s
          setXfer (if pois then softOnce s d core idx 0x80 1023 else s) d core idx false next

/-! ## Deadlines and fallbacks (R229–R233) -/

/-- Zero bytes over the rows of a destination in local SRAM, skip-marked (R230, R232). -/
def skipFill (c : Core) (a : Nat) (x : Xfer) (n : Nat) : Core :=
  (List.range x.rows).foldl (fun c r =>
    let at_ := a + r * x.dstStride
    let c := sramWrite c at_ (zeros n)
    { c with skip := (unitsOf 256 at_ n).foldl nsAdd c.skip }) c

/-- The extents that a cancelled flash read still brings to staging (R233). -/
def cancelFlash (s : State) (x : Xfer) : State := match x.src with
  | .seg _ e off =>
    if e.tier ≠ 3 then s
    else
      let want := (extentsIn e off (rowsSpan x.rows x.srcStride x.rowBytes)).filter fun k => !s.flash.staging.contains (e.volume, k)
      { s with flash := { s.flash with inflight := s.flash.inflight ++ want.map fun k => ⟨e.volume, k, none⟩ } }
  | .lcl _ => s

/-- The substitute of a read: the segment and the offset where it begins (R231). -/
def substitute (segs : AMap Seg) (e : Seg) (x : Xfer) (off : Nat) : Option End :=
  match tfind segs e.subst with
  | some g =>
    let o := off % max 1 g.size
    if x.page ∨ g.size < o + rowsSpan x.rows x.srcStride x.rowBytes then none else some (.seg e.subst g o)
  | none => none

/-- A transfer's own record changed, without a change to its place in its engine. -/
def modXfer (s : State) (d core idx : Nat) (pf : Bool) (x : Xfer) : State :=
  modCore s d core fun c =>
    if pf then { c with prefetches := c.prefetches.map fun p => if p.idx = idx then { p with x := x } else p }
    else modIssued c idx fun i => { i with work := .xfer x }

/-- The zero fill of a read that SKIP has cancelled (R230, R232, R233): it takes the read's place in the order of R102 and R112. -/
def skipRun (d core idx : Nat) (pf : Bool) (s : State) : State :=
  let c := getCore s d core
  match findXfer c idx pf with
  | some x =>
    if x.fell ≠ some 2 ∨ xferDone x ∨ !xferReady s d core idx pf then s
    else match x.dst with
      | .lcl a =>
        let n := if x.page then ((findIssued c idx).map fun i => fld i.q.raw 319 288).getD 0 else x.rowBytes
        setXfer (modCore s d core fun c => skipFill c a x n) d core idx pf { x with pos := xferTotal x }
      | .seg _ _ _ => s
  | none => s

/-- A read whose deadline instant has passed takes its source segment's fallback (R230–R233): it is cancelled at once, and a zero fill
follows as soon as the read's place in the order allows (log entry 146). -/
def deadlineExpiry (d core idx : Nat) (pf : Bool) (s : State) : State :=
  let c := getCore s d core
  let q := if pf then (c.prefetches.find? fun p => p.idx == idx).map (·.tag) else (findIssued c idx).map fun i => fld i.q.raw 31 16
  match findXfer c idx pf, q with
  | some x, some tag =>
    match x.src, x.deadline with
    | .seg n e off, some t =>
      if time s ≤ t ∨ x.fell.isSome ∨ xferDone x ∨ !coresWork s d then s
      else
        let segs := if pf then ((c.prefetches.find? fun p => p.idx == idx).map (·.segs)).getD [] else match findIssued c idx with
          | some i => i.q.segs
          | none => []
        let isLocal := match x.dst with
          | .lcl _ => true
          | .seg _ _ _ => false
        let sub := substitute segs e x off
        let fb := if !isLocal then 0 else if e.fallback = 1 ∧ sub.isNone then 2 else e.fallback
        let s := emit s (coreSource s d core) 0x0D0 sevNotice d [d, n, off, fb, tag]
        let s := if fb = 0 then s else modGate (cancelFlash s x) d fun g => { g with approx := true }
        if fb = 0 then modXfer s d core idx pf { x with fell := some 0 }
        else if fb = 1 then match sub with
          | some en => modXfer s d core idx pf { x with src := en, pos := 0, deadline := none, fell := some 1, since := time s }
          | none => s
        else skipRun d core idx pf (modXfer s d core idx pf { x with pos := 0, fell := some 2 })
    | _, _ => s
  | _, _ => s

end Sys2Proof.Machine
end

