-- ==== Sys2Proof/Machine/Descriptors.lean ====
section
/-! DEFINITION. The descriptor commands (R88–R110): each kind's issue, the work it begins, signal pairs, WAITs and
completion. -/

namespace Sys2Proof.Machine

/-! ## Beginning what may begin -/

/-- One issued descriptor begins its work if it may (R102). A transfer with an end outside the core, and a MATMUL, go on by
their own events. -/
def tryBegin (d core : Nat) (s : State) (idx : Nat) : State :=
  match findIssued (getCore s d core) idx with
  | none => s
  | some i =>
    if i.begun || workDone i || !coresStart s d || !mayBegin (getDist s d) (getCore s d core) i then s
    else match i.work with
      | .mat t h p => beginMat d core i (.mat t h p) s
      | .xfer x =>
        let s := beginAs s d core idx (.xfer { x with since := time s })
        (match x.src, x.dst with
         | .lcl _, .lcl _ => runLocal d core idx (x.rows * (x.rowBytes / 8 + 1) + 1) s
         | _, _ => s)
      | .compute => match fld i.q.raw 7 0 with
        | 2 => runLane d core i s
        | 3 => runSfn d core i s
        | 7 => runColl d core i s
        | 8 => runWalk d core i s
        | _ => runCensus d core i s
      | _ => s

/-- A prefetch begins if it may (R112). -/
def tryPrefetch (d core : Nat) (s : State) (idx : Nat) : State :=
  match (getCore s d core).prefetches.find? fun p => p.idx == idx with
  | some p =>
    if p.begun || !coresStart s d || !mayPrefetch (getDist s d) (getCore s d core) p then s else setXfer s d core idx true p.x
  | none => s

/-- Every issued descriptor of a core that may begin its work does, in program order; so do prefetches, and the zero fills of reads
that SKIP has cancelled. -/
def pump (d core : Nat) (s : State) : State :=
  let s := ((getCore s d core).issued.map (·.q.idx)).foldl (tryBegin d core) s
  let s := ((getCore s d core).prefetches.map (·.idx)).foldl (tryPrefetch d core) s
  let s := ((getCore s d core).issued.map (·.q.idx)).foldl (fun s i => skipRun d core i false s) s
  ((getCore s d core).prefetches.map (·.idx)).foldl (fun s i => skipRun d core i true s) s

/-- After any event of a core: what may begin begins, and what follows for the district follows. -/
def after (d core : Nat) (s : State) : State := settle d (pump d core s)

/-! ## Issue (R89, R101, R105, R108) -/

/-- Descriptors in an engine: 1 matrix, 2 vector, 3 sync, 4 move with prefetches; a finished one has left it (R101). -/
def engineOf (k : Nat) : Nat := if k = 1 then 1 else if k = 2 ∨ k = 3 then 2 else if isMoveKind k then 4 else if k = 0 then 0 else 3

def engineLoad (c : Core) (e : Nat) : Nat :=
  (c.issued.filter fun i => engineOf (fld i.q.raw 7 0) == e && !workDone i).length + (if e = 4 then c.prefetches.length else 0)

/-- The engines have room for a descriptor and the prefetch it carries (R101). -/
def hasRoom (c : Core) (b : Bytes) : Bool :=
  let e := engineOf (fld b 7 0)
  let pf := if bit b 10 then 1 else 0
  (e == 0 || e == 4 || engineLoad c e == 0) && (!(e == 4 || bit b 10) || engineLoad c 4 + pf + (if e = 4 then 1 else 0) ≤ 4)

/-- A descriptor that issues only once every earlier one has completed: BAR and SIGNAL (R89, R105). A FENCE holds back later ones
alone (`noBarrier`), until it has itself completed in program order. -/
def needsAlone (b : Bytes) : Bool := bit b 8 || fld b 7 0 == 5

/-- No WAIT or FENCE is outstanding (R105). -/
def noBarrier (c : Core) : Bool := c.issued.all fun i => fld i.q.raw 7 0 != 6 && fld i.q.raw 7 0 != 10

/-- The head of a core's queue may issue, the power state apart. -/
def mayIssue (x : Dist) (c : Core) (b : Bytes) : Bool :=
  x.state == 3 && (x.run.any fun r => !r.stopped) && !c.halted && (!x.dbgHalt || 0 < x.dbgSteps) && noBarrier c
    && (!needsAlone b || c.issued == []) && hasRoom c b

/-- The table slots a descriptor holds references on: every loaded one, which includes OUT_SLOT and NEW_SLOT, since an empty
one of these faults (R198, R200). -/
def refSlots (x : Dist) (b : Bytes) : NSet :=
  let k := fld b 7 0
  if k = 1 ∨ (k = 4 ∧ bit b 130) ∨ k = 7 then (List.range 4).filter fun i => (tget {} x.tbls i).image.isSome else []

/-- A COLL puts a coded chunk that the engine will encode with a table slot that is empty (R198, R279). -/
def collSlotEmpty (s : State) (x : Dist) (b : Bytes) : Bool :=
  match getGroup s (fld b 133 128) with
  | some g => match g.plan with
    | some p => !bit b 134 && (p.chunks[fld b 267 256]?).any fun r => r.coded && (tget {} x.tbls r.slot).image.isNone
    | none => false
  | none => false

/-- A descriptor names a group that its district may not use now, which is READY or ACTIVE otherwise: COLL_ABORTED (R270, R289). -/
def groupGone (s : State) (d g : Nat) : Bool := (getGroup s g).all fun x => x.dist != d || (x.state != 1 && x.state != 2)

/-- The work a descriptor has as it issues, or the hard fault it takes (R108, R198, R227, R289). -/
def startWork (s : State) (d : Nat) (x : Dist) (now : Nat) (q : QEntry) : Work × Option Nat :=
  let b := q.raw
  let empty (slot : Nat) : Bool := (tget {} x.tbls slot).image.isNone
  match fld b 7 0 with
  | 1 => (.mat 0 false [], if bit b 350 && empty (fld b 353 352) then some 5 else if bit b 155 && groupGone s d (fld b 359 354) then some 6 else none)
  | 4 =>
    if bit b 130 && empty (fld b 133 132) then (.fin, some 5)
    else (match moveXfer x now q with
      | some t => (.xfer t, none)
      | none => (.fin, some 2))
  | 5 => (.sig s.nextSig, none)
  | 6 => (.wait (if fld b 223 192 = 0 then none else some (now + 1000 * fld b 223 192)), none)
  | 7 =>
    let past := !bit b 135 && match tfind q.segs (fld b 151 144) with
      | some e => pastLimit (.seg 0 e (fld b 223 160)) (fld b 255 224) (bit b 134)
      | none => true
    (.compute, if past then some 2 else if groupGone s d (fld b 133 128) then some 6 else if collSlotEmpty s x b then some 5 else none)
  | 2 | 3 | 8 | 9 => (.compute, none)
  | _ => (.fin, none)

/-- The descriptor at the head of a core's queue issues (R101); the prefetch it carries starts with it (R112). -/
def issueEntry (d core : Nat) (q : QEntry) (s : State) : State :=
  let x := getDist s d
  let w := startWork s d x (time s) q
  let pf := if bit q.raw 10 then some (pfXfer x (time s) q) else none
  let fault := match w.2, pf with
    | some k, _ => some k
    | none, some none => some 2
    | _, _ => none
  let s := modDist { s with pwr := { s.pwr with lastIssue := time s }, nextSig := s.nextSig + b2n (fld q.raw 7 0 == 5) } d fun x => { x with dbgSteps := x.dbgSteps - 1 }
  let s := modCore s d core fun c => { c with
    queue := c.queue.drop 1, issued := c.issued ++ [{ q := q, work := w.1, refs := refSlots x q.raw }] }
  match fault with
  | some k => hardFault s d core q.idx k
  | none => match pf with
    | some (some t) => modCore s d core fun c => { c with prefetches := c.prefetches ++ [⟨q.idx, fld q.raw 31 16, q.segs, t, false⟩] }
    | _ => s

/-- A descriptor of a kind issues if it is at the head of its core's queue and may issue, and begins its work if it may. In IDLE
the first issue asks for the exit and waits (R439). -/
def issue (kind d core : Nat) (s : State) : State :=
  let c := getCore s d core
  match c.queue with
  | [] => s
  | q :: _ =>
    if fld q.raw 7 0 ≠ kind ∨ !mayIssue (getDist s d) c q.raw ∨ !quartersRun s then s
    else if s.pwr.state = 1 then { s with pwr := { s.pwr with waking := true } }
    else after d core (issueEntry d core q s)

/-- Meaning of DESC_FETCH (R88, R22): a group of descriptors enters a core's queue. -/
def execDescFetch (d core : Nat) (s : State) : Answer :=
  .next (when (quartersRun s && (getDist s d).state == 3 && !(getCore s d core).halted && thas (getDist s d).cores core)
    (fun s => fetchCore s d core) s)

/-- Meaning of NOP (R100): nothing but what its header requests. -/
def execNop (d core : Nat) (s : State) : Answer := .next (issue 0 d core s)

/-- Meaning of MATMUL (R91): it issues and begins; its tiles drain by MATMUL_TILE_DRAIN. -/
def execMatmul (d core : Nat) (s : State) : Answer := .next (issue 1 d core s)

/-- Meaning of MATMUL_TILE_DRAIN (R138–R152). -/
def execMatmulTileDrain (d core : Nat) (s : State) : Answer :=
  .next (when (coresWork s d) (fun s => after d core (drainTile d core s)) s)

/-- Meaning of LANE (R92, R154–R172). -/
def execLane (d core : Nat) (s : State) : Answer := .next (issue 2 d core s)

/-- Meaning of SFN (R93, R174–R190). -/
def execSfn (d core : Nat) (s : State) : Answer := .next (issue 3 d core s)

/-- Meaning of MOVE (R94). -/
def execMove (d core : Nat) (s : State) : Answer := .next (issue 4 d core s)

/-- Meaning of SIGNAL (R95, R105): its increment lands by PAIR_INCREMENT. -/
def execSignal (d core : Nat) (s : State) : Answer := .next (issue 5 d core s)

/-- Meaning of WAIT (R96, R105): it completes by WAIT_CONDITION_MET or takes WAIT_TIMEOUT by WAIT_TIMER_EXPIRY. -/
def execWaitDesc (d core : Nat) (s : State) : Answer := .next (issue 6 d core s)

/-- Meaning of COLL (R97). -/
def execColl (d core : Nat) (s : State) : Answer := .next (issue 7 d core s)

/-- Meaning of WALK (R98, R354). -/
def execWalk (d core : Nat) (s : State) : Answer := .next (issue 8 d core s)

/-- Meaning of CENSUS (R99). -/
def execCensus (d core : Nat) (s : State) : Answer := .next (issue 9 d core s)

/-- Meaning of FENCE (R100, R105): it completes after every earlier descriptor, when every accepted write is visible. -/
def execFence (d core : Nat) (s : State) : Answer := .next (issue 10 d core s)

/-! ## Transfers -/

/-- Meaning of MEM_TRANSACTION_COMPLETE (R223). -/
def execMemTransactionComplete (d core idx : Nat) (pf : Bool) (err : MemErr) (s : State) : Answer :=
  .next (after d core (memTransaction d core idx pf err s))

/-- Meaning of MEM_REQUEST_AGE_LIMIT (R216): a transaction that has waited 2 µs is served next. -/
def execMemRequestAgeLimit (ch : Nat) (s : State) : Answer := .next (match ageLimit ch s with
  | some r => after r.d r.core (memTransaction r.d r.core r.idx r.pf .none s)
  | none => s)

/-- Meaning of SLICE_ACCESS (R208). -/
def execSliceAccess (d core idx : Nat) (pf : Bool) (err : MemErr) (s : State) : Answer :=
  .next (after d core (sliceAccess d core idx pf err s))

/-- Meaning of SLICE_ATOMIC (R209–R211). -/
def execSliceAtomic (d core idx : Nat) (err : MemErr) (s : State) : Answer := .next (after d core (sliceAtomic d core idx err s))

/-- Meaning of ORDSUM_CONTRIBUTION (R212, R213). -/
def execOrdsumContribution (d core idx : Nat) (err : MemErr) (s : State) : Answer := .next (after d core (ordsumRow d core idx err s))

/-- Meaning of READ_DEADLINE_EXPIRY (R229–R233). -/
def execReadDeadlineExpiry (d core idx : Nat) (pf : Bool) (s : State) : Answer := .next (after d core (deadlineExpiry d core idx pf s))

/-- A finished prefetch leaves the move unit (R112). -/
def prefetchComplete (d core idx : Nat) (s : State) : State :=
  let c := getCore s d core
  if coresWork s d && c.prefetches.any (fun p => p.idx == idx && xferDone p.x) then
    after d core (sweepBacks (modCore s d core fun c => { c with prefetches := c.prefetches.filter fun p => p.idx != idx }))
  else s

/-- Meaning of PREFETCH_COMPLETE (R112). -/
def execPrefetchComplete (d core idx : Nat) (s : State) : Answer := .next (prefetchComplete d core idx s)

/-! ## Signal pairs (R95, R96, R106) -/

/-- A pair of a district core. -/
def getPair (s : State) (d core pair : Nat) : Pair := tget {} (getCore s d core).pairs pair

/-- The SIGNAL of a core whose increment has not landed. -/
def pendingSignal (s : State) (d core : Nat) : Option Issued :=
  if coresWork s d then (getCore s d core).issued.find? fun i => match i.work with
    | .sig _ => true
    | _ => false
  else none

/-- INC added to the counter a SIGNAL names, modulo 2^16 (R95, R106). -/
def bumpPair (b : Bytes) (p : Pair) : Pair :=
  let n := BitVec.ofNat 16 (fld b 167 160)
  if bit b 152 then { p with freed := p.freed + n } else { p with filled := p.filled + n }

/-- A SIGNAL's increment lands at its target core. -/
def addInc (d : Nat) (s : State) (b : Bytes) : State :=
  modCore s d (fld b 138 128) fun c => { c with pairs := tmod {} c.pairs (fld b 150 144) (bumpPair b) }

/-- A pair keeps filled − freed within 0–8 (R106). -/
def pairOk (p : Pair) : Bool := (p.filled - p.freed).toNat ≤ 8

/-- The place of an issued SIGNAL in the order of issue. -/
def sigOrder (i : Issued) : Nat := match i.work with
  | .sig n => n
  | _ => 0

/-- Every SIGNAL issued before one that crosses the bridge between the same two quarters lands with it or has landed (R13). -/
def sigInOrder (s : State) (d core : Nat) (i : Issued) (landing : List Nat) : Bool :=
  (sigsToward s d (coreQuarter s d core) (coreQuarter s d (fld i.q.raw 138 128))).all fun n => sigOrder i ≤ n || landing.contains n

/-- Increments that land in one cycle are summed (R106), those over the bridge in their order of issue (R13); a SIGNAL whose pair they
overrun takes PAIR_OVERRUN. -/
def pairIncrement (d : Nat) (cores : List Nat) (s : State) : State :=
  let here := cores.eraseDups.filterMap fun k => (pendingSignal s d k).map fun i => (k, i)
  let sigs := (here.filter fun x => sigInOrder s d x.1 x.2 (here.map fun y => sigOrder y.2)).map fun x => (x.1, x.2.q)
  let s := sigs.foldl (fun s x => addInc d s x.2.raw) s
  let s := sigs.foldl (fun s x =>
    if pairOk (getPair s d (fld x.2.raw 138 128) (fld x.2.raw 150 144)) then setWork s d x.1 x.2.idx .fin else hardFault s d x.1 x.2.idx 4) s
  sigs.foldl (fun s x => after d x.1 s) s

/-- Meaning of PAIR_INCREMENT (R106). -/
def execPairIncrement (d : Nat) (cores : List Nat) (s : State) : Answer := .next (pairIncrement d cores s)

/-- The WAIT in progress on a core: its descriptor and its timeout. -/
def pendingWait (s : State) (d core : Nat) : Option (QEntry × Option Nat) :=
  if coresStart s d then (getCore s d core).issued.findSome? fun i => match i.work with
    | .wait t => some (i.q, t)
    | _ => none
  else none

/-- The condition of a WAIT holds: (counter − TARGET) mod 2^16 < 2^15 (R106). -/
def waitHolds (s : State) (d : Nat) (b : Bytes) : Bool :=
  let p := getPair s d (fld b 138 128) (fld b 150 144)
  let v := if bit b 152 then p.freed else p.filled
  (v - BitVec.ofNat 16 (fld b 175 160)).toNat < 32768

/-- A WAIT whose condition holds has no more to do. -/
def waitMet (d core : Nat) (s : State) : State :=
  match pendingWait s d core with
  | some (q, _) => if waitHolds s d q.raw then after d core (setWork s d core q.idx .fin) else s
  | none => s

/-- Meaning of WAIT_CONDITION_MET (R96, R106). -/
def execWaitConditionMet (d core : Nat) (s : State) : Answer := .next (waitMet d core s)

/-- A WAIT's timeout expires: the condition wins, else WAIT_TIMEOUT (R96, R106). -/
def waitExpiry (d core : Nat) (s : State) : State :=
  match pendingWait s d core with
  | some (q, some t) =>
    if decide (time s < t) then s
    else if waitHolds s d q.raw then after d core (setWork s d core q.idx .fin)
    else after d core (hardFault s d core q.idx 3)
  | _ => s

/-- Meaning of WAIT_TIMER_EXPIRY (R96, R106). -/
def execWaitTimerExpiry (d core : Nat) (s : State) : Answer := .next (waitExpiry d core s)

/-! ## Completion (R101, R104, R110) -/

/-- The oldest issued descriptor of a core completes once it has no more to do; first, what waited only for an edit of its
sequence begins (R356). -/
def descComplete (d core : Nat) (s : State) : State :=
  let s := pump d core s
  match (getCore s d core).issued with
  | [] => s
  | i :: _ =>
    if !workDone i || !coresWork s d then settle d s
    else
      let s := modProg (modCore s d core fun c => dropIssued c i.q.idx) d fun p => { p with completed := (p.completed + 1) % 2 ^ 64 }
      let s := if bit i.q.raw 9 then emit s (coreSource s d core) 0x042 sevInfo d [fld i.q.raw 31 16, i.q.idx] else s
      after d core (sweepBacks s)

/-- Meaning of DESC_COMPLETE (R101, R104). -/
def execDescComplete (d core : Nat) (s : State) : Answer := .next (descComplete d core s)

end Sys2Proof.Machine
end

