-- ==== Sys2Proof/Machine/Health.lean ====
section
/-! DEFINITION. The health monitor (R403, R404): the risk level over the preceding 600 s and CHECKPOINT_ADVISED. -/

namespace Sys2Proof.Machine

/-- The health monitor's source number (R35). -/
def healthSource : Nat := 0x8A1

/-- Nanoseconds in a second. -/
def second : Nat := 1000000000

/-- A moment lies in the window of the preceding 600 s. -/
def inWindow (now t : Nat) : Bool := now < t + 600 * second

/-- Points of an input counted per `per`, at most 3 (R403). -/
def perPoints (per n : Nat) : Nat := min 3 (n / per)

/-- Points of the hottest junction of the window (R403). -/
def hotPoints (t : Int) : Nat := if 100 ≤ t then 3 else if 95 ≤ t then 2 else if 90 ≤ t then 1 else 0

/-- The hottest junction in the window. -/
def hottest (h : Health) : Int := h.hot.foldl (fun m e => max m e.2) (-40)

/-- The health record with what has left the window dropped. -/
def pruneHealth (now : Nat) (h : Health) : Health :=
  { h with
    ce := h.ce.filter fun e => inWindow now e.1
    retrains := h.retrains.filter (inWindow now)
    hot := h.hot.filter fun e => inWindow now e.1 }

/-- The points of the four inputs in the table's order (R403); `droops` counts the window's voltage droops. -/
def riskPoints (h : Health) (droops : Nat) : List Nat :=
  [perPoints 256 (h.ce.map (·.2)).sum, perPoints 1 h.retrains.length, hotPoints (hottest h), perPoints 64 droops]

/-- The level has stayed below the threshold since this moment. -/
def belowFrom (h : Health) (lvl thr now : Nat) : Option Nat :=
  if lvl < thr then (match h.belowSince with
    | some t => some t
    | none => some now)
  else none

/-- CHECKPOINT_ADVISED is armed: it was, or the level has stayed below the threshold for 60 s (R404). -/
def armedNow (h : Health) (lvl thr now : Nat) : Bool :=
  h.armed || (match belowFrom h lvl thr now with
    | some t => t + 60 * second ≤ now
    | none => false)

/-- The risk level recomputed: a change posts RISK_LEVEL and is logged (R403); a rise to the threshold while armed posts and
logs CHECKPOINT_ADVISED (R404). -/
def recompute (droops : Nat) (s : State) : State :=
  let now := time s
  let h := pruneHealth now s.health
  let pts := riskPoints h droops
  let lvl := min 7 pts.sum
  let old := h.level
  let thr := s.pwr.riskThreshold
  let armed := armedNow h lvl thr now
  let rise := armed && decide (old < thr) && decide (thr ≤ lvl)
  let s := { s with health := { h with level := lvl, armed := armed && !rise, belowSince := belowFrom h lvl thr now, lastAt := some now } }
  let s := if lvl = old then s else emit (postAdvisory s 1 lvl) healthSource 0x240 sevInfo 0xFF ([old, lvl] ++ pts)
  if rise then emit (postAdvisory s 4 lvl) healthSource 0x241 sevNotice 0xFF [lvl, thr] else s

/-- Meaning of HEALTH_RECOMPUTE (R403, R404), due every second while the keeper die runs. -/
def execHealthRecompute (droops : Nat) (s : State) : Answer :=
  .next (when (!s.pins.aonRst && (match s.health.lastAt with
    | some t => t + second ≤ time s
    | none => true)) (recompute droops) s)

end Sys2Proof.Machine
end

