-- ==== Sys2Proof/Machine/Jtag.lean ====
section
/-! DEFINITION. The TAP (R438, R462): instructions, the boundary register, and the debug data registers, which act as DBG_NONCE,
DBG_OPEN and DBG_ACCESS. -/

namespace Sys2Proof.Machine

/-- A data register shifted out. -/
def jtagOut (code : Nat) (d : Bytes) (s : State) : State := send s (.jtag code d)

/-- Bits of a data register that the boundary-scan description file lays out (R462, log entry 15). -/
def jtagFree (code : Nat) (s : State) : State :=
  jtagOut code (Config.jtagBits code s.freeCtr) { s with freeCtr := s.freeCtr + 1 }

/-- A boundary-register instruction's hold on the pins: 0 none, 1 EXTEST, 2 CLAMP, 3 HIGHZ, 4 EXTEST_PULSE, 5 EXTEST_TRAIN. -/
def setJtagMode (m : Nat) (s : State) : State := { s with jtagMode := m }

/-- IDCODE's four fields (R462): version 1 on A1, PART, the JEP106 identity, 1. -/
def idcode : Nat := 1 * 2 ^ 28 + 0x3000 * 2 ^ 12 + Config.jepId % 2 ^ 11 * 2 + 1

/-- Meaning of JTAG_IDCODE (R438, R462). -/
def execJtagIdcode (s : State) : Answer := .next (jtagOut 0x02 (leBytes 4 idcode) (setJtagMode 0 s))

/-- Meaning of JTAG_BYPASS (R462): the one-bit register shifts out a 0. -/
def execJtagBypass (code : BitVec 8) (s : State) : Answer := .next (jtagOut code.toNat [0] (setJtagMode 0 s))

/-- Meaning of JTAG_SAMPLE_PRELOAD (R462): the pins are sampled, and cells may be preloaded. -/
def execJtagSamplePreload (load : Option (List Bool)) (s : State) : Answer :=
  let s := jtagFree 0x01 (setJtagMode 0 s)
  .next (match load with
    | some l => { s with jtagCells := l }
    | none => s)

/-- A boundary-scan instruction, accepted only while SYS_RST_N is asserted (R438). -/
def boundary (mode : Nat) (g : State → State) (s : State) : Answer :=
  .next (when s.pins.sysRst (fun s => g (setJtagMode mode s)) s)

/-- Meaning of JTAG_EXTEST (R438, R462): the cells drive the pins, and the captured pins shift out. -/
def execJtagExtest (s : State) : Answer := boundary 1 (jtagFree 0x00) s

/-- Meaning of JTAG_CLAMP (R438): the cells hold the outputs, and BYPASS is selected. -/
def execJtagClamp (s : State) : Answer := boundary 2 (jtagOut 0x03 [0]) s

/-- Meaning of JTAG_HIGHZ (R438): the outputs are in high impedance, and BYPASS is selected. -/
def execJtagHighz (s : State) : Answer := boundary 3 (jtagOut 0x04 [0]) s

/-- Meaning of JTAG_EXTEST_PULSE (R438, R462): the pulse test on the AC-coupled lanes. -/
def execJtagExtestPulse (s : State) : Answer := boundary 4 (jtagFree 0x05) s

/-- Meaning of JTAG_EXTEST_TRAIN (R438, R462): the train test on the AC-coupled lanes. -/
def execJtagExtestTrain (s : State) : Answer := boundary 5 (jtagFree 0x06) s

/-- The debug data registers are accepted: ACTIVE, IDLE or RETAIN, with the security processor running and boot not halted, where
JTAG stays at CLOSED (R427, R438). -/
def jtagDebugUp (s : State) : Bool := !s.pins.sysRst && s.pwr.state != 3 && (s.sec.boot == 2 || s.sec.boot == 3)

/-- A status and STATE field as the debug registers shift them out (log entry 43). -/
def jtagStatus (e : Err) : Bytes := leBytes 2 e.status ++ leBytes 2 e.state

/-- OK. -/
def jtagOk : Err := { status := 0 }

/-- Meaning of JTAG_DBG_NONCE (R438): acts as DBG_NONCE. -/
def execJtagDbgNonce (s : State) : Answer :=
  .next (when (jtagDebugUp s) (fun s => let s := newNonce s; jtagOut 0x10 (nonceBytes s) s) s)

/-- Meaning of JTAG_DBG_TOKEN (R438): acts as DBG_OPEN, with source JTAG. -/
def execJtagDbgToken (payload : Bytes) (s : State) : Answer :=
  .next (when (jtagDebugUp s) (fun s =>
    match firstErr ((!openForm s payload, badFormat) :: openChecks s payload) with
    | some e => jtagOut 0x11 (jtagStatus e) s
    | none => match openToken s payload with
      | some n => jtagOut 0x11 (jtagStatus denied) (rejectToken n s)
      | none =>
        jtagOut 0x11 (jtagStatus (if openTwoStage s payload then { status := 1 } else jtagOk)) (openAct payload true none s)) s)

/-- Meaning of JTAG_DBG_ACCESS (R438): acts as DBG_ACCESS. -/
def execJtagDbgAccess (payload : Bytes) (s : State) : Answer :=
  .next (when (jtagDebugUp s) (fun s =>
    match firstErr ((!accessForm payload, badFormat) :: accessChecks s (accessOf payload)) with
    | some e => jtagOut 0x12 (jtagStatus e) s
    | none => let r := accessAct (accessOf payload) s; jtagOut 0x12 (jtagStatus jtagOk ++ r.1) r.2) s)

/-- Meaning of JTAG_SCAN_CHAIN (R433, R438): only at SCAN; the chain's bits are left open (log entry 15). -/
def execJtagScanChain (chain : Nat) (s : State) : Answer :=
  .next (when (dbgLevel s == 3 && chain < 16 && jtagDebugUp s) (jtagFree (0x20 + chain)) s)

end Sys2Proof.Machine
end

