-- ==== Sys2Proof/Machine/Mgmt.lean ====
section
/-! DEFINITION. The management interfaces: PLDM sensors and effecters, SMBus ARP (R78, R79) and SPDM attestation (R430–R432). The response codes and
the forms of the SPDM responses are those of DSP0274, outside the spec (log entry 39). -/

namespace Sys2Proof.Machine

/-! ## PLDM (R79) -/

/-- The package power cap set, and posted as POWER_CAP (R79, R458, R459). -/
def setCap (w : Nat) (s : State) : State := postAdvisory { s with pwr := { s.pwr with capW := w } } 2 w

/-- The settings record queued to the store. -/
def storeSettings (s : State) : State := storeWrite s stSettings (settingsPayload s.pwr)

/-- A value lies in an effecter's range (R79). -/
def effecterOk (id v : Nat) : Bool :=
  (id == 100 && 900 ≤ v && v ≤ 1800) || (id == 101 && 1 ≤ v && v ≤ 7) || (id == 102 && v ≤ 1)

/-- An effecter written: 100 the cap, 101 the risk threshold, 102 the boot source (0 FLASH, 1 HOST). -/
def effecterSet (id v : Nat) (s : State) : State :=
  if id = 100 then setCap v s
  else if id = 101 then storeSettings { s with pwr := { s.pwr with riskThreshold := v } }
  else storeSettings { s with pwr := { s.pwr with bootHost := v == 1 } }

/-- What sensors 1–8 show (R79), within their ranges; sensor 7 is Unavailable while the index is incomplete (R38). Sensor 7
shows the population code, sensor 8 the power state code. -/
def sensorValue (s : State) (id : Nat) : Option Int :=
  let temp := fun t : Int => some (max (-40) (min 125 t))
  match id with
  | 1 => temp s.pwr.tEast
  | 2 => temp s.pwr.tWest
  | 3 => temp s.pwr.tHub
  | 4 => temp s.pwr.tKeeper
  | 5 => some (min s.pwr.meanW 2000)
  | 6 => some (min s.health.level 7)
  | 7 => if s.indexOk then some s.population else none
  | 8 => some s.pwr.state
  | _ => none

/-- A sensor read answered (R79): an ID that is no sensor is refused. -/
def sensorRead (id : Nat) (s : State) : State :=
  if 1 ≤ id ∧ id ≤ 8 then send s (.sensor id (sensorValue s id)) else send s (.pldm id false)

/-- The 7-bit SMBus address the management processor answers on (R78): the one that ARP assigned, or that of SETTINGS. -/
def smbusAt (s : State) : Nat := s.pwr.arpAddr.getD s.pwr.smbusAddr

/-- A request of the management port (R78, R79): an effecter write whose value lies outside the range is refused and changes
nothing. -/
def mgmtRequest (r : MgmtReq) (s : State) : State :=
  match r with
  | .effecter id v => if effecterOk id v then send (effecterSet id v s) (.pldm id true) else send s (.pldm id false)
  | .sensor id => sensorRead id s
  | .arp a => if a < 128 then { s with pwr := { s.pwr with arpAddr := some a } } else s

/-- Meaning of PLDM_EFFECTER_WRITE (R78, R79), with the management port's other requests (log entry 128). -/
def execPldmEffecterWrite (r : MgmtReq) (s : State) : Answer := .next (when (!s.pins.aonRst) (mgmtRequest r) s)

/-! ## SPDM (R430–R432) -/

/-- Response codes and error codes (DSP0274). -/
def spVersion : Nat := 0x04
def spCapabilities : Nat := 0x61
def spAlgorithms : Nat := 0x63
def spDigests : Nat := 0x01
def spCertificate : Nat := 0x02
def spChallengeAuth : Nat := 0x03
def spMeasurements : Nat := 0x60
def spError : Nat := 0x7F
def spInvalid : Nat := 0x01
def spUnspecified : Nat := 0x05

/-- The security processor answers SPDM: over DOE on PF0 through the port, over MCTP also in OFF (R78, R431, R442). A halted
boot answers none (R427). -/
def spdmUp (s : State) (via : SpdmVia) : Bool :=
  !s.pins.sysRst && (s.sec.boot == 2 || s.sec.boot == 3) && (match via with
    | .doe => !s.pins.perst && s.indexOk && s.pcie.linkUp && s.pwr.state != 3
    | .mctp => true)

/-- An SPDM request answered, when the security processor answers. -/
def spdmStep (via : SpdmVia) (g : State → Nat × Bytes) (s : State) : Answer :=
  .next (when (spdmUp s via) (fun s => send s (.spdm via (g s).1 (g s).2)) s)

/-- An ERROR response. -/
def spdmErr (code : Nat) : Nat × Bytes := (spError, [BitVec.ofNat 8 code])

/-- Meaning of SPDM_GET_VERSION (R431): 1.2 and 1.3. -/
def execSpdmGetVersion (via : SpdmVia) (s : State) : Answer := spdmStep via (fun _ => (spVersion, [0x00, 0x12, 0x00, 0x13])) s

/-- Meaning of SPDM_GET_CAPABILITIES (R431): CERT_CAP, CHAL_CAP, MEAS_CAP with signatures, MEAS_FRESH_CAP. -/
def execSpdmGetCapabilities (via : SpdmVia) (s : State) : Answer := spdmStep via (fun _ => (spCapabilities, leBytes 4 0x36)) s

/-- Meaning of SPDM_NEGOTIATE_ALGORITHMS (R431): ECDSA P-521 and SHA-512, each where the requester offers it. -/
def execSpdmNegotiateAlgorithms (via : SpdmVia) (p521 sha512 : Bool) (s : State) : Answer :=
  spdmStep via (fun _ => (spAlgorithms,
    leBytes 4 8 ++ leBytes 4 (if p521 then 0x100 else 0) ++ leBytes 4 (if sha512 then 4 else 0))) s

/-- The certificate chain of slot 0 (R430). -/
def certChain (s : State) : Option Bytes := s.sec.identity.map Config.identityCert

/-- The digest of the slot 0 chain. -/
def certHash (s : State) : Bytes := match certChain s with
  | some c => slice (Config.sha512 c) 0 64
  | none => zeros 64

/-- Meaning of SPDM_GET_DIGESTS (R431): slot 0 only; in TEST there is no identity (R418). -/
def execSpdmGetDigests (via : SpdmVia) (s : State) : Answer :=
  spdmStep via (fun s => if (certChain s).isSome then (spDigests, [0x01] ++ certHash s) else spdmErr spUnspecified) s

/-- Meaning of SPDM_GET_CERTIFICATE (R430, R431): a portion of the chain, with its length and what remains. -/
def execSpdmGetCertificate (via : SpdmVia) (slot off len : Nat) (s : State) : Answer :=
  spdmStep via (fun s => match certChain s with
    | some c =>
      if slot ≠ 0 ∨ c.length ≤ off then spdmErr spInvalid
      else
        let n := min len (c.length - off)
        (spCertificate, leBytes 2 n ++ leBytes 2 (c.length - off - n) ++ slice c off n)
    | none => spdmErr (if slot ≠ 0 then spInvalid else spUnspecified)) s

/-- The SHA-512 digest that an index holds, when it has one (R432). Counters and owner were taken at boot. -/
def measurement (s : State) (i : Nat) : Option Bytes :=
  if i = 1 then some (slice Config.romDigest 0 64)
  else if i = 2 then s.sec.running.map fun r => slice (Config.sha512 (memRead r.image 0 (r.length - 272))) 0 64
  else if i = 3 then some (slice s.index 32 64)
  else if i = 4 then some (slice (Config.sha512 [BitVec.ofNat 8 s.population]) 0 64)
  else if i = 5 then some (slice (Config.sha512 (historyPayload s.sec ++ [BitVec.ofNat 8 (dbgLevel s)])) 0 64)
  else tfind s.sec.meas i

/-- The measurement blocks a request asks for: one index, or every one for 0xFF. -/
def measBlocks (s : State) (index : Nat) : List (Nat × Bytes) :=
  (if index = 0xFF then (List.range 7).map (· + 1) else [index]).filterMap fun i => (measurement s i).map fun m => (i, m)

/-- The blocks as bytes: index, then digest. -/
def measBytes (l : List (Nat × Bytes)) : Bytes := l.flatMap fun b => BitVec.ofNat 8 b.1 :: b.2

/-- The security processor's own nonce and a signature over what was answered (R430; the exact transcript is DSP0274's). -/
def spdmSigned (s : State) (nonce : BitVec 256) (d : Bytes) : Bytes :=
  let own := leBytes 32 (Config.nonce s.freeCtr).toNat
  d ++ own ++ slice (Config.identitySign (Config.sha512 (leBytes 32 nonce.toNat ++ own ++ d))) 0 132

/-- A request that uses a fresh nonce advances the count of those used. -/
def spdmFresh (via : SpdmVia) (g : State → Nat × Bytes) (s : State) : Answer :=
  .next (when (spdmUp s via) (fun s => { send s (.spdm via (g s).1 (g s).2) with freeCtr := s.freeCtr + 1 }) s)

/-- Meaning of SPDM_CHALLENGE (R430): Unspecified while PUF keys are unavailable. -/
def execSpdmChallenge (via : SpdmVia) (slot : Nat) (nonce : BitVec 256) (s : State) : Answer :=
  spdmFresh via (fun s =>
    if slot ≠ 0 then spdmErr spInvalid
    else if !s.sec.keys then spdmErr spUnspecified
    else (spChallengeAuth, spdmSigned s nonce (certHash s))) s

/-- Meaning of SPDM_GET_MEASUREMENTS (R430, R432): index 0 asks for their number; a signed request needs the keys. -/
def execSpdmGetMeasurements (via : SpdmVia) (index : Nat) (sign : Bool) (nonce : BitVec 256) (s : State) : Answer :=
  spdmFresh via (fun s =>
    let l := measBlocks s index
    let d := if index = 0 then [0x07] else measBytes l
    if index ≠ 0 ∧ l = [] then spdmErr spInvalid
    else if !sign then (spMeasurements, d)
    else if !s.sec.keys then spdmErr spUnspecified
    else (spMeasurements, spdmSigned s nonce d)) s

end Sys2Proof.Machine
end

