-- ==== Sys2Proof/Machine/Power.lean ====
section
/-! DEFINITION. Power states (R439–R443), the power cap, the compute rails and quarter clocks (R448, R458, R459) and the thermal
limits (R460). -/

namespace Sys2Proof.Machine

def specPwrState : Spec := { cmd := 0x0B00, pf0 := true, wide := true, scanOk := true }
def specPwrCap : Spec := { cmd := 0x0B01, pf0 := true, wide := true }
def specPwrInfo : Spec := { cmd := 0x0B02, pf0 := true, wide := true, scanOk := true }

/-! ## Entering power states -/

/-- POWER_STATE logged (R444). -/
def powerEvent (old new micros : Nat) (s : State) : State := emit s mgmtSource 0x286 sevInfo 0xFF [old, new, micros]

/-- A district that keeps the device out of RETAIN: RUNNING, DRAINING, or a restore in progress (R440). -/
def distBlocks (x : Dist) : Bool := x.state == 3 || x.state == 4 || x.resume.isSome

/-- The first thing that keeps the device out of RETAIN and OFF, with its kind and state (R440): districts, pipes, snapshot engines,
groups; a MEM_MOVE shows as its district's state (log entry 40). -/
def retainBlocker (s : State) : Option Err :=
  let ds := s.dists.filterMap fun e => if distBlocks e.2 || e.2.moves != [] then some (conflict 1 e.2.state) else none
  let ps := s.pipes.filterMap fun e => if e.2.state != 0 then some (conflict 6 e.2.state) else none
  let ss := s.dists.filterMap fun e => if e.2.state != 0 && e.2.snap.code != 0 then some (conflict 7 e.2.snap.code) else none
  let gs := s.groups.filterMap fun e => if e.2.state = 2 then some (conflict 5 2) else none
  (ds ++ ps ++ ss ++ gs).head?

/-- Entry to IDLE (R439). -/
def enterIdle (s : State) : State := powerEvent 0 1 0 { s with pwr := { s.pwr with state := 1, waking := false } }

/-- Steps 1–3 of the entry to RETAIN (R440): dirty lines written back, ports disabled, sessions above OBSERVE ended; one whose
expiry meets the entry ends at CLOSED (R443). -/
def retainBegin (s : State) : State :=
  let up := (List.range 24).filter fun p => (getPort s p).state == 2
  let s := { s with backs := tmap s.backs fun _ b => { b with dirty := [] }, pwr := { s.pwr with retainPorts := up } }
  let s := disablePorts s
  if sessionOver s then endSession dcExpiry 0 s else if 2 ≤ dbgLevel s then endSession dcPower 1 s else s

/-- A core without power: local SRAM and pairs read as zero (R440). -/
def coreDark (c : Core) : Core := { c with sram := [], poison := [], skip := [], pairs := [] }

/-- Step 4 of the entry to RETAIN (R440, R452): the compute dies are off, so what they held reads as zero from here; a PAUSED
district's save area is kept. -/
def retainEnter (s : State) : State :=
  let old := s.pwr.state
  let dists := tmap s.dists fun _ x => if x.state = 5 then x else { x with cores := tmap x.cores fun _ c => coreDark c }
  let shared := s.dists.flatMap fun e => if e.2.state = 5 then [] else (e.2.segs.filter fun g => g.2.tier == 4).map (·.2.bid)
  let backs := tmap s.backs fun i b => if shared.contains i then { b with data := [], poison := [] } else b
  powerEvent old 2 0 { s with dists := dists, backs := backs, pwr := { s.pwr with state := 2, going := none, cmpEn := false, waking := false } }

/-- Meaning of RETAIN_ENTRY_DONE (R440). -/
def execRetainEntryDone (s : State) : Answer :=
  match s.pwr.going with
  | some (2, p) =>
    let s := retainEnter s
    .next (match p with
      | some p => finishOk s p []
      | none => s)
  | _ => .next s

/-- Meaning of RETAIN_EXIT_DONE (R439, R440): the exit time runs from the take of the command. -/
def execRetainExitDone (s : State) : Answer :=
  match s.pwr.going with
  | some (0, some p) => .next (retainExit p.req.takenAt.toNat s)
  | _ => .next s

/-- A request for OFF (R441): with FORCE every district is destroyed first; the OK reply is formed and 1 ms runs. -/
def offBegin (c : FwReq) (force : Bool) (s : State) : State :=
  let s := replyAccepted s c 0x0B00
  let s := if force then destroyAll s else s
  let s := finishOk s (pendOf s c 0x0B00) []
  { s with pwr := { s.pwr with offAt := some (time s + 1000000) } }

/-- The device asks the board to remove the rails and is OFF (R439, R441, R452). -/
def offEnter (s : State) : State :=
  let old := s.pwr.state
  let s := endSession dcPower 0 s
  let s := { s with pcie := { s.pcie with linkUp := false } }
  powerEvent old 3 0 { s with pwr := { s.pwr with state := 3, going := none, offAt := none, pwrOffReq := true, waking := false } }

/-- Meaning of OFF_WAIT_EXPIRY (R441, R452). -/
def execOffWaitExpiry (s : State) : Answer :=
  .next (when (match s.pwr.offAt with
    | some t => t ≤ time s
    | none => false) offEnter s)

/-- A DBG_ACCESS halt stands in some district (R439). -/
def debugHalted (s : State) : Bool := s.dists.any fun e => e.2.dbgHalt

/-- Meaning of AUTO_IDLE_EXPIRY (R439, R442). -/
def execAutoIdleExpiry (s : State) : Answer :=
  .next (when (!s.pins.sysRst && s.pwr.state == 0 && s.pwr.going.isNone && s.pwr.offAt.isNone && s.pwr.idleUs != 0 && dbgLevel s != 3 && !debugHalted s
    && s.pwr.lastIssue + 1000 * s.pwr.idleUs ≤ time s) enterIdle s)

/-- Meaning of IDLE_EXIT (R439): at most 25 µs after the demand. -/
def execIdleExit (s : State) : Answer :=
  .next (when (s.pwr.state == 1 && s.pwr.waking) (fun s => let r := freshNat s; idleLeave (r.1 % 26) r.2) s)

/-! ## PWR_ commands (R444) -/

/-- AUTO_WAKE and IDLE_US as a PWR_STATE sets them. -/
def setFlags (p : Bytes) (s : State) : State := { s with pwr := { s.pwr with autoWake := bit p 8, idleUs := fld p 63 32 } }

/-- The state checks of PWR_STATE (R440–R443). -/
def pwrChecks (s : State) (p : Bytes) : List (Bool × Err) :=
  let t := fld p 1 0
  let held := match retainBlocker s with
    | some e => [(true, e)]
    | none => []
  [(bit p 9 && t != 3, badArgument), (t == 1 && dbgLevel s == 3, levelConflict s),
   (s.sec.zeroising.isSome || s.sec.returning.isSome, levelConflict s),
   (s.pwr.going.isSome || s.pwr.offAt.isSome || (t == 1 && s.pwr.state == 2), powerConflict s)]
    ++ (if (t = 2 ∧ s.pwr.state ≠ 2) ∨ (t = 3 ∧ !bit p 9) then held else [])

/-- A PWR_STATE carried out. -/
def pwrAct (c : FwReq) (s : State) : State :=
  let p := c.payload
  let t := fld p 1 0
  let s := setFlags p s
  if t = 3 then offBegin c (bit p 9) s
  else if t = s.pwr.state then replyOk s c 0x0B00 []
  else if t = 1 then replyOk (enterIdle s) c 0x0B00 []
  else if t = 2 then
    let s := retainBegin (replyAccepted s c 0x0B00)
    { s with pwr := { s.pwr with going := some (2, some (pendOf s c 0x0B00)) } }
  else if s.pwr.state = 1 then replyOk (idleLeave 0 s) c 0x0B00 []
  else
    let s := replyAccepted s c 0x0B00
    { s with pwr := { s.pwr with going := some (0, some (pendOf s c 0x0B00)) } }

/-- Meaning of PWR_STATE (R439–R443). -/
def execPwrState (c : FwReq) (s : State) : Answer :=
  let p := c.payload
  fwStep specPwrState c
    (fun s => headChecks specPwrState (p.length == 8 && zeroAt p [(7, 2), (31, 10)]) true c s ++ pwrChecks s p) (pwrAct c) s

/-- Meaning of PWR_CAP (R458): as effecter 100. -/
def execPwrCap (c : FwReq) (s : State) : Answer :=
  let p := c.payload
  let w := fld p 15 0
  fwStep specPwrCap c
    (fun s => headChecks specPwrCap (p.length == 8 && zeroAt p [(63, 16)]) true c s ++ [(!effecterOk 100 w, badArgument)])
    (fun s => replyOk (setCap w s) c 0x0B01 []) s

/-- Meaning of PWR_INFO (R444). -/
def execPwrInfo (c : FwReq) (s : State) : Answer :=
  fwStep specPwrInfo c (headChecks specPwrInfo (c.payload == []) true c)
    (fun s => replyOk s c 0x0B02 (pack 16 [(2, s.pwr.state), (6, 0), (1, b2n s.pwr.autoWake), (23, 0), (32, s.pwr.idleUs), (16, s.pwr.capW), (16, s.pwr.meanW),
      (16, lowestMhz s.pwr), (16, 0)])) s

/-! ## Quarter clocks and compute rails (R20, R448) -/

/-- The lowest voltage of a quarter clock in mV (R448). -/
def voltFor (mhz : Nat) : Nat := if mhz ≤ 800 then 600 else if mhz ≤ 1200 then 650 else if mhz ≤ 1600 then 710 else 780

/-- A die's compute voltage. -/
def dieMv (s : State) (die : Nat) : Nat := if die = 0 then s.pwr.mvE else s.pwr.mvW

/-- A die's voltage set. -/
def setMv (die mv : Nat) (p : Pwr) : Pwr := if die = 0 then { p with mvE := mv } else { p with mvW := mv }

/-- The highest of a die's quarter clocks, as `f` gives them. -/
def dieTop (die : Nat) (f : Nat → Nat) : Nat := (dieQuarters die).foldl (fun m q => max m (f q)) 0

/-- A die's quarter clocks set, with its voltage; no rise waits any more. -/
def setDie (die : Nat) (f : Nat → Nat) (mv : Nat) (s : State) : State :=
  { s with pwr := setMv die mv { s.pwr with
      mhz := (dieQuarters die).foldl (fun m q => tset m q (f q)) s.pwr.mhz
      rise := s.pwr.rise.filter fun e => !(dieQuarters die).contains e.1 } }

/-- A die's quarter clocks lowered, none below 0.8 GHz: the clocks first, the voltage after, as the highest of them needs; a rise
that waits is dropped (R20, R448). -/
def lowerDie (die : Nat) (to_ : Nat → Nat) (s : State) : State :=
  let f := fun q => max 800 (min (to_ q) (quarterMhz s.pwr q))
  setDie die f (voltFor (dieTop die f)) s

/-- A die's quarter clocks raised, none above 2.0 GHz: the voltage first, the clocks at the acknowledgement; at once where the
voltage suffices (R20, R448). -/
def raiseDie (die : Nat) (to_ : Nat → Nat) (s : State) : State :=
  let f := fun q => max (quarterMhz s.pwr q) (min 2000 (to_ q))
  let v := voltFor (dieTop die f)
  if v ≤ dieMv s die then setDie die f (dieMv s die) s
  else
    let up := (dieQuarters die).filter fun q => quarterMhz s.pwr q < f q
    { s with pwr := setMv die v { s.pwr with rise := up.foldl (fun m q => tset m q (f q)) s.pwr.rise } }

/-- A quarter's clock below the present one by an amount the spec leaves open, in steps of 100 MHz down to 0.8 GHz: `n` is a free
value (R459, log entry 41). -/
def lowerBy (s : State) (n q : Nat) : Nat :=
  let f := quarterMhz s.pwr q
  f - 100 * (1 + n % max 1 ((f - 800) / 100))

/-- A die's quarter clocks lowered, each by an amount the spec leaves open. -/
def lowerSome (die : Nat) (s : State) : State :=
  lowerDie die (fun q => lowerBy s (Config.freeValue (s.freeCtr + q % 16)) q) { s with freeCtr := s.freeCtr + 16 }

/-- Both dies. -/
def bothDies (g : Nat → State → State) (s : State) : State := g 1 (g 0 s)

/-- Meaning of PROCHOT_ASSERT (R459): every quarter runs at 0.8 GHz. -/
def execProchotAssert (s : State) : Answer :=
  let s := { s with pwr := { s.pwr with prochot := true } }
  .next (when (!s.pins.aonRst) (bothDies fun d s => lowerDie d (fun _ => 800) s) s)

/-- Meaning of PROCHOT_DEASSERT (R459): the quarter clocks may rise again (log entry 41). -/
def execProchotDeassert (s : State) : Answer :=
  .next { s with pwr := { s.pwr with prochot := false, raising := s.pwr.raising || (s.pwr.prochot && !s.pwr.throttling) } }

/-- Meaning of RAIL_CURRENT_LIMIT (R459). -/
def execRailCurrentLimit (die : Nat) (s : State) : Answer :=
  .next (when (!s.pins.aonRst && die < 2) (fun s => lowerSome die { s with pwr := { s.pwr with raising := false } }) s)

/-- Meaning of AVS_ACK (R448): the regulator holds the raised voltage and the clock rises. -/
def execAvsAck (die : Nat) (s : State) : Answer :=
  .next (when (!s.pins.aonRst && die < 2) (fun s =>
    setDie die (fun q => if s.pwr.prochot then quarterMhz s.pwr q else tget (quarterMhz s.pwr q) s.pwr.rise q) (dieMv s die) s) s)

/-- The mean power of a 10 ms window (R459): above the cap plus 1 % the quarter clocks are lowered and POWER_CAP posted; else
clocks that were lowered may rise again (log entry 41). -/
def capWindow (w : Nat) (s : State) : State :=
  let s := { s with pwr := { s.pwr with meanW := w } }
  if 101 * s.pwr.capW < 100 * w then
    postAdvisory (bothDies lowerSome { s with pwr := { s.pwr with raising := false } }) 2 s.pwr.capW
  else { s with pwr := { s.pwr with raising := !s.pwr.prochot && !s.pwr.throttling } }

/-- Meaning of POWER_CAP_WINDOW (R459). -/
def execPowerCapWindow (meanWatts : Nat) (s : State) : Answer := .next (when (!s.pins.aonRst) (capWindow meanWatts) s)

/-! ## Thermal (R460) -/

/-- The sensors' values. -/
def temps (p : Pwr) : List Int := [p.tEast, p.tWest, p.tHub, p.tKeeper]

/-- The hottest junction. -/
def hottestNow (p : Pwr) : Int := (temps p).foldl max p.tEast

/-- A sensor's value within its range (R79). -/
def clampTemp (t : Int) : Int := max (-40) (min 125 t)

/-- THERMAL_LIMIT posted when the hottest junction has changed (R19, log entry 42); a junction below 0 °C is posted in two's
complement (log entry 134). -/
def postThermal (s : State) : State :=
  let t := hottestNow s.pwr
  let a := tget {} s.adv 3
  if thas s.adv 3 ∧ a.value = twos 16 t ∧ a.margin = 100 - t then s
  else { s with adv := tset s.adv 3 { value := twos 16 t, margin := 100 - t, unread := true } }

/-- The junction sensors updated (R79, R403, R460): throttling from 100 °C until every sensor is below 97 °C, shutdown at 115 °C. -/
def sampleTemps (e w h k : Int) (s : State) : State :=
  let p := { s.pwr with tEast := clampTemp e, tWest := clampTemp w, tHub := clampTemp h, tKeeper := clampTemp k }
  let t := hottestNow p
  let on := decide (100 ≤ t) || (p.throttling && decide (97 ≤ t))
  let p := { p with throttling := on, raising := if on then false else p.raising || (p.throttling && !p.prochot) }
  let s := postThermal { s with pwr := p, health := { s.health with hot := s.health.hot ++ [(time s, t)] } }
  if 115 ≤ t then goFatal pfThermal { s with pwr := { s.pwr with thermTrip := true, pwrOffReq := true } } else s

/-- Meaning of THERMAL_SENSOR_SAMPLE (R460). -/
def execThermalSensorSample (east west hub keeper : Int) (s : State) : Answer :=
  .next (when (!s.pins.aonRst) (sampleTemps east west hub keeper) s)

/-- Meaning of THERMAL_THROTTLE_TICK (R460): every 50 µs while a sensor reads 100 °C or more, all quarter clocks drop by 100 MHz. -/
def execThermalThrottleTick (s : State) : Answer :=
  .next (when (!s.pins.aonRst && decide (100 ≤ hottestNow s.pwr) && s.pwr.lastThrottle + 50000 ≤ time s)
    (fun s => bothDies (fun d s => lowerDie d (fun q => quarterMhz s.pwr q - 100) s) { s with pwr := { s.pwr with lastThrottle := time s } }) s)

/-- Meaning of THERMAL_RAISE_TICK (R460): every 1 ms while every sensor reads below 97 °C, clocks rise by 100 MHz. -/
def execThermalRaiseTick (s : State) : Answer :=
  .next (when (!s.pins.aonRst && s.pwr.raising && !s.pwr.prochot && decide (hottestNow s.pwr < 97) && s.pwr.lastThrottle + 1000000 ≤ time s)
    (fun s => bothDies (fun d s => raiseDie d (fun q => quarterMhz s.pwr q + 100) s) { s with pwr := { s.pwr with lastThrottle := time s } }) s)

/-! ## Power good and rails (R451) -/

/-- Meaning of PWR_GOOD_FALL (R451). -/
def execPwrGoodFall (s : State) : Answer := .next (goFatal pfRail { s with pins := { s.pins with pwrGood := false } })

/-- Meaning of RAIL_OUT_OF_RANGE_EXPIRY (R447, R451): rails are numbered in the order of the table Rails. -/
def execRailOutOfRangeExpiry (rail : Nat) (s : State) : Answer := .next (when (rail < 12) (goFatal pfRail) s)

end Sys2Proof.Machine
end

