-- ==== Sys2Proof/Machine/Programs.lean ====
section
/-! DEFINITION. The PROG_ commands: core programs (R86, R87, R109), micro-program slots (R181–R189) and compression table
slots (R199–R202). -/

namespace Sys2Proof.Machine

/-! ## Core programs (R86, R87) -/

def specProgLoad : Spec := { cmd := 0x0300 }
def specProgStart : Spec := { cmd := 0x0301 }
def specProgAbort : Spec := { cmd := 0x0302 }
def specProgStatus : Spec := { cmd := 0x0303 }
def specProgUnload : Spec := { cmd := 0x0304 }

/-- The payload of a command that names a HANDLE and nothing else. -/
def handleForm (p : Bytes) : Bool := p.length == 8 && zeroAt p [(63, 16)]

/-- An unknown HANDLE returns BAD_ARGUMENT (R87). -/
def handleBad (x : Dist) (p : Bytes) : Bool × Err := (!thas x.progs (fld p 15 0), badArgument)

/-- A loaded program runs. -/
def isRunning (x : Dist) (handle : Nat) : Bool := match x.run with
  | some r => r.handle == handle
  | none => false

/-- Meaning of PROG_LOAD (R86, R87): firmware takes the source's bytes as they stand when it accepts the command; those in flash pass
through the tier-move engine's staging first (R235). -/
def execProgLoad (c : FwReq) (s : State) : Answer :=
  let p := c.payload
  let d := cmdDist c
  let x := getDist s d
  let off := fld p 127 64
  let len := fld p 159 128
  let e := tfind x.segs (fld p 7 0)
  let inSeg := match e with
    | some e => off + len ≤ e.size
    | none => false
  let flash := match e with
    | some e => e.tier == 3
    | none => false
  fwStep specProgLoad c
    (fun s => headChecks specProgLoad (p.length == 32 && zeroAt p [(63, 8), (255, 160)]) true c s
      ++ [(!inSeg, badArgument), legalIn s d setUpStates, flashKeys s flash, (8 ≤ x.progs.length + x.loadings.length, exhausted)])
    (fun s =>
      let img := match e with
        | some e => memOf (segRead s e off len)
        | none => []
      let l : Loading := { pend := pendOf s c 0x0300, image := img, len := len, at_ := time s
                           need := (e.map fun e => needOf s e off len).getD [], prio := (e.map (·.prio)).getD 0 }
      let s := match e with
        | some e => useStaged s e off len
        | none => s
      let s := replyAccepted s c 0x0300
      modDist s d fun x => { x with loadings := x.loadings ++ [l] }) s

/-- The lowest free handle. -/
def freeHandle (x : Dist) : Nat := ((List.range 9).find? fun i => !thas x.progs (i + 1)).getD 0 + 1

/-- The memory of a program copy (R86): LENGTH rounded up to 4 KiB of near memory. -/
def copySize (len : Nat) : Nat := roundUp len 4096

/-- A passed image becomes a loaded program (R86, R370). -/
def installProg (s : State) (d : Nat) (l : Loading) : State :=
  let a := alloc s 1 (placeUnits s 1 0) (copySize l.len)
  let h := freeHandle (getDist s d)
  let g : Prog := { image := l.image, length := l.len, progId := fld (memRead l.image 24 8) 63 0, bid := a.1 }
  let s := modDist a.2 d fun x => { x with progs := tset x.progs h g }
  let x := getDist s d
  let s := if x.state = 1 then setDistState s d 2
    else if x.prior = 1 ∧ (x.state = 4 ∨ x.state = 5) then modDist s d fun x => { x with prior := 2 }
    else s
  finishOk s l.pend (pack 8 [(16, h)])

/-- The final reply of a district's oldest PROG_LOAD (R86), once its source is read. -/
def loadFinal (d : Nat) (s : State) : State :=
  match (getDist s d).loadings with
  | [] => s
  | l :: rest =>
    if l.need ≠ [] then s
    else
    let s := modDist s d fun x => { x with loadings := rest }
    match loadFail s (getDist s d) l.image l.len with
    | some f => finish s l.pend (checkStatus f.check) 0 (pack 16 [(32, f.stream), (32, f.index), (8, f.check)])
    | none =>
      if fits s 1 (placeUnits s 1 0) (copySize l.len) then installProg s d l
      else finish s l.pend exhausted.status 0 []

/-- Meaning of PROG_LOAD_FINAL (R86). -/
def execProgLoadFinal (d : Nat) (s : State) : Answer := .next (loadFinal d s)

/-- Meaning of PROG_START (R87, R107). -/
def execProgStart (c : FwReq) (s : State) : Answer :=
  let p := c.payload
  let d := cmdDist c
  let vec := fld p 23 16
  fwStep specProgStart c
    (fun s => headChecks specProgStart (p.length == 8 && zeroAt p [(63, 24)]) true c s
      ++ [handleBad (getDist s d) p, (!vecArgOk vec, badArgument), legalIn s d [2], retainBlocks s, (!vecFree s d vec, exhausted)])
    (fun s =>
      match bindVec (autoWake s) d vec vbProg with
      | none => s
      | some (_, s) =>
        let s := setDistState s d 3
        replyOk (startRun s d (fld p 15 0) .plain (time s)) c 0x0301 []) s

/-- Meaning of PROG_ABORT (R87, R109). -/
def execProgAbort (c : FwReq) (s : State) : Answer :=
  let p := c.payload
  let d := cmdDist c
  fwStep specProgAbort c
    (fun s => headChecks specProgAbort (handleForm p) true c s ++ [handleBad (getDist s d) p, legalIn s d [2, 3, 6]])
    (fun s =>
      if isRunning (getDist s d) (fld p 15 0) then
        let s := replyAccepted s c 0x0302
        abortRun s d (some (pendOf s c 0x0302))
      else replyOk s c 0x0302 []) s

/-- Meaning of PROG_ABORT_FINAL (R109): every core of the run is idle. -/
def execProgAbortFinal (d : Nat) (s : State) : Answer := .next (abortDone d s)

/-- Meaning of PROG_STATUS (R87). -/
def execProgStatus (c : FwReq) (s : State) : Answer :=
  let p := c.payload
  let d := cmdDist c
  fwStep specProgStatus c
    (fun s => headChecks specProgStatus (handleForm p) true c s ++ [handleBad (getDist s d) p, legalIn s d anyState])
    (fun s =>
      let x := getDist s d
      let h := fld p 15 0
      match tfind x.progs h with
      | some g => replyOk s c 0x0303 (pack 24 [(64, b2n (isRunning x h)), (64, g.completed), (32, g.hard), (32, g.soft)])
      | none => s) s

/-- Meaning of PROG_UNLOAD (R86, R87, R370): while PAUSED, the state to return to follows. -/
def execProgUnload (c : FwReq) (s : State) : Answer :=
  let p := c.payload
  let d := cmdDist c
  fwStep specProgUnload c
    (fun s => headChecks specProgUnload (handleForm p) true c s
      ++ [handleBad (getDist s d) p, legalIn s d setUpStates, (isRunning (getDist s d) (fld p 15 0), conflict 1 (getDist s d).state)])
    (fun s =>
      let s := unloadProg s d (fld p 15 0)
      let x := getDist s d
      let s := if x.progs = [] ∧ x.prior = 2 ∧ (x.state = 4 ∨ x.state = 5) then modDist s d fun x => { x with prior := 1 } else s
      replyOk s c 0x0304 []) s

/-! ## Micro-program slots (R181–R189) -/

def specSlotLoad : Spec := { cmd := 0x0310 }
def specSlotClear : Spec := { cmd := 0x0311 }
def specSlotInfo : Spec := { cmd := 0x0312 }

/-- The running program names a slot in an SFN (R188). -/
def slotNamed (x : Dist) (slot : Nat) : Bool := match runProg x with
  | some (_, p) => (allDescs x p).any fun b => fld b 7 0 == 3 && fld b 135 128 == 0x20 + slot
  | none => false

/-- The reply of PROG_SLOT_LOAD and PROG_SLOT_INFO (R188); an empty slot has STEPS 0. -/
def slotReply (img : Option Bytes) : Bytes := match img with
  | none => zeros 16
  | some b =>
    let g := mprogOf b
    pack 16 [(32, g.funcId), (7, g.steps.length), (1, b2n (mprogFused g)), (24, 0), (32, crc32c b)]

/-- The image a PROG_SLOT_LOAD names: shipped, or read from district memory. -/
def slotImage (s : State) (x : Dist) (p : Bytes) : Option Bytes :=
  let id := fld p 15 8
  if id ≠ 0 then (if id ≤ 8 ∧ zeroAt p [(23, 16), (127, 64), (159, 128)] then some (shippedImage id) else none)
  else match tfind x.segs (fld p 23 16) with
    | some e => if fld p 127 64 + fld p 159 128 ≤ e.size ∧ fld p 159 128 ≤ 4800 then some (segRead s e (fld p 127 64) (fld p 159 128)) else none
    | none => none

/-- The segment a PROG_SLOT_LOAD reads is flash. -/
def slotFlash (x : Dist) (p : Bytes) : Bool := match tfind x.segs (fld p 23 16) with
  | some e => fld p 15 8 == 0 && e.tier == 3
  | none => false

/-- The checks of an image (R187); shipped images pass them. -/
def slotImageChecks (shipped : Bool) (img : Option Bytes) (len : Nat) : List (Bool × Err) := match img with
  | some b =>
    if shipped then []
    else [(!mprogFormatOk b len, badFormat),
      ((mprogBadStep (mprogOf b)).isSome, { badArgument with payload := pack 8 [(8, (mprogBadStep (mprogOf b)).getD 0)] })]
  | none => [(true, if 4800 < len then badFormat else badArgument)]

/-- Meaning of PROG_SLOT_LOAD (R187, R188). -/
def execProgSlotLoad (c : FwReq) (s : State) : Answer :=
  let p := c.payload
  let d := cmdDist c
  let x := getDist s d
  let img := slotImage s x p
  fwStep specSlotLoad c
    (fun s => headChecks specSlotLoad (p.length == 32 && zeroAt p [(7, 4), (63, 24), (255, 160)]) true c s
      ++ slotImageChecks (fld p 15 8 != 0) img (fld p 159 128)
      ++ [legalIn s d setUpStates, flashKeys s (slotFlash x p), (slotNamed x (fld p 3 0), conflict 1 x.state)])
    (fun s => replyOk (modDist s d fun x => { x with uslots := match img with
      | some b => tset x.uslots (fld p 3 0) b
      | none => x.uslots }) c 0x0310 (slotReply img)) s

/-- The payload of a command that names a slot of `w` bits and nothing else. -/
def slotForm (p : Bytes) (w : Nat) : Bool := p.length == 8 && zeroAt p [(63, w)]

/-- Meaning of PROG_SLOT_CLEAR (R188). -/
def execProgSlotClear (c : FwReq) (s : State) : Answer :=
  let p := c.payload
  let d := cmdDist c
  let x := getDist s d
  fwStep specSlotClear c
    (fun s => headChecks specSlotClear (slotForm p 4) true c s ++ [legalIn s d setUpStates, (slotNamed x (fld p 3 0), conflict 1 x.state)])
    (fun s => replyOk (modDist s d fun x => { x with uslots := tdel x.uslots (fld p 3 0) }) c 0x0311 []) s

/-- Meaning of PROG_SLOT_INFO (R188). -/
def execProgSlotInfo (c : FwReq) (s : State) : Answer :=
  let p := c.payload
  let d := cmdDist c
  fwStep specSlotInfo c (fun s => headChecks specSlotInfo (slotForm p 4) true c s ++ [legalIn s d anyState])
    (fun s => replyOk s c 0x0312 (slotReply (tfind (getDist s d).uslots (fld p 3 0)))) s

/-! ## Compression table slots (R199–R202) -/

def specTblLoad : Spec := { cmd := 0x0320 }
def specTblClear : Spec := { cmd := 0x0321 }
def specTblInfo : Spec := { cmd := 0x0322 }

/-- A table slot. -/
def getTbl (x : Dist) (slot : Nat) : Tbl := tget {} x.tbls slot

/-- A slot's reference count: the issued, uncompleted descriptors that hold a reference on it (R200). -/
def tblRefs (x : Dist) (slot : Nat) : Nat :=
  (x.cores.map fun c => (c.2.issued.filter fun i => i.refs.contains slot).length).sum

/-- A change installs now (R199, R201): a load advances the generation, from 15 to 1; a clear leaves it. -/
def installTbl (s : State) (d slot : Nat) (img : Option Bytes) : State :=
  let o := getTbl (getDist s d) slot
  let g := if img.isNone then o.gen else if o.gen = 15 then 1 else o.gen + 1
  let s := modDist s d fun x => { x with tbls := tset x.tbls slot { o with image := img, gen := g } }
  let id := match img with
    | some b => (tableOf b).id
    | none => 0
  emit s (cpSource s d) 0x090 sevInfo d [d, slot, g, b2n img.isSome, id]

/-- The reply of PROG_TBL_LOAD (R202). -/
def tblReply (x : Dist) (slot : Nat) (img : Option Bytes) : Bytes := match img with
  | some b => pack 16 [(8, (getTbl x slot).gen), (8, (tableOf b).fmt), (48, 0), (64, (tableOf b).id)]
  | none => []

/-- A table change taken: it installs at once while the count is 0 and no other change waits, else it is pending (R201). -/
def tblChange (c : FwReq) (cmd slot : Nat) (img : Option Bytes) (s : State) : State :=
  let d := cmdDist c
  let x := getDist s d
  if tblRefs x slot = 0 ∧ (getTbl x slot).pending = [] then
    let s := installTbl s d slot img
    replyOk s c cmd (tblReply (getDist s d) slot img)
  else
    let s := replyAccepted s c cmd
    modDist s d fun x => { x with tbls := tmod {} x.tbls slot fun t => { t with pending := t.pending ++ [(img, pendOf s c cmd)] } }

/-- A fifth pending change is refused (R201). -/
def tblFull (x : Dist) (slot : Nat) : Bool × Err := (4 ≤ (getTbl x slot).pending.length, exhausted)

/-- Meaning of PROG_TBL_LOAD (R197, R201, R202). -/
def execProgTblLoad (c : FwReq) (s : State) : Answer :=
  let p := c.payload
  let d := cmdDist c
  let img := slice p 8 48
  fwStep specTblLoad c
    (fun s => headChecks specTblLoad (p.length == 56 && zeroAt p [(63, 2)] && tableFormatOk img) true c s
      ++ [(!tableArgsOk (tableOf img), badArgument), legalIn s d setUpStates, tblFull (getDist s d) (fld p 1 0)])
    (fun s => tblChange c 0x0320 (fld p 1 0) (some img) s) s

/-- Meaning of PROG_TBL_CLEAR (R199, R201, R202). -/
def execProgTblClear (c : FwReq) (s : State) : Answer :=
  let p := c.payload
  let d := cmdDist c
  fwStep specTblClear c
    (fun s => headChecks specTblClear (slotForm p 2) true c s ++ [legalIn s d setUpStates, tblFull (getDist s d) (fld p 1 0)])
    (fun s => tblChange c 0x0321 (fld p 1 0) none s) s

/-- Meaning of PROG_TBL_INFO (R202). -/
def execProgTblInfo (c : FwReq) (s : State) : Answer :=
  let p := c.payload
  let d := cmdDist c
  fwStep specTblInfo c (fun s => headChecks specTblInfo (slotForm p 2) true c s ++ [legalIn s d anyState])
    (fun s =>
      let x := getDist s d
      let t := getTbl x (fld p 1 0)
      let (f, id) := match t.image with
        | some b => ((tableOf b).fmt, (tableOf b).id)
        | none => (0, 0)
      replyOk s c 0x0322 (pack 16 [(4, t.gen), (1, b2n t.image.isSome), (3, t.pending.length), (8, f), (32, tblRefs x (fld p 1 0)), (16, 0), (64, id)])) s

/-- A slot's oldest pending change installs once its count is 0, except while the district is PAUSED (R201). -/
def tblInstall (d slot : Nat) (s : State) : State :=
  let x := getDist s d
  match (getTbl x slot).pending with
  | (img, p) :: rest =>
    if tblRefs x slot = 0 ∧ x.state ≠ 5 then
      let s := modDist s d fun x => { x with tbls := tmod {} x.tbls slot fun t => { t with pending := rest } }
      let s := installTbl s d slot img
      finishOk s p (tblReply (getDist s d) slot img)
    else s
  | [] => s

/-- Meaning of TABLE_CHANGE_INSTALL (R201). -/
def execTableChangeInstall (d slot : Nat) (s : State) : Answer := .next (tblInstall d slot s)

end Sys2Proof.Machine
end

