-- ==== Sys2Proof/Machine/Security.lean ====
section
/-! DEFINITION. The SEC_ commands (R418–R429, R444): firmware update, rollback counters, owner, lifecycle, store writes. -/

namespace Sys2Proof.Machine

def specSecUpdateBegin : Spec := { cmd := 0x0A00, pf0 := true, wide := true }
def specSecUpdateData : Spec := { cmd := 0x0A01, pf0 := true, wide := true }
def specSecUpdateEnd : Spec := { cmd := 0x0A02, pf0 := true, wide := true }
def specSecRollback : Spec := { cmd := 0x0A03, pf0 := true, wide := true }
def specSecOwner : Spec := { cmd := 0x0A04, pf0 := true, wide := true }
def specSecLifecycle : Spec := { cmd := 0x0A05, pf0 := true, wide := true, scanOk := true }
def specSecStore : Spec := { cmd := 0x0A06, pf0 := true, wide := true }
def specSecInfo : Spec := { cmd := 0x0A07, pf0 := true, wide := true, scanOk := true }

/-! ## Firmware update (R427, R444) -/

/-- Meaning of SEC_UPDATE_BEGIN (R444). -/
def execSecUpdateBegin (c : FwReq) (s : State) : Answer :=
  let p := c.payload
  fwStep specSecUpdateBegin c
    (fun s => headChecks specSecUpdateBegin (p.length == 8 && zeroAt p [(63, 32)]) true c s ++ [(decide (bundleMax < fld p 31 0), badArgument)])
    (fun s => replyOk { s with sec := { s.sec with update := some { len := fld p 31 0 } } } c 0x0A00 []) s

/-- Meaning of SEC_UPDATE_DATA (R444). -/
def execSecUpdateData (c : FwReq) (s : State) : Answer :=
  let p := c.payload
  fwStep specSecUpdateData c
    (fun s => headChecks specSecUpdateData (dataFormOk p) true c s ++ dataChecks p s.sec.update)
    (fun s => replyOk { s with sec := { s.sec with update := s.sec.update.map fun g => stageData g (fld p 31 0) (p.drop 8) } } c 0x0A01 []) s

/-- The staged bundle passes R427: every byte is written, its length is the header's, and the six checks pass. -/
def updateOk (s : State) (g : Staging) : Bool := fullyWritten g && bundleLen g.data == g.len && (bundleFail s.sec g.data).isNone

/-- The boot slot that is not running (R444): a host-loaded bundle runs from a slot only when that slot holds it. -/
def updateSlot (s : State) : Nat := match s.sec.running with
  | some r => if slotMem s.nvm r.slot = r.image then 1 - r.slot else r.slot
  | none => 0

/-- Meaning of SEC_UPDATE_END (R427, R444). -/
def execSecUpdateEnd (c : FwReq) (s : State) : Answer :=
  fwStep specSecUpdateEnd c
    (fun s => headChecks specSecUpdateEnd (c.payload == []) true c s
      ++ [(s.sec.update.isNone, conflict 8 0), (s.sec.update.any fun g => !updateOk s g, denied)])
    (fun s => match s.sec.update with
      | none => s
      | some g =>
        let s := replyAccepted s c 0x0A02
        { s with sec := { s.sec with update := none, slotWrites := s.sec.slotWrites ++ [(pendOf s c 0x0A02, updateSlot s, g.data)] } }) s

/-- Meaning of UPDATE_SLOT_WRITE_DONE (R444): the slot holds the bundle, which may run from the next boot. -/
def execUpdateSlotWriteDone (s : State) : Answer :=
  match s.sec.slotWrites with
  | [] => .next s
  | (p, slot, m) :: l =>
    let s := writeSlot { s with sec := { s.sec with slotWrites := l } } slot m
    .next (finishOk s p (pack 8 [(1, slot)]))

/-! ## Counters and owner (R428, R429) -/

/-- Counters 0–7 as 32 bytes. -/
def counterBytes (s : State) : Bytes := s.sec.counters.flatMap (leBytes 4)

/-- Counters 0 and 1 raised to the running bundle's SVN and KEY_INDEX (R428); a repeat has no further effect. -/
def advanceRollback (s : State) : State :=
  match s.sec.running with
  | none => s
  | some r =>
    let t := raiseCounters s [r.svn, r.keyIndex, 0, 0, 0, 0, 0, 0]
    if t.sec.counters = s.sec.counters then s
    else emit t secSource 0x287 sevInfo 0xFF [t.sec.counters.getD 0 0, t.sec.counters.getD 1 0]

/-- Meaning of SEC_ROLLBACK_ADVANCE (R428). -/
def execSecRollbackAdvance (c : FwReq) (s : State) : Answer :=
  fwStep specSecRollback c (headChecks specSecRollback (c.payload == []) true c)
    (fun s => let s := advanceRollback s; replyOk s c 0x0A03 (counterBytes s)) s

/-- The record that a SEC_OWNER_SET payload asks for. -/
def ownerAsked (p : Bytes) : Owner :=
  { key := slice p 0 136, require := bit p 1088, vendorDebug := bit p 1089, gen := fld p 1151 1120 }

/-- SEC_OWNER_SET is permitted (R444): in PROVISIONED with a zero signature; in FIELD with the current owner's signature over the
first 144 bytes and the nonce, and a GEN above the current one. -/
def ownerPermitted (s : State) (p : Bytes) : Bool :=
  let sig := slice p 144 136
  if s.sec.lifecycle = lcProvisioned then sig == zeros 136
  else if s.sec.lifecycle = lcField then
    match s.sec.owner, liveNonce s with
    | some o, some n =>
      Config.ecdsaOk o.key (Config.sha512 (p.take 144 ++ leBytes 32 n.toNat)) sig && decide (o.gen < fld p 1151 1120)
    | _, _ => false
  else false

/-- The nonce that a SEC_OWNER_SET in FIELD was checked against is used up (R436). -/
def ownerNonce (s : State) : State := if s.sec.lifecycle = lcField then useNonce s else s

/-- The owner after a record is written: one whose GEN is below counter 2 is not valid, and the earlier copy stands (R422, R429). -/
def ownerAfter (s : State) (o : Owner) : Option Owner := if o.gen < s.sec.counters.getD 2 0 then s.sec.owner else some o

/-- Meaning of SEC_OWNER_SET (R429, R444): the OWNER record is written and counter 2 rises to GEN. -/
def execSecOwnerSet (c : FwReq) (s : State) : Answer :=
  let p := c.payload
  fwStep specSecOwner c
    (fun s => headChecks specSecOwner (p.length == 280 && zeroAt p [(1119, 1090)]) true c s)
    (fun s =>
      if ownerPermitted s p then
        let o := ownerAsked p
        let s := storeWrite { ownerNonce s with sec := { (ownerNonce s).sec with owner := ownerAfter s o } } stOwner (ownerPayload o)
        replyOk (raiseCounters s [0, 0, o.gen, 0, 0, 0, 0, 0]) c 0x0A04 []
      else refuse (ownerNonce s) c 0x0A04 denied) s

/-! ## Lifecycle (R418–R420, R424) -/

/-- The form of a SEC_LIFECYCLE payload: a token when TARGET is 3. -/
def lifecycleForm (p : Bytes) : Bool :=
  8 ≤ p.length && zeroAt p [(63, 2)] && (if fld p 1 0 = 3 then tokenForm (p.drop 8) else p.length == 8)

/-- The staged bytes of a store record. -/
def stagedBytes (s : State) (typ : Nat) : Bytes := match tfind s.sec.staged typ with
  | some (m, n) => memRead m 0 n
  | none => []

/-- The next state is the only target (R418); PROVISIONED needs a staged identity record. -/
def lifecycleTargetOk (s : State) (t : Nat) : Bool :=
  t == s.sec.lifecycle + 1 && (t != 1 || thas s.sec.staged stIdentity)

/-- The lifecycle advanced (R418, R424, R428): to PROVISIONED, COUNTERS is written first and IDENTITY second. -/
def advanceLifecycle (t : Nat) (s : State) : State :=
  let old := s.sec.lifecycle
  let ident := stagedBytes s stIdentity
  let s := raiseCounters s [0, 0, 0, t, 0, 0, 0, 0]
  let s := if t = 1 then
      let s := storeWrite s stIdentity ident
      { s with sec := { s.sec with identity := some ident, staged := tdel s.sec.staged stIdentity } }
    else s
  let s := { s with sec := { s.sec with lifecycle := t, keys := keysIn t s.sec.scanned } }
  emit s secSource 0x282 sevNotice 0xFF [old, t]

/-- Meaning of SEC_LIFECYCLE (R418–R420). -/
def execSecLifecycle (c : FwReq) (s : State) : Answer :=
  let p := c.payload
  let t := fld p 1 0
  fwStep specSecLifecycle c
    (fun s => headChecks specSecLifecycle (lifecycleForm p) true c s
      ++ [(!lifecycleTargetOk s t, badArgument),
          (2 ≤ dbgLevel s || s.sec.zeroising.isSome || s.sec.returning.isSome, levelConflict s),
          (s.pwr.state == 2 || retainEntering s, conflict 8 0xC2)])
    (fun s =>
      if t = 3 then
        match tokenFail s (p.drop 8) 1 0 with
        | some n => refuse (rejectToken n s) c 0x0A05 denied
        | none =>
          let s := zeroiseBegin (replyAccepted (useNonce s) c 0x0A05)
          { s with sec := { s.sec with zeroising := some (some (pendOf s c 0x0A05), .toReturn) } }
      else replyOk (advanceLifecycle t s) c 0x0A05 []) s

/-! ## Store writes (R421, R423, R444, R456) -/

/-- The types SEC_STORE_WRITE writes, in their lifecycle states (R444). -/
def storeTypeOk (s : State) (typ : Nat) : Bool :=
  ((typ == stBoard || typ == stSettings) && s.sec.lifecycle != lcReturn)
    || ((typ == stIdentity || typ == stCalibration) && s.sec.lifecycle == lcTest)

/-- The staged bytes of a type with a command's data written at its offset, and the number of bytes of the record so far. -/
def stageStore (s : State) (p : Bytes) : Mem × Nat :=
  let old := (tfind s.sec.staged (fld p 7 0)).getD ([], 0)
  (memWrite old.1 (fld p 63 32) (p.drop 8), max old.2 (fld p 63 32 + (p.length - 8)))

/-- The record that FINAL would commit. -/
def storeRecord (s : State) (p : Bytes) : Bytes := let r := stageStore s p; memRead r.1 0 r.2

/-- Meaning of SEC_STORE_WRITE (R9, R423, R444, R456): FINAL commits one write, except of IDENTITY. -/
def execSecStoreWrite (c : FwReq) (s : State) : Answer :=
  let p := c.payload
  let typ := fld p 7 0
  let final := bit p 8
  fwStep specSecStore c
    (fun s => headChecks specSecStore (8 ≤ p.length && p.length ≤ 456 && zeroAt p [(31, 9)]
          && !(final && typ == stBoard && !boardRsvdOk (storeRecord s p))) true c s
      ++ [(slotSize typ == 0, badArgument), (!storeTypeOk s typ, denied),
          (decide (slotSize typ < 32 + fld p 63 32 + (p.length - 8)), badArgument),
          (final && typ == stBoard && !boardOk (storeRecord s p), badArgument)])
    (fun s =>
      let rec_ := storeRecord s p
      let s := { s with sec := { s.sec with staged := tset s.sec.staged typ (stageStore s p) } }
      let s := if final && typ != stIdentity then
          storeWrite { s with sec := { s.sec with staged := tdel s.sec.staged typ } } typ rec_
        else s
      replyOk s c 0x0A06 []) s

/-- Meaning of SEC_INFO (R444). -/
def execSecInfo (c : FwReq) (s : State) : Answer :=
  fwStep specSecInfo c (headChecks specSecInfo (c.payload == []) true c)
    (fun s =>
      let r := s.sec.running.getD { slot := 0, svn := 0, release := 0, keyIndex := 0, length := 0 }
      replyOk s c 0x0A07 (pack 16 [(2, s.sec.lifecycle), (2, dbgLevel s), (2, s.pwr.state), (1, b2n s.sec.keys), (1, r.slot), (3, s.sec.boot),
        (21, 0), (32, r.svn), (32, r.release), (32, s.sec.boots.toNat)] ++ (counterBytes s).take 16)) s

end Sys2Proof.Machine
end

