-- ==== Sys2Proof/Machine/Mailbox.lean ====
section
/-! DEFINITION. The mailbox's firmware side (R59, R62–R65, R67): a POSTED slot is taken, its SEQ decides when its command runs, and
its CMD code which meaning it has. -/

namespace Sys2Proof.Machine

/-- The meaning of a command code (R67). -/
def fwCommand (cmd : Nat) (c : FwReq) (s : State) : Option Answer :=
  match cmd with
  | 0x0100 => some (execDevNop c s)
  | 0x0101 => some (execDevIndex c s)
  | 0x0102 => some (execDevRingSet c s)
  | 0x0103 => some (execDevRingOff c s)
  | 0x0104 => some (execDevWindow c s)
  | 0x01F0 => some (execDevRecBegin c s)
  | 0x01F1 => some (execDevRecData c s)
  | 0x01F2 => some (execDevRecEnd c s)
  | 0x0200 => some (execDistCreate c s)
  | 0x0201 => some (execDistDestroy c s)
  | 0x0202 => some (execDistPause c s)
  | 0x0203 => some (execDistResume c s)
  | 0x0204 => some (execDistRecover c s)
  | 0x0205 => some (execDistInfo c s)
  | 0x0300 => some (execProgLoad c s)
  | 0x0301 => some (execProgStart c s)
  | 0x0302 => some (execProgAbort c s)
  | 0x0303 => some (execProgStatus c s)
  | 0x0304 => some (execProgUnload c s)
  | 0x0310 => some (execProgSlotLoad c s)
  | 0x0311 => some (execProgSlotClear c s)
  | 0x0312 => some (execProgSlotInfo c s)
  | 0x0320 => some (execProgTblLoad c s)
  | 0x0321 => some (execProgTblClear c s)
  | 0x0322 => some (execProgTblInfo c s)
  | 0x0400 => some (execMemSegSet c s)
  | 0x0401 => some (execMemSegClear c s)
  | 0x0402 => some (execMemSegInfo c s)
  | 0x0403 => some (execMemMove c s)
  | 0x0404 => some (execMemVolCreate c s)
  | 0x0405 => some (execMemVolDelete c s)
  | 0x0406 => some (execMemVolOwner c s)
  | 0x0407 => some (execMemFlashInfo c s)
  | 0x0500 => some (execCollGroupCreate c s)
  | 0x0501 => some (execCollGroupDestroy c s)
  | 0x0502 => some (execCollPlanSet c s)
  | 0x0503 => some (execCollGroupReset c s)
  | 0x0504 => some (execCollAbort c s)
  | 0x0505 => some (execCollGroupInfo c s)
  | 0x0540 => some (execCollDirWrite c s)
  | 0x0541 => some (execCollDirRead c s)
  | 0x0542 => some (execCollDispBind c s)
  | 0x0543 => some (execCollDispInfo c s)
  | 0x0580 => some (execCollLinkConfig c s)
  | 0x0581 => some (execCollLinkRoute c s)
  | 0x0582 => some (execCollLinkEnable c s)
  | 0x0583 => some (execCollLinkDisable c s)
  | 0x0584 => some (execCollLinkInfo c s)
  | 0x0600 => some (execStepConfig c s)
  | 0x0601 => some (execStepRun c s)
  | 0x0602 => some (execStepStop c s)
  | 0x0603 => some (execStepCommit c s)
  | 0x0604 => some (execStepResume c s)
  | 0x0605 => some (execStepInfo c s)
  | 0x0606 => some (execStepSet c s)
  | 0x0700 => some (execServePoolCreate c s)
  | 0x0701 => some (execServePoolDestroy c s)
  | 0x0702 => some (execServeJoin c s)
  | 0x0703 => some (execServeLeave c s)
  | 0x0704 => some (execServeTruncate c s)
  | 0x0705 => some (execServeSeqInfo c s)
  | 0x0706 => some (execServePoolInfo c s)
  | 0x0710 => some (execServeRun c s)
  | 0x0711 => some (execServeStop c s)
  | 0x0800 => some (execMediaJobStart c s)
  | 0x0801 => some (execMediaJobExtend c s)
  | 0x0802 => some (execMediaJobStop c s)
  | 0x0803 => some (execMediaPipeInfo c s)
  | 0x0900 => some (execSnapPolicy c s)
  | 0x0901 => some (execSnapTake c s)
  | 0x0902 => some (execSnapInfo c s)
  | 0x0903 => some (execSnapRestore c s)
  | 0x0904 => some (execSnapFill c s)
  | 0x0905 => some (execSnapFillInfo c s)
  | 0x0906 => some (execSnapServe c s)
  | 0x0A00 => some (execSecUpdateBegin c s)
  | 0x0A01 => some (execSecUpdateData c s)
  | 0x0A02 => some (execSecUpdateEnd c s)
  | 0x0A03 => some (execSecRollbackAdvance c s)
  | 0x0A04 => some (execSecOwnerSet c s)
  | 0x0A05 => some (execSecLifecycle c s)
  | 0x0A06 => some (execSecStoreWrite c s)
  | 0x0A07 => some (execSecInfo c s)
  | 0x0B00 => some (execPwrState c s)
  | 0x0B01 => some (execPwrCap c s)
  | 0x0B02 => some (execPwrInfo c s)
  | 0x0C00 => some (execDbgNonce c s)
  | 0x0C01 => some (execDbgOpen c s)
  | 0x0C02 => some (execDbgClose c s)
  | 0x0C03 => some (execDbgAccess c s)
  | 0x0C04 => some (execDbgInfo c s)
  | _ => none

/-- The state an answer leaves; a request taken from a slot names a function of the port, so none of these commands stops. -/
def answerState (a : Answer) (s : State) : State := match a with
  | .next t => t
  | _ => s

/-- A function other than PF0 may not issue the group: DIST_, SEC_, PWR_ and DBG_ (R67). -/
def groupDenied (cmd : Nat) (c : FwReq) : Bool := c.fn != 0 && [0x02, 0x0A, 0x0B, 0x0C].contains (cmd / 256)

/-- A command of this function may be released now (R65): none of a higher function was released at this time-base value
(log entry 133). -/
def mayRelease (s : State) (f : Nat) : Bool := match s.lastRel with
  | some (t, g) => t != time s || g ≤ f
  | none => true

/-- A taken command executed (R49, R67): its header's form, then its code, then its meaning. -/
def runCommand (h : Held) (s : State) : State :=
  let s := { s with lastRel := some (time s, h.req.fn) }
  if !h.hdrOk then refuse s h.req h.cmd badFormat
  else match fwCommand h.cmd h.req s with
    | some a => answerState a s
    | none => refuse s h.req h.cmd (if groupDenied h.cmd h.req then denied else unknownCommand)

/-- How far a SEQ is ahead of the expected one, modulo 2^16 (R63). -/
def seqAhead (x : Fn) (q : BitVec 16) : Nat := (q - x.expSeq).toNat

/-- The waiting command that has the expected SEQ. -/
def nextHeld (x : Fn) : Option Held := x.held.find? fun h => h.req.seq == x.expSeq

/-- Waiting commands released in ascending SEQ while the expected one is there (R63); at most 31 wait. -/
def releaseHeld (f : Nat) : Nat → State → State
  | 0, s => s
  | n + 1, s =>
    match nextHeld (getFn s f) with
    | none => s
    | some h =>
      let s := modFn s f fun x => { x with held := x.held.filter (fun y => y.req.seq != h.req.seq), expSeq := x.expSeq + 1 }
      releaseHeld f n (runCommand h s)

/-- A taken command with its SEQ (R63): it runs, waits, or completes with BAD_FORMAT. -/
def runHeld (h : Held) (s : State) : State :=
  let f := h.req.fn
  let x := getFn s f
  let k := seqAhead x h.req.seq
  if k = 0 then releaseHeld f 32 (runCommand h (modFn s f fun x => { x with expSeq := x.expSeq + 1 }))
  else if k ≤ 31 ∧ !(x.held.any fun y => y.req.seq == h.req.seq) then modFn s f fun x => { x with held := x.held ++ [h] }
  else refuse s h.req h.cmd badFormat

/-- The command in a slot's 512 bytes (R59), as firmware takes it. -/
def parseSlot (f slot : Nat) (b : Bytes) (now : BitVec 64) : Held :=
  let n := fld b 63 48
  { req := { fn := f, slot := slot, quiet := bit b 8, seq := BitVec.ofNat 16 (fld b 31 16), district := BitVec.ofNat 8 (fld b 71 64)
             tag := BitVec.ofNat 32 (fld b 127 96), payload := slice b 32 (min n 480), takenAt := now }
    cmd := fld b 47 32
    hdrOk := n ≤ 480 && zeroAt b [(15, 9), (95, 72), (255, 128)] }

/-- Firmware takes a POSTED slot (R60, R62): OWNER becomes TAKEN. In recovery the ROM serves PF0 only (R80). Behind a higher
function's command of the same time-base value the take waits for the next one (R65). -/
def takeSlot (f slot : Nat) (s : State) : State :=
  let x := getFn s f
  if slot < 32 ∧ slotOwner x.inbox slot = ownPosted ∧ !x.flr ∧ served s ∧ (f = 0 ∨ voxubRuns s) ∧ mayRelease s f then
    let h := parseSlot f slot (memRead x.inbox (512 * slot) 512) s.now
    runHeld h (modFn s f fun x => { x with inbox := setOwner x.inbox slot ownTaken })
  else s

/-- Meaning of MAILBOX_TAKE (R62, R63, R65). -/
def execMailboxTake (f slot : Nat) (s : State) : Answer := hostStep f (takeSlot f slot) s

/-- The lowest waiting SEQ, as its distance from the expected one. -/
def lowestAhead (x : Fn) : Option Nat := (x.held.map fun h => seqAhead x h.req.seq).min?

/-- The expected SEQ stands in a POSTED slot that firmware has not taken yet (R60, R63). -/
def expectedPosted (x : Fn) : Bool := (List.range 32).any fun i =>
  slotOwner x.inbox i == ownPosted && BitVec.ofNat 16 (leNat (memRead x.inbox (512 * i + 2) 2)) == x.expSeq

/-- The 1 ms wait is over for the earliest taken of the waiting commands, and the expected SEQ has not been posted (R63). -/
def waitOver (s : State) (x : Fn) : Bool :=
  match (x.held.map fun h => h.req.takenAt.toNat).min? with
  | some t => t + 1000000 ≤ time s && !expectedPosted x
  | none => false

/-- One MBOX_GAP for each number skipped, in the district that the function serves (R63, R480). -/
def logGaps (f : Nat) (from_ : BitVec 16) (n : Nat) (s : State) : State :=
  (List.range n).foldl (fun s i => emit s (cpSource s f) 0x001 sevNotice f [f, (from_ + BitVec.ofNat 16 i).toNat]) s

/-- The missing numbers below the lowest waiting SEQ are skipped and that command runs (R63). -/
def seqSkip (f : Nat) (s : State) : State :=
  let x := getFn s f
  match lowestAhead x with
  | none => s
  | some n =>
    let s := logGaps f x.expSeq n s
    releaseHeld f 32 (modFn s f fun x => { x with expSeq := x.expSeq + BitVec.ofNat 16 n })

/-- Meaning of MBOX_SEQ_WAIT_EXPIRY (R63). -/
def execMboxSeqWaitExpiry (f : Nat) (s : State) : Answer :=
  hostStep f (fun s => when (served s && mayRelease s f && waitOver s (getFn s f)) (seqSkip f) s) s

end Sys2Proof.Machine
end

