-- ==== Sys2Proof/Machine/Resets.lean ====
section
/-! DEFINITION. Resets and the boot chain (R31, R38, R421–R428, R449–R454): what each reset clears and keeps, the ROM's read of the
store, and the verification of the boot slots. -/

namespace Sys2Proof.Machine

/-! ## Reading the store at boot (R422–R424) -/

/-- The identity record as the ROM finds it: absent, valid, or present and failing its signature (R424). -/
inductive IdentFound where
  | absent
  | valid (p : Bytes)
  | bad
  deriving DecidableEq, Repr

/-- What the ROM makes of the IDENTITY copies. -/
def identOf (n : Nvm) : IdentFound :=
  match storeRead n stIdentity 0 with
  | some p => .valid p
  | none => if (presentCopy n.bankA stIdentity).isSome || (presentCopy n.bankB stIdentity).isSome then .bad else .absent

/-- The counters of a store with a valid record; else all 0. -/
def bootCounters (n : Nvm) : List Nat := match storeRead n stCounters 0 with
  | some p => countersOf p
  | none => [0, 0, 0, 0, 0, 0, 0, 0]

/-- Boot halts (R424): a bad identity, or a valid one without valid counters. -/
def bootHalts (n : Nvm) : Bool := match identOf n with
  | .bad => true
  | .valid _ => (storeRead n stCounters 0).isNone
  | .absent => false

/-- The lifecycle that the store gives (R424): TEST without an identity, else counter 3. -/
def bootLifecycle (n : Nvm) : Nat := match identOf n with
  | .valid _ => (bootCounters n).getD 3 0 % 4
  | _ => 0

/-- The identity payload in use. -/
def bootIdentity (n : Nvm) : Option Bytes := match identOf n with
  | .valid p => some p
  | _ => none

/-- `k` of the sites listed, each picked by a number. -/
def pickSites (pick : Nat → Nat) : Nat → List Nat → List Nat
  | 0, _ => []
  | k + 1, l => let i := pick k % l.length; l.getD i 0 :: pickSites pick k (l.eraseIdx i)

/-- The retired sites of each of the 32 quarters in an identity payload: 4 of 68, so that exactly 64 remain (R14, R51). -/
def retiredSites (p : Bytes) : AMap NSet :=
  (List.range 32).map fun q => (q, (pickSites (Config.retiredMap p q) 4 (List.range 68)).foldl nsAdd [])

/-- The physical site of a core: the (c + 1)-th that is not retired, in ascending order (R52). -/
def siteOfCore (s : State) (q c : Nat) : Nat :=
  ((List.range 68).filter fun i => !(tget [] s.sec.siteMaps q).contains i).getD c 0

/-- DEBUG_HISTORY's counts and entries from its payload (R435). -/
def bootHistory (n : Nvm) : Nat × Nat × List HistEntry := match storeRead n stHistory 0 with
  | some p => (fld p 63 0, fld p 127 64, (chunksOf 16 ((p.length - 16) / 16) (p.drop 16)).map histOf)
  | none => (0, 0, [])

/-- The link configuration that the LINKS record holds (R265). -/
def bootLinks (n : Nvm) : LinksRec := match winner n stLinks 0 with
  | some (_, c) => c.links.getD {}
  | none => {}

/-- The settings that the SETTINGS record holds (log entry 17). -/
def bootSettings (n : Nvm) (p : Pwr) : Pwr := match storeRead n stSettings 0 with
  | some b => { p with riskThreshold := fld b 7 0, bootHost := bit b 8, smbusAddr := fld b 23 16 }
  | none => p

/-- Measurements 6 and 7, fixed at boot (R432). -/
def bootMeas (cs : List Nat) (o : Option Owner) : AMap Bytes :=
  let own := match o with
    | some o => ownerPayload o
    | none => zeros 64
  [(6, slice (Config.sha512 ((cs.take 4).flatMap (leBytes 4))) 0 64), (7, slice (Config.sha512 own) 0 64)]

/-- The security processor's state as the ROM leaves it: VERIFY, RECOVERY when effecter 102 reads HOST (R80), or HALTED. -/
def bootSec (n : Nvm) (host : Bool) (boots : BitVec 32) : Sec :=
  let cs := bootCounters n
  let lc := bootLifecycle n
  let h := bootHistory n
  let own := ownerOf (cs.getD 2 0) (storeRead n stOwner (cs.getD 2 0))
  { boot := if bootHalts n then 4 else if host then 2 else 1
    lifecycle := lc, keys := keysIn lc false && !bootHalts n, boots := boots, counters := cs, owner := own
    histControl := h.1, histScan := h.2.1, history := h.2.2, meas := bootMeas cs own, identity := bootIdentity n
    siteMaps := match bootIdentity n with
      | some p => retiredSites p
      | none => [] }

/-- The power state as a boot starts (R427, R439, R451, R452): ACTIVE, with the pins released and the settings and cap of the
store. -/
def bootPwr (n : Nvm) (b : Board) (now : Nat) (p : Pwr) : Pwr :=
  { bootSettings n p with
    state := 0, autoWake := false, idleUs := 0, going := none, offAt := none, waking := false, lastIssue := now, retainPorts := []
    capW := b.capW, pwrOffReq := false, thermTrip := false, cmpEn := true, clocksStopped := false }

/-- SYS_RST_N is deasserted in effect, with PWR_GOOD asserted before it (R418, R427, R435, R449, R453, R456): the ROM reads the
store; a level other than CLOSED ends with cause reset; a failed near-stack training is package-fatal (R402). -/
def bootStart (t : TrainingResult) (s : State) : State :=
  let was := s.sec.session
  let off := s.pwr.state == 3
  let board := boardOf (storeRead s.nvm stBoard 0)
  let s := { s with
    pins := { s.pins with sysRst := false, pwrGood := true }, board := board, training := some t, links := { s.links with cfg := bootLinks s.nvm }
    sec := bootSec s.nvm (bootSettings s.nvm s.pwr).bootHost (s.sec.boots + 1)
    pwr := bootPwr s.nvm board (time s) s.pwr, jtagMode := 0 }
  let s := match was with
    | some x => recordLevel x.level 0 x dcReset s
    | none => s
  let s := if off then (let r := freshNat s; emit r.2 mgmtSource 0x286 sevInfo 0xFF [3, 0, r.1]) else s
  if t.stacksOk then s else goFatal pfStack s

/-! ## What the resets clear (R453, R454) -/

/-- Every function as by a Function Level Reset; BAR sizes and MSI-X tables return to their defaults (R453). -/
def resetFns (s : State) : State :=
  { s with held := [], fns := tmap s.fns fun _ x => { ({} : Fn) with epoch := x.epoch + 1 } }

/-- The PCIe port reset by PERST_N (R453): DOWN_COUNT stays (R468). -/
def resetPort (s : State) : State := resetFns { s with pcie := { downCount := s.pcie.downCount } }

/-- A boot-flash write that a reset cuts leaves its slot with the old bundle, the new one, or neither (log entry 44). -/
def cutSlot (w : Pend × Nat × Mem) (s : State) : State :=
  let r := freshNat s
  if r.1 % 3 = 0 then r.2 else writeSlot r.2 w.2.1 (if r.1 % 3 = 1 then w.2.2 else [])

/-- The store writes and boot-flash writes that a reset cuts (R423, R454). -/
def cutAll (s : State) : State :=
  let s := cutWrites s
  match s.sec.slotWrites with
  | [] => s
  | w :: _ => cutSlot w s

/-- The flash tier after a reset: volumes and wear stay; staging, reads and unacknowledged writes go (R241, R453, R454); a volume
whose creation was not acknowledged does not exist. -/
def flashKept (f : Flash) : Flash :=
  { f with vols := f.vols.filter (fun e => e.2.creating.isNone), staging := [], inflight := [] }

/-- SYS_RST_N is asserted in effect (R402, R453): the security processor, the compute and hub dies, every district, memories,
ports and counters are reset, and the index is invalid; the store, boot flash, volumes, management processor and time-base stay. -/
def sysReset (s : State) : State :=
  if s.pins.sysRst then s
  else
    let s := cutAll s
    let s := resetFns s
    { s with
      pins := { s.pins with sysRst := true }, indexOk := false, index := [], training := none, lpSites := [], lpRate := 0, lpMib := 0
      pcie := {}, fns := [], emitted := [], deferred := [], held := []
      sec := { session := s.sec.session, boots := s.sec.boots }
      pwr := { s.pwr with going := none, offAt := none, waking := false, retainPorts := [], clocksStopped := false, cmpEn := true }
      health := { s.health with fatal := none, fatalAck := false, wdog := [], ueLog := [] }
      adv := tdel s.adv 5, planned := [], lastRel := none, dists := [], backs := [], flash := flashKept s.flash, sites := [], chans := []
      links := { cfg := s.links.cfg }, groups := [], pipes := [], work := [], cyc := [] }

/-- AON_RST_N is asserted (R453): also the management processor with its window and slots. -/
def aonReset (s : State) : State :=
  let s := sysReset s
  { s with pins := { s.pins with aonRst := true }, pwr := { prochot := s.pwr.prochot, state := s.pwr.state }, health := {}, adv := []
           flash := { s.flash with calibratedAt := 0, blocks := tmap s.flash.blocks fun _ b => { b with lastRead := 0 } } }

/-- Meaning of AON_RST_N_ASSERT (R453, R454). -/
def execAonRstNAssert (s : State) : Answer := .next (when (!s.pins.aonRst) aonReset s)

/-- AON_RST_N is deasserted (R31, R449): the time-base starts at 0, CMP_EN is high, settings are read; a PROCHOT_N that is low holds
the quarter clocks (R459), and a SYS_RST_N that is already deasserted takes effect (R454). -/
def aonStart (s : State) : State :=
  let s := { s with pins := { s.pins with aonRst := false }, now := 0, pwr := { bootSettings s.nvm s.pwr with cmpEn := true } }
  let s := if s.pwr.prochot then bothDies (fun d s => lowerDie d (fun _ => 800) s) s else s
  if s.pins.sysPin then s else bootStart (s.training.getD {}) s

/-- Meaning of AON_RST_N_DEASSERT (R31, R449, R454). -/
def execAonRstNDeassert (s : State) : Answer := .next (when s.pins.aonRst aonStart s)

/-- Meaning of SYS_RST_N_ASSERT (R453). -/
def execSysRstNAssert (s : State) : Answer := .next (sysReset { s with pins := { s.pins with sysPin := true } })

/-- Meaning of SYS_RST_N_DEASSERT (R427, R453, R454): without effect while AON_RST_N is asserted, but the pin stands. -/
def execSysRstNDeassert (training : TrainingResult) (s : State) : Answer :=
  .next (when s.pins.sysPin (fun s =>
    if s.pins.aonRst then { s with pins := { s.pins with sysPin := false }, training := some training } else bootStart training { s with pins := { s.pins with sysPin := false } }) s)

/-- Meaning of PERST_N_ASSERT (R443, R453): districts and every other state are kept. -/
def execPerstNAssert (s : State) : Answer := .next (when (!s.pins.perst) (fun s => { resetPort s with pins := { s.pins with perst := true } }) s)

/-- Meaning of PERST_N_DEASSERT (R450): the port leaves reset at the later of this and index completion. -/
def execPerstNDeassert (s : State) : Answer := .next { s with pins := { s.pins with perst := false } }

/-! ## Verification (R427) -/

/-- A slot starts: the boot state is RUNNING and BOOT_VERIFIED is logged. -/
def bootSlot (i : Nat) (s : State) : State :=
  let r := runningOf i (slotMem s.nvm i)
  emit { s with sec := { s.sec with boot := 3, running := some r } } secSource 0x280 sevInfo 0xFF [i, r.svn, r.release]

/-- The slots are tried in order; a preferred slot that fails is logged when the other runs, and recovery follows when both fail
(R80, R427). -/
def verifyBoot (s : State) : State :=
  match slotOrder s.nvm with
  | [a, b] =>
    match bundleFail s.sec (slotMem s.nvm a) with
    | none => bootSlot a s
    | some k =>
      match bundleFail s.sec (slotMem s.nvm b) with
      | none => bootSlot b (emit s secSource 0x281 sevNotice 0xFF [a, k])
      | some _ => { s with sec := { s.sec with boot := 2 } }
  | _ => s

/-- Meaning of BOOT_VERIFY_DONE (R38, R427): the index is complete before the command processors leave reset. -/
def execBootVerifyDone (s : State) : Answer :=
  .next (when (!s.pins.sysRst && s.sec.boot == 1 && s.indexOk && s.health.fatal.isNone) verifyBoot s)

end Sys2Proof.Machine
end

