-- ==== Sys2Proof/Machine/Dispatch.lean ====
section
/-! DEFINITION. Which meaning each command has: one arm per row of the table. -/

namespace Sys2Proof.Machine

def exec (i : Instr) (s : State) : Host.Outcome State Fault Refusal :=
  match i with
  | .configRead fn off => Sys2Proof.Machine.execConfigRead fn off s
  | .functionLevelReset fn => Sys2Proof.Machine.execFunctionLevelReset fn s
  | .flrDone fn => Sys2Proof.Machine.execFlrDone fn s
  | .inboundOwnerPost fn slot rest => Sys2Proof.Machine.execInboundOwnerPost fn slot rest s
  | .outboundSlotReturn fn slot => Sys2Proof.Machine.execOutboundSlotReturn fn slot s
  | .mailboxSlotWrite fn outbound slot off data => Sys2Proof.Machine.execMailboxSlotWrite fn outbound slot off data s
  | .mailboxTake fn slot => Sys2Proof.Machine.execMailboxTake fn slot s
  | .mboxSeqWaitExpiry fn => Sys2Proof.Machine.execMboxSeqWaitExpiry fn s
  | .replyPost fn => Sys2Proof.Machine.execReplyPost fn s
  | .bar2Read fn off len => Sys2Proof.Machine.execBar2Read fn off len s
  | .bar2Write fn off data => Sys2Proof.Machine.execBar2Write fn off data s
  | .hostFlagsRead fn part => Sys2Proof.Machine.execHostFlagsRead fn part s
  | .hostFlagsClear fn value => Sys2Proof.Machine.execHostFlagsClear fn value s
  | .regLowWordRead fn off whole => Sys2Proof.Machine.execRegLowWordRead fn off whole s
  | .bar0PlainWrite fn off data => Sys2Proof.Machine.execBar0PlainWrite fn off data s
  | .devNop c => Sys2Proof.Machine.execDevNop c s
  | .devIndex c => Sys2Proof.Machine.execDevIndex c s
  | .devRingSet c => Sys2Proof.Machine.execDevRingSet c s
  | .devRingOff c => Sys2Proof.Machine.execDevRingOff c s
  | .devWindow c => Sys2Proof.Machine.execDevWindow c s
  | .devRecBegin c => Sys2Proof.Machine.execDevRecBegin c s
  | .devRecData c => Sys2Proof.Machine.execDevRecData c s
  | .devRecEnd c => Sys2Proof.Machine.execDevRecEnd c s
  | .recoveryStart => Sys2Proof.Machine.execRecoveryStart s
  | .pcieLinkTrained speed width flitMode => Sys2Proof.Machine.execPcieLinkTrained speed width flitMode s
  | .pcieLinkLoss => Sys2Proof.Machine.execPcieLinkLoss s
  | .pcieLinkReturn => Sys2Proof.Machine.execPcieLinkReturn s
  | .eventRecordArrival record => Sys2Proof.Machine.execEventRecordArrival record s
  | .ringHoldExpiry fresh => Sys2Proof.Machine.execRingHoldExpiry fresh s
  | .consRoutineRead fn value => Sys2Proof.Machine.execConsRoutineRead fn value s
  | .ringAgeExpiry fn => Sys2Proof.Machine.execRingAgeExpiry fn s
  | .msiModerationExpiry fn vec => Sys2Proof.Machine.execMsiModerationExpiry fn vec s
  | .pldmEffecterWrite req => Sys2Proof.Machine.execPldmEffecterWrite req s
  | .spdmGetVersion via => Sys2Proof.Machine.execSpdmGetVersion via s
  | .spdmGetCapabilities via => Sys2Proof.Machine.execSpdmGetCapabilities via s
  | .spdmNegotiateAlgorithms via p521 sha512 => Sys2Proof.Machine.execSpdmNegotiateAlgorithms via p521 sha512 s
  | .spdmGetDigests via => Sys2Proof.Machine.execSpdmGetDigests via s
  | .spdmGetCertificate via slot off len => Sys2Proof.Machine.execSpdmGetCertificate via slot off len s
  | .spdmChallenge via slot nonce => Sys2Proof.Machine.execSpdmChallenge via slot nonce s
  | .spdmGetMeasurements via index signed nonce => Sys2Proof.Machine.execSpdmGetMeasurements via index signed nonce s
  | .distCreate c => Sys2Proof.Machine.execDistCreate c s
  | .distDestroy c => Sys2Proof.Machine.execDistDestroy c s
  | .distPause c => Sys2Proof.Machine.execDistPause c s
  | .distResume c => Sys2Proof.Machine.execDistResume c s
  | .distRecover c => Sys2Proof.Machine.execDistRecover c s
  | .distInfo c => Sys2Proof.Machine.execDistInfo c s
  | .distDrainDone d => Sys2Proof.Machine.execDistDrainDone d s
  | .distSaveDone d => Sys2Proof.Machine.execDistSaveDone d s
  | .distRestoreDone d => Sys2Proof.Machine.execDistRestoreDone d s
  | .distRecoverDone d => Sys2Proof.Machine.execDistRecoverDone d s
  | .progLoad c => Sys2Proof.Machine.execProgLoad c s
  | .progLoadFinal d => Sys2Proof.Machine.execProgLoadFinal d s
  | .progStart c => Sys2Proof.Machine.execProgStart c s
  | .progAbort c => Sys2Proof.Machine.execProgAbort c s
  | .progAbortFinal d => Sys2Proof.Machine.execProgAbortFinal d s
  | .progStatus c => Sys2Proof.Machine.execProgStatus c s
  | .progUnload c => Sys2Proof.Machine.execProgUnload c s
  | .progSlotLoad c => Sys2Proof.Machine.execProgSlotLoad c s
  | .progSlotClear c => Sys2Proof.Machine.execProgSlotClear c s
  | .progSlotInfo c => Sys2Proof.Machine.execProgSlotInfo c s
  | .progTblLoad c => Sys2Proof.Machine.execProgTblLoad c s
  | .progTblClear c => Sys2Proof.Machine.execProgTblClear c s
  | .progTblInfo c => Sys2Proof.Machine.execProgTblInfo c s
  | .tableChangeInstall d slot => Sys2Proof.Machine.execTableChangeInstall d slot s
  | .descFetch d core => Sys2Proof.Machine.execDescFetch d core s
  | .matmul d core => Sys2Proof.Machine.execMatmul d core s
  | .matmulTileDrain d core => Sys2Proof.Machine.execMatmulTileDrain d core s
  | .lane d core => Sys2Proof.Machine.execLane d core s
  | .sfn d core => Sys2Proof.Machine.execSfn d core s
  | .move d core => Sys2Proof.Machine.execMove d core s
  | .signal d core => Sys2Proof.Machine.execSignal d core s
  | .waitDesc d core => Sys2Proof.Machine.execWaitDesc d core s
  | .coll d core => Sys2Proof.Machine.execColl d core s
  | .walk d core => Sys2Proof.Machine.execWalk d core s
  | .census d core => Sys2Proof.Machine.execCensus d core s
  | .fence d core => Sys2Proof.Machine.execFence d core s
  | .nop d core => Sys2Proof.Machine.execNop d core s
  | .prefetchComplete d core idx => Sys2Proof.Machine.execPrefetchComplete d core idx s
  | .descComplete d core => Sys2Proof.Machine.execDescComplete d core s
  | .pairIncrement d cores => Sys2Proof.Machine.execPairIncrement d cores s
  | .waitConditionMet d core => Sys2Proof.Machine.execWaitConditionMet d core s
  | .waitTimerExpiry d core => Sys2Proof.Machine.execWaitTimerExpiry d core s
  | .readDeadlineExpiry d core idx prefetch => Sys2Proof.Machine.execReadDeadlineExpiry d core idx prefetch s
  | .sliceAccess d core idx prefetch err => Sys2Proof.Machine.execSliceAccess d core idx prefetch err s
  | .sliceAtomic d core idx err => Sys2Proof.Machine.execSliceAtomic d core idx err s
  | .ordsumContribution d core idx err => Sys2Proof.Machine.execOrdsumContribution d core idx err s
  | .memTransactionComplete d core idx prefetch err => Sys2Proof.Machine.execMemTransactionComplete d core idx prefetch err s
  | .memRequestAgeLimit chan => Sys2Proof.Machine.execMemRequestAgeLimit chan s
  | .memRefresh chan bank underLoad => Sys2Proof.Machine.execMemRefresh chan bank underLoad s
  | .patrolScrub site err => Sys2Proof.Machine.execPatrolScrub site err s
  | .memCe site => Sys2Proof.Machine.execMemCe site s
  | .memSegSet c => Sys2Proof.Machine.execMemSegSet c s
  | .memSegZeroFillDone d seg => Sys2Proof.Machine.execMemSegZeroFillDone d seg s
  | .memSegClear c => Sys2Proof.Machine.execMemSegClear c s
  | .memSegInfo c => Sys2Proof.Machine.execMemSegInfo c s
  | .memMove c => Sys2Proof.Machine.execMemMove c s
  | .memMoveDone d => Sys2Proof.Machine.execMemMoveDone d s
  | .memVolCreate c => Sys2Proof.Machine.execMemVolCreate c s
  | .memVolCreateDone vol => Sys2Proof.Machine.execMemVolCreateDone vol s
  | .memVolDelete c => Sys2Proof.Machine.execMemVolDelete c s
  | .memVolOwner c => Sys2Proof.Machine.execMemVolOwner c s
  | .memFlashInfo c => Sys2Proof.Machine.execMemFlashInfo c s
  | .tierExtentTransferDone d => Sys2Proof.Machine.execTierExtentTransferDone d s
  | .flashExtentReadDone vol ext retries badSectors => Sys2Proof.Machine.execFlashExtentReadDone vol ext retries badSectors s
  | .flashProgramDone vol ext block ok => Sys2Proof.Machine.execFlashProgramDone vol ext block ok s
  | .flashRetentionRead block retries => Sys2Proof.Machine.execFlashRetentionRead block retries s
  | .flashCalibration => Sys2Proof.Machine.execFlashCalibration s
  | .collLinkConfig c => Sys2Proof.Machine.execCollLinkConfig c s
  | .collLinkRoute c => Sys2Proof.Machine.execCollLinkRoute c s
  | .collLinkEnable c => Sys2Proof.Machine.execCollLinkEnable c s
  | .collLinkDisable c => Sys2Proof.Machine.execCollLinkDisable c s
  | .collLinkInfo c => Sys2Proof.Machine.execCollLinkInfo c s
  | .linkTrainingAttemptEnd port ok => Sys2Proof.Machine.execLinkTrainingAttemptEnd port ok s
  | .identReceive port ident => Sys2Proof.Machine.execIdentReceive port ident s
  | .flitSend port => Sys2Proof.Machine.execFlitSend port s
  | .nullSend port => Sys2Proof.Machine.execNullSend port s
  | .flitReceive port flit errs => Sys2Proof.Machine.execFlitReceive port flit errs s
  | .nakReceive port fseq => Sys2Proof.Machine.execNakReceive port fseq s
  | .nakRepeatTimer port => Sys2Proof.Machine.execNakRepeatTimer port s
  | .creditSetReceive port sizes => Sys2Proof.Machine.execCreditSetReceive port sizes s
  | .syncSend port => Sys2Proof.Machine.execSyncSend port s
  | .syncReceive port sync => Sys2Proof.Machine.execSyncReceive port sync s
  | .rootLossTimer => Sys2Proof.Machine.execRootLossTimer s
  | .linkWatchdogExpiry port => Sys2Proof.Machine.execLinkWatchdogExpiry port s
  | .laneLockLoss port lane => Sys2Proof.Machine.execLaneLockLoss port lane s
  | .retrainComplete port ok ident ackFseq => Sys2Proof.Machine.execRetrainComplete port ok ident ackFseq s
  | .linkCe port => Sys2Proof.Machine.execLinkCe port s
  | .collGroupCreate c => Sys2Proof.Machine.execCollGroupCreate c s
  | .collGroupDestroy c => Sys2Proof.Machine.execCollGroupDestroy c s
  | .collPlanSet c => Sys2Proof.Machine.execCollPlanSet c s
  | .collGroupReset c => Sys2Proof.Machine.execCollGroupReset c s
  | .collAbort c => Sys2Proof.Machine.execCollAbort c s
  | .collGroupInfo c => Sys2Proof.Machine.execCollGroupInfo c s
  | .collPutAccept g => Sys2Proof.Machine.execCollPutAccept g s
  | .chunkMessageReceive g port => Sys2Proof.Machine.execChunkMessageReceive g port s
  | .chunkCheckDone g chunk src crcOk => Sys2Proof.Machine.execChunkCheckDone g chunk src crcOk s
  | .chunkAckBatch g => Sys2Proof.Machine.execChunkAckBatch g s
  | .retxRequestReceive g src chunk => Sys2Proof.Machine.execRetxRequestReceive g src chunk s
  | .taintNoticeReceive g gseq pos => Sys2Proof.Machine.execTaintNoticeReceive g gseq pos s
  | .abortNoticeReceive g gseq detector pos => Sys2Proof.Machine.execAbortNoticeReceive g gseq detector pos s
  | .groupTimeoutExpiry g => Sys2Proof.Machine.execGroupTimeoutExpiry g s
  | .instanceClose g => Sys2Proof.Machine.execInstanceClose g s
  | .collDirWrite c => Sys2Proof.Machine.execCollDirWrite c s
  | .dirWriteInstall d => Sys2Proof.Machine.execDirWriteInstall d s
  | .collDirRead c => Sys2Proof.Machine.execCollDirRead c s
  | .collDispBind c => Sys2Proof.Machine.execCollDispBind c s
  | .collDispInfo c => Sys2Proof.Machine.execCollDispInfo c s
  | .dispatchBlockRoute g => Sys2Proof.Machine.execDispatchBlockRoute g s
  | .dispatchMessageReceive g port => Sys2Proof.Machine.execDispatchMessageReceive g port s
  | .dispatchInboxWrite g => Sys2Proof.Machine.execDispatchInboxWrite g s
  | .coldWarmingDone g slot => Sys2Proof.Machine.execColdWarmingDone g slot s
  | .coldDeadlineExpiry g slot => Sys2Proof.Machine.execColdDeadlineExpiry g slot s
  | .returnMessageReceive g port => Sys2Proof.Machine.execReturnMessageReceive g port s
  | .slotCountsTakeDone g => Sys2Proof.Machine.execSlotCountsTakeDone g s
  | .instanceCountsTakeDone g => Sys2Proof.Machine.execInstanceCountsTakeDone g s
  | .stepConfig c => Sys2Proof.Machine.execStepConfig c s
  | .stepRun c => Sys2Proof.Machine.execStepRun c s
  | .stepStop c => Sys2Proof.Machine.execStepStop c s
  | .stepCommit c => Sys2Proof.Machine.execStepCommit c s
  | .stepResume c => Sys2Proof.Machine.execStepResume c s
  | .stepInfo c => Sys2Proof.Machine.execStepInfo c s
  | .stepSet c => Sys2Proof.Machine.execStepSet c s
  | .stepOpen d => Sys2Proof.Machine.execStepOpen d s
  | .feedMoveDone d => Sys2Proof.Machine.execFeedMoveDone d s
  | .gateMemberReady d => Sys2Proof.Machine.execGateMemberReady d s
  | .gateMessageReceive d msg => Sys2Proof.Machine.execGateMessageReceive d msg s
  | .updateProgramComplete d => Sys2Proof.Machine.execUpdateProgramComplete d s
  | .gateEvalTimeout d => Sys2Proof.Machine.execGateEvalTimeout d s
  | .earlyRefusalNotice d pos causes sig => Sys2Proof.Machine.execEarlyRefusalNotice d pos causes sig s
  | .earlyAbortComplete d => Sys2Proof.Machine.execEarlyAbortComplete d s
  | .servePoolCreate c => Sys2Proof.Machine.execServePoolCreate c s
  | .servePoolDestroy c => Sys2Proof.Machine.execServePoolDestroy c s
  | .serveJoin c => Sys2Proof.Machine.execServeJoin c s
  | .serveLeave c => Sys2Proof.Machine.execServeLeave c s
  | .serveTruncate c => Sys2Proof.Machine.execServeTruncate c s
  | .immediateEditApply d slot => Sys2Proof.Machine.execImmediateEditApply d slot s
  | .serveSeqInfo c => Sys2Proof.Machine.execServeSeqInfo c s
  | .servePoolInfo c => Sys2Proof.Machine.execServePoolInfo c s
  | .serveRun c => Sys2Proof.Machine.execServeRun c s
  | .serveStop c => Sys2Proof.Machine.execServeStop c s
  | .serveBoundary d upto => Sys2Proof.Machine.execServeBoundary d upto s
  | .serveStepStart d cons => Sys2Proof.Machine.execServeStepStart d cons s
  | .serveStepComplete d => Sys2Proof.Machine.execServeStepComplete d s
  | .mediaJobStart c => Sys2Proof.Machine.execMediaJobStart c s
  | .mediaJobExtend c => Sys2Proof.Machine.execMediaJobExtend c s
  | .mediaJobStop c => Sys2Proof.Machine.execMediaJobStop c s
  | .mediaPipeInfo c => Sys2Proof.Machine.execMediaPipeInfo c s
  | .mediaFrameDecode pipe frame => Sys2Proof.Machine.execMediaFrameDecode pipe frame s
  | .mediaFrameEncode pipe frame => Sys2Proof.Machine.execMediaFrameEncode pipe frame s
  | .tokenGroupConvert pipe => Sys2Proof.Machine.execTokenGroupConvert pipe s
  | .mediaJobEnd kind pipe => Sys2Proof.Machine.execMediaJobEnd kind pipe s
  | .snapPolicy c => Sys2Proof.Machine.execSnapPolicy c s
  | .snapTake c => Sys2Proof.Machine.execSnapTake c s
  | .snapInfo c => Sys2Proof.Machine.execSnapInfo c s
  | .snapRestore c => Sys2Proof.Machine.execSnapRestore c s
  | .snapRestoreDone d => Sys2Proof.Machine.execSnapRestoreDone d s
  | .snapFill c => Sys2Proof.Machine.execSnapFill c s
  | .snapFillInfo c => Sys2Proof.Machine.execSnapFillInfo c s
  | .snapServe c => Sys2Proof.Machine.execSnapServe c s
  | .snapCaptureDone d => Sys2Proof.Machine.execSnapCaptureDone d s
  | .snapMirrorReceive d ext data last => Sys2Proof.Machine.execSnapMirrorReceive d ext data last s
  | .snapRegionWriteDone d mirror => Sys2Proof.Machine.execSnapRegionWriteDone d mirror s
  | .fillRequestReceive d ext => Sys2Proof.Machine.execFillRequestReceive d ext s
  | .fillExtentReceive d ext data crcOk => Sys2Proof.Machine.execFillExtentReceive d ext data crcOk s
  | .healthRecompute droops => Sys2Proof.Machine.execHealthRecompute droops s
  | .secUpdateBegin c => Sys2Proof.Machine.execSecUpdateBegin c s
  | .secUpdateData c => Sys2Proof.Machine.execSecUpdateData c s
  | .secUpdateEnd c => Sys2Proof.Machine.execSecUpdateEnd c s
  | .secRollbackAdvance c => Sys2Proof.Machine.execSecRollbackAdvance c s
  | .secOwnerSet c => Sys2Proof.Machine.execSecOwnerSet c s
  | .secLifecycle c => Sys2Proof.Machine.execSecLifecycle c s
  | .lifecycleReturnDone => Sys2Proof.Machine.execLifecycleReturnDone s
  | .secStoreWrite c => Sys2Proof.Machine.execSecStoreWrite c s
  | .storeWriteDone => Sys2Proof.Machine.execStoreWriteDone s
  | .secInfo c => Sys2Proof.Machine.execSecInfo c s
  | .pwrState c => Sys2Proof.Machine.execPwrState c s
  | .pwrCap c => Sys2Proof.Machine.execPwrCap c s
  | .pwrInfo c => Sys2Proof.Machine.execPwrInfo c s
  | .dbgNonce c => Sys2Proof.Machine.execDbgNonce c s
  | .dbgOpen c => Sys2Proof.Machine.execDbgOpen c s
  | .dbgClose c => Sys2Proof.Machine.execDbgClose c s
  | .dbgAccess c => Sys2Proof.Machine.execDbgAccess c s
  | .dbgInfo c => Sys2Proof.Machine.execDbgInfo c s
  | .zeroiseDone micros => Sys2Proof.Machine.execZeroiseDone micros s
  | .nonceExpiry => Sys2Proof.Machine.execNonceExpiry s
  | .debugSessionExpiry => Sys2Proof.Machine.execDebugSessionExpiry s
  | .jtagIdcode => Sys2Proof.Machine.execJtagIdcode s
  | .jtagBypass code => Sys2Proof.Machine.execJtagBypass code s
  | .jtagSamplePreload load => Sys2Proof.Machine.execJtagSamplePreload load s
  | .jtagExtest => Sys2Proof.Machine.execJtagExtest s
  | .jtagClamp => Sys2Proof.Machine.execJtagClamp s
  | .jtagHighz => Sys2Proof.Machine.execJtagHighz s
  | .jtagExtestPulse => Sys2Proof.Machine.execJtagExtestPulse s
  | .jtagExtestTrain => Sys2Proof.Machine.execJtagExtestTrain s
  | .jtagDbgNonce => Sys2Proof.Machine.execJtagDbgNonce s
  | .jtagDbgToken payload => Sys2Proof.Machine.execJtagDbgToken payload s
  | .jtagDbgAccess payload => Sys2Proof.Machine.execJtagDbgAccess payload s
  | .jtagScanChain chain => Sys2Proof.Machine.execJtagScanChain chain s
  | .aonRstNAssert => Sys2Proof.Machine.execAonRstNAssert s
  | .aonRstNDeassert => Sys2Proof.Machine.execAonRstNDeassert s
  | .sysRstNAssert => Sys2Proof.Machine.execSysRstNAssert s
  | .sysRstNDeassert training => Sys2Proof.Machine.execSysRstNDeassert training s
  | .indexBuildDone => Sys2Proof.Machine.execIndexBuildDone s
  | .bootVerifyDone => Sys2Proof.Machine.execBootVerifyDone s
  | .perstNAssert => Sys2Proof.Machine.execPerstNAssert s
  | .perstNDeassert => Sys2Proof.Machine.execPerstNDeassert s
  | .pwrGoodFall => Sys2Proof.Machine.execPwrGoodFall s
  | .railOutOfRangeExpiry rail => Sys2Proof.Machine.execRailOutOfRangeExpiry rail s
  | .prochotAssert => Sys2Proof.Machine.execProchotAssert s
  | .prochotDeassert => Sys2Proof.Machine.execProchotDeassert s
  | .railCurrentLimit die => Sys2Proof.Machine.execRailCurrentLimit die s
  | .avsAck die => Sys2Proof.Machine.execAvsAck die s
  | .powerCapWindow meanWatts => Sys2Proof.Machine.execPowerCapWindow meanWatts s
  | .thermalSensorSample east west hub keeper => Sys2Proof.Machine.execThermalSensorSample east west hub keeper s
  | .thermalThrottleTick => Sys2Proof.Machine.execThermalThrottleTick s
  | .thermalRaiseTick => Sys2Proof.Machine.execThermalRaiseTick s
  | .fwWatchdogExpiry processor => Sys2Proof.Machine.execFwWatchdogExpiry processor s
  | .fatalAckTimeout => Sys2Proof.Machine.execFatalAckTimeout s
  | .autoIdleExpiry => Sys2Proof.Machine.execAutoIdleExpiry s
  | .idleExit => Sys2Proof.Machine.execIdleExit s
  | .retainEntryDone => Sys2Proof.Machine.execRetainEntryDone s
  | .retainExitDone => Sys2Proof.Machine.execRetainExitDone s
  | .offWaitExpiry => Sys2Proof.Machine.execOffWaitExpiry s
  | .chunkAckReceive g src chunks => Sys2Proof.Machine.execChunkAckReceive g src chunks s
  | .bridgeLinkLoss => Sys2Proof.Machine.execBridgeLinkLoss s
  | .timebaseReplicaLockFailure => Sys2Proof.Machine.execTimebaseReplicaLockFailure s
  | .flashEraseDone block ok => Sys2Proof.Machine.execFlashEraseDone block ok s
  | .configWrite fn w => Sys2Proof.Machine.execConfigWrite fn w s
  | .updateSlotWriteDone => Sys2Proof.Machine.execUpdateSlotWriteDone s
  | .pcieL0pWidthChange width => Sys2Proof.Machine.execPcieL0pWidthChange width s

end Sys2Proof.Machine
end

