-- ==== Sys2Proof/Machine/Tick.lean ====
section
/-! DEFINITION. The time-base (R31, R33) and the clock counts (R478) between commands: what one nanosecond brings. -/

namespace Sys2Proof.Machine

/-- Nanoseconds by which the counter moves in one nanosecond of the master (R33), with the correction that is left: a package that
leads runs at half rate; a small offset is slewed by at most 1 tick in 1,024, and here by exactly that rate until it is gone
(DESIGN CHOICE: log entry 162). -/
def tickStep (l : Links) : Nat × Links :=
  if l.lead ≠ 0 then
    if l.halfPhase then (1, { l with halfPhase := false }) else (0, { l with halfPhase := true, lead := l.lead - 1 })
  else if l.slew = 0 then (1, l)
  else if l.slewCount < 1023 then (1, { l with slewCount := l.slewCount + 1 })
  else if 0 < l.slew then (2, { l with slewCount := 0, slew := l.slew - 1 })
  else (0, { l with slewCount := 0, slew := l.slew + 1 })

/-- The quarter clocks run: ACTIVE, no reset, clocks not stopped (R20, R439, R478). -/
def clocksRun (s : State) : Bool := s.pwr.state == 0 && !s.pins.sysRst && !s.pwr.clocksStopped

/-- Every quarter's cycle count after one nanosecond of its own clock (R20, R23, R478). -/
def addCycles (s : State) : AMap Nat := (List.range 32).map fun q => (q, tget 0 s.cyc q + quarterMhz s.pwr q)

/-- One nanosecond without a command: the time-base moves, and the quarters' cycle counters. -/
def tick (s : State) : State :=
  if s.pins.aonRst then s
  else
    let r := tickStep s.links
    let on := clocksRun s
    { s with
      now := s.now + BitVec.ofNat 64 r.1
      links := r.2
      cyc := if on then addCycles s else s.cyc }

end Sys2Proof.Machine
end

