-- ==== Sys2Proof/Machine/Bounds.lean ====
section
/-! DEFINITION. What the spec promises of the contents that it does not print: the coefficient ROM of the built-in functions (R178,
R179, R190) and the shipped micro-program images (R189). The contents are open constants of Config; a statement that needs one of
these promises names it as a premise (log entry 172). An exact real value is given by a sequence of rationals that converges to it. -/

namespace Sys2Proof.Machine

/-! ## Exact functions, as limits of rationals -/

/-- The exact value of a finite pattern; 0 for the others. -/
def fvRat : Fv → Rat
  | .fin s m e => (if s then -1 else 1) * (m : Rat) * (2 : Rat) ^ e
  | _ => 0

/-- The term x^n / n!. -/
def expTerm (x : Rat) : Nat → Rat
  | 0 => 1
  | n + 1 => expTerm x n * x / ((n + 1 : Nat) : Rat)

/-- The sum of a series' first `n` terms. -/
def sumTo (f : Nat → Rat) : Nat → Rat
  | 0 => 0
  | n + 1 => sumTo f n + f n

/-- e^x. -/
def expSeq (x : Rat) (n : Nat) : Rat := sumTo (expTerm x) n

/-- The natural logarithm of a positive number, from z = (x − 1) / (x + 1). -/
def lnSeq (x : Rat) (n : Nat) : Rat := 2 * sumTo (fun k => ((x - 1) / (x + 1)) ^ (2 * k + 1) / ((2 * k + 1 : Nat) : Rat)) n

/-- tanh. -/
def tanhSeq (x : Rat) (n : Nat) : Rat := (expSeq (2 * x) n - 1) / (expSeq (2 * x) n + 1)

/-- The logistic curve. -/
def logisticSeq (x : Rat) (n : Nat) : Rat := 1 / (1 + expSeq (-x) n)

/-- 2^x. -/
def exp2Seq (x : Rat) (n : Nat) : Rat := expSeq (x * lnSeq 2 n) n

/-- 1 / √x for a positive x, to `n` bits. -/
def rsqrtSeq (x : Rat) (n : Nat) : Rat :=
  let q := 4 ^ n * x.den / x.num.toNat
  ((isqrtGo q (Nat.log2 q) 0 : Nat) : Rat) / 2 ^ n

/-- π. -/
def piSeq (n : Nat) : Rat := 4 * sumTo (fun k => (-1) ^ k / ((2 * k + 1 : Nat) : Rat)) n

/-- GELU in the erf form: x/2 + x/√(2π) × Σ (−1)^k x^(2k+1) / (2^k k! (2k+1)). -/
def geluSeq (x : Rat) (n : Nat) : Rat :=
  x / 2 + x * rsqrtSeq (2 * piSeq n) n * sumTo (fun k => expTerm (-(x * x) / 2) k * x / ((2 * k + 1 : Nat) : Rat)) n

/-- softplus: ln(1 + e^x). -/
def softplusSeq (x : Rat) (n : Nat) : Rat := lnSeq (1 + expSeq x n) n

/-- The limit of `f` lies within `err` of `v`. -/
def within (f : Nat → Rat) (v err : Rat) : Prop :=
  ∀ eps : Rat, 0 < eps → ∃ k, ∀ n, k ≤ n → v - err - eps ≤ f n ∧ f n ≤ v + err + eps

/-- `v` differs from the limit of `f` by at most the fraction `r` of it. -/
def withinRel (f : Nat → Rat) (v r : Rat) : Prop :=
  ∀ eps : Rat, 0 < eps → ∃ k, ∀ n, k ≤ n →
    v - f n ≤ r * (if f n < 0 then -f n else f n) + eps ∧ f n - v ≤ r * (if f n < 0 then -f n else f n) + eps

/-! ## Units in the last place -/

/-- The unit in the last place at a value, in a wide format (DESIGN CHOICE, log entry 172: of the binade of the value delivered). -/
def ulpAt (fmt : Nat) : Fv → Rat
  | .fin _ m e =>
    let (p, emin) : Int × Int := if fmt = 1 then (23, -126) else if fmt = 2 then (7, -126) else (10, -14)
    (2 : Rat) ^ (max (if m = 0 then emin else e + Nat.log2 m) emin - p)
  | _ => 0

/-- The value that an FP32 result has when it is written in a wide format. -/
def written (fmt v : Nat) : Fv := decodeElem fmt (drainWide fmt v).1

/-- An FP32 result is within `n` units in the last place when it is written as FP32, and within `k` as BF16 and as FP16; a result
that overflows its format is not bounded. -/
def inUlps (f : Nat → Rat) (v n k : Nat) : Prop :=
  (fvNonfin (f32 v) = false → within f (fvRat (f32 v)) ((n : Rat) * ulpAt 1 (f32 v))) ∧
  ∀ fmt, fmt = 2 ∨ fmt = 3 → fvNonfin (written fmt v) = false →
    within f (fvRat (written fmt v)) ((k : Rat) * ulpAt fmt (written fmt v))

/-- Every finite FP32 pattern in a range of values meets a condition on its pattern and its exact value. -/
def forFinite (ok : Rat → Prop) (p : Nat → Rat → Prop) : Prop :=
  ∀ x, x < 2 ^ 32 → fvNonfin (f32 x) = false → ok (fvRat (f32 x)) → p x (fvRat (f32 x))

/-! ## The coefficient ROM -/

/-- A function of positive patterns never falls from one pattern to the next between two of them. -/
def risesOn (f : Nat → Nat) (lo hi : Nat) : Prop := ∀ x, lo ≤ x → x < hi → fvLe (f32 (f x)) (f32 (f (x + 1))) = true

/-- The coefficients make the built-ins monotone (R178): within each segment, at every seam, and at the joins with the linear range
and with saturation. A negative pattern's value falls as the pattern rises. -/
def romMonotone : Prop :=
  risesOn (sfnTanh 1) 0x3B7FFFFF 0x41100000 ∧
  risesOn (sfnLogistic 2) 0x3B7FFFFF 0x41800000 ∧
  ∀ x, 0xBB7FFFFF ≤ x → x < 0xC1800000 → fvLe (f32 (sfnLogistic 2 (x + 1))) (f32 (sfnLogistic 2 x)) = true

/-- The table *Built-in error bounds* (R179). -/
def romAccurate : Prop :=
  forFinite (fun r => 1 / 256 ≤ r ∨ r ≤ -1 / 256) (fun x r => inUlps (tanhSeq r) (sfnTanh 1 x) 3 1) ∧
  forFinite (fun r => -16 < r) (fun x r => inUlps (logisticSeq r) (sfnLogistic 2 x) 3 1)

/-- The table *Compatibility mode* (R190): relative error at most 2^−16 in FP32 and 2 units in BF16 and FP16 over the segments, and
a step back of at most 2 FP32 units from one pattern to the next. -/
def romCompat : Prop :=
  (∀ f : Nat → Nat, ∀ g : Rat → Nat → Rat, (f = sfnTanh 0x11 ∧ g = tanhSeq) ∨ (f = sfnLogistic 0x12 ∧ g = logisticSeq) →
    forFinite (fun r => -16 < r) (fun x r => withinRel (g r) (fvRat (f32 (f x))) (1 / 65536) ∧
      ∀ fmt, fmt = 2 ∨ fmt = 3 → within (g r) (fvRat (written fmt (f x))) (2 * ulpAt fmt (written fmt (f x))))) ∧
  ∀ f : Nat → Nat, f = sfnTanh 0x11 ∨ f = sfnLogistic 0x12 →
    ∀ x, x < 0x7F800000 → fvRat (f32 (f x)) - 2 * ulpAt 1 (f32 (f x)) ≤ fvRat (f32 (f (x + 1)))

/-! ## The shipped images -/

/-- The result of a shipped image for an input. -/
def shippedEval (id x : Nat) : Nat := mprogEval (mprogOf (shippedImage id)) x

/-- A shipped image passes the checks of R187 and is fused where the table says (R189). -/
def shippedValid (id : Nat) : Prop :=
  mprogFormatOk (shippedImage id) (mprogOf (shippedImage id)).length = true ∧ mprogBadStep (mprogOf (shippedImage id)) = none ∧
  mprogFused (mprogOf (shippedImage id)) = decide (id ≤ 2)

/-- The edges of the shipped images' domains (R189): the exponentials overflow above 88.72 (to two decimals) and 128 and are +0
below their subnormal range; the logarithm of a negative value is NaN. -/
def shippedEdges : Prop :=
  (∀ id, id = 1 ∨ id = 3 →
    forFinite (fun r => 8873 / 100 ≤ r) (fun x _ => shippedEval id x = 0x7F800000) ∧ forFinite (fun r => r ≤ -104) (fun x _ => shippedEval id x = 0)) ∧
  forFinite (fun r => 128 ≤ r) (fun x _ => shippedEval 2 x = 0x7F800000) ∧ forFinite (fun r => r < -150) (fun x _ => shippedEval 2 x = 0) ∧
  forFinite (fun r => r < 0) (fun x _ => f32IsNan (shippedEval 4 x) = true)

/-- A fast exponential's bounds: a relative error of 2.8 × 10^−6 in FP32, and 1 unit in BF16 and FP16. -/
def fastOk (f : Nat → Rat) (v : Nat) : Prop :=
  inUlps f v 48 1 ∧ (fvNonfin (f32 v) = false → 2 ^ 23 ≤ v → withinRel f (fvRat (f32 v)) (28 / 10000000))

/-- The bounds of the table *Shipped micro-programs* (R189), over each function's domain. -/
def shippedBounds : Prop :=
  forFinite (fun _ => True) (fun x r => fastOk (expSeq r) (shippedEval 1 x) ∧ fastOk (exp2Seq r) (shippedEval 2 x) ∧
    inUlps (expSeq r) (shippedEval 3 x) 2 1 ∧ inUlps (softplusSeq r) (shippedEval 8 x) 4 1 ∧
    (inUlps (geluSeq r) (shippedEval 7 x) 4 1 ∨ within (geluSeq r) (fvRat (f32 (shippedEval 7 x))) (1 / 2 ^ 30))) ∧
  forFinite (fun r => 0 < r) (fun x r => inUlps (lnSeq r) (shippedEval 4 x) 3 1 ∧ inUlps (rsqrtSeq r) (shippedEval 6 x) 2 1) ∧
  forFinite (fun r => r ≠ 0) (fun x r => inUlps (fun _ => 1 / r) (shippedEval 5 x) 1 1)

end Sys2Proof.Machine
end

