-- ==== Sys2Proof/WellFormed.lean ====
section
/-! DEFINITION. Which commands are well formed: a command names a function, slot, district, core, port, group, pipe or other unit
that the device can have (R4, R15, R21, R46, R56, R57, R269). -/

namespace Sys2Proof

/-- The unit numbers of a command, each with its bound. -/
def unitBounds : Instr → List (Nat × Nat)
  | .configRead fn _ | .functionLevelReset fn | .flrDone fn | .mboxSeqWaitExpiry fn | .replyPost fn | .bar2Read fn _ _
  | .bar2Write fn _ _ | .hostFlagsRead fn _ | .hostFlagsClear fn _ | .regLowWordRead fn _ _ | .bar0PlainWrite fn _ _
  | .consRoutineRead fn _ | .ringAgeExpiry fn | .configWrite fn _ => [(fn, 32)]
  | .inboundOwnerPost fn slot _ | .outboundSlotReturn fn slot | .mailboxSlotWrite fn _ slot _ _ | .mailboxTake fn slot => [(fn, 32), (slot, 32)]
  | .devNop c | .devIndex c | .devRingSet c | .devRingOff c | .devWindow c | .devRecBegin c | .devRecData c
  | .devRecEnd c | .distCreate c | .distDestroy c | .distPause c | .distResume c | .distRecover c | .distInfo c
  | .progLoad c | .progStart c | .progAbort c | .progStatus c | .progUnload c | .progSlotLoad c | .progSlotClear c
  | .progSlotInfo c | .progTblLoad c | .progTblClear c | .progTblInfo c | .memSegSet c | .memSegClear c | .memSegInfo c
  | .memMove c | .memVolCreate c | .memVolDelete c | .memVolOwner c | .memFlashInfo c | .collLinkConfig c
  | .collLinkRoute c | .collLinkEnable c | .collLinkDisable c | .collLinkInfo c | .collGroupCreate c
  | .collGroupDestroy c | .collPlanSet c | .collGroupReset c | .collAbort c | .collGroupInfo c | .collDirWrite c
  | .collDirRead c | .collDispBind c | .collDispInfo c | .stepConfig c | .stepRun c | .stepStop c | .stepCommit c
  | .stepResume c | .stepInfo c | .stepSet c | .servePoolCreate c | .servePoolDestroy c | .serveJoin c | .serveLeave c
  | .serveTruncate c | .serveSeqInfo c | .servePoolInfo c | .serveRun c | .serveStop c | .mediaJobStart c
  | .mediaJobExtend c | .mediaJobStop c | .mediaPipeInfo c | .snapPolicy c | .snapTake c | .snapInfo c | .snapRestore c
  | .snapFill c | .snapFillInfo c | .snapServe c | .secUpdateBegin c | .secUpdateData c | .secUpdateEnd c
  | .secRollbackAdvance c | .secOwnerSet c | .secLifecycle c | .secStoreWrite c | .secInfo c | .pwrState c | .pwrCap c
  | .pwrInfo c | .dbgNonce c | .dbgOpen c | .dbgClose c | .dbgAccess c | .dbgInfo c => [(c.fn, 32)]
  | .recoveryStart | .pcieLinkTrained _ _ _ | .pcieLinkLoss | .pcieLinkReturn | .eventRecordArrival _
  | .ringHoldExpiry _ | .pldmEffecterWrite _ | .spdmGetVersion _ | .spdmGetCapabilities _
  | .spdmNegotiateAlgorithms _ _ _ | .spdmGetDigests _ | .spdmGetCertificate _ _ _ _ | .spdmChallenge _ _ _
  | .spdmGetMeasurements _ _ _ _ | .memRequestAgeLimit _ | .memRefresh _ _ _ | .memVolCreateDone _
  | .flashExtentReadDone _ _ _ _ | .flashProgramDone _ _ _ _ | .flashRetentionRead _ _ | .flashCalibration
  | .rootLossTimer | .healthRecompute _ | .lifecycleReturnDone | .storeWriteDone | .zeroiseDone _ | .nonceExpiry
  | .debugSessionExpiry | .jtagIdcode | .jtagBypass _ | .jtagSamplePreload _ | .jtagExtest | .jtagClamp | .jtagHighz
  | .jtagExtestPulse | .jtagExtestTrain | .jtagDbgNonce | .jtagDbgToken _ | .jtagDbgAccess _ | .aonRstNAssert
  | .aonRstNDeassert | .sysRstNAssert | .sysRstNDeassert _ | .indexBuildDone | .bootVerifyDone | .perstNAssert
  | .perstNDeassert | .pwrGoodFall | .prochotAssert | .prochotDeassert | .powerCapWindow _
  | .thermalSensorSample _ _ _ _ | .thermalThrottleTick | .thermalRaiseTick | .fatalAckTimeout | .autoIdleExpiry
  | .idleExit | .retainEntryDone | .retainExitDone | .offWaitExpiry | .bridgeLinkLoss | .timebaseReplicaLockFailure
  | .flashEraseDone _ _ | .updateSlotWriteDone | .pcieL0pWidthChange _ => []
  | .msiModerationExpiry fn vec => [(fn, 32), (vec, 64)]
  | .distDrainDone d | .distSaveDone d | .distRestoreDone d | .distRecoverDone d | .progLoadFinal d | .progAbortFinal d
  | .pairIncrement d _ | .memMoveDone d | .tierExtentTransferDone d | .dirWriteInstall d | .stepOpen d | .feedMoveDone d
  | .gateMemberReady d | .gateMessageReceive d _ | .updateProgramComplete d | .gateEvalTimeout d
  | .earlyRefusalNotice d _ _ _ | .earlyAbortComplete d | .serveBoundary d _ | .serveStepStart d _ | .serveStepComplete d
  | .snapRestoreDone d | .snapCaptureDone d | .snapMirrorReceive d _ _ _ | .snapRegionWriteDone d _
  | .fillRequestReceive d _ | .fillExtentReceive d _ _ _ => [(d, 32)]
  | .tableChangeInstall d slot => [(d, 32), (slot, 4)]
  | .descFetch d core | .matmul d core | .matmulTileDrain d core | .lane d core | .sfn d core | .move d core
  | .signal d core | .waitDesc d core | .coll d core | .walk d core | .census d core | .fence d core | .nop d core
  | .prefetchComplete d core _ | .descComplete d core | .waitConditionMet d core | .waitTimerExpiry d core
  | .readDeadlineExpiry d core _ _ | .sliceAccess d core _ _ _ | .sliceAtomic d core _ _ | .ordsumContribution d core _ _
  | .memTransactionComplete d core _ _ _ => [(d, 32), (core, 2048)]
  | .patrolScrub site _ => [(site, 24)]
  | .memCe site => [(site, 56)]
  | .memSegZeroFillDone d seg => [(d, 32), (seg, 256)]
  | .linkTrainingAttemptEnd port _ | .identReceive port _ | .flitSend port | .nullSend port | .flitReceive port _ _
  | .nakReceive port _ | .nakRepeatTimer port | .creditSetReceive port _ | .syncSend port | .syncReceive port _
  | .linkWatchdogExpiry port | .retrainComplete port _ _ _ | .linkCe port => [(port, 24)]
  | .laneLockLoss port lane => [(port, 24), (lane, 4)]
  | .collPutAccept g | .chunkCheckDone g _ _ _ | .chunkAckBatch g | .retxRequestReceive g _ _ | .taintNoticeReceive g _ _
  | .abortNoticeReceive g _ _ _ | .groupTimeoutExpiry g | .instanceClose g | .dispatchBlockRoute g | .dispatchInboxWrite g
  | .slotCountsTakeDone g | .instanceCountsTakeDone g | .chunkAckReceive g _ _ => [(g, 64)]
  | .chunkMessageReceive g port | .dispatchMessageReceive g port | .returnMessageReceive g port => [(g, 64), (port, 24)]
  | .coldWarmingDone g slot | .coldDeadlineExpiry g slot => [(g, 64), (slot, 256)]
  | .immediateEditApply d slot => [(d, 32), (slot, 65536)]
  | .mediaFrameDecode pipe _ | .tokenGroupConvert pipe | .mediaJobEnd _ pipe => [(pipe, 4)]
  | .mediaFrameEncode pipe f =>
    (pipe, 2) :: f.motion.flatMap fun m => [(m.ref, 3), (m.x % 64 + m.w, 65), (m.y % 64 + m.h, 65)]
  | .jtagScanChain chain => [(chain, 16)]
  | .railOutOfRangeExpiry rail => [(rail, 12)]
  | .railCurrentLimit die | .avsAck die => [(die, 2)]
  | .fwWatchdogExpiry processor => [(processor, 4)]

/-- Every unit number of a command is within its bound. -/
def Instr.wf (i : Instr) : Bool := (unitBounds i).all fun b => b.1 < b.2

end Sys2Proof
end

