-- ==== Sys2Proof/Safety.lean ====
section
/-! DEFINITION. What a safe run of the block is: no step of it stops; and the words in which the statements speak of an
answer, of a request that passes the shared checks, and of its reply. -/

namespace Sys2Proof.Machine

/-- An answer is a next state. -/
def isNext (a : Answer) : Bool := match a with
  | .next _ => true
  | _ => false

/-- Every command that waits is well formed. -/
def queueWf (s : State) : Bool := s.pending.all Instr.wf

/-- The block can take `n` steps from a state without a fault or a refusal. -/
def runsFor : Nat → State → Bool
  | 0, _ => true
  | n + 1, s => match step s with
    | .next t => runsFor n t
    | _ => false

/-- An answer is a next state of which `P` holds. -/
def goesTo (a : Answer) (P : State → Prop) : Prop := ∃ t, a = .next t ∧ P t

/-- Nothing but the functions' state changes. -/
def onlyFns (s t : State) : Prop := t = { s with fns := t.fns }

/-- A request that no shared check turns away (R49, R62, R67, R80, R433, R371): firmware serves it, its payload fits a slot,
PF0-only commands come from PF0, its DISTRICT field names a district the function may address, and a command that acts on a
district finds one that exists. -/
structure Sendable (k : Spec) (c : FwReq) (s : State) : Prop where
  fn : c.fn < 32
  served : served s = true
  rom : romServes s = true → k.romOk = true
  scan : dbgLevel s = 3 → k.scanOk = true
  fits : c.payload.length ≤ 480
  pf0 : k.pf0 = true → c.fn = 0
  own : c.fn ≠ 0 → c.district.toNat = c.fn
  named : c.fn = 0 → c.district.toNat < 32 ∨ (k.wide = true ∧ c.district.toNat = 255)
  lives : k.wide = false → k.emptyOk = false → (getDist s (cmdDist c)).state ≠ 0

/-- The OK reply to a request. -/
def okReply (c : FwReq) (cmd : Nat) (payload : Bytes) : Reply := { req := c, cmd := cmd, payload := payload }

/-- The ACCEPTED reply to a request (R64). -/
def acceptedReply (c : FwReq) (cmd : Nat) : Reply := { req := c, cmd := cmd, final := false, status := 1 }

/-- The reply that refuses a request. -/
def errReply (c : FwReq) (cmd : Nat) (e : Err) : Reply :=
  { req := c, cmd := cmd, status := e.status, state := e.state, payload := e.payload }

/-- The final reply of a two-stage command (R64). -/
def doneReply (p : Pend) (status state : Nat) (payload : Bytes) : Reply :=
  { req := p.req, cmd := p.cmd, status := status, state := state, payload := payload, first := false }

/-- The replies of a function after, beside those before: `l` is what the command adds. -/
def repliesAdd (s t : State) (f : Nat) (l : List Reply) : Prop := (getFn t f).replies = (getFn s f).replies ++ l

/-- A descriptor of a kind stands at the head of the queue of a core that has issued nothing else, in a district that runs its
program, with the quarters powered and clocked and no debug halt; it carries no prefetch (R88, R89, R101). -/
structure AtHead (s : State) (d core : Nat) (q : QEntry) (rest : List QEntry) (kind : Nat) : Prop where
  powered : quartersRun s = true
  active : s.pwr.state = 0
  runs : (getDist s d).state = 3
  going : ∃ r, (getDist s d).run = some r ∧ r.stopped = false
  free : (getDist s d).dbgHalt = false
  queue : (getCore s d core).queue = q :: rest
  issued : (getCore s d core).issued = []
  prefetches : (getCore s d core).prefetches = []
  halted : (getCore s d core).halted = false
  is : fld q.raw 7 0 = kind
  bare : bit q.raw 10 = false

/-- A core works on one issued descriptor and nothing else. -/
structure Working (s : State) (d core : Nat) (i : Issued) : Prop where
  works : coresWork s d = true
  issued : (getCore s d core).issued = [i]
  prefetches : (getCore s d core).prefetches = []

/-- An answer is a next state that follows from one of which `P` holds by what a district's faults and completions bring about
(`settle`: R108, R110, R343, R372). -/
def goesToSettled (a : Answer) (d : Nat) (P : State → Prop) : Prop := goesTo a fun t => ∃ u, t = settle d u ∧ P u

/-- The same for an event of links, groups or the store, after which every district settles. -/
def goesToAllSettled (a : Answer) (P : State → Prop) : Prop := goesTo a fun t => ∃ u, t = settleAll u ∧ P u

/-- The event log after is the one before and the records `l`, stamped now. -/
def logs (s t : State) (l : List (Nat × Nat × Nat × Nat × List Nat)) : Prop :=
  t.emitted = s.emitted ++ l.map fun e => ⟨s.now, e.1, e.2.1, e.2.2.1, e.2.2.2.1, e.2.2.2.2⟩

/-- No port but `p` changes. -/
def onlyPort (s t : State) (p : Nat) : Prop := ∀ q, q ≠ p → getPort t q = getPort s q

end Sys2Proof.Machine
end

