-- ==== Sys2Proof/Certificates/Slice0/Obligations.lean ====
section
/-! DEFINITION. The statements about the block, for the provers. A statement that rests on a choice of the model says so and names the
log entry. -/

section

open Sys2Proof Sys2Proof.Machine

/-! ## The host port (R54–R66, R465–R471) -/

/-- Reads of a 64-bit register (R466): an 8-byte read returns one value; a 4-byte read of the low word latches the other half for its
function; the next high-word read of that register returns the latched half, and any other high-word read the current one; every other
BAR0 access, an 8-byte read among them, of the function ends the latch; the latches of other functions stay.
Commands shown to complete (exec = .next t for some t, under conditions on state and operands alone): hostFlagsRead, regLowWordRead,
hostFlagsClear, bar0PlainWrite, mailboxSlotWrite, inboundOwnerPost, outboundSlotReturn. -/
def Obligations.LowWordReadsAreLatched : Prop :=
  ∀ (f : Nat) (s : State), f < 32 → reaches s f = true →
    (goesTo (exec (.hostFlagsRead f .whole) s) fun t => t.out = .readData f (leBytes 8 (reg64 s f 0x18).toNat) false :: s.out) ∧
    (∀ off, isReg64 f off = true →
      (goesTo (exec (.regLowWordRead f off false) s) fun t =>
        t.out = .readData f (leBytes 4 (half (reg64 s f off) false).toNat) false :: s.out ∧
        (getFn t f).latch = some (off, half (reg64 s f off) true) ∧ t.dists = s.dists ∧ t.emitted = s.emitted ∧
        (off ≠ 0x18 → (getFn t f).flags = (getFn s f).flags) ∧ ∀ g, g ≠ f → getFn t g = getFn s g) ∧
      (∀ h, (getFn s f).latch = some (off, h) → goesTo (exec (.regLowWordRead f (off + 4) false) s) fun t =>
        t.out = .readData f (leBytes 4 h.toNat) false :: s.out ∧ (getFn t f).latch = none) ∧
      ((∀ h, (getFn s f).latch ≠ some (off, h)) → goesTo (exec (.regLowWordRead f (off + 4) false) s) fun t =>
        t.out = .readData f (leBytes 4 (half (reg64 s f off) true).toNat) false :: s.out ∧ (getFn t f).latch = none)) ∧
    (∀ off, isReg64 f off = true → goesTo (exec (.regLowWordRead f off true) s) fun t =>
      t.out = .readData f (leBytes 8 (reg64 s f off).toNat) false :: s.out ∧ (getFn t f).latch = none ∧ t.dists = s.dists ∧
      t.emitted = s.emitted ∧ ∀ g, g ≠ f → getFn t g = getFn s g) ∧
    (∀ (a slot o : Nat) (out : Bool) (d : Bytes) (v : BitVec 64),
      ∀ i ∈ [Instr.hostFlagsRead f .whole, .hostFlagsClear f v, .bar0PlainWrite f a d, .mailboxSlotWrite f out slot o d, .inboundOwnerPost f slot d,
        .outboundSlotReturn f slot], goesTo (exec i s) fun t =>
          (getFn t f).latch = none ∧ ∀ g, g ≠ f → (getFn t g).latch = (getFn s g).latch)

/-- The set-wins rule (R471): a set makes the flag 1 and its count one more, up to 65,535; the count field shows the count, or 255 above it; a
read records the field as its reader's snapshot; a write of 1 takes the snapshot from the count, or makes it 0 without one, and the flag is
0 only when the count is; a set that comes with such a write is applied after it; a 0 leaves the flag as it was.
Commands shown to complete (exec = .next t for some t, under conditions on state and operands alone): hostFlagsRead, hostFlagsClear. -/
def Obligations.FlagsFollowSetWins : Prop :=
  ∀ (f i : Nat) (v : BitVec 64) (s : State), f < 32 → reaches s f = true → i < 6 → (i = 5 → f = 0) →
    let x := tget {} (getFn s f).flags i
    (let y := tget {} (getFn (setFlag s f i) f).flags i
     y.set = true ∧ y.count = min 65535 (x.count + 1) ∧ y.snap = x.snap) ∧
    (hostFlags (getFn s f)).toNat.testBit i = x.set ∧ (hostFlags (getFn s f)).toNat / 2 ^ (16 + 8 * i) % 256 = min x.count 255 ∧
    (goesTo (exec (.hostFlagsRead f .whole) s) fun t =>
      tget {} (getFn t f).flags i = { x with snap := some (min x.count 255) } ∧ onlyFns { s with out := t.out } t) ∧
    (goesTo (exec (.hostFlagsClear f v) s) fun t =>
      let y := tget {} (getFn t f).flags i
      onlyFns s t ∧
      (v.toNat.testBit i = true → y.count = x.count - x.snap.getD x.count ∧ y.set = (y.count != 0) ∧ y.snap = none ∧
        (let z := tget {} (getFn (setFlag t f i) f).flags i; z.set = true ∧ 1 ≤ z.count)) ∧
      (v.toNat.testBit i = false → y = x))

/-- A host write to a mailbox slot (R60, R61). Accepted, it changes the slot's bytes and nothing else of the machine but the
function's read latch. Turned away, no slot changes, MBOX_VIOLATION names the function, slot and offset, and flag 4 counts
one more.
Commands shown to complete (exec = .next t for some t, under conditions on state and operands alone): mailboxSlotWrite,
inboundOwnerPost, outboundSlotReturn, bar0PlainWrite. -/
def Obligations.SlotWritesAreTakenOrLogged : Prop :=
  ∀ (f slot : Nat) (s : State), f < 32 → reaches s f = true → slot < 32 →
    (∀ (off : Nat) (d : Bytes), off + d.length ≤ 512 → 0 < off → slotOwner (getFn s f).inbox slot ≠ 0xA5 →
      goesTo (exec (.mailboxSlotWrite f false slot off d) s) fun t =>
        onlyFns s t ∧ (getFn t f).inbox = memWrite (getFn s f).inbox (512 * slot + off) d ∧
        (getFn t f).outbox = (getFn s f).outbox ∧ (getFn t f).flags = (getFn s f).flags) ∧
    (∀ (rest : Bytes), rest.length ≤ 511 → slotOwner (getFn s f).inbox slot = 0 →
      goesTo (exec (.inboundOwnerPost f slot rest) s) fun t =>
        onlyFns s t ∧ (getFn t f).inbox = memWrite (getFn s f).inbox (512 * slot) (0x5A :: rest) ∧
        (getFn t f).outbox = (getFn s f).outbox) ∧
    (slotOwner (getFn s f).outbox slot = 0x5A →
      goesTo (exec (.outboundSlotReturn f slot) s) fun t =>
        onlyFns s t ∧ (getFn t f).outbox = memWrite (getFn s f).outbox (512 * slot) [0] ∧
        (getFn t f).inbox = (getFn s f).inbox) ∧
    (∀ (out : Bool) (off : Nat) (d : Bytes), d ≠ [] → off + d.length ≤ 512 →
      (out = true ∧ (0 < off ∨ 1 < d.length)) ∨ (out = false ∧ 0 < off ∧ slotOwner (getFn s f).inbox slot = 0xA5) →
      goesTo (exec (.mailboxSlotWrite f out slot off d) s) fun t =>
        (getFn t f).inbox = (getFn s f).inbox ∧ (getFn t f).outbox = (getFn s f).outbox ∧
        t.emitted = s.emitted ++ [⟨s.now, 0x880, 0x002, 1, f, [f, slot, off]⟩] ∧
        (tget {} (getFn t f).flags 4).count = min 65535 ((tget {} (getFn s f).flags 4).count + 1) ∧
        t.dists = s.dists) ∧
    (∀ (off : Nat) (d : Bytes), off + d.length ≤ 512 → 0 < off → off < 512 → slotOwner (getFn s f).inbox slot ≠ 0xA5 →
      goesTo (exec (.bar0PlainWrite f (0x10000 + 512 * slot + off) d) s) fun t =>
        (getFn t f).inbox = memWrite (getFn s f).inbox (512 * slot + off) d)

/-- Firmware takes a POSTED slot (R62, R63): its OWNER becomes TAKEN, unless a higher function's command ran at this time-base value: the
take then waits for the next value (R65, log entry 133). With the expected SEQ and nothing waiting, its command runs at once; ahead of it by 1 to 31 and not a repeat, it waits; else it is refused with BAD_FORMAT. A slot that is not
POSTED is left alone.
The wait for a missing SEQ ends after 1 ms (R63): the numbers skipped are logged, one MBOX_GAP each, and the waiting
command with the lowest SEQ runs. Earlier, or when the missing SEQ stands posted, nothing happens.
Commands shown to complete (exec = .next t for some t, under conditions on state and operands alone): mailboxTake,
mboxSeqWaitExpiry. -/
def Obligations.SlotsAreTakenInSeqOrder : Prop :=
  (∀ (f slot : Nat) (s : State), f < 32 → slot < 32 → voxubRuns s = true → (getFn s f).flr = false →
     slotOwner (getFn s f).inbox slot = 0x5A →
     let h := parseSlot f slot (memRead (getFn s f).inbox (512 * slot) 512) s.now
     let k := (h.req.seq - (getFn s f).expSeq).toNat
     let taken := modFn s f fun x => { x with inbox := memSet x.inbox (512 * slot) 0xA5 }
     (mayRelease s f = false → exec (.mailboxTake f slot) s = .next s) ∧
     (mayRelease s f = true → k = 0 → (getFn s f).held = [] → goesTo (exec (.mailboxTake f slot) s) fun t =>
       t = releaseHeld f 32 (runCommand h (modFn taken f fun x => { x with expSeq := x.expSeq + 1 }))) ∧
     (mayRelease s f = true → 0 < k → k ≤ 31 → (∀ y ∈ (getFn s f).held, y.req.seq ≠ h.req.seq) → goesTo (exec (.mailboxTake f slot) s) fun t =>
       t = modFn taken f fun x => { x with held := x.held ++ [h] }) ∧
     (mayRelease s f = true → 31 < k → goesTo (exec (.mailboxTake f slot) s) fun t =>
       onlyFns s t ∧ repliesAdd s t f [errReply h.req h.cmd badFormat] ∧ (getFn t f).expSeq = (getFn s f).expSeq)) ∧
  (∀ (f : Nat) (s : State) (h : Held), f < 32 → served s = true → (getFn s f).held = [h] →
     (h.req.takenAt.toNat + 1000000 ≤ time s → mayRelease s f = true → expectedPosted (getFn s f) = false → goesTo (exec (.mboxSeqWaitExpiry f) s) fun t =>
       t = releaseHeld f 32 (modFn (logGaps f (getFn s f).expSeq (h.req.seq - (getFn s f).expSeq).toNat s) f
         fun x => { x with expSeq := h.req.seq })) ∧
     (time s < h.req.takenAt.toNat + 1000000 ∨ expectedPosted (getFn s f) = true → exec (.mboxSeqWaitExpiry f) s = .next s))

/-- A reply goes out in the order it was formed (R64): into slot NEXT_OUT, which must be EMPTY; the next slot is the one after
it modulo 32, REPLY counts one more, and a first reply frees the inbound slot of its request. While the slot is not EMPTY
nothing happens.
Commands shown to complete (exec = .next t for some t, under conditions on state and operands alone): replyPost. -/
def Obligations.RepliesArePostedInOrder : Prop :=
  ∀ (f : Nat) (s : State) (r : Reply) (l : List Reply), f < 32 → (getFn s f).replies = r :: l → served s = true →
    (getFn s f).flr = false →
    (slotOwner (getFn s f).outbox (getFn s f).nextOut = 0 → goesTo (exec (.replyPost f) s) fun t =>
      (getFn t f).replies = l ∧ (getFn t f).nextOut = ((getFn s f).nextOut + 1) % 32 ∧
      (getFn t f).outbox = memWrite (memClear (getFn s f).outbox (512 * (getFn s f).nextOut) 512)
        (512 * (getFn s f).nextOut) (replyBytes r s.now) ∧
      (getFn t f).inbox = (if r.first = true ∧ slotOwner (getFn s f).inbox r.req.slot = 0xA5
        then memSet (getFn s f).inbox (512 * r.req.slot) 0 else (getFn s f).inbox) ∧
      (tget {} (getFn t f).flags 0).count = min 65535 ((tget {} (getFn s f).flags 0).count + 1) ∧
      t.dists = s.dists ∧ t.emitted = s.emitted) ∧
    (slotOwner (getFn s f).outbox (getFn s f).nextOut ≠ 0 → exec (.replyPost f) s = .next s)

/-- A Function Level Reset (R66) empties the function's slots, its expected SEQ, ring, window base and bindings, drops what
the ring writer holds for it and discards its replies, and leaves every district as it is; its end is logged once,
device-wide.
Commands shown to complete (exec = .next t for some t, under conditions on state and operands alone): functionLevelReset, flrDone. -/
def Obligations.FunctionLevelResetClears : Prop :=
  ∀ (f : Nat) (s : State), f < 32 →
    (reaches s f = true → goesTo (exec (.functionLevelReset f) s) fun t =>
      (getFn t f).inbox = [] ∧ (getFn t f).outbox = [] ∧ (getFn t f).expSeq = 0 ∧ (getFn t f).held = [] ∧
      (getFn t f).replies = [] ∧ (getFn t f).ring.enabled = false ∧ (getFn t f).winBase = 0 ∧ (getFn t f).binds = [] ∧
      (getFn t f).flr = true ∧ t.dists = s.dists ∧ t.emitted = s.emitted ∧
      (getFn t f).ring.lost = 0 ∧ (∀ h ∈ t.held, f ∉ h.dests) ∧ (∀ g, g ≠ f → getFn t g = getFn s g) ∧
      ∀ (p : Pend) (st c : Nat) (b : Bytes), p.req.fn = f → p.epoch = (getFn s f).epoch → getFn (finish t p st c b) f = getFn t f) ∧
    ((getFn s f).flr = true → goesTo (exec (.flrDone f) s) fun t =>
      (getFn t f).flr = false ∧ t.emitted = s.emitted ++ [⟨s.now, 0x880, 0x007, 0, 0xFF, [f]⟩] ∧ t.dists = s.dists)

/-- BAR2 (R58): a read answers with one byte for each byte asked; a byte on no segment of the district reads 0xFF; an access
that meets such bytes is logged once, with the lowest address among them; a poisoned read is reported through AER. A write of bytes that one writable segment holds
writes them there; a write on no segment writes nothing.
Commands shown to complete (exec = .next t for some t, under conditions on state and operands alone): bar2Read, bar2Write. -/
def Obligations.WindowAccessesComplete : Prop :=
  ∀ (f off : Nat) (s : State), f < 32 → reaches s f = true →
    (∀ n, off + n ≤ 2 ^ (getFn s f).bar2Log → goesTo (exec (.bar2Read f off n) s) fun t =>
      ∃ d ep, t.out = (if ep then [.aer f] else []) ++ .readData f d ep :: s.out ∧ d.length = n ∧ t.backs = s.backs ∧
        (∀ i < n, segAt s f ((getFn s f).winBase.toNat + off + i) = none → d[i]? = some 0xFF) ∧
        ((∀ i < n, segAt s f ((getFn s f).winBase.toNat + off + i) ≠ none) → t.emitted = s.emitted)) ∧
    (∀ d, off + d.length ≤ 2 ^ (getFn s f).bar2Log → d ≠ [] → (getDist s f).segs = [] →
      goesTo (exec (.bar2Write f off d) s) fun t =>
        t.backs = s.backs ∧ t.dists = s.dists ∧
        t.emitted = s.emitted ++ [⟨s.now, 0x880, 0x003, 1, f, [f, (getFn s f).winBase.toNat + off]⟩]) ∧
    (∀ d k e, off + d.length ≤ 2 ^ (getFn s f).bar2Log → d ≠ [] → (getDist s f).segs = [(k, e)] → k ≠ poolSeg (getDist s f) →
      e.tier ≠ 3 → e.ro = false →
      e.dbase ≤ (getFn s f).winBase.toNat + off → (getFn s f).winBase.toNat + off + d.length ≤ e.dbase + e.size →
      goesTo (exec (.bar2Write f off d) s) fun t => t = segWrite s e ((getFn s f).winBase.toNat + off - e.dbase) d)

/-- Configuration accesses (R54–R57, R76): a read is answered, whatever the firmware does; VF Enable is PF0's; the BAR2 size is 256 MiB to 64 GiB; a vector's mask bit
and the MSI-X enable are the function's own. No district changes.
Commands shown to complete (exec = .next t for some t, under conditions on state and operands alone): configRead, configWrite. -/
def Obligations.ConfigAccessesComplete : Prop :=
  ∀ (f : Nat) (s : State), f < 32 → reaches s f = true →
    (∀ off, goesTo (exec (.configRead f off) s) fun t =>
      t.out = .cfgData f off (Config.configSpace (capabilities s f) f off s.freeCtr) :: s.out ∧ t.fns = s.fns ∧ t.dists = s.dists) ∧
    (∀ n ≤ 31, f = 0 → romServes s = false → goesTo (exec (.configWrite f (.vfEnable n)) s) fun t =>
      t = { s with pcie := { s.pcie with vfs := n } }) ∧
    (∀ l, 28 ≤ l → l ≤ 36 → goesTo (exec (.configWrite f (.bar2Log l)) s) fun t =>
      onlyFns s t ∧ (getFn t f).bar2Log = l) ∧
    (∀ l, l < 28 ∨ 36 < l → exec (.configWrite f (.bar2Log l)) s = .next s) ∧
    (∀ v < 64, goesTo (exec (.configWrite f (.msixMask v true)) s) fun t =>
      v ∈ (getFn t f).msixMasked ∧ t.dists = s.dists ∧ t.emitted = s.emitted)

/-! ## The DEV_ group and recovery (R70, R71, R80, R81) -/

/-- The DEV_ commands complete (R39, R70): each forms its one OK reply, and what else of the machine changes is named.
Commands shown to complete (exec = .next t for some t, under conditions on state and operands alone): devNop, devIndex, devRingSet,
devRingOff, devWindow. -/
def Obligations.DeviceCommandsComplete : Prop :=
  ∀ (c : FwReq) (s : State),
    (Sendable specDevNop c s → c.payload = [] → goesTo (exec (.devNop c) s) fun t =>
      onlyFns s t ∧ repliesAdd s t c.fn [okReply c 0x0100 (leBytes 8 s.now.toNat)]) ∧
    (Sendable specDevIndex c s → c.payload.length = 8 → fld c.payload 63 48 = 0 → fld c.payload 31 0 % 8 = 0 →
      fld c.payload 47 32 % 8 = 0 → 0 < fld c.payload 47 32 → fld c.payload 47 32 ≤ 448 →
      fld c.payload 31 0 + fld c.payload 47 32 ≤ s.index.length → goesTo (exec (.devIndex c) s) fun t =>
      onlyFns s t ∧ repliesAdd s t c.fn
        [okReply c 0x0101 (c.payload ++ slice s.index (fld c.payload 31 0) (fld c.payload 47 32))]) ∧
    (Sendable specDevRingSet c s → c.payload.length = 32 → zeroAt c.payload [(255, 193)] = true →
      (c.fn ≠ 0 → bit c.payload 192 = false) → ringArgsOk c.payload = true → (getFn s c.fn).ring.enabled = false →
      goesTo (exec (.devRingSet c) s) fun t =>
        (getFn t c.fn).ring = ringOf c.payload (getFn s c.fn).ring ∧ repliesAdd s t c.fn [okReply c 0x0102 []] ∧
        t.dists = s.dists ∧ t.emitted = (if c.fn = 0 then s.emitted ++ s.deferred else s.emitted) ∧
        t.deferred = (if c.fn = 0 then [] else s.deferred)) ∧
    (Sendable specDevRingOff c s → c.payload = [] → (getFn s c.fn).ring.enabled = true →
      goesTo (exec (.devRingOff c) s) fun t =>
        (getFn t c.fn).ring.enabled = false ∧ (∀ h ∈ t.held, c.fn ∉ h.dests) ∧ t.dists = s.dists ∧
        repliesAdd s t c.fn [okReply c 0x0103
          (leBytes 8 (getFn t c.fn).ring.produce.toNat ++ leBytes 8 (getFn t c.fn).ring.lost.toNat)]) ∧
    (Sendable specDevWindow c s → c.payload.length = 8 → fld c.payload 63 0 % 2 ^ (getFn s c.fn).bar2Log = 0 →
      fld c.payload 63 0 + 2 ^ (getFn s c.fn).bar2Log ≤ 2 ^ 48 → goesTo (exec (.devWindow c) s) fun t =>
        onlyFns s t ∧ (getFn t c.fn).winBase = (getFn s c.fn).winBase ∧
        repliesAdd s t c.fn [{ req := c, cmd := 0x0104, window := some (BitVec.ofNat 64 (fld c.payload 63 0)) }])

/-- Recovery (R80, R81): BEGIN opens a bundle, DATA writes its bytes, END marks the start due, and RECOVERY_START runs Voxub
from the loaded copy and logs RECOVERY_BOOTED once; while Voxub runs, the three commands are unknown.
Commands shown to complete (exec = .next t for some t, under conditions on state and operands alone): devRecBegin, devRecData,
devRecEnd, recoveryStart. -/
def Obligations.RecoveryCommandsComplete : Prop :=
  ∀ (c : FwReq) (s : State),
    (romServes s = true → Sendable specDevRecBegin c s → c.payload.length = 8 → fld c.payload 63 33 = 0 →
      fld c.payload 31 0 ≤ 33554432 → goesTo (exec (.devRecBegin c) s) fun t =>
        t.sec.recovery = some { len := fld c.payload 31 0, writeFlash := bit c.payload 32 } ∧ t.sec.recStart = false ∧
        repliesAdd s t c.fn [okReply c 0x01F0 []] ∧ t.nvm = s.nvm) ∧
    (∀ g, romServes s = true → Sendable specDevRecData c s → dataFormOk c.payload = true → s.sec.recovery = some g →
      fld c.payload 31 0 % 8 = 0 → fld c.payload 31 0 + (c.payload.length - 8) ≤ g.len →
      goesTo (exec (.devRecData c) s) fun t =>
        t.sec.recovery.map (·.data) = some (memWrite g.data (fld c.payload 31 0) (c.payload.drop 8)) ∧
        repliesAdd s t c.fn [okReply c 0x01F1 []] ∧ t.nvm = s.nvm) ∧
    (∀ g, romServes s = true → Sendable specDevRecEnd c s → c.payload = [] → s.sec.recovery = some g → fullyWritten g = true →
      bundleFail s.sec g.data = none → bundleLen g.data = g.len → goesTo (exec (.devRecEnd c) s) fun t =>
        t.sec.recStart = true ∧ t.sec.recovery = some g ∧ repliesAdd s t c.fn [okReply c 0x01F2 []] ∧ t.nvm = s.nvm) ∧
    (∀ g, romServes s = true → s.sec.recStart = true → (getFn s 0).replies = [] → s.sec.recovery = some g →
      goesTo (exec .recoveryStart s) fun t =>
        t.sec.boot = 3 ∧ t.sec.recovery = none ∧ t.sec.running.map (·.image) = some g.data ∧
        t.emitted = s.emitted ++ [⟨s.now, 0x881, 0x009, 1, 0xFF, []⟩] ∧ (g.writeFlash = false → t.nvm = s.nvm) ∧
        ∀ f, (getFn t f).expSeq = (getFn s f).expSeq) ∧
    (c.fn < 32 → voxubRuns s = true → ∀ i ∈ [Instr.devRecBegin c, .devRecData c, .devRecEnd c], goesTo (exec i s) fun t =>
      onlyFns s t ∧ ∃ cmd, repliesAdd s t c.fn [errReply c cmd unknownCommand])

/-! ## The event ring and the PCIe link (R34, R71–R77, R472) -/

/-- An event record reaches the ring writer (R72): it leaves the records under way; a destination whose ring is disabled counts
it lost, and so does every one while the link is down (R75); otherwise the writer holds it for the others, in the order of R34. A record whose source has an earlier one
under way waits, and one stamped more than 4 µs ago is written at once.
A held record is written once its 4 µs are over (R71–R73): to position P mod N of each destination's ring, with the
header of R71 (sequence number, phase and loss mark), and P advances; earlier, nothing happens.
Commands shown to complete (exec = .next t for some t, under conditions on state and operands alone): eventRecordArrival,
ringHoldExpiry. -/
def Obligations.RecordsReachTheRingInOrder : Prop :=
  (∀ (i : Nat) (s : State) (e : EventRec), s.emitted[i]? = some e → (∀ x ∈ s.emitted.take i, x.source ≠ e.source) →
     (time s ≤ e.stamp.toNat + 4000 → goesTo (exec (.eventRecordArrival i) s) fun t =>
       t.emitted = s.emitted.eraseIdx i ∧ t.dists = s.dists ∧
       (∀ f, f ∈ evDests s e → (getFn s f).ring.enabled = false ∨ s.pcie.linkUp = false → (getFn t f).ring.lost = (getFn s f).ring.lost + 1) ∧
       t.held = (match (evDests s e).filter fun f => (getFn s f).ring.enabled && s.pcie.linkUp with
         | [] => s.held
         | l => heldInsert ⟨e, l⟩ s.held)) ∧
     (e.stamp.toNat + 4000 < time s → goesTo (exec (.eventRecordArrival i) s) fun t =>
       t.emitted = s.emitted.eraseIdx i ∧ t.held = s.held ∧
       t = ringPutAll { s with emitted := s.emitted.eraseIdx i } (evDests s e) e true [])) ∧
  (∀ (s : State) (e : EventRec) (f : Nat) (l : List HeldRec) (fresh : AMap (BitVec 64)), s.held = ⟨e, [f]⟩ :: l →
     (time s < e.stamp.toNat + 4000 → exec (.ringHoldExpiry fresh) s = .next s) ∧
     (e.stamp.toNat + 4000 ≤ time s → (getFn s f).ring.enabled = true → s.pcie.linkUp = true →
       unconsumed (getFn s f).ring < 2 ^ (getFn s f).ring.log2n → goesTo (exec (.ringHoldExpiry fresh) s) fun t =>
         let r := (getFn s f).ring
         let p := r.produce.toNat
         t.held = l ∧ (getFn t f).ring.produce = r.produce + 1 ∧ (getFn t f).ring.lost = r.lost ∧
         (getFn t f).ring.afterLoss = false ∧
         Out.ringWrite f (p % 2 ^ r.log2n) (r.base + BitVec.ofNat 64 (32 * (p % 2 ^ r.log2n)))
           (recordHeader e (p / 2 ^ r.log2n % 2 == 0) false r.afterLoss (p % 2 ^ 24)) e.payload ∈ t.out) ∧
     (e.stamp.toNat + 4000 ≤ time s → (getFn s f).ring.enabled = false ∨ s.pcie.linkUp = false →
       goesTo (exec (.ringHoldExpiry fresh) s) fun t =>
         t.held = l ∧ (getFn t f).ring.lost = (getFn s f).ring.lost + 1 ∧ t.out = s.out ∧
         (tget {} (getFn t f).flags 3).count = min 65535 ((tget {} (getFn s f).flags 3).count + 1)))

/-- The consume count, the age cause and moderation (R73, R77): a routine read takes C from memory at most once a µs; the age
cause arises once for the oldest unconsumed record, 100 µs after it was written; a vector's interval ends, and a cause that
arose in it raises the vector once.
The PCIe link (R54, R75, R472): training sets what PCIE_LINK shows and is logged below 64 GT/s x16, and after a loss it is the link's return; a loss is counted, up
to 65,535, and logged once the ring can carry it; at its return every ring is disabled and PF0's PCIE_RETURN counts one
more. No event of the link changes a district.
Commands shown to complete (exec = .next t for some t, under conditions on state and operands alone): consRoutineRead,
ringAgeExpiry, msiModerationExpiry, pcieLinkTrained, pcieLinkLoss, pcieLinkReturn, pcieL0pWidthChange. -/
def Obligations.RingAndLinkEventsComplete : Prop :=
  (∀ (f : Nat) (s : State), f < 32 →
     (∀ v, (getFn s f).ring.enabled = true → s.pcie.linkUp = true →
       (∀ t, (getFn s f).ring.consReadAt = some t → t + 1000 ≤ time s) → goesTo (exec (.consRoutineRead f v) s) fun t =>
         (getFn t f).ring.cons = v ∧ (getFn t f).ring.consReadAt = some (time s) ∧ onlyFns s t) ∧
     (∀ v k, (getFn s f).ring.consReadAt = some k → time s < k + 1000 → exec (.consRoutineRead f v) s = .next s) ∧
     (∀ n w l, (getFn s f).ring.writtenAt = (n, w) :: l → (getFn s f).ring.cons.toNat ≤ n → (getFn s f).ring.enabled = true →
       (getFn s f).ring.ageRaised ≠ some n → w + 100000 ≤ time s → goesTo (exec (.ringAgeExpiry f) s) fun t =>
         (getFn t f).ring.ageRaised = some n ∧ t.emitted = s.emitted ∧ t.dists = s.dists ∧
         (tget {} (getFn t f).flags 1).count = min 65535 ((tget {} (getFn s f).flags 1).count + 1)) ∧
     (∀ vec e, tfind (getFn s f).modUntil vec = some e → e ≤ time s → vec ∉ (getFn s f).modAgain →
       goesTo (exec (.msiModerationExpiry f vec) s) fun t =>
         onlyFns s t ∧ tfind (getFn t f).modUntil vec = none) ∧
     (∀ vec e, tfind (getFn s f).modUntil vec = some e → time s < e → exec (.msiModerationExpiry f vec) s = .next s)) ∧
  (∀ (s : State),
     (∀ w fm, w ∈ [1, 2, 4, 8, 16] → s.pins.perst = false → s.indexOk = true → s.sec.boot ≠ 4 → ∀ g, 1 ≤ g → g ≤ 6 →
       goesTo (exec (.pcieLinkTrained g w fm) s) fun t =>
         t.pcie.linkUp = true ∧ t.pcie.speed = g ∧ t.pcie.width = w ∧ t.pcie.flit = fm ∧ t.dists = s.dists ∧
         t.emitted = s.emitted ++ (if g = 6 ∧ w = 16 then [] else [⟨s.now, 0x880, 0x005, 1, 0xFF, [g, w]⟩]) ∧
         (s.pcie.linkUp = false → s.pcie.speed ≠ 0 → ∀ f < 32, (getFn t f).ring.enabled = false)) ∧
     (s.pcie.linkUp = true → goesTo (exec .pcieLinkLoss s) fun t =>
       t.pcie.linkUp = false ∧ t.pcie.downCount.toNat = min 65535 (s.pcie.downCount.toNat + 1) ∧ t.dists = s.dists ∧
       t.deferred = s.deferred ++ [⟨s.now, 0x880, 0x006, 2, 0xFF, []⟩]) ∧
     (s.pcie.linkUp = false → s.pcie.speed ≠ 0 → s.pins.perst = false → s.indexOk = true →
       goesTo (exec .pcieLinkReturn s) fun t =>
         t.pcie.linkUp = true ∧ (∀ f < 32, (getFn t f).ring.enabled = false) ∧ t.dists = s.dists ∧
         (s.held = [] → ∀ f < 32, (getFn t f).ring.lost = (getFn s f).ring.lost) ∧
         (tget {} (getFn t 0).flags 5).count = min 65535 ((tget {} (getFn s 0).flags 5).count + 1)) ∧
     (∀ w, s.pcie.linkUp = true → s.pcie.flit = true → w ∈ [2, 4, 8, 16] → w ≤ s.pcie.width →
       goesTo (exec (.pcieL0pWidthChange w) s) fun t =>
         t.pcie = { s.pcie with l0p := w != s.pcie.width, l0pWidth := if w = s.pcie.width then 0 else w } ∧
         t.dists = s.dists ∧ t.fns = s.fns))

/-! ## Management interfaces (R78, R79, R430–R432) -/

/-- An effecter write inside its range takes effect and is answered; outside it is refused and nothing else changes; a sensor read is
answered with what the sensor shows, sensor 7 with nothing while the index is incomplete; SMBus ARP assigns the address (R78, R79). The
values of effecter 102 (0 flash, 1 host) are the model's choice, and so is that one row carries these requests (log entry 128).
SPDM (R430–R432): each request the security processor answers gets one response, and no register changes but the count of
nonces used. The response codes and forms are DSP0274's (log entry 39). Without PUF keys a challenge and a signed
measurement are answered with ERROR Unspecified.
Commands shown to complete (exec = .next t for some t, under conditions on state and operands alone): pldmEffecterWrite,
spdmGetVersion, spdmGetCapabilities, spdmNegotiateAlgorithms, spdmGetDigests, spdmGetCertificate, spdmChallenge,
spdmGetMeasurements. -/
def Obligations.ManagementRequestsComplete : Prop :=
  (∀ (s : State), s.pins.aonRst = false →
     (∀ v, 900 ≤ v → v ≤ 1800 → goesTo (exec (.pldmEffecterWrite (.effecter 100 v)) s) fun t =>
       t.pwr.capW = v ∧ t.out = .pldm 100 true :: s.out ∧ t.dists = s.dists ∧ t.nvm = s.nvm) ∧
     (∀ v, 1 ≤ v → v ≤ 7 → goesTo (exec (.pldmEffecterWrite (.effecter 101 v)) s) fun t =>
       t.pwr.riskThreshold = v ∧ t.out = .pldm 101 true :: s.out ∧ t.dists = s.dists) ∧
     (∀ v ≤ 1, goesTo (exec (.pldmEffecterWrite (.effecter 102 v)) s) fun t =>
       t.pwr.bootHost = (v == 1) ∧ t.out = .pldm 102 true :: s.out ∧ t.dists = s.dists) ∧
     (∀ v, v < 900 ∨ 1800 < v → exec (.pldmEffecterWrite (.effecter 100 v)) s = .next (send s (.pldm 100 false))) ∧
     (∀ v, v = 0 ∨ 7 < v → exec (.pldmEffecterWrite (.effecter 101 v)) s = .next (send s (.pldm 101 false))) ∧
     (∀ i, 1 ≤ i → i ≤ 8 → goesTo (exec (.pldmEffecterWrite (.sensor i)) s) fun t =>
       t = send s (.sensor i (sensorValue s i)) ∧ (i = 7 → (sensorValue s i).isSome = s.indexOk)) ∧
     (∀ a < 128, goesTo (exec (.pldmEffecterWrite (.arp a)) s) fun t =>
       t = { s with pwr := { s.pwr with arpAddr := some a } } ∧ smbusAt t = a)) ∧
  (∀ (via : SpdmVia) (s : State), spdmUp s via = true →
     exec (.spdmGetVersion via) s = .next (send s (.spdm via 0x04 [0x00, 0x12, 0x00, 0x13])) ∧
     (goesTo (exec (.spdmGetCapabilities via) s) fun t => ∃ b, t = send s (.spdm via 0x61 b)) ∧
     (∀ p h, goesTo (exec (.spdmNegotiateAlgorithms via p h) s) fun t => ∃ b, t = send s (.spdm via 0x63 b)) ∧
     (∀ ch, certChain s = some ch →
       (goesTo (exec (.spdmGetDigests via) s) fun t =>
         t = send s (.spdm via 0x01 (0x01 :: slice (Config.sha512 ch) 0 64))) ∧
       (∀ off n, off < ch.length → goesTo (exec (.spdmGetCertificate via 0 off n) s) fun t =>
         t = send s (.spdm via 0x02 (leBytes 2 (min n (ch.length - off)) ++ leBytes 2 (ch.length - off - min n (ch.length - off)) ++
           slice ch off (min n (ch.length - off)))))) ∧
     (∀ n, s.sec.keys = true → goesTo (exec (.spdmChallenge via 0 n) s) fun t =>
       ∃ b, t = { send s (.spdm via 0x03 b) with freeCtr := s.freeCtr + 1 }) ∧
     (∀ n, s.sec.keys = false → goesTo (exec (.spdmChallenge via 0 n) s) fun t => t.out = .spdm via 0x7F [0x05] :: s.out) ∧
     (∀ sign n, s.sec.keys = true ∨ sign = false → goesTo (exec (.spdmGetMeasurements via 1 sign n) s) fun t =>
       ∃ b, t = { send s (.spdm via 0x60 b) with freeCtr := s.freeCtr + 1 }) ∧
     (∀ n, s.sec.keys = false → goesTo (exec (.spdmGetMeasurements via 1 true n) s) fun t =>
       t.out = .spdm via 0x7F [0x05] :: s.out))

/-! ## Districts (R366–R383) -/

/-- A change of district state (R370): the entry generation advances by 1 and one DIST_STATE names the old state, the new
state and the generation; no other district changes.
DIST_CREATE (R366–R370): where its payload is well formed and its resources are free, an EMPTY district becomes CONFIGURED
with the quarters asked for, or the free ones of lowest number, the processor that runs the fewest districts, and its
directory range, and every reply field says so; every other district stays as it was.
Commands shown to complete (exec = .next t for some t, under conditions on state and operands alone): distCreate. -/
def Obligations.DistrictsAreCreatedAndLogged : Prop :=
  (∀ (s : State) (d st : Nat), (getDist s d).state ≠ st →
     (getDist (setDistState s d st) d) = { getDist s d with state := st, gen := (getDist s d).gen + 1 } ∧
     (∃ src, (setDistState s d st).emitted =
       s.emitted ++ [⟨s.now, src, 0x1E0, 0, d, [(getDist s d).state, st, ((getDist s d).gen + 1).toNat]⟩]) ∧
     (setDistState s d st).fns = s.fns ∧ ∀ e, e ≠ d → getDist (setDistState s d st) e = getDist s e) ∧
  (∀ (c : FwReq) (s : State), Sendable specDistCreate c s → c.payload.length = 48 → zeroAt c.payload createRsvd = true →
     ((sharesOf c.payload).all fun e => portPresent s e.1) = true → createOk c.payload = true → (getDist s (cmdDist c)).state = 0 →
     (getDist s (cmdDist c)).loop = none → createFree s c.payload = true → goesTo (exec (.distCreate c) s) fun t =>
       let x := getDist t (cmdDist c)
       x.state = 1 ∧ x.gen = (getDist s (cmdDist c)).gen + 1 ∧ x.q = fld c.payload 21 16 ∧
       some x.quarters = pickQuarters s (fld c.payload 21 16) (fld c.payload 63 32) ∧ x.serving = bit c.payload 8 ∧
       x.approx = bit c.payload 9 ∧ x.preempt = bit c.payload 10 ∧ x.channels = setBits 64 (fld c.payload 127 64) ∧
       x.shares = sharesOf c.payload ∧ x.segs = [] ∧ x.progs = [] ∧ x.cp = pickCp s ∧
       some x.dirBase = pickDir s (fld c.payload 144 128) ∧ x.dirCount = fld c.payload 144 128 ∧
       repliesAdd s t c.fn [okReply c 0x0200 (pack 8 [(32, maskOf x.quarters), (2, x.cp), (14, 0), (16, x.dirBase)])] ∧
       ∀ e, e ≠ cmdDist c → getDist t e = getDist s e)

/-- The DIST_ commands on a district that exists complete (R372, R377–R383): DESTROY leaves it EMPTY with nothing but its
generation; PAUSE without the boundary flag drains it; RESUME takes free quarters; RECOVER of an idle district returns it
to CONFIGURED or LOADED; INFO reports it and changes nothing else.
Commands shown to complete (exec = .next t for some t, under conditions on state and operands alone): distDestroy, distPause,
distResume, distRecover, distInfo. -/
def Obligations.DistrictCommandsComplete : Prop :=
  ∀ (c : FwReq) (s : State),
    (Sendable specDistDestroy c s → c.payload = [] → (getDist s (cmdDist c)).state ∈ [1, 2, 5, 6] →
      goesTo (exec (.distDestroy c) s) fun t =>
        (∃ g, getDist t (cmdDist c) = { gen := g }) ∧ okReply c 0x0201 [] ∈ (getFn t c.fn).replies ∧
        (cmdDist c ≠ 0 → (getFn t (cmdDist c)).flr = true ∧ (getFn t (cmdDist c)).inbox = [] ∧
          (getFn t (cmdDist c)).ring.enabled = false) ∧ (cmdDist c = 0 → (getFn t 0).winBase = 0 ∧ (getFn t 0).binds = [])) ∧
    (Sendable specDistPause c s → c.payload.length = 8 → fld c.payload 63 0 = 0 → (getDist s (cmdDist c)).preempt = true →
      (getDist s (cmdDist c)).state ∈ [1, 2, 3] → (getDist s (cmdDist c)).pause = none →
      goesTo (exec (.distPause c) s) fun t =>
        (getDist t (cmdDist c)).state = 4 ∧ (getDist t (cmdDist c)).prior = (getDist s (cmdDist c)).state ∧
        (getDist t (cmdDist c)).quarters = (getDist s (cmdDist c)).quarters ∧
        (getDist t (cmdDist c)).cores = (getDist s (cmdDist c)).cores ∧ repliesAdd s t c.fn [acceptedReply c 0x0202] ∧
        t.backs = s.backs) ∧
    (∀ qs, Sendable specDistResume c s → c.payload.length = 8 → fld c.payload 63 0 = 0 → (getDist s (cmdDist c)).state = 5 →
      (getDist s (cmdDist c)).resume = none → (retainBlocks s).1 = false →
      pickQuarters s (getDist s (cmdDist c)).q 0 = some qs → goesTo (exec (.distResume c) s) fun t =>
        (getDist t (cmdDist c)).state = 5 ∧ (getDist t (cmdDist c)).resume.map (·.quarters) = some qs ∧
        acceptedReply c 0x0203 ∈ (getFn t c.fn).replies) ∧
    (Sendable specDistRecover c s → c.payload = [] → (getDist s (cmdDist c)).state = 6 → (getDist s (cmdDist c)).recover = none →
      (getDist s (cmdDist c)).run = none → (∀ e ∈ (getDist s (cmdDist c)).cores, e.2.issued = [] ∧ e.2.prefetches = []) →
      goesTo (exec (.distRecover c) s) fun t =>
        (getDist t (cmdDist c)).state = (if (getDist s (cmdDist c)).progs = [] then 1 else 2) ∧
        (getDist t (cmdDist c)).progs = (getDist s (cmdDist c)).progs ∧ (getDist t (cmdDist c)).segs = (getDist s (cmdDist c)).segs ∧
        repliesAdd s t c.fn [okReply c 0x0204 []]) ∧
    (Sendable specDistInfo c s → c.payload = [] → goesTo (exec (.distInfo c) s) fun t =>
      ∃ b, b.length = 40 ∧ repliesAdd s t c.fn [okReply c 0x0205 b] ∧ fld b 7 0 = (getDist s (cmdDist c)).state % 256 ∧
        fld b 63 32 = maskOf (getDist s (cmdDist c)).quarters % 2 ^ 32 ∧ fld b 79 64 = (getDist s (cmdDist c)).gen.toNat ∧
        t.emitted = s.emitted)

/-- A pause and a resume run to their ends (R377–R379, R372): once every transfer stands at a resumable point the drain is
over, its time counted from 4 µs after acceptance (log entry 168), and the save takes the district to PAUSED with no quarters and its reply; the restore gives it the quarters taken and its state back; a recovery that waited ends once no
core holds a descriptor.
Commands shown to complete (exec = .next t for some t, under conditions on state and operands alone): distDrainDone, distSaveDone,
distRestoreDone, distRecoverDone. -/
def Obligations.PauseAndResumeComplete : Prop :=
  ∀ (d : Nat) (s : State),
    (∀ p, (getDist s d).state = 4 → (getDist s d).pause = some p → p.drained = none →
      (atRest s (getDist s d) = true → goesTo (exec (.distDrainDone d) s) fun t =>
        t = modDist s d fun x => { x with pause := some { p with drained := some (time s - (p.start + 4000)) } }) ∧
      (atRest s (getDist s d) = false → exec (.distDrainDone d) s = .next s)) ∧
    (∀ p k, (getDist s d).state = 4 → (getDist s d).pause = some p → p.drained = some k →
      goesTo (exec (.distSaveDone d) s) fun t =>
        (getDist t d).state = 5 ∧ (getDist t d).quarters = [] ∧ (getDist t d).pause = none ∧
        (getDist t d).gen = (getDist s d).gen + 1 ∧ (getDist t d).cores = (getDist s d).cores ∧
        (∀ n : Nat × Seg, n ∈ (getDist s d).segs → n.2.tier ≠ 3 → (getBack t n.2.bid).dirty = []) ∧
        ((getFn s p.pend.req.fn).epoch = p.pend.epoch → ∃ b, b.length = 16 ∧ repliesAdd s t p.pend.req.fn
          [doneReply p.pend 0 0 b])) ∧
    (∀ r, (getDist s d).state = 5 → (getDist s d).resume = some r → (getDist s d).prior ∉ [1, 2, 5] →
      (getDist s d).gate.waiting = [] → ¬((getDist s d).gate.code = 4 ∧ (getDist s d).gate.stop = true) →
      goesTo (exec (.distRestoreDone d) s) fun t =>
        ∃ u, t = settle d u ∧ (getDist u d).state = (getDist s d).prior ∧ (getDist u d).quarters = r.quarters ∧
          (getDist u d).resume = none) ∧
    (∀ p, (getDist s d).state = 6 → (getDist s d).recover = some p → allIdle (getDist s d) = true →
      goesTo (exec (.distRecoverDone d) s) fun t =>
        (getDist t d).state = (if (getDist s d).progs = [] then 1 else 2) ∧ (getDist t d).recover = none) ∧
    (∀ p, (getDist s d).recover = some p → allIdle (getDist s d) = false → exec (.distRecoverDone d) s = .next s)

/-! ## Core programs and their slots (R86, R87, R109, R181–R189, R197–R202) -/

/-- The PROG_ commands on core programs complete (R86, R87, R109): LOAD takes the image from its segment and is ACCEPTED; its
final reply, once its source is read, names the handle or the failing check; START runs a loaded program on every core of the district from its first
descriptors, with the sync pairs at 0; ABORT stops the run that goes; STATUS reports; UNLOAD frees the handle.
Commands shown to complete (exec = .next t for some t, under conditions on state and operands alone): progLoad, progLoadFinal,
progStart, progAbort, progStatus, progUnload, progAbortFinal. -/
def Obligations.ProgramCommandsComplete : Prop :=
  ∀ (c : FwReq) (s : State), let d := cmdDist c
    (∀ e, Sendable specProgLoad c s → c.payload.length = 32 → zeroAt c.payload [(63, 8), (255, 160)] = true →
      tfind (getDist s d).segs (fld c.payload 7 0) = some e → (flashKeys s (e.tier == 3)).1 = false →
      fld c.payload 127 64 + fld c.payload 159 128 ≤ e.size → (getDist s d).state ∈ [1, 2, 3, 5, 6] →
      (getDist s d).progs.length + (getDist s d).loadings.length < 8 → goesTo (exec (.progLoad c) s) fun t =>
        repliesAdd s t c.fn [acceptedReply c 0x0300] ∧ (getDist t d).progs = (getDist s d).progs ∧
        (getDist t d).loadings.map (·.len) = (getDist s d).loadings.map (·.len) ++ [fld c.payload 159 128]) ∧
    (∀ l rest, (getDist s d).loadings = l :: rest → l.need ≠ [] → exec (.progLoadFinal d) s = .next s) ∧
    (∀ l rest u, (getDist s d).loadings = l :: rest → l.need = [] → u = modDist s d (fun x => { x with loadings := rest }) →
      loadFail u (getDist u d) l.image l.len = none → fits u 1 (placeUnits u 1 0) (copySize l.len) = true → (getDist s d).state = 1 →
      (getFn s l.pend.req.fn).epoch = l.pend.epoch → goesTo (exec (.progLoadFinal d) s) fun t =>
        (getDist t d).state = 2 ∧ (getDist t d).loadings = rest ∧
        (tfind (getDist t d).progs (freeHandle (getDist s d))).map (·.image) = some l.image ∧
        repliesAdd s t l.pend.req.fn [doneReply l.pend 0 0 (pack 8 [(16, freeHandle (getDist s d))])]) ∧
    (∀ l rest f u, (getDist s d).loadings = l :: rest → l.need = [] → u = modDist s d (fun x => { x with loadings := rest }) →
      loadFail u (getDist u d) l.image l.len = some f →
      goesTo (exec (.progLoadFinal d) s) fun t =>
        (getDist t d) = { getDist s d with loadings := rest } ∧
        ((getFn s l.pend.req.fn).epoch = l.pend.epoch → repliesAdd s t l.pend.req.fn [doneReply l.pend (checkStatus f.check) 0 (pack 16 [(32, f.stream), (32, f.index), (8, f.check)])])) ∧
    (∀ p, Sendable specProgStart c s → c.payload.length = 8 → fld c.payload 63 24 = 0 → vecArgOk (fld c.payload 23 16) = true →
      tfind (getDist s d).progs (fld c.payload 15 0) = some p → (getDist s d).state = 2 → vecFree s d (fld c.payload 23 16) = true →
      (retainBlocks s).1 = false → goesTo (exec (.progStart c) s) fun t =>
        (getDist t d).state = 3 ∧
        ((getDist t d).run.map fun r => (r.handle, r.stopped, r.tStart)) = some (fld c.payload 15 0, false, time s) ∧
        (∀ i < 64 * (getDist s d).q, (getCore t d i).pairs = [] ∧ (getCore t d i).halted = false ∧ (getCore t d i).issued = [] ∧
          (getCore t d i).sram = (getCore s d i).sram) ∧
        okReply c 0x0301 [] ∈ (getFn t c.fn).replies) ∧
    (Sendable specProgAbort c s → handleForm c.payload = true → thas (getDist s d).progs (fld c.payload 15 0) = true →
      (getDist s d).state ∈ [2, 3, 6] →
      (isRunning (getDist s d) (fld c.payload 15 0) = true → goesTo (exec (.progAbort c) s) fun t =>
        ((getDist t d).run.map (·.stopped)) = some true ∧ repliesAdd s t c.fn [acceptedReply c 0x0302]) ∧
      (isRunning (getDist s d) (fld c.payload 15 0) = false → goesTo (exec (.progAbort c) s) fun t =>
        repliesAdd s t c.fn [okReply c 0x0302 []] ∧ (getDist t d).run = (getDist s d).run)) ∧
    (∀ p, Sendable specProgStatus c s → handleForm c.payload = true → (getDist s d).state ∈ [1, 2, 3, 4, 5, 6] →
      tfind (getDist s d).progs (fld c.payload 15 0) = some p → goesTo (exec (.progStatus c) s) fun t =>
        repliesAdd s t c.fn [okReply c 0x0303 (pack 24 [(64, b2n (isRunning (getDist s d) (fld c.payload 15 0))),
          (64, p.completed), (32, p.hard), (32, p.soft)])] ∧ t.emitted = s.emitted ∧ t.backs = s.backs) ∧
    (∀ p, Sendable specProgUnload c s → handleForm c.payload = true → (getDist s d).state ∈ [1, 2, 3, 5, 6] →
      tfind (getDist s d).progs (fld c.payload 15 0) = some p → isRunning (getDist s d) (fld c.payload 15 0) = false →
      goesTo (exec (.progUnload c) s) fun t =>
        tfind (getDist t d).progs (fld c.payload 15 0) = none ∧ tfind t.backs p.bid = none ∧
        (∀ h, h ≠ fld c.payload 15 0 → tfind (getDist t d).progs h = tfind (getDist s d).progs h) ∧
        repliesAdd s t c.fn [okReply c 0x0304 []]) ∧
    (∀ r p l, (getDist s d).run = some r → r.aborts = p :: l → allIdle (getDist s d) = true →
      goesTo (exec (.progAbortFinal d) s) fun t => t = settle d (answerAbort s d))

/-- Micro-program and compression table slots (R187–R189, R197–R202): a load that passes its checks fills the slot and is
answered from the image it holds; a clear empties it; an info reads it. A table change waits while descriptors hold the
slot, and installs, oldest first, once none does; the generation of a loaded slot runs from 1 to 15 and again.
Commands shown to complete (exec = .next t for some t, under conditions on state and operands alone): progSlotLoad, progSlotClear,
progSlotInfo, progTblLoad, progTblClear, progTblInfo, tableChangeInstall. -/
def Obligations.SlotCommandsComplete : Prop :=
  ∀ (c : FwReq) (s : State), let d := cmdDist c; let m := fld c.payload 3 0; let k := fld c.payload 1 0
    (Sendable specSlotLoad c s → c.payload.length = 32 → zeroAt c.payload [(7, 4), (63, 24), (255, 160)] = true →
      fld c.payload 23 16 = 0 → fld c.payload 127 64 = 0 → fld c.payload 159 128 = 0 → 1 ≤ fld c.payload 15 8 →
      fld c.payload 15 8 ≤ 8 → (getDist s d).state ∈ [1, 2, 3, 5, 6] → slotNamed (getDist s d) m = false →
      goesTo (exec (.progSlotLoad c) s) fun t =>
        tfind (getDist t d).uslots m = some (shippedImage (fld c.payload 15 8)) ∧
        (∀ i, i ≠ m → tfind (getDist t d).uslots i = tfind (getDist s d).uslots i) ∧
        repliesAdd s t c.fn [okReply c 0x0310 (slotReply (some (shippedImage (fld c.payload 15 8))))]) ∧
    (Sendable specSlotClear c s → slotForm c.payload 4 = true → (getDist s d).state ∈ [1, 2, 3, 5, 6] →
      slotNamed (getDist s d) m = false → goesTo (exec (.progSlotClear c) s) fun t =>
        tfind (getDist t d).uslots m = none ∧ repliesAdd s t c.fn [okReply c 0x0311 []]) ∧
    (Sendable specSlotInfo c s → slotForm c.payload 4 = true → (getDist s d).state ∈ [1, 2, 3, 4, 5, 6] →
      goesTo (exec (.progSlotInfo c) s) fun t =>
        repliesAdd s t c.fn [okReply c 0x0312 (slotReply (tfind (getDist s d).uslots m))] ∧
        (getDist t d).uslots = (getDist s d).uslots) ∧
    (Sendable specTblLoad c s → c.payload.length = 56 → fld c.payload 63 2 = 0 → tableFormatOk (slice c.payload 8 48) = true →
      tableArgsOk (tableOf (slice c.payload 8 48)) = true → (getDist s d).state ∈ [1, 2, 3, 5, 6] →
      (getTbl (getDist s d) k).pending.length < 4 →
      (tblRefs (getDist s d) k = 0 → (getTbl (getDist s d) k).pending = [] → goesTo (exec (.progTblLoad c) s) fun t =>
        (getTbl (getDist t d) k).image = some (slice c.payload 8 48) ∧
        (getTbl (getDist t d) k).gen = (if (getTbl (getDist s d) k).gen = 15 then 1 else (getTbl (getDist s d) k).gen + 1) ∧
        ∃ b, repliesAdd s t c.fn [okReply c 0x0320 b]) ∧
      (tblRefs (getDist s d) k ≠ 0 → goesTo (exec (.progTblLoad c) s) fun t =>
        (getTbl (getDist t d) k).image = (getTbl (getDist s d) k).image ∧ repliesAdd s t c.fn [acceptedReply c 0x0320] ∧
        (getTbl (getDist t d) k).pending = (getTbl (getDist s d) k).pending ++ [(some (slice c.payload 8 48), pendOf s c 0x0320)])) ∧
    (Sendable specTblClear c s → slotForm c.payload 2 = true → (getDist s d).state ∈ [1, 2, 3, 5, 6] →
      tblRefs (getDist s d) k = 0 → (getTbl (getDist s d) k).pending = [] → goesTo (exec (.progTblClear c) s) fun t =>
        (getTbl (getDist t d) k).image = none ∧ (getTbl (getDist t d) k).gen = (getTbl (getDist s d) k).gen ∧
        repliesAdd s t c.fn [okReply c 0x0321 []]) ∧
    (Sendable specTblInfo c s → slotForm c.payload 2 = true → (getDist s d).state ∈ [1, 2, 3, 4, 5, 6] →
      goesTo (exec (.progTblInfo c) s) fun t => (∃ b, b.length = 16 ∧ repliesAdd s t c.fn [okReply c 0x0322 b]) ∧
        (getDist t d).tbls = (getDist s d).tbls) ∧
    (∀ slot img p rest, (getTbl (getDist s d) slot).pending = (img, p) :: rest → tblRefs (getDist s d) slot = 0 →
      (getDist s d).state ≠ 5 → goesTo (exec (.tableChangeInstall d slot) s) fun t =>
        (getTbl (getDist t d) slot).image = img ∧ (getTbl (getDist t d) slot).pending = rest)

/-! ## Descriptors (R88–R112) -/

/-- Fetch (R88): with 8 of the 16 queue entries free, the next group of up to 8 descriptors of the core's stream enters the queue,
in order, and nothing else of the machine changes.
A descriptor at the head of its core's queue issues (R91–R101): NOP and FENCE have no more to do, SIGNAL waits for its
increment to land and WAIT for its condition or timeout, and none of the four touches memory or local SRAM; MATMUL begins
with no tile drained and its mask read; a COLL goes to the collective engine.
A MOVE issues (R94, R101, R227): within its latched segments it begins its transfer, which between two local ranges runs at once; past
a segment's end, it takes the hard fault SEGMENT_LIMIT (2).
Commands shown to complete (exec = .next t for some t, under conditions on state and operands alone): descFetch, matmul, coll, move,
nop, fence, signal, waitDesc. -/
def Obligations.DescriptorsAreFetchedAndIssued : Prop :=
  (∀ (s : State) (d core : Nat) (r : Run) (p : Prog), quartersRun s = true → (getDist s d).state = 3 →
     (getCore s d core).halted = false → thas (getDist s d).cores core = true → runProg (getDist s d) = some (r, p) → r.stopped = false →
     (getCore s d core).queue.length ≤ 8 → (getCore s d core).next < (streamOf p core).2 →
     goesTo (exec (.descFetch d core) s) fun t =>
       let n := min 8 ((streamOf p core).2 - (getCore s d core).next)
       (getCore t d core).next = (getCore s d core).next + n ∧
       (getCore t d core).queue.length = (getCore s d core).queue.length + n ∧
       (getCore t d core).queue.take (getCore s d core).queue.length = (getCore s d core).queue ∧
       (∀ i < n, ((getCore t d core).queue[(getCore s d core).queue.length + i]?).map (·.idx) = some ((getCore s d core).next + i)) ∧
       (getCore t d core).sram = (getCore s d core).sram ∧ t.backs = s.backs ∧ t.fns = s.fns ∧ t.emitted = s.emitted) ∧
  (∀ (s : State) (d core : Nat) (q : QEntry) (rest : List QEntry),
     (∀ x : Instr × Nat × Work,
       x ∈ [(Instr.nop d core, 0, Work.fin), (.fence d core, 10, .fin), (.signal d core, 5, .sig s.nextSig), (.waitDesc d core, 6,
         .wait (if fld q.raw 223 192 = 0 then none else some (time s + 1000 * fld q.raw 223 192)))] →
       AtHead s d core q rest x.2.1 → goesToSettled (exec x.1 s) d fun u =>
         (getCore u d core).issued.map (fun i => (i.q, i.work)) = [(q, x.2.2)] ∧ (getCore u d core).queue = rest ∧
         (getCore u d core).sram = (getCore s d core).sram ∧ u.backs = s.backs ∧ u.fns = s.fns ∧ u.emitted = s.emitted ∧
         u.groups = s.groups ∧ u.links = s.links ∧ ∀ e, e ≠ d → getDist u e = getDist s e) ∧
     (AtHead s d core q rest 1 → 0 < matTiles (matOf q.raw) → bit q.raw 350 = false →
       (bit q.raw 155 = true → groupGone s d (fld q.raw 359 354) = false) → maskPois (coreEnv s d core) (matOf q.raw) = false →
       goesToSettled (exec (.matmul d core) s) d fun u =>
         (getCore u d core).issued.map (fun i => (i.q, i.work, i.begun)) = [(q, .mat 0 false [], true)] ∧
         (getCore u d core).issued.map (·.mask) = [maskRead (coreEnv s d core) (matOf q.raw)] ∧
         (getCore u d core).sram = (getCore s d core).sram ∧ u.backs = s.backs ∧ u.emitted = s.emitted) ∧
     (AtHead s d core q rest 7 → (startWork s d (getDist s d) (time s) q).2 = none → goesToSettled (exec (.coll d core) s) d fun u =>
       ∃ i, i.q = q ∧ u = runColl d core i (issueEntry d core q s))) ∧
  (∀ (s : State) (d core : Nat) (q : QEntry) (rest : List QEntry), AtHead s d core q rest 4 →
     (bit q.raw 130 = true → (tget {} (getDist s d).tbls (fld q.raw 133 132)).image ≠ none) →
     (∀ x, moveXfer (getDist s d) (time s) q = some x → xferDone x = false →
       (∀ a b, x.src = .lcl a → x.dst = .lcl b → False) → goesToSettled (exec (.move d core) s) d fun u =>
         (getCore u d core).issued.map (fun i => (i.q, i.work, i.begun)) = [(q, .xfer x, true)] ∧
         (getCore u d core).sram = (getCore s d core).sram ∧ u.backs = s.backs ∧ u.emitted = s.emitted) ∧
     (∀ x a b, moveXfer (getDist s d) (time s) q = some x → x.src = .lcl a → x.dst = .lcl b → goesToSettled (exec (.move d core) s) d fun u =>
       u = runLocal d core q.idx (x.rows * (x.rowBytes / 8 + 1) + 1) (beginAs (issueEntry d core q s) d core q.idx (.xfer x))) ∧
     (moveXfer (getDist s d) (time s) q = none → goesToSettled (exec (.move d core) s) d fun u =>
       (getCore u d core).halted = true ∧ (getCore u d core).issued = [] ∧ (getDist u d).run.map (·.stopped) = some true ∧
       u.emitted = s.emitted ++ [⟨s.now, coreSource s d core, 0x040, 2, d, faultPayload q.raw 2 core q.idx⟩] ∧ u.backs = s.backs))

/-- The vector engine's descriptors, WALK and CENSUS do their work as they begin (R92, R93, R98, R99): LANE and SFN write what
their arithmetic gives at OUT; WALK writes its page words; CENSUS writes the five counters of its tag and resets them, as
its operation asks. Where the coefficients, which the spec does not print, make the segments between two inputs rise from pattern to pattern as R178 promises (log entry 172),
tanh never falls from 0 to +infinity; the shipped images have the headers and STEPS that R189 gives.
One tile of a MATMUL drains (R138–R152): what the tile writes lands in local SRAM in order, the work goes on to the next tile, and
memory is not touched; with SEND the tile's chunk goes to the collective engine, and the work waits until it is taken.
Commands shown to complete (exec = .next t for some t, under conditions on state and operands alone): lane, sfn, walk, census,
matmulTileDrain. -/
def Obligations.ArithmeticDescriptorsWrite : Prop :=
  (∀ (s : State) (d core : Nat) (q : QEntry) (rest : List QEntry),
     let c := getCore s d core
     let step := drawStep (getDist s d)
     (AtHead s d core q rest 2 → goesToSettled (exec (.lane d core) s) d fun u =>
       let r := laneRun (coreEnv s d core) (laneOf q.raw) (srDraw step (laneOf q.raw).ctag core q.idx)
       (getCore u d core).issued.map (fun i => (i.q, i.work)) = [(q, .fin)] ∧
       (getCore u d core).sram = (sramWrite c (laneOf q.raw).out r.bytes).sram ∧ u.backs = s.backs) ∧
     (∀ img, AtHead s d core q rest 3 → img = (if 0x20 ≤ (sfnOf q.raw).func then tfind (getDist s d).uslots ((sfnOf q.raw).func - 0x20) else none) →
       ((sfnOf q.raw).func < 0x20 ∨ img ≠ none) → goesToSettled (exec (.sfn d core) s) d fun u =>
       let r := sfnRun (coreEnv s d core) (sfnOf q.raw) img (srDraw step (sfnOf q.raw).ctag core q.idx)
       (getCore u d core).issued.map (fun i => (i.q, i.work)) = [(q, .fin)] ∧
       (getCore u d core).sram = (sramWrite c (sfnOf q.raw).out r.bytes).sram ∧ u.backs = s.backs) ∧
     (∀ p w, AtHead s d core q rest 8 → (getDist s d).pool = some p → (getSeq p (fld q.raw 159 128)).edits = [] →
       walkWords p (getSeq p (fld q.raw 159 128)) (fld q.raw 167 160) (fld q.raw 191 176) (fld q.raw 207 192) = some w →
       goesToSettled (exec (.walk d core) s) d fun u =>
         (getCore u d core).issued.map (fun i => (i.q, i.work)) = [(q, .fin)] ∧
         (getCore u d core).sram = (sramWrite c (fld q.raw 242 224) w).sram ∧ u.backs = s.backs ∧ u.emitted = s.emitted) ∧
     (AtHead s d core q rest 9 → goesToSettled (exec (.census d core) s) d fun u =>
       let tag := tget {} (getDist s d).census (fld q.raw 137 128)
       (getCore u d core).issued.map (fun i => (i.q, i.work)) = [(q, .fin)] ∧
       (getCore u d core).sram = (if fld q.raw 145 144 = 1 then c.sram
         else (sramWrite c (fld q.raw 178 160) ((cntList tag.cnt).flatMap (leBytes 8))).sram) ∧
       (getDist u d).census = (if fld q.raw 145 144 = 0 then (getDist s d).census
         else tdel (getDist s d).census (fld q.raw 137 128)) ∧ u.emitted = s.emitted) ∧
     (∀ a b, a ≤ b → b ≤ 0x7F800000 → risesOn (sfnTanh 1) (max a 0x3B7FFFFF) (min b 0x41100000) → fvLe (f32 (sfnTanh 1 a)) (f32 (sfnTanh 1 b)) = true) ∧
     (∀ id, 1 ≤ id → id ≤ 8 → let b := shippedImage id
       fld b 31 0 = 0x4752504D ∧ fld b 39 32 = 1 ∧ fld b 95 64 = b.length ∧ fld b 46 40 = ([3, 3, 7, 8, 5, 7, 9, 12] : List Nat).getD (id - 1) 0)) ∧
  (∀ (s : State) (d core : Nat) (i : Issued) (t : Nat) (part : List (List Nat)), Working s d core i → fld i.q.raw 7 0 = 1 → i.begun = true →
     i.work = .mat t false part → t < matTiles (matOf i.q.raw) →
     let m := matOf i.q.raw
     let marked := (matReads m).take 2 |>.any fun r => anySkip (getCore s d core) r.1 (r.2 - r.1)
     let o := tileDrain (coreEnv s d core) m t marked i.mask part (drawStep (getDist s d)) core i.q.idx
     let drained (u : State) : Prop :=
       (getCore u d core).issued.map (fun j => (j.q, j.work)) = [(i.q, .mat (t + 1) m.send o.part)] ∧
       (getCore u d core).sram = (o.writes.foldl (fun c w => sramWrite c w.1 w.2) (getCore s d core)).sram ∧ u.backs = s.backs
     (m.send = false → goesToSettled (exec (.matmulTileDrain d core) s) d drained) ∧
     (m.send = true → goesToSettled (exec (.matmulTileDrain d core) s) d fun u =>
       ∃ v r, drained v ∧ u = collRequest m.group r v ∧ r.put = true ∧ r.chunk = m.chunk0 + t ∧
         r.data = slice o.chunk 0 (cdiv o.chunk.length 64 * 64)))

/-- One transaction or slice access of a plain transfer from a segment into local SRAM (R94, R208, R223): the bytes up to the next edge
of 512 bytes of local SRAM, or of 64 through a slice, or what is left of the row, land there at the row's place, and the transfer goes on
from there. A transaction is the one its channel serves next (R216, log entry 143); a slice access waits for earlier SIGNALs over the bridge
(R13).
A read's deadline (R229, R230): until its instant has passed, the read goes on; once it has, a read that stalls (fallback 0)
is logged once, with its segment, offset and tag, and goes on; one that skips (fallback 2) is cancelled, logged, marks the step approximate and
its local destination is filled with zeros. A finished prefetch leaves the move unit (R112).
Commands shown to complete (exec = .next t for some t, under conditions on state and operands alone): memTransactionComplete,
sliceAccess, readDeadlineExpiry, prefetchComplete, sliceAtomic, ordsumContribution. -/
def Obligations.TransfersAdvanceAndFallBack : Prop :=
  (∀ (s : State) (d core n : Nat) (i : Issued) (x : Xfer) (e : Seg) (off a : Nat), Working s d core i → i.begun = true → i.work = .xfer x →
     x.src = .seg n e off → x.dst = .lcl a → e.coded = false → 0x20000 ≤ a → x.aop = 0 → x.recode = none → x.page = false →
     0 < x.rowBytes → xferDone x = false → x.fell ≠ some 2 → sourceStaged s x = true → (coresStart s d = true ∨ resumable x = false) →
     let after (u : State) (lim : Nat) : Prop :=
       let r := x.pos / x.rowBytes
       let o := x.pos % x.rowBytes
       let k := min (lim - (a + (r * x.dstStride + o)) % lim) (x.rowBytes - o)
       (getCore u d core).issued.map (fun j => (j.q, j.work)) =
         [(i.q, if x.rows * x.rowBytes ≤ x.pos + k then .fin else .xfer { x with pos := x.pos + k, since := time s })] ∧
       (getCore u d core).sram = memWrite (getCore s d core).sram (a + (r * x.dstStride + o)) (segRead s e (off + (r * x.srcStride + o)) k) ∧
       u.backs = s.backs
     (endMem x.src = true → e.cached = false → chanGrants s d core i.q.idx false x = true → goesToSettled (exec (.memTransactionComplete d core i.q.idx false .none) s) d fun u => after u 512) ∧
     (endSlice x.src = true → bridgeClear s d core (sliceEnd x) = true → goesToSettled (exec (.sliceAccess d core i.q.idx false .none) s) d fun u => after u 64)) ∧
  (∀ (s : State) (d core : Nat),
     (∀ n i x e off k, Working s d core i → i.begun = true → i.work = .xfer x → x.src = .seg n e off → x.deadline = some k → x.fell = none →
       xferDone x = false → coresStart s d = true →
       (e.fallback = 0 → time s ≤ k → goesToSettled (exec (.readDeadlineExpiry d core i.q.idx false) s) d fun u => u = s) ∧
       (∀ a, e.fallback = 2 → x.dst = .lcl a → k < time s → goesToSettled (exec (.readDeadlineExpiry d core i.q.idx false) s) d fun u =>
         (getCore u d core).issued.map (fun j => (j.q, j.work)) = [(i.q, .fin)] ∧ (getDist u d).gate.approx = true ∧
         u.emitted = s.emitted ++ [⟨s.now, coreSource s d core, 0x0D0, 1, d, [d, n, off, 2, fld i.q.raw 31 16]⟩] ∧ u.backs = s.backs) ∧
       (e.fallback = 0 → k < time s → goesToSettled (exec (.readDeadlineExpiry d core i.q.idx false) s) d fun u =>
         (getCore u d core).issued.map (fun j => (j.q, j.work)) = [(i.q, .xfer { x with fell := some 0 })] ∧
         u.emitted = s.emitted ++ [⟨s.now, coreSource s d core, 0x0D0, 1, d, [d, n, off, 0, fld i.q.raw 31 16]⟩] ∧ u.backs = s.backs)) ∧
     (∀ p, coresWork s d = true → (getCore s d core).issued = [] → (getCore s d core).prefetches = [p] → xferDone p.x = true →
       goesToSettled (exec (.prefetchComplete d core p.idx) s) d fun u =>
         (getCore u d core).prefetches = [] ∧ (getCore u d core).sram = (getCore s d core).sram))
/-- One granule of an atomic at its slice (R209–R211, R222): of an element atomic, the destination granule becomes the operation of what
it held and the source; of a compare-and-swap, its pairs are compared and the words read go back to local SRAM; on a poisoned destination
nothing is written; in every case the transfer goes on to the next granule.
One contribution of an ordered scatter-add (R212, R213): at a record of the segment that is not poisoned, a row of the right
form is added to the record's staging under its rank, and the transfer goes on to the next row. -/
def Obligations.AtomicsAndContributionsAct : Prop :=
  (∀ (s : State) (d core n : Nat) (i : Issued) (x : Xfer) (e : Seg) (off : Nat), Working s d core i → i.begun = true → i.work = .xfer x →
     x.dst = .seg n e off → 1 ≤ x.aop → x.aop ≤ 12 → 0 < x.rowBytes → xferDone x = false →
     (coresStart s d = true ∨ resumable x = false) →
     let cas := 11 ≤ x.aop
     let o := x.pos % x.rowBytes
     let r := x.pos / x.rowBytes
     let k := min (if cas then 128 else 64) (x.rowBytes - o)
     let kd := if cas then k / 2 else k
     let at_ := off + r * x.dstStride + (if cas then o / 2 else o)
     bridgeClear s d core (some (e, at_)) = true →
     let src := endRead s d core x.src (r * x.srcStride + o) k
     let moved (u : State) : Prop := (getCore u d core).issued.map (fun j => (j.q, j.work)) =
       [(i.q, if x.rows * x.rowBytes ≤ x.pos + k then .fin else .xfer { x with pos := x.pos + k, since := time s })]
     (segPoison s e at_ kd = [] → endPoison s d core x.src (r * x.srcStride + o) k = [] →
       (¬cas → goesToSettled (exec (.sliceAtomic d core i.q.idx .none) s) d fun u =>
         moved u ∧ u.backs = (segWrite s e at_ (aopGranule x.aop (segRead s e at_ kd) src)).backs) ∧
       (∀ a, cas → x.src = .lcl a → goesToSettled (exec (.sliceAtomic d core i.q.idx .none) s) d fun u =>
         let w := casGranule (if x.aop = 11 then 4 else 8) (segRead s e at_ kd) src
         moved u ∧ u.backs = (segWrite s e at_ w.1).backs ∧
         (getCore u d core).sram = (sramWrite (getCore s d core) (a + (r * x.srcStride + o)) w.2).sram)) ∧
     (segPoison s e at_ kd ≠ [] → goesToSettled (exec (.sliceAtomic d core i.q.idx .none) s) d fun u =>
       moved u ∧ u.backs = s.backs ∧ (getCore u d core).sram = (getCore s d core).sram)) ∧
  (∀ (s : State) (d core n : Nat) (i : Issued) (x : Xfer) (e : Seg) (off : Nat), Working s d core i → i.begun = true → i.work = .xfer x →
     x.dst = .seg n e off → x.aop = 13 → 0 < x.rowBytes → xferDone x = false → x.pos % x.rowBytes = 0 → coresStart s d = true →
     let r := x.pos / x.rowBytes
     let rec_ := off + r * x.dstStride
     let row := endRead s d core x.src (r * x.srcStride) x.rowBytes
     let h := segRead s e rec_ 64
     bridgeClear s d core (some (e, rec_)) = true →
     endPoison s d core x.src (r * x.srcStride) x.rowBytes = [] → segPoison s e rec_ 64 = [] →
     rec_ + 64 + (((setBits 16 (fld h 15 0)).getLast?.map (· + 1)).getD 0 + 1) * (64 * fld h 40 32) ≤ e.size → contributionOk row h x.rowBytes = true →
     goesToSettled (exec (.ordsumContribution d core i.q.idx .none) s) d fun u =>
       u.backs = (ordsum d (coreSource s d core) e rec_ (fld row 3 0) (row.drop 64) false s).backs ∧
       (getCore u d core).issued.map (fun j => (j.q, j.work)) =
         [(i.q, if x.rows * x.rowBytes ≤ (r + 1) * x.rowBytes then .fin else .xfer { x with pos := (r + 1) * x.rowBytes, since := time s })])

/-- Signal pairs (R13, R95, R96, R106): once the SIGNALs issued before it over the bridge between the same two quarters have landed, a
SIGNAL's increment is added to the counter it names, modulo 2^16, and the SIGNAL has no more to do while filled − freed stays within 0 to 8; else it takes PAIR_OVERRUN (4). A WAIT whose condition holds has no more to
do; one whose timeout passes first takes WAIT_TIMEOUT (3).
Commands shown to complete (exec = .next t for some t, under conditions on state and operands alone): pairIncrement,
waitConditionMet, waitTimerExpiry. -/
def Obligations.SignalsAndWaits : Prop :=
  ∀ (s : State) (d core : Nat) (i : Issued), Working s d core i →
    let tgt := fld i.q.raw 138 128
    let pair := fld i.q.raw 150 144
    (∀ k, i.work = .sig k → sigInOrder s d core i [k] = false → exec (.pairIncrement d [core]) s = .next s) ∧
    (∀ k, i.work = .sig k → sigInOrder s d core i [k] = true → pairOk (bumpPair i.q.raw (getPair s d tgt pair)) = true →
      goesToSettled (exec (.pairIncrement d [core]) s) d fun u =>
        getPair u d tgt pair = bumpPair i.q.raw (getPair s d tgt pair) ∧
        (getCore u d core).issued.map (fun j => (j.q, j.work)) = [(i.q, .fin)] ∧ u.emitted = s.emitted ∧ u.backs = s.backs) ∧
    (∀ k, i.work = .sig k → sigInOrder s d core i [k] = true → pairOk (bumpPair i.q.raw (getPair s d tgt pair)) = false →
      goesToSettled (exec (.pairIncrement d [core]) s) d fun u =>
        (getCore u d core).halted = true ∧ (getCore u d core).issued = [] ∧
        u.emitted = s.emitted ++ [⟨s.now, coreSource s d core, 0x040, 2, d, faultPayload i.q.raw 4 core i.q.idx⟩]) ∧
    (∀ k, i.work = .wait k → coresStart s d = true → waitHolds s d i.q.raw = true → goesToSettled (exec (.waitConditionMet d core) s) d fun u =>
      (getCore u d core).issued.map (fun j => (j.q, j.work)) = [(i.q, .fin)] ∧ u.emitted = s.emitted ∧ u.backs = s.backs) ∧
    (∀ k, i.work = .wait k → waitHolds s d i.q.raw = false → exec (.waitConditionMet d core) s = .next s) ∧
    (∀ k, i.work = .wait (some k) → coresStart s d = true → k ≤ time s → waitHolds s d i.q.raw = false →
      goesToSettled (exec (.waitTimerExpiry d core) s) d fun u =>
        (getCore u d core).halted = true ∧ (getCore u d core).issued = [] ∧
        u.emitted = s.emitted ++ [⟨s.now, coreSource s d core, 0x040, 2, d, faultPayload i.q.raw 3 core i.q.idx⟩]) ∧
    (∀ k, i.work = .wait (some k) → time s < k ∨ coresStart s d = false → exec (.waitTimerExpiry d core) s = .next s)

/-- The oldest descriptor of a core completes once it has no more to do (R101, R104, R110): it leaves the core, its program's
count of completions advances by 1, and DESC_DONE is logged if its header asks.
What follows a core's events in its district (`settle`). A run whose streams have all completed ends (R110, R370): PROG_DONE is
logged, and a plain run leaves its district LOADED. A first hard fault takes a running district to FAULTED (R372), logged
with its code and core.
Commands shown to complete (exec = .next t for some t, under conditions on state and operands alone): descComplete. -/
def Obligations.DescriptorsAndRunsEnd : Prop :=
  (∀ (s : State) (d core : Nat) (i : Issued) (r : Run) (p : Prog), Working s d core i → i.begun = true → workDone i = true →
     (getDist s d).run = some r → tfind (getDist s d).progs r.handle = some p →
     goesToSettled (exec (.descComplete d core) s) d fun u =>
       (getCore u d core).issued = [] ∧ (getCore u d core).sram = (getCore s d core).sram ∧
       (tfind (getDist u d).progs r.handle).map (·.completed) = some ((p.completed + 1) % 2 ^ 64) ∧
       u.emitted = s.emitted ++ (if bit i.q.raw 9 = true then [⟨s.now, coreSource s d core, 0x042, 0, d, [fld i.q.raw 31 16, i.q.idx]⟩]
         else [])) ∧
  (∀ (s : State) (d : Nat) (r : Run) (p : Prog), (getDist s d).state = 3 → runProg (getDist s d) = some (r, p) → (getDist s d).snap.policy = none →
     (getDist s d).gate.job = none → (getDist s d).gate.run = none → (getDist s d).gate.waiting = [] → (getDist s d).loop = none → (getDist s d).pause = none →
     (r.first = none → r.by_ = .plain → runDone (getDist s d) = true →
       (getDist (settle d s) d).state = 2 ∧ (getDist (settle d s) d).run = none ∧
       (∃ src, (⟨s.now, src, 0x043, 0, d, [r.handle, p.progId]⟩ : EventRec) ∈ (settle d s).emitted) ∧ (settle d s).backs = s.backs) ∧
     (∀ code core, r.first = some (code, core) → r.by_ = .plain → s.groups = [] →
       (getDist (settle d s) d).state = 6 ∧ (getDist (settle d s) d).gate.fault = true ∧
       (∃ src, (⟨s.now, src, 0x1E1, 2, d, [code, core]⟩ : EventRec) ∈ (settle d s).emitted)) ∧
     (r.first = none → r.stopped = false → runDone (getDist s d) = false → settle d s = s))

/-! ## Segments, moves, volumes and flash (R206–R246) -/

/-- What memory promises (R222, R226): fresh backing reads as zero; a byte written to a near, board or shared-cache segment reads
back as written, and no other byte of that segment changes, while its backing is in canonical form; only a write that
covers a whole granule clears its poison, and a write adds none.
MEM_SEG_ commands complete (R224–R227, R238): on a free number a near, board or shared-cache segment is allocated, zeroed
while the command is ACCEPTED, and installed when the fill is done; a flash segment is installed at once; a hint change
is too, and every installed change advances the entry generation; a clear releases the number and a flash volume stays; an
info reports the entry.
Commands shown to complete (exec = .next t for some t, under conditions on state and operands alone): memSegSet, memSegZeroFillDone,
memSegClear, memSegInfo. -/
def Obligations.SegmentsHoldBytes : Prop :=
  (∀ (s : State) (e : Seg) (off : Nat) (d : Bytes), e.tier ≠ 3 → memWf (getBack s e.bid).data = true →
     (∀ i < d.length, segByte (segWrite s e off d) e (off + i) = d.getD i 0) ∧
     (∀ a, a < off ∨ off + d.length ≤ a → segByte (segWrite s e off d) e a = segByte s e a) ∧
     memWf (getBack (segWrite s e off d) e.bid).data = true ∧
     (∀ g, segPoisoned (segWrite s e off d) e g =
       (segPoisoned s e g && !(decide (d ≠ []) && decide (off ≤ g * 64) && decide (g * 64 + 64 ≤ off + d.length)))) ∧
     (∀ b, b ≠ e.bid → getBack (segWrite s e off d) b = getBack s b) ∧
     (∀ tier units size a, memGet (getBack (alloc s tier units size).2 (alloc s tier units size).1).data a = 0)) ∧
  (∀ (c : FwReq) (s : State), let d := cmdDist c; let n := fld c.payload 7 0; let e := segOf (c.payload.drop 8) 0
     (Sendable specSegSet c s → c.payload.length = 40 → zeroAt c.payload segRsvd = true → segPresent s e = true →
       (getDist s d).state ∈ [1, 2, 3, 5, 6] → (e.fallback = 0 ∨ (getDist s d).serving = true ∨ (getDist s d).approx = true) →
       (e.tier = 3 → (keyErr s).1 = false) →
       (tfind (getDist s d).segs n = none → newSegOk s (getDist s d) d c.fn n e = true → e.tier ≠ 3 →
         (e.tier = 4 ∨ fits s e.tier (placeUnits s e.tier e.place) e.size = true) → goesTo (exec (.memSegSet c) s) fun t =>
           repliesAdd s t c.fn [acceptedReply c 0x0400] ∧ (getDist t d).segs = (getDist s d).segs ∧
           (getDist t d).gen = (getDist s d).gen ∧
           tfind (getDist t d).filling n = some ({ e with bid := s.nextBid }, pendOf s c 0x0400) ∧
           (tfind t.backs s.nextBid).map (fun b => (b.size, b.data)) = some (e.size, [])) ∧
       (tfind (getDist s d).segs n = none → newSegOk s (getDist s d) d c.fn n e = true → e.tier = 3 →
         goesTo (exec (.memSegSet c) s) fun t =>
           repliesAdd s t c.fn [okReply c 0x0400 []] ∧ tfind (getDist t d).segs n = some e ∧ (getDist t d).gen = (getDist s d).gen + 1) ∧
       (∀ o, tfind (getDist s d).segs n = some o → sameFixed { e with bid := o.bid } o = true → hintOk (getDist s d) e = true →
         { e with bid := o.bid } ≠ o → goesTo (exec (.memSegSet c) s) fun t =>
           repliesAdd s t c.fn [okReply c 0x0400 []] ∧ tfind (getDist t d).segs n = some { e with bid := o.bid } ∧
           (getDist t d).gen = (getDist s d).gen + 1 ∧ t.backs = s.backs)) ∧
     (∀ k m g p, tfind (getDist s k).filling m = some (g, p) → (getFn s p.req.fn).epoch = p.epoch →
       goesTo (exec (.memSegZeroFillDone k m) s) fun t =>
         tfind (getDist t k).segs m = some g ∧ tfind (getDist t k).filling m = none ∧
         (getDist t k).gen = (getDist s k).gen + 1 ∧ repliesAdd s t p.req.fn [doneReply p 0 0 []] ∧ t.backs = s.backs) ∧
     (Sendable specSegClear c s → segForm c.payload = true → (getDist s d).state ∈ [1, 2, 3, 5, 6] →
       (∀ x ∈ (getDist s d).segs, x.1 ≠ n → x.2.fallback = 1 → x.2.subst ≠ n) → goesTo (exec (.memSegClear c) s) fun t =>
         tfind (getDist t d).segs n = none ∧ (∀ i, i ≠ n → tfind (getDist t d).segs i = tfind (getDist s d).segs i) ∧
         repliesAdd s t c.fn [okReply c 0x0401 []] ∧ t.flash = s.flash ∧
         ((tfind (getDist s d).segs n).isSome = true → (getDist t d).gen = (getDist s d).gen + 1)) ∧
     (Sendable specSegInfo c s → segForm c.payload = true → (getDist s d).state ∈ [1, 2, 3, 4, 5, 6] →
       goesTo (exec (.memSegInfo c) s) fun t => repliesAdd s t c.fn [okReply c 0x0402
         (match tfind (getDist s d).segs n with
           | some x => segBytes x
           | none => zeros 32)] ∧ (getDist t d).segs = (getDist s d).segs ∧ t.backs = s.backs))

/-- MEM_MOVE (R235, R238): a move within two segments is ACCEPTED and waits for the engine; the engine carries the next extent
of the move that it serves for the district, into flash as a write that starts; when every byte is in place the move ends with its reply.
Volumes (R238, R240, R244): a creation is ACCEPTED and ends when its volume reads as zero; an owner is set at once; a
deleted volume is gone at once with everything staged or in flight for it; MEM_FLASH_INFO reports the tier. FREE of one
volume is a free value (log entry 34).
Commands shown to complete (exec = .next t for some t, under conditions on state and operands alone): memMove,
tierExtentTransferDone, memMoveDone, memVolCreate, memVolCreateDone, memVolDelete, memVolOwner, memFlashInfo. -/
def Obligations.VolumesAndMovesComplete : Prop :=
  (∀ (c : FwReq) (s : State), let d := cmdDist c
     (∀ a b, Sendable specMemMove c s → c.payload.length = 40 → zeroAt c.payload [(63, 16), (319, 256)] = true →
       tfind (getDist s d).segs (fld c.payload 7 0) = some a → tfind (getDist s d).segs (fld c.payload 15 8) = some b →
       (b.tier = 3 → fld c.payload 191 128 % 65536 = 0 ∧ fld c.payload 255 192 % 65536 = 0 ∧ s.flash.readOnly = false) →
       (a.tier = 3 ∨ b.tier = 3 → (keyErr s).1 = false) →
       (3 ≤ a.tier ∨ 3 ≤ b.tier ∨ a.cached = true ∨ b.cached = true → (retainBlocks s).1 = false) → 0 < fld c.payload 255 192 → fld c.payload 255 192 % 64 = 0 →
       fld c.payload 127 64 + fld c.payload 255 192 ≤ a.size → fld c.payload 191 128 + fld c.payload 255 192 ≤ b.size →
       (getDist s d).state ∈ [1, 2, 3, 5, 6] → goesTo (exec (.memMove c) s) fun t =>
         acceptedReply c 0x0403 ∈ (getFn t c.fn).replies ∧ t.backs = s.backs ∧
         (getDist t d).moves = (getDist s d).moves ++ [{ pend := pendOf s c 0x0403, src := a, dst := b, srcOff := fld c.payload 127 64,
                                                         dstOff := fld c.payload 191 128, len := fld c.payload 255 192, at_ := time s }]) ∧
     (∀ k m, (getDist s k).moves = [m] → pickMove s k = some m → m.dst.tier ≠ 3 → m.src.dbase ≠ m.dst.dbase → m.snapshot = none →
       (∀ g, segPoisoned s m.src g = false) → goesTo (exec (.tierExtentTransferDone k) s) fun t =>
         let n := min 65536 (m.len - m.done)
         (getDist t k).moves = [{ m with done := m.done + n }] ∧
         t.backs = (segWrite s m.dst (m.dstOff + m.done) (segRead s m.src (m.srcOff + m.done) n)).backs ∧ t.flash.rr = k) ∧
     (∀ k m, pickMove s k = some m → m.dst.tier = 3 → s.flash.readOnly = false → volReady s m.dst.volume = true →
       goesTo (exec (.tierExtentTransferDone k) s) fun t =>
         (∃ w, t.flash.inflight = s.flash.inflight ++ [⟨m.dst.volume, m.dst.firstExt + (m.dstOff + m.done) / 65536, some w⟩]) ∧ t.backs = s.backs) ∧
     (∀ k, pickMove s k = none → exec (.tierExtentTransferDone k) s = .next s) ∧
     (∀ k m, (getDist s k).moves = [m] → m.len ≤ m.done → m.dst.tier ≠ 3 → (getFn s m.pend.req.fn).epoch = m.pend.epoch →
       goesTo (exec (.memMoveDone k) s) fun t =>
         (getDist t k).moves = [] ∧ repliesAdd s t m.pend.req.fn [doneReply m.pend 0 0 []])) ∧
  (∀ (c : FwReq) (s : State), let v := fld c.payload 31 0
     (Sendable specVolCreate c s → flashPresent s = true → c.payload.length = 16 → zeroAt c.payload [(63, 40), (127, 96)] = true → v ≠ 0 →
       fld c.payload 39 32 < 32 → 0 < fld c.payload 95 64 → tfind s.flash.vols v = none → (keyErr s).1 = false → s.flash.readOnly = false →
       usedExtents s + fld c.payload 95 64 ≤ flashExtents s → goesTo (exec (.memVolCreate c) s) fun t =>
         repliesAdd s t c.fn [acceptedReply c 0x0404] ∧ (getVol t v).creating = some (pendOf s c 0x0404) ∧
         (getVol t v).owner = fld c.payload 39 32 ∧ (getVol t v).extents = fld c.payload 95 64 ∧ (getVol t v).data = []) ∧
     (∀ w x p, tfind s.flash.vols w = some x → x.creating = some p → (getFn s p.req.fn).epoch = p.epoch →
       goesTo (exec (.memVolCreateDone w) s) fun t =>
         (getVol t w).creating = none ∧ repliesAdd s t p.req.fn [doneReply p 0 0 []]) ∧
     (Sendable specVolDelete c s → flashPresent s = true → c.payload.length = 8 → fld c.payload 63 32 = 0 → volReady s v = true →
       (keyErr s).1 = false → goesTo (exec (.memVolDelete c) s) fun t =>
         tfind t.flash.vols v = none ∧ (∀ x ∈ t.flash.staging, x.1 ≠ v) ∧ (∀ o ∈ t.flash.inflight, o.vol ≠ v) ∧
         (∀ e off, flashReadable t v = false ∧ (getExtent t v e).data = [] ∧ memGet (getExtent t v e).data off = 0) ∧
         repliesAdd s t c.fn [okReply c 0x0405 []]) ∧
     (Sendable specVolOwner c s → flashPresent s = true → c.payload.length = 8 → fld c.payload 63 40 = 0 → volReady s v = true →
       fld c.payload 39 32 < 32 → (keyErr s).1 = false → goesTo (exec (.memVolOwner c) s) fun t =>
         (getVol t v).owner = fld c.payload 39 32 ∧ (getVol t v).data = (getVol s v).data ∧ repliesAdd s t c.fn [okReply c 0x0406 []]) ∧
     (Sendable specFlashInfo c s → flashPresent s = true → c.payload.length = 8 → fld c.payload 63 32 = 0 → (v = 0 ∨ volReady s v = true) →
       (getDist s (cmdDist c)).state ∈ [1, 2, 3, 4, 5, 6] → (keyErr s).1 = false → goesTo (exec (.memFlashInfo c) s) fun t =>
         ∃ b, b.length = 32 ∧ repliesAdd s t c.fn [okReply c 0x0407 b] ∧ t.flash = s.flash ∧
           fld b 31 0 = (if v = 0 then flashExtents s else (getVol s v).extents) % 2 ^ 32))

/-- The flash medium (R235, R239–R243): an extent that the engine reads lands in staging after at most three retries, and a sector that
stays uncorrectable raises one FLASH_UE; a program in a block that may be written makes the write visible and records the block that
holds it; one that fails retires its block and the write waits for another; an erase counts and restarts the block's reads; a retention
read counts a read; calibration, at power-up and every 10 minutes, notes its time.
The memory controllers' own events (R216, R221): a transaction that has waited 2 µs is the next its channel serves, and it completes;
a refresh is postponed under load at most 4 times and then performed, which closes its bank's row; a corrected error counts at its site, and MEM_CE reports the count at most once a second
and clears it.
Commands shown to complete (exec = .next t for some t, under conditions on state and operands alone): flashExtentReadDone,
flashProgramDone, flashEraseDone, flashRetentionRead, flashCalibration, memRequestAgeLimit, memTransactionComplete, memRefresh,
patrolScrub, memCe. -/
def Obligations.MemoryControllerEventsComplete : Prop :=
  (∀ (s : State) (v e b : Nat),
     (∀ retries, s.sec.keys = true → volReady s v = true → e < (getVol s v).extents → retries ≤ 3 → heldRead s v e = true →
       extentWanted s v e = true → s.flash.staging.length < 4096 →
       (goesTo (exec (.flashExtentReadDone v e retries []) s) fun t =>
         (v, e) ∈ t.flash.staging ∧ t.emitted = s.emitted ∧ t.backs = s.backs ∧
         ∀ k, (getDist t k).cores = (getDist s k).cores ∧ (getDist t k).segs = (getDist s k).segs) ∧
       ∀ k, k < (getExtent s v e).sectors → goesTo (exec (.flashExtentReadDone v e retries [k]) s) fun t =>
         (v, e) ∈ t.flash.staging ∧ t.backs = s.backs ∧ t.emitted = s.emitted ++ [⟨s.now, 0x8A0, 0x0D1, 2, (getVol s v).owner, [v, e, k]⟩]) ∧
     (∀ o w, s.flash.inflight = [o] → o.vol = v → o.ext = e → o.write = some w → s.sec.keys = true → mayProgram s b = true →
       (goesTo (exec (.flashProgramDone v e b true) s) fun t =>
         getExtent t v e = w ∧ t.flash.inflight = [] ∧ (v, e) ∈ (getBlock t b).holds ∧ t.emitted = s.emitted) ∧
       goesTo (exec (.flashProgramDone v e b false) s) fun t => (getBlock t b).retired = true ∧ t.flash.inflight = [o]) ∧
     (flashPresent s = true → s.sec.keys = true → blockGood s b = true → (getBlock s b).holds = [] →
       goesTo (exec (.flashEraseDone b true) s) fun t =>
         (getBlock t b).erases = (getBlock s b).erases + 1 ∧ (getBlock t b).reads = 0 ∧ t.emitted = s.emitted ∧ t.dists = s.dists) ∧
     (flashPresent s = true → s.sec.keys = true → blockGood s b = true → (getBlock s b).holds = [] → goesTo (exec (.flashEraseDone b false) s) fun t =>
       (getBlock t b).retired = true ∧ (∃ l, (⟨s.now, 0x8A0, 0x0D2, 0, 0xFF, l⟩ : EventRec) ∈ t.emitted) ∧ t.dists = s.dists) ∧
     (flashPresent s = true → s.sec.keys = true → blockGood s b = true → (getBlock s b).reads + 1 < 100000 →
       goesTo (exec (.flashRetentionRead b false) s) fun t =>
         (getBlock t b).reads = (getBlock s b).reads + 1 ∧ (getBlock t b).lastRead = time s ∧ (getBlock t b).holds = (getBlock s b).holds) ∧
     (flashPresent s = true → s.flash.calibratedAt = 0 ∨ s.flash.calibratedAt + 600000000000 ≤ time s →
       goesTo (exec .flashCalibration s) fun t =>
         t = { s with flash := t.flash } ∧ t.flash.calibratedAt = time s ∧ t.flash.marksRead = true ∧ t.flash.blocks = s.flash.blocks)) ∧
  (∀ (s : State),
     (∀ ch r, ageLimit ch s = some r → chanPick s ch = some r ∧ goesTo (exec (.memRequestAgeLimit ch) s) fun t =>
       exec (.memTransactionComplete r.d r.core r.idx r.pf .none) s = .next t) ∧
     (∀ ch, ageLimit ch s = none → exec (.memRequestAgeLimit ch) s = .next s) ∧
     (∀ ch bank, chanOk s ch = true → bank < 32 →
       (∀ load, goesTo (exec (.memRefresh ch bank load) s) fun t =>
         tget 0 (tget {} t.chans ch).postponed bank =
           (if load = true ∧ tget 0 (tget {} s.chans ch).postponed bank < 4 then tget 0 (tget {} s.chans ch).postponed bank + 1 else 0) ∧
         (load = false → tfind (tget {} t.chans ch).rows bank = none) ∧
         t = { s with chans := t.chans })) ∧
     (∀ site, siteOk s site = true → goesTo (exec (.patrolScrub site .none) s) fun t => t = s) ∧
     (∀ site, siteOk s site = true → goesTo (exec (.patrolScrub site .ce) s) fun t =>
       (tget {} t.sites site).count = (tget {} s.sites site).count + 1 ∧ t.backs = s.backs ∧ t.dists = s.dists) ∧
     (∀ site n, siteOk s site = true ∨ (24 ≤ site ∧ site < 56) → (tget {} s.sites site).count = n → n ≠ 0 →
       (∀ k, (tget {} s.sites site).lastEvent = some k → k + 1000000000 ≤ time s) → goesTo (exec (.memCe site) s) fun t =>
         (tget {} t.sites site).count = 0 ∧ (tget {} t.sites site).lastEvent = some (time s) ∧
         t.emitted = s.emitted ++ [⟨s.now, (siteNames site).1, 0x0C0, 0, 0xFF, [(siteNames site).2.1, (siteNames site).2.2, n]⟩]))

/-! ## Links (R247–R265) -/

/-- The link commands complete (R257, R258, R265): CONFIG replaces identity and expected peers and leaves every port as it is,
ROUTE writes exactly the listed entries; both are queued for the two-bank store. ENABLE is ACCEPTED and starts training on
the listed ports that are neither UP nor in training, with the configuration of that moment; when every listed port is
UP already the final reply follows at once. DISABLE empties the listed ports. Other ports lose only what they forward of a listed
port's messages. INFO reports and changes nothing.
Commands shown to complete (exec = .next t for some t, under conditions on state and operands alone): collLinkConfig, collLinkRoute,
collLinkEnable, collLinkDisable, collLinkInfo. -/
def Obligations.LinkCommandsComplete : Prop :=
  ∀ (c : FwReq) (s : State), let p := c.payload
    (Sendable specLinkConfig c s → p.length = 112 →
      zeroAt p ((63, 13) :: (List.range 24).map fun i => (128 + 32 * i + 31, 128 + 32 * i + 18)) = true →
      goesTo (exec (.collLinkConfig c) s) fun t =>
        repliesAdd s t c.fn [okReply c 0x0580 []] ∧ t.links.ports = s.links.ports ∧ t.links.cfg.routes = s.links.cfg.routes ∧
        t.links.cfg.deviceId = fld p 11 0 ∧ t.links.cfg.ward = bit p 12 ∧ t.links.cfg.tag = BitVec.ofNat 64 (fld p 127 64) ∧
        (∀ i < 24, tget {} t.links.cfg.peers i = { id := fld (slice p (16 + 4 * i) 4) 11 0, port := fld (slice p (16 + 4 * i) 4) 16 12,
                                                   expect := bit (slice p (16 + 4 * i) 4) 17 }) ∧
        t.nvm.writes = s.nvm.writes ++ [{ typ := stLinks, payload := [], links := some t.links.cfg }]) ∧
    (Sendable specLinkRoute c s → 8 ≤ p.length → p.length = 8 + 4 * fld p 23 12 → zeroAt p [(63, 24)] = true →
      1 ≤ fld p 23 12 → fld p 23 12 ≤ 110 → fld p 11 0 + fld p 23 12 ≤ 4096 →
      (∀ w ∈ routeWords p, w.2 < 2 ^ 24 ∧ (∀ q ∈ setBits 24 w.2, portPresent s q = true) ∧ routeOk s.links.cfg w.1 w.2 = true) →
      goesTo (exec (.collLinkRoute c) s) fun t =>
        repliesAdd s t c.fn [okReply c 0x0581 []] ∧ t.links.ports = s.links.ports ∧
        (∀ i < fld p 23 12, tget 0 t.links.cfg.routes (fld p 11 0 + i) = leNat (slice p (8 + 4 * i) 4)) ∧
        (∀ i, i < fld p 11 0 ∨ fld p 11 0 + fld p 23 12 ≤ i → tget 0 t.links.cfg.routes i = tget 0 s.links.cfg.routes i) ∧
        t.nvm.writes = s.nvm.writes ++ [{ typ := stLinks, payload := [], links := some t.links.cfg }]) ∧
    (Sendable specLinkEnable c s → portsForm p = true → (∀ i ∈ portsOf p, portPresent s i = true ∧ (tget {} s.links.cfg.peers i).expect = true) →
      s.pwr.state ≠ 2 → (retainBlocks s).1 = false → (∀ e ∈ s.links.enables, stillTraining s e = true) →
      ((∃ i ∈ portsOf p, (getPort s i).state ≠ 2) → goesTo (exec (.collLinkEnable c) s) fun t =>
        repliesAdd s t c.fn [acceptedReply c 0x0582] ∧ t.links.enables = s.links.enables ++ [⟨pendOf s c 0x0582, portsOf p⟩] ∧
        (∀ i, (i ∉ portsOf p ∨ (getPort s i).state = 1 ∨ (getPort s i).state = 2) →
          { getPort t i with fwd := [], queue := [] } = { getPort s i with fwd := [], queue := [] }) ∧
        (∀ i ∈ portsOf p, (getPort s i).state ≠ 1 → (getPort s i).state ≠ 2 →
          (getPort t i).state = 1 ∧ (getPort t i).attempts = 0 ∧ (getPort t i).identOk = false ∧ (getPort t i).replay = [] ∧
          (getPort t i).ownId = s.links.cfg.deviceId ∧ (getPort t i).peer = tget {} s.links.cfg.peers i)) ∧
      ((∀ i ∈ portsOf p, (getPort s i).state = 2) → goesTo (exec (.collLinkEnable c) s) fun t =>
        repliesAdd s t c.fn [acceptedReply c 0x0582,
          doneReply (pendOf s c 0x0582) 0 0 (leBytes 4 (maskOf (portsOf p)) ++ leBytes 4 0)] ∧
        t.links.ports = s.links.ports ∧ t.links.enables = s.links.enables)) ∧
    (Sendable specLinkDisable c s → portsForm p = true → (∀ i ∈ portsOf p, portPresent s i = true) →
      goesTo (exec (.collLinkDisable c) s) fun t =>
        (∀ i ∈ portsOf p, (getPort t i).state = 0) ∧
        (∀ i ∉ portsOf p, { getPort t i with fwd := [], queue := [] } = { getPort s i with fwd := [], queue := [] }) ∧
        (∀ i ∈ portsOf p, (getPort s i).state ≠ 0 → (getPort t i).queue = [] ∧ (getPort t i).replay = [] ∧ (getPort t i).rx = []) ∧
        (∃ l, repliesAdd s t c.fn (l ++ [okReply c 0x0583 []]))) ∧
    (Sendable specLinkInfo c s → p.length = 8 → zeroAt p [(63, 5)] = true → portPresent s (fld p 4 0) = true →
      goesTo (exec (.collLinkInfo c) s) fun t => let x := getPort s (fld p 4 0)
        repliesAdd s t c.fn [okReply c 0x0584 (pack 32 [(8, x.state), (5, x.peer.port), (3, 0), (12, x.peer.id),
          (1, if s.links.parent = some (fld p 4 0) then 1 else 0), (3, 0), (32, x.retrains), (32, x.replays), (32, x.fec),
          (32, twos 32 x.offsetPs)])] ∧ onlyFns s t)

/-- Ports train, retrain and fail (R260, R261, R264, R265): a matching IDENT confirms the identity and has the pools' sizes announced,
any other makes the port MISWIRED, and one with a reserved bit set is no IDENT; an attempt that ends with every exchange made
brings the port UP, the third that fails DOWN, an earlier one begins anew with the own IDENT; the watchdog, a lost lane and the
eighth replay of one FSEQ force a retrain, which keeps the replay buffer; a retrain that ends with the earlier peer's IDENT
resumes at the acknowledged FSEQ, and any other end loses what the port carried. Corrections and replays are reported once per
second, with the counts since the last report.
Commands shown to complete (exec = .next t for some t, under conditions on state and operands alone): identReceive,
linkTrainingAttemptEnd, laneLockLoss, linkWatchdogExpiry, nakReceive, retrainComplete, linkCe, creditSetReceive. -/
def Obligations.LinksTrainAndRetrain : Prop :=
  ∀ (p : Nat) (b : Bytes) (s : State), let x := getPort s p; let i := identRead b
    (portRuns s p = true → x.state = 1 →
      (i.rsvd = true → exec (.identReceive p b) s = .next s) ∧
      (i.rsvd = false → identMatches x i = true → goesTo (exec (.identReceive p b) s) fun t =>
        getPort t p = setSizes { x with identOk := true } (sysSizes ++ allPoolSizes s p) ∧ onlyPort s t p ∧ logs s t []) ∧
      (i.rsvd = false → identMatches x i = false → goesTo (exec (.identReceive p b) s) fun t =>
        (getPort t p).state = 4 ∧ (getPort t p).queue = [] ∧ (getPort t p).replay = [] ∧ (∀ q, (getPort t q).rx = if q = p then [] else (getPort s q).rx) ∧
        logs s t [(0x840 + p, 0x103, 2, 0xFF, [p, x.peer.id, x.peer.port, i.deviceId, i.port])]) ∧
      (trained x = true → goesTo (exec (.linkTrainingAttemptEnd p true) s) fun t =>
        getPort t p = { x with state := 2, lastRx := time s, lastTx := time s } ∧ onlyPort s t p ∧
        ∃ l, logs s t ((0x840 + p, 0x100, 0, 0xFF, [p, x.peer.id, x.peer.port]) :: l)) ∧
      (∀ ok, (ok = false ∨ trained x = false) → x.attempts < 2 → goesTo (exec (.linkTrainingAttemptEnd p ok) s) fun t =>
        (getPort t p).state = 1 ∧ (getPort t p).attempts = x.attempts + 1 ∧ (getPort t p).identOk = false ∧ (getPort t p).credited = false ∧
        (getPort t p).replay = [] ∧ onlyPort s t p ∧ logs s t [] ∧
        ∃ f, t.out = flitOut p f :: s.out ∧ f.typ = 4 ∧ f.payload = identBytes x p) ∧
      (∀ ok, (ok = false ∨ trained x = false) → x.attempts = 2 → goesTo (exec (.linkTrainingAttemptEnd p ok) s) fun t =>
        (getPort t p).state = 3 ∧ (getPort t p).queue = [] ∧ (∀ q, (getPort t q).rx = if q = p then [] else (getPort s q).rx) ∧
        ∃ cause, logs s t [(0x840 + p, 0x101, 2, 0xFF, [p, cause])])) ∧
    (portLive s p = true →
      (∀ lane < 4, goesTo (exec (.laneLockLoss p lane) s) fun t =>
        getPort t p = reported { x with retrain := some 3, retrains := x.retrains + 1 } (time s) ∧ onlyPort s t p ∧
        (∃ f, t.out = flitOut p f :: s.out ∧ f.typ = 4 ∧ f.payload = identBytes x p) ∧
        t.health.retrains = s.health.retrains ++ [time s] ∧ logs s t [(0x840 + p, 0x102, 1, 0xFF, [p, 3])]) ∧
      (portWaits x = true → x.lastRx + 4000 ≤ time s → goesTo (exec (.linkWatchdogExpiry p) s) fun t =>
        getPort t p = reported { x with retrain := some 1, retrains := x.retrains + 1 } (time s) ∧ onlyPort s t p ∧
        t.health.retrains = s.health.retrains ++ [time s] ∧ logs s t [(0x840 + p, 0x102, 1, 0xFF, [p, 1])]) ∧
      (∀ n, goesTo (exec (.nakReceive p n) s) fun t =>
        (getPort t p).replay = ackDrop n x.replay ∧ (getPort t p).replays = x.replays + 1 ∧ (getPort t p).queue = x.queue ∧
        (getPort t p).resend = (if ackDrop n x.replay = [] then none else some 0) ∧ onlyPort s t p ∧
        ((getPort t p).retrain = some 2 ↔ x.replayOf = n ∧ 7 ≤ x.replayCount))) ∧
    (portRuns s p = true → x.retrain.isSome = true →
      (i.rsvd = false → identMatches x i = true → ∀ n, goesToAllSettled (exec (.retrainComplete p true b n) s) fun t =>
        (getPort t p).retrain = none ∧ (getPort t p).replay = ackDrop n x.replay ∧ (getPort t p).queue = x.queue ∧
        (getPort t p).state = x.state ∧ onlyPort s t p ∧ logs s t []) ∧
      (∀ ok n, (ok = false ∨ i.rsvd = true) → goesToAllSettled (exec (.retrainComplete p ok b n) s) fun t =>
        (getPort t p).state = 3 ∧ (getPort t p).queue = [] ∧ (getPort t p).replay = []) ∧
      (i.rsvd = false → identMatches x i = false → ∀ n, goesToAllSettled (exec (.retrainComplete p true b n) s) fun t =>
        (getPort t p).state = 4 ∧ (getPort t p).queue = [] ∧ (getPort t p).replay = [])) ∧
    (portRuns s p = true →
      ((x.ceFec ≠ 0 ∨ x.ceReplays ≠ 0) → (∀ k, x.ceAt = some k → k + 1000000000 ≤ time s) → goesTo (exec (.linkCe p) s) fun t =>
        getPort t p = { x with ceFec := 0, ceReplays := 0, ceAt := some (time s) } ∧ onlyPort s t p ∧
        logs s t [(0x840 + p, 0x105, 0, 0xFF, [x.ceFec, x.ceReplays])]) ∧
      ((x.ceFec = 0 ∧ x.ceReplays = 0 ∨ ∃ k, x.ceAt = some k ∧ time s < k + 1000000000) → exec (.linkCe p) s = .next s)) ∧
    (portRuns s p = true → (x.state = 2 ∨ x.state = 1) → ∀ z : PoolSize, goesTo (exec (.creditSetReceive p [z]) s) fun t =>
      let q := tget {} x.txPools (2 * z.chan + (if z.transit then 1 else 0))
      let q' := tget {} (getPort t p).txPools (2 * z.chan + (if z.transit then 1 else 0))
      onlyPort s t p ∧ (getPort t p).replay = x.replay ∧ (getPort t p).credited = true ∧
      (q.size ≤ z.size → q'.size = z.size) ∧
      (z.size < q.size → (∀ f ∈ x.replay, f.typ = 1 → f.chan ≠ z.chan) → q'.size = z.size) ∧
      (z.size < q.size → (∃ f ∈ x.replay, f.typ = 1 ∧ f.chan = z.chan) → q'.size = q.size ∧ q'.reduce = some z.size))

/-- Flits (R248–R255): a port resends first, in order, then sends a CREDIT_SET that waits, then its next new flit, numbered and kept
for replay, against a credit; with no credit, or a full replay buffer, it sends nothing new, and a NULL when a pool's report is
due; an idle port sends a NULL. A received flit that cannot be corrected, fails, or comes out of order, is discarded and its
expected FSEQ is named in a NAK, once and again every µs; the flit in order is delivered once, its ACK frees what it covers,
and its place in the pool is free as the engine takes it, unless its district is PAUSED. Corrected bytes are counted.
Commands shown to complete (exec = .next t for some t, under conditions on state and operands alone): flitSend, nullSend,
flitReceive, nakRepeatTimer. -/
def Obligations.FlitsMoveInOrder : Prop :=
  ∀ (p : Nat) (s : State), portFlits s p = true → let x := getPort s p
    (∀ i f, x.resend = some i → x.replay[i]? = some f → goesTo (exec (.flitSend p) s) fun t =>
      t.out = flitOut p (withReport x (time s) f) :: s.out ∧ (getPort t p).replay = x.replay ∧ (getPort t p).txNext = x.txNext ∧
      (getPort t p).resend = (if i + 1 < x.replay.length then some (i + 1) else none) ∧ onlyPort s t p) ∧
    (x.resend = none → (512 ≤ x.replay.length ∨ (x.ctl = [] ∧ nextChannel x = none)) →
      ((∀ k < 136, reportDue x (time s) k = false) → goesTo (exec (.flitSend p) s) fun t => t = s) ∧
      ((∃ k < 136, reportDue x (time s) k = true) → goesTo (exec (.flitSend p) s) fun t => getPort t p = reported x (time s) ∧ onlyPort s t p ∧
        ∃ g, t.out = flitOut p g :: s.out ∧ g.typ = 0 ∧ g.ack = x.rxNext ∧ reportDue x (time s) (2 * g.crChan + (if g.crPool then 1 else 0)) = true)) ∧
    (∀ f l, x.resend = none → x.replay.length < 512 → x.ctl = f :: l → goesTo (exec (.flitSend p) s) fun t =>
      (getPort t p).ctl = l ∧ (getPort t p).txNext = (x.txNext + 1) % 4096 ∧ onlyPort s t p ∧
      ∃ g, t.out = flitOut p g :: s.out ∧ (getPort t p).replay = x.replay ++ [g] ∧ g.fseq = x.txNext ∧ g.typ = f.typ ∧ g.payload = f.payload) ∧
    (∀ k f, x.resend = none → x.replay.length < 512 → x.ctl = [] → nextChannel x = some k → headFlit x k = some f → f.origin = none →
      goesTo (exec (.flitSend p) s) fun t =>
        (getPort t p).txNext = (x.txNext + 1) % 4096 ∧
        (tget {} (getPort t p).txPools (poolKey k f.f.transit)).sent = ((tget {} x.txPools (poolKey k f.f.transit)).sent + 1) % 4096 ∧
        (∃ g, t.out = flitOut p g :: s.out ∧ (getPort t p).replay = x.replay ++ [g] ∧ g.fseq = x.txNext ∧ g.ack = x.rxNext ∧
          g.chan = f.f.chan ∧ g.payload = f.f.payload ∧ g.dest = f.f.dest ∧ g.last = f.f.last) ∧ onlyPort s t p) ∧
    (∀ k f q m, x.resend = none → x.replay.length < 512 → x.ctl = [] → nextChannel x = some k → headFlit x k = some f → f.origin = some (q, m) →
      q ≠ p → goesTo (exec (.flitSend p) s) fun t =>
        (tget {} (getPort t q).rxPools m).freed = ((tget {} (getPort s q).rxPools m).freed + 1) % 4096 ∧
        (getPort t p).txNext = (x.txNext + 1) % 4096 ∧ ∃ g, t.out = flitOut p g :: s.out ∧ g.payload = f.f.payload) ∧
    (x.lastTx + 256 ≤ time s → goesTo (exec (.nullSend p) s) fun t =>
      (∃ g, t.out = flitOut p g :: s.out ∧ g.typ = 0 ∧ g.ack = x.rxNext ∧ g.len = 0 ∧ g.fseq = 0) ∧ (getPort t p).replay = x.replay ∧
      (getPort t p).txNext = x.txNext ∧ onlyPort s t p) ∧
    (∀ b errs, let f := flitOf b
      (fecOk errs = false ∨ flitCrcOk b = false ∨ 5 < f.typ ∨ f.rsvd = true ∨ ((f.typ = 1 ∨ f.typ = 5) ∧ f.fseq ≠ x.rxNext)) →
      goesTo (exec (.flitReceive p b errs) s) fun t =>
        t.out = (if x.nak = none then [flitOut p (nakFlit x (time s))] else []) ++ s.out ∧ (getPort t p).fec = (x.fec + fecCount errs) % 2 ^ 32 ∧ (getPort t p).rx = x.rx ∧ (getPort t p).rxNext = x.rxNext ∧
        (getPort t p).nak.isSome = true ∧ (getPort t p).replay = x.replay ∧ onlyPort s t p) ∧
    (∀ b errs, let f := flitOf b
      fecOk errs = true → flitCrcOk b = true → f.typ = 1 → f.rsvd = false → f.fseq = x.rxNext → f.transit = false → f.chan < 64 →
      (tget {} x.rxPools (2 * f.chan)).size ≠ 0 → goesTo (exec (.flitReceive p b errs) s) fun t =>
        (getPort t p).fec = (x.fec + fecCount errs) % 2 ^ 32 ∧
        (tget {} (getPort t p).rxPools (2 * f.chan)).freed =
          (if frozen s f.chan then (tget {} x.rxPools (2 * f.chan)).freed else ((tget {} x.rxPools (2 * f.chan)).freed + 1) % 4096) ∧
        tget [] (getPort t p).rx f.chan = tget [] x.rx f.chan ++ [f] ∧ (getPort t p).rxNext = (x.rxNext + 1) % 4096 ∧
        (getPort t p).nak = none ∧ (getPort t p).replay = ackDrop f.ack x.replay ∧ t.out = s.out ∧ onlyPort s t p ∧ logs s t []) ∧
    (∀ b errs, let f := flitOf b
      fecOk errs = true → flitCrcOk b = true → f.typ = 1 → f.rsvd = false → f.fseq = x.rxNext → x.grow = [] →
      (tget {} x.rxPools (2 * f.chan + (if f.transit then 1 else 0))).size = 0 →
      goesTo (exec (.flitReceive p b errs) s) fun t =>
        (getPort t p).rx = x.rx ∧ (getPort t p).rxNext = (x.rxNext + 1) % 4096 ∧ onlyPort s t p ∧
        logs s t [(0x840 + p, 0x104, 1, 0xFF, [p, f.chan, f.src, f.dest])]) ∧
    (∀ k, x.nak = some k → k + 1000 ≤ time s → goesTo (exec (.nakRepeatTimer p) s) fun t =>
      t.out = flitOut p (nakFlit x (time s)) :: s.out ∧ (getPort t p).nak = some (time s) ∧ (getPort t p).rxNext = x.rxNext ∧ onlyPort s t p)

/-- Time-base synchronisation (R31, R33, R262, R263): a port sends a SYNC every 8 µs with its stamps, the root's ID, the own
distance and the root's sequence, which the root itself advances; a SYNC that spans a replay is discarded; one that is heard
corrects an offset of 1 µs or more behind by one jump forward, logged as TIME_STEP (its source, and which own stamp a crossing SYNC
answers, are the model's choices: log entries 159, 160), and the time-base is never set back; a lost root gives way to the
lowest other one heard advancing, and a package that hears none becomes root at sequence 0.
Commands shown to complete (exec = .next t for some t, under conditions on state and operands alone): syncSend, syncReceive,
rootLossTimer. -/
def Obligations.TimeBaseSynchronises : Prop :=
  ∀ (p : Nat) (s : State),
    (portFlits s p = true → (∀ k, (getPort s p).syncAt = some k → k + 8000 ≤ time s) → goesTo (exec (.syncSend p) s) fun t =>
      t.links.rootSeq = (if s.links.root = none then (s.links.rootSeq + 1) % 2 ^ 32 else s.links.rootSeq) ∧
      (∃ f, t.out = flitOut p f :: s.out ∧ f.typ = 2 ∧ f.ack = (getPort s p).rxNext ∧
        f.payload = (List.range 240).map (Config.syncPayload [16 * time s, (getPort s p).syncT2, s.links.root.getD s.links.cfg.deviceId,
          s.links.dist, t.links.rootSeq])) ∧
      (getPort t p).syncAt = some (time s) ∧ (getPort t p).syncT1 = 16 * time s ∧ (getPort t p).syncOld = (getPort s p).syncT1 ∧
      onlyPort s t p ∧ t.now = s.now) ∧
    (∀ m : SyncMsg, portFlits s p = true → (m.spans = true ∨ (getPort s p).resend.isSome = true) →
      goesTo (exec (.syncReceive p m) s) fun t => t = s) ∧
    (∀ m : SyncMsg, portFlits s p = true → m.spans = false → (getPort s p).resend = none → goesTo (exec (.syncReceive p m) s) fun t =>
      let t1 := ownStamp (getPort s p) m
      (getPort t p).syncT2 = m.t4 ∧ (getPort t p).root = m.root ∧ (getPort t p).rootSeq = m.rootSeq ∧ onlyPort s t p ∧
      ((t.links.parent ≠ some p ∨ m.t2 = 0 ∨ t1 = 0) → t.now = s.now) ∧
      (s.links.synced = true → t.links.parent = some p → m.t2 ≠ 0 → t1 ≠ 0 →
        let off : Int := (((m.t2 : Int) - t1) - ((m.t4 : Int) - m.t1)) / 2 / 16
        (1000 ≤ off → t.now = s.now + BitVec.ofNat 64 off.toNat ∧ ∃ l, logs s t (l ++ [(0x840 + p, 0x004, 1, 0xFF, [off.toNat % 2 ^ 64])])) ∧ (off < 1000 → t.now = s.now) ∧
        (-1000 < off → off < 1000 → t.links.slew = off) ∧ (off ≤ -1000 → t.links.lead = off.natAbs))) ∧
    (s.links.root.isSome = true → s.links.rootAt + 64000 ≤ time s →
      (lowestRoot s s.links.root = none → goesTo (exec .rootLossTimer s) fun t =>
        t.links.root = none ∧ t.links.parent = none ∧ t.links.rootSeq = 0 ∧ t.links.dist = 0 ∧ t.now = s.now ∧ t.links.ports = s.links.ports ∧
        logs s t [(0x840 + s.links.parent.getD 0, 0x106, 1, 0xFF, [s.links.parent.getD 31, 31, s.links.cfg.deviceId])]) ∧
      (∀ r, lowestRoot s s.links.root = some r → goesTo (exec .rootLossTimer s) fun t =>
        t.links.root = some r ∧ r ≠ s.links.root.getD 0 ∧ t.now = s.now ∧ t.links.ports = s.links.ports ∧
        ∃ q, t.links.parent = some q ∧ heardFresh s q = true ∧ (getPort s q).root = r ∧ t.links.dist = (getPort s q).dist + 1 ∧
          logs s t [(0x840 + q, 0x106, 1, 0xFF, [s.links.parent.getD 31, q, r])]))

/-! ## Collectives and dispatch (R266–R327) -/

/-- The group commands complete (R267–R272, R289–R291): a group is created IDLE with sequence 0 and its staging reserved;
destroyed; given its plan and READY, or aborted with COLL_SEQ when it holds a message of another signature; reset with the next
EPOCH; aborted with cause HOST, or, ABORTED already, left as it is; and reported. The other groups stay.
Commands shown to complete (exec = .next t for some t, under conditions on state and operands alone): collGroupCreate,
collGroupDestroy, collPlanSet, collGroupReset, collAbort, collGroupInfo. -/
def Obligations.GroupCommandsComplete : Prop :=
  ∀ (c : FwReq) (s : State), let p := c.payload; let d := cmdDist c; let g := cmdGroup c
    let others (t : State) : Prop := ∀ i, i ≠ g → getGroup t i = getGroup s i
    (let ms := tableBytes s (getDist s d) (fld p 135 128) (fld p 255 192) (4 * min 4096 (fld p 28 16)); let x := groupOf s d p ms
      Sendable specGroupCreate c s → p.length = 48 → zeroAt p groupRsvd = true → memberListOk ms = true →
      (∀ q ∈ setBits 24 (fld p 343 320), portPresent s q = true) → groupOk s d p x = true → g ∈ (getDist s d).channels →
      groupFree s d x = true → (getDist s d).state ∈ [1, 2, 3, 5, 6] → getGroup s g = none →
      goesTo (exec (.collGroupCreate c) s) fun t =>
        repliesAdd s t c.fn [okReply c 0x0500 []] ∧ others t ∧ getGroup t g = some { x with bid := s.nextBid } ∧ x.state = 0 ∧ x.seq = 0 ∧
        x.epoch = 0 ∧ x.plan = none ∧ x.cur = none ∧ (tfind t.backs s.nextBid).map (·.size) = some (1024 * fld p 287 256)) ∧
    (∀ x, Sendable specGroupDestroy c s → groupForm p = true → (getDist s d).state ∈ [1, 2, 3, 4, 5, 6] → getGroup s g = some x → x.dist = d →
      x.state ∈ [0, 1, 3] → goesTo (exec (.collGroupDestroy c) s) fun t =>
        repliesAdd s t c.fn [okReply c 0x0501 []] ∧ others t ∧ getGroup t g = none) ∧
    (∀ x, let len := fld p 223 192; let img := tableBytes s (getDist s d) (fld p 71 64) (fld p 191 128) (min len 65600)
      Sendable specPlanSet c s → p.length = 32 → zeroAt p [(63, 6), (127, 72), (255, 224)] = true →
      rangeIn (getDist s d) (fld p 71 64) (fld p 191 128) len [1, 2, 3, 4] = true → planFormatOk img = true →
      (getDist s d).state ∈ [1, 2, 3, 5, 6] → getGroup s g = some x → x.dist = d → planArgsOk (planOf img) x.members.length = true →
      x.state ∈ [0, 1] → let sig := crc32c (img ++ leBytes 8 x.tag.toNat)
      ((x.inbox = [] ∨ ((planOf img).early = false ∧ ∀ m ∈ x.inbox, m.sig = sig ∧ m.checked = false)) →
        goesToAllSettled (exec (.collPlanSet c) s) fun t => repliesAdd s t c.fn [okReply c 0x0502 (leBytes 8 sig)] ∧ others t ∧
          getGroup t g = some { x with plan := some (planOf img), bind := none, sig := sig, state := 1 }) ∧
      ((∃ m ∈ x.inbox, m.sig ≠ sig) → goesToAllSettled (exec (.collPlanSet c) s) fun t => others t ∧
        (⟨s.now, 0x888, 0x111, 2, x.dist, [g, x.seq, 1, s.links.cfg.deviceId]⟩ : EventRec) ∈ t.emitted ∧
        ∃ y, getGroup t g = some y ∧ y.state = 3 ∧ y.inbox = [])) ∧
    (∀ x, Sendable specGroupReset c s → p.length = 16 → zeroAt p [(63, 6)] = true → (getDist s d).state ∈ [1, 2, 3, 4, 5, 6] →
      getGroup s g = some x → x.dist = d → x.state ∈ [1, 3] → goesTo (exec (.collGroupReset c) s) fun t =>
        repliesAdd s t c.fn [okReply c 0x0503 (leBytes 8 ((x.epoch + 1) % 256))] ∧ others t ∧
        ∃ y, getGroup t g = some y ∧ y.epoch = (x.epoch + 1) % 256 ∧ y.seq = fld p 127 64 ∧ y.cur = none ∧ y.plan = x.plan ∧
          y.members = x.members ∧ (y.state = 1 ↔ (x.plan.isSome ∨ x.bind.isSome))) ∧
    (∀ x, Sendable specCollAbort c s → groupForm p = true → (getDist s d).state ∈ [1, 2, 3, 4, 5, 6] → getGroup s g = some x → x.dist = d →
      (x.state ∈ [1, 2] → goesToAllSettled (exec (.collAbort c) s) fun t =>
        repliesAdd s t c.fn [okReply c 0x0504 []] ∧ others t ∧
        (⟨s.now, 0x888, 0x111, 2, x.dist, [g, x.seq, 7, s.links.cfg.deviceId]⟩ : EventRec) ∈ t.emitted ∧
        ∃ y, getGroup t g = some y ∧ y.state = 3 ∧ y.cur = none ∧ y.pre = none ∧ y.nxt = none ∧ y.reqs = [] ∧ y.inbox = [] ∧ y.kept = [] ∧
          y.members = x.members ∧ y.seq = x.seq) ∧
      (x.state = 3 → goesToAllSettled (exec (.collAbort c) s) fun t =>
        repliesAdd s t c.fn [okReply c 0x0504 []] ∧ t.groups = s.groups ∧ logs s t [])) ∧
    (∀ x, Sendable specGroupInfo c s → groupForm p = true → (getDist s d).state ∈ [1, 2, 3, 4, 5, 6] → getGroup s g = some x → x.dist = d →
      x.state ≤ 3 → goesTo (exec (.collGroupInfo c) s) fun t =>
        repliesAdd s t c.fn [okReply c 0x0505 (pack 16 [(8, x.state), (8, x.epoch), (48, 0),
          (64, (x.seq + b2n x.cur.isSome + b2n x.nxt.isSome) % 2 ^ 64)] ++ complBytes x.record)] ∧ t.groups = s.groups)

/-- What the collective engine's events do to a group that its district's pause does not freeze (R269, R274, R277, R281, R285–R290):
a put that has room is taken with the time-base as its ready stamp; a message that passes the epoch and signature checks
enters staging, and a stray one is logged; a check that passes is acknowledged and its chunk used, one that fails asks for the
chunk again, the fourth time aborting; notices act on the member they name and go on to it from a relay; timeouts and
acknowledgements act; an instance whose puts and takes are complete closes.
The reduction order (R26, R277, R279): at a member that is neither first nor last on a chunk's path in a flat ring, the partial
that arrives is the left operand, this member's own contribution, widened exactly, the right one; the result, rounded to
the partial format, goes to the next member.
Commands shown to complete (exec = .next t for some t, under conditions on state and operands alone): collPutAccept,
chunkMessageReceive, chunkCheckDone, chunkAckBatch, groupTimeoutExpiry, instanceClose, chunkAckReceive, retxRequestReceive,
taintNoticeReceive, abortNoticeReceive. -/
def Obligations.CollectiveEventsReduceInOrder : Prop :=
  (∀ (g : Nat) (x : Group) (s : State), getGroup s g = some x →
     let aborted (t : State) (cause detector : Nat) : Prop :=
       (⟨s.now, 0x888, 0x111, 2, x.dist, [g, x.seq, cause, detector]⟩ : EventRec) ∈ t.emitted ∧
         ∃ y, getGroup t g = some y ∧ y.state = 3 ∧ y.cur = none ∧ y.pre = none ∧ y.reqs = [] ∧ y.inbox = [] ∧ y.kept = []
     let told (t : State) (q kind : Nat) (args : List Nat) : Prop := ∀ port,
       tget 0 s.links.cfg.routes (idAt x q) ≠ 0 → routePort s 66 (idAt x q) 0xFFFFFF = some port →
         ∃ m, tget [] (getPort t port).queue 66 = tget [] (getPort s port).queue 66 ++ [m] ∧
           m.flits.map (·.f.payload) = (flitsOf 66 0 0 false false (sysBytes 66 kind (args ++ [q]) [])).map (·.f.payload)
     ((getDist s x.dist).state ≠ 5 →
       (∀ (p : Plan) (i : Inst) (r : CollReq) (rec : ChunkRec) (port : Nat), x.plan = some p → x.bind = none → (p.op = 5 ∨ p.op = 6) →
         p.chunks[r.chunk]? = some rec → hasRoute s x rec.peer = true → memberPort s g x rec.peer = some port → x.cur = some i →
         x.reqs = [r] → r.put = true → r.inst = some x.seq → r.bytes ≤ stageHalf x → putBytes x = 0 →
         (∀ e, r.seg = some e → staged s e.2 r.addr r.bytes = true) →
         goesToAllSettled (exec (.collPutAccept g) s) fun t => ∃ y j, getGroup t g = some y ∧ y.reqs = [] ∧ y.cur = some j ∧ y.state = x.state ∧
           (tget [] (getPort t port).queue g).length = (tget [] (getPort s port).queue g).length + 1 ∧
           ∃ v, tfind j.puts r.chunk = some v ∧ v.lateReady = time s ∧ v.earlyReady = time s ∧ v.latePos = x.myPos ∧
             v.data = (putRecode s x r (putData s (isCoded x r.chunk) r).1).1) ∧
       (∀ (port : Nat) (fs : List Flit) (u : State) (src : Nat), takeMsg g port s = some (fs, u) → fld (msgBytes fs) 75 64 < 0xFFC →
         posOf x (fs.headD { typ := 1 }).src = some src →
         let m := { msgOf src (fs.any fun f => f.poison) (msgBytes fs) (time s) with port := port }
         (m.epoch = x.epoch → verified x = true → (x.state = 0 ∨ (x.state ∈ [1, 2] ∧ m.sig = x.sig)) →
           (m.gseq = x.seq ∨ m.gseq = (x.seq + 1) % 2 ^ 64) →
           goesToAllSettled (exec (.chunkMessageReceive g port) s) fun t =>
             getGroup t g = some { x with progress := time s, inbox := x.inbox ++ [m] } ∧ logs s t [] ∧ t.links = u.links) ∧
         (m.epoch ≠ x.epoch → goesToAllSettled (exec (.chunkMessageReceive g port) s) fun t =>
             t.groups = s.groups ∧ t.links = u.links ∧
             logs s t [(0x888, 0x115, 1, x.dist, [port, g, (fs.headD { typ := 1 }).src, fld (msgBytes fs) 87 80])]) ∧
         (m.epoch = x.epoch → x.state = 3 → goesToAllSettled (exec (.chunkMessageReceive g port) s) fun t =>
             t.groups = s.groups ∧ t.links = u.links ∧ logs s t []) ∧
         (m.epoch = x.epoch → x.state ≠ 3 → ((x.state ≠ 0 ∧ m.sig ≠ x.sig) ∨ (m.gseq ≠ x.seq ∧ m.gseq ≠ (x.seq + 1) % 2 ^ 64)) →
           goesToAllSettled (exec (.chunkMessageReceive g port) s) fun t => aborted t 1 s.links.cfg.deviceId)) ∧
       (∀ (chunk src : Nat) (m : Msg), verified x = true → x.bind = none → (x.inbox.find? fun m => m.chunk == chunk && m.src == src && !m.checked) = some m →
         (m.relayed = false → crc32c m.v.data = m.crc →
           ((x.plan = none ∨ m.gseq ≠ x.seq) → goesToAllSettled (exec (.chunkCheckDone g chunk src true) s) fun t => ∃ y, getGroup t g = some y ∧
             y.acks = x.acks ++ [(src, chunk)] ∧ y.inbox = x.inbox.erase m ++ [{ m with checked := true }] ∧ logs s t []) ∧
           (∀ p r, x.plan = some p → (p.op = 5 ∨ p.op = 6) → m.gseq = x.seq → p.chunks[m.chunk]? = some r → r.coded = false → m.pass = 1 →
             m.v.taint = false → goesToAllSettled (exec (.chunkCheckDone g chunk src true) s) fun t => ∃ y j, getGroup t g = some y ∧
               y.acks = x.acks ++ [(src, chunk)] ∧ y.inbox = x.inbox.erase m ∧ liveInst y = some j ∧ tfind j.vals chunk = some m.v)) ∧
         (failCount x m.gseq chunk < 3 → goesToAllSettled (exec (.chunkCheckDone g chunk src false) s) fun t => ∃ y, getGroup t g = some y ∧
             y.inbox = x.inbox.erase m ∧ y.acks = x.acks ∧ y.state = x.state ∧ logs s t [(0x888, 0x113, 1, x.dist, [g, m.gseq, chunk, sentBy s x m])] ∧
             told t (sentBy s x m) 1 [g, m.gseq, chunk]) ∧
         (x.state ≠ 3 → 3 ≤ failCount x m.gseq chunk → goesToAllSettled (exec (.chunkCheckDone g chunk src false) s) fun t =>
             aborted t 3 s.links.cfg.deviceId)) ∧
       (x.acks ≠ [] → (64 ≤ x.acks.length ∨ x.acksAt + 1000 ≤ time s) → goesToAllSettled (exec (.chunkAckBatch g) s) fun t =>
         getGroup t g = some { x with acks := [] } ∧ logs s t [] ∧
         ∀ q, (∀ a ∈ x.acks, a.1 = q) → told t q 0 (g :: x.acks.map (·.2))) ∧
       (timedOut s x = true → x.state ≠ 3 → goesToAllSettled (exec (.groupTimeoutExpiry g) s) fun t => aborted t 6 s.links.cfg.deviceId) ∧
       (∀ i, x.cur = some i → closable x = true → x.nxt = none → x.reqs = [] → x.inbox = [] → x.bind = none →
         goesToAllSettled (exec (.instanceClose g) s) fun t => ∃ y, getGroup t g = some y ∧
           y.seq = (x.seq + 1) % 2 ^ 64 ∧ y.cur = none ∧ y.state = 1 ∧ y.record = complOf s x i ∧
           logs s t (if x.evt then [(0x888, 0x110, 0, x.dist, [g, i.gseq, (complOf s x i).laggardId, (complOf s x i).lagNs])] else []))) ∧
     (∀ (src k : Nat) (e : Kept), keptFor x src k = some e → goesToAllSettled (exec (.chunkAckReceive g src [k]) s) fun t =>
       getGroup t g = some { x with kept := x.kept.erase e } ∧ logs s t []) ∧
     (∀ (src k port : Nat) (e : Kept), keptFor x src k = some e → memberPort s g x src = some port →
       goesToAllSettled (exec (.retxRequestReceive g src k) s) fun t =>
         t.groups = s.groups ∧ ∃ key fl, tget [] (getPort t port).queue g = tget [] (getPort s port).queue g ++ [⟨key, fl, false⟩] ∧
           fl.map (·.f.payload) = (flitsOf g 0 0 false false (msgHeader e.m ++ (if isCoded x k then squeeze e.m.v.data else e.m.v.data))).map (·.f.payload)) ∧
     (∀ n : BitVec 64, goesToAllSettled (exec (.taintNoticeReceive g n x.myPos) s) fun t =>
       t.groups = s.groups ∧ t.links = s.links ∧ logs s t [(0x888, 0x112, 1, x.dist, [g, n.toNat, 0xFFFF])]) ∧
     (∀ (n : BitVec 64) (detector : Nat), x.state ≠ 3 → goesToAllSettled (exec (.abortNoticeReceive g n detector x.myPos) s) fun t =>
       aborted t 9 detector ∧ t.out = s.out ∧ t.links = s.links) ∧
     (∀ (n : BitVec 64) (detector q : Nat), q ≠ x.myPos →
       (goesToAllSettled (exec (.taintNoticeReceive g n q) s) fun t => t.groups = s.groups ∧ logs s t [] ∧ told t q 2 [g, n.toNat]) ∧
       (goesToAllSettled (exec (.abortNoticeReceive g n detector q) s) fun t => t.groups = s.groups ∧ logs s t [] ∧ told t q 3 [g, n.toNat, detector]))) ∧
  (∀ (g c : Nat) (x : Group) (p : Plan) (i : Inst) (r : ChunkRec) (own a : ChunkVal) (at_ port : Nat) (s : State),
     getGroup s g = some x → x.plan = some p → x.cur = some i → p.chunks[c]? = some r → hier s x = false → 2 ≤ x.members.length →
     x.myPos < x.members.length → r.owner < x.members.length → p.op ≤ 2 → r.coded = false → p.early = true →
     x.myPos ≠ r.owner → x.myPos ≠ (r.owner + 1) % x.members.length →
     tfind i.puts c = some own → tfind i.parts (2 * c) = some (a, at_) → c ∉ i.done0 → tfind i.totals c = none →
     hasRoute s x ((x.myPos + 1) % x.members.length) = true → memberPort s g x ((x.myPos + 1) % x.members.length) = some port →
     let fmt := if p.acc then p.fmt else 1
     let v := narrow fmt (redOp p.redop (widen fmt a.data) (widen fmt (narrow fmt (widen p.fmt own.data))))
     let u := wardStage g c s
     ∃ m key, m.v.data = v ∧ m.pass = 0 ∧ m.level = 0 ∧ m.chunk = c ∧ m.gseq = x.seq ∧ m.crc = crc32c v ∧
       (m.v.poison = (a.poison || own.poison)) ∧ (m.v.lateReady = max a.lateReady own.lateReady) ∧
       (m.v.earlyReady = min a.earlyReady own.earlyReady) ∧
       (tget [] (getPort u port).queue g).map (fun q => (q.key, q.flits.map (·.f.payload))) =
         (tget [] (getPort s port).queue g).map (fun q => (q.key, q.flits.map (·.f.payload))) ++
           [(key, (flitsOf g 0 0 false false (msgHeader m ++ v)).map (·.f.payload))])

/-- Directory and binding commands complete (R311–R313, R327): entries are written at once, or held while a bound group has an
open instance or earlier ones are held, and installed, in order, when none has; they are read as installed; a binding replaces the plan, makes the
group READY and answers its signature.
Commands shown to complete (exec = .next t for some t, under conditions on state and operands alone): collDirWrite, dirWriteInstall,
collDirRead, collDispBind, collDispInfo. -/
def Obligations.DirectoryCommandsComplete : Prop :=
  ∀ (c : FwReq) (s : State), let p := c.payload; let d := cmdDist c; let g := cmdGroup c; let es := dirEntries p
    (Sendable specDirWrite c s → 8 ≤ p.length → p.length = 8 + 32 * fld p 19 16 → zeroAt p [(63, 20)] = true → (∀ e ∈ es, dirRsvdOk e = true) →
      1 ≤ fld p 19 16 → fld p 19 16 ≤ 14 → dirWriteOk (getDist s d) (fld p 15 0) es = true → (getDist s d).state ∈ [1, 2, 3, 5, 6] →
      (dispOpen s d = false → (getDist s d).dirWrites = [] → goesTo (exec (.collDirWrite c) s) fun t =>
        repliesAdd s t c.fn [okReply c 0x0540 []] ∧ (getDist t d).dirWrites = [] ∧
        (∀ (i : Nat) e, es[i]? = some e → tget dirReset (getDist t d).dir (fld p 15 0 + i) = e) ∧
        (∀ i, i < fld p 15 0 ∨ fld p 15 0 + es.length ≤ i → tget dirReset (getDist t d).dir i = tget dirReset (getDist s d).dir i)) ∧
      ((dispOpen s d = true ∨ (getDist s d).dirWrites ≠ []) → goesTo (exec (.collDirWrite c) s) fun t =>
        repliesAdd s t c.fn [acceptedReply c 0x0540] ∧ (getDist t d).dir = (getDist s d).dir ∧
        (getDist t d).dirWrites = (getDist s d).dirWrites ++ [⟨pendOf s c 0x0540, fld p 15 0, es⟩])) ∧
    (∀ k w, dispOpen s k = false → (getDist s k).dirWrites = [w] → (getFn s w.pend.req.fn).epoch = w.pend.epoch →
      goesTo (exec (.dirWriteInstall k) s) fun t =>
        (getDist t k).dirWrites = [] ∧ repliesAdd s t w.pend.req.fn [doneReply w.pend 0 0 []] ∧
        (∀ (i : Nat) e, w.entries[i]? = some e → tget dirReset (getDist t k).dir (w.first + i) = e)) ∧
    (Sendable specDirRead c s → p.length = 8 → zeroAt p [(63, 20)] = true → 1 ≤ fld p 19 16 → fld p 19 16 ≤ 14 →
      fld p 15 0 + fld p 19 16 ≤ (getDist s d).dirCount → (getDist s d).state ∈ [1, 2, 3, 4, 5, 6] →
      goesTo (exec (.collDirRead c) s) fun t =>
        repliesAdd s t c.fn [okReply c 0x0541 ((List.range (fld p 19 16)).flatMap fun i => tget dirReset (getDist s d).dir (fld p 15 0 + i))] ∧
        (getDist t d).dir = (getDist s d).dir) ∧
    (∀ x, Sendable specDispBind c s → p.length = 96 → zeroAt p bindRsvd = true → getGroup s g = some x → x.dist = d →
      bindOk (getDist s d) p x.members.length = true → (getDist s d).state ∈ [1, 2, 3, 5, 6] →
      (anyFallback p = false ∨ (getDist s d).serving = true ∨ (getDist s d).approx = true) → x.state ∈ [0, 1] →
      let sig := crc32c (p ++ leBytes 8 x.tag.toNat)
      (∀ m ∈ x.inbox, m.sig = sig) → goesToAllSettled (exec (.collDispBind c) s) fun t => repliesAdd s t c.fn [okReply c 0x0542 (leBytes 8 sig)] ∧
        getGroup t g = some { x with plan := none, bind := some p, sig := sig, state := 1 }) ∧
    (∀ x, Sendable specDispInfo c s → groupForm p = true → (getDist s d).state ∈ [1, 2, 3, 4, 5, 6] → getGroup s g = some x → x.dist = d →
      x.state ≤ 3 → goesTo (exec (.collDispInfo c) s) fun t =>
        repliesAdd s t c.fn [okReply c 0x0543 (leBytes 8 (if x.bind.isSome then 1 else 0) ++ x.totals.flatMap (leBytes 8))] ∧ t.groups = s.groups)

/-- The dispatch unit's events (R315–R324): a block whose two chunks are there is routed; a dispatch or return message enters
staging; an inbox whose slot is decided is written once every message has come; a cold expert that warms in time is warm, and
one that does not takes its fallback, is logged as DEADLINE_MISS and marks the step approximate; the count takes get their
records; the close of an instance logs DISP_DONE.
Commands shown to complete (exec = .next t for some t, under conditions on state and operands alone): dispatchBlockRoute,
dispatchMessageReceive, returnMessageReceive, dispatchInboxWrite, coldWarmingDone, coldDeadlineExpiry, slotCountsTakeDone,
instanceCountsTakeDone, instanceClose. -/
def Obligations.DispatchEventsComplete : Prop :=
  ∀ (g : Nat) (x : Group) (b : Bytes) (s : State), getGroup s g = some x → x.bind = some b → x.plan = none → (getDist s x.dist).state ≠ 5 →
    (∀ i routes rows, x.cur = some i → tfind i.puts (2 * x.disp.routed) = some routes → tfind i.puts (2 * x.disp.routed + 1) = some rows →
      x.disp.routed + 1 < bNBlk b → goesToAllSettled (exec (.dispatchBlockRoute g) s) fun t =>
        let a := routeBlock x (dirEntry (getDist s x.dist)) b x.disp.routed routes rows { cnt := x.disp.cnt, counts := x.disp.counts }
        ∃ y, getGroup t g = some y ∧ y.disp.routed = x.disp.routed + 1 ∧ y.disp.headers = true ∧ y.disp.sent = false ∧
          y.disp.toks = x.disp.toks ++ a.toks ∧ y.disp.counts = a.counts ∧ y.disp.cnt = a.cnt ∧
          ∃ j, y.cur = some j ∧ j.puts = i.puts ∧ j.vals = i.vals ∧ 2 * x.disp.routed ∈ j.done0 ∧ 2 * x.disp.routed + 1 ∈ j.done0) ∧
    (∀ (port : Nat) (fs : List Flit) (u : State) (src : Nat), takeMsg g port s = some (fs, u) → posOf x (fs.headD { typ := 1 }).src = some src →
      let m := { msgOf src (fs.any fun f => f.poison) (msgBytes fs) (time s) with port := port }
      m.epoch = x.epoch → x.state ∈ [1, 2] → m.sig = x.sig → (m.gseq = x.seq ∨ m.gseq = (x.seq + 1) % 2 ^ 64) →
      (fld (msgBytes fs) 75 64 = 0xFFC → goesToAllSettled (exec (.dispatchMessageReceive g port) s) fun t =>
        ∃ y, getGroup t g = some y ∧ y.inbox = x.inbox ++ [m] ∧ y.cur = x.cur ∧ y.state = x.state ∧ t.links = u.links) ∧
      (fld (msgBytes fs) 75 64 = 0xFFD → goesToAllSettled (exec (.returnMessageReceive g port) s) fun t =>
        ∃ y, getGroup t g = some y ∧ y.inbox = x.inbox ++ [m] ∧ y.cur = x.cur ∧ y.state = x.state ∧ t.links = u.links)) ∧
    (∀ i slot e k, x.cur = some i → allMsgs x b = true → (List.range (bNLocal b)).find? (slotReady s x b) = some slot →
      groupSeg s x (bInboxSeg b) = some e → e.tier ≠ 3 → memWf (getBack s e.bid).data = true → k < bNLocal b → tfind i.puts (0x800 + k) = none →
      goesToAllSettled (exec (.dispatchInboxWrite g) s) fun t => ∃ y, getGroup t g = some y ∧
        (tget {} y.disp.slots slot).written = true ∧ (tget {} y.disp.slots slot).inbox = (inboxOf s x b slot).1 ∧ y.cur = x.cur ∧
        (let l := inboxBytes b x.members.length (inboxOf s x b slot).1; segRead t e (bInboxOff b + slot * bStride b) l.length = l)) ∧
    (∀ slot q entry, tfind x.disp.slots slot = some q → q.cold = some entry → q.state = 0 → q.warm = false →
      (q.pinned = true → coldRead s q = true → (∀ k, coldDeadline s x b q = some k → time s ≤ k) → goesToAllSettled (exec (.coldWarmingDone g slot) s) fun t =>
        getGroup t g = some { x with disp := { x.disp with slots := tset x.disp.slots slot { q with warm := true } } } ∧ logs s t []) ∧
      (∀ k, coldDeadline s x b q = some k → k < time s → goesToAllSettled (exec (.coldDeadlineExpiry g slot) s) fun t =>
        let e := dirEntry (getDist s x.dist) entry
        let st := if (substSlot s x b q).isSome then 1 else 2
        getGroup t g = some { x with disp := { x.disp with slots := tset x.disp.slots slot { q with state := st } } } ∧
        (getDist t x.dist).gate.approx = true ∧ logs s t [(0x889, 0x0D0, 1, x.dist, [x.dist, eSeg e, eOffset e, st, entry])])) ∧
    (takeWaits x 0xFFE = true → allWritten x b = true → goesToAllSettled (exec (.slotCountsTakeDone g) s) fun t =>
      ∃ y j, getGroup t g = some y ∧ y.cur = some j ∧ (tfind j.vals 0xFFE).map (·.data) = some (slotCountBytes x b) ∧ y.disp = x.disp) ∧
    (takeWaits x 0xFFF = true → recordsDone s x b = true → goesToAllSettled (exec (.instanceCountsTakeDone g) s) fun t =>
      ∃ y j, getGroup t g = some y ∧ y.cur = some j ∧ (tfind j.vals 0xFFF).map (·.data) = some (instCountBytes x.seq x.disp.counts) ∧
        y.totals = (x.totals.zip x.disp.counts).map fun e => (e.1 + e.2) % 2 ^ 64) ∧
    (∀ i, x.cur = some i → closable x = true → x.nxt = none → x.reqs = [] → x.inbox = [] →
      goesToAllSettled (exec (.instanceClose g) s) fun t => ∃ y, getGroup t g = some y ∧ y.seq = (x.seq + 1) % 2 ^ 64 ∧ y.cur = none ∧
        y.state = 1 ∧ y.record = complOf s x i ∧
        logs s t ((if x.evt then [(0x888, 0x110, 0, x.dist, [g, i.gseq, (complOf s x i).laggardId, (complOf s x i).lagNs])] else []) ++
          (if bEvt b then [(0x889, 0x150, 0, x.dist, [g, i.gseq, x.disp.counts.getD 0 0, x.disp.counts.getD 1 0, x.disp.counts.getD 2 0])] else [])))

/-! ## The training step (R330–R348) -/

/-- The STEP_ commands complete (R330, R342, R345, R346, R348): CONFIG defines the job and leaves the gate IDLE; RUN is ACCEPTED and
waits for its first opening; STOP ends the loop after the attempt, or at once when REFUSED, in a PAUSED district after the resume; COMMIT at position 0 under HOLD is
kept for the verdict, or decides a held one, a refusal with the cause HOST; RESUME replays, skips or ends; in a PAUSED district both
choices wait; INFO reports; SET sets step and cursor.
Commands shown to complete (exec = .next t for some t, under conditions on state and operands alone): stepConfig, stepRun, stepStop,
stepCommit, stepResume, stepInfo, stepSet. -/
def Obligations.StepCommandsComplete : Prop :=
  ∀ (c : FwReq) (s : State), let p := c.payload; let d := cmdDist c; let x := getDist s d; let g := x.gate
    x.serving = false →
    (let ms := tableBytes s x (fld p 207 200) (fld p 383 320) (4 * min 4096 (fld p 396 384))
     let ls := tableBytes s x (fld p 215 208) (fld p 511 448) (32 * min 4096 (fld p 447 432))
     Sendable specStepConfig c s → p.length = 136 → zeroAt p stepRsvd = true → memberListOk ms = true →
      (∀ r ∈ chunksOf 32 4097 ls, zeroAt r [(31, 30), (63, 48), (255, 192)] = true) → jobOk s x p (jobOf p ms ls) = true → x.state = 2 → g.code ∈ [0, 5] →
      vecFree (unbind s d vbStep) d (fld p 47 40) = true → goesTo (exec (.stepConfig c) s) fun t => let h := (getDist t d).gate
        repliesAdd s t c.fn [okReply c 0x0600 []] ∧ h.code = 0 ∧ h.job = some (jobOf p ms ls) ∧ h.step = fld p 127 64 ∧
        h.cursor = fld p 191 128 ∧ h.replay = 0 ∧ h.record = g.record ∧ (getDist t d).state = 2) ∧
    (Sendable specStepRun c s → p.length = 8 → zeroAt p [(63, 32)] = true → x.state = 2 → jobReady x = true → g.code = 0 → x.snap.code ≠ 5 →
      (retainBlocks s).1 = false → s.pwr.state ≠ 2 → goesTo (exec (.stepRun c) s) fun t => let h := (getDist t d).gate
        repliesAdd s t c.fn [acceptedReply c 0x0601] ∧ (getDist t d).state = 3 ∧ h.run = some ⟨pendOf s c 0x0601, fld p 31 0, 0⟩ ∧
        h.opening = true ∧ h.stop = false ∧ h.step = g.step ∧ h.cursor = g.cursor) ∧
    (Sendable specStepStop c s → p = [] → x.state ∈ [1, 2, 3, 4, 5, 6] →
      ((g.code ∈ [1, 2, 3] ∨ (g.code = 4 ∧ x.state = 5)) → goesTo (exec (.stepStop c) s) fun t =>
        repliesAdd s t c.fn [okReply c 0x0602 []] ∧ (getDist t d).gate = { g with stop := true }) ∧
      (∀ r, g.code = 4 → x.state ≠ 5 → g.run = some r → (getFn s r.pend.req.fn).epoch = r.pend.epoch → goesTo (exec (.stepStop c) s) fun t =>
        okReply c 0x0602 [] ∈ (getFn t c.fn).replies ∧ doneReply r.pend 0 0 (pack 16 [(64, g.step), (8, 1)]) ∈ (getFn t r.pend.req.fn).replies ∧
        (getDist t d).gate.code = 0 ∧ (getDist t d).gate.run = none ∧ (getDist t d).gate.step = g.step)) ∧
    (∀ j, g.job = some j → j.myPos = 0 → j.hold = true → Sendable specStepCommit c s → p.length = 8 → zeroAt p [(63, 1)] = true →
      x.state ∈ [1, 2, 3, 4, 5, 6] → g.code ∈ [1, 2] →
      (g.held = none → goesTo (exec (.stepCommit c) s) fun t =>
        repliesAdd s t c.fn [okReply c 0x0603 []] ∧ (getDist t d).gate = { g with commit := some (bit p 0) }) ∧
      (g.held.isSome = true → x.state = 5 → goesTo (exec (.stepCommit c) s) fun t => let m : GateMsg := { round := .decision, sig := j.sig, action := if bit p 0 then 1 else 0 }
        repliesAdd s t c.fn [okReply c 0x0603 []] ∧ (getDist t d).gate = { g with waiting := g.waiting ++ [m] }) ∧
      (∀ v, g.held = some v → x.state ≠ 5 → goesTo (exec (.stepCommit c) s) fun t => let o := (getDist t d).gate.record
        okReply c 0x0603 [] ∈ (getFn t c.fn).replies ∧ o.step = g.step ∧ o.loss = v.loss ∧
        (bit p 0 = true → o.verdict = 2 ∧ o.causes = 32) ∧
        (bit p 0 = false → o.verdict = 1 ∧ o.causes = 0 ∧ (getDist t d).gate.code = 3))) ∧
    (∀ j r, g.job = some j → j.myPos = 0 → Sendable specStepResume c s → p.length = 8 → zeroAt p [(63, 2)] = true →
      x.state ∈ [1, 2, 3, 4, 5, 6] → g.code = 4 → fld p 1 0 ≠ 3 → g.run = some r → g.stop = false → g.ends = false →
      (r.count = 0 ∨ r.done + 1 < r.count) →
      (x.state = 5 → goesTo (exec (.stepResume c) s) fun t => let m : GateMsg := { round := .resume, sig := j.sig, action := fld p 1 0 }
        repliesAdd s t c.fn [okReply c 0x0604 []] ∧ (getDist t d).gate = { g with waiting := g.waiting ++ [m] }) ∧
      (x.state ≠ 5 → fld p 1 0 = 0 → goesTo (exec (.stepResume c) s) fun t => let h := (getDist t d).gate
        repliesAdd s t c.fn [okReply c 0x0604 []] ∧ h.opening = true ∧ h.replay = g.replay + 1 ∧ h.step = g.step ∧ h.cursor = g.cursor) ∧
      (x.state ≠ 5 → fld p 1 0 = 1 → goesTo (exec (.stepResume c) s) fun t => let h := (getDist t d).gate
        repliesAdd s t c.fn [okReply c 0x0604 []] ∧ h.opening = true ∧ h.replay = 0 ∧ h.step = (g.step + 1) % 2 ^ 64 ∧
        h.cursor = (g.cursor + j.recs) % 2 ^ 64) ∧
      (x.state ≠ 5 → fld p 1 0 = 2 → goesTo (exec (.stepResume c) s) fun t => let h := (getDist t d).gate
        okReply c 0x0604 [] ∈ (getFn t c.fn).replies ∧ h.code = 0 ∧ h.run = none ∧ h.step = g.step ∧ h.cursor = g.cursor)) ∧
    (Sendable specStepInfo c s → p = [] → x.state ∈ [1, 2, 3, 4, 5, 6] → goesTo (exec (.stepInfo c) s) fun t =>
      repliesAdd s t c.fn [okReply c 0x0605 (pack 16 [(8, g.code), (56, 0), (64, g.step)] ++ outcomeBytes g.record)] ∧ (getDist t d).gate = g) ∧
    (Sendable specStepSet c s → p.length = 16 → x.state ∈ [2, 6] → g.code ∈ [0, 5] → goesTo (exec (.stepSet c) s) fun t =>
      repliesAdd s t c.fn [okReply c 0x0606 []] ∧
      (getDist t d).gate = { g with code := 0, step := fld p 63 0, cursor := fld p 127 64, replay := 0, opening := false })

/-- A step's attempt (R331, R332, R339, R340, R343, R344): it opens with its inputs at zero, its information record written and the
compute program started; the feed's records are in the next buffer when its move is done; a ready member contributes, and sends on
once everything before it on the ring has arrived; a verdict with a non-zero cause refuses and any other commits; a clean
commit round advances step and cursor and leaves COMMITTING (for IDLE: log entry 165), any other tears the step; so does a verdict
that does not come in time; an early refusal that carries the job's signature aborts the attempt and rewinds the groups, one that
does not is a FAULT. A PAUSED district's gate takes nothing: messages wait.
Commands shown to complete (exec = .next t for some t, under conditions on state and operands alone): stepOpen, feedMoveDone,
gateMemberReady, gateMessageReceive, updateProgramComplete, gateEvalTimeout, earlyRefusalNotice, earlyAbortComplete. -/
def Obligations.StepAttemptsRun : Prop :=
  ∀ (d : Nat) (j : Job) (s : State), let x := getDist s d; let g := x.gate; let sh := gateShape s j.members
    g.job = some j →
    (g.opening = true → g.run.isSome = true → g.feeding = none → x.state = 3 → x.pause = none →
      (∀ e, tfind x.segs j.infoSeg = some e → e.tier ≠ 3 ∧ memWf (getBack s e.bid).data = true) →
      goesTo (exec (.stepOpen d) s) fun t => let h := (getDist t d).gate
        h.code = 1 ∧ h.opening = false ∧ h.nf = 0 ∧ h.poison = 0 ∧ h.taint = false ∧ h.fault = false ∧ h.approx = false ∧
        h.tOpen = time s ∧ h.step = g.step ∧ h.cursor = g.cursor ∧
        h.feeding = (if j.feedSeg = 0 then none else some (g.cursor + j.recs, g.step + 1)) ∧
        (∀ e, tfind x.segs j.infoSeg = some e → segRead t e j.infoOff 64 = infoBytes g (time s)) ∧
        (thas x.progs j.compute = true → (getDist t d).run.map (·.handle) = some j.compute)) ∧
    (∀ first step src dst, g.feeding = some (first, step) → feedReady s d j first = true → tfind x.segs j.feedSeg = some src →
      tfind x.segs j.bufSeg = some dst → dst.tier ≠ 3 → memWf (getBack s dst.bid).data = true → j.recs = 1 →
      goesTo (exec (.feedMoveDone d) s) fun t =>
        (getDist t d).gate = { g with feeding := none } ∧
        segRead t dst (j.bufOff + step % 2 * j.recBytes) j.recBytes =
          segRead s src (j.feedOff + first % max 1 j.feedRecs * j.recBytes) j.recBytes) ∧
    (g.code = 1 → g.early = none → x.state ≠ 5 → runOver x = true → groupsFinal s d = true → g.acc = none →
      ((∃ q ∈ ringNeeds sh.1 sh.2 j.myPos, q ≠ j.myPos) → goesTo (exec (.gateMemberReady d) s) fun t =>
        let m := ownMsg s d j .contribution true
        (getDist t d).gate = { g with code := 2, tEval := time s, evalFrom := time s, mine := true, sent := false, acc := some m } ∧
        t.out = s.out) ∧
      (∀ q, (∀ i ∈ ringNeeds sh.1 sh.2 j.myPos, i = j.myPos) → ringNext sh.1 sh.2 j.myPos = some q →
        goesTo (exec (.gateMemberReady d) s) fun t =>
          let m := ownMsg s d j .contribution true
          (getDist t d).gate = { g with code := 2, tEval := time s, evalFrom := time s, mine := true, sent := true, acc := some m } ∧ t.out = s.out ∧
          ∀ port, routePort s 65 (j.members.getD q ⟨0, none⟩).id 0xFFFFFF = some port →
            ∃ w, tget [] (getPort t port).queue 65 = tget [] (getPort s port).queue 65 ++ [w] ∧
              w.flits.map (·.f.payload) = (flitsOf 65 0 0 false false (sysBytes 65 0 (gateArgs m) [])).map (·.f.payload))) ∧
    (∀ m : GateMsg, x.state = 5 → goesTo (exec (.gateMessageReceive d m) s) fun t =>
      (getDist t d).gate = { g with waiting := g.waiting ++ [m] } ∧ t.links = s.links ∧ logs s t []) ∧
    (∀ m : GateMsg, x.state ≠ 5 → m.round = .contribution → m.sig = j.sig → isFull j m = true → g.code = 2 →
      (msgCauses m ≠ 0 → goesTo (exec (.gateMessageReceive d m) s) fun t => let o := (getDist t d).gate.record
        o.verdict = 2 ∧ o.causes = msgCauses m ∧ o.step = g.step ∧ o.nf = m.nf ∧ o.poison = m.poison ∧ o.loss = m.loss ∧
        (⟨s.now, 0x887, 0x181, 1, d, [g.step, msgCauses m, m.nf, min g.replay 15]⟩ : EventRec) ∈ t.emitted) ∧
      (msgCauses m = 0 → m.held = false → goesTo (exec (.gateMessageReceive d m) s) fun t => let h := (getDist t d).gate
        h.code = 3 ∧ h.record.verdict = 1 ∧ h.record.causes = 0 ∧ h.record.step = g.step ∧ h.record.loss = m.loss ∧ h.step = g.step ∧
        h.nf = 0 ∧ h.poison = 0 ∧ h.fault = false)) ∧
    (∀ m : GateMsg, x.state ≠ 5 → m.round = .commit → m.sig = j.sig → isFull j m = true → g.code = 3 →
      (m.clean = true → goesTo (exec (.gateMessageReceive d m) s) fun t => let h := (getDist t d).gate
        h.step = (g.step + 1) % 2 ^ 64 ∧ h.cursor = (g.cursor + j.recs) % 2 ^ 64 ∧ h.replay = 0 ∧ h.record.verdict = 1 ∧ h.code = 0 ∧
        (j.evt = true → (⟨s.now, 0x887, 0x180, 0, d, [g.record.step, g.record.loss, if g.record.approx then 1 else 0]⟩ : EventRec) ∈ t.emitted)) ∧
      (m.clean = false → goesTo (exec (.gateMessageReceive d m) s) fun t => let h := (getDist t d).gate
        h.code = 5 ∧ h.step = g.step ∧ h.cursor = g.cursor ∧ h.record.verdict = 3 ∧ 128 ≤ h.record.causes)) ∧
    (g.code = 3 → g.mine = false → g.updWait = false → x.state ≠ 5 → runOver x = true → g.accC = none → (∃ q ∈ ringNeeds sh.1 sh.2 j.myPos, q ≠ j.myPos) →
      goesTo (exec (.updateProgramComplete d) s) fun t =>
        let m := ownMsg s d j .commit (g.nf == 0 && g.poison == 0 && !g.fault && !g.broken)
        (getDist t d).gate = { g with mine := true, sent := false, accC := some m } ∧ t.out = s.out) ∧
    (g.code = 2 → g.held = none → g.early = none → x.state ≠ 5 → g.evalFrom + j.evalMs * 1000000 ≤ time s → goesTo (exec (.gateEvalTimeout d) s) fun t =>
      (getDist t d).gate.code = 5 ∧ (getDist t d).gate.record.verdict = 3 ∧ (getDist t d).gate.record.causes = 16 ∧
      (getDist t d).gate.step = g.step ∧ (⟨s.now, 0x887, 0x182, 2, d, [g.step, 16]⟩ : EventRec) ∈ t.emitted) ∧
    (∀ pos causes sig, sig ≠ j.sig → (j.early = false ∨ g.code ≠ 1) → goesTo (exec (.earlyRefusalNotice d pos causes sig) s) fun t =>
      (getDist t d).gate = { g with fault := true } ∧ t.groups = s.groups) ∧
    (∀ pos causes, (g.code = 1 ∨ g.code = 2) →
      (g.early = none → goesTo (exec (.earlyRefusalNotice d pos causes j.sig) s) fun t =>
        (getDist t d).gate.early = some causes ∧ (getDist t d).gate.code = g.code ∧
        ((getDist t d).run.all fun r => r.stopped) = true ∧
        (⟨s.now, 0x887, 0x183, 1, d, [g.step, pos]⟩ : EventRec) ∈ t.emitted) ∧
      (∀ k, g.early = some k → goesTo (exec (.earlyRefusalNotice d pos causes j.sig) s) fun t =>
        (getDist t d).gate = { g with early := some (k ||| causes) } ∧ t.groups = s.groups)) ∧
    (∀ k, (g.code = 1 ∨ g.code = 2) → g.early = some k → x.run = none → (s.groups.map (·.1)).Nodup → goesTo (exec (.earlyAbortComplete d) s) fun t =>
      (getDist t d).gate.record.verdict = 2 ∧ (getDist t d).gate.record.causes = 64 + k ∧ (getDist t d).gate.record.step = g.step ∧
      ∀ n y, getGroup s n = some y → y.dist = d → ∃ z, getGroup t n = some z ∧ z.seq = tget y.seq g.seqs n ∧ z.epoch = (y.epoch + 1) % 256 ∧ z.cur = none)

/-! ## The page pool and the serving loop (R349–R365, R374–R376) -/

/-- The SERVE_ commands complete (R350, R356, R363, R365, R374): POOL_CREATE makes an empty pool of PAGES and COLUMNS;
POOL_DESTROY removes it with the programs that use it; JOIN queues a sequence with its prompt in history; LEAVE frees a QUEUED
slot at once and marks any other; TRUNCATE applies at once, in a PAUSED district too, unless a walk of the slot or a boundary is in
progress, and then when it ends; SEQ_INFO and POOL_INFO report; RUN starts the loop with a boundary; STOP ends it at once between steps, else after the
step.
Commands shown to complete (exec = .next t for some t, under conditions on state and operands alone): servePoolCreate,
servePoolDestroy, serveJoin, serveLeave, serveTruncate, immediateEditApply, serveSeqInfo, servePoolInfo, serveRun, serveStop. -/
def Obligations.ServingCommandsComplete : Prop :=
  ∀ (c : FwReq) (s : State), let p := c.payload; let d := cmdDist c; let x := getDist s d
    x.serving = true →
    (Sendable specServePoolCreate c s → p.length = 48 → zeroAt p [(31, 25), (47, 41), (79, 77), (127, 97), (383, 256)] = true →
      poolArgsOk x p = true → x.state ∈ [1, 2] → x.pool = none → x.loop = none → fits s 1 (List.range 8) (tableSize p) = true →
      ∀ e, tfind x.segs (fld p 7 0) = some e → goesTo (exec (.servePoolCreate c) s) fun t =>
        let pages := min 268435455 (e.size / 8192)
        repliesAdd s t c.fn [okReply c 0x0700 (pack 16 [(32, pages), (32, pages / fld p 40 32), (64, tableSize p)])] ∧
        (getDist t d).pool.map (fun q => (q.pages, q.columns, q.used, q.seqs, q.slots)) = some (pages, pages / fld p 40 32, [], [], fld p 76 64) ∧
        (getDist t d).bstep = 0 ∧ (getDist t d).segs = x.segs ∧ (getDist t d).state = x.state) ∧
    (∀ q, x.pool = some q → (∀ e ∈ q.seqs, e.2.state = 0) → Sendable specServePoolDestroy c s → p = [] → x.state ∈ [1, 2, 6] →
      x.loop = none → x.run = none → goesTo (exec (.servePoolDestroy c) s) fun t =>
        (getDist t d).pool = none ∧ okReply c 0x0701 [] ∈ (getFn t c.fn).replies ∧ (getDist t d).segs = x.segs ∧
        ∀ e ∈ (getDist t d).progs, (allDescs x e.2).any (usesPool q.seg) = false) ∧
    (∀ q i a b, x.pool = some q → freeSlot x = some i → tfind x.segs (fld p 79 72) = some a → tfind x.segs q.histSeg = some b → b.tier ≠ 3 →
      memWf (getBack s b.bid).data = true → Sendable specServeJoin c s → p.length = 32 → zeroAt p [(71, 69), (95, 80), (255, 192)] = true →
      joinOk x p = true → x.state ∈ [1, 2, 3, 4, 5, 6] → goesTo (exec (.serveJoin c) s) fun t =>
        repliesAdd s t c.fn [{ acceptedReply c 0x0702 with payload := leBytes 8 i }] ∧
        (∃ r, (getDist t d).pool = some r ∧ (getSeq r i).state = 1 ∧ (getSeq r i).tag = fld p 63 0 ∧ (getSeq r i).prio = fld p 67 64 ∧
          (getSeq r i).goal = fld p 127 96 ∧ r.used = q.used ∧ ∀ k, k ≠ i → getSeq r k = getSeq q k) ∧
        segRead t b (q.histOff + i * q.maxPages * 64) (4 * fld p 127 96) = segRead s a (fld p 191 128) (4 * fld p 127 96)) ∧
    (∀ q, x.pool = some q → fld p 11 0 < q.slots → Sendable specServeLeave c s → p.length = 8 → zeroAt p [(63, 12)] = true →
      x.state ∈ [1, 2, 3, 4, 5, 6] →
      ((getSeq q (fld p 11 0)).state ∈ [2, 3, 4, 5] → goesTo (exec (.serveLeave c) s) fun t =>
        repliesAdd s t c.fn [okReply c 0x0703 []] ∧ (getDist t d).pool = some (modSeq q (fld p 11 0) fun y => { y with state := 6 })) ∧
      (∀ w, (getSeq q (fld p 11 0)).state = 1 → (getSeq q (fld p 11 0)).pend = some w → (getFn s w.req.fn).epoch = w.epoch →
        goesTo (exec (.serveLeave c) s) fun t =>
          doneReply w 0 0 (leBytes 8 0) ∈ (getFn t w.req.fn).replies ∧ okReply c 0x0703 [] ∈ (getFn t c.fn).replies ∧
          (getDist t d).pool = some (modSeq q (fld p 11 0) fun y => { gen := y.gen }) ∧ t.emitted = s.emitted)) ∧
    (∀ q, x.pool = some q → fld p 11 0 < q.slots → Sendable specServeTruncate c s → p.length = 8 → zeroAt p [(31, 12)] = true →
      0 < fld p 63 32 → fld p 63 32 < (getSeq q (fld p 11 0)).len → x.state ∈ [1, 2, 3, 4, 5, 6] → (getSeq q (fld p 11 0)).state ∈ [3, 4] →
      (walking x (fld p 11 0) = false → inBoundary x = false → (getSeq q (fld p 11 0)).edits = [] → goesTo (exec (.serveTruncate c) s) fun t =>
        repliesAdd s t c.fn [okReply c 0x0704 []] ∧ ∃ r, (getDist t d).pool = some r ∧ r.used = q.used ∧
        (let y := getSeq r (fld p 11 0); let z := getSeq q (fld p 11 0)
         y.len = fld p 63 32 ∧ y.gen = (z.gen + 1) % 65536 ∧ y.table = (z.table.filter fun e => e.1 < cdiv (fld p 63 32) 16) ∧
         (z.inStep = true → y.void = true) ∧ y.state = z.state)) ∧
      ((walking x (fld p 11 0) = true ∨ inBoundary x = true) → goesTo (exec (.serveTruncate c) s) fun t =>
        (∀ f, (getFn t f).replies = (getFn s f).replies) ∧
        (getDist t d).pool = some (modSeq q (fld p 11 0) fun y => { y with edits := y.edits ++ [(fld p 63 32, pendOf s c 0x0704)] }))) ∧
    (∀ q i n w, x.pool = some q → (getSeq q i).edits = [(n, w)] → n < (getSeq q i).len → (getFn s w.req.fn).epoch = w.epoch →
      (walking x i = false → inBoundary x = false → goesTo (exec (.immediateEditApply d i) s) fun t =>
        repliesAdd s t w.req.fn [okReply w.req w.cmd []] ∧ ∃ r, (getDist t d).pool = some r ∧ (getSeq r i).len = n ∧ (getSeq r i).edits = [] ∧
        (getSeq r i).gen = ((getSeq q i).gen + 1) % 65536 ∧ ∀ k, k ≠ i → getSeq r k = getSeq q k) ∧
      (walking x i = true ∨ inBoundary x = true → exec (.immediateEditApply d i) s = .next s)) ∧
    (∀ q, x.pool = some q → x.state ∈ [1, 2, 3, 4, 5, 6] →
      (Sendable specServeSeqInfo c s → p.length = 8 → zeroAt p [(63, 12)] = true → fld p 11 0 < q.slots → goesTo (exec (.serveSeqInfo c) s) fun t =>
        let y := getSeq q (fld p 11 0)
        repliesAdd s t c.fn [okReply c 0x0705 (pack 32 [(8, y.state), (4, y.prio), (1, b2n y.resUsed), (3, 0), (16, y.gen), (32, y.len),
          (32, y.table.length), (32, 0), (64, y.tag)])] ∧ (getDist t d).pool = x.pool) ∧
      (Sendable specServePoolInfo c s → p = [] → goesTo (exec (.servePoolInfo c) s) fun t =>
        repliesAdd s t c.fn [okReply c 0x0706 (pack 32 [(32, freeCols q), (32, q.columns), (64, q.drops), (64, q.deferrals)])] ∧
        (getDist t d).pool = x.pool)) ∧
    (x.pool.isSome = true → Sendable specServeRun c s → p.length = 32 → zeroAt p [(63, 48), (255, 192)] = true → serveArgsOk x p = true →
      x.state = 2 → x.loop = none → (retainBlocks s).1 = false → s.pwr.state ≠ 2 → vecFree s d (fld p 23 16) = true →
      goesTo (exec (.serveRun c) s) fun t =>
        repliesAdd s t c.fn [acceptedReply c 0x0710] ∧ (getDist t d).state = 3 ∧ (getDist t d).pool = x.pool ∧
        (getDist t d).loop.map (fun l => (l.handle, l.log2n, l.ringBase, l.consAddr, l.phase, l.produce, l.stop)) =
          some (fld p 15 0, fld p 31 24, fld p 127 64, fld p 191 128, 0, 0, false)) ∧
    (∀ l, x.pool.isSome = true → x.loop = some l → Sendable specServeStop c s → p = [] →
      ((l.phase = 3 ∨ (l.phase = 0 ∧ l.part ≠ 0)) → x.state ∈ [3, 4, 5] → goesTo (exec (.serveStop c) s) fun t =>
        repliesAdd s t c.fn [okReply c 0x0711 []] ∧ (getDist t d).loop = some { l with stop := true } ∧ (getDist t d).state = x.state) ∧
      (l.phase ≠ 3 → l.part = 0 → x.state = 3 → x.pause = none → (getFn s l.pend.req.fn).epoch = l.pend.epoch → goesTo (exec (.serveStop c) s) fun t =>
        okReply c 0x0711 [] ∈ (getFn t c.fn).replies ∧ doneReply l.pend 0 0 (pack 8 [(8, 0)]) ∈ (getFn t l.pend.req.fn).replies ∧
        (getDist t d).loop = none ∧ (getDist t d).state = loadedState x ∧ (getDist t d).pool = x.pool))

/-- The serving loop (R356, R362–R364, R375, R376): a boundary runs its phases in order, up to the phase it is commanded to, and always
ends with a step for exactly the PREFILL and ACTIVE slots or, with none, a wait; a leaving slot is released, a join that fits is admitted, one that does not is deferred; a sequence that
starts a page takes a column, then its reserve, and pauses with neither; a step starts when the token ring has room for its records;
after it each decoding slot is one token longer and sends a token record, and a void slot sends none.
Commands shown to complete (exec = .next t for some t, under conditions on state and operands alone): serveBoundary, serveStepStart,
serveStepComplete. -/
def Obligations.ServingStepsRun : Prop :=
  ∀ (d : Nat) (l : Loop) (q : Pool) (s : State), let x := getDist s d
    x.loop = some l → x.pool = some q → x.state = 3 → x.run = none → x.pause = none → l.stop = false →
    (∀ k, l.phase = 0 → 1 ≤ k → k ≤ 3 → l.part ≤ k → goesTo (exec (.serveBoundary d k) s) fun t =>
      (getDist t d).loop.map (fun m => (m.phase, m.part, m.produce)) = some (0, k, l.produce) ∧ (getDist t d).pool.isSome = true ∧
      (getDist t d).state = 3 ∧ (getDist t d).run = none) ∧
    (l.phase = 0 → l.part = 0 →
      (goesTo (exec (.serveBoundary d 0) s) fun t => ∃ r, (getDist t d).pool = some r ∧
        (getDist t d).loop.map (fun m => (m.phase, m.part)) = some (if stepSlots r = [] then 1 else 2, 0) ∧ (getDist t d).state = 3 ∧ (getDist t d).run = none ∧
        ∀ e ∈ r.seqs, (e.2.inStep = true ↔ e.2.state = 2 ∨ e.2.state = 3) ∧ (e.2.state = 3 → e.2.new = 1) ∧ e.2.new ≤ max 1 r.window) ∧
      (∀ i y, q.seqs = [(i, y)] → y.edits = [] → y.state = 6 → goesTo (exec (.serveBoundary d 0) s) fun t => ∃ r, (getDist t d).pool = some r ∧
        getSeq r i = { gen := nextGen y } ∧ (∀ c, c ∈ r.used ↔ c ∈ q.used ∧ c ∉ colsOf q y ∧ c ∉ q.back) ∧
        (⟨s.now, cpSource s d, 0x1C5, 0, d, [i, y.tag, y.len, 0]⟩ : EventRec) ∈ t.emitted) ∧
      (∀ i y w, q.seqs = [(i, y)] → y.edits = [] → y.state = 1 → y.ends = 0 → q.back = [] → y.pend = some w → (getFn s w.req.fn).epoch = w.epoch →
        (joinCols y ≤ freeCols q → goesTo (exec (.serveBoundary d 0) s) fun t => ∃ r, (getDist t d).pool = some r ∧
          (getSeq r i).state = 2 ∧ (getSeq r i).len = 0 ∧ (getSeq r i).new = min q.window y.goal ∧ (getSeq r i).inStep = true ∧
          (getSeq r i).table.length = cdiv y.goal 16 ∧ (getSeq r i).spare.isSome = true ∧ freeCols r + joinCols y = freeCols q ∧
          doneReply w 0 0 (leBytes 8 1) ∈ (getFn t w.req.fn).replies ∧
          (⟨s.now, cpSource s d, 0x1C0, 0, d, [i, y.tag, joinCols y, 0]⟩ : EventRec) ∈ t.emitted) ∧
        (freeCols q < joinCols y → goesTo (exec (.serveBoundary d 0) s) fun t => ∃ r, (getDist t d).pool = some r ∧
          (getSeq r i).state = 1 ∧ (getSeq r i).deferred = true ∧ r.used = q.used ∧ r.deferrals = q.deferrals + 1 ∧
          (y.deferred = false → (⟨s.now, cpSource s d, 0x1C1, 1, d, [i, joinCols y, freeCols q]⟩ : EventRec) ∈ t.emitted))) ∧
      (∀ i y, q.seqs = [(i, y)] → y.edits = [] → y.state = 3 → y.ends = 0 → q.back = [] → startsPage y = true → y.resUsed = false →
        (0 < freeCols q → goesTo (exec (.serveBoundary d 0) s) fun t => ∃ r, (getDist t d).pool = some r ∧
          (getSeq r i).state = 3 ∧ (getSeq r i).inStep = true ∧ thas (getSeq r i).table (y.len / 16) = true ∧
          freeCols r + 1 = freeCols q ∧ (getSeq r i).spare = y.spare ∧ (getSeq r i).gen = nextGen y) ∧
        (∀ c, freeCols q = 0 → q.noDrop = true → y.spare = some c → goesTo (exec (.serveBoundary d 0) s) fun t => ∃ r, (getDist t d).pool = some r ∧
          (getSeq r i).state = 3 ∧ (getSeq r i).resUsed = true ∧ (tfind (getSeq r i).table (y.len / 16)).map (·.page) = some (c * q.layers) ∧
          (⟨s.now, cpSource s d, 0x1C4, 0, d, [i, y.len / 16]⟩ : EventRec) ∈ t.emitted)) ∧
      (∀ i y, q.seqs = [(i, y)] → y.edits = [] → y.state = 3 → y.ends = 0 → q.back = [] → startsPage y = true → y.resUsed = true → freeCols q = 0 →
        (q.noDrop = true → y.noPage = false → goesTo (exec (.serveBoundary d 0) s) fun t => ∃ r, (getDist t d).pool = some r ∧
          (getSeq r i).state = 4 ∧ (getSeq r i).inStep = false ∧ (getSeq r i).table = y.table ∧
          (⟨s.now, cpSource s d, 0x1C3, 1, d, [i, y.len]⟩ : EventRec) ∈ t.emitted) ∧
        (q.noDrop = false → 0 < q.slots → goesTo (exec (.serveBoundary d 0) s) fun t => ∃ r, (getDist t d).pool = some r ∧
          (getSeq r i).state = 5 ∧ (getSeq r i).table = [] ∧ (getSeq r i).len = y.len ∧ r.drops = q.drops + 1 ∧
          (⟨s.now, cpSource s d, 0x1C2, 1, d, [i, (colsOf q y).length, 1]⟩ : EventRec) ∈ t.emitted))) ∧
    (∀ cons : BitVec 64, l.phase = 2 → s.pcie.linkUp = true →
      ((stepSlots q).length ≤ ringRoom l cons.toNat → thas x.progs l.handle = true → goesTo (exec (.serveStepStart d cons) s) fun t =>
        (getDist t d).loop = some { l with phase := 3, cons := cons.toNat, heldLogged := false } ∧ (getDist t d).bstep = (x.bstep + 1) % 2 ^ 64 ∧
        (getDist t d).run.map (fun r => (r.handle, r.by_, r.tStart)) = some (l.handle, .serve, time s) ∧ (getDist t d).pool = x.pool ∧
        t.emitted = s.emitted) ∧
      (ringRoom l cons.toNat < (stepSlots q).length → l.heldLogged = false → goesTo (exec (.serveStepStart d cons) s) fun t =>
        (getDist t d).loop = some { l with cons := cons.toNat, heldLogged := true } ∧ (getDist t d).run = none ∧ (getDist t d).bstep = x.bstep ∧
        logs s t [(cpSource s d, 0x1E3, 1, d, [(stepSlots q).length, ringRoom l cons.toNat])])) ∧
    (∀ i y e, l.phase = 3 → s.pcie.linkUp = true → q.seqs = [(i, y)] → y.edits = [] → y.inStep = true → tfind x.segs q.batchSeg = some e →
      (let rec_ := segRead s e (q.batchOff + 64 * i + 24) 8
       y.state = 3 → y.void = false → goesTo (exec (.serveStepComplete d) s) fun t => ∃ r, (getDist t d).pool = some r ∧
        (getSeq r i).len = y.len + y.new ∧ (getSeq r i).inStep = false ∧
        (getSeq r i).ends = (if bit rec_ 32 then 1 else if q.maxPages * 16 ≤ y.len + y.new then 2 else 0) ∧
        (getDist t d).loop = some { l with phase := 0, produce := (l.produce + 1) % 2 ^ 64 } ∧
        (.tokenWrite d (l.produce % 2 ^ l.log2n) (BitVec.ofNat 64 (l.ringBase + 16 * (l.produce % 2 ^ l.log2n)))
          (tokenRecord (getSeq r i) (fld rec_ 31 0) (y.len + y.new) (l.produce / 2 ^ l.log2n % 2 == 0)) : Out) ∈ t.out) ∧
      (y.void = true → goesTo (exec (.serveStepComplete d) s) fun t => ∃ r, (getDist t d).pool = some r ∧
        (getSeq r i).len = y.len ∧ (getSeq r i).inStep = false ∧ (getSeq r i).void = false ∧ t.out = s.out ∧
        (getDist t d).loop = some { l with phase := 0 } ∧ logs s t [(cpSource s d, 0x1C6, 1, d, [i, x.bstep, y.gen])]))

/-! ## The media engine (R384–R400) -/

/-- The MEDIA_ commands complete (R386–R388, R399, R400): START gives an IDLE pipe its job and a frame store in board memory; EXTEND
raises IN_LEN and the pipe runs on; STOP leaves it STOPPING with END 1; PIPE_INFO reports the job record so far.
Frames, tokens and a job's end (R386, R390–R392, R394, R396–R399): an undamaged frame is written whole at its place and counts
one; a damaged one counts its causes and is logged; input short of a frame without END leaves the pipe WAITING; a frame past OUT_LEN
is not written and ends the job with OUT_FULL; a whole group of frames becomes its patch rows; an encoded frame within the cap is
appended, its references, windows and vectors kept; with RC 1 (R395) the encoding is the first of the indexes QI, QI + 32, … up to 255 that keeps
the buffer from underflowing, else the bounded fallback frame, which is logged, and padding follows where the buffer would overflow; R393: a vector as used keeps its block inside the window of 256 x 128 samples
about the superblock, one that already does is used as it is, and sliding a window is loading it anew; a job that is over posts its
record and leaves the pipe IDLE. How many references stay is the model's choice (log entry 171).
Commands shown to complete (exec = .next t for some t, under conditions on state and operands alone): mediaJobStart, mediaJobExtend,
mediaJobStop, mediaPipeInfo, mediaFrameDecode, tokenGroupConvert, mediaFrameEncode, mediaJobEnd. -/
def Obligations.MediaRequestsComplete : Prop :=
  (∀ (c : FwReq) (s : State), let p := c.payload; let d := cmdDist c; let x := getDist s d
     let k := pipeKey (bit p 4) (fld p 3 0); let q := getPipe s k
     pipePresent s (bit p 4) (fld p 3 0) = true → x.state ∈ [1, 2, 3, 5, 6] →
     (Sendable specMediaStart c s → p.length = 120 → zeroAt p (mediaRsvd (bit p 4)) = true → mediaOk s x p = true → q.state = 0 →
       (retainBlocks s).1 = false → s.pwr.state ≠ 2 → fits (wakeLoop s d) 2 s.lpSites (storeBytes p) = true → vecFree s d (fld p 31 24) = true →
       goesTo (exec (.mediaJobStart c) s) fun t => let r := getPipe t k
         repliesAdd s t c.fn [acceptedReply c 0x0800] ∧ r.state = (if fld p 191 128 = 0 ∧ bit p 8 = false then 2 else 1) ∧ r.dist = d ∧
         r.job = p ∧ r.inLen = fld p 191 128 ∧ r.isEnd = bit p 8 ∧ r.frames = 0 ∧ r.ending = none ∧
         (getBack t r.storeBid).size = storeBytes p ∧ (getBack t r.storeBid).tier = 2 ∧ (getDist t d).state = x.state ∧
         ∀ j, j ≠ k → getPipe t j = getPipe s j) ∧
     (q.dist = d → q.state ∈ [1, 2] →
       (Sendable specMediaExtend c s → p.length = 16 → zeroAt p [(7, 5), (63, 9)] = true → q.inLen ≤ fld p 127 64 →
         mediaRange x (fld q.job 39 32) (fld q.job 127 64)
           (fld p 127 64 * (if bit p 4 then slotBytes (jobW q.job) (jobH q.job) (bit q.job 352) else 1)) false = true →
         goesTo (exec (.mediaJobExtend c) s) fun t =>
           repliesAdd s t c.fn [okReply c 0x0801 []] ∧
           getPipe t k = { q with inLen := fld p 127 64, isEnd := bit p 8, state := if q.inPos < fld p 127 64 ∨ bit p 8 = true then 1 else q.state }) ∧
       (Sendable specMediaStop c s → p.length = 8 → zeroAt p [(63, 5)] = true → q.ending = none → goesTo (exec (.mediaJobStop c) s) fun t =>
         repliesAdd s t c.fn [okReply c 0x0802 []] ∧ getPipe t k = { q with state := 3, ending := some 1 })) ∧
     (Sendable specMediaInfo c s → p.length = 8 → zeroAt p [(63, 5)] = true → goesTo (exec (.mediaPipeInfo c) s) fun t =>
       repliesAdd s t c.fn [okReply c 0x0803 (pack 8 [(8, q.state), (8, if q.state = 0 then 0 else q.dist)] ++ jobRecord q (q.ending.getD 0))] ∧
       t.pipes = s.pipes)) ∧
  (∀ (pipe : Nat) (s : State),
     (∀ f : DecodedFrame, pipe < 4 →
       let q := getPipe s pipe; let x := getDist s q.dist; let slot := slotBytes (jobW q.job) (jobH q.job) f.ten; let n := q.frames
       q.state ∈ [1, 2] → q.ending = none → groupFull q = false → q.inPos < q.inLen →
       (q.inLen - q.inPos < f.inBytes → q.isEnd = false → goesTo (exec (.mediaFrameDecode pipe f) s) fun t =>
         getPipe t pipe = { q with state := 2 } ∧ t.backs = s.backs ∧ t.emitted = s.emitted) ∧
       (f.inBytes ≤ q.inLen - q.inPos → bit q.job 5 = true → fld q.job 319 256 < (n + 1) * slot → goesTo (exec (.mediaFrameDecode pipe f) s) fun t =>
         getPipe t pipe = { q with ending := some 2, state := 3 } ∧ t.backs = s.backs) ∧
       (∀ a b, f.inBytes ≤ q.inLen - q.inPos → bit q.job 5 = true → (n + 1) * slot ≤ fld q.job 319 256 → tfind x.segs (fld q.job 39 32) = some a →
         tfind x.segs (fld q.job 47 40) = some b → b.tier ≠ 3 → memWf (getBack s b.bid).data = true →
         segPoison s a (fld q.job 127 64 + q.inPos) f.inBytes = [] → f.width ≤ jobW q.job → f.height ≤ jobH q.job →
         (f.damaged = [] → f.causes = 0 → f.refs.any q.conc.contains = false → goesTo (exec (.mediaFrameDecode pipe f) s) fun t =>
           segRead t b (fld q.job 255 192 + n * slot) slot = slice f.planes 0 slot ∧ (getPipe t pipe).frames = n + 1 ∧
           (getPipe t pipe).inPos = q.inPos + f.inBytes ∧ (getPipe t pipe).damaged = q.damaged ∧ (getPipe t pipe).outBytes = q.outBytes + slot ∧
           (getPipe t pipe).concealed = q.concealed ∧ t.emitted = s.emitted) ∧
         (f.damaged = [] → f.causes = 64 → f.refs.any q.conc.contains = false → goesTo (exec (.mediaFrameDecode pipe f) s) fun t =>
           segRead t b (fld q.job 255 192 + n * slot) slot = slice (greyFrame (jobW q.job) (jobH q.job) f.ten) 0 slot ∧
           (getPipe t pipe).damaged = q.damaged + 1 ∧ logs s t [(0x890 + pipe, 0x200, 1, q.dist, [pipe, n, 64, 0])]) ∧
         (∀ sb, f.damaged = [(sb, 0)] → f.causes = 0 → f.refs.any q.conc.contains = false → goesTo (exec (.mediaFrameDecode pipe f) s) fun t =>
           (getPipe t pipe).damaged = q.damaged + 1 ∧ (getPipe t pipe).concealed = q.concealed + 1 ∧ n ∈ (getPipe t pipe).conc ∧
           logs s t [(0x890 + pipe, 0x200, 1, q.dist, [pipe, n, 1, 1])]))) ∧
     (∀ e, pipe < 4 →
       let q := getPipe s pipe
       q.state ≠ 0 → groupFull q = true → bit q.job 10 = false → tfind (getDist s q.dist).segs (fld q.job 55 48) = some e → e.tier ≠ 3 →
       memWf (getBack s e.bid).data = true → q.tokRows = q.groups * patchCount q.job → goesTo (exec (.tokenGroupConvert pipe) s) fun t =>
         (getPipe t pipe).tokRows = (q.groups + 1) * patchCount q.job ∧ (getPipe t pipe).groups = q.groups + 1 ∧ (getPipe t pipe).group = [] ∧
         (patchCount q.job = 1 → segRead t e (fld q.job 959 896 + q.groups % max 1 (fld q.job 863 832) * tokPitch q.job) (tokPitch q.job) =
           (patchRow pipe q.job q.groups q.group 0).1)) ∧
     (∀ (f : EncodedFrame) e, pipe < 2 →
       let q := getPipe s (8 + pipe)
       q.state ∈ [1, 2] → q.ending = none → q.inPos < q.inLen → fld q.job 361 360 = 0 → tfind (getDist s q.dist).segs (fld q.job 47 40) = some e →
       e.tier ≠ 3 → memWf (getBack s e.bid).data = true → q.outBytes + (encodeCap q f (freshNat s).1).1.length ≤ fld q.job 319 256 →
       goesTo (exec (.mediaFrameEncode pipe f) s) fun t => let r := encodeCap q f (freshNat s).1
         segRead t e (fld q.job 255 192 + q.outBytes) r.1.length = r.1 ∧ (getPipe t (8 + pipe)).frames = q.frames + 1 ∧
         (getPipe t (8 + pipe)).outBytes = q.outBytes + r.1.length ∧ (getPipe t (8 + pipe)).inPos = q.inPos + 1 ∧
         (getPipe t (8 + pipe)).reenc = q.reenc + b2n r.2.1 ∧ (getPipe t (8 + pipe)).capOver = q.capOver + b2n r.2.2 ∧
         (getPipe t (8 + pipe)).refs = refsAfter q f false ∧ (getPipe t (8 + pipe)).windows = (motionAfter q f false).1 ∧
         (getPipe t (8 + pipe)).vectors = (motionAfter q f false).2) ∧
     (∀ (f : EncodedFrame) e, pipe < 2 →
       let q := getPipe s (8 + pipe); let n := fld q.job 447 432; let room := q.bufFull / n; let r := encodeBuf q f room
       let fill := q.bufFull - bitsLen r.1 * n + fld q.job 415 384 * 1000 * fld q.job 463 448; let full := fld q.job 511 480 * n
       let out := r.1 ++ (if full < fill then f.padding else [])
       q.state ∈ [1, 2] → q.ending = none → q.inPos < q.inLen → fld q.job 361 360 = 1 → n ≠ 0 →
       tfind (getDist s q.dist).segs (fld q.job 47 40) = some e → e.tier ≠ 3 → memWf (getBack s e.bid).data = true →
       q.outBytes + out.length ≤ fld q.job 319 256 → goesTo (exec (.mediaFrameEncode pipe f) s) fun t =>
         segRead t e (fld q.job 255 192 + q.outBytes) out.length = out ∧ (getPipe t (8 + pipe)).frames = q.frames + 1 ∧
         (getPipe t (8 + pipe)).outBytes = q.outBytes + out.length ∧ (getPipe t (8 + pipe)).bufFull = min full fill ∧
         (getPipe t (8 + pipe)).reenc = q.reenc + b2n r.2.1 ∧ (getPipe t (8 + pipe)).fallback = q.fallback + b2n r.2.2 ∧
         (getPipe t (8 + pipe)).capOver = q.capOver ∧ (getPipe t (8 + pipe)).refs = refsAfter q f r.2.2 ∧
         (if r.2.2 then logs s t [(0x894 + pipe, 0x202, 1, q.dist, [pipe, q.frames, room / 8])] else t.emitted = s.emitted)) ∧
     (∀ (q : Pipe) (f : EncodedFrame) (room : Nat), let qi := fld q.job 375 368; let r := encodeBuf q f room
       let at_ : Nat → Bytes := fun i => tget [] f.attempts (min (qi + 32 * i) 255)
       (∀ i, bitsLen (at_ i) ≤ room → (∀ j < i, room < bitsLen (at_ j)) → r.1 = at_ i ∧ r.2.1 = decide (0 < i) ∧ r.2.2 = false) ∧
       ((∀ i, room < bitsLen (at_ i)) → r.2.2 = true ∧ r.1 <+: f.fallback ∧
         r.1.length ≤ (if q.frames = 0 ∨ (fld q.job 479 464 ≠ 0 ∧ q.frames % fld q.job 479 464 = 0) then
           1024 + jobW q.job * jobH q.job / 32 else 16 + 2 * (cdiv (jobW q.job) 64 * cdiv (jobH q.job) 64)))) ∧
     (∀ m : MotionBlock, m.x % 64 + m.w ≤ 64 → m.y % 64 + m.h ≤ 64 →
       let sx : Int := (m.x / 64 * 64 : Nat); let sy : Int := (m.y / 64 * 64 : Nat)
       let inside (v : Int × Int) : Prop := 4 * (sx - 96) ≤ 4 * (m.x : Int) + v.1 ∧ 4 * ((m.x : Int) + m.w) + v.1 ≤ 4 * (sx + 160) ∧
         4 * (sy - 32) ≤ 4 * (m.y : Int) + v.2 ∧ 4 * ((m.y : Int) + m.h) + v.2 ≤ 4 * (sy + 96)
       inside (useMv m) ∧ (inside (m.mx, m.my) → useMv m = (m.mx, m.my))) ∧
     (∀ (f : MFrame) (w h sx sy : Nat), slideWindow f w h (loadWindow f w h sx sy) = loadWindow f w h (sx + 64) sy ∧
       (loadWindow f w h sx sy).cols.length = 256 ∧ ∀ col ∈ (loadWindow f w h sx sy).cols, col.length = 128) ∧
     (∀ (enc : Bool) (e : Nat) (w : Pend), pipe < 8 →
       let k := pipeKey enc pipe; let q := getPipe s k
       q.state ≠ 0 → jobOver q = some e → q.pend = some w → (getFn s w.req.fn).epoch = w.epoch → goesTo (exec (.mediaJobEnd enc pipe) s) fun t =>
         let r := { q with dropped := q.dropped + b2n (q.group != []) }
         doneReply w 0 0 (jobRecord r e) ∈ (getFn t w.req.fn).replies ∧ getPipe t k = {} ∧ thas t.backs q.storeBid = false ∧
         logs s t [(if k < 8 then 0x890 + k else 0x894 + (k - 8), 0x201, 0, q.dist, [k % 8, e, q.frames, q.damaged])]))

/-! ## Snapshots, restore and fill (R405–R416) -/

/-- The SNAP_ commands complete in a training district with flash and keys (R405, R406, R410, R412, R416): POLICY is kept and the
interval starts; TAKE leaves a host request; INFO reports the engine and the four regions; RESTORE is ACCEPTED with the region that holds
SEQ; FILL is ACCEPTED and asks the holder for extent 0; FILL_INFO reports the bitmap; SERVE starts and stops serving.
Commands shown to complete (exec = .next t for some t, under conditions on state and operands alone): snapPolicy, snapTake,
snapInfo, snapRestore, snapFill, snapFillInfo, snapServe. -/
def Obligations.SnapshotCommandsComplete : Prop :=
  ∀ (c : FwReq) (s : State), let p := c.payload; let d := cmdDist c; let x := getDist s d; let n := x.snap
    flashPresent s = true → s.sec.keys = true → x.serving = false → x.loop = none → x.state ∈ [1, 2, 3, 5, 6] →
    (Sendable specSnapPolicy c s → p.length = 48 → zeroAt p [(239, 237), (247, 246), (383, 320)] = true → policyOk s d (policyOf p) = true →
      n.code = 0 → goesTo (exec (.snapPolicy c) s) fun t => repliesAdd s t c.fn [okReply c 0x0900 []] ∧
        (getDist t d).snap = { n with policy := some (policyOf p), lastAt := time s }) ∧
    (Sendable specSnapTake c s → p = [] → goesTo (exec (.snapTake c) s) fun t => repliesAdd s t c.fn [okReply c 0x0901 []] ∧
      (getDist t d).snap = { n with asked := n.asked ||| 4 }) ∧
    (Sendable specSnapInfo c s → p = [] → goesTo (exec (.snapInfo c) s) fun t =>
      repliesAdd s t c.fn [okReply c 0x0902 (pack 64 ((64, n.code) ::
        ((n.policy.map fun q => (List.range 4).flatMap (regionInfo s q)).getD [])))] ∧ (getDist t d).snap = n) ∧
    (∀ q, n.policy = some q → Sendable specSnapRestore c s → p.length = 32 → zeroAt p [(71, 66), (127, 80), (255, 192)] = true →
      restoreOk s x p = true → x.state ≠ 3 → n.code = 0 → x.gate.code ∈ [0, 5] → goesTo (exec (.snapRestore c) s) fun t =>
        repliesAdd s t c.fn [acceptedReply c 0x0903] ∧ (getDist t d).snap.code = 4 ∧ (getDist t d).gate = x.gate ∧
        ∃ r, (getDist t d).snap.restore = some r ∧ r.mirror = bit p 64 ∧ r.verify = bit p 65 ∧ r.remap = remapTable s x p ∧
          headValid (regionHead s q r.region) = true ∧ fld (regionHead s q r.region) 127 64 = fld p 63 0) ∧
    (∀ q j, n.policy = some q → x.gate.job = some j → fld p 76 64 < j.members.length → Sendable specSnapFill c s → p.length = 16 →
      zeroAt p [(127, 79)] = true → n.code = 0 → n.fill = none → goesTo (exec (.snapFill c) s) fun t =>
        repliesAdd s t c.fn [acceptedReply c 0x0904] ∧ (getDist t d).snap.code = 5 ∧
        (getDist t d).snap.fill = some { pend := [pendOf s c 0x0904], seq := fld p 63 0, src := fld p 76 64, verify := bit p 78 } ∧
        ∀ y port, getGroup s q.group = some y → routePort s q.group (j.members.getD (fld p 76 64) ⟨0, none⟩).id y.links = some port →
          ∃ w, tget [] (getPort t port).queue q.group = tget [] (getPort s port).queue q.group ++ [w] ∧
            w.flits.map (·.f.payload) = (flitsOf q.group 0 0 false false (sysBytes q.group 5 [fld p 63 0, 0] [])).map (·.f.payload)) ∧
    (Sendable specSnapFillInfo c s → p = [] → goesTo (exec (.snapFillInfo c) s) fun t =>
      (n.fill = none → repliesAdd s t c.fn [okReply c 0x0905 (zeros 16)]) ∧
      (∀ f, n.fill = some f → repliesAdd s t c.fn [okReply c 0x0905 (pack 16 [(32, f.have_.length), (32, fillTotal f), (64, f.seq)])])) ∧
    (∀ q, n.policy = some q → Sendable specSnapServe c s → p.length = 16 → zeroAt p [(127, 65)] = true → n.code ∈ [0, 6] →
      (bit p 64 = false → (findRegion s q true (fld p 63 0)).isSome = true → goesTo (exec (.snapServe c) s) fun t =>
        repliesAdd s t c.fn [okReply c 0x0906 []] ∧ (getDist t d).snap = { n with code := 6, serving := some (fld p 63 0) }) ∧
      (bit p 64 = true → goesTo (exec (.snapServe c) s) fun t =>
        repliesAdd s t c.fn [okReply c 0x0906 []] ∧ (getDist t d).snap = { n with code := 0, serving := none }))

/-- A snapshot's events (R407–R409, R412), with keys and the volume there: a clean capture fills the buffer, invalidates its own region and goes on to writing; a
poisoned one fails; an own region is closed by its header; a mirror's extents are kept and its header comes last; a restore
whose extents the engine has read and whose digest agrees sets step and cursor, one whose digest differs ends with INTERNAL_FAULT; a holder answers a request with the
extent; a spare asks again for a damaged extent, writes an intact one into its segment, and ends the fill once it has every one.
Commands shown to complete (exec = .next t for some t, under conditions on state and operands alone): snapCaptureDone,
snapRegionWriteDone, snapMirrorReceive, snapRestoreDone, fillRequestReceive, fillExtentReceive. -/
def Obligations.SnapshotsAreWrittenAndRead : Prop :=
  ∀ (d : Nat) (p : Policy) (j : Job) (s : State), let x := getDist s d; let n := x.snap
    let told (t : State) (pos kind : Nat) (args : List Nat) (data : Bytes) : Prop :=
      ∀ y port, getGroup s p.group = some y → routePort s p.group (j.members.getD pos ⟨0, none⟩).id y.links = some port →
        ∃ w, tget [] (getPort t port).queue p.group = tget [] (getPort s port).queue p.group ++ [w] ∧
          w.flits.map (·.f.payload) = (flitsOf p.group 0 0 false false (sysBytes p.group kind args data)).map (·.f.payload)
    n.policy = some p → x.gate.job = some j → s.sec.keys = true → thas s.flash.vols p.volume = true →
    (∀ c, n.code = 1 → n.cap = some c → x.gate.updWait = false →
      ((∃ e ∈ shardSegs x, segPoison s e.2 0 e.2.size ≠ []) → goesTo (exec (.snapCaptureDone d) s) fun t =>
        (getDist t d).snap.code = 0 ∧ (getDist t d).snap.cap = none ∧ t.flash = s.flash ∧ t.backs = s.backs ∧
        logs s t [(cpSource s d, 0x244, 2, d, [c.seq, Config.causeCode 0x244 0])]) ∧
      (∀ k e b, shardSegs x = [(k, e)] → segPoison s e 0 e.size = [] → 1 + metaExt j + extentsOf e.size ≤ p.regionExt → s.flash.readOnly = false →
        tfind x.segs p.bufSeg = some b → b.tier ≠ 3 → memWf (getBack s b.bid).data = true → goesTo (exec (.snapCaptureDone d) s) fun t =>
          (getDist t d).snap.code = 2 ∧ segRead t b p.bufOff e.size = segRead s e 0 e.size ∧ regionHead t p (ownRegion n) = zeros 65536 ∧
          (getDist t d).snap.cap.map (fun c => (c.seq, c.ownDone, c.bytes)) = some (c.seq, c.ownDone, e.size) ∧ t.emitted = s.emitted)) ∧
    (∀ c, n.code = 2 → n.cap = some c → c.ownDone = false → s.flash.readOnly = false →
      (c.mirDone = false → goesTo (exec (.snapRegionWriteDone d false) s) fun t => let k := c.check.getD (0, 0)
        regionHead t p (ownRegion n) = slice (withCheck c.head k.1 k.2 false) 0 65536 ∧ (getDist t d).snap.nextOwn = !n.nextOwn ∧
        (getDist t d).snap.cap = some { c with ownDone := true } ∧ (getDist t d).snap.code = 2 ∧ t.emitted = s.emitted) ∧
      (∀ k l, c.mirDone = true → c.check = some (k, l) → goesTo (exec (.snapRegionWriteDone d false) s) fun t =>
        (getDist t d).snap.code = 0 ∧ (getDist t d).snap.cap = none ∧ logs s t [(cpSource s d, 0x243, 0, d, [c.seq, k, c.bytes])])) ∧
    (∀ ext data, s.flash.readOnly = false →
      (goesTo (exec (.snapMirrorReceive d 0 data false) s) fun t =>
        regionHead t p (mirRegion n) = zeros 65536 ∧ (getDist t d).snap.mirHead = some data ∧ (getDist t d).snap.cap = n.cap) ∧
      (0 < ext → ext < p.regionExt → goesTo (exec (.snapMirrorReceive d ext data true) s) fun t =>
        regionExtent t p (mirRegion n) ext = slice data 0 65536 ∧ (getDist t d).snap.mirAll = true ∧ (getDist t d).snap.mirHead = n.mirHead)) ∧
    (∀ h, n.mirHead = some h → n.mirAll = true → n.cap = none → goesTo (exec (.snapRegionWriteDone d true) s) fun t =>
      regionHead t p (mirRegion n) = slice (withCheck h 0 0 true) 0 65536 ∧ (getDist t d).snap.nextMir = !n.nextMir ∧
      (getDist t d).snap.mirHead = none ∧ (getDist t d).snap.code = n.code) ∧
    (∀ r, n.code = 4 → n.restore = some r → restoreRead s p r = true → (getFn s r.pend.req.fn).epoch = r.pend.epoch →
      let h := regionHead s p r.region; let agree := slice (digestOf h (regionExtent s p r.region)) 0 64 = slice h 96 64
      (agree → goesTo (exec (.snapRestoreDone d) s) fun t =>
        (getDist t d).snap.code = 0 ∧ (getDist t d).gate.step = fld h 191 128 ∧ (getDist t d).gate.cursor = fld h 255 192 ∧
        (getDist t d).gate.code = 0 ∧ doneReply r.pend 0 0 [] ∈ (getFn t r.pend.req.fn).replies ∧ t.emitted = s.emitted ∧
        (∀ e g, headDir h = [e] → tfind x.segs (remapTo r.remap e.1) = some g → g.tier ≠ 3 → memWf (getBack s g.bid).data = true →
          segRead t g 0 e.2.2.2.1 =
            slice ((List.range (extentsOf e.2.2.2.1)).flatMap fun i => regionExtent s p r.region (e.2.2.2.2 + i)) 0 e.2.2.2.1)) ∧
      (¬ agree → goesTo (exec (.snapRestoreDone d) s) fun t =>
        (getDist t d).snap.code = 0 ∧ (getDist t d).gate = x.gate ∧ t.backs = s.backs ∧ doneReply r.pend 0x40 0 [] ∈ (getFn t r.pend.req.fn).replies ∧
        (⟨s.now, cpSource s d, 0x244, 2, d, [fld h 127 64, Config.causeCode 0x244 4]⟩ : EventRec) ∈ t.emitted)) ∧
    (∀ seq ext r, n.code = 6 → n.serving = some seq → findRegion s p true seq = some r → goesTo (exec (.fillRequestReceive d ext) s) fun t =>
      let b := regionExtent s p r ext
      told t (fld (regionHead s p r) 300 288) 6 [seq, ext, crc32c b] b ∧ t.dists = s.dists) ∧
    (∀ f ext data, n.code = 5 → n.fill = some f →
      (goesTo (exec (.fillExtentReceive d ext data false) s) fun t =>
        (getDist t d).snap.fill = some { f with resent := f.resent + 1 } ∧ t.backs = s.backs ∧
        told t f.src 5 [f.seq, ext] []) ∧
      (∀ h k off len e, f.head = some h → fld h 511 480 < ext → ext < fillTotal f → extentHome h ext = some (k, off, len) → tfind x.segs k = some e →
        e.tier ≠ 3 → memWf (getBack s e.bid).data = true →
        ((nsAdd f.have_ ext).length < fillTotal f → goesTo (exec (.fillExtentReceive d ext data true) s) fun t =>
          segRead t e off len = slice data 0 len ∧ (getDist t d).snap.fill = some { f with have_ := nsAdd f.have_ ext } ∧
          (getDist t d).snap.code = 5 ∧ t.emitted = s.emitted) ∧
        (fillTotal f ≤ (nsAdd f.have_ ext).length → goesTo (exec (.fillExtentReceive d ext data true) s) fun t =>
          segRead t e off len = slice data 0 len ∧ (getDist t d).snap.code = 0 ∧
          ((⟨s.now, cpSource s d, 0x246, 0, d, [f.seq, j.myPos, fillTotal f]⟩ : EventRec) ∈ t.emitted ∧
            (getDist t d).gate.step = fld h 191 128 ∧ (getDist t d).gate.cursor = fld h 255 192 ∨
           (⟨s.now, cpSource s d, 0x247, 2, d, [f.seq, 2]⟩ : EventRec) ∈ t.emitted ∧ (getDist t d).gate = x.gate))))

/-! ## Health and package-fatal causes (R402–R404) -/

/-- The health monitor's second (R403, R404): the level is min(7, the sum of the four inputs' points over the window); a change is
posted and logged with the points; a rise to the threshold while armed is posted and logged too and disarms, until the level has
stayed below the threshold for 60 s; a posted advisory stays until it is read; no district changes; less than a second after the
last time, nothing happens.
Commands shown to complete (exec = .next t for some t, under conditions on state and operands alone): healthRecompute. -/
def Obligations.RiskLevelIsRecomputed : Prop :=
  ∀ (n : Nat) (s : State), let h := pruneHealth (time s) s.health; let pts := riskPoints h n; let lvl := min 7 pts.sum; let old := s.health.level
    let thr := s.pwr.riskThreshold
    s.pins.aonRst = false →
    ((∀ u, s.health.lastAt = some u → u + 1000000000 ≤ time s) → goesTo (exec (.healthRecompute n) s) fun t =>
      t.health.level = lvl ∧ t.health.lastAt = some (time s) ∧ t.dists = s.dists ∧ t.fns = s.fns ∧
      (∃ a b c e, pts = [a, b, c, e] ∧ a ≤ 3 ∧ b ≤ 3 ∧ c ≤ 3 ∧ e ≤ 3) ∧
      (lvl = old → t.emitted = s.emitted ∧ t.adv = s.adv) ∧
      (lvl ≠ old → (tget {} t.adv 1).value = lvl ∧ (tget {} t.adv 1).unread = true ∧
        (⟨s.now, 0x8A1, 0x240, 0, 0xFF, [old, lvl] ++ pts⟩ : EventRec) ∈ t.emitted) ∧
      (s.health.armed = true → old < thr → thr ≤ lvl → t.health.armed = false ∧ (tget {} t.adv 4).unread = true ∧
        (⟨s.now, 0x8A1, 0x241, 1, 0xFF, [lvl, thr]⟩ : EventRec) ∈ t.emitted) ∧
      ((lvl ≤ old ∨ thr ≤ old ∨ lvl < thr) → s.health.armed = true → t.health.armed = true ∧ (tget {} t.adv 4) = (tget {} s.adv 4)) ∧
      (s.health.armed = false → (∀ u, s.health.belowSince = some u → time s < u + 60000000000) → t.health.armed = false ∧ (tget {} t.adv 4) = (tget {} s.adv 4)) ∧
      (∀ u, s.health.belowSince = some u → u + 60000000000 ≤ time s → lvl < thr → t.health.armed = true) ∧
      (lvl < thr → s.health.belowSince = none → t.health.belowSince = some (time s)) ∧ (thr ≤ lvl → t.health.belowSince = none) ∧
      ((tget {} s.adv 4).unread = true → tget {} t.adv 4 = tget {} s.adv 4)) ∧
    (∀ u, s.health.lastAt = some u → time s < u + 1000000000 → exec (.healthRecompute n) s = .next s)

/-- A package-fatal cause (R402): with a command processor alive PACKAGE_FATAL is logged and posted, every district that exists
becomes FAULTED and every port DISABLED; a watchdog that expires on the last one posts cause 6 and nobody acts; 100 µs without
acknowledgement stop the clocks and drive CMP_EN low; in reset, or once a cause holds, a further cause does nothing.
Commands shown to complete (exec = .next t for some t, under conditions on state and operands alone): fwWatchdogExpiry,
fatalAckTimeout, bridgeLinkLoss, timebaseReplicaLockFailure, railOutOfRangeExpiry, pwrGoodFall. -/
def Obligations.PackageFatalStopsThePackage : Prop :=
  ∀ (s : State),
    (s.pins.aonRst = false → s.pins.sysRst = false → s.health.fatal = none → liveCps s ≠ [] → (s.dists.map (·.1)).Nodup →
      ∀ e ∈ [(Instr.bridgeLinkLoss, 4), (Instr.timebaseReplicaLockFailure, 5), (Instr.pwrGoodFall, 2), (Instr.railOutOfRangeExpiry 0, 2)],
        goesTo (exec e.1 s) fun t =>
          t.health.fatal = some e.2 ∧ t.health.fatalAck = true ∧
          (⟨s.now, 0x885, 0x248, 3, 0xFF, [e.2]⟩ : EventRec) ∈ t.emitted ∧ (tget {} t.adv 5).value = (tget {} (postAdvisory s 5 e.2).adv 5).value ∧
          (∀ d, (getDist s d).state ∈ [1, 2, 3, 4, 5, 6] → (getDist t d).state = 6) ∧ ∀ p < 24, (getPort t p).state = 0) ∧
    (∀ c < 4, voxubRuns s = true →
      (∀ k < 4, k ≠ c → k ∉ s.health.wdog → goesTo (exec (.fwWatchdogExpiry c) s) fun t =>
        t = { s with health := { s.health with wdog := nsAdd s.health.wdog c } }) ∧
      ((∀ k < 4, k ≠ c → k ∈ s.health.wdog) → s.pins.aonRst = false → s.health.fatal = none → goesTo (exec (.fwWatchdogExpiry c) s) fun t =>
        t.health.fatal = some 6 ∧ t.health.fatalAck = false ∧ t.dists = s.dists ∧ logs s t [(0x885, 0x248, 3, 0xFF, [6])])) ∧
    (∀ k, s.health.fatal = some k → s.health.fatalAck = false →
      (s.health.fatalAt + 100000 ≤ time s → goesTo (exec .fatalAckTimeout s) fun t =>
        t = { s with pwr := { s.pwr with clocksStopped := true, cmpEn := false } } ∧ voxubRuns t = false ∧ romServes t = false) ∧
      (time s < s.health.fatalAt + 100000 → exec .fatalAckTimeout s = .next s)) ∧
    (s.health.fatal.isSome = true ∨ s.pins.aonRst = true ∨ s.pins.sysRst = true →
      exec .bridgeLinkLoss s = .next s ∧ exec .timebaseReplicaLockFailure s = .next s ∧ ∀ r, exec (.railOutOfRangeExpiry r) s = .next s)

/-! ## Security and debug (R417–R438) -/

/-- The SEC_ commands complete (R418–R420, R423, R427–R429, R444): an update is staged, written over what was staged, and ends by queueing
the slot write, or DENIED when a check of R427 fails; the slot then holds the bundle; ROLLBACK_ADVANCE raises counters 0 and 1 to the running
bundle's; OWNER_SET writes the record and raises counter 2, or is DENIED; the lifecycle moves one state forward, to RETURN only with its
token and after zeroising; STORE_WRITE stages and, with FINAL, queues the record, which then wins its type; INFO reports.
Commands shown to complete (exec = .next t for some t, under conditions on state and operands alone): secUpdateBegin, secUpdateData,
secUpdateEnd, updateSlotWriteDone, secRollbackAdvance, secOwnerSet, secLifecycle, lifecycleReturnDone, secStoreWrite,
storeWriteDone, secInfo. -/
def Obligations.SecurityCommandsComplete : Prop :=
  ∀ (c : FwReq) (s : State), let p := c.payload
    (Sendable specSecUpdateBegin c s → p.length = 8 → zeroAt p [(63, 32)] = true → fld p 31 0 ≤ bundleMax → goesTo (exec (.secUpdateBegin c) s) fun t =>
      repliesAdd s t c.fn [okReply c 0x0A00 []] ∧ t.sec = { s.sec with update := some { len := fld p 31 0 } }) ∧
    (∀ g, s.sec.update = some g → memWf g.data = true → Sendable specSecUpdateData c s → dataFormOk p = true →
      (dataChecks p (some g)).all (fun e => !e.1) = true → goesTo (exec (.secUpdateData c) s) fun t =>
        repliesAdd s t c.fn [okReply c 0x0A01 []] ∧ ∃ h, t.sec = { s.sec with update := some h } ∧ h.len = g.len ∧
        memRead h.data (fld p 31 0) (p.length - 8) = p.drop 8 ∧
        ∀ a, a < fld p 31 0 ∨ fld p 31 0 + (p.length - 8) ≤ a → memGet h.data a = memGet g.data a) ∧
    (∀ g, s.sec.update = some g → Sendable specSecUpdateEnd c s → p = [] →
      (updateOk s g = true → goesTo (exec (.secUpdateEnd c) s) fun t =>
        repliesAdd s t c.fn [acceptedReply c 0x0A02] ∧ t.nvm = s.nvm ∧
        t.sec = { s.sec with update := none, slotWrites := s.sec.slotWrites ++ [(pendOf s c 0x0A02, updateSlot s, g.data)] }) ∧
      (updateOk s g = false → goesTo (exec (.secUpdateEnd c) s) fun t =>
        repliesAdd s t c.fn [errReply c 0x0A02 denied] ∧ t.sec = s.sec ∧ t.nvm = s.nvm)) ∧
    (∀ w i m l, s.sec.slotWrites = (w, i, m) :: l → i < 2 → (getFn s w.req.fn).epoch = w.epoch → goesTo (exec .updateSlotWriteDone s) fun t =>
      slotMem t.nvm i = m ∧ slotMem t.nvm (1 - i) = slotMem s.nvm (1 - i) ∧ t.sec = { s.sec with slotWrites := l } ∧
      repliesAdd s t w.req.fn [doneReply w 0 0 (pack 8 [(1, i)])]) ∧
    (∀ r, s.sec.running = some r → s.sec.counters.length = 8 → Sendable specSecRollback c s → p = [] → goesTo (exec (.secRollbackAdvance c) s) fun t =>
      t.sec.counters = (s.sec.counters.set 0 (max (s.sec.counters.getD 0 0) r.svn)).set 1 (max (s.sec.counters.getD 1 0) r.keyIndex) ∧
      repliesAdd s t c.fn [okReply c 0x0A03 (counterBytes t)] ∧
      (t.sec.counters = s.sec.counters → t.emitted = s.emitted ∧ t.nvm = s.nvm) ∧
      (t.sec.counters ≠ s.sec.counters → logs s t [(0x886, 0x287, 0, 0xFF, [t.sec.counters.getD 0 0, t.sec.counters.getD 1 0])])) ∧
    (Sendable specSecOwner c s → p.length = 280 → zeroAt p [(1119, 1090)] = true →
      (ownerPermitted s p = true → s.sec.counters.length = 8 → goesTo (exec (.secOwnerSet c) s) fun t =>
        repliesAdd s t c.fn [okReply c 0x0A04 []] ∧ t.sec.owner = (if fld p 1151 1120 < s.sec.counters.getD 2 0 then s.sec.owner else some (ownerAsked p)) ∧
        t.sec.counters.getD 2 0 = max (s.sec.counters.getD 2 0) (fld p 1151 1120) ∧
        ⟨stOwner, ownerPayload (ownerAsked p), none⟩ ∈ t.nvm.writes) ∧
      (ownerPermitted s p = false → goesTo (exec (.secOwnerSet c) s) fun t =>
        repliesAdd s t c.fn [errReply c 0x0A04 denied] ∧ t.sec.owner = s.sec.owner ∧ t.sec.counters = s.sec.counters ∧ t.nvm = s.nvm ∧
        (s.sec.lifecycle = lcField → t.sec.nonce = none))) ∧
    (Sendable specSecLifecycle c s → lifecycleForm p = true → lifecycleTargetOk s (fld p 1 0) = true → dbgLevel s < 2 →
      s.sec.zeroising = none → s.sec.returning = none → s.pwr.state ≠ 2 → retainEntering s = false →
      (fld p 1 0 ≠ 3 → goesTo (exec (.secLifecycle c) s) fun t =>
        repliesAdd s t c.fn [okReply c 0x0A05 []] ∧ t.sec.lifecycle = s.sec.lifecycle + 1 ∧ t.sec.keys = keysIn (s.sec.lifecycle + 1) s.sec.scanned ∧
        logs s t [(0x886, 0x282, 1, 0xFF, [s.sec.lifecycle, s.sec.lifecycle + 1])] ∧ t.dists = s.dists) ∧
      (fld p 1 0 = 3 → tokenFail s (p.drop 8) 1 0 = none → (s.dists.map (·.1)).Nodup → goesTo (exec (.secLifecycle c) s) fun t =>
        t.sec.keys = false ∧ t.sec.nonce = none ∧ t.sec.lifecycle = s.sec.lifecycle ∧ t.sec.zeroising = some (some (pendOf s c 0x0A05), .toReturn) ∧
        ∀ d, (getDist t d).state = 0) ∧
      (∀ n, fld p 1 0 = 3 → tokenFail s (p.drop 8) 1 0 = some n → goesTo (exec (.secLifecycle c) s) fun t =>
        repliesAdd s t c.fn [errReply c 0x0A05 denied] ∧ t.sec = { s.sec with nonce := none } ∧ logs s t [(0x886, 0x284, 1, 0xFF, [n])] ∧
        t.dists = s.dists)) ∧
    (∀ w, s.sec.returning = some w → s.nvm.writes = [] → (getFn s w.req.fn).epoch = w.epoch → goesTo (exec .lifecycleReturnDone s) fun t =>
      t.sec.lifecycle = 3 ∧ t.sec.keys = false ∧ t.sec.owner = none ∧ t.sec.returning = none ∧ t.flash.vols = [] ∧
      storeRead t.nvm stOwner 0 = none ∧ repliesAdd s t w.req.fn [doneReply w 0 0 []] ∧ logs s t [(0x886, 0x282, 1, 0xFF, [2, 3])]) ∧
    (let typ := fld p 7 0
     Sendable specSecStore c s → 8 ≤ p.length → p.length ≤ 456 → zeroAt p [(31, 9)] = true → slotSize typ ≠ 0 → storeTypeOk s typ = true →
      32 + fld p 63 32 + (p.length - 8) ≤ slotSize typ → (bit p 8 = true → typ = stBoard → boardOk (storeRecord s p) = true) →
      ((bit p 8 = false ∨ typ = stIdentity) → goesTo (exec (.secStoreWrite c) s) fun t =>
        repliesAdd s t c.fn [okReply c 0x0A06 []] ∧ tfind t.sec.staged typ = some (stageStore s p) ∧ t.nvm = s.nvm) ∧
      (bit p 8 = true → typ ≠ stIdentity → goesTo (exec (.secStoreWrite c) s) fun t =>
        repliesAdd s t c.fn [okReply c 0x0A06 []] ∧ tfind t.sec.staged typ = none ∧
        t.nvm = { s.nvm with writes := s.nvm.writes ++ [⟨typ, storeRecord s p, none⟩] })) ∧
    (∀ w ws, s.nvm.writes = w :: ws → s.pins.aonRst = false → w.typ ∉ [stIdentity, stCounters, stOwner] → goesTo (exec .storeWriteDone s) fun t =>
      storeRead t.nvm w.typ 0 = some w.payload ∧ t.nvm.writes = ws ∧ (∀ k, k ≠ w.typ → storeRead t.nvm k 0 = storeRead s.nvm k 0) ∧
      t.sec = s.sec) ∧
    (Sendable specSecInfo c s → p = [] → goesTo (exec (.secInfo c) s) fun t => ∃ b,
      repliesAdd s t c.fn [okReply c 0x0A07 b] ∧ fld b 1 0 = s.sec.lifecycle % 4 ∧ fld b 3 2 = dbgLevel s % 4 ∧ fld b 5 4 = s.pwr.state % 4 ∧
      fld b 6 6 = b2n s.sec.keys ∧ fld b 10 8 = s.sec.boot % 8 ∧ fld b 127 96 = s.sec.boots.toNat ∧ t.sec = s.sec)

/-- The DBG_ commands and sessions complete (R433–R437): a NONCE is issued and replaces any other; OPEN without a token, or with one that passes,
takes the level, appends a history entry and logs DEBUG_LEVEL, and from PROVISIONED or FIELD to SCAN it first zeroises; a failing token is
DENIED, logged, and uses the nonce up; CLOSE and expiry end at CLOSED; ACCESS reads and writes local SRAM and segments, halts, steps and
resumes; INFO reports the session.
Commands shown to complete (exec = .next t for some t, under conditions on state and operands alone): dbgNonce, dbgOpen, dbgClose,
dbgAccess, dbgInfo, zeroiseDone, nonceExpiry, debugSessionExpiry. -/
def Obligations.DebugCommandsComplete : Prop :=
  ∀ (c : FwReq) (s : State), let p := c.payload; let l := fld p 1 0; let a := accessOf p
    (Sendable specDbgNonce c s → p = [] → goesTo (exec (.dbgNonce c) s) fun t =>
      t.sec.nonce = some (Config.nonce s.freeCtr, time s + 60000000000) ∧ repliesAdd s t c.fn [okReply c 0x0C00 (nonceBytes t)] ∧
      t.sec.session = s.sec.session ∧ t.dists = s.dists) ∧
    (Sendable specDbgOpen c s → openForm s p = true → (openChecks s p).all (fun e => !e.1) = true →
      (openToken s p = none → openTwoStage s p = false → l ≠ 3 → goesTo (exec (.dbgOpen c) s) fun t =>
        dbgLevel t = l ∧ okReply c 0x0C01 [] ∈ (getFn t c.fn).replies ∧ t.sec.session = some (openedBy s p false) ∧
        t.sec.history.getLast? = some ⟨s.sec.boots.toNat, l, false, (openedBy s p false).signer, s.sec.lifecycle, 0⟩ ∧
        logs s t [(0x886, 0x283, 1, 0xFF, [dbgLevel s, l, 0, (openedBy s p false).signer, 0])] ∧ t.dists = s.dists ∧
        (needsToken s.sec.lifecycle l = true → t.sec.nonce = none)) ∧
      (openToken s p = none → openTwoStage s p = true → (s.dists.map (·.1)).Nodup → goesTo (exec (.dbgOpen c) s) fun t =>
        t.sec.keys = false ∧ t.sec.nonce = none ∧ t.sec.zeroising = some (some (pendOf s c 0x0C01), .scan (openedBy s p false)) ∧
        t.sec.session = s.sec.session ∧ (∀ d, (getDist t d).state = 0) ∧ ∀ q < 24, (getPort t q).state = 0) ∧
      (∀ n, openToken s p = some n → goesTo (exec (.dbgOpen c) s) fun t =>
        repliesAdd s t c.fn [errReply c 0x0C01 denied] ∧ t.sec = { s.sec with nonce := none } ∧ logs s t [(0x886, 0x284, 1, 0xFF, [n])])) ∧
    (∀ x, s.sec.session = some x → x.level ≠ 0 → Sendable specDbgClose c s → p = [] → goesTo (exec (.dbgClose c) s) fun t =>
      dbgLevel t = 0 ∧ t.sec.session = none ∧ repliesAdd s t c.fn [okReply c 0x0C02 []] ∧
      logs s t [(0x886, 0x283, 1, 0xFF, [x.level, 0, b2n x.jtag, x.signer, 1])]) ∧
    (Sendable specDbgAccess c s → accessForm p = true → (accessChecks s a).all (fun e => !e.1) = true → s.pwr.state = 0 →
      (a.op = 0 → a.space = 1 → goesTo (exec (.dbgAccess c) s) fun t =>
        repliesAdd s t c.fn [okReply c 0x0C03 (memRead (getCore s a.dist a.core).sram a.addr a.len)] ∧ t.dists = s.dists) ∧
      (∀ k e, a.op = 0 → a.space = 3 → segAt s a.dist a.addr = some (k, e) → goesTo (exec (.dbgAccess c) s) fun t =>
        repliesAdd s t c.fn [okReply c 0x0C03 (segRead s e (a.addr - e.dbase) a.len)] ∧ t.backs = s.backs) ∧
      (a.op = 1 → a.space = 1 → memWf (getCore s a.dist a.core).sram = true → goesTo (exec (.dbgAccess c) s) fun t =>
        repliesAdd s t c.fn [okReply c 0x0C03 []] ∧ memRead (getCore t a.dist a.core).sram a.addr a.len = p.drop 24) ∧
      (∀ k e, a.op = 1 → a.space = 3 → segAt s a.dist a.addr = some (k, e) → e.tier ≠ 3 → memWf (getBack s e.bid).data = true →
        goesTo (exec (.dbgAccess c) s) fun t =>
          repliesAdd s t c.fn [okReply c 0x0C03 []] ∧ segRead t e (a.addr - e.dbase) a.len = p.drop 24) ∧
      (a.op = 2 → goesTo (exec (.dbgAccess c) s) fun t => repliesAdd s t c.fn [okReply c 0x0C03 []] ∧
        getDist t a.dist = { getDist s a.dist with dbgHalt := true, dbgSteps := 0 }) ∧
      (a.op = 3 → goesTo (exec (.dbgAccess c) s) fun t => repliesAdd s t c.fn [okReply c 0x0C03 []] ∧
        getDist t a.dist = { getDist s a.dist with dbgHalt := false, dbgSteps := 0 }) ∧
      (a.op = 4 → (getDist s a.dist).dbgHalt = true → goesTo (exec (.dbgAccess c) s) fun t => repliesAdd s t c.fn [okReply c 0x0C03 []] ∧
        getDist t a.dist = { getDist s a.dist with dbgSteps := (getDist s a.dist).dbgSteps + 1 })) ∧
    (Sendable specDbgInfo c s → p = [] → goesTo (exec (.dbgInfo c) s) fun t => ∃ b,
      repliesAdd s t c.fn [okReply c 0x0C04 b] ∧ fld b 1 0 = dbgLevel s % 4 ∧ fld b 5 5 = b2n s.sec.keys ∧
      fld b 127 64 = ((s.sec.session.bind (·.expires)).getD 0) % 2 ^ 64 ∧ t.sec = s.sec) ∧
    (∀ w x us, s.sec.zeroising = some (some w, .scan x) → w.req.fn = 0 → (getFn s 0).epoch = w.epoch → x.level = 3 → (s.dists.map (·.1)).Nodup →
      goesTo (exec (.zeroiseDone us) s) fun t =>
        dbgLevel t = 3 ∧ t.sec.keys = false ∧ t.sec.zeroising = none ∧ t.backs = [] ∧ (∀ d, (getDist t d).state = 0) ∧
        (⟨s.now, 0x886, 0x285, 1, 0xFF, [us]⟩ : EventRec) ∈ t.emitted ∧ doneReply w 0 0 [] ∈ (getFn t w.req.fn).replies) ∧
    (∀ w us, s.sec.zeroising = some (w, .toReturn) → goesTo (exec (.zeroiseDone us) s) fun t =>
      t.sec.returning = w ∧ t.sec.zeroising = none ∧ t.backs = [] ∧ t.sec.lifecycle = s.sec.lifecycle ∧
      (⟨s.now, 0x886, 0x285, 1, 0xFF, [us]⟩ : EventRec) ∈ t.emitted) ∧
    (∀ n u, s.sec.nonce = some (n, u) →
      (u ≤ time s → goesTo (exec .nonceExpiry s) fun t => t = { s with sec := { s.sec with nonce := none } }) ∧
      (time s < u → exec .nonceExpiry s = .next s)) ∧
    (∀ x u, s.sec.session = some x → x.level ≠ 0 → x.expires = some u → s.pins.sysRst = false →
      (u ≤ time s → goesTo (exec .debugSessionExpiry s) fun t =>
        dbgLevel t = 0 ∧ logs s t [(0x886, 0x283, 1, 0xFF, [x.level, 0, b2n x.jtag, x.signer, 2])]) ∧
      (time s < u → exec .debugSessionExpiry s = .next s))

/-! ## Power, clocks and heat (R439–R443, R448, R451, R458–R460) -/

/-- The PWR_ commands and the power states' own events complete (R439–R441, R444): IDLE is entered at once and left on demand; RETAIN, with
nothing in the way, is ACCEPTED, disables the ports, lowers a session above OBSERVE and ends one that is over, and then leaves local SRAM and pairs reading as
zero; ACTIVE retrains the ports that were UP; OFF answers, waits 1 ms and ends every session; a blocker refuses RETAIN with its own kind and
state; CAP sets the cap and posts it; INFO reports.
Commands shown to complete (exec = .next t for some t, under conditions on state and operands alone): pwrState, pwrCap, pwrInfo,
retainEntryDone, retainExitDone, offWaitExpiry, autoIdleExpiry, idleExit. -/
def Obligations.PowerCommandsComplete : Prop :=
  ∀ (c : FwReq) (s : State), let p := c.payload; let g := fld p 1 0
    (Sendable specPwrState c s → p.length = 8 → zeroAt p [(7, 2), (31, 10)] = true → s.sec.zeroising = none → s.sec.returning = none →
      s.pwr.going = none → s.pwr.offAt = none →
      (g = 1 → bit p 9 = false → s.pwr.state = 0 → dbgLevel s ≠ 3 → goesTo (exec (.pwrState c) s) fun t =>
        repliesAdd s t c.fn [okReply c 0x0B00 []] ∧ t.pwr.state = 1 ∧ t.pwr.autoWake = bit p 8 ∧ t.pwr.idleUs = fld p 63 32 ∧
        logs s t [(0x885, 0x286, 0, 0xFF, [0, 1, 0])] ∧ t.dists = s.dists) ∧
      (g = 0 → bit p 9 = false → s.pwr.state = 1 → goesTo (exec (.pwrState c) s) fun t =>
        repliesAdd s t c.fn [okReply c 0x0B00 []] ∧ t.pwr.state = 0 ∧ logs s t [(0x885, 0x286, 0, 0xFF, [1, 0, 0])] ∧ t.dists = s.dists) ∧
      (g = 2 → bit p 9 = false → s.pwr.state ∈ [0, 1] → retainBlocker s = none → goesTo (exec (.pwrState c) s) fun t =>
        acceptedReply c 0x0B00 ∈ (getFn t c.fn).replies ∧ t.pwr.state = s.pwr.state ∧ t.pwr.going = some (2, some (pendOf s c 0x0B00)) ∧
        dbgLevel t = (if sessionOver s then 0 else min 1 (dbgLevel s)) ∧ (∀ q < 24, (getPort t q).state = 0) ∧
        ∀ q < 24, q ∈ t.pwr.retainPorts ↔ (getPort s q).state = 2) ∧
      (∀ e, g = 2 → bit p 9 = false → s.pwr.state ∈ [0, 1] → retainBlocker s = some e → goesTo (exec (.pwrState c) s) fun t =>
        repliesAdd s t c.fn [errReply c 0x0B00 e] ∧ t.pwr = s.pwr ∧ t.dists = s.dists) ∧
      (g = 0 → bit p 9 = false → s.pwr.state = 2 → goesTo (exec (.pwrState c) s) fun t =>
        repliesAdd s t c.fn [acceptedReply c 0x0B00] ∧ t.pwr.going = some (0, some (pendOf s c 0x0B00)) ∧ t.pwr.state = 2) ∧
      (g = 3 → (bit p 9 = true ∨ retainBlocker s = none) → (s.dists.map (·.1)).Nodup → goesTo (exec (.pwrState c) s) fun t =>
        doneReply (pendOf s c 0x0B00) 0 0 [] ∈ (getFn t c.fn).replies ∧
        t.pwr.offAt = some (time s + 1000000) ∧ t.pwr.state = s.pwr.state ∧ (bit p 9 = true → ∀ d, (getDist t d).state = 0))) ∧
    (Sendable specPwrCap c s → p.length = 8 → zeroAt p [(63, 16)] = true → 900 ≤ fld p 15 0 → fld p 15 0 ≤ 1800 → goesTo (exec (.pwrCap c) s) fun t =>
      repliesAdd s t c.fn [okReply c 0x0B01 []] ∧ t.pwr = { s.pwr with capW := fld p 15 0 } ∧ (tget {} t.adv 2).value = fld p 15 0 ∧
      (tget {} t.adv 2).unread = true) ∧
    (Sendable specPwrInfo c s → p = [] → goesTo (exec (.pwrInfo c) s) fun t => ∃ b, repliesAdd s t c.fn [okReply c 0x0B02 b] ∧
      fld b 1 0 = s.pwr.state % 4 ∧ fld b 63 32 = s.pwr.idleUs % 2 ^ 32 ∧ fld b 79 64 = s.pwr.capW % 65536 ∧
      fld b 111 96 = lowestMhz s.pwr % 65536 ∧ t.pwr = s.pwr) ∧
    (∀ w, s.pwr.going = some (2, some w) → (getFn s w.req.fn).epoch = w.epoch → goesTo (exec .retainEntryDone s) fun t =>
      t.pwr.state = 2 ∧ t.pwr.cmpEn = false ∧ t.pwr.going = none ∧ repliesAdd s t w.req.fn [doneReply w 0 0 []] ∧
      logs s t [(0x885, 0x286, 0, 0xFF, [s.pwr.state, 2, 0])] ∧
      (∀ d k, (getDist s d).state ≠ 5 → (getCore t d k).sram = [] ∧ (getCore t d k).pairs = []) ∧
      ∀ d, (getDist s d).state = 5 → getDist t d = getDist s d) ∧
    (∀ w, s.pwr.going = some (0, some w) → (getFn s w.req.fn).epoch = w.epoch → goesTo (exec .retainExitDone s) fun t =>
      t.pwr.state = 0 ∧ t.pwr.going = none ∧ t.pwr.cmpEn = true ∧ doneReply w 0 0 [] ∈ (getFn t w.req.fn).replies ∧ t.work = [] ∧ t.cyc = [] ∧
      (⟨s.now, 0x885, 0x286, 0, 0xFF, [2, 0, (time s - w.req.takenAt.toNat) / 1000]⟩ : EventRec) ∈ t.emitted) ∧
    (∀ u, s.pwr.offAt = some u →
      (u ≤ time s → goesTo (exec .offWaitExpiry s) fun t =>
        t.pwr.state = 3 ∧ t.pwr.pwrOffReq = true ∧ t.pwr.offAt = none ∧ dbgLevel t = 0 ∧ t.pcie.linkUp = false ∧
        (⟨s.now, 0x885, 0x286, 0, 0xFF, [s.pwr.state, 3, 0]⟩ : EventRec) ∈ t.emitted) ∧
      (time s < u → exec .offWaitExpiry s = .next s)) ∧
    (s.pins.sysRst = false → s.pwr.state = 0 → s.pwr.going = none → s.pwr.offAt = none → s.pwr.idleUs ≠ 0 →
      (dbgLevel s ≠ 3 → debugHalted s = false → s.pwr.lastIssue + 1000 * s.pwr.idleUs ≤ time s → goesTo (exec .autoIdleExpiry s) fun t =>
        t.pwr = { s.pwr with state := 1, waking := false } ∧ logs s t [(0x885, 0x286, 0, 0xFF, [0, 1, 0])]) ∧
      ((dbgLevel s = 3 ∨ debugHalted s = true ∨ time s < s.pwr.lastIssue + 1000 * s.pwr.idleUs) → exec .autoIdleExpiry s = .next s)) ∧
    (s.pwr.state = 1 → s.pwr.waking = true → goesTo (exec .idleExit s) fun t =>
      t.pwr = { s.pwr with state := 0, waking := false, lastIssue := time s } ∧
      ∃ us ≤ 25, logs s t [(0x885, 0x286, 0, 0xFF, [1, 0, us])])

/-- Clocks and heat (R20, R23, R448, R459, R460; the amount a clock falls and when it may rise again are the model's, log entry 41):
each quarter has its clock. PROCHOT_N holds all at 0.8 GHz; a mean above the cap plus 1 % lowers clocks and posts POWER_CAP; a current
near its limit lowers its die's; at 100 °C the clocks drop by 100 MHz each 50 µs, below 97 °C they rise by 100 MHz each 1 ms, the die's
voltage first and the clocks at the regulator's acknowledgement; no clock leaves 0.8 GHz to 2.0 GHz; the hottest junction is posted; at
115 °C the device trips and is package-fatal.
Commands shown to complete (exec = .next t for some t, under conditions on state and operands alone): prochotAssert,
prochotDeassert, powerCapWindow, railCurrentLimit, avsAck, thermalThrottleTick, thermalRaiseTick, thermalSensorSample. -/
def Obligations.ClocksFollowPowerAndHeat : Prop :=
  ∀ (s : State), s.pins.aonRst = false → (∀ q < 32, 800 ≤ quarterMhz s.pwr q) →
    (goesTo (exec .prochotAssert s) fun t => t.pwr.prochot = true ∧ (∀ q < 32, quarterMhz t.pwr q = 800 ∧ thas t.pwr.rise q = false) ∧
      t.pwr.mvE = 600 ∧ t.pwr.mvW = 600 ∧ t.dists = s.dists) ∧
    (goesTo (exec .prochotDeassert s) fun t => t.pwr.prochot = false ∧ t.pwr.mhz = s.pwr.mhz ∧
      (s.pwr.prochot = true → s.pwr.throttling = false → t.pwr.raising = true)) ∧
    (∀ w, goesTo (exec (.powerCapWindow w) s) fun t => t.pwr.meanW = w ∧ t.dists = s.dists ∧
      (101 * s.pwr.capW < 100 * w → (tget {} t.adv 2).value = s.pwr.capW ∧ (tget {} t.adv 2).unread = true ∧ t.pwr.raising = false ∧
        ∀ q < 32, (800 < quarterMhz s.pwr q → quarterMhz t.pwr q < quarterMhz s.pwr q) ∧ 800 ≤ quarterMhz t.pwr q) ∧
      (100 * w ≤ 101 * s.pwr.capW → t.pwr.mhz = s.pwr.mhz ∧ t.adv = s.adv)) ∧
    (∀ die < 2, goesTo (exec (.railCurrentLimit die) s) fun t => dieMv t die = voltFor (dieTop die (quarterMhz t.pwr)) ∧
      ∀ q < 32, (q / 16 = die → (800 < quarterMhz s.pwr q → quarterMhz t.pwr q < quarterMhz s.pwr q) ∧ 800 ≤ quarterMhz t.pwr q) ∧
        (q / 16 ≠ die → quarterMhz t.pwr q = quarterMhz s.pwr q)) ∧
    (∀ die < 2, goesTo (exec (.avsAck die) s) fun t => t.pwr.mvE = s.pwr.mvE ∧ t.pwr.mvW = s.pwr.mvW ∧
      ∀ q < 32, (q / 16 = die → thas t.pwr.rise q = false ∧
          quarterMhz t.pwr q = (if s.pwr.prochot = true then quarterMhz s.pwr q else tget (quarterMhz s.pwr q) s.pwr.rise q)) ∧
        (q / 16 ≠ die → quarterMhz t.pwr q = quarterMhz s.pwr q)) ∧
    (s.pwr.lastThrottle + 50000 ≤ time s → 100 ≤ hottestNow s.pwr → goesTo (exec .thermalThrottleTick s) fun t =>
      (∀ q < 32, quarterMhz t.pwr q = max 800 (quarterMhz s.pwr q - 100)) ∧ t.pwr.lastThrottle = time s ∧
      ∀ die < 2, dieMv t die = voltFor (dieTop die (quarterMhz t.pwr))) ∧
    (hottestNow s.pwr < 100 → exec .thermalThrottleTick s = .next s) ∧
    (s.pwr.raising = true → s.pwr.prochot = false → hottestNow s.pwr < 97 → s.pwr.lastThrottle + 1000000 ≤ time s →
      goesTo (exec .thermalRaiseTick s) fun t => t.pwr.lastThrottle = time s ∧ ∀ die < 2,
        let up : Nat → Nat := fun q => max (quarterMhz s.pwr q) (min 2000 (quarterMhz s.pwr q + 100))
        (voltFor (dieTop die up) ≤ dieMv s die → dieMv t die = dieMv s die ∧ ∀ q < 32, q / 16 = die → quarterMhz t.pwr q = up q) ∧
        (dieMv s die < voltFor (dieTop die up) → dieMv t die = voltFor (dieTop die up) ∧
          ∀ q < 32, q / 16 = die → quarterMhz t.pwr q = quarterMhz s.pwr q ∧ (quarterMhz s.pwr q < up q → tget 0 t.pwr.rise q = up q))) ∧
    (∀ e w h k : Int, goesTo (exec (.thermalSensorSample e w h k) s) fun t =>
      let m := max (max (max (clampTemp e) (clampTemp w)) (clampTemp h)) (clampTemp k)
      [t.pwr.tEast, t.pwr.tWest, t.pwr.tHub, t.pwr.tKeeper] = [clampTemp e, clampTemp w, clampTemp h, clampTemp k] ∧
      (100 ≤ m → t.pwr.throttling = true ∧ t.pwr.raising = false) ∧ (m < 97 → t.pwr.throttling = false) ∧
      (97 ≤ m → m < 100 → t.pwr.throttling = s.pwr.throttling) ∧
      (m < 115 → t.pwr.thermTrip = s.pwr.thermTrip ∧ t.health.fatal = s.health.fatal ∧
        (tget {} t.adv 3).value = twos 16 m ∧ (tget {} t.adv 3).margin = 100 - m ∧ (thas s.adv 3 = false → (tget {} t.adv 3).unread = true)) ∧
      (115 ≤ m → t.pwr.thermTrip = true ∧ t.pwr.pwrOffReq = true ∧ (s.health.fatal = none → s.pins.sysRst = false → t.health.fatal = some 1)))

/-! ## The test access port, resets and boot (R38, R424, R427, R438, R449–R454, R462) -/

/-- JTAG completes (R433, R438, R462): IDCODE, BYPASS and SAMPLE/PRELOAD in every state; the boundary instructions only while SYS_RST_N is
asserted; nonce, token and access as DBG_NONCE, DBG_OPEN and DBG_ACCESS act while the debug registers are up; a scan chain only at SCAN. None
of the pin instructions changes a district.
Commands shown to complete (exec = .next t for some t, under conditions on state and operands alone): jtagIdcode, jtagBypass,
jtagSamplePreload, jtagDbgNonce, jtagDbgToken, jtagDbgAccess, jtagScanChain, jtagExtest, jtagExtestPulse, jtagExtestTrain,
jtagClamp, jtagHighz. -/
def Obligations.JtagCompletes : Prop :=
  ∀ (s : State),
    (goesTo (exec .jtagIdcode s) fun t => t = { s with jtagMode := 0, out := .jtag 0x02 (leBytes 4 idcode) :: s.out } ∧ idcode % 2 = 1 ∧
      idcode / 2 ^ 12 % 2 ^ 16 = 0x3000 ∧ idcode / 2 ^ 28 = 1) ∧
    (∀ code, goesTo (exec (.jtagBypass code) s) fun t => t = { s with jtagMode := 0, out := .jtag code.toNat [0] :: s.out }) ∧
    (∀ l, goesTo (exec (.jtagSamplePreload (some l)) s) fun t => t.jtagCells = l ∧ t.jtagMode = 0 ∧ t.dists = s.dists ∧
      t.out = .jtag 0x01 (Config.jtagBits 0x01 s.freeCtr) :: s.out) ∧
    (s.pins.sysRst = true →
      (∀ e ∈ [(Instr.jtagExtest, 1, 0x00), (.jtagExtestPulse, 4, 0x05), (.jtagExtestTrain, 5, 0x06)], goesTo (exec e.1 s) fun t =>
        t.jtagMode = e.2.1 ∧ t.out = .jtag e.2.2 (Config.jtagBits e.2.2 s.freeCtr) :: s.out ∧ t.dists = s.dists ∧ t.sec = s.sec) ∧
      (∀ e ∈ [(Instr.jtagClamp, 2, 0x03), (.jtagHighz, 3, 0x04)], goesTo (exec e.1 s) fun t =>
        t = { s with jtagMode := e.2.1, out := .jtag e.2.2 [0] :: s.out })) ∧
    (s.pins.sysRst = false → ∀ i ∈ [Instr.jtagExtest, .jtagClamp, .jtagHighz, .jtagExtestPulse, .jtagExtestTrain], exec i s = .next s) ∧
    (jtagDebugUp s = true →
      (goesTo (exec .jtagDbgNonce s) fun t => t.sec.nonce = some (Config.nonce s.freeCtr, time s + 60000000000) ∧
        t.out = .jtag 0x10 (nonceBytes t) :: s.out ∧ t.sec.session = s.sec.session) ∧
      (∀ p, openForm s p = true → (openChecks s p).all (fun e => !e.1) = true →
        (openToken s p = none → openTwoStage s p = false → fld p 1 0 ≠ 3 → goesTo (exec (.jtagDbgToken p) s) fun t =>
          t.sec.session = some (openedBy s p true) ∧ t.out = .jtag 0x11 (jtagStatus jtagOk) :: s.out ∧
          logs s t [(0x886, 0x283, 1, 0xFF, [dbgLevel s, fld p 1 0, 1, (openedBy s p true).signer, 0])]) ∧
        (∀ n, openToken s p = some n → goesTo (exec (.jtagDbgToken p) s) fun t =>
          t.sec = { s.sec with nonce := none } ∧ t.out = .jtag 0x11 (jtagStatus denied) :: s.out ∧ logs s t [(0x886, 0x284, 1, 0xFF, [n])])) ∧
      (∀ p, accessForm p = true → (accessChecks s (accessOf p)).all (fun e => !e.1) = true → s.pwr.state = 0 →
        (accessOf p).op = 0 → (accessOf p).space = 1 → goesTo (exec (.jtagDbgAccess p) s) fun t =>
          t.out = .jtag 0x12 (jtagStatus jtagOk ++ memRead (getCore s (accessOf p).dist (accessOf p).core).sram (accessOf p).addr (accessOf p).len) :: s.out ∧
          t.dists = s.dists) ∧
      (∀ k < 16, dbgLevel s = 3 → goesTo (exec (.jtagScanChain k) s) fun t =>
        t.out = .jtag (0x20 + k) (Config.jtagBits (0x20 + k) s.freeCtr) :: s.out ∧ t.sec = s.sec ∧ t.dists = s.dists)) ∧
    (∀ k, dbgLevel s ≠ 3 → exec (.jtagScanChain k) s = .next s)

/-- The resets (R453, R454): SYS_RST_N leaves no district, segment, port state or session key and makes the index invalid, and keeps volumes and
the time-base; AON_RST_N also clears the advisories and the risk window; PERST_N resets the port and every function and keeps the districts; the
time-base starts at 0 when AON_RST_N rises, and a SYS_RST_N that rises before it waits for it. The store keeps its winning records except the
one a reset cuts.
Commands shown to complete (exec = .next t for some t, under conditions on state and operands alone): sysRstNAssert, aonRstNAssert,
aonRstNDeassert, sysRstNDeassert, perstNAssert, perstNDeassert. -/
def Obligations.ResetsClearTheirScope : Prop :=
  ∀ (s : State),
    (s.pins.sysRst = false → goesTo (exec .sysRstNAssert s) fun t =>
      t.pins.sysRst = true ∧ t.pins.sysPin = true ∧ t.indexOk = false ∧ t.dists = [] ∧ t.backs = [] ∧ t.groups = [] ∧ t.pipes = [] ∧ t.fns = [] ∧
      t.work = [] ∧ (∀ p, (getPort t p).state = 0) ∧ t.links.cfg = s.links.cfg ∧ t.now = s.now ∧ t.sec.keys = false ∧ t.sec.nonce = none ∧
      t.health.fatal = none ∧ t.health.level = s.health.level ∧ t.flash.blocks = s.flash.blocks ∧
      (∀ v e, tfind s.flash.vols v = some e → (s.flash.vols.map (·.1)).Nodup → e.creating = none → tfind t.flash.vols v = some e) ∧
      (∀ typ, (∀ w ∈ s.nvm.writes, w.typ ≠ typ) → storeRead t.nvm typ 0 = storeRead s.nvm typ 0)) ∧
    (s.pins.aonRst = false → goesTo (exec .aonRstNAssert s) fun t =>
      t.pins.aonRst = true ∧ t.adv = [] ∧ t.health = {} ∧ (s.pins.sysRst = false → t.dists = [] ∧ t.pins.sysRst = true) ∧
      t.pins.sysPin = s.pins.sysPin) ∧
    (s.pins.aonRst = true → s.pins.sysPin = true → goesTo (exec .aonRstNDeassert s) fun t =>
      t.pins.aonRst = false ∧ t.now = 0 ∧ t.pwr.cmpEn = true ∧ t.pins.sysRst = s.pins.sysRst ∧ t.sec = s.sec) ∧
    (∀ r, s.pins.aonRst = true → s.pins.sysPin = true → goesTo (exec (.sysRstNDeassert r) s) fun t =>
      t = { s with pins := { s.pins with sysPin := false }, training := some r }) ∧
    (s.pins.perst = false → goesTo (exec .perstNAssert s) fun t =>
      t.pins.perst = true ∧ t.pcie.linkUp = false ∧ t.pcie.vfs = 0 ∧ t.pcie.downCount = s.pcie.downCount ∧ t.dists = s.dists ∧ t.sec = s.sec ∧
      (∀ f, (getFn t f).inbox = [] ∧ (getFn t f).outbox = [] ∧ (getFn t f).replies = [] ∧ (getFn t f).ring.enabled = false) ∧
      t.backs = s.backs) ∧
    (goesTo (exec .perstNDeassert s) fun t => t = { s with pins := { s.pins with perst := false } })

/-- The boot (R38, R419, R424, R427, R435, R457): SYS_RST_N rising reads the store and begins verification, or halts on a bad identity, with keys only in
PROVISIONED and FIELD and the level CLOSED; memory training fits what it passes and completes the index; the preferred slot runs when it
passes R427, else the other does and the fallback is logged, else the ROM enters recovery.
Commands shown to complete (exec = .next t for some t, under conditions on state and operands alone): sysRstNDeassert,
indexBuildDone, bootVerifyDone. -/
def Obligations.BootFollowsTheChain : Prop :=
  ∀ (s : State),
    (∀ r : TrainingResult, s.pins.sysPin = true → s.pins.aonRst = false → r.stacksOk = true → goesTo (exec (.sysRstNDeassert r) s) fun t =>
      t.pins.sysRst = false ∧ t.pins.sysPin = false ∧ t.training = some r ∧ t.sec.boots = s.sec.boots + 1 ∧ t.pwr.state = 0 ∧ dbgLevel t = 0 ∧
      t.sec.lifecycle = bootLifecycle s.nvm ∧ t.sec.counters = bootCounters s.nvm ∧
      t.sec.boot = (if bootHalts s.nvm = true then 4 else if (bootSettings s.nvm s.pwr).bootHost = true then 2 else 1) ∧
      (t.sec.keys = true ↔ bootHalts s.nvm = false ∧ (bootLifecycle s.nvm = 1 ∨ bootLifecycle s.nvm = 2)) ∧
      (storeRead s.nvm stBoard 0 = none → t.board.lpFitted = 0 ∧ t.board.flFitted = 0 ∧ t.pwr.capW = 900) ∧
      (s.sec.session = none → s.pwr.state ≠ 3 → t.emitted = s.emitted)) ∧
    (∀ r, s.training = some r → s.pins.sysRst = false → s.indexOk = false → s.sec.boot ≠ 4 → s.health.fatal = none →
      goesTo (exec .indexBuildDone s) fun t => t.indexOk = true ∧ t.training = none ∧ t.index = buildIndex (trainMemory r s) ∧
        t.dists = s.dists ∧ t.sec = s.sec) ∧
    (s.indexOk = true → exec .indexBuildDone s = .next s) ∧
    (∀ a b, slotOrder s.nvm = [a, b] → s.pins.sysRst = false → s.sec.boot = 1 → s.indexOk = true → s.health.fatal = none →
      (bundleFail s.sec (slotMem s.nvm a) = none → goesTo (exec .bootVerifyDone s) fun t => let r := runningOf a (slotMem s.nvm a)
        t.sec = { s.sec with boot := 3, running := some r } ∧ logs s t [(0x886, 0x280, 0, 0xFF, [a, r.svn, r.release])]) ∧
      (∀ k, bundleFail s.sec (slotMem s.nvm a) = some k → bundleFail s.sec (slotMem s.nvm b) = none → goesTo (exec .bootVerifyDone s) fun t =>
        let r := runningOf b (slotMem s.nvm b)
        t.sec = { s.sec with boot := 3, running := some r } ∧
        logs s t [(0x886, 0x281, 1, 0xFF, [a, k]), (0x886, 0x280, 0, 0xFF, [b, r.svn, r.release])]) ∧
      (∀ k l, bundleFail s.sec (slotMem s.nvm a) = some k → bundleFail s.sec (slotMem s.nvm b) = some l → goesTo (exec .bootVerifyDone s) fun t =>
        t = { s with sec := { s.sec with boot := 2 } } ∧ romServes t = (s.pwr.state != 3 && !s.pwr.clocksStopped)))

/-! ## Rules of the written formats and records -/

/-- Non-finite and zero values (R115, R120, R121): written to a wide format an infinity keeps its sign and a NaN is the canonical one, and either
counts one non-finite input; a narrow block that holds one is written with the NaN scale and zero bits and counts each; a block of zeros of
either sign is written with scale 0x00 and zero bits, each of its elements counts as a zero, and it reads as +0. -/
def Obligations.NonFiniteAndZeroValuesAreWritten : Prop :=
  ∀ (x : Nat) (modeF stoch : Bool) (draw : Nat → Nat) (xs : List Nat),
    (∀ fmt ∈ [1, 2, 3],
      (f32 x = .nan → drainWide fmt x = (if fmt = 1 then 0x7FC00000 else if fmt = 2 then 0x7FC0 else 0x7E00, { nonfin := 1, elems := 1 })) ∧
      ∀ neg, f32 x = .inf neg → decodeElem fmt (drainWide fmt x).1 = .inf neg ∧ (drainWide fmt x).2 = { nonfin := 1, elems := 1 }) ∧
    (∀ fmt, fmtNarrow fmt = true →
      ((∃ y ∈ xs, fvNonfin (f32 y) = true) → drainBlock fmt modeF stoch draw xs =
        (List.replicate xs.length 0, if modeF then 0x7F else 0xFF, { nonfin := (xs.filter fun y => fvNonfin (f32 y)).length, elems := xs.length })) ∧
      ((∀ y ∈ xs, fvIsZero (f32 y) = true) → drainBlock fmt modeF stoch draw xs = (List.replicate xs.length 0, 0, { zeros := xs.length, elems := xs.length })) ∧
      ∀ e, fvIsZero (scaledValue fmt modeF 0 e) = true ∧ fvSign (scaledValue fmt modeF 0 e) = false)

/-- Without a BOARD record (R457) the device boots with no LPDDR site, flash channel or port, 400 A, 900 W and a common clock.
Commands shown to complete (exec = .next t for some t, under conditions on state and operands alone): sysRstNDeassert. -/
def Obligations.AbsentBoardRecordGivesTheDefaults : Prop :=
  ∀ (r : TrainingResult) (s : State), s.pins.sysPin = true → s.pins.aonRst = false → r.stacksOk = true → storeRead s.nvm stBoard 0 = none →
    goesTo (exec (.sysRstNDeassert r) s) fun t =>
      t.board.lpFitted = 0 ∧ t.board.flFitted = 0 ∧ t.board.linkWired = 0 ∧ t.board.iccA = 400 ∧ t.board.capW = 900 ∧ t.pwr.capW = 900 ∧
      t.board.pcieClk = 0 ∧ fittedSites t.board = [] ∧ fittedChannels t = [] ∧ (∀ p, portPresent t p = false) ∧
      passingSites t.board r = []

/-- The OWNER record (R429): key, REQUIRE in bit 1088, VENDOR_DEBUG in bit 1089 and GEN in [1151:1120]; one whose GEN is below counter 2 is absent;
REQUIRE refuses a bundle without a verified owner signature; in FIELD a vendor-signed token passes its fifth check only with VENDOR_DEBUG. -/
def Obligations.OwnerRecordIsRead : Prop :=
  ∀ (o : Owner) (g : Nat), o.key.length = 136 → o.gen < 2 ^ 32 →
    (let p := ownerPayload o
     slice p 0 136 = o.key ∧ bit p 1088 = o.require ∧ bit p 1089 = o.vendorDebug ∧ fld p 1151 1120 = o.gen ∧
     (o.gen < g → ownerOf g (some p) = none) ∧ (g ≤ o.gen → ownerOf g (some p) = some o)) ∧
    (∀ (sec : Sec) (m : Mem), sec.owner = some o → o.require = true →
      (fld (memRead m 0 8) 42 42 = 0 ∨ Config.ecdsaOk o.key (Config.sha512 (memRead m 0 (bundleLen m - 136))) (memRead m (bundleLen m - 136) 136) = false) →
      (bundleFail sec m).isSome = true) ∧
    (∀ (s : State) (t : Bytes) (purpose level : Nat), s.sec.owner = some o → s.sec.lifecycle = lcField → fld t 42 42 = 0 →
      (tokenChecks s t purpose level)[4]? = some o.vendorDebug)

/-! ## The queue and the whole machine -/

/-- A step takes the command at the front of the queue and runs it with the rest waiting; the word interface spells no command; with
nothing waiting one nanosecond passes (the model's choice, log entry 3): the time-base moves and the running quarter clocks count (R23,
R478), and nothing else changes but the time-base's own correction, by 1 tick in 1,024 (R33; that rate exactly: log entry 162). -/
def Obligations.StepRunsTheFrontOfTheQueue : Prop :=
  ∀ (s : State),
    (∀ (c : Instr) (q : List Instr), s.pending = c :: q → step s = exec c { s with pending := q }) ∧
    (∀ n w : Nat, decodeTableWord n w = none ∧ s.withFetchWord n w = s) ∧
    (s.pending = [] → goesTo (step s) fun t =>
      t = { s with now := t.now, links := t.links, cyc := t.cyc } ∧
      (s.pins.aonRst = true → t = s) ∧
      (s.pins.aonRst = false → s.links.lead = 0 → s.links.slew = 0 → t.now = s.now + 1 ∧ t.links = s.links) ∧
      (s.pins.aonRst = false → s.links.lead = 0 → 0 < s.links.slew →
        (s.links.slewCount < 1023 → t.now = s.now + 1 ∧ t.links = { s.links with slewCount := s.links.slewCount + 1 }) ∧
        (s.links.slewCount = 1023 → t.now = s.now + 2 ∧ t.links = { s.links with slewCount := 0, slew := s.links.slew - 1 })) ∧
      (s.pins.aonRst = false → clocksRun s = true → ∀ q < 32, tget 0 t.cyc q = tget 0 s.cyc q + quarterMhz s.pwr q) ∧
      (clocksRun s = false → t.cyc = s.cyc))

/-- The checks that stand before a command's own (R49, R67, R68, R80, R433), in their order, and what a refusal leaves: nothing but its reply changes. One
that every check lets through acts, and a serving loop of its district that waited for a command goes on (R375). -/
def Obligations.RefusedCommandsChangeNothing : Prop :=
  ∀ (k : Spec) (c : FwReq) (rest : State → List (Bool × Err)) (fmt present : Bool) (eff : State → State) (s : State),
    c.fn < 32 →
    let run := fwStep k c (fun s => headChecks k fmt present c s ++ rest s) eff s
    let refused := fun e => run = .next (refuse s c k.cmd e) ∧ repliesAdd s (refuse s c k.cmd e) c.fn [errReply c k.cmd e] ∧ onlyFns s (refuse s c k.cmd e)
    (served s = false → run = .next s) ∧
    (served s = true → firstErr (headChecks k fmt present c s ++ rest s) = none →
      run = .next (eff (if k.wide = true then s else wakeLoop s (cmdDist c)))) ∧
    (served s = true → (fmt = false ∨ 480 < c.payload.length) → refused badFormat) ∧
    (served s = true → fmt = true → c.payload.length ≤ 480 → romServes s = true → k.romOk = false → refused unknownCommand) ∧
    (served s = true → fmt = true → c.payload.length ≤ 480 → (romServes s = false ∨ k.romOk = true) →
      (k.pf0 = true → c.fn ≠ 0 → refused denied) ∧
      ((k.pf0 = false ∨ c.fn = 0) → dbgLevel s = 3 → k.scanOk = false → refused denied) ∧
      ((k.pf0 = false ∨ c.fn = 0) → (dbgLevel s ≠ 3 ∨ k.scanOk = true) →
        (present = false → refused notPresent) ∧
        (present = true →
          (c.fn ≠ 0 → c.district.toNat ≠ c.fn → refused denied) ∧
          (c.fn = 0 → 32 ≤ c.district.toNat → c.district.toNat ≤ 254 → refused badArgument) ∧
          (c.fn = 0 → k.wide = false → c.district.toNat = 255 → refused badArgument) ∧
          ((c.fn ≠ 0 → c.district.toNat = c.fn) → (c.fn = 0 → c.district.toNat < 32) → k.wide = false → k.emptyOk = false →
            (getDist s (cmdDist c)).state = 0 → refused (conflict 1 0)))))

/-- Every well-formed command has an outcome, and a queue of them runs for as long as one likes (the model stops only where a command names a function
that the port does not have: then it faults). -/
def Obligations.WellFormedCommandsNeverStop : Prop :=
  (∀ (i : Instr) (s : State), i.wf = true → isNext (exec i s) = true) ∧
  (∀ (n : Nat) (s : State), queueWf s = true → runsFor n s = true) ∧
  (∀ (c : FwReq) (f : Nat) (s : State), 32 ≤ c.fn → 32 ≤ f →
    ∀ i ∈ [Instr.devNop c, .distCreate c, .progStart c, .memSegSet c, .collGroupCreate c, .stepRun c, .serveJoin c, .mediaJobStart c, .snapTake c, .secInfo c,
      .pwrInfo c, .dbgInfo c, .configRead f 0, .functionLevelReset f, .replyPost f, .bar2Read f 0 4, .hostFlagsClear f 0, .consRoutineRead f 0],
      exec i s = .fault .noFunction)

/-- No command's own effect touches the queue or the population, and none but a SYNC message and the deassertion of AON_RST_N moves the time-base
(R31, R261; the queue is the model's own). -/
def Obligations.CommandsKeepQueuePopulationAndTime : Prop :=
  ∀ (i : Instr) (s t : State), exec i s = .next t →
    t.pending = s.pending ∧ t.population = s.population ∧
    (t.now = s.now ∨ (i = .aonRstNDeassert ∧ t.now = 0) ∨ ∃ p m, i = .syncReceive p m)

/-- What every step keeps: the commands that wait are well formed, and the compute side is in reset whenever AON_RST_N or the SYS_RST_N pin is
asserted (R454). -/
def Obligations.EveryStepKeepsTheInvariant : Prop :=
  ∀ (s t : State), queueWf s = true → (s.pins.aonRst = true → s.pins.sysRst = true) → (s.pins.sysPin = true → s.pins.sysRst = true) →
    step s = .next t →
    queueWf t = true ∧ (t.pins.aonRst = true → t.pins.sysRst = true) ∧ (t.pins.sysPin = true → t.pins.sysRst = true)

/-- The state right after reset (R370, R421, R453, R454, R465; that the model starts with every reset asserted is log entry 1): every reset asserted, no district, memory,
group, job or waiting command, every port DISABLED, an empty index, nothing reachable and no firmware serving; it meets the invariant. -/
def Obligations.ResetIsClean : Prop :=
  let s := State.reset
  s.pins.aonRst = true ∧ s.pins.sysRst = true ∧ s.pins.sysPin = true ∧ s.pins.perst = true ∧ s.pending = [] ∧ queueWf s = true ∧
  s.dists = [] ∧ s.backs = [] ∧ s.groups = [] ∧ s.pipes = [] ∧ s.indexOk = false ∧ s.now = 0 ∧ served s = false ∧
  (∀ p, (getPort s p).state = 0) ∧ (∀ d, (getDist s d).state = 0) ∧ (∀ f, reaches s f = false) ∧
  ∀ b, memWf (getBack s b).data = true

end
end

