-- ==== Sys2Proof/Laws/Tables.lean ====
section
/-! SUPPORT. What the operations on sparse tables, byte memories and byte strings do, once each. -/

namespace Sys2Proof.Machine

/-! ## Tables -/

@[simp] theorem tfind_tset_self {α : Type} (v : α) (k : Nat) : ∀ m : AMap α, tfind (tset m k v) k = some v
  | [] => by simp [tset, tfind]
  | (j, w) :: m => by
    simp only [tset]
    split
    · simp [tfind]
    · split
      · simp [tfind]
      · next h => simp [tfind, Ne.symm h, tfind_tset_self v k m]

theorem tfind_tset_ne {α : Type} (v : α) {k i : Nat} (h : i ≠ k) : ∀ m : AMap α, tfind (tset m k v) i = tfind m i
  | [] => by simp [tset, tfind, Ne.symm h]
  | (j, w) :: m => by
    simp only [tset]
    split
    · simp [tfind, Ne.symm h]
    · split
      · next e => subst e; simp [tfind, Ne.symm h]
      · simp [tfind, tfind_tset_ne v h m]

@[simp] theorem tget_tset_self {α : Type} (d v : α) (m : AMap α) (k : Nat) : tget d (tset m k v) k = v := by
  simp [tget]

theorem tget_tset_ne {α : Type} (d v : α) (m : AMap α) {k i : Nat} (h : i ≠ k) : tget d (tset m k v) i = tget d m i := by
  simp [tget, tfind_tset_ne v h]

@[simp] theorem tget_tmod_self {α : Type} (d : α) (m : AMap α) (k : Nat) (g : α → α) :
    tget d (tmod d m k g) k = g (tget d m k) := by simp [tmod]

theorem tget_tmod_ne {α : Type} (d : α) (m : AMap α) {k i : Nat} (g : α → α) (h : i ≠ k) :
    tget d (tmod d m k g) i = tget d m i := by simp [tmod, tget_tset_ne d _ m h]

theorem tget_tmod {α : Type} (d : α) (m : AMap α) (k i : Nat) (g : α → α) :
    tget d (tmod d m k g) i = if i = k then g (tget d m i) else tget d m i := by
  split
  · next h => subst h; simp
  · next h => exact tget_tmod_ne d m g h

@[simp] theorem tfind_tdel_self {α : Type} (k : Nat) : ∀ m : AMap α, tfind (tdel m k) k = none
  | [] => rfl
  | (j, w) :: m => by
    have ih := tfind_tdel_self k m
    simp only [tdel] at ih ⊢
    by_cases h : j = k <;> simp [h, tfind, ih]

theorem tfind_tdel_ne {α : Type} {k i : Nat} (h : i ≠ k) : ∀ m : AMap α, tfind (tdel m k) i = tfind m i
  | [] => rfl
  | (j, w) :: m => by
    have ih := tfind_tdel_ne h m
    simp only [tdel] at ih ⊢
    by_cases e : j = k
    · subst e; simp [tfind, ih, Ne.symm h]
    · simp [e, tfind, ih]

@[simp] theorem thas_tset {α : Type} (m : AMap α) (k : Nat) (v : α) : thas (tset m k v) k = true := by simp [thas]

@[simp] theorem tget_tdel_self {α : Type} (d : α) (m : AMap α) (k : Nat) : tget d (tdel m k) k = d := by simp [tget]

/-! ## Byte memories -/

/-- Every listed address of a memory lies at or above a bound. -/
def memFrom (a : Nat) (m : Mem) : Prop := ∀ c ∈ m, a ≤ c.1

theorem memWf_tail {c : Host.Cell} {m : Mem} (h : memWf (c :: m) = true) : memWf m = true := by
  cases m with
  | nil => rfl
  | cons d m => simp [memWf] at h; exact h.2

theorem memWf_head {c : Host.Cell} {m : Mem} (h : memWf (c :: m) = true) : c.2 ≠ 0 := by
  cases m with
  | nil => simpa [memWf] using h
  | cons d m => simp [memWf] at h; exact h.1.1

theorem memFrom_tail : ∀ {m : Mem} {c : Host.Cell}, memWf (c :: m) = true → memFrom (c.1 + 1) m
  | [], _, _ => by simp [memFrom]
  | d :: m, c, h => by
    have t := memFrom_tail (memWf_tail h)
    simp [memWf] at h
    intro e he
    rcases List.mem_cons.mp he with rfl | he
    · omega
    · have := t e he; omega

theorem memWf_cons {c : Host.Cell} {m : Mem} (h0 : c.2 ≠ 0) (h1 : memFrom (c.1 + 1) m) (h2 : memWf m = true) :
    memWf (c :: m) = true := by
  cases m with
  | nil => simpa [memWf] using h0
  | cons d m =>
    have := h1 d (by simp)
    simp [memWf, h2]
    exact ⟨h0, by omega⟩

theorem memGet_low : ∀ {m : Mem} {a b : Nat}, memFrom b m → a < b → memGet m a = 0
  | [], _, _, _, _ => rfl
  | (j, v) :: m, a, b, h, l => by
    have hj : b ≤ j := h (j, v) (by simp)
    simp only [memGet]
    rw [if_neg (by omega)]
    exact memGet_low (fun c hc => h c (by simp [hc])) l

theorem memSet_from {a k : Nat} {b : Byte} : ∀ {m : Mem}, memFrom k m → k ≤ a → memFrom k (memSet m a b)
  | [], _, h => by
    simp only [memSet]; split
    · simp [memFrom]
    · simpa [memFrom] using h
  | (j, v) :: m, hm, h => by
    have hj : k ≤ j := hm (j, v) (by simp)
    have ht : memFrom k m := fun c hc => hm c (by simp [hc])
    have cons : ∀ x : Host.Cell, k ≤ x.1 → ∀ l, memFrom k l → memFrom k (x :: l) := by
      intro x hx l hl c hc
      rcases List.mem_cons.mp hc with rfl | hc
      · exact hx
      · exact hl c hc
    simp only [memSet]
    split
    · split
      · exact hm
      · exact cons _ h _ hm
    · split
      · split
        · exact ht
        · exact cons _ h _ ht
      · exact cons _ hj _ (memSet_from ht h)

/-- Writing a byte keeps the canonical form. -/
theorem memSet_wf {a : Nat} {b : Byte} : ∀ {m : Mem}, memWf m = true → memWf (memSet m a b) = true
  | [], _ => by
    simp only [memSet]; split
    · rfl
    · next h => simpa [memWf] using h
  | (j, v) :: m, h => by
    have ht := memWf_tail h
    have hf := memFrom_tail h
    have hv := memWf_head h
    simp only [memSet]
    split
    · next l =>
      split
      · exact h
      · next hb =>
        refine memWf_cons hb ?_ h
        intro c hc
        rcases List.mem_cons.mp hc with rfl | hc
        · show a + 1 ≤ j; omega
        · have := hf c hc; simp only at this; show a + 1 ≤ c.1; omega
    · split
      · next e =>
        subst e
        split
        · exact ht
        · next hb => exact memWf_cons hb hf ht
      · next l e =>
        exact memWf_cons hv (memSet_from hf (by show j + 1 ≤ a; omega)) (memSet_wf ht)

/-- A byte read after it is written is what was written. -/
theorem memGet_memSet_self {a : Nat} {b : Byte} : ∀ {m : Mem}, memWf m = true → memGet (memSet m a b) a = b
  | [], _ => by
    simp only [memSet]; split
    · next h => simp [memGet, h]
    · simp [memGet]
  | (j, v) :: m, h => by
    have hf := memFrom_tail h
    simp only [memSet]
    split
    · next l =>
      split
      · next hb =>
        simp only [memGet]; rw [if_neg (by omega), hb]
        exact memGet_low hf (by show a < j + 1; omega)
      · simp [memGet]
    · split
      · next e =>
        subst e
        split
        · next hb => rw [hb]; exact memGet_low hf (by show a < a + 1; omega)
        · simp [memGet]
      · next l e =>
        simp only [memGet]; rw [if_neg (by omega)]
        exact memGet_memSet_self (memWf_tail h)

/-- A write leaves every other byte alone. -/
theorem memGet_memSet_ne {a i : Nat} {b : Byte} (n : i ≠ a) : ∀ {m : Mem}, memGet (memSet m a b) i = memGet m i
  | [] => by
    simp only [memSet]; split
    · rfl
    · simp [memGet, Ne.symm n]
  | (j, v) :: m => by
    simp only [memSet]
    split
    · split
      · rfl
      · simp [memGet, Ne.symm n]
    · split
      · next e =>
        subst e
        split <;> simp [memGet, Ne.symm n]
      · simp only [memGet]; rw [memGet_memSet_ne n]

/-- Writing bytes keeps the canonical form. -/
theorem memWrite_wf : ∀ (d : Bytes) {m : Mem} (a : Nat), memWf m = true → memWf (memWrite m a d) = true
  | [], _, _, h => h
  | _ :: d, _, a, h => memWrite_wf d (a + 1) (memSet_wf h)

/-- A write of bytes leaves what lies outside them alone. -/
theorem memGet_memWrite_out : ∀ (d : Bytes) (m : Mem) (a i : Nat), i < a ∨ a + d.length ≤ i →
    memGet (memWrite m a d) i = memGet m i
  | [], _, _, _, _ => rfl
  | b :: d, m, a, i, h => by
    simp only [memWrite]
    rw [memGet_memWrite_out d _ _ _ (by simp at h; omega), memGet_memSet_ne (by simp at h; omega)]

/-- A byte that a write covers reads as written. -/
theorem memGet_memWrite_in : ∀ (d : Bytes) {m : Mem} (a i : Nat), memWf m = true → i < d.length →
    memGet (memWrite m a d) (a + i) = d.getD i 0
  | [], _, _, _, _, h => by simp at h
  | b :: d, m, a, 0, w, _ => by
    simp only [memWrite, Nat.add_zero]
    rw [memGet_memWrite_out d _ _ _ (by omega), memGet_memSet_self w]; rfl
  | b :: d, m, a, i + 1, w, h => by
    simp only [memWrite]
    have := memGet_memWrite_in d (m := memSet m a b) (a + 1) i (memSet_wf w) (by simpa using h)
    rw [show a + (i + 1) = a + 1 + i by omega, this]; rfl

theorem memFrom_filter {a : Nat} {p : Host.Cell → Bool} {m : Mem} (h : memFrom a m) : memFrom a (m.filter p) :=
  fun c hc => h c (List.mem_filter.mp hc).1

theorem memWf_filter {p : Host.Cell → Bool} : ∀ {m : Mem}, memWf m = true → memWf (m.filter p) = true
  | [], _ => rfl
  | c :: m, h => by
    simp only [List.filter_cons]
    split
    · exact memWf_cons (memWf_head h) (memFrom_filter (memFrom_tail h)) (memWf_filter (memWf_tail h))
    · exact memWf_filter (memWf_tail h)

/-- Clearing a range keeps the canonical form. -/
theorem memClear_wf {m : Mem} (a n : Nat) (h : memWf m = true) : memWf (memClear m a n) = true := memWf_filter h

/-- A byte string laid into an empty memory is in canonical form. -/
theorem memOf_wf (b : Bytes) : memWf (memOf b) = true := memWrite_wf b 0 rfl

@[simp] theorem memRead_length (m : Mem) : ∀ a n, (memRead m a n).length = n
  | _, 0 => rfl
  | a, n + 1 => by simp [memRead, memRead_length m (a + 1) n]

@[simp] theorem leBytes_length : ∀ n v, (leBytes n v).length = n
  | 0, _ => rfl
  | n + 1, v => by simp [leBytes, leBytes_length n]

theorem slice_length (b : Bytes) (off n : Nat) : (slice b off n).length = n := by
  simp [slice, zeros] <;> omega

end Sys2Proof.Machine
end

