-- ==== Sys2Proof/Laws/State.lean ====
section
/-! SUPPORT. What each shared update of the state leaves alone: one lemma per field per update, so that no proof unfolds a
record update. -/

namespace Sys2Proof.Machine

/-! ## modFn -/

@[simp] theorem modFn_pending (s : State) (f : Nat) (g : Fn → Fn) : (modFn s f g).pending = s.pending := rfl
@[simp] theorem modFn_now (s : State) (f : Nat) (g : Fn → Fn) : (modFn s f g).now = s.now := rfl
@[simp] theorem modFn_freeCtr (s : State) (f : Nat) (g : Fn → Fn) : (modFn s f g).freeCtr = s.freeCtr := rfl
@[simp] theorem modFn_population (s : State) (f : Nat) (g : Fn → Fn) : (modFn s f g).population = s.population := rfl
@[simp] theorem modFn_pins (s : State) (f : Nat) (g : Fn → Fn) : (modFn s f g).pins = s.pins := rfl
@[simp] theorem modFn_indexOk (s : State) (f : Nat) (g : Fn → Fn) : (modFn s f g).indexOk = s.indexOk := rfl
@[simp] theorem modFn_index (s : State) (f : Nat) (g : Fn → Fn) : (modFn s f g).index = s.index := rfl
@[simp] theorem modFn_training (s : State) (f : Nat) (g : Fn → Fn) : (modFn s f g).training = s.training := rfl
@[simp] theorem modFn_board (s : State) (f : Nat) (g : Fn → Fn) : (modFn s f g).board = s.board := rfl
@[simp] theorem modFn_lpSites (s : State) (f : Nat) (g : Fn → Fn) : (modFn s f g).lpSites = s.lpSites := rfl
@[simp] theorem modFn_lpRate (s : State) (f : Nat) (g : Fn → Fn) : (modFn s f g).lpRate = s.lpRate := rfl
@[simp] theorem modFn_lpMib (s : State) (f : Nat) (g : Fn → Fn) : (modFn s f g).lpMib = s.lpMib := rfl
@[simp] theorem modFn_pcie (s : State) (f : Nat) (g : Fn → Fn) : (modFn s f g).pcie = s.pcie := rfl
@[simp] theorem modFn_emitted (s : State) (f : Nat) (g : Fn → Fn) : (modFn s f g).emitted = s.emitted := rfl
@[simp] theorem modFn_deferred (s : State) (f : Nat) (g : Fn → Fn) : (modFn s f g).deferred = s.deferred := rfl
@[simp] theorem modFn_held (s : State) (f : Nat) (g : Fn → Fn) : (modFn s f g).held = s.held := rfl
@[simp] theorem modFn_out (s : State) (f : Nat) (g : Fn → Fn) : (modFn s f g).out = s.out := rfl
@[simp] theorem modFn_lastRel (s : State) (f : Nat) (g : Fn → Fn) : (modFn s f g).lastRel = s.lastRel := rfl
@[simp] theorem modFn_sec (s : State) (f : Nat) (g : Fn → Fn) : (modFn s f g).sec = s.sec := rfl
@[simp] theorem modFn_nvm (s : State) (f : Nat) (g : Fn → Fn) : (modFn s f g).nvm = s.nvm := rfl
@[simp] theorem modFn_pwr (s : State) (f : Nat) (g : Fn → Fn) : (modFn s f g).pwr = s.pwr := rfl
@[simp] theorem modFn_health (s : State) (f : Nat) (g : Fn → Fn) : (modFn s f g).health = s.health := rfl
@[simp] theorem modFn_adv (s : State) (f : Nat) (g : Fn → Fn) : (modFn s f g).adv = s.adv := rfl
@[simp] theorem modFn_planned (s : State) (f : Nat) (g : Fn → Fn) : (modFn s f g).planned = s.planned := rfl
@[simp] theorem modFn_dists (s : State) (f : Nat) (g : Fn → Fn) : (modFn s f g).dists = s.dists := rfl
@[simp] theorem modFn_backs (s : State) (f : Nat) (g : Fn → Fn) : (modFn s f g).backs = s.backs := rfl
@[simp] theorem modFn_nextBid (s : State) (f : Nat) (g : Fn → Fn) : (modFn s f g).nextBid = s.nextBid := rfl
@[simp] theorem modFn_nextSig (s : State) (f : Nat) (g : Fn → Fn) : (modFn s f g).nextSig = s.nextSig := rfl
@[simp] theorem modFn_flash (s : State) (f : Nat) (g : Fn → Fn) : (modFn s f g).flash = s.flash := rfl
@[simp] theorem modFn_sites (s : State) (f : Nat) (g : Fn → Fn) : (modFn s f g).sites = s.sites := rfl
@[simp] theorem modFn_chans (s : State) (f : Nat) (g : Fn → Fn) : (modFn s f g).chans = s.chans := rfl
@[simp] theorem modFn_links (s : State) (f : Nat) (g : Fn → Fn) : (modFn s f g).links = s.links := rfl
@[simp] theorem modFn_groups (s : State) (f : Nat) (g : Fn → Fn) : (modFn s f g).groups = s.groups := rfl
@[simp] theorem modFn_pipes (s : State) (f : Nat) (g : Fn → Fn) : (modFn s f g).pipes = s.pipes := rfl
@[simp] theorem modFn_jtagCells (s : State) (f : Nat) (g : Fn → Fn) : (modFn s f g).jtagCells = s.jtagCells := rfl
@[simp] theorem modFn_jtagMode (s : State) (f : Nat) (g : Fn → Fn) : (modFn s f g).jtagMode = s.jtagMode := rfl
@[simp] theorem modFn_work (s : State) (f : Nat) (g : Fn → Fn) : (modFn s f g).work = s.work := rfl
@[simp] theorem modFn_cyc (s : State) (f : Nat) (g : Fn → Fn) : (modFn s f g).cyc = s.cyc := rfl

/-! ## modDist -/

@[simp] theorem modDist_pending (s : State) (d : Nat) (g : Dist → Dist) : (modDist s d g).pending = s.pending := rfl
@[simp] theorem modDist_now (s : State) (d : Nat) (g : Dist → Dist) : (modDist s d g).now = s.now := rfl
@[simp] theorem modDist_freeCtr (s : State) (d : Nat) (g : Dist → Dist) : (modDist s d g).freeCtr = s.freeCtr := rfl
@[simp] theorem modDist_population (s : State) (d : Nat) (g : Dist → Dist) : (modDist s d g).population = s.population := rfl
@[simp] theorem modDist_pins (s : State) (d : Nat) (g : Dist → Dist) : (modDist s d g).pins = s.pins := rfl
@[simp] theorem modDist_indexOk (s : State) (d : Nat) (g : Dist → Dist) : (modDist s d g).indexOk = s.indexOk := rfl
@[simp] theorem modDist_index (s : State) (d : Nat) (g : Dist → Dist) : (modDist s d g).index = s.index := rfl
@[simp] theorem modDist_training (s : State) (d : Nat) (g : Dist → Dist) : (modDist s d g).training = s.training := rfl
@[simp] theorem modDist_board (s : State) (d : Nat) (g : Dist → Dist) : (modDist s d g).board = s.board := rfl
@[simp] theorem modDist_lpSites (s : State) (d : Nat) (g : Dist → Dist) : (modDist s d g).lpSites = s.lpSites := rfl
@[simp] theorem modDist_lpRate (s : State) (d : Nat) (g : Dist → Dist) : (modDist s d g).lpRate = s.lpRate := rfl
@[simp] theorem modDist_lpMib (s : State) (d : Nat) (g : Dist → Dist) : (modDist s d g).lpMib = s.lpMib := rfl
@[simp] theorem modDist_fns (s : State) (d : Nat) (g : Dist → Dist) : (modDist s d g).fns = s.fns := rfl
@[simp] theorem modDist_pcie (s : State) (d : Nat) (g : Dist → Dist) : (modDist s d g).pcie = s.pcie := rfl
@[simp] theorem modDist_emitted (s : State) (d : Nat) (g : Dist → Dist) : (modDist s d g).emitted = s.emitted := rfl
@[simp] theorem modDist_deferred (s : State) (d : Nat) (g : Dist → Dist) : (modDist s d g).deferred = s.deferred := rfl
@[simp] theorem modDist_held (s : State) (d : Nat) (g : Dist → Dist) : (modDist s d g).held = s.held := rfl
@[simp] theorem modDist_out (s : State) (d : Nat) (g : Dist → Dist) : (modDist s d g).out = s.out := rfl
@[simp] theorem modDist_lastRel (s : State) (d : Nat) (g : Dist → Dist) : (modDist s d g).lastRel = s.lastRel := rfl
@[simp] theorem modDist_sec (s : State) (d : Nat) (g : Dist → Dist) : (modDist s d g).sec = s.sec := rfl
@[simp] theorem modDist_nvm (s : State) (d : Nat) (g : Dist → Dist) : (modDist s d g).nvm = s.nvm := rfl
@[simp] theorem modDist_pwr (s : State) (d : Nat) (g : Dist → Dist) : (modDist s d g).pwr = s.pwr := rfl
@[simp] theorem modDist_health (s : State) (d : Nat) (g : Dist → Dist) : (modDist s d g).health = s.health := rfl
@[simp] theorem modDist_adv (s : State) (d : Nat) (g : Dist → Dist) : (modDist s d g).adv = s.adv := rfl
@[simp] theorem modDist_planned (s : State) (d : Nat) (g : Dist → Dist) : (modDist s d g).planned = s.planned := rfl
@[simp] theorem modDist_backs (s : State) (d : Nat) (g : Dist → Dist) : (modDist s d g).backs = s.backs := rfl
@[simp] theorem modDist_nextBid (s : State) (d : Nat) (g : Dist → Dist) : (modDist s d g).nextBid = s.nextBid := rfl
@[simp] theorem modDist_nextSig (s : State) (d : Nat) (g : Dist → Dist) : (modDist s d g).nextSig = s.nextSig := rfl
@[simp] theorem modDist_flash (s : State) (d : Nat) (g : Dist → Dist) : (modDist s d g).flash = s.flash := rfl
@[simp] theorem modDist_sites (s : State) (d : Nat) (g : Dist → Dist) : (modDist s d g).sites = s.sites := rfl
@[simp] theorem modDist_chans (s : State) (d : Nat) (g : Dist → Dist) : (modDist s d g).chans = s.chans := rfl
@[simp] theorem modDist_links (s : State) (d : Nat) (g : Dist → Dist) : (modDist s d g).links = s.links := rfl
@[simp] theorem modDist_groups (s : State) (d : Nat) (g : Dist → Dist) : (modDist s d g).groups = s.groups := rfl
@[simp] theorem modDist_pipes (s : State) (d : Nat) (g : Dist → Dist) : (modDist s d g).pipes = s.pipes := rfl
@[simp] theorem modDist_jtagCells (s : State) (d : Nat) (g : Dist → Dist) : (modDist s d g).jtagCells = s.jtagCells := rfl
@[simp] theorem modDist_jtagMode (s : State) (d : Nat) (g : Dist → Dist) : (modDist s d g).jtagMode = s.jtagMode := rfl
@[simp] theorem modDist_work (s : State) (d : Nat) (g : Dist → Dist) : (modDist s d g).work = s.work := rfl
@[simp] theorem modDist_cyc (s : State) (d : Nat) (g : Dist → Dist) : (modDist s d g).cyc = s.cyc := rfl

/-! ## modCore -/

@[simp] theorem modCore_pending (s : State) (d c : Nat) (g : Core → Core) : (modCore s d c g).pending = s.pending := rfl
@[simp] theorem modCore_now (s : State) (d c : Nat) (g : Core → Core) : (modCore s d c g).now = s.now := rfl
@[simp] theorem modCore_freeCtr (s : State) (d c : Nat) (g : Core → Core) : (modCore s d c g).freeCtr = s.freeCtr := rfl
@[simp] theorem modCore_population (s : State) (d c : Nat) (g : Core → Core) : (modCore s d c g).population = s.population := rfl
@[simp] theorem modCore_pins (s : State) (d c : Nat) (g : Core → Core) : (modCore s d c g).pins = s.pins := rfl
@[simp] theorem modCore_indexOk (s : State) (d c : Nat) (g : Core → Core) : (modCore s d c g).indexOk = s.indexOk := rfl
@[simp] theorem modCore_index (s : State) (d c : Nat) (g : Core → Core) : (modCore s d c g).index = s.index := rfl
@[simp] theorem modCore_training (s : State) (d c : Nat) (g : Core → Core) : (modCore s d c g).training = s.training := rfl
@[simp] theorem modCore_board (s : State) (d c : Nat) (g : Core → Core) : (modCore s d c g).board = s.board := rfl
@[simp] theorem modCore_lpSites (s : State) (d c : Nat) (g : Core → Core) : (modCore s d c g).lpSites = s.lpSites := rfl
@[simp] theorem modCore_lpRate (s : State) (d c : Nat) (g : Core → Core) : (modCore s d c g).lpRate = s.lpRate := rfl
@[simp] theorem modCore_lpMib (s : State) (d c : Nat) (g : Core → Core) : (modCore s d c g).lpMib = s.lpMib := rfl
@[simp] theorem modCore_fns (s : State) (d c : Nat) (g : Core → Core) : (modCore s d c g).fns = s.fns := rfl
@[simp] theorem modCore_pcie (s : State) (d c : Nat) (g : Core → Core) : (modCore s d c g).pcie = s.pcie := rfl
@[simp] theorem modCore_emitted (s : State) (d c : Nat) (g : Core → Core) : (modCore s d c g).emitted = s.emitted := rfl
@[simp] theorem modCore_deferred (s : State) (d c : Nat) (g : Core → Core) : (modCore s d c g).deferred = s.deferred := rfl
@[simp] theorem modCore_held (s : State) (d c : Nat) (g : Core → Core) : (modCore s d c g).held = s.held := rfl
@[simp] theorem modCore_out (s : State) (d c : Nat) (g : Core → Core) : (modCore s d c g).out = s.out := rfl
@[simp] theorem modCore_lastRel (s : State) (d c : Nat) (g : Core → Core) : (modCore s d c g).lastRel = s.lastRel := rfl
@[simp] theorem modCore_sec (s : State) (d c : Nat) (g : Core → Core) : (modCore s d c g).sec = s.sec := rfl
@[simp] theorem modCore_nvm (s : State) (d c : Nat) (g : Core → Core) : (modCore s d c g).nvm = s.nvm := rfl
@[simp] theorem modCore_pwr (s : State) (d c : Nat) (g : Core → Core) : (modCore s d c g).pwr = s.pwr := rfl
@[simp] theorem modCore_health (s : State) (d c : Nat) (g : Core → Core) : (modCore s d c g).health = s.health := rfl
@[simp] theorem modCore_adv (s : State) (d c : Nat) (g : Core → Core) : (modCore s d c g).adv = s.adv := rfl
@[simp] theorem modCore_planned (s : State) (d c : Nat) (g : Core → Core) : (modCore s d c g).planned = s.planned := rfl
@[simp] theorem modCore_backs (s : State) (d c : Nat) (g : Core → Core) : (modCore s d c g).backs = s.backs := rfl
@[simp] theorem modCore_nextBid (s : State) (d c : Nat) (g : Core → Core) : (modCore s d c g).nextBid = s.nextBid := rfl
@[simp] theorem modCore_nextSig (s : State) (d c : Nat) (g : Core → Core) : (modCore s d c g).nextSig = s.nextSig := rfl
@[simp] theorem modCore_flash (s : State) (d c : Nat) (g : Core → Core) : (modCore s d c g).flash = s.flash := rfl
@[simp] theorem modCore_sites (s : State) (d c : Nat) (g : Core → Core) : (modCore s d c g).sites = s.sites := rfl
@[simp] theorem modCore_chans (s : State) (d c : Nat) (g : Core → Core) : (modCore s d c g).chans = s.chans := rfl
@[simp] theorem modCore_links (s : State) (d c : Nat) (g : Core → Core) : (modCore s d c g).links = s.links := rfl
@[simp] theorem modCore_groups (s : State) (d c : Nat) (g : Core → Core) : (modCore s d c g).groups = s.groups := rfl
@[simp] theorem modCore_pipes (s : State) (d c : Nat) (g : Core → Core) : (modCore s d c g).pipes = s.pipes := rfl
@[simp] theorem modCore_jtagCells (s : State) (d c : Nat) (g : Core → Core) : (modCore s d c g).jtagCells = s.jtagCells := rfl
@[simp] theorem modCore_jtagMode (s : State) (d c : Nat) (g : Core → Core) : (modCore s d c g).jtagMode = s.jtagMode := rfl
@[simp] theorem modCore_work (s : State) (d c : Nat) (g : Core → Core) : (modCore s d c g).work = s.work := rfl
@[simp] theorem modCore_cyc (s : State) (d c : Nat) (g : Core → Core) : (modCore s d c g).cyc = s.cyc := rfl

/-! ## modBack -/

@[simp] theorem modBack_pending (s : State) (b : Nat) (g : Backing → Backing) : (modBack s b g).pending = s.pending := rfl
@[simp] theorem modBack_now (s : State) (b : Nat) (g : Backing → Backing) : (modBack s b g).now = s.now := rfl
@[simp] theorem modBack_freeCtr (s : State) (b : Nat) (g : Backing → Backing) : (modBack s b g).freeCtr = s.freeCtr := rfl
@[simp] theorem modBack_population (s : State) (b : Nat) (g : Backing → Backing) : (modBack s b g).population = s.population := rfl
@[simp] theorem modBack_pins (s : State) (b : Nat) (g : Backing → Backing) : (modBack s b g).pins = s.pins := rfl
@[simp] theorem modBack_indexOk (s : State) (b : Nat) (g : Backing → Backing) : (modBack s b g).indexOk = s.indexOk := rfl
@[simp] theorem modBack_index (s : State) (b : Nat) (g : Backing → Backing) : (modBack s b g).index = s.index := rfl
@[simp] theorem modBack_training (s : State) (b : Nat) (g : Backing → Backing) : (modBack s b g).training = s.training := rfl
@[simp] theorem modBack_board (s : State) (b : Nat) (g : Backing → Backing) : (modBack s b g).board = s.board := rfl
@[simp] theorem modBack_lpSites (s : State) (b : Nat) (g : Backing → Backing) : (modBack s b g).lpSites = s.lpSites := rfl
@[simp] theorem modBack_lpRate (s : State) (b : Nat) (g : Backing → Backing) : (modBack s b g).lpRate = s.lpRate := rfl
@[simp] theorem modBack_lpMib (s : State) (b : Nat) (g : Backing → Backing) : (modBack s b g).lpMib = s.lpMib := rfl
@[simp] theorem modBack_fns (s : State) (b : Nat) (g : Backing → Backing) : (modBack s b g).fns = s.fns := rfl
@[simp] theorem modBack_pcie (s : State) (b : Nat) (g : Backing → Backing) : (modBack s b g).pcie = s.pcie := rfl
@[simp] theorem modBack_emitted (s : State) (b : Nat) (g : Backing → Backing) : (modBack s b g).emitted = s.emitted := rfl
@[simp] theorem modBack_deferred (s : State) (b : Nat) (g : Backing → Backing) : (modBack s b g).deferred = s.deferred := rfl
@[simp] theorem modBack_held (s : State) (b : Nat) (g : Backing → Backing) : (modBack s b g).held = s.held := rfl
@[simp] theorem modBack_out (s : State) (b : Nat) (g : Backing → Backing) : (modBack s b g).out = s.out := rfl
@[simp] theorem modBack_lastRel (s : State) (b : Nat) (g : Backing → Backing) : (modBack s b g).lastRel = s.lastRel := rfl
@[simp] theorem modBack_sec (s : State) (b : Nat) (g : Backing → Backing) : (modBack s b g).sec = s.sec := rfl
@[simp] theorem modBack_nvm (s : State) (b : Nat) (g : Backing → Backing) : (modBack s b g).nvm = s.nvm := rfl
@[simp] theorem modBack_pwr (s : State) (b : Nat) (g : Backing → Backing) : (modBack s b g).pwr = s.pwr := rfl
@[simp] theorem modBack_health (s : State) (b : Nat) (g : Backing → Backing) : (modBack s b g).health = s.health := rfl
@[simp] theorem modBack_adv (s : State) (b : Nat) (g : Backing → Backing) : (modBack s b g).adv = s.adv := rfl
@[simp] theorem modBack_planned (s : State) (b : Nat) (g : Backing → Backing) : (modBack s b g).planned = s.planned := rfl
@[simp] theorem modBack_dists (s : State) (b : Nat) (g : Backing → Backing) : (modBack s b g).dists = s.dists := rfl
@[simp] theorem modBack_nextBid (s : State) (b : Nat) (g : Backing → Backing) : (modBack s b g).nextBid = s.nextBid := rfl
@[simp] theorem modBack_nextSig (s : State) (b : Nat) (g : Backing → Backing) : (modBack s b g).nextSig = s.nextSig := rfl
@[simp] theorem modBack_flash (s : State) (b : Nat) (g : Backing → Backing) : (modBack s b g).flash = s.flash := rfl
@[simp] theorem modBack_sites (s : State) (b : Nat) (g : Backing → Backing) : (modBack s b g).sites = s.sites := rfl
@[simp] theorem modBack_chans (s : State) (b : Nat) (g : Backing → Backing) : (modBack s b g).chans = s.chans := rfl
@[simp] theorem modBack_links (s : State) (b : Nat) (g : Backing → Backing) : (modBack s b g).links = s.links := rfl
@[simp] theorem modBack_groups (s : State) (b : Nat) (g : Backing → Backing) : (modBack s b g).groups = s.groups := rfl
@[simp] theorem modBack_pipes (s : State) (b : Nat) (g : Backing → Backing) : (modBack s b g).pipes = s.pipes := rfl
@[simp] theorem modBack_jtagCells (s : State) (b : Nat) (g : Backing → Backing) : (modBack s b g).jtagCells = s.jtagCells := rfl
@[simp] theorem modBack_jtagMode (s : State) (b : Nat) (g : Backing → Backing) : (modBack s b g).jtagMode = s.jtagMode := rfl
@[simp] theorem modBack_work (s : State) (b : Nat) (g : Backing → Backing) : (modBack s b g).work = s.work := rfl
@[simp] theorem modBack_cyc (s : State) (b : Nat) (g : Backing → Backing) : (modBack s b g).cyc = s.cyc := rfl

/-! ## modPort -/

@[simp] theorem modPort_pending (s : State) (p : Nat) (g : Port → Port) : (modPort s p g).pending = s.pending := rfl
@[simp] theorem modPort_now (s : State) (p : Nat) (g : Port → Port) : (modPort s p g).now = s.now := rfl
@[simp] theorem modPort_freeCtr (s : State) (p : Nat) (g : Port → Port) : (modPort s p g).freeCtr = s.freeCtr := rfl
@[simp] theorem modPort_population (s : State) (p : Nat) (g : Port → Port) : (modPort s p g).population = s.population := rfl
@[simp] theorem modPort_pins (s : State) (p : Nat) (g : Port → Port) : (modPort s p g).pins = s.pins := rfl
@[simp] theorem modPort_indexOk (s : State) (p : Nat) (g : Port → Port) : (modPort s p g).indexOk = s.indexOk := rfl
@[simp] theorem modPort_index (s : State) (p : Nat) (g : Port → Port) : (modPort s p g).index = s.index := rfl
@[simp] theorem modPort_training (s : State) (p : Nat) (g : Port → Port) : (modPort s p g).training = s.training := rfl
@[simp] theorem modPort_board (s : State) (p : Nat) (g : Port → Port) : (modPort s p g).board = s.board := rfl
@[simp] theorem modPort_lpSites (s : State) (p : Nat) (g : Port → Port) : (modPort s p g).lpSites = s.lpSites := rfl
@[simp] theorem modPort_lpRate (s : State) (p : Nat) (g : Port → Port) : (modPort s p g).lpRate = s.lpRate := rfl
@[simp] theorem modPort_lpMib (s : State) (p : Nat) (g : Port → Port) : (modPort s p g).lpMib = s.lpMib := rfl
@[simp] theorem modPort_fns (s : State) (p : Nat) (g : Port → Port) : (modPort s p g).fns = s.fns := rfl
@[simp] theorem modPort_pcie (s : State) (p : Nat) (g : Port → Port) : (modPort s p g).pcie = s.pcie := rfl
@[simp] theorem modPort_emitted (s : State) (p : Nat) (g : Port → Port) : (modPort s p g).emitted = s.emitted := rfl
@[simp] theorem modPort_deferred (s : State) (p : Nat) (g : Port → Port) : (modPort s p g).deferred = s.deferred := rfl
@[simp] theorem modPort_held (s : State) (p : Nat) (g : Port → Port) : (modPort s p g).held = s.held := rfl
@[simp] theorem modPort_out (s : State) (p : Nat) (g : Port → Port) : (modPort s p g).out = s.out := rfl
@[simp] theorem modPort_lastRel (s : State) (p : Nat) (g : Port → Port) : (modPort s p g).lastRel = s.lastRel := rfl
@[simp] theorem modPort_sec (s : State) (p : Nat) (g : Port → Port) : (modPort s p g).sec = s.sec := rfl
@[simp] theorem modPort_nvm (s : State) (p : Nat) (g : Port → Port) : (modPort s p g).nvm = s.nvm := rfl
@[simp] theorem modPort_pwr (s : State) (p : Nat) (g : Port → Port) : (modPort s p g).pwr = s.pwr := rfl
@[simp] theorem modPort_health (s : State) (p : Nat) (g : Port → Port) : (modPort s p g).health = s.health := rfl
@[simp] theorem modPort_adv (s : State) (p : Nat) (g : Port → Port) : (modPort s p g).adv = s.adv := rfl
@[simp] theorem modPort_planned (s : State) (p : Nat) (g : Port → Port) : (modPort s p g).planned = s.planned := rfl
@[simp] theorem modPort_dists (s : State) (p : Nat) (g : Port → Port) : (modPort s p g).dists = s.dists := rfl
@[simp] theorem modPort_backs (s : State) (p : Nat) (g : Port → Port) : (modPort s p g).backs = s.backs := rfl
@[simp] theorem modPort_nextBid (s : State) (p : Nat) (g : Port → Port) : (modPort s p g).nextBid = s.nextBid := rfl
@[simp] theorem modPort_nextSig (s : State) (p : Nat) (g : Port → Port) : (modPort s p g).nextSig = s.nextSig := rfl
@[simp] theorem modPort_flash (s : State) (p : Nat) (g : Port → Port) : (modPort s p g).flash = s.flash := rfl
@[simp] theorem modPort_sites (s : State) (p : Nat) (g : Port → Port) : (modPort s p g).sites = s.sites := rfl
@[simp] theorem modPort_chans (s : State) (p : Nat) (g : Port → Port) : (modPort s p g).chans = s.chans := rfl
@[simp] theorem modPort_groups (s : State) (p : Nat) (g : Port → Port) : (modPort s p g).groups = s.groups := rfl
@[simp] theorem modPort_pipes (s : State) (p : Nat) (g : Port → Port) : (modPort s p g).pipes = s.pipes := rfl
@[simp] theorem modPort_jtagCells (s : State) (p : Nat) (g : Port → Port) : (modPort s p g).jtagCells = s.jtagCells := rfl
@[simp] theorem modPort_jtagMode (s : State) (p : Nat) (g : Port → Port) : (modPort s p g).jtagMode = s.jtagMode := rfl
@[simp] theorem modPort_work (s : State) (p : Nat) (g : Port → Port) : (modPort s p g).work = s.work := rfl
@[simp] theorem modPort_cyc (s : State) (p : Nat) (g : Port → Port) : (modPort s p g).cyc = s.cyc := rfl

/-! ## modGroup -/

@[simp] theorem modGroup_pending (s : State) (g : Nat) (f : Group → Group) : (modGroup s g f).pending = s.pending := by unfold modGroup; split <;> rfl
@[simp] theorem modGroup_now (s : State) (g : Nat) (f : Group → Group) : (modGroup s g f).now = s.now := by unfold modGroup; split <;> rfl
@[simp] theorem modGroup_freeCtr (s : State) (g : Nat) (f : Group → Group) : (modGroup s g f).freeCtr = s.freeCtr := by unfold modGroup; split <;> rfl
@[simp] theorem modGroup_population (s : State) (g : Nat) (f : Group → Group) : (modGroup s g f).population = s.population := by unfold modGroup; split <;> rfl
@[simp] theorem modGroup_pins (s : State) (g : Nat) (f : Group → Group) : (modGroup s g f).pins = s.pins := by unfold modGroup; split <;> rfl
@[simp] theorem modGroup_indexOk (s : State) (g : Nat) (f : Group → Group) : (modGroup s g f).indexOk = s.indexOk := by unfold modGroup; split <;> rfl
@[simp] theorem modGroup_index (s : State) (g : Nat) (f : Group → Group) : (modGroup s g f).index = s.index := by unfold modGroup; split <;> rfl
@[simp] theorem modGroup_training (s : State) (g : Nat) (f : Group → Group) : (modGroup s g f).training = s.training := by unfold modGroup; split <;> rfl
@[simp] theorem modGroup_board (s : State) (g : Nat) (f : Group → Group) : (modGroup s g f).board = s.board := by unfold modGroup; split <;> rfl
@[simp] theorem modGroup_lpSites (s : State) (g : Nat) (f : Group → Group) : (modGroup s g f).lpSites = s.lpSites := by unfold modGroup; split <;> rfl
@[simp] theorem modGroup_lpRate (s : State) (g : Nat) (f : Group → Group) : (modGroup s g f).lpRate = s.lpRate := by unfold modGroup; split <;> rfl
@[simp] theorem modGroup_lpMib (s : State) (g : Nat) (f : Group → Group) : (modGroup s g f).lpMib = s.lpMib := by unfold modGroup; split <;> rfl
@[simp] theorem modGroup_fns (s : State) (g : Nat) (f : Group → Group) : (modGroup s g f).fns = s.fns := by unfold modGroup; split <;> rfl
@[simp] theorem modGroup_pcie (s : State) (g : Nat) (f : Group → Group) : (modGroup s g f).pcie = s.pcie := by unfold modGroup; split <;> rfl
@[simp] theorem modGroup_emitted (s : State) (g : Nat) (f : Group → Group) : (modGroup s g f).emitted = s.emitted := by unfold modGroup; split <;> rfl
@[simp] theorem modGroup_deferred (s : State) (g : Nat) (f : Group → Group) : (modGroup s g f).deferred = s.deferred := by unfold modGroup; split <;> rfl
@[simp] theorem modGroup_held (s : State) (g : Nat) (f : Group → Group) : (modGroup s g f).held = s.held := by unfold modGroup; split <;> rfl
@[simp] theorem modGroup_out (s : State) (g : Nat) (f : Group → Group) : (modGroup s g f).out = s.out := by unfold modGroup; split <;> rfl
@[simp] theorem modGroup_lastRel (s : State) (g : Nat) (f : Group → Group) : (modGroup s g f).lastRel = s.lastRel := by unfold modGroup; split <;> rfl
@[simp] theorem modGroup_sec (s : State) (g : Nat) (f : Group → Group) : (modGroup s g f).sec = s.sec := by unfold modGroup; split <;> rfl
@[simp] theorem modGroup_nvm (s : State) (g : Nat) (f : Group → Group) : (modGroup s g f).nvm = s.nvm := by unfold modGroup; split <;> rfl
@[simp] theorem modGroup_pwr (s : State) (g : Nat) (f : Group → Group) : (modGroup s g f).pwr = s.pwr := by unfold modGroup; split <;> rfl
@[simp] theorem modGroup_health (s : State) (g : Nat) (f : Group → Group) : (modGroup s g f).health = s.health := by unfold modGroup; split <;> rfl
@[simp] theorem modGroup_adv (s : State) (g : Nat) (f : Group → Group) : (modGroup s g f).adv = s.adv := by unfold modGroup; split <;> rfl
@[simp] theorem modGroup_planned (s : State) (g : Nat) (f : Group → Group) : (modGroup s g f).planned = s.planned := by unfold modGroup; split <;> rfl
@[simp] theorem modGroup_dists (s : State) (g : Nat) (f : Group → Group) : (modGroup s g f).dists = s.dists := by unfold modGroup; split <;> rfl
@[simp] theorem modGroup_backs (s : State) (g : Nat) (f : Group → Group) : (modGroup s g f).backs = s.backs := by unfold modGroup; split <;> rfl
@[simp] theorem modGroup_nextBid (s : State) (g : Nat) (f : Group → Group) : (modGroup s g f).nextBid = s.nextBid := by unfold modGroup; split <;> rfl
@[simp] theorem modGroup_nextSig (s : State) (g : Nat) (f : Group → Group) : (modGroup s g f).nextSig = s.nextSig := by unfold modGroup; split <;> rfl
@[simp] theorem modGroup_flash (s : State) (g : Nat) (f : Group → Group) : (modGroup s g f).flash = s.flash := by unfold modGroup; split <;> rfl
@[simp] theorem modGroup_sites (s : State) (g : Nat) (f : Group → Group) : (modGroup s g f).sites = s.sites := by unfold modGroup; split <;> rfl
@[simp] theorem modGroup_chans (s : State) (g : Nat) (f : Group → Group) : (modGroup s g f).chans = s.chans := by unfold modGroup; split <;> rfl
@[simp] theorem modGroup_links (s : State) (g : Nat) (f : Group → Group) : (modGroup s g f).links = s.links := by unfold modGroup; split <;> rfl
@[simp] theorem modGroup_pipes (s : State) (g : Nat) (f : Group → Group) : (modGroup s g f).pipes = s.pipes := by unfold modGroup; split <;> rfl
@[simp] theorem modGroup_jtagCells (s : State) (g : Nat) (f : Group → Group) : (modGroup s g f).jtagCells = s.jtagCells := by unfold modGroup; split <;> rfl
@[simp] theorem modGroup_jtagMode (s : State) (g : Nat) (f : Group → Group) : (modGroup s g f).jtagMode = s.jtagMode := by unfold modGroup; split <;> rfl
@[simp] theorem modGroup_work (s : State) (g : Nat) (f : Group → Group) : (modGroup s g f).work = s.work := by unfold modGroup; split <;> rfl
@[simp] theorem modGroup_cyc (s : State) (g : Nat) (f : Group → Group) : (modGroup s g f).cyc = s.cyc := by unfold modGroup; split <;> rfl

/-! ## modPipe -/

@[simp] theorem modPipe_pending (s : State) (k : Nat) (g : Pipe → Pipe) : (modPipe s k g).pending = s.pending := rfl
@[simp] theorem modPipe_now (s : State) (k : Nat) (g : Pipe → Pipe) : (modPipe s k g).now = s.now := rfl
@[simp] theorem modPipe_freeCtr (s : State) (k : Nat) (g : Pipe → Pipe) : (modPipe s k g).freeCtr = s.freeCtr := rfl
@[simp] theorem modPipe_population (s : State) (k : Nat) (g : Pipe → Pipe) : (modPipe s k g).population = s.population := rfl
@[simp] theorem modPipe_pins (s : State) (k : Nat) (g : Pipe → Pipe) : (modPipe s k g).pins = s.pins := rfl
@[simp] theorem modPipe_indexOk (s : State) (k : Nat) (g : Pipe → Pipe) : (modPipe s k g).indexOk = s.indexOk := rfl
@[simp] theorem modPipe_index (s : State) (k : Nat) (g : Pipe → Pipe) : (modPipe s k g).index = s.index := rfl
@[simp] theorem modPipe_training (s : State) (k : Nat) (g : Pipe → Pipe) : (modPipe s k g).training = s.training := rfl
@[simp] theorem modPipe_board (s : State) (k : Nat) (g : Pipe → Pipe) : (modPipe s k g).board = s.board := rfl
@[simp] theorem modPipe_lpSites (s : State) (k : Nat) (g : Pipe → Pipe) : (modPipe s k g).lpSites = s.lpSites := rfl
@[simp] theorem modPipe_lpRate (s : State) (k : Nat) (g : Pipe → Pipe) : (modPipe s k g).lpRate = s.lpRate := rfl
@[simp] theorem modPipe_lpMib (s : State) (k : Nat) (g : Pipe → Pipe) : (modPipe s k g).lpMib = s.lpMib := rfl
@[simp] theorem modPipe_fns (s : State) (k : Nat) (g : Pipe → Pipe) : (modPipe s k g).fns = s.fns := rfl
@[simp] theorem modPipe_pcie (s : State) (k : Nat) (g : Pipe → Pipe) : (modPipe s k g).pcie = s.pcie := rfl
@[simp] theorem modPipe_emitted (s : State) (k : Nat) (g : Pipe → Pipe) : (modPipe s k g).emitted = s.emitted := rfl
@[simp] theorem modPipe_deferred (s : State) (k : Nat) (g : Pipe → Pipe) : (modPipe s k g).deferred = s.deferred := rfl
@[simp] theorem modPipe_held (s : State) (k : Nat) (g : Pipe → Pipe) : (modPipe s k g).held = s.held := rfl
@[simp] theorem modPipe_out (s : State) (k : Nat) (g : Pipe → Pipe) : (modPipe s k g).out = s.out := rfl
@[simp] theorem modPipe_lastRel (s : State) (k : Nat) (g : Pipe → Pipe) : (modPipe s k g).lastRel = s.lastRel := rfl
@[simp] theorem modPipe_sec (s : State) (k : Nat) (g : Pipe → Pipe) : (modPipe s k g).sec = s.sec := rfl
@[simp] theorem modPipe_nvm (s : State) (k : Nat) (g : Pipe → Pipe) : (modPipe s k g).nvm = s.nvm := rfl
@[simp] theorem modPipe_pwr (s : State) (k : Nat) (g : Pipe → Pipe) : (modPipe s k g).pwr = s.pwr := rfl
@[simp] theorem modPipe_health (s : State) (k : Nat) (g : Pipe → Pipe) : (modPipe s k g).health = s.health := rfl
@[simp] theorem modPipe_adv (s : State) (k : Nat) (g : Pipe → Pipe) : (modPipe s k g).adv = s.adv := rfl
@[simp] theorem modPipe_planned (s : State) (k : Nat) (g : Pipe → Pipe) : (modPipe s k g).planned = s.planned := rfl
@[simp] theorem modPipe_dists (s : State) (k : Nat) (g : Pipe → Pipe) : (modPipe s k g).dists = s.dists := rfl
@[simp] theorem modPipe_backs (s : State) (k : Nat) (g : Pipe → Pipe) : (modPipe s k g).backs = s.backs := rfl
@[simp] theorem modPipe_nextBid (s : State) (k : Nat) (g : Pipe → Pipe) : (modPipe s k g).nextBid = s.nextBid := rfl
@[simp] theorem modPipe_nextSig (s : State) (k : Nat) (g : Pipe → Pipe) : (modPipe s k g).nextSig = s.nextSig := rfl
@[simp] theorem modPipe_flash (s : State) (k : Nat) (g : Pipe → Pipe) : (modPipe s k g).flash = s.flash := rfl
@[simp] theorem modPipe_sites (s : State) (k : Nat) (g : Pipe → Pipe) : (modPipe s k g).sites = s.sites := rfl
@[simp] theorem modPipe_chans (s : State) (k : Nat) (g : Pipe → Pipe) : (modPipe s k g).chans = s.chans := rfl
@[simp] theorem modPipe_links (s : State) (k : Nat) (g : Pipe → Pipe) : (modPipe s k g).links = s.links := rfl
@[simp] theorem modPipe_groups (s : State) (k : Nat) (g : Pipe → Pipe) : (modPipe s k g).groups = s.groups := rfl
@[simp] theorem modPipe_jtagCells (s : State) (k : Nat) (g : Pipe → Pipe) : (modPipe s k g).jtagCells = s.jtagCells := rfl
@[simp] theorem modPipe_jtagMode (s : State) (k : Nat) (g : Pipe → Pipe) : (modPipe s k g).jtagMode = s.jtagMode := rfl
@[simp] theorem modPipe_work (s : State) (k : Nat) (g : Pipe → Pipe) : (modPipe s k g).work = s.work := rfl
@[simp] theorem modPipe_cyc (s : State) (k : Nat) (g : Pipe → Pipe) : (modPipe s k g).cyc = s.cyc := rfl

/-! ## modGate -/

@[simp] theorem modGate_pending (s : State) (d : Nat) (g : Gate → Gate) : (modGate s d g).pending = s.pending := rfl
@[simp] theorem modGate_now (s : State) (d : Nat) (g : Gate → Gate) : (modGate s d g).now = s.now := rfl
@[simp] theorem modGate_freeCtr (s : State) (d : Nat) (g : Gate → Gate) : (modGate s d g).freeCtr = s.freeCtr := rfl
@[simp] theorem modGate_population (s : State) (d : Nat) (g : Gate → Gate) : (modGate s d g).population = s.population := rfl
@[simp] theorem modGate_pins (s : State) (d : Nat) (g : Gate → Gate) : (modGate s d g).pins = s.pins := rfl
@[simp] theorem modGate_indexOk (s : State) (d : Nat) (g : Gate → Gate) : (modGate s d g).indexOk = s.indexOk := rfl
@[simp] theorem modGate_index (s : State) (d : Nat) (g : Gate → Gate) : (modGate s d g).index = s.index := rfl
@[simp] theorem modGate_training (s : State) (d : Nat) (g : Gate → Gate) : (modGate s d g).training = s.training := rfl
@[simp] theorem modGate_board (s : State) (d : Nat) (g : Gate → Gate) : (modGate s d g).board = s.board := rfl
@[simp] theorem modGate_lpSites (s : State) (d : Nat) (g : Gate → Gate) : (modGate s d g).lpSites = s.lpSites := rfl
@[simp] theorem modGate_lpRate (s : State) (d : Nat) (g : Gate → Gate) : (modGate s d g).lpRate = s.lpRate := rfl
@[simp] theorem modGate_lpMib (s : State) (d : Nat) (g : Gate → Gate) : (modGate s d g).lpMib = s.lpMib := rfl
@[simp] theorem modGate_fns (s : State) (d : Nat) (g : Gate → Gate) : (modGate s d g).fns = s.fns := rfl
@[simp] theorem modGate_pcie (s : State) (d : Nat) (g : Gate → Gate) : (modGate s d g).pcie = s.pcie := rfl
@[simp] theorem modGate_emitted (s : State) (d : Nat) (g : Gate → Gate) : (modGate s d g).emitted = s.emitted := rfl
@[simp] theorem modGate_deferred (s : State) (d : Nat) (g : Gate → Gate) : (modGate s d g).deferred = s.deferred := rfl
@[simp] theorem modGate_held (s : State) (d : Nat) (g : Gate → Gate) : (modGate s d g).held = s.held := rfl
@[simp] theorem modGate_out (s : State) (d : Nat) (g : Gate → Gate) : (modGate s d g).out = s.out := rfl
@[simp] theorem modGate_lastRel (s : State) (d : Nat) (g : Gate → Gate) : (modGate s d g).lastRel = s.lastRel := rfl
@[simp] theorem modGate_sec (s : State) (d : Nat) (g : Gate → Gate) : (modGate s d g).sec = s.sec := rfl
@[simp] theorem modGate_nvm (s : State) (d : Nat) (g : Gate → Gate) : (modGate s d g).nvm = s.nvm := rfl
@[simp] theorem modGate_pwr (s : State) (d : Nat) (g : Gate → Gate) : (modGate s d g).pwr = s.pwr := rfl
@[simp] theorem modGate_health (s : State) (d : Nat) (g : Gate → Gate) : (modGate s d g).health = s.health := rfl
@[simp] theorem modGate_adv (s : State) (d : Nat) (g : Gate → Gate) : (modGate s d g).adv = s.adv := rfl
@[simp] theorem modGate_planned (s : State) (d : Nat) (g : Gate → Gate) : (modGate s d g).planned = s.planned := rfl
@[simp] theorem modGate_backs (s : State) (d : Nat) (g : Gate → Gate) : (modGate s d g).backs = s.backs := rfl
@[simp] theorem modGate_nextBid (s : State) (d : Nat) (g : Gate → Gate) : (modGate s d g).nextBid = s.nextBid := rfl
@[simp] theorem modGate_nextSig (s : State) (d : Nat) (g : Gate → Gate) : (modGate s d g).nextSig = s.nextSig := rfl
@[simp] theorem modGate_flash (s : State) (d : Nat) (g : Gate → Gate) : (modGate s d g).flash = s.flash := rfl
@[simp] theorem modGate_sites (s : State) (d : Nat) (g : Gate → Gate) : (modGate s d g).sites = s.sites := rfl
@[simp] theorem modGate_chans (s : State) (d : Nat) (g : Gate → Gate) : (modGate s d g).chans = s.chans := rfl
@[simp] theorem modGate_links (s : State) (d : Nat) (g : Gate → Gate) : (modGate s d g).links = s.links := rfl
@[simp] theorem modGate_groups (s : State) (d : Nat) (g : Gate → Gate) : (modGate s d g).groups = s.groups := rfl
@[simp] theorem modGate_pipes (s : State) (d : Nat) (g : Gate → Gate) : (modGate s d g).pipes = s.pipes := rfl
@[simp] theorem modGate_jtagCells (s : State) (d : Nat) (g : Gate → Gate) : (modGate s d g).jtagCells = s.jtagCells := rfl
@[simp] theorem modGate_jtagMode (s : State) (d : Nat) (g : Gate → Gate) : (modGate s d g).jtagMode = s.jtagMode := rfl
@[simp] theorem modGate_work (s : State) (d : Nat) (g : Gate → Gate) : (modGate s d g).work = s.work := rfl
@[simp] theorem modGate_cyc (s : State) (d : Nat) (g : Gate → Gate) : (modGate s d g).cyc = s.cyc := rfl

/-! ## modPool -/

@[simp] theorem modPool_pending (s : State) (d : Nat) (g : Pool → Pool) : (modPool s d g).pending = s.pending := rfl
@[simp] theorem modPool_now (s : State) (d : Nat) (g : Pool → Pool) : (modPool s d g).now = s.now := rfl
@[simp] theorem modPool_freeCtr (s : State) (d : Nat) (g : Pool → Pool) : (modPool s d g).freeCtr = s.freeCtr := rfl
@[simp] theorem modPool_population (s : State) (d : Nat) (g : Pool → Pool) : (modPool s d g).population = s.population := rfl
@[simp] theorem modPool_pins (s : State) (d : Nat) (g : Pool → Pool) : (modPool s d g).pins = s.pins := rfl
@[simp] theorem modPool_indexOk (s : State) (d : Nat) (g : Pool → Pool) : (modPool s d g).indexOk = s.indexOk := rfl
@[simp] theorem modPool_index (s : State) (d : Nat) (g : Pool → Pool) : (modPool s d g).index = s.index := rfl
@[simp] theorem modPool_training (s : State) (d : Nat) (g : Pool → Pool) : (modPool s d g).training = s.training := rfl
@[simp] theorem modPool_board (s : State) (d : Nat) (g : Pool → Pool) : (modPool s d g).board = s.board := rfl
@[simp] theorem modPool_lpSites (s : State) (d : Nat) (g : Pool → Pool) : (modPool s d g).lpSites = s.lpSites := rfl
@[simp] theorem modPool_lpRate (s : State) (d : Nat) (g : Pool → Pool) : (modPool s d g).lpRate = s.lpRate := rfl
@[simp] theorem modPool_lpMib (s : State) (d : Nat) (g : Pool → Pool) : (modPool s d g).lpMib = s.lpMib := rfl
@[simp] theorem modPool_fns (s : State) (d : Nat) (g : Pool → Pool) : (modPool s d g).fns = s.fns := rfl
@[simp] theorem modPool_pcie (s : State) (d : Nat) (g : Pool → Pool) : (modPool s d g).pcie = s.pcie := rfl
@[simp] theorem modPool_emitted (s : State) (d : Nat) (g : Pool → Pool) : (modPool s d g).emitted = s.emitted := rfl
@[simp] theorem modPool_deferred (s : State) (d : Nat) (g : Pool → Pool) : (modPool s d g).deferred = s.deferred := rfl
@[simp] theorem modPool_held (s : State) (d : Nat) (g : Pool → Pool) : (modPool s d g).held = s.held := rfl
@[simp] theorem modPool_out (s : State) (d : Nat) (g : Pool → Pool) : (modPool s d g).out = s.out := rfl
@[simp] theorem modPool_lastRel (s : State) (d : Nat) (g : Pool → Pool) : (modPool s d g).lastRel = s.lastRel := rfl
@[simp] theorem modPool_sec (s : State) (d : Nat) (g : Pool → Pool) : (modPool s d g).sec = s.sec := rfl
@[simp] theorem modPool_nvm (s : State) (d : Nat) (g : Pool → Pool) : (modPool s d g).nvm = s.nvm := rfl
@[simp] theorem modPool_pwr (s : State) (d : Nat) (g : Pool → Pool) : (modPool s d g).pwr = s.pwr := rfl
@[simp] theorem modPool_health (s : State) (d : Nat) (g : Pool → Pool) : (modPool s d g).health = s.health := rfl
@[simp] theorem modPool_adv (s : State) (d : Nat) (g : Pool → Pool) : (modPool s d g).adv = s.adv := rfl
@[simp] theorem modPool_planned (s : State) (d : Nat) (g : Pool → Pool) : (modPool s d g).planned = s.planned := rfl
@[simp] theorem modPool_backs (s : State) (d : Nat) (g : Pool → Pool) : (modPool s d g).backs = s.backs := rfl
@[simp] theorem modPool_nextBid (s : State) (d : Nat) (g : Pool → Pool) : (modPool s d g).nextBid = s.nextBid := rfl
@[simp] theorem modPool_nextSig (s : State) (d : Nat) (g : Pool → Pool) : (modPool s d g).nextSig = s.nextSig := rfl
@[simp] theorem modPool_flash (s : State) (d : Nat) (g : Pool → Pool) : (modPool s d g).flash = s.flash := rfl
@[simp] theorem modPool_sites (s : State) (d : Nat) (g : Pool → Pool) : (modPool s d g).sites = s.sites := rfl
@[simp] theorem modPool_chans (s : State) (d : Nat) (g : Pool → Pool) : (modPool s d g).chans = s.chans := rfl
@[simp] theorem modPool_links (s : State) (d : Nat) (g : Pool → Pool) : (modPool s d g).links = s.links := rfl
@[simp] theorem modPool_groups (s : State) (d : Nat) (g : Pool → Pool) : (modPool s d g).groups = s.groups := rfl
@[simp] theorem modPool_pipes (s : State) (d : Nat) (g : Pool → Pool) : (modPool s d g).pipes = s.pipes := rfl
@[simp] theorem modPool_jtagCells (s : State) (d : Nat) (g : Pool → Pool) : (modPool s d g).jtagCells = s.jtagCells := rfl
@[simp] theorem modPool_jtagMode (s : State) (d : Nat) (g : Pool → Pool) : (modPool s d g).jtagMode = s.jtagMode := rfl
@[simp] theorem modPool_work (s : State) (d : Nat) (g : Pool → Pool) : (modPool s d g).work = s.work := rfl
@[simp] theorem modPool_cyc (s : State) (d : Nat) (g : Pool → Pool) : (modPool s d g).cyc = s.cyc := rfl

/-! ## modSnap -/

@[simp] theorem modSnap_pending (s : State) (d : Nat) (f : Snap → Snap) : (modSnap s d f).pending = s.pending := rfl
@[simp] theorem modSnap_now (s : State) (d : Nat) (f : Snap → Snap) : (modSnap s d f).now = s.now := rfl
@[simp] theorem modSnap_freeCtr (s : State) (d : Nat) (f : Snap → Snap) : (modSnap s d f).freeCtr = s.freeCtr := rfl
@[simp] theorem modSnap_population (s : State) (d : Nat) (f : Snap → Snap) : (modSnap s d f).population = s.population := rfl
@[simp] theorem modSnap_pins (s : State) (d : Nat) (f : Snap → Snap) : (modSnap s d f).pins = s.pins := rfl
@[simp] theorem modSnap_indexOk (s : State) (d : Nat) (f : Snap → Snap) : (modSnap s d f).indexOk = s.indexOk := rfl
@[simp] theorem modSnap_index (s : State) (d : Nat) (f : Snap → Snap) : (modSnap s d f).index = s.index := rfl
@[simp] theorem modSnap_training (s : State) (d : Nat) (f : Snap → Snap) : (modSnap s d f).training = s.training := rfl
@[simp] theorem modSnap_board (s : State) (d : Nat) (f : Snap → Snap) : (modSnap s d f).board = s.board := rfl
@[simp] theorem modSnap_lpSites (s : State) (d : Nat) (f : Snap → Snap) : (modSnap s d f).lpSites = s.lpSites := rfl
@[simp] theorem modSnap_lpRate (s : State) (d : Nat) (f : Snap → Snap) : (modSnap s d f).lpRate = s.lpRate := rfl
@[simp] theorem modSnap_lpMib (s : State) (d : Nat) (f : Snap → Snap) : (modSnap s d f).lpMib = s.lpMib := rfl
@[simp] theorem modSnap_fns (s : State) (d : Nat) (f : Snap → Snap) : (modSnap s d f).fns = s.fns := rfl
@[simp] theorem modSnap_pcie (s : State) (d : Nat) (f : Snap → Snap) : (modSnap s d f).pcie = s.pcie := rfl
@[simp] theorem modSnap_emitted (s : State) (d : Nat) (f : Snap → Snap) : (modSnap s d f).emitted = s.emitted := rfl
@[simp] theorem modSnap_deferred (s : State) (d : Nat) (f : Snap → Snap) : (modSnap s d f).deferred = s.deferred := rfl
@[simp] theorem modSnap_held (s : State) (d : Nat) (f : Snap → Snap) : (modSnap s d f).held = s.held := rfl
@[simp] theorem modSnap_out (s : State) (d : Nat) (f : Snap → Snap) : (modSnap s d f).out = s.out := rfl
@[simp] theorem modSnap_lastRel (s : State) (d : Nat) (f : Snap → Snap) : (modSnap s d f).lastRel = s.lastRel := rfl
@[simp] theorem modSnap_sec (s : State) (d : Nat) (f : Snap → Snap) : (modSnap s d f).sec = s.sec := rfl
@[simp] theorem modSnap_nvm (s : State) (d : Nat) (f : Snap → Snap) : (modSnap s d f).nvm = s.nvm := rfl
@[simp] theorem modSnap_pwr (s : State) (d : Nat) (f : Snap → Snap) : (modSnap s d f).pwr = s.pwr := rfl
@[simp] theorem modSnap_health (s : State) (d : Nat) (f : Snap → Snap) : (modSnap s d f).health = s.health := rfl
@[simp] theorem modSnap_adv (s : State) (d : Nat) (f : Snap → Snap) : (modSnap s d f).adv = s.adv := rfl
@[simp] theorem modSnap_planned (s : State) (d : Nat) (f : Snap → Snap) : (modSnap s d f).planned = s.planned := rfl
@[simp] theorem modSnap_backs (s : State) (d : Nat) (f : Snap → Snap) : (modSnap s d f).backs = s.backs := rfl
@[simp] theorem modSnap_nextBid (s : State) (d : Nat) (f : Snap → Snap) : (modSnap s d f).nextBid = s.nextBid := rfl
@[simp] theorem modSnap_nextSig (s : State) (d : Nat) (f : Snap → Snap) : (modSnap s d f).nextSig = s.nextSig := rfl
@[simp] theorem modSnap_flash (s : State) (d : Nat) (f : Snap → Snap) : (modSnap s d f).flash = s.flash := rfl
@[simp] theorem modSnap_sites (s : State) (d : Nat) (f : Snap → Snap) : (modSnap s d f).sites = s.sites := rfl
@[simp] theorem modSnap_chans (s : State) (d : Nat) (f : Snap → Snap) : (modSnap s d f).chans = s.chans := rfl
@[simp] theorem modSnap_links (s : State) (d : Nat) (f : Snap → Snap) : (modSnap s d f).links = s.links := rfl
@[simp] theorem modSnap_groups (s : State) (d : Nat) (f : Snap → Snap) : (modSnap s d f).groups = s.groups := rfl
@[simp] theorem modSnap_pipes (s : State) (d : Nat) (f : Snap → Snap) : (modSnap s d f).pipes = s.pipes := rfl
@[simp] theorem modSnap_jtagCells (s : State) (d : Nat) (f : Snap → Snap) : (modSnap s d f).jtagCells = s.jtagCells := rfl
@[simp] theorem modSnap_jtagMode (s : State) (d : Nat) (f : Snap → Snap) : (modSnap s d f).jtagMode = s.jtagMode := rfl
@[simp] theorem modSnap_work (s : State) (d : Nat) (f : Snap → Snap) : (modSnap s d f).work = s.work := rfl
@[simp] theorem modSnap_cyc (s : State) (d : Nat) (f : Snap → Snap) : (modSnap s d f).cyc = s.cyc := rfl

/-! ## send -/

@[simp] theorem send_pending (s : State) (o : Out) : (send s o).pending = s.pending := rfl
@[simp] theorem send_now (s : State) (o : Out) : (send s o).now = s.now := rfl
@[simp] theorem send_freeCtr (s : State) (o : Out) : (send s o).freeCtr = s.freeCtr := rfl
@[simp] theorem send_population (s : State) (o : Out) : (send s o).population = s.population := rfl
@[simp] theorem send_pins (s : State) (o : Out) : (send s o).pins = s.pins := rfl
@[simp] theorem send_indexOk (s : State) (o : Out) : (send s o).indexOk = s.indexOk := rfl
@[simp] theorem send_index (s : State) (o : Out) : (send s o).index = s.index := rfl
@[simp] theorem send_training (s : State) (o : Out) : (send s o).training = s.training := rfl
@[simp] theorem send_board (s : State) (o : Out) : (send s o).board = s.board := rfl
@[simp] theorem send_lpSites (s : State) (o : Out) : (send s o).lpSites = s.lpSites := rfl
@[simp] theorem send_lpRate (s : State) (o : Out) : (send s o).lpRate = s.lpRate := rfl
@[simp] theorem send_lpMib (s : State) (o : Out) : (send s o).lpMib = s.lpMib := rfl
@[simp] theorem send_fns (s : State) (o : Out) : (send s o).fns = s.fns := rfl
@[simp] theorem send_pcie (s : State) (o : Out) : (send s o).pcie = s.pcie := rfl
@[simp] theorem send_emitted (s : State) (o : Out) : (send s o).emitted = s.emitted := rfl
@[simp] theorem send_deferred (s : State) (o : Out) : (send s o).deferred = s.deferred := rfl
@[simp] theorem send_held (s : State) (o : Out) : (send s o).held = s.held := rfl
@[simp] theorem send_lastRel (s : State) (o : Out) : (send s o).lastRel = s.lastRel := rfl
@[simp] theorem send_sec (s : State) (o : Out) : (send s o).sec = s.sec := rfl
@[simp] theorem send_nvm (s : State) (o : Out) : (send s o).nvm = s.nvm := rfl
@[simp] theorem send_pwr (s : State) (o : Out) : (send s o).pwr = s.pwr := rfl
@[simp] theorem send_health (s : State) (o : Out) : (send s o).health = s.health := rfl
@[simp] theorem send_adv (s : State) (o : Out) : (send s o).adv = s.adv := rfl
@[simp] theorem send_planned (s : State) (o : Out) : (send s o).planned = s.planned := rfl
@[simp] theorem send_dists (s : State) (o : Out) : (send s o).dists = s.dists := rfl
@[simp] theorem send_backs (s : State) (o : Out) : (send s o).backs = s.backs := rfl
@[simp] theorem send_nextBid (s : State) (o : Out) : (send s o).nextBid = s.nextBid := rfl
@[simp] theorem send_nextSig (s : State) (o : Out) : (send s o).nextSig = s.nextSig := rfl
@[simp] theorem send_flash (s : State) (o : Out) : (send s o).flash = s.flash := rfl
@[simp] theorem send_sites (s : State) (o : Out) : (send s o).sites = s.sites := rfl
@[simp] theorem send_chans (s : State) (o : Out) : (send s o).chans = s.chans := rfl
@[simp] theorem send_links (s : State) (o : Out) : (send s o).links = s.links := rfl
@[simp] theorem send_groups (s : State) (o : Out) : (send s o).groups = s.groups := rfl
@[simp] theorem send_pipes (s : State) (o : Out) : (send s o).pipes = s.pipes := rfl
@[simp] theorem send_jtagCells (s : State) (o : Out) : (send s o).jtagCells = s.jtagCells := rfl
@[simp] theorem send_jtagMode (s : State) (o : Out) : (send s o).jtagMode = s.jtagMode := rfl
@[simp] theorem send_work (s : State) (o : Out) : (send s o).work = s.work := rfl
@[simp] theorem send_cyc (s : State) (o : Out) : (send s o).cyc = s.cyc := rfl

/-! ## emitLater -/

@[simp] theorem emitLater_pending (s : State) (source kind sev district : Nat) (payload : List Nat) : (emitLater s source kind sev district payload).pending = s.pending := rfl
@[simp] theorem emitLater_now (s : State) (source kind sev district : Nat) (payload : List Nat) : (emitLater s source kind sev district payload).now = s.now := rfl
@[simp] theorem emitLater_freeCtr (s : State) (source kind sev district : Nat) (payload : List Nat) : (emitLater s source kind sev district payload).freeCtr = s.freeCtr := rfl
@[simp] theorem emitLater_population (s : State) (source kind sev district : Nat) (payload : List Nat) : (emitLater s source kind sev district payload).population = s.population := rfl
@[simp] theorem emitLater_pins (s : State) (source kind sev district : Nat) (payload : List Nat) : (emitLater s source kind sev district payload).pins = s.pins := rfl
@[simp] theorem emitLater_indexOk (s : State) (source kind sev district : Nat) (payload : List Nat) : (emitLater s source kind sev district payload).indexOk = s.indexOk := rfl
@[simp] theorem emitLater_index (s : State) (source kind sev district : Nat) (payload : List Nat) : (emitLater s source kind sev district payload).index = s.index := rfl
@[simp] theorem emitLater_training (s : State) (source kind sev district : Nat) (payload : List Nat) : (emitLater s source kind sev district payload).training = s.training := rfl
@[simp] theorem emitLater_board (s : State) (source kind sev district : Nat) (payload : List Nat) : (emitLater s source kind sev district payload).board = s.board := rfl
@[simp] theorem emitLater_lpSites (s : State) (source kind sev district : Nat) (payload : List Nat) : (emitLater s source kind sev district payload).lpSites = s.lpSites := rfl
@[simp] theorem emitLater_lpRate (s : State) (source kind sev district : Nat) (payload : List Nat) : (emitLater s source kind sev district payload).lpRate = s.lpRate := rfl
@[simp] theorem emitLater_lpMib (s : State) (source kind sev district : Nat) (payload : List Nat) : (emitLater s source kind sev district payload).lpMib = s.lpMib := rfl
@[simp] theorem emitLater_fns (s : State) (source kind sev district : Nat) (payload : List Nat) : (emitLater s source kind sev district payload).fns = s.fns := rfl
@[simp] theorem emitLater_pcie (s : State) (source kind sev district : Nat) (payload : List Nat) : (emitLater s source kind sev district payload).pcie = s.pcie := rfl
@[simp] theorem emitLater_emitted (s : State) (source kind sev district : Nat) (payload : List Nat) : (emitLater s source kind sev district payload).emitted = s.emitted := rfl
@[simp] theorem emitLater_held (s : State) (source kind sev district : Nat) (payload : List Nat) : (emitLater s source kind sev district payload).held = s.held := rfl
@[simp] theorem emitLater_out (s : State) (source kind sev district : Nat) (payload : List Nat) : (emitLater s source kind sev district payload).out = s.out := rfl
@[simp] theorem emitLater_lastRel (s : State) (source kind sev district : Nat) (payload : List Nat) : (emitLater s source kind sev district payload).lastRel = s.lastRel := rfl
@[simp] theorem emitLater_sec (s : State) (source kind sev district : Nat) (payload : List Nat) : (emitLater s source kind sev district payload).sec = s.sec := rfl
@[simp] theorem emitLater_nvm (s : State) (source kind sev district : Nat) (payload : List Nat) : (emitLater s source kind sev district payload).nvm = s.nvm := rfl
@[simp] theorem emitLater_pwr (s : State) (source kind sev district : Nat) (payload : List Nat) : (emitLater s source kind sev district payload).pwr = s.pwr := rfl
@[simp] theorem emitLater_health (s : State) (source kind sev district : Nat) (payload : List Nat) : (emitLater s source kind sev district payload).health = s.health := rfl
@[simp] theorem emitLater_adv (s : State) (source kind sev district : Nat) (payload : List Nat) : (emitLater s source kind sev district payload).adv = s.adv := rfl
@[simp] theorem emitLater_planned (s : State) (source kind sev district : Nat) (payload : List Nat) : (emitLater s source kind sev district payload).planned = s.planned := rfl
@[simp] theorem emitLater_dists (s : State) (source kind sev district : Nat) (payload : List Nat) : (emitLater s source kind sev district payload).dists = s.dists := rfl
@[simp] theorem emitLater_backs (s : State) (source kind sev district : Nat) (payload : List Nat) : (emitLater s source kind sev district payload).backs = s.backs := rfl
@[simp] theorem emitLater_nextBid (s : State) (source kind sev district : Nat) (payload : List Nat) : (emitLater s source kind sev district payload).nextBid = s.nextBid := rfl
@[simp] theorem emitLater_nextSig (s : State) (source kind sev district : Nat) (payload : List Nat) : (emitLater s source kind sev district payload).nextSig = s.nextSig := rfl
@[simp] theorem emitLater_flash (s : State) (source kind sev district : Nat) (payload : List Nat) : (emitLater s source kind sev district payload).flash = s.flash := rfl
@[simp] theorem emitLater_sites (s : State) (source kind sev district : Nat) (payload : List Nat) : (emitLater s source kind sev district payload).sites = s.sites := rfl
@[simp] theorem emitLater_chans (s : State) (source kind sev district : Nat) (payload : List Nat) : (emitLater s source kind sev district payload).chans = s.chans := rfl
@[simp] theorem emitLater_links (s : State) (source kind sev district : Nat) (payload : List Nat) : (emitLater s source kind sev district payload).links = s.links := rfl
@[simp] theorem emitLater_groups (s : State) (source kind sev district : Nat) (payload : List Nat) : (emitLater s source kind sev district payload).groups = s.groups := rfl
@[simp] theorem emitLater_pipes (s : State) (source kind sev district : Nat) (payload : List Nat) : (emitLater s source kind sev district payload).pipes = s.pipes := rfl
@[simp] theorem emitLater_jtagCells (s : State) (source kind sev district : Nat) (payload : List Nat) : (emitLater s source kind sev district payload).jtagCells = s.jtagCells := rfl
@[simp] theorem emitLater_jtagMode (s : State) (source kind sev district : Nat) (payload : List Nat) : (emitLater s source kind sev district payload).jtagMode = s.jtagMode := rfl
@[simp] theorem emitLater_work (s : State) (source kind sev district : Nat) (payload : List Nat) : (emitLater s source kind sev district payload).work = s.work := rfl
@[simp] theorem emitLater_cyc (s : State) (source kind sev district : Nat) (payload : List Nat) : (emitLater s source kind sev district payload).cyc = s.cyc := rfl

/-! ## setFlag -/

@[simp] theorem setFlag_pending (s : State) (f i : Nat) : (setFlag s f i).pending = s.pending := by unfold setFlag; split <;> rfl
@[simp] theorem setFlag_now (s : State) (f i : Nat) : (setFlag s f i).now = s.now := by unfold setFlag; split <;> rfl
@[simp] theorem setFlag_freeCtr (s : State) (f i : Nat) : (setFlag s f i).freeCtr = s.freeCtr := by unfold setFlag; split <;> rfl
@[simp] theorem setFlag_population (s : State) (f i : Nat) : (setFlag s f i).population = s.population := by unfold setFlag; split <;> rfl
@[simp] theorem setFlag_pins (s : State) (f i : Nat) : (setFlag s f i).pins = s.pins := by unfold setFlag; split <;> rfl
@[simp] theorem setFlag_indexOk (s : State) (f i : Nat) : (setFlag s f i).indexOk = s.indexOk := by unfold setFlag; split <;> rfl
@[simp] theorem setFlag_index (s : State) (f i : Nat) : (setFlag s f i).index = s.index := by unfold setFlag; split <;> rfl
@[simp] theorem setFlag_training (s : State) (f i : Nat) : (setFlag s f i).training = s.training := by unfold setFlag; split <;> rfl
@[simp] theorem setFlag_board (s : State) (f i : Nat) : (setFlag s f i).board = s.board := by unfold setFlag; split <;> rfl
@[simp] theorem setFlag_lpSites (s : State) (f i : Nat) : (setFlag s f i).lpSites = s.lpSites := by unfold setFlag; split <;> rfl
@[simp] theorem setFlag_lpRate (s : State) (f i : Nat) : (setFlag s f i).lpRate = s.lpRate := by unfold setFlag; split <;> rfl
@[simp] theorem setFlag_lpMib (s : State) (f i : Nat) : (setFlag s f i).lpMib = s.lpMib := by unfold setFlag; split <;> rfl
@[simp] theorem setFlag_pcie (s : State) (f i : Nat) : (setFlag s f i).pcie = s.pcie := by unfold setFlag; split <;> rfl
@[simp] theorem setFlag_emitted (s : State) (f i : Nat) : (setFlag s f i).emitted = s.emitted := by unfold setFlag; split <;> rfl
@[simp] theorem setFlag_deferred (s : State) (f i : Nat) : (setFlag s f i).deferred = s.deferred := by unfold setFlag; split <;> rfl
@[simp] theorem setFlag_held (s : State) (f i : Nat) : (setFlag s f i).held = s.held := by unfold setFlag; split <;> rfl
@[simp] theorem setFlag_out (s : State) (f i : Nat) : (setFlag s f i).out = s.out := by unfold setFlag; split <;> rfl
@[simp] theorem setFlag_lastRel (s : State) (f i : Nat) : (setFlag s f i).lastRel = s.lastRel := by unfold setFlag; split <;> rfl
@[simp] theorem setFlag_sec (s : State) (f i : Nat) : (setFlag s f i).sec = s.sec := by unfold setFlag; split <;> rfl
@[simp] theorem setFlag_nvm (s : State) (f i : Nat) : (setFlag s f i).nvm = s.nvm := by unfold setFlag; split <;> rfl
@[simp] theorem setFlag_pwr (s : State) (f i : Nat) : (setFlag s f i).pwr = s.pwr := by unfold setFlag; split <;> rfl
@[simp] theorem setFlag_health (s : State) (f i : Nat) : (setFlag s f i).health = s.health := by unfold setFlag; split <;> rfl
@[simp] theorem setFlag_adv (s : State) (f i : Nat) : (setFlag s f i).adv = s.adv := by unfold setFlag; split <;> rfl
@[simp] theorem setFlag_planned (s : State) (f i : Nat) : (setFlag s f i).planned = s.planned := by unfold setFlag; split <;> rfl
@[simp] theorem setFlag_dists (s : State) (f i : Nat) : (setFlag s f i).dists = s.dists := by unfold setFlag; split <;> rfl
@[simp] theorem setFlag_backs (s : State) (f i : Nat) : (setFlag s f i).backs = s.backs := by unfold setFlag; split <;> rfl
@[simp] theorem setFlag_nextBid (s : State) (f i : Nat) : (setFlag s f i).nextBid = s.nextBid := by unfold setFlag; split <;> rfl
@[simp] theorem setFlag_nextSig (s : State) (f i : Nat) : (setFlag s f i).nextSig = s.nextSig := by unfold setFlag; split <;> rfl
@[simp] theorem setFlag_flash (s : State) (f i : Nat) : (setFlag s f i).flash = s.flash := by unfold setFlag; split <;> rfl
@[simp] theorem setFlag_sites (s : State) (f i : Nat) : (setFlag s f i).sites = s.sites := by unfold setFlag; split <;> rfl
@[simp] theorem setFlag_chans (s : State) (f i : Nat) : (setFlag s f i).chans = s.chans := by unfold setFlag; split <;> rfl
@[simp] theorem setFlag_links (s : State) (f i : Nat) : (setFlag s f i).links = s.links := by unfold setFlag; split <;> rfl
@[simp] theorem setFlag_groups (s : State) (f i : Nat) : (setFlag s f i).groups = s.groups := by unfold setFlag; split <;> rfl
@[simp] theorem setFlag_pipes (s : State) (f i : Nat) : (setFlag s f i).pipes = s.pipes := by unfold setFlag; split <;> rfl
@[simp] theorem setFlag_jtagCells (s : State) (f i : Nat) : (setFlag s f i).jtagCells = s.jtagCells := by unfold setFlag; split <;> rfl
@[simp] theorem setFlag_jtagMode (s : State) (f i : Nat) : (setFlag s f i).jtagMode = s.jtagMode := by unfold setFlag; split <;> rfl
@[simp] theorem setFlag_work (s : State) (f i : Nat) : (setFlag s f i).work = s.work := by unfold setFlag; split <;> rfl
@[simp] theorem setFlag_cyc (s : State) (f i : Nat) : (setFlag s f i).cyc = s.cyc := by unfold setFlag; split <;> rfl

/-! ## msix -/

@[simp] theorem msix_pending (s : State) (f vec : Nat) : (msix s f vec).pending = s.pending := by simp only [msix]; (repeat' split) <;> simp
@[simp] theorem msix_now (s : State) (f vec : Nat) : (msix s f vec).now = s.now := by simp only [msix]; (repeat' split) <;> simp
@[simp] theorem msix_freeCtr (s : State) (f vec : Nat) : (msix s f vec).freeCtr = s.freeCtr := by simp only [msix]; (repeat' split) <;> simp
@[simp] theorem msix_population (s : State) (f vec : Nat) : (msix s f vec).population = s.population := by simp only [msix]; (repeat' split) <;> simp
@[simp] theorem msix_pins (s : State) (f vec : Nat) : (msix s f vec).pins = s.pins := by simp only [msix]; (repeat' split) <;> simp
@[simp] theorem msix_indexOk (s : State) (f vec : Nat) : (msix s f vec).indexOk = s.indexOk := by simp only [msix]; (repeat' split) <;> simp
@[simp] theorem msix_index (s : State) (f vec : Nat) : (msix s f vec).index = s.index := by simp only [msix]; (repeat' split) <;> simp
@[simp] theorem msix_training (s : State) (f vec : Nat) : (msix s f vec).training = s.training := by simp only [msix]; (repeat' split) <;> simp
@[simp] theorem msix_board (s : State) (f vec : Nat) : (msix s f vec).board = s.board := by simp only [msix]; (repeat' split) <;> simp
@[simp] theorem msix_lpSites (s : State) (f vec : Nat) : (msix s f vec).lpSites = s.lpSites := by simp only [msix]; (repeat' split) <;> simp
@[simp] theorem msix_lpRate (s : State) (f vec : Nat) : (msix s f vec).lpRate = s.lpRate := by simp only [msix]; (repeat' split) <;> simp
@[simp] theorem msix_lpMib (s : State) (f vec : Nat) : (msix s f vec).lpMib = s.lpMib := by simp only [msix]; (repeat' split) <;> simp
@[simp] theorem msix_pcie (s : State) (f vec : Nat) : (msix s f vec).pcie = s.pcie := by simp only [msix]; (repeat' split) <;> simp
@[simp] theorem msix_emitted (s : State) (f vec : Nat) : (msix s f vec).emitted = s.emitted := by simp only [msix]; (repeat' split) <;> simp
@[simp] theorem msix_deferred (s : State) (f vec : Nat) : (msix s f vec).deferred = s.deferred := by simp only [msix]; (repeat' split) <;> simp
@[simp] theorem msix_held (s : State) (f vec : Nat) : (msix s f vec).held = s.held := by simp only [msix]; (repeat' split) <;> simp
@[simp] theorem msix_lastRel (s : State) (f vec : Nat) : (msix s f vec).lastRel = s.lastRel := by simp only [msix]; (repeat' split) <;> simp
@[simp] theorem msix_sec (s : State) (f vec : Nat) : (msix s f vec).sec = s.sec := by simp only [msix]; (repeat' split) <;> simp
@[simp] theorem msix_nvm (s : State) (f vec : Nat) : (msix s f vec).nvm = s.nvm := by simp only [msix]; (repeat' split) <;> simp
@[simp] theorem msix_pwr (s : State) (f vec : Nat) : (msix s f vec).pwr = s.pwr := by simp only [msix]; (repeat' split) <;> simp
@[simp] theorem msix_health (s : State) (f vec : Nat) : (msix s f vec).health = s.health := by simp only [msix]; (repeat' split) <;> simp
@[simp] theorem msix_adv (s : State) (f vec : Nat) : (msix s f vec).adv = s.adv := by simp only [msix]; (repeat' split) <;> simp
@[simp] theorem msix_planned (s : State) (f vec : Nat) : (msix s f vec).planned = s.planned := by simp only [msix]; (repeat' split) <;> simp
@[simp] theorem msix_dists (s : State) (f vec : Nat) : (msix s f vec).dists = s.dists := by simp only [msix]; (repeat' split) <;> simp
@[simp] theorem msix_backs (s : State) (f vec : Nat) : (msix s f vec).backs = s.backs := by simp only [msix]; (repeat' split) <;> simp
@[simp] theorem msix_nextBid (s : State) (f vec : Nat) : (msix s f vec).nextBid = s.nextBid := by simp only [msix]; (repeat' split) <;> simp
@[simp] theorem msix_nextSig (s : State) (f vec : Nat) : (msix s f vec).nextSig = s.nextSig := by simp only [msix]; (repeat' split) <;> simp
@[simp] theorem msix_flash (s : State) (f vec : Nat) : (msix s f vec).flash = s.flash := by simp only [msix]; (repeat' split) <;> simp
@[simp] theorem msix_sites (s : State) (f vec : Nat) : (msix s f vec).sites = s.sites := by simp only [msix]; (repeat' split) <;> simp
@[simp] theorem msix_chans (s : State) (f vec : Nat) : (msix s f vec).chans = s.chans := by simp only [msix]; (repeat' split) <;> simp
@[simp] theorem msix_links (s : State) (f vec : Nat) : (msix s f vec).links = s.links := by simp only [msix]; (repeat' split) <;> simp
@[simp] theorem msix_groups (s : State) (f vec : Nat) : (msix s f vec).groups = s.groups := by simp only [msix]; (repeat' split) <;> simp
@[simp] theorem msix_pipes (s : State) (f vec : Nat) : (msix s f vec).pipes = s.pipes := by simp only [msix]; (repeat' split) <;> simp
@[simp] theorem msix_jtagCells (s : State) (f vec : Nat) : (msix s f vec).jtagCells = s.jtagCells := by simp only [msix]; (repeat' split) <;> simp
@[simp] theorem msix_jtagMode (s : State) (f vec : Nat) : (msix s f vec).jtagMode = s.jtagMode := by simp only [msix]; (repeat' split) <;> simp
@[simp] theorem msix_work (s : State) (f vec : Nat) : (msix s f vec).work = s.work := by simp only [msix]; (repeat' split) <;> simp
@[simp] theorem msix_cyc (s : State) (f vec : Nat) : (msix s f vec).cyc = s.cyc := by simp only [msix]; (repeat' split) <;> simp

/-! ## raiseVec -/

@[simp] theorem raiseVec_pending (s : State) (f vec : Nat) : (raiseVec s f vec).pending = s.pending := by simp only [raiseVec]; (repeat' split) <;> simp
@[simp] theorem raiseVec_now (s : State) (f vec : Nat) : (raiseVec s f vec).now = s.now := by simp only [raiseVec]; (repeat' split) <;> simp
@[simp] theorem raiseVec_freeCtr (s : State) (f vec : Nat) : (raiseVec s f vec).freeCtr = s.freeCtr := by simp only [raiseVec]; (repeat' split) <;> simp
@[simp] theorem raiseVec_population (s : State) (f vec : Nat) : (raiseVec s f vec).population = s.population := by simp only [raiseVec]; (repeat' split) <;> simp
@[simp] theorem raiseVec_pins (s : State) (f vec : Nat) : (raiseVec s f vec).pins = s.pins := by simp only [raiseVec]; (repeat' split) <;> simp
@[simp] theorem raiseVec_indexOk (s : State) (f vec : Nat) : (raiseVec s f vec).indexOk = s.indexOk := by simp only [raiseVec]; (repeat' split) <;> simp
@[simp] theorem raiseVec_index (s : State) (f vec : Nat) : (raiseVec s f vec).index = s.index := by simp only [raiseVec]; (repeat' split) <;> simp
@[simp] theorem raiseVec_training (s : State) (f vec : Nat) : (raiseVec s f vec).training = s.training := by simp only [raiseVec]; (repeat' split) <;> simp
@[simp] theorem raiseVec_board (s : State) (f vec : Nat) : (raiseVec s f vec).board = s.board := by simp only [raiseVec]; (repeat' split) <;> simp
@[simp] theorem raiseVec_lpSites (s : State) (f vec : Nat) : (raiseVec s f vec).lpSites = s.lpSites := by simp only [raiseVec]; (repeat' split) <;> simp
@[simp] theorem raiseVec_lpRate (s : State) (f vec : Nat) : (raiseVec s f vec).lpRate = s.lpRate := by simp only [raiseVec]; (repeat' split) <;> simp
@[simp] theorem raiseVec_lpMib (s : State) (f vec : Nat) : (raiseVec s f vec).lpMib = s.lpMib := by simp only [raiseVec]; (repeat' split) <;> simp
@[simp] theorem raiseVec_pcie (s : State) (f vec : Nat) : (raiseVec s f vec).pcie = s.pcie := by simp only [raiseVec]; (repeat' split) <;> simp
@[simp] theorem raiseVec_emitted (s : State) (f vec : Nat) : (raiseVec s f vec).emitted = s.emitted := by simp only [raiseVec]; (repeat' split) <;> simp
@[simp] theorem raiseVec_deferred (s : State) (f vec : Nat) : (raiseVec s f vec).deferred = s.deferred := by simp only [raiseVec]; (repeat' split) <;> simp
@[simp] theorem raiseVec_held (s : State) (f vec : Nat) : (raiseVec s f vec).held = s.held := by simp only [raiseVec]; (repeat' split) <;> simp
@[simp] theorem raiseVec_lastRel (s : State) (f vec : Nat) : (raiseVec s f vec).lastRel = s.lastRel := by simp only [raiseVec]; (repeat' split) <;> simp
@[simp] theorem raiseVec_sec (s : State) (f vec : Nat) : (raiseVec s f vec).sec = s.sec := by simp only [raiseVec]; (repeat' split) <;> simp
@[simp] theorem raiseVec_nvm (s : State) (f vec : Nat) : (raiseVec s f vec).nvm = s.nvm := by simp only [raiseVec]; (repeat' split) <;> simp
@[simp] theorem raiseVec_pwr (s : State) (f vec : Nat) : (raiseVec s f vec).pwr = s.pwr := by simp only [raiseVec]; (repeat' split) <;> simp
@[simp] theorem raiseVec_health (s : State) (f vec : Nat) : (raiseVec s f vec).health = s.health := by simp only [raiseVec]; (repeat' split) <;> simp
@[simp] theorem raiseVec_adv (s : State) (f vec : Nat) : (raiseVec s f vec).adv = s.adv := by simp only [raiseVec]; (repeat' split) <;> simp
@[simp] theorem raiseVec_planned (s : State) (f vec : Nat) : (raiseVec s f vec).planned = s.planned := by simp only [raiseVec]; (repeat' split) <;> simp
@[simp] theorem raiseVec_dists (s : State) (f vec : Nat) : (raiseVec s f vec).dists = s.dists := by simp only [raiseVec]; (repeat' split) <;> simp
@[simp] theorem raiseVec_backs (s : State) (f vec : Nat) : (raiseVec s f vec).backs = s.backs := by simp only [raiseVec]; (repeat' split) <;> simp
@[simp] theorem raiseVec_nextBid (s : State) (f vec : Nat) : (raiseVec s f vec).nextBid = s.nextBid := by simp only [raiseVec]; (repeat' split) <;> simp
@[simp] theorem raiseVec_nextSig (s : State) (f vec : Nat) : (raiseVec s f vec).nextSig = s.nextSig := by simp only [raiseVec]; (repeat' split) <;> simp
@[simp] theorem raiseVec_flash (s : State) (f vec : Nat) : (raiseVec s f vec).flash = s.flash := by simp only [raiseVec]; (repeat' split) <;> simp
@[simp] theorem raiseVec_sites (s : State) (f vec : Nat) : (raiseVec s f vec).sites = s.sites := by simp only [raiseVec]; (repeat' split) <;> simp
@[simp] theorem raiseVec_chans (s : State) (f vec : Nat) : (raiseVec s f vec).chans = s.chans := by simp only [raiseVec]; (repeat' split) <;> simp
@[simp] theorem raiseVec_links (s : State) (f vec : Nat) : (raiseVec s f vec).links = s.links := by simp only [raiseVec]; (repeat' split) <;> simp
@[simp] theorem raiseVec_groups (s : State) (f vec : Nat) : (raiseVec s f vec).groups = s.groups := by simp only [raiseVec]; (repeat' split) <;> simp
@[simp] theorem raiseVec_pipes (s : State) (f vec : Nat) : (raiseVec s f vec).pipes = s.pipes := by simp only [raiseVec]; (repeat' split) <;> simp
@[simp] theorem raiseVec_jtagCells (s : State) (f vec : Nat) : (raiseVec s f vec).jtagCells = s.jtagCells := by simp only [raiseVec]; (repeat' split) <;> simp
@[simp] theorem raiseVec_jtagMode (s : State) (f vec : Nat) : (raiseVec s f vec).jtagMode = s.jtagMode := by simp only [raiseVec]; (repeat' split) <;> simp
@[simp] theorem raiseVec_work (s : State) (f vec : Nat) : (raiseVec s f vec).work = s.work := by simp only [raiseVec]; (repeat' split) <;> simp
@[simp] theorem raiseVec_cyc (s : State) (f vec : Nat) : (raiseVec s f vec).cyc = s.cyc := by simp only [raiseVec]; (repeat' split) <;> simp

/-! ## fatalRaised -/

@[simp] theorem fatalRaised_pending (s : State) (f : Nat) : (fatalRaised s f).pending = s.pending := by simp [fatalRaised]
@[simp] theorem fatalRaised_now (s : State) (f : Nat) : (fatalRaised s f).now = s.now := by simp [fatalRaised]
@[simp] theorem fatalRaised_freeCtr (s : State) (f : Nat) : (fatalRaised s f).freeCtr = s.freeCtr := by simp [fatalRaised]
@[simp] theorem fatalRaised_population (s : State) (f : Nat) : (fatalRaised s f).population = s.population := by simp [fatalRaised]
@[simp] theorem fatalRaised_pins (s : State) (f : Nat) : (fatalRaised s f).pins = s.pins := by simp [fatalRaised]
@[simp] theorem fatalRaised_indexOk (s : State) (f : Nat) : (fatalRaised s f).indexOk = s.indexOk := by simp [fatalRaised]
@[simp] theorem fatalRaised_index (s : State) (f : Nat) : (fatalRaised s f).index = s.index := by simp [fatalRaised]
@[simp] theorem fatalRaised_training (s : State) (f : Nat) : (fatalRaised s f).training = s.training := by simp [fatalRaised]
@[simp] theorem fatalRaised_board (s : State) (f : Nat) : (fatalRaised s f).board = s.board := by simp [fatalRaised]
@[simp] theorem fatalRaised_lpSites (s : State) (f : Nat) : (fatalRaised s f).lpSites = s.lpSites := by simp [fatalRaised]
@[simp] theorem fatalRaised_lpRate (s : State) (f : Nat) : (fatalRaised s f).lpRate = s.lpRate := by simp [fatalRaised]
@[simp] theorem fatalRaised_lpMib (s : State) (f : Nat) : (fatalRaised s f).lpMib = s.lpMib := by simp [fatalRaised]
@[simp] theorem fatalRaised_pcie (s : State) (f : Nat) : (fatalRaised s f).pcie = s.pcie := by simp [fatalRaised]
@[simp] theorem fatalRaised_emitted (s : State) (f : Nat) : (fatalRaised s f).emitted = s.emitted := by simp [fatalRaised]
@[simp] theorem fatalRaised_deferred (s : State) (f : Nat) : (fatalRaised s f).deferred = s.deferred := by simp [fatalRaised]
@[simp] theorem fatalRaised_held (s : State) (f : Nat) : (fatalRaised s f).held = s.held := by simp [fatalRaised]
@[simp] theorem fatalRaised_lastRel (s : State) (f : Nat) : (fatalRaised s f).lastRel = s.lastRel := by simp [fatalRaised]
@[simp] theorem fatalRaised_sec (s : State) (f : Nat) : (fatalRaised s f).sec = s.sec := by simp [fatalRaised]
@[simp] theorem fatalRaised_nvm (s : State) (f : Nat) : (fatalRaised s f).nvm = s.nvm := by simp [fatalRaised]
@[simp] theorem fatalRaised_pwr (s : State) (f : Nat) : (fatalRaised s f).pwr = s.pwr := by simp [fatalRaised]
@[simp] theorem fatalRaised_health (s : State) (f : Nat) : (fatalRaised s f).health = s.health := by simp [fatalRaised]
@[simp] theorem fatalRaised_adv (s : State) (f : Nat) : (fatalRaised s f).adv = s.adv := by simp [fatalRaised]
@[simp] theorem fatalRaised_planned (s : State) (f : Nat) : (fatalRaised s f).planned = s.planned := by simp [fatalRaised]
@[simp] theorem fatalRaised_dists (s : State) (f : Nat) : (fatalRaised s f).dists = s.dists := by simp [fatalRaised]
@[simp] theorem fatalRaised_backs (s : State) (f : Nat) : (fatalRaised s f).backs = s.backs := by simp [fatalRaised]
@[simp] theorem fatalRaised_nextBid (s : State) (f : Nat) : (fatalRaised s f).nextBid = s.nextBid := by simp [fatalRaised]
@[simp] theorem fatalRaised_nextSig (s : State) (f : Nat) : (fatalRaised s f).nextSig = s.nextSig := by simp [fatalRaised]
@[simp] theorem fatalRaised_flash (s : State) (f : Nat) : (fatalRaised s f).flash = s.flash := by simp [fatalRaised]
@[simp] theorem fatalRaised_sites (s : State) (f : Nat) : (fatalRaised s f).sites = s.sites := by simp [fatalRaised]
@[simp] theorem fatalRaised_chans (s : State) (f : Nat) : (fatalRaised s f).chans = s.chans := by simp [fatalRaised]
@[simp] theorem fatalRaised_links (s : State) (f : Nat) : (fatalRaised s f).links = s.links := by simp [fatalRaised]
@[simp] theorem fatalRaised_groups (s : State) (f : Nat) : (fatalRaised s f).groups = s.groups := by simp [fatalRaised]
@[simp] theorem fatalRaised_pipes (s : State) (f : Nat) : (fatalRaised s f).pipes = s.pipes := by simp [fatalRaised]
@[simp] theorem fatalRaised_jtagCells (s : State) (f : Nat) : (fatalRaised s f).jtagCells = s.jtagCells := by simp [fatalRaised]
@[simp] theorem fatalRaised_jtagMode (s : State) (f : Nat) : (fatalRaised s f).jtagMode = s.jtagMode := by simp [fatalRaised]
@[simp] theorem fatalRaised_work (s : State) (f : Nat) : (fatalRaised s f).work = s.work := by simp [fatalRaised]
@[simp] theorem fatalRaised_cyc (s : State) (f : Nat) : (fatalRaised s f).cyc = s.cyc := by simp [fatalRaised]

/-! ## emit -/

@[simp] theorem emit_pending (s : State) (source kind sev district : Nat) (payload : List Nat) : (emit s source kind sev district payload).pending = s.pending := by unfold emit; split <;> simp
@[simp] theorem emit_now (s : State) (source kind sev district : Nat) (payload : List Nat) : (emit s source kind sev district payload).now = s.now := by unfold emit; split <;> simp
@[simp] theorem emit_freeCtr (s : State) (source kind sev district : Nat) (payload : List Nat) : (emit s source kind sev district payload).freeCtr = s.freeCtr := by unfold emit; split <;> simp
@[simp] theorem emit_population (s : State) (source kind sev district : Nat) (payload : List Nat) : (emit s source kind sev district payload).population = s.population := by unfold emit; split <;> simp
@[simp] theorem emit_pins (s : State) (source kind sev district : Nat) (payload : List Nat) : (emit s source kind sev district payload).pins = s.pins := by unfold emit; split <;> simp
@[simp] theorem emit_indexOk (s : State) (source kind sev district : Nat) (payload : List Nat) : (emit s source kind sev district payload).indexOk = s.indexOk := by unfold emit; split <;> simp
@[simp] theorem emit_index (s : State) (source kind sev district : Nat) (payload : List Nat) : (emit s source kind sev district payload).index = s.index := by unfold emit; split <;> simp
@[simp] theorem emit_training (s : State) (source kind sev district : Nat) (payload : List Nat) : (emit s source kind sev district payload).training = s.training := by unfold emit; split <;> simp
@[simp] theorem emit_board (s : State) (source kind sev district : Nat) (payload : List Nat) : (emit s source kind sev district payload).board = s.board := by unfold emit; split <;> simp
@[simp] theorem emit_lpSites (s : State) (source kind sev district : Nat) (payload : List Nat) : (emit s source kind sev district payload).lpSites = s.lpSites := by unfold emit; split <;> simp
@[simp] theorem emit_lpRate (s : State) (source kind sev district : Nat) (payload : List Nat) : (emit s source kind sev district payload).lpRate = s.lpRate := by unfold emit; split <;> simp
@[simp] theorem emit_lpMib (s : State) (source kind sev district : Nat) (payload : List Nat) : (emit s source kind sev district payload).lpMib = s.lpMib := by unfold emit; split <;> simp
@[simp] theorem emit_pcie (s : State) (source kind sev district : Nat) (payload : List Nat) : (emit s source kind sev district payload).pcie = s.pcie := by unfold emit; split <;> simp
@[simp] theorem emit_deferred (s : State) (source kind sev district : Nat) (payload : List Nat) : (emit s source kind sev district payload).deferred = s.deferred := by unfold emit; split <;> simp
@[simp] theorem emit_held (s : State) (source kind sev district : Nat) (payload : List Nat) : (emit s source kind sev district payload).held = s.held := by unfold emit; split <;> simp
@[simp] theorem emit_lastRel (s : State) (source kind sev district : Nat) (payload : List Nat) : (emit s source kind sev district payload).lastRel = s.lastRel := by unfold emit; split <;> simp
@[simp] theorem emit_sec (s : State) (source kind sev district : Nat) (payload : List Nat) : (emit s source kind sev district payload).sec = s.sec := by unfold emit; split <;> simp
@[simp] theorem emit_nvm (s : State) (source kind sev district : Nat) (payload : List Nat) : (emit s source kind sev district payload).nvm = s.nvm := by unfold emit; split <;> simp
@[simp] theorem emit_pwr (s : State) (source kind sev district : Nat) (payload : List Nat) : (emit s source kind sev district payload).pwr = s.pwr := by unfold emit; split <;> simp
@[simp] theorem emit_health (s : State) (source kind sev district : Nat) (payload : List Nat) : (emit s source kind sev district payload).health = s.health := by unfold emit; split <;> simp
@[simp] theorem emit_adv (s : State) (source kind sev district : Nat) (payload : List Nat) : (emit s source kind sev district payload).adv = s.adv := by unfold emit; split <;> simp
@[simp] theorem emit_planned (s : State) (source kind sev district : Nat) (payload : List Nat) : (emit s source kind sev district payload).planned = s.planned := by unfold emit; split <;> simp
@[simp] theorem emit_dists (s : State) (source kind sev district : Nat) (payload : List Nat) : (emit s source kind sev district payload).dists = s.dists := by unfold emit; split <;> simp
@[simp] theorem emit_backs (s : State) (source kind sev district : Nat) (payload : List Nat) : (emit s source kind sev district payload).backs = s.backs := by unfold emit; split <;> simp
@[simp] theorem emit_nextBid (s : State) (source kind sev district : Nat) (payload : List Nat) : (emit s source kind sev district payload).nextBid = s.nextBid := by unfold emit; split <;> simp
@[simp] theorem emit_nextSig (s : State) (source kind sev district : Nat) (payload : List Nat) : (emit s source kind sev district payload).nextSig = s.nextSig := by unfold emit; split <;> simp
@[simp] theorem emit_flash (s : State) (source kind sev district : Nat) (payload : List Nat) : (emit s source kind sev district payload).flash = s.flash := by unfold emit; split <;> simp
@[simp] theorem emit_sites (s : State) (source kind sev district : Nat) (payload : List Nat) : (emit s source kind sev district payload).sites = s.sites := by unfold emit; split <;> simp
@[simp] theorem emit_chans (s : State) (source kind sev district : Nat) (payload : List Nat) : (emit s source kind sev district payload).chans = s.chans := by unfold emit; split <;> simp
@[simp] theorem emit_links (s : State) (source kind sev district : Nat) (payload : List Nat) : (emit s source kind sev district payload).links = s.links := by unfold emit; split <;> simp
@[simp] theorem emit_groups (s : State) (source kind sev district : Nat) (payload : List Nat) : (emit s source kind sev district payload).groups = s.groups := by unfold emit; split <;> simp
@[simp] theorem emit_pipes (s : State) (source kind sev district : Nat) (payload : List Nat) : (emit s source kind sev district payload).pipes = s.pipes := by unfold emit; split <;> simp
@[simp] theorem emit_jtagCells (s : State) (source kind sev district : Nat) (payload : List Nat) : (emit s source kind sev district payload).jtagCells = s.jtagCells := by unfold emit; split <;> simp
@[simp] theorem emit_jtagMode (s : State) (source kind sev district : Nat) (payload : List Nat) : (emit s source kind sev district payload).jtagMode = s.jtagMode := by unfold emit; split <;> simp
@[simp] theorem emit_work (s : State) (source kind sev district : Nat) (payload : List Nat) : (emit s source kind sev district payload).work = s.work := by unfold emit; split <;> simp
@[simp] theorem emit_cyc (s : State) (source kind sev district : Nat) (payload : List Nat) : (emit s source kind sev district payload).cyc = s.cyc := by unfold emit; split <;> simp

/-! ## queueReply -/

@[simp] theorem queueReply_pending (s : State) (e : Nat) (r : Reply) : (queueReply s e r).pending = s.pending := by unfold queueReply; split <;> rfl
@[simp] theorem queueReply_now (s : State) (e : Nat) (r : Reply) : (queueReply s e r).now = s.now := by unfold queueReply; split <;> rfl
@[simp] theorem queueReply_freeCtr (s : State) (e : Nat) (r : Reply) : (queueReply s e r).freeCtr = s.freeCtr := by unfold queueReply; split <;> rfl
@[simp] theorem queueReply_population (s : State) (e : Nat) (r : Reply) : (queueReply s e r).population = s.population := by unfold queueReply; split <;> rfl
@[simp] theorem queueReply_pins (s : State) (e : Nat) (r : Reply) : (queueReply s e r).pins = s.pins := by unfold queueReply; split <;> rfl
@[simp] theorem queueReply_indexOk (s : State) (e : Nat) (r : Reply) : (queueReply s e r).indexOk = s.indexOk := by unfold queueReply; split <;> rfl
@[simp] theorem queueReply_index (s : State) (e : Nat) (r : Reply) : (queueReply s e r).index = s.index := by unfold queueReply; split <;> rfl
@[simp] theorem queueReply_training (s : State) (e : Nat) (r : Reply) : (queueReply s e r).training = s.training := by unfold queueReply; split <;> rfl
@[simp] theorem queueReply_board (s : State) (e : Nat) (r : Reply) : (queueReply s e r).board = s.board := by unfold queueReply; split <;> rfl
@[simp] theorem queueReply_lpSites (s : State) (e : Nat) (r : Reply) : (queueReply s e r).lpSites = s.lpSites := by unfold queueReply; split <;> rfl
@[simp] theorem queueReply_lpRate (s : State) (e : Nat) (r : Reply) : (queueReply s e r).lpRate = s.lpRate := by unfold queueReply; split <;> rfl
@[simp] theorem queueReply_lpMib (s : State) (e : Nat) (r : Reply) : (queueReply s e r).lpMib = s.lpMib := by unfold queueReply; split <;> rfl
@[simp] theorem queueReply_pcie (s : State) (e : Nat) (r : Reply) : (queueReply s e r).pcie = s.pcie := by unfold queueReply; split <;> rfl
@[simp] theorem queueReply_emitted (s : State) (e : Nat) (r : Reply) : (queueReply s e r).emitted = s.emitted := by unfold queueReply; split <;> rfl
@[simp] theorem queueReply_deferred (s : State) (e : Nat) (r : Reply) : (queueReply s e r).deferred = s.deferred := by unfold queueReply; split <;> rfl
@[simp] theorem queueReply_held (s : State) (e : Nat) (r : Reply) : (queueReply s e r).held = s.held := by unfold queueReply; split <;> rfl
@[simp] theorem queueReply_out (s : State) (e : Nat) (r : Reply) : (queueReply s e r).out = s.out := by unfold queueReply; split <;> rfl
@[simp] theorem queueReply_lastRel (s : State) (e : Nat) (r : Reply) : (queueReply s e r).lastRel = s.lastRel := by unfold queueReply; split <;> rfl
@[simp] theorem queueReply_sec (s : State) (e : Nat) (r : Reply) : (queueReply s e r).sec = s.sec := by unfold queueReply; split <;> rfl
@[simp] theorem queueReply_nvm (s : State) (e : Nat) (r : Reply) : (queueReply s e r).nvm = s.nvm := by unfold queueReply; split <;> rfl
@[simp] theorem queueReply_pwr (s : State) (e : Nat) (r : Reply) : (queueReply s e r).pwr = s.pwr := by unfold queueReply; split <;> rfl
@[simp] theorem queueReply_health (s : State) (e : Nat) (r : Reply) : (queueReply s e r).health = s.health := by unfold queueReply; split <;> rfl
@[simp] theorem queueReply_adv (s : State) (e : Nat) (r : Reply) : (queueReply s e r).adv = s.adv := by unfold queueReply; split <;> rfl
@[simp] theorem queueReply_planned (s : State) (e : Nat) (r : Reply) : (queueReply s e r).planned = s.planned := by unfold queueReply; split <;> rfl
@[simp] theorem queueReply_dists (s : State) (e : Nat) (r : Reply) : (queueReply s e r).dists = s.dists := by unfold queueReply; split <;> rfl
@[simp] theorem queueReply_backs (s : State) (e : Nat) (r : Reply) : (queueReply s e r).backs = s.backs := by unfold queueReply; split <;> rfl
@[simp] theorem queueReply_nextBid (s : State) (e : Nat) (r : Reply) : (queueReply s e r).nextBid = s.nextBid := by unfold queueReply; split <;> rfl
@[simp] theorem queueReply_nextSig (s : State) (e : Nat) (r : Reply) : (queueReply s e r).nextSig = s.nextSig := by unfold queueReply; split <;> rfl
@[simp] theorem queueReply_flash (s : State) (e : Nat) (r : Reply) : (queueReply s e r).flash = s.flash := by unfold queueReply; split <;> rfl
@[simp] theorem queueReply_sites (s : State) (e : Nat) (r : Reply) : (queueReply s e r).sites = s.sites := by unfold queueReply; split <;> rfl
@[simp] theorem queueReply_chans (s : State) (e : Nat) (r : Reply) : (queueReply s e r).chans = s.chans := by unfold queueReply; split <;> rfl
@[simp] theorem queueReply_links (s : State) (e : Nat) (r : Reply) : (queueReply s e r).links = s.links := by unfold queueReply; split <;> rfl
@[simp] theorem queueReply_groups (s : State) (e : Nat) (r : Reply) : (queueReply s e r).groups = s.groups := by unfold queueReply; split <;> rfl
@[simp] theorem queueReply_pipes (s : State) (e : Nat) (r : Reply) : (queueReply s e r).pipes = s.pipes := by unfold queueReply; split <;> rfl
@[simp] theorem queueReply_jtagCells (s : State) (e : Nat) (r : Reply) : (queueReply s e r).jtagCells = s.jtagCells := by unfold queueReply; split <;> rfl
@[simp] theorem queueReply_jtagMode (s : State) (e : Nat) (r : Reply) : (queueReply s e r).jtagMode = s.jtagMode := by unfold queueReply; split <;> rfl
@[simp] theorem queueReply_work (s : State) (e : Nat) (r : Reply) : (queueReply s e r).work = s.work := by unfold queueReply; split <;> rfl
@[simp] theorem queueReply_cyc (s : State) (e : Nat) (r : Reply) : (queueReply s e r).cyc = s.cyc := by unfold queueReply; split <;> rfl

/-! ## refuse -/

@[simp] theorem refuse_pending (s : State) (c : FwReq) (cmd : Nat) (e : Err) : (refuse s c cmd e).pending = s.pending := by simp [refuse]
@[simp] theorem refuse_now (s : State) (c : FwReq) (cmd : Nat) (e : Err) : (refuse s c cmd e).now = s.now := by simp [refuse]
@[simp] theorem refuse_freeCtr (s : State) (c : FwReq) (cmd : Nat) (e : Err) : (refuse s c cmd e).freeCtr = s.freeCtr := by simp [refuse]
@[simp] theorem refuse_population (s : State) (c : FwReq) (cmd : Nat) (e : Err) : (refuse s c cmd e).population = s.population := by simp [refuse]
@[simp] theorem refuse_pins (s : State) (c : FwReq) (cmd : Nat) (e : Err) : (refuse s c cmd e).pins = s.pins := by simp [refuse]
@[simp] theorem refuse_indexOk (s : State) (c : FwReq) (cmd : Nat) (e : Err) : (refuse s c cmd e).indexOk = s.indexOk := by simp [refuse]
@[simp] theorem refuse_index (s : State) (c : FwReq) (cmd : Nat) (e : Err) : (refuse s c cmd e).index = s.index := by simp [refuse]
@[simp] theorem refuse_training (s : State) (c : FwReq) (cmd : Nat) (e : Err) : (refuse s c cmd e).training = s.training := by simp [refuse]
@[simp] theorem refuse_board (s : State) (c : FwReq) (cmd : Nat) (e : Err) : (refuse s c cmd e).board = s.board := by simp [refuse]
@[simp] theorem refuse_lpSites (s : State) (c : FwReq) (cmd : Nat) (e : Err) : (refuse s c cmd e).lpSites = s.lpSites := by simp [refuse]
@[simp] theorem refuse_lpRate (s : State) (c : FwReq) (cmd : Nat) (e : Err) : (refuse s c cmd e).lpRate = s.lpRate := by simp [refuse]
@[simp] theorem refuse_lpMib (s : State) (c : FwReq) (cmd : Nat) (e : Err) : (refuse s c cmd e).lpMib = s.lpMib := by simp [refuse]
@[simp] theorem refuse_pcie (s : State) (c : FwReq) (cmd : Nat) (e : Err) : (refuse s c cmd e).pcie = s.pcie := by simp [refuse]
@[simp] theorem refuse_emitted (s : State) (c : FwReq) (cmd : Nat) (e : Err) : (refuse s c cmd e).emitted = s.emitted := by simp [refuse]
@[simp] theorem refuse_deferred (s : State) (c : FwReq) (cmd : Nat) (e : Err) : (refuse s c cmd e).deferred = s.deferred := by simp [refuse]
@[simp] theorem refuse_held (s : State) (c : FwReq) (cmd : Nat) (e : Err) : (refuse s c cmd e).held = s.held := by simp [refuse]
@[simp] theorem refuse_out (s : State) (c : FwReq) (cmd : Nat) (e : Err) : (refuse s c cmd e).out = s.out := by simp [refuse]
@[simp] theorem refuse_lastRel (s : State) (c : FwReq) (cmd : Nat) (e : Err) : (refuse s c cmd e).lastRel = s.lastRel := by simp [refuse]
@[simp] theorem refuse_sec (s : State) (c : FwReq) (cmd : Nat) (e : Err) : (refuse s c cmd e).sec = s.sec := by simp [refuse]
@[simp] theorem refuse_nvm (s : State) (c : FwReq) (cmd : Nat) (e : Err) : (refuse s c cmd e).nvm = s.nvm := by simp [refuse]
@[simp] theorem refuse_pwr (s : State) (c : FwReq) (cmd : Nat) (e : Err) : (refuse s c cmd e).pwr = s.pwr := by simp [refuse]
@[simp] theorem refuse_health (s : State) (c : FwReq) (cmd : Nat) (e : Err) : (refuse s c cmd e).health = s.health := by simp [refuse]
@[simp] theorem refuse_adv (s : State) (c : FwReq) (cmd : Nat) (e : Err) : (refuse s c cmd e).adv = s.adv := by simp [refuse]
@[simp] theorem refuse_planned (s : State) (c : FwReq) (cmd : Nat) (e : Err) : (refuse s c cmd e).planned = s.planned := by simp [refuse]
@[simp] theorem refuse_dists (s : State) (c : FwReq) (cmd : Nat) (e : Err) : (refuse s c cmd e).dists = s.dists := by simp [refuse]
@[simp] theorem refuse_backs (s : State) (c : FwReq) (cmd : Nat) (e : Err) : (refuse s c cmd e).backs = s.backs := by simp [refuse]
@[simp] theorem refuse_nextBid (s : State) (c : FwReq) (cmd : Nat) (e : Err) : (refuse s c cmd e).nextBid = s.nextBid := by simp [refuse]
@[simp] theorem refuse_nextSig (s : State) (c : FwReq) (cmd : Nat) (e : Err) : (refuse s c cmd e).nextSig = s.nextSig := by simp [refuse]
@[simp] theorem refuse_flash (s : State) (c : FwReq) (cmd : Nat) (e : Err) : (refuse s c cmd e).flash = s.flash := by simp [refuse]
@[simp] theorem refuse_sites (s : State) (c : FwReq) (cmd : Nat) (e : Err) : (refuse s c cmd e).sites = s.sites := by simp [refuse]
@[simp] theorem refuse_chans (s : State) (c : FwReq) (cmd : Nat) (e : Err) : (refuse s c cmd e).chans = s.chans := by simp [refuse]
@[simp] theorem refuse_links (s : State) (c : FwReq) (cmd : Nat) (e : Err) : (refuse s c cmd e).links = s.links := by simp [refuse]
@[simp] theorem refuse_groups (s : State) (c : FwReq) (cmd : Nat) (e : Err) : (refuse s c cmd e).groups = s.groups := by simp [refuse]
@[simp] theorem refuse_pipes (s : State) (c : FwReq) (cmd : Nat) (e : Err) : (refuse s c cmd e).pipes = s.pipes := by simp [refuse]
@[simp] theorem refuse_jtagCells (s : State) (c : FwReq) (cmd : Nat) (e : Err) : (refuse s c cmd e).jtagCells = s.jtagCells := by simp [refuse]
@[simp] theorem refuse_jtagMode (s : State) (c : FwReq) (cmd : Nat) (e : Err) : (refuse s c cmd e).jtagMode = s.jtagMode := by simp [refuse]
@[simp] theorem refuse_work (s : State) (c : FwReq) (cmd : Nat) (e : Err) : (refuse s c cmd e).work = s.work := by simp [refuse]
@[simp] theorem refuse_cyc (s : State) (c : FwReq) (cmd : Nat) (e : Err) : (refuse s c cmd e).cyc = s.cyc := by simp [refuse]

/-! ## replyOk -/

@[simp] theorem replyOk_pending (s : State) (c : FwReq) (cmd : Nat) (p : Bytes) : (replyOk s c cmd p).pending = s.pending := by simp [replyOk]
@[simp] theorem replyOk_now (s : State) (c : FwReq) (cmd : Nat) (p : Bytes) : (replyOk s c cmd p).now = s.now := by simp [replyOk]
@[simp] theorem replyOk_freeCtr (s : State) (c : FwReq) (cmd : Nat) (p : Bytes) : (replyOk s c cmd p).freeCtr = s.freeCtr := by simp [replyOk]
@[simp] theorem replyOk_population (s : State) (c : FwReq) (cmd : Nat) (p : Bytes) : (replyOk s c cmd p).population = s.population := by simp [replyOk]
@[simp] theorem replyOk_pins (s : State) (c : FwReq) (cmd : Nat) (p : Bytes) : (replyOk s c cmd p).pins = s.pins := by simp [replyOk]
@[simp] theorem replyOk_indexOk (s : State) (c : FwReq) (cmd : Nat) (p : Bytes) : (replyOk s c cmd p).indexOk = s.indexOk := by simp [replyOk]
@[simp] theorem replyOk_index (s : State) (c : FwReq) (cmd : Nat) (p : Bytes) : (replyOk s c cmd p).index = s.index := by simp [replyOk]
@[simp] theorem replyOk_training (s : State) (c : FwReq) (cmd : Nat) (p : Bytes) : (replyOk s c cmd p).training = s.training := by simp [replyOk]
@[simp] theorem replyOk_board (s : State) (c : FwReq) (cmd : Nat) (p : Bytes) : (replyOk s c cmd p).board = s.board := by simp [replyOk]
@[simp] theorem replyOk_lpSites (s : State) (c : FwReq) (cmd : Nat) (p : Bytes) : (replyOk s c cmd p).lpSites = s.lpSites := by simp [replyOk]
@[simp] theorem replyOk_lpRate (s : State) (c : FwReq) (cmd : Nat) (p : Bytes) : (replyOk s c cmd p).lpRate = s.lpRate := by simp [replyOk]
@[simp] theorem replyOk_lpMib (s : State) (c : FwReq) (cmd : Nat) (p : Bytes) : (replyOk s c cmd p).lpMib = s.lpMib := by simp [replyOk]
@[simp] theorem replyOk_pcie (s : State) (c : FwReq) (cmd : Nat) (p : Bytes) : (replyOk s c cmd p).pcie = s.pcie := by simp [replyOk]
@[simp] theorem replyOk_emitted (s : State) (c : FwReq) (cmd : Nat) (p : Bytes) : (replyOk s c cmd p).emitted = s.emitted := by simp [replyOk]
@[simp] theorem replyOk_deferred (s : State) (c : FwReq) (cmd : Nat) (p : Bytes) : (replyOk s c cmd p).deferred = s.deferred := by simp [replyOk]
@[simp] theorem replyOk_held (s : State) (c : FwReq) (cmd : Nat) (p : Bytes) : (replyOk s c cmd p).held = s.held := by simp [replyOk]
@[simp] theorem replyOk_out (s : State) (c : FwReq) (cmd : Nat) (p : Bytes) : (replyOk s c cmd p).out = s.out := by simp [replyOk]
@[simp] theorem replyOk_lastRel (s : State) (c : FwReq) (cmd : Nat) (p : Bytes) : (replyOk s c cmd p).lastRel = s.lastRel := by simp [replyOk]
@[simp] theorem replyOk_sec (s : State) (c : FwReq) (cmd : Nat) (p : Bytes) : (replyOk s c cmd p).sec = s.sec := by simp [replyOk]
@[simp] theorem replyOk_nvm (s : State) (c : FwReq) (cmd : Nat) (p : Bytes) : (replyOk s c cmd p).nvm = s.nvm := by simp [replyOk]
@[simp] theorem replyOk_pwr (s : State) (c : FwReq) (cmd : Nat) (p : Bytes) : (replyOk s c cmd p).pwr = s.pwr := by simp [replyOk]
@[simp] theorem replyOk_health (s : State) (c : FwReq) (cmd : Nat) (p : Bytes) : (replyOk s c cmd p).health = s.health := by simp [replyOk]
@[simp] theorem replyOk_adv (s : State) (c : FwReq) (cmd : Nat) (p : Bytes) : (replyOk s c cmd p).adv = s.adv := by simp [replyOk]
@[simp] theorem replyOk_planned (s : State) (c : FwReq) (cmd : Nat) (p : Bytes) : (replyOk s c cmd p).planned = s.planned := by simp [replyOk]
@[simp] theorem replyOk_dists (s : State) (c : FwReq) (cmd : Nat) (p : Bytes) : (replyOk s c cmd p).dists = s.dists := by simp [replyOk]
@[simp] theorem replyOk_backs (s : State) (c : FwReq) (cmd : Nat) (p : Bytes) : (replyOk s c cmd p).backs = s.backs := by simp [replyOk]
@[simp] theorem replyOk_nextBid (s : State) (c : FwReq) (cmd : Nat) (p : Bytes) : (replyOk s c cmd p).nextBid = s.nextBid := by simp [replyOk]
@[simp] theorem replyOk_nextSig (s : State) (c : FwReq) (cmd : Nat) (p : Bytes) : (replyOk s c cmd p).nextSig = s.nextSig := by simp [replyOk]
@[simp] theorem replyOk_flash (s : State) (c : FwReq) (cmd : Nat) (p : Bytes) : (replyOk s c cmd p).flash = s.flash := by simp [replyOk]
@[simp] theorem replyOk_sites (s : State) (c : FwReq) (cmd : Nat) (p : Bytes) : (replyOk s c cmd p).sites = s.sites := by simp [replyOk]
@[simp] theorem replyOk_chans (s : State) (c : FwReq) (cmd : Nat) (p : Bytes) : (replyOk s c cmd p).chans = s.chans := by simp [replyOk]
@[simp] theorem replyOk_links (s : State) (c : FwReq) (cmd : Nat) (p : Bytes) : (replyOk s c cmd p).links = s.links := by simp [replyOk]
@[simp] theorem replyOk_groups (s : State) (c : FwReq) (cmd : Nat) (p : Bytes) : (replyOk s c cmd p).groups = s.groups := by simp [replyOk]
@[simp] theorem replyOk_pipes (s : State) (c : FwReq) (cmd : Nat) (p : Bytes) : (replyOk s c cmd p).pipes = s.pipes := by simp [replyOk]
@[simp] theorem replyOk_jtagCells (s : State) (c : FwReq) (cmd : Nat) (p : Bytes) : (replyOk s c cmd p).jtagCells = s.jtagCells := by simp [replyOk]
@[simp] theorem replyOk_jtagMode (s : State) (c : FwReq) (cmd : Nat) (p : Bytes) : (replyOk s c cmd p).jtagMode = s.jtagMode := by simp [replyOk]
@[simp] theorem replyOk_work (s : State) (c : FwReq) (cmd : Nat) (p : Bytes) : (replyOk s c cmd p).work = s.work := by simp [replyOk]
@[simp] theorem replyOk_cyc (s : State) (c : FwReq) (cmd : Nat) (p : Bytes) : (replyOk s c cmd p).cyc = s.cyc := by simp [replyOk]

/-! ## replyAccepted -/

@[simp] theorem replyAccepted_pending (s : State) (c : FwReq) (cmd : Nat) : (replyAccepted s c cmd).pending = s.pending := by simp [replyAccepted]
@[simp] theorem replyAccepted_now (s : State) (c : FwReq) (cmd : Nat) : (replyAccepted s c cmd).now = s.now := by simp [replyAccepted]
@[simp] theorem replyAccepted_freeCtr (s : State) (c : FwReq) (cmd : Nat) : (replyAccepted s c cmd).freeCtr = s.freeCtr := by simp [replyAccepted]
@[simp] theorem replyAccepted_population (s : State) (c : FwReq) (cmd : Nat) : (replyAccepted s c cmd).population = s.population := by simp [replyAccepted]
@[simp] theorem replyAccepted_pins (s : State) (c : FwReq) (cmd : Nat) : (replyAccepted s c cmd).pins = s.pins := by simp [replyAccepted]
@[simp] theorem replyAccepted_indexOk (s : State) (c : FwReq) (cmd : Nat) : (replyAccepted s c cmd).indexOk = s.indexOk := by simp [replyAccepted]
@[simp] theorem replyAccepted_index (s : State) (c : FwReq) (cmd : Nat) : (replyAccepted s c cmd).index = s.index := by simp [replyAccepted]
@[simp] theorem replyAccepted_training (s : State) (c : FwReq) (cmd : Nat) : (replyAccepted s c cmd).training = s.training := by simp [replyAccepted]
@[simp] theorem replyAccepted_board (s : State) (c : FwReq) (cmd : Nat) : (replyAccepted s c cmd).board = s.board := by simp [replyAccepted]
@[simp] theorem replyAccepted_lpSites (s : State) (c : FwReq) (cmd : Nat) : (replyAccepted s c cmd).lpSites = s.lpSites := by simp [replyAccepted]
@[simp] theorem replyAccepted_lpRate (s : State) (c : FwReq) (cmd : Nat) : (replyAccepted s c cmd).lpRate = s.lpRate := by simp [replyAccepted]
@[simp] theorem replyAccepted_lpMib (s : State) (c : FwReq) (cmd : Nat) : (replyAccepted s c cmd).lpMib = s.lpMib := by simp [replyAccepted]
@[simp] theorem replyAccepted_pcie (s : State) (c : FwReq) (cmd : Nat) : (replyAccepted s c cmd).pcie = s.pcie := by simp [replyAccepted]
@[simp] theorem replyAccepted_emitted (s : State) (c : FwReq) (cmd : Nat) : (replyAccepted s c cmd).emitted = s.emitted := by simp [replyAccepted]
@[simp] theorem replyAccepted_deferred (s : State) (c : FwReq) (cmd : Nat) : (replyAccepted s c cmd).deferred = s.deferred := by simp [replyAccepted]
@[simp] theorem replyAccepted_held (s : State) (c : FwReq) (cmd : Nat) : (replyAccepted s c cmd).held = s.held := by simp [replyAccepted]
@[simp] theorem replyAccepted_out (s : State) (c : FwReq) (cmd : Nat) : (replyAccepted s c cmd).out = s.out := by simp [replyAccepted]
@[simp] theorem replyAccepted_lastRel (s : State) (c : FwReq) (cmd : Nat) : (replyAccepted s c cmd).lastRel = s.lastRel := by simp [replyAccepted]
@[simp] theorem replyAccepted_sec (s : State) (c : FwReq) (cmd : Nat) : (replyAccepted s c cmd).sec = s.sec := by simp [replyAccepted]
@[simp] theorem replyAccepted_nvm (s : State) (c : FwReq) (cmd : Nat) : (replyAccepted s c cmd).nvm = s.nvm := by simp [replyAccepted]
@[simp] theorem replyAccepted_pwr (s : State) (c : FwReq) (cmd : Nat) : (replyAccepted s c cmd).pwr = s.pwr := by simp [replyAccepted]
@[simp] theorem replyAccepted_health (s : State) (c : FwReq) (cmd : Nat) : (replyAccepted s c cmd).health = s.health := by simp [replyAccepted]
@[simp] theorem replyAccepted_adv (s : State) (c : FwReq) (cmd : Nat) : (replyAccepted s c cmd).adv = s.adv := by simp [replyAccepted]
@[simp] theorem replyAccepted_planned (s : State) (c : FwReq) (cmd : Nat) : (replyAccepted s c cmd).planned = s.planned := by simp [replyAccepted]
@[simp] theorem replyAccepted_dists (s : State) (c : FwReq) (cmd : Nat) : (replyAccepted s c cmd).dists = s.dists := by simp [replyAccepted]
@[simp] theorem replyAccepted_backs (s : State) (c : FwReq) (cmd : Nat) : (replyAccepted s c cmd).backs = s.backs := by simp [replyAccepted]
@[simp] theorem replyAccepted_nextBid (s : State) (c : FwReq) (cmd : Nat) : (replyAccepted s c cmd).nextBid = s.nextBid := by simp [replyAccepted]
@[simp] theorem replyAccepted_nextSig (s : State) (c : FwReq) (cmd : Nat) : (replyAccepted s c cmd).nextSig = s.nextSig := by simp [replyAccepted]
@[simp] theorem replyAccepted_flash (s : State) (c : FwReq) (cmd : Nat) : (replyAccepted s c cmd).flash = s.flash := by simp [replyAccepted]
@[simp] theorem replyAccepted_sites (s : State) (c : FwReq) (cmd : Nat) : (replyAccepted s c cmd).sites = s.sites := by simp [replyAccepted]
@[simp] theorem replyAccepted_chans (s : State) (c : FwReq) (cmd : Nat) : (replyAccepted s c cmd).chans = s.chans := by simp [replyAccepted]
@[simp] theorem replyAccepted_links (s : State) (c : FwReq) (cmd : Nat) : (replyAccepted s c cmd).links = s.links := by simp [replyAccepted]
@[simp] theorem replyAccepted_groups (s : State) (c : FwReq) (cmd : Nat) : (replyAccepted s c cmd).groups = s.groups := by simp [replyAccepted]
@[simp] theorem replyAccepted_pipes (s : State) (c : FwReq) (cmd : Nat) : (replyAccepted s c cmd).pipes = s.pipes := by simp [replyAccepted]
@[simp] theorem replyAccepted_jtagCells (s : State) (c : FwReq) (cmd : Nat) : (replyAccepted s c cmd).jtagCells = s.jtagCells := by simp [replyAccepted]
@[simp] theorem replyAccepted_jtagMode (s : State) (c : FwReq) (cmd : Nat) : (replyAccepted s c cmd).jtagMode = s.jtagMode := by simp [replyAccepted]
@[simp] theorem replyAccepted_work (s : State) (c : FwReq) (cmd : Nat) : (replyAccepted s c cmd).work = s.work := by simp [replyAccepted]
@[simp] theorem replyAccepted_cyc (s : State) (c : FwReq) (cmd : Nat) : (replyAccepted s c cmd).cyc = s.cyc := by simp [replyAccepted]

/-! ## finish -/

@[simp] theorem finish_pending (s : State) (p : Pend) (status state : Nat) (b : Bytes) : (finish s p status state b).pending = s.pending := by simp [finish]
@[simp] theorem finish_now (s : State) (p : Pend) (status state : Nat) (b : Bytes) : (finish s p status state b).now = s.now := by simp [finish]
@[simp] theorem finish_freeCtr (s : State) (p : Pend) (status state : Nat) (b : Bytes) : (finish s p status state b).freeCtr = s.freeCtr := by simp [finish]
@[simp] theorem finish_population (s : State) (p : Pend) (status state : Nat) (b : Bytes) : (finish s p status state b).population = s.population := by simp [finish]
@[simp] theorem finish_pins (s : State) (p : Pend) (status state : Nat) (b : Bytes) : (finish s p status state b).pins = s.pins := by simp [finish]
@[simp] theorem finish_indexOk (s : State) (p : Pend) (status state : Nat) (b : Bytes) : (finish s p status state b).indexOk = s.indexOk := by simp [finish]
@[simp] theorem finish_index (s : State) (p : Pend) (status state : Nat) (b : Bytes) : (finish s p status state b).index = s.index := by simp [finish]
@[simp] theorem finish_training (s : State) (p : Pend) (status state : Nat) (b : Bytes) : (finish s p status state b).training = s.training := by simp [finish]
@[simp] theorem finish_board (s : State) (p : Pend) (status state : Nat) (b : Bytes) : (finish s p status state b).board = s.board := by simp [finish]
@[simp] theorem finish_lpSites (s : State) (p : Pend) (status state : Nat) (b : Bytes) : (finish s p status state b).lpSites = s.lpSites := by simp [finish]
@[simp] theorem finish_lpRate (s : State) (p : Pend) (status state : Nat) (b : Bytes) : (finish s p status state b).lpRate = s.lpRate := by simp [finish]
@[simp] theorem finish_lpMib (s : State) (p : Pend) (status state : Nat) (b : Bytes) : (finish s p status state b).lpMib = s.lpMib := by simp [finish]
@[simp] theorem finish_pcie (s : State) (p : Pend) (status state : Nat) (b : Bytes) : (finish s p status state b).pcie = s.pcie := by simp [finish]
@[simp] theorem finish_emitted (s : State) (p : Pend) (status state : Nat) (b : Bytes) : (finish s p status state b).emitted = s.emitted := by simp [finish]
@[simp] theorem finish_deferred (s : State) (p : Pend) (status state : Nat) (b : Bytes) : (finish s p status state b).deferred = s.deferred := by simp [finish]
@[simp] theorem finish_held (s : State) (p : Pend) (status state : Nat) (b : Bytes) : (finish s p status state b).held = s.held := by simp [finish]
@[simp] theorem finish_out (s : State) (p : Pend) (status state : Nat) (b : Bytes) : (finish s p status state b).out = s.out := by simp [finish]
@[simp] theorem finish_lastRel (s : State) (p : Pend) (status state : Nat) (b : Bytes) : (finish s p status state b).lastRel = s.lastRel := by simp [finish]
@[simp] theorem finish_sec (s : State) (p : Pend) (status state : Nat) (b : Bytes) : (finish s p status state b).sec = s.sec := by simp [finish]
@[simp] theorem finish_nvm (s : State) (p : Pend) (status state : Nat) (b : Bytes) : (finish s p status state b).nvm = s.nvm := by simp [finish]
@[simp] theorem finish_pwr (s : State) (p : Pend) (status state : Nat) (b : Bytes) : (finish s p status state b).pwr = s.pwr := by simp [finish]
@[simp] theorem finish_health (s : State) (p : Pend) (status state : Nat) (b : Bytes) : (finish s p status state b).health = s.health := by simp [finish]
@[simp] theorem finish_adv (s : State) (p : Pend) (status state : Nat) (b : Bytes) : (finish s p status state b).adv = s.adv := by simp [finish]
@[simp] theorem finish_planned (s : State) (p : Pend) (status state : Nat) (b : Bytes) : (finish s p status state b).planned = s.planned := by simp [finish]
@[simp] theorem finish_dists (s : State) (p : Pend) (status state : Nat) (b : Bytes) : (finish s p status state b).dists = s.dists := by simp [finish]
@[simp] theorem finish_backs (s : State) (p : Pend) (status state : Nat) (b : Bytes) : (finish s p status state b).backs = s.backs := by simp [finish]
@[simp] theorem finish_nextBid (s : State) (p : Pend) (status state : Nat) (b : Bytes) : (finish s p status state b).nextBid = s.nextBid := by simp [finish]
@[simp] theorem finish_nextSig (s : State) (p : Pend) (status state : Nat) (b : Bytes) : (finish s p status state b).nextSig = s.nextSig := by simp [finish]
@[simp] theorem finish_flash (s : State) (p : Pend) (status state : Nat) (b : Bytes) : (finish s p status state b).flash = s.flash := by simp [finish]
@[simp] theorem finish_sites (s : State) (p : Pend) (status state : Nat) (b : Bytes) : (finish s p status state b).sites = s.sites := by simp [finish]
@[simp] theorem finish_chans (s : State) (p : Pend) (status state : Nat) (b : Bytes) : (finish s p status state b).chans = s.chans := by simp [finish]
@[simp] theorem finish_links (s : State) (p : Pend) (status state : Nat) (b : Bytes) : (finish s p status state b).links = s.links := by simp [finish]
@[simp] theorem finish_groups (s : State) (p : Pend) (status state : Nat) (b : Bytes) : (finish s p status state b).groups = s.groups := by simp [finish]
@[simp] theorem finish_pipes (s : State) (p : Pend) (status state : Nat) (b : Bytes) : (finish s p status state b).pipes = s.pipes := by simp [finish]
@[simp] theorem finish_jtagCells (s : State) (p : Pend) (status state : Nat) (b : Bytes) : (finish s p status state b).jtagCells = s.jtagCells := by simp [finish]
@[simp] theorem finish_jtagMode (s : State) (p : Pend) (status state : Nat) (b : Bytes) : (finish s p status state b).jtagMode = s.jtagMode := by simp [finish]
@[simp] theorem finish_work (s : State) (p : Pend) (status state : Nat) (b : Bytes) : (finish s p status state b).work = s.work := by simp [finish]
@[simp] theorem finish_cyc (s : State) (p : Pend) (status state : Nat) (b : Bytes) : (finish s p status state b).cyc = s.cyc := by simp [finish]

/-! ## finishOk -/

@[simp] theorem finishOk_pending (s : State) (p : Pend) (b : Bytes) : (finishOk s p b).pending = s.pending := by simp [finishOk]
@[simp] theorem finishOk_now (s : State) (p : Pend) (b : Bytes) : (finishOk s p b).now = s.now := by simp [finishOk]
@[simp] theorem finishOk_freeCtr (s : State) (p : Pend) (b : Bytes) : (finishOk s p b).freeCtr = s.freeCtr := by simp [finishOk]
@[simp] theorem finishOk_population (s : State) (p : Pend) (b : Bytes) : (finishOk s p b).population = s.population := by simp [finishOk]
@[simp] theorem finishOk_pins (s : State) (p : Pend) (b : Bytes) : (finishOk s p b).pins = s.pins := by simp [finishOk]
@[simp] theorem finishOk_indexOk (s : State) (p : Pend) (b : Bytes) : (finishOk s p b).indexOk = s.indexOk := by simp [finishOk]
@[simp] theorem finishOk_index (s : State) (p : Pend) (b : Bytes) : (finishOk s p b).index = s.index := by simp [finishOk]
@[simp] theorem finishOk_training (s : State) (p : Pend) (b : Bytes) : (finishOk s p b).training = s.training := by simp [finishOk]
@[simp] theorem finishOk_board (s : State) (p : Pend) (b : Bytes) : (finishOk s p b).board = s.board := by simp [finishOk]
@[simp] theorem finishOk_lpSites (s : State) (p : Pend) (b : Bytes) : (finishOk s p b).lpSites = s.lpSites := by simp [finishOk]
@[simp] theorem finishOk_lpRate (s : State) (p : Pend) (b : Bytes) : (finishOk s p b).lpRate = s.lpRate := by simp [finishOk]
@[simp] theorem finishOk_lpMib (s : State) (p : Pend) (b : Bytes) : (finishOk s p b).lpMib = s.lpMib := by simp [finishOk]
@[simp] theorem finishOk_pcie (s : State) (p : Pend) (b : Bytes) : (finishOk s p b).pcie = s.pcie := by simp [finishOk]
@[simp] theorem finishOk_emitted (s : State) (p : Pend) (b : Bytes) : (finishOk s p b).emitted = s.emitted := by simp [finishOk]
@[simp] theorem finishOk_deferred (s : State) (p : Pend) (b : Bytes) : (finishOk s p b).deferred = s.deferred := by simp [finishOk]
@[simp] theorem finishOk_held (s : State) (p : Pend) (b : Bytes) : (finishOk s p b).held = s.held := by simp [finishOk]
@[simp] theorem finishOk_out (s : State) (p : Pend) (b : Bytes) : (finishOk s p b).out = s.out := by simp [finishOk]
@[simp] theorem finishOk_lastRel (s : State) (p : Pend) (b : Bytes) : (finishOk s p b).lastRel = s.lastRel := by simp [finishOk]
@[simp] theorem finishOk_sec (s : State) (p : Pend) (b : Bytes) : (finishOk s p b).sec = s.sec := by simp [finishOk]
@[simp] theorem finishOk_nvm (s : State) (p : Pend) (b : Bytes) : (finishOk s p b).nvm = s.nvm := by simp [finishOk]
@[simp] theorem finishOk_pwr (s : State) (p : Pend) (b : Bytes) : (finishOk s p b).pwr = s.pwr := by simp [finishOk]
@[simp] theorem finishOk_health (s : State) (p : Pend) (b : Bytes) : (finishOk s p b).health = s.health := by simp [finishOk]
@[simp] theorem finishOk_adv (s : State) (p : Pend) (b : Bytes) : (finishOk s p b).adv = s.adv := by simp [finishOk]
@[simp] theorem finishOk_planned (s : State) (p : Pend) (b : Bytes) : (finishOk s p b).planned = s.planned := by simp [finishOk]
@[simp] theorem finishOk_dists (s : State) (p : Pend) (b : Bytes) : (finishOk s p b).dists = s.dists := by simp [finishOk]
@[simp] theorem finishOk_backs (s : State) (p : Pend) (b : Bytes) : (finishOk s p b).backs = s.backs := by simp [finishOk]
@[simp] theorem finishOk_nextBid (s : State) (p : Pend) (b : Bytes) : (finishOk s p b).nextBid = s.nextBid := by simp [finishOk]
@[simp] theorem finishOk_nextSig (s : State) (p : Pend) (b : Bytes) : (finishOk s p b).nextSig = s.nextSig := by simp [finishOk]
@[simp] theorem finishOk_flash (s : State) (p : Pend) (b : Bytes) : (finishOk s p b).flash = s.flash := by simp [finishOk]
@[simp] theorem finishOk_sites (s : State) (p : Pend) (b : Bytes) : (finishOk s p b).sites = s.sites := by simp [finishOk]
@[simp] theorem finishOk_chans (s : State) (p : Pend) (b : Bytes) : (finishOk s p b).chans = s.chans := by simp [finishOk]
@[simp] theorem finishOk_links (s : State) (p : Pend) (b : Bytes) : (finishOk s p b).links = s.links := by simp [finishOk]
@[simp] theorem finishOk_groups (s : State) (p : Pend) (b : Bytes) : (finishOk s p b).groups = s.groups := by simp [finishOk]
@[simp] theorem finishOk_pipes (s : State) (p : Pend) (b : Bytes) : (finishOk s p b).pipes = s.pipes := by simp [finishOk]
@[simp] theorem finishOk_jtagCells (s : State) (p : Pend) (b : Bytes) : (finishOk s p b).jtagCells = s.jtagCells := by simp [finishOk]
@[simp] theorem finishOk_jtagMode (s : State) (p : Pend) (b : Bytes) : (finishOk s p b).jtagMode = s.jtagMode := by simp [finishOk]
@[simp] theorem finishOk_work (s : State) (p : Pend) (b : Bytes) : (finishOk s p b).work = s.work := by simp [finishOk]
@[simp] theorem finishOk_cyc (s : State) (p : Pend) (b : Bytes) : (finishOk s p b).cyc = s.cyc := by simp [finishOk]

/-! ## wakeLoop -/

@[simp] theorem wakeLoop_pending (s : State) (d : Nat) : (wakeLoop s d).pending = s.pending := by simp only [wakeLoop]; (repeat' split) <;> rfl
@[simp] theorem wakeLoop_now (s : State) (d : Nat) : (wakeLoop s d).now = s.now := by simp only [wakeLoop]; (repeat' split) <;> rfl
@[simp] theorem wakeLoop_freeCtr (s : State) (d : Nat) : (wakeLoop s d).freeCtr = s.freeCtr := by simp only [wakeLoop]; (repeat' split) <;> rfl
@[simp] theorem wakeLoop_population (s : State) (d : Nat) : (wakeLoop s d).population = s.population := by simp only [wakeLoop]; (repeat' split) <;> rfl
@[simp] theorem wakeLoop_pins (s : State) (d : Nat) : (wakeLoop s d).pins = s.pins := by simp only [wakeLoop]; (repeat' split) <;> rfl
@[simp] theorem wakeLoop_indexOk (s : State) (d : Nat) : (wakeLoop s d).indexOk = s.indexOk := by simp only [wakeLoop]; (repeat' split) <;> rfl
@[simp] theorem wakeLoop_index (s : State) (d : Nat) : (wakeLoop s d).index = s.index := by simp only [wakeLoop]; (repeat' split) <;> rfl
@[simp] theorem wakeLoop_training (s : State) (d : Nat) : (wakeLoop s d).training = s.training := by simp only [wakeLoop]; (repeat' split) <;> rfl
@[simp] theorem wakeLoop_board (s : State) (d : Nat) : (wakeLoop s d).board = s.board := by simp only [wakeLoop]; (repeat' split) <;> rfl
@[simp] theorem wakeLoop_lpSites (s : State) (d : Nat) : (wakeLoop s d).lpSites = s.lpSites := by simp only [wakeLoop]; (repeat' split) <;> rfl
@[simp] theorem wakeLoop_lpRate (s : State) (d : Nat) : (wakeLoop s d).lpRate = s.lpRate := by simp only [wakeLoop]; (repeat' split) <;> rfl
@[simp] theorem wakeLoop_lpMib (s : State) (d : Nat) : (wakeLoop s d).lpMib = s.lpMib := by simp only [wakeLoop]; (repeat' split) <;> rfl
@[simp] theorem wakeLoop_fns (s : State) (d : Nat) : (wakeLoop s d).fns = s.fns := by simp only [wakeLoop]; (repeat' split) <;> rfl
@[simp] theorem wakeLoop_pcie (s : State) (d : Nat) : (wakeLoop s d).pcie = s.pcie := by simp only [wakeLoop]; (repeat' split) <;> rfl
@[simp] theorem wakeLoop_emitted (s : State) (d : Nat) : (wakeLoop s d).emitted = s.emitted := by simp only [wakeLoop]; (repeat' split) <;> rfl
@[simp] theorem wakeLoop_deferred (s : State) (d : Nat) : (wakeLoop s d).deferred = s.deferred := by simp only [wakeLoop]; (repeat' split) <;> rfl
@[simp] theorem wakeLoop_held (s : State) (d : Nat) : (wakeLoop s d).held = s.held := by simp only [wakeLoop]; (repeat' split) <;> rfl
@[simp] theorem wakeLoop_out (s : State) (d : Nat) : (wakeLoop s d).out = s.out := by simp only [wakeLoop]; (repeat' split) <;> rfl
@[simp] theorem wakeLoop_lastRel (s : State) (d : Nat) : (wakeLoop s d).lastRel = s.lastRel := by simp only [wakeLoop]; (repeat' split) <;> rfl
@[simp] theorem wakeLoop_sec (s : State) (d : Nat) : (wakeLoop s d).sec = s.sec := by simp only [wakeLoop]; (repeat' split) <;> rfl
@[simp] theorem wakeLoop_nvm (s : State) (d : Nat) : (wakeLoop s d).nvm = s.nvm := by simp only [wakeLoop]; (repeat' split) <;> rfl
@[simp] theorem wakeLoop_pwr (s : State) (d : Nat) : (wakeLoop s d).pwr = s.pwr := by simp only [wakeLoop]; (repeat' split) <;> rfl
@[simp] theorem wakeLoop_health (s : State) (d : Nat) : (wakeLoop s d).health = s.health := by simp only [wakeLoop]; (repeat' split) <;> rfl
@[simp] theorem wakeLoop_adv (s : State) (d : Nat) : (wakeLoop s d).adv = s.adv := by simp only [wakeLoop]; (repeat' split) <;> rfl
@[simp] theorem wakeLoop_planned (s : State) (d : Nat) : (wakeLoop s d).planned = s.planned := by simp only [wakeLoop]; (repeat' split) <;> rfl
@[simp] theorem wakeLoop_backs (s : State) (d : Nat) : (wakeLoop s d).backs = s.backs := by simp only [wakeLoop]; (repeat' split) <;> rfl
@[simp] theorem wakeLoop_nextBid (s : State) (d : Nat) : (wakeLoop s d).nextBid = s.nextBid := by simp only [wakeLoop]; (repeat' split) <;> rfl
@[simp] theorem wakeLoop_nextSig (s : State) (d : Nat) : (wakeLoop s d).nextSig = s.nextSig := by simp only [wakeLoop]; (repeat' split) <;> rfl
@[simp] theorem wakeLoop_flash (s : State) (d : Nat) : (wakeLoop s d).flash = s.flash := by simp only [wakeLoop]; (repeat' split) <;> rfl
@[simp] theorem wakeLoop_sites (s : State) (d : Nat) : (wakeLoop s d).sites = s.sites := by simp only [wakeLoop]; (repeat' split) <;> rfl
@[simp] theorem wakeLoop_chans (s : State) (d : Nat) : (wakeLoop s d).chans = s.chans := by simp only [wakeLoop]; (repeat' split) <;> rfl
@[simp] theorem wakeLoop_links (s : State) (d : Nat) : (wakeLoop s d).links = s.links := by simp only [wakeLoop]; (repeat' split) <;> rfl
@[simp] theorem wakeLoop_groups (s : State) (d : Nat) : (wakeLoop s d).groups = s.groups := by simp only [wakeLoop]; (repeat' split) <;> rfl
@[simp] theorem wakeLoop_pipes (s : State) (d : Nat) : (wakeLoop s d).pipes = s.pipes := by simp only [wakeLoop]; (repeat' split) <;> rfl
@[simp] theorem wakeLoop_jtagCells (s : State) (d : Nat) : (wakeLoop s d).jtagCells = s.jtagCells := by simp only [wakeLoop]; (repeat' split) <;> rfl
@[simp] theorem wakeLoop_jtagMode (s : State) (d : Nat) : (wakeLoop s d).jtagMode = s.jtagMode := by simp only [wakeLoop]; (repeat' split) <;> rfl
@[simp] theorem wakeLoop_work (s : State) (d : Nat) : (wakeLoop s d).work = s.work := by simp only [wakeLoop]; (repeat' split) <;> rfl
@[simp] theorem wakeLoop_cyc (s : State) (d : Nat) : (wakeLoop s d).cyc = s.cyc := by simp only [wakeLoop]; (repeat' split) <;> rfl

end Sys2Proof.Machine
end

