-- ==== Sys2Proof/Laws/Ops.lean ====
section
/-! SUPPORT. What the shared operations do, once each: access, flags and vectors, events, replies, and the order of a
firmware command's checks. -/

namespace Sys2Proof.Machine

/-! ## Access -/

@[simp] theorem getFn_modFn_self (s : State) (f : Nat) (g : Fn → Fn) : getFn (modFn s f g) f = g (getFn s f) := by
  simp [getFn, modFn]

theorem getFn_modFn_ne (s : State) {f i : Nat} (g : Fn → Fn) (h : i ≠ f) : getFn (modFn s f g) i = getFn s i := by
  simp [getFn, modFn, tget_tmod_ne _ _ _ h]

@[simp] theorem getDist_modDist_self (s : State) (d : Nat) (g : Dist → Dist) : getDist (modDist s d g) d = g (getDist s d) := by
  simp [getDist, modDist]

theorem getDist_modDist_ne (s : State) {d i : Nat} (g : Dist → Dist) (h : i ≠ d) : getDist (modDist s d g) i = getDist s i := by
  simp [getDist, modDist, tget_tmod_ne _ _ _ h]

@[simp] theorem getCore_modCore_self (s : State) (d c : Nat) (g : Core → Core) : getCore (modCore s d c g) d c = g (getCore s d c) := by
  simp [getCore, modCore]

@[simp] theorem getBack_modBack_self (s : State) (b : Nat) (g : Backing → Backing) : getBack (modBack s b g) b = g (getBack s b) := by
  simp [getBack, modBack]

/-- What reads only the functions does not see a change elsewhere. -/
theorem getFn_congr {s t : State} (h : t.fns = s.fns) (f : Nat) : getFn t f = getFn s f := by simp [getFn, h]

/-- What reads only the districts does not see a change elsewhere. -/
theorem getDist_congr {s t : State} (h : t.dists = s.dists) (d : Nat) : getDist t d = getDist s d := by simp [getDist, h]

@[simp] theorem getFn_modDist (s : State) (d f : Nat) (g : Dist → Dist) : getFn (modDist s d g) f = getFn s f := rfl
@[simp] theorem getFn_modCore (s : State) (d c f : Nat) (g : Core → Core) : getFn (modCore s d c g) f = getFn s f := rfl
@[simp] theorem getFn_modBack (s : State) (b f : Nat) (g : Backing → Backing) : getFn (modBack s b g) f = getFn s f := rfl
@[simp] theorem getFn_send (s : State) (o : Out) (f : Nat) : getFn (send s o) f = getFn s f := rfl
@[simp] theorem getFn_emitLater (s : State) (a b c d : Nat) (l : List Nat) (f : Nat) : getFn (emitLater s a b c d l) f = getFn s f := rfl
@[simp] theorem getFn_wakeLoop (s : State) (d f : Nat) : getFn (wakeLoop s d) f = getFn s f := getFn_congr (by simp) f
@[simp] theorem getDist_modFn (s : State) (f d : Nat) (g : Fn → Fn) : getDist (modFn s f g) d = getDist s d := rfl
@[simp] theorem getDist_modBack (s : State) (b d : Nat) (g : Backing → Backing) : getDist (modBack s b g) d = getDist s d := rfl
@[simp] theorem getDist_send (s : State) (o : Out) (d : Nat) : getDist (send s o) d = getDist s d := rfl
@[simp] theorem getDist_setFlag (s : State) (f i d : Nat) : getDist (setFlag s f i) d = getDist s d := getDist_congr (by simp) d
@[simp] theorem getDist_raiseVec (s : State) (f v d : Nat) : getDist (raiseVec s f v) d = getDist s d := getDist_congr (by simp) d
@[simp] theorem getDist_emit (s : State) (a b c e : Nat) (l : List Nat) (d : Nat) : getDist (emit s a b c e l) d = getDist s d :=
  getDist_congr (by simp) d
@[simp] theorem getDist_queueReply (s : State) (e : Nat) (r : Reply) (d : Nat) : getDist (queueReply s e r) d = getDist s d :=
  getDist_congr (by simp) d
@[simp] theorem getDist_replyOk (s : State) (c : FwReq) (cmd : Nat) (p : Bytes) (d : Nat) :
    getDist (replyOk s c cmd p) d = getDist s d := getDist_congr (by simp) d
@[simp] theorem getDist_replyAccepted (s : State) (c : FwReq) (cmd d : Nat) :
    getDist (replyAccepted s c cmd) d = getDist s d := getDist_congr (by simp) d
@[simp] theorem getDist_refuse (s : State) (c : FwReq) (cmd : Nat) (e : Err) (d : Nat) :
    getDist (refuse s c cmd e) d = getDist s d := getDist_congr (by simp) d
@[simp] theorem getDist_finish (s : State) (p : Pend) (a b : Nat) (l : Bytes) (d : Nat) :
    getDist (finish s p a b l) d = getDist s d := getDist_congr (by simp) d
@[simp] theorem getDist_finishOk (s : State) (p : Pend) (l : Bytes) (d : Nat) :
    getDist (finishOk s p l) d = getDist s d := getDist_congr (by simp) d

/-! ## What an operation on the functions leaves of each function -/

/-- A flag set changes the flags alone. -/
theorem getFn_setFlag (s : State) (f i g : Nat) :
    getFn (setFlag s f i) g = (if g = f ∧ ¬(i = 5 ∧ f ≠ 0) then { getFn s g with flags := tmod {} (getFn s g).flags i flagSet } else getFn s g) := by
  unfold setFlag
  by_cases h : i = 5 ∧ f ≠ 0
  · simp [h]
  · rw [if_neg h]
    by_cases e : g = f
    · subst e; rw [if_pos ⟨rfl, h⟩]; simp
    · simp [e, getFn_modFn_ne _ _ e]

/-- A vector raised changes a function's interrupt state alone. -/
theorem getFn_raiseVec (s : State) (f vec g : Nat) :
    ∃ p u a, getFn (raiseVec s f vec) g = { getFn s g with msixPending := p, modUntil := u, modAgain := a } := by
  have m : ∀ (s : State), ∃ p, getFn (msix s f vec) g = { getFn s g with msixPending := p } := by
    intro s
    by_cases e : g = f
    · subst e
      simp only [msix]
      (repeat' split) <;> first
        | exact ⟨_, rfl⟩
        | exact ⟨_, getFn_modFn_self _ _ _⟩
    · simp only [msix]
      (repeat' split) <;> first
        | exact ⟨_, rfl⟩
        | (refine ⟨(getFn s g).msixPending, ?_⟩; rw [getFn_modFn_ne _ _ e])
  simp only [raiseVec]
  by_cases e : g = f
  · subst e
    obtain ⟨p, hp⟩ := m s
    (repeat' split) <;> first
      | exact ⟨p, (getFn s g).modUntil, (getFn s g).modAgain, hp⟩
      | exact ⟨p, _, (getFn s g).modAgain, by rw [getFn_modFn_self, hp]⟩
      | exact ⟨(getFn s g).msixPending, (getFn s g).modUntil, _, by rw [getFn_modFn_self]⟩
  · obtain ⟨p, hp⟩ := m s
    (repeat' split) <;> first
      | exact ⟨p, (getFn s g).modUntil, (getFn s g).modAgain, hp⟩
      | exact ⟨p, (getFn s g).modUntil, (getFn s g).modAgain, by rw [getFn_modFn_ne _ _ e, hp]⟩
      | exact ⟨(getFn s g).msixPending, (getFn s g).modUntil, (getFn s g).modAgain, by rw [getFn_modFn_ne _ _ e]⟩

/-! ### Fields of a function -/

@[simp] theorem setFlag_fn_inbox (s : State) (f i g : Nat) : (getFn (setFlag s f i) g).inbox = (getFn s g).inbox := by
  rw [getFn_setFlag]; split <;> rfl
@[simp] theorem raiseVec_fn_inbox (s : State) (f v g : Nat) : (getFn (raiseVec s f v) g).inbox = (getFn s g).inbox := by
  obtain ⟨p, u, a, h⟩ := getFn_raiseVec s f v g; rw [h]
@[simp] theorem emit_fn_inbox (s : State) (a b c d : Nat) (l : List Nat) (g : Nat) : (getFn (emit s a b c d l) g).inbox = (getFn s g).inbox := by
  unfold emit fatalRaised; split
  · simp only [setFlag_fn_inbox, raiseVec_fn_inbox]; rfl
  · rfl
@[simp] theorem setFlag_fn_outbox (s : State) (f i g : Nat) : (getFn (setFlag s f i) g).outbox = (getFn s g).outbox := by
  rw [getFn_setFlag]; split <;> rfl
@[simp] theorem raiseVec_fn_outbox (s : State) (f v g : Nat) : (getFn (raiseVec s f v) g).outbox = (getFn s g).outbox := by
  obtain ⟨p, u, a, h⟩ := getFn_raiseVec s f v g; rw [h]
@[simp] theorem emit_fn_outbox (s : State) (a b c d : Nat) (l : List Nat) (g : Nat) : (getFn (emit s a b c d l) g).outbox = (getFn s g).outbox := by
  unfold emit fatalRaised; split
  · simp only [setFlag_fn_outbox, raiseVec_fn_outbox]; rfl
  · rfl
@[simp] theorem setFlag_fn_expSeq (s : State) (f i g : Nat) : (getFn (setFlag s f i) g).expSeq = (getFn s g).expSeq := by
  rw [getFn_setFlag]; split <;> rfl
@[simp] theorem raiseVec_fn_expSeq (s : State) (f v g : Nat) : (getFn (raiseVec s f v) g).expSeq = (getFn s g).expSeq := by
  obtain ⟨p, u, a, h⟩ := getFn_raiseVec s f v g; rw [h]
@[simp] theorem emit_fn_expSeq (s : State) (a b c d : Nat) (l : List Nat) (g : Nat) : (getFn (emit s a b c d l) g).expSeq = (getFn s g).expSeq := by
  unfold emit fatalRaised; split
  · simp only [setFlag_fn_expSeq, raiseVec_fn_expSeq]; rfl
  · rfl
@[simp] theorem setFlag_fn_held (s : State) (f i g : Nat) : (getFn (setFlag s f i) g).held = (getFn s g).held := by
  rw [getFn_setFlag]; split <;> rfl
@[simp] theorem raiseVec_fn_held (s : State) (f v g : Nat) : (getFn (raiseVec s f v) g).held = (getFn s g).held := by
  obtain ⟨p, u, a, h⟩ := getFn_raiseVec s f v g; rw [h]
@[simp] theorem emit_fn_held (s : State) (a b c d : Nat) (l : List Nat) (g : Nat) : (getFn (emit s a b c d l) g).held = (getFn s g).held := by
  unfold emit fatalRaised; split
  · simp only [setFlag_fn_held, raiseVec_fn_held]; rfl
  · rfl
@[simp] theorem setFlag_fn_nextOut (s : State) (f i g : Nat) : (getFn (setFlag s f i) g).nextOut = (getFn s g).nextOut := by
  rw [getFn_setFlag]; split <;> rfl
@[simp] theorem raiseVec_fn_nextOut (s : State) (f v g : Nat) : (getFn (raiseVec s f v) g).nextOut = (getFn s g).nextOut := by
  obtain ⟨p, u, a, h⟩ := getFn_raiseVec s f v g; rw [h]
@[simp] theorem emit_fn_nextOut (s : State) (a b c d : Nat) (l : List Nat) (g : Nat) : (getFn (emit s a b c d l) g).nextOut = (getFn s g).nextOut := by
  unfold emit fatalRaised; split
  · simp only [setFlag_fn_nextOut, raiseVec_fn_nextOut]; rfl
  · rfl
@[simp] theorem setFlag_fn_replies (s : State) (f i g : Nat) : (getFn (setFlag s f i) g).replies = (getFn s g).replies := by
  rw [getFn_setFlag]; split <;> rfl
@[simp] theorem raiseVec_fn_replies (s : State) (f v g : Nat) : (getFn (raiseVec s f v) g).replies = (getFn s g).replies := by
  obtain ⟨p, u, a, h⟩ := getFn_raiseVec s f v g; rw [h]
@[simp] theorem emit_fn_replies (s : State) (a b c d : Nat) (l : List Nat) (g : Nat) : (getFn (emit s a b c d l) g).replies = (getFn s g).replies := by
  unfold emit fatalRaised; split
  · simp only [setFlag_fn_replies, raiseVec_fn_replies]; rfl
  · rfl
@[simp] theorem setFlag_fn_epoch (s : State) (f i g : Nat) : (getFn (setFlag s f i) g).epoch = (getFn s g).epoch := by
  rw [getFn_setFlag]; split <;> rfl
@[simp] theorem raiseVec_fn_epoch (s : State) (f v g : Nat) : (getFn (raiseVec s f v) g).epoch = (getFn s g).epoch := by
  obtain ⟨p, u, a, h⟩ := getFn_raiseVec s f v g; rw [h]
@[simp] theorem emit_fn_epoch (s : State) (a b c d : Nat) (l : List Nat) (g : Nat) : (getFn (emit s a b c d l) g).epoch = (getFn s g).epoch := by
  unfold emit fatalRaised; split
  · simp only [setFlag_fn_epoch, raiseVec_fn_epoch]; rfl
  · rfl
@[simp] theorem setFlag_fn_flr (s : State) (f i g : Nat) : (getFn (setFlag s f i) g).flr = (getFn s g).flr := by
  rw [getFn_setFlag]; split <;> rfl
@[simp] theorem raiseVec_fn_flr (s : State) (f v g : Nat) : (getFn (raiseVec s f v) g).flr = (getFn s g).flr := by
  obtain ⟨p, u, a, h⟩ := getFn_raiseVec s f v g; rw [h]
@[simp] theorem emit_fn_flr (s : State) (a b c d : Nat) (l : List Nat) (g : Nat) : (getFn (emit s a b c d l) g).flr = (getFn s g).flr := by
  unfold emit fatalRaised; split
  · simp only [setFlag_fn_flr, raiseVec_fn_flr]; rfl
  · rfl
@[simp] theorem setFlag_fn_ring (s : State) (f i g : Nat) : (getFn (setFlag s f i) g).ring = (getFn s g).ring := by
  rw [getFn_setFlag]; split <;> rfl
@[simp] theorem raiseVec_fn_ring (s : State) (f v g : Nat) : (getFn (raiseVec s f v) g).ring = (getFn s g).ring := by
  obtain ⟨p, u, a, h⟩ := getFn_raiseVec s f v g; rw [h]
@[simp] theorem emit_fn_ring (s : State) (a b c d : Nat) (l : List Nat) (g : Nat) : (getFn (emit s a b c d l) g).ring = (getFn s g).ring := by
  unfold emit fatalRaised; split
  · simp only [setFlag_fn_ring, raiseVec_fn_ring]; rfl
  · rfl
@[simp] theorem raiseVec_fn_flags (s : State) (f v g : Nat) : (getFn (raiseVec s f v) g).flags = (getFn s g).flags := by
  obtain ⟨p, u, a, h⟩ := getFn_raiseVec s f v g; rw [h]
@[simp] theorem setFlag_fn_latch (s : State) (f i g : Nat) : (getFn (setFlag s f i) g).latch = (getFn s g).latch := by
  rw [getFn_setFlag]; split <;> rfl
@[simp] theorem raiseVec_fn_latch (s : State) (f v g : Nat) : (getFn (raiseVec s f v) g).latch = (getFn s g).latch := by
  obtain ⟨p, u, a, h⟩ := getFn_raiseVec s f v g; rw [h]
@[simp] theorem emit_fn_latch (s : State) (a b c d : Nat) (l : List Nat) (g : Nat) : (getFn (emit s a b c d l) g).latch = (getFn s g).latch := by
  unfold emit fatalRaised; split
  · simp only [setFlag_fn_latch, raiseVec_fn_latch]; rfl
  · rfl
@[simp] theorem setFlag_fn_winBase (s : State) (f i g : Nat) : (getFn (setFlag s f i) g).winBase = (getFn s g).winBase := by
  rw [getFn_setFlag]; split <;> rfl
@[simp] theorem raiseVec_fn_winBase (s : State) (f v g : Nat) : (getFn (raiseVec s f v) g).winBase = (getFn s g).winBase := by
  obtain ⟨p, u, a, h⟩ := getFn_raiseVec s f v g; rw [h]
@[simp] theorem emit_fn_winBase (s : State) (a b c d : Nat) (l : List Nat) (g : Nat) : (getFn (emit s a b c d l) g).winBase = (getFn s g).winBase := by
  unfold emit fatalRaised; split
  · simp only [setFlag_fn_winBase, raiseVec_fn_winBase]; rfl
  · rfl
@[simp] theorem setFlag_fn_bar2Log (s : State) (f i g : Nat) : (getFn (setFlag s f i) g).bar2Log = (getFn s g).bar2Log := by
  rw [getFn_setFlag]; split <;> rfl
@[simp] theorem raiseVec_fn_bar2Log (s : State) (f v g : Nat) : (getFn (raiseVec s f v) g).bar2Log = (getFn s g).bar2Log := by
  obtain ⟨p, u, a, h⟩ := getFn_raiseVec s f v g; rw [h]
@[simp] theorem emit_fn_bar2Log (s : State) (a b c d : Nat) (l : List Nat) (g : Nat) : (getFn (emit s a b c d l) g).bar2Log = (getFn s g).bar2Log := by
  unfold emit fatalRaised; split
  · simp only [setFlag_fn_bar2Log, raiseVec_fn_bar2Log]; rfl
  · rfl
@[simp] theorem setFlag_fn_msixEnable (s : State) (f i g : Nat) : (getFn (setFlag s f i) g).msixEnable = (getFn s g).msixEnable := by
  rw [getFn_setFlag]; split <;> rfl
@[simp] theorem raiseVec_fn_msixEnable (s : State) (f v g : Nat) : (getFn (raiseVec s f v) g).msixEnable = (getFn s g).msixEnable := by
  obtain ⟨p, u, a, h⟩ := getFn_raiseVec s f v g; rw [h]
@[simp] theorem emit_fn_msixEnable (s : State) (a b c d : Nat) (l : List Nat) (g : Nat) : (getFn (emit s a b c d l) g).msixEnable = (getFn s g).msixEnable := by
  unfold emit fatalRaised; split
  · simp only [setFlag_fn_msixEnable, raiseVec_fn_msixEnable]; rfl
  · rfl
@[simp] theorem setFlag_fn_msixFnMask (s : State) (f i g : Nat) : (getFn (setFlag s f i) g).msixFnMask = (getFn s g).msixFnMask := by
  rw [getFn_setFlag]; split <;> rfl
@[simp] theorem raiseVec_fn_msixFnMask (s : State) (f v g : Nat) : (getFn (raiseVec s f v) g).msixFnMask = (getFn s g).msixFnMask := by
  obtain ⟨p, u, a, h⟩ := getFn_raiseVec s f v g; rw [h]
@[simp] theorem emit_fn_msixFnMask (s : State) (a b c d : Nat) (l : List Nat) (g : Nat) : (getFn (emit s a b c d l) g).msixFnMask = (getFn s g).msixFnMask := by
  unfold emit fatalRaised; split
  · simp only [setFlag_fn_msixFnMask, raiseVec_fn_msixFnMask]; rfl
  · rfl
@[simp] theorem setFlag_fn_msixMasked (s : State) (f i g : Nat) : (getFn (setFlag s f i) g).msixMasked = (getFn s g).msixMasked := by
  rw [getFn_setFlag]; split <;> rfl
@[simp] theorem raiseVec_fn_msixMasked (s : State) (f v g : Nat) : (getFn (raiseVec s f v) g).msixMasked = (getFn s g).msixMasked := by
  obtain ⟨p, u, a, h⟩ := getFn_raiseVec s f v g; rw [h]
@[simp] theorem emit_fn_msixMasked (s : State) (a b c d : Nat) (l : List Nat) (g : Nat) : (getFn (emit s a b c d l) g).msixMasked = (getFn s g).msixMasked := by
  unfold emit fatalRaised; split
  · simp only [setFlag_fn_msixMasked, raiseVec_fn_msixMasked]; rfl
  · rfl
@[simp] theorem setFlag_fn_msixPending (s : State) (f i g : Nat) : (getFn (setFlag s f i) g).msixPending = (getFn s g).msixPending := by
  rw [getFn_setFlag]; split <;> rfl
@[simp] theorem setFlag_fn_modUntil (s : State) (f i g : Nat) : (getFn (setFlag s f i) g).modUntil = (getFn s g).modUntil := by
  rw [getFn_setFlag]; split <;> rfl
@[simp] theorem setFlag_fn_modAgain (s : State) (f i g : Nat) : (getFn (setFlag s f i) g).modAgain = (getFn s g).modAgain := by
  rw [getFn_setFlag]; split <;> rfl
@[simp] theorem setFlag_fn_binds (s : State) (f i g : Nat) : (getFn (setFlag s f i) g).binds = (getFn s g).binds := by
  rw [getFn_setFlag]; split <;> rfl
@[simp] theorem raiseVec_fn_binds (s : State) (f v g : Nat) : (getFn (raiseVec s f v) g).binds = (getFn s g).binds := by
  obtain ⟨p, u, a, h⟩ := getFn_raiseVec s f v g; rw [h]
@[simp] theorem emit_fn_binds (s : State) (a b c d : Nat) (l : List Nat) (g : Nat) : (getFn (emit s a b c d l) g).binds = (getFn s g).binds := by
  unfold emit fatalRaised; split
  · simp only [setFlag_fn_binds, raiseVec_fn_binds]; rfl
  · rfl

/-! ## Events -/

@[simp] theorem emit_emitted (s : State) (a b c d : Nat) (l : List Nat) :
    (emit s a b c d l).emitted = s.emitted ++ [⟨s.now, a, b, c, d, l⟩] := by
  unfold emit; split <;> simp

@[simp] theorem send_out (s : State) (o : Out) : (send s o).out = o :: s.out := rfl


/-- An event that is not FATAL changes nothing but the log. -/
theorem emit_plain (s : State) (a b c d : Nat) (l : List Nat) (h : c ≠ 3) :
    emit s a b c d l = { s with emitted := s.emitted ++ [⟨s.now, a, b, c, d, l⟩] } := by
  unfold emit; rw [if_neg h]

/-! ## Replies -/

@[simp] theorem modFn_onlyFns (s : State) (f : Nat) (g : Fn → Fn) : onlyFns s (modFn s f g) := rfl

theorem queueReply_self (s : State) (r : Reply) :
    queueReply s (getFn s r.req.fn).epoch r = modFn s r.req.fn fun x => { x with replies := x.replies ++ [r] } := by
  simp [queueReply]

theorem replyOk_eq (s : State) (c : FwReq) (cmd : Nat) (p : Bytes) :
    replyOk s c cmd p = modFn s c.fn fun x => { x with replies := x.replies ++ [okReply c cmd p] } := by
  unfold replyOk; exact queueReply_self s (okReply c cmd p)

theorem replyAccepted_eq (s : State) (c : FwReq) (cmd : Nat) :
    replyAccepted s c cmd = modFn s c.fn fun x => { x with replies := x.replies ++ [acceptedReply c cmd] } := by
  unfold replyAccepted; exact queueReply_self s (acceptedReply c cmd)

theorem refuse_eq (s : State) (c : FwReq) (cmd : Nat) (e : Err) :
    refuse s c cmd e = modFn s c.fn fun x => { x with replies := x.replies ++ [errReply c cmd e] } := by
  unfold refuse; exact queueReply_self s (errReply c cmd e)

theorem replyOk_adds (s : State) (c : FwReq) (cmd : Nat) (p : Bytes) : repliesAdd s (replyOk s c cmd p) c.fn [okReply c cmd p] := by
  simp [repliesAdd, replyOk_eq]

theorem replyAccepted_adds (s : State) (c : FwReq) (cmd : Nat) : repliesAdd s (replyAccepted s c cmd) c.fn [acceptedReply c cmd] := by
  simp [repliesAdd, replyAccepted_eq]

theorem refuse_adds (s : State) (c : FwReq) (cmd : Nat) (e : Err) : repliesAdd s (refuse s c cmd e) c.fn [errReply c cmd e] := by
  simp [repliesAdd, refuse_eq]

/-- A final reply whose function has not been reset joins that function's replies. -/
theorem finish_adds (s : State) (p : Pend) (st x : Nat) (b : Bytes) (h : (getFn s p.req.fn).epoch = p.epoch) :
    repliesAdd s (finish s p st x b) p.req.fn
      [{ req := p.req, cmd := p.cmd, status := st, state := x, payload := b, first := false }] := by
  simp [repliesAdd, finish, queueReply, h]

/-! ## Checks (R49) -/

theorem firstErr_append (a b : List (Bool × Err)) : firstErr (a ++ b) = (firstErr a).or (firstErr b) := by
  induction a with
  | nil => simp [firstErr]
  | cons x l ih =>
    obtain ⟨c, e⟩ := x
    cases c <;> simp [firstErr, ih]

theorem served_not_both (s : State) : voxubRuns s = true → romServes s = false := by
  simp only [voxubRuns, romServes, Bool.and_eq_true, beq_iff_eq]
  rintro ⟨⟨⟨h, _⟩, _⟩, _⟩
  simp [h]

/-- The shared checks let a `Sendable` request of the right form pass. -/
theorem headChecks_pass {k : Spec} {c : FwReq} {s : State} (h : Sendable k c s) : firstErr (headChecks k true true c s) = none := by
  have hr : (romServes s && !k.romOk) = false := by
    cases e : romServes s
    · rfl
    · simp [h.rom e]
  have hf : decide (480 < c.payload.length) = false := by simp [h.fits]
  have hp : (k.pf0 && c.fn != 0) = false := by
    cases e : k.pf0
    · rfl
    · simp [h.pf0 e]
  have hd : (dbgLevel s == 3 && !k.scanOk) = false := by
    by_cases e : dbgLevel s = 3
    · simp [h.scan e]
    · simp [e]
  have h1 : (c.fn != 0 && c.district.toNat != c.fn) = false := by
    by_cases e : c.fn = 0
    · simp [e]
    · simp [h.own e]
  have h2 : (c.fn == 0 && decide (32 ≤ c.district.toNat) && decide (c.district.toNat ≤ 0xFE)) = false := by
    by_cases e : c.fn = 0
    · rcases h.named e with l | ⟨_, l⟩
      · simp [e]; omega
      · simp [e, l]
    · simp [e]
  have h3 : (c.fn == 0 && !k.wide && c.district.toNat == 0xFF) = false := by
    by_cases e : c.fn = 0
    · rcases h.named e with l | ⟨w, l⟩
      · have : c.district.toNat ≠ 255 := by omega
        simp [this]
      · simp [w]
    · simp [e]
  have h4 : (!k.wide && !k.emptyOk && (getDist s (cmdDist c)).state == 0) = false := by
    cases e1 : k.wide
    · cases e2 : k.emptyOk
      · simp [h.lives e1 e2]
      · simp
    · simp
  simp [headChecks, districtChecks, firstErr, hr, hf, hp, hd, h1, h2, h3, h4]

/-- A command that passes its checks acts, on the state in which a serving loop of its district that waited for a command has
been woken. -/
theorem fwStep_acts {k : Spec} {c : FwReq} {s : State} {checks : State → List (Bool × Err)} {eff : State → State} (h : Sendable k c s)
    (hc : firstErr (checks s) = none) :
    fwStep k c checks eff s = .next (eff (if k.wide then s else wakeLoop s (cmdDist c))) := by
  simp only [fwStep, h.fn, if_true, fwRun, h.served, hc]

/-- A command that fails a check is refused, with the first failing check, and does nothing else. -/
theorem fwStep_refuses {k : Spec} {c : FwReq} {s : State} {checks : State → List (Bool × Err)} {eff : State → State} {e : Err} (hf : c.fn < 32)
    (hs : served s = true) (hc : firstErr (checks s) = some e) :
    fwStep k c checks eff s = .next (refuse s c k.cmd e) := by
  simp only [fwStep, hf, if_true, fwRun, hs, hc]

/-- Waking a serving loop changes no district's state code. -/
@[simp] theorem wakeLoop_state (s : State) (d i : Nat) : (getDist (wakeLoop s d) i).state = (getDist s i).state := by
  simp only [wakeLoop]
  (repeat' split) <;> try rfl
  by_cases e : i = d
  · subst e; simp
  · rw [getDist_modDist_ne _ _ e]

/-- A request stays `Sendable` when a serving loop is woken. -/
theorem Sendable_wake {k : Spec} {c : FwReq} {s : State} (d : Nat) (h : Sendable k c s) : Sendable k c (wakeLoop s d) where
  fn := h.fn
  served := by simpa [Machine.served, voxubRuns, romServes] using h.served
  rom := by simpa [romServes] using h.rom
  scan := by simpa [dbgLevel] using h.scan
  fits := h.fits
  pf0 := h.pf0
  own := h.own
  named := h.named
  lives := by simpa using h.lives

end Sys2Proof.Machine
end

