-- ==== Sys2Proof/Tests/Slice0.lean ====
section
/-! SUPPORT. Small tests. For every statement with hypotheses, concrete states and operands that meet them, clause by clause
(`test_<Statement>_met`; a clause that depends on the opaque cryptography of Config has its witness under what that cryptography answers);
an ill-formed command for each check of `wf`; worked examples of the spec. -/

open Sys2Proof Sys2Proof.Machine

namespace Sys2Proof.Tests

set_option Elab.async false

/-- A booted device. -/
def up : State := { State.reset with
  now := 5000000, pins := { aonRst := false, sysRst := false, perst := false, sysPin := false }, indexOk := true
  sec := { boot := 3, lifecycle := 3, keys := true }, pcie := { linkUp := true, speed := 6, width := 16, vfs := 31 }
  lpSites := [0, 1, 2, 3], lpMib := 1024, board := { lpFitted := 15, flFitted := 3, flTargets := 2, flLuns := 2, flChGb := 100, linkWired := 0xFFFFFF } }
def d1 : Dist := { state := 1, q := 2, quarters := [0, 1], gen := 3 }
def seg1 : Seg := { tier := 1, coded := false, cached := false, ro := false, fallback := 0, prio := 0, deadlineUs := 0, subst := 0, place := 0, dbase := 0, size := 4096, firstExt := 0, volume := 0, bid := 1 }
def up1 : State := { up with dists := [(1, d1)] }
def up2 : State := { up with dists := [(1, { d1 with segs := [(1, seg1)] })], backs := [(1, { tier := 1, units := [0], size := 4096 })], nextBid := 2 }
def rq (fn dist : Nat) (p : Bytes := []) : FwReq := { fn := fn, slot := 1, seq := 5, district := BitVec.ofNat 8 dist, tag := 9, payload := p, takenAt := 77 }
def le (n v : Nat) : Bytes := leBytes n v
def rom (s : State) : State := { s with sec := { s.sec with boot := 2 } }
def bundle : Bytes := leBytes 4 0x42584F56 ++ [1, 0, 0, 0] ++ leBytes 4 (392 + 272) ++ leBytes 4 1 ++ leBytes 4 2 ++ List.replicate (256 - 20) 0 ++ List.replicate 136 3 ++ List.replicate 272 4
/-- A bundle of 664 bytes: version 1, SVN 1, release 2, key 0; the rest zero. -/
def bm : Mem := [(0, 0x56), (1, 0x4F), (2, 0x58), (3, 0x42), (4, 1), (8, 0x98), (9, 2), (12, 1), (16, 2)]
def evr (src : Nat) (st : Nat := 4999000) (k : Nat := 5) (d : Nat := 1) : EventRec := { stamp := BitVec.ofNat 64 st, source := src, kind := k, sev := 1, district := d, payload := [1] }
def ring1 : Ring := { enabled := true, base := 4096, consAddr := 64, log2n := 8, vector := 3, watermark := 4 }
def sFn (f : Nat) (x : Fn) (s : State := up2) : State := { s with fns := [(f, x)] }
def desc (kind : Nat) (body : Bytes := []) (flags : Nat := 0) : Bytes := let b := [BitVec.ofNat 8 kind, BitVec.ofNat 8 flags] ++ List.replicate 14 (0 : Byte) ++ body; b ++ List.replicate (64 - b.length) 0
def image (q : Nat) (ds : List Bytes) : Bytes :=
  let n := 64 * q
  let base := 64 + 16 * n
  let len := base + 64 * ds.length
  let h := le 4 0x47525043 ++ [1, BitVec.ofNat 8 q, 0, 0] ++ le 4 len ++ le 4 n ++ List.replicate 48 0
  h ++ (List.replicate n (le 8 base ++ le 4 ds.length ++ le 4 0)).flatten ++ ds.flatten
def nops : Bytes := image 1 [desc 0, desc 10, desc 0]
def pd (f c : Nat) : Pend := ⟨rq f 1, c, 0⟩
def dq : Dist := { state := 1, q := 1, quarters := [0], gen := 3 }
def withD (x : Dist) (s : State := up2) : State := { s with dists := [(1, x)] }
def prog1 : Prog := { image := [(64, 0x40), (65, 4), (72, 3)], length := 1280, progId := 0, bid := 5, completed := 3, hard := 1, soft := 2 }
def runN : Run := { handle := 1, by_ := .plain, tStart := 0 }
/-- 64-byte descriptor from (bit position, width, value) fields. -/
def mk (fs : List (Nat × Nat × Nat)) : Bytes := leBytes 64 (fs.foldl (fun a f => a + f.2.2 % 2 ^ f.2.1 * 2 ^ f.1) 0)
def qe (b : Bytes) (idx : Nat := 0) (segs : AMap Seg := []) : QEntry := ⟨b, idx, 3, segs⟩
/-- District 1 running its program with one core. -/
def run1 (c : Core) (f : Dist → Dist := id) (core : Nat := 0) : State :=
  let x : Dist := { state := 3, q := 1, quarters := [0], gen := 3, progs := [(1, prog1)], run := some runN, segs := [(1, seg1)], cores := [(core, c)] }
  { up2 with dists := [(1, f x)], backs := [(1, { tier := 1, units := [0], size := 4096, data := [(0, 5), (64, 6)] })] }
def hd (b : Bytes) (segs : AMap Seg := [(1, seg1)]) (sram : Mem := []) (f : Dist → Dist := id) : State := run1 { queue := [qe b 0 segs, qe (desc 0) 1], next := 2, sram := sram } f
def wk (b : Bytes) (w : Work) (c : Core := {}) (begun : Bool := true) (segs : AMap Seg := [(1, seg1)]) (f : Dist → Dist := id) : State :=
  run1 { c with issued := [{ q := qe b 0 segs, work := w, begun := begun }], next := 1 } f

/-- The vendor's signature on the bundle `m` holds; whether it does depends on the opaque cryptography of Config. -/
def signed (m : Mem) : Prop :=
  (Config.sha512 (memRead m 256 136) == Config.vendorKeyDigest (fld (memRead m 0 8) 41 40)) = true ∧
    Config.ecdsaOk (memRead m 256 136) (Config.sha512 (memRead m 0 (bundleLen m - 272))) (memRead m (bundleLen m - 272) 136) = true
theorem bundle_passes (sec : Sec) (m : Mem) (hs : signed m) (h1 : bundleHeaderOk m = true)
    (h2 : sec.counters.getD 1 0 ≤ fld (memRead m 0 8) 41 40) (h4 : sec.counters.getD 0 0 ≤ leNat (memRead m 12 4)) (ho : sec.owner = none) :
    bundleFail sec m = none := by
  simp only [bundleFail, h1, h2, h4, hs.1, hs.2, ho, decide_true]
  rfl

namespace P10
def m1 : Mem := memSet (memSet [] 512 0x5A) (512*2) 0xA5
def w10_1 : State := sFn 1 { latch := some (0x10, 7), flags := [(0, {count := 300, snap := some 255, set := true}), (4, {count:=2,set:=true}), (5, {count := 65535, set := true})], inbox := m1, outbox := m1, held := [{req := {fn := 1}, cmd := 5, hdrOk := true}], flr := true, winBase := 4 }
def w10_2 : State := sFn 0 { latch := some (0x18, 7), flags := [(0, {count := 300, snap := some 255, set := true}), (4, {count:=2,set:=true}), (5, {count := 65535, set := true})] }
def slotB (f seq : Nat) (cmd : Nat) (pl : Bytes) (d : Nat) : Mem := memWrite [] 512 (([0x5A, 0, BitVec.ofNat 8 seq, 0, BitVec.ofNat 8 cmd, BitVec.ofNat 8 (cmd / 256), BitVec.ofNat 8 pl.length, 0, BitVec.ofNat 8 d] : Bytes) ++ List.replicate 23 0 ++ pl)
def hl (seq : Nat) : Held := {req := {fn := 1, seq := BitVec.ofNat 16 seq, takenAt := 3000000}, cmd := 0x100, hdrOk := true}
def w10_5 : State := sFn 1 {inbox := slotB 1 0 0x100 [] 1}
def w10_6 : State := sFn 1 {inbox := slotB 1 3 0x100 [] 1}
def w10_7 : State := sFn 1 {inbox := slotB 1 3 0x100 [] 1, held := [hl 3]}
def w10_8 : State := sFn 1 {inbox := slotB 1 40 0x100 [] 1}
def w10_10 : State := sFn 1 {inbox := slotB 1 3 0x100 [] 1, held := [{hl 2 with req := {fn := 1, seq := 2, takenAt := 4500000}}]}
def w10_11 : Held := {hl 2 with req := {fn := 1, seq := 2, takenAt := 4500000}}
def rp (f : Nat) (first : Bool) : Reply := { req := {fn := f, slot := 1, seq := 3, district := 1, tag := 7, takenAt := 9}, cmd := 0x100, payload := [1, 2, 3], first := first }
def w10_12 : State := sFn 1 {replies := [rp 1 true]}
def w10_15 : State := sFn 1 {replies := [rp 1 true], outbox := memSet [] 0 0x5A}
def sg (k : Seg) (f : Nat := 1) (x : Fn := {}) : State := { up with fns := [(f, x)], dists := [(1, { d1 with segs := [(1, k)] })], backs := [(1, { tier := 1, units := [0], size := 4096, poison := [0] })], nextBid := 2 }

/-- What LowWordReadsAreLatched assumes, clause by clause. -/
theorem test_LowWordReadsAreLatched_met :
    (let s := up2; reaches s 0 = true) ∧
    (let s := up2; reaches s 0 = true ∧ isReg64 0 24 = true) ∧
    (let s := up2; reaches s 0 = true ∧ isReg64 0 24 = true) ∧
    (let s := up2; let d : Bytes := []; let v : BitVec 64 := 0; reaches s 0 = true ∧
     Instr.hostFlagsRead 0 RegPart.whole ∈ [Instr.hostFlagsRead 0 RegPart.whole, Instr.hostFlagsClear 0 v, Instr.bar0PlainWrite 0 0 d, Instr.mailboxSlotWrite 0 false 0 0 d, Instr.inboundOwnerPost 0 0 d, Instr.outboundSlotReturn 0 0]) ∧
    (let s := w10_2; let h : BitVec 32 := 7; reaches s 0 = true ∧ isReg64 0 24 = true ∧ (getFn s 0).latch = some (24, h)) := by
  refine ⟨?_, ?_, ?_, ?_, ?_⟩ <;> (and_intros <;> first | decide +kernel | (constructor <;> first | decide +kernel | exact ⟨_, rfl, rfl⟩) | (intro _ h; cases h; decide +kernel) | (intro _; rfl) | (intro _ _ h; cases h) | (intro _ h; cases h))

/-- What FlagsFollowSetWins assumes, clause by clause. -/
theorem test_FlagsFollowSetWins_met :
    (let s := up2; reaches s 0 = true ∧ (0 = 5 → 0 = 0)) ∧
    (let s := up2; reaches s 0 = true ∧ (0 = 5 → 0 = 0)) := by
  refine ⟨?_, ?_⟩ <;> (and_intros <;> first | decide +kernel | (constructor <;> first | decide +kernel | exact ⟨_, rfl, rfl⟩) | (intro _ h; cases h; decide +kernel) | (intro _; rfl) | (intro _ _ h; cases h) | (intro _ h; cases h))

/-- What SlotWritesAreTakenOrLogged assumes, clause by clause. -/
theorem test_SlotWritesAreTakenOrLogged_met :
    (let s := up2; let d : Bytes := []; reaches s 0 = true ∧ 1 + d.length ≤ 512 ∧ slotOwner (getFn s 0).inbox 0 ≠ 165) ∧
    (let s := up2; let rest : Bytes := []; reaches s 0 = true ∧ rest.length ≤ 511 ∧ slotOwner (getFn s 0).inbox 0 = 0) ∧
    (let s := up2; let d : Bytes := [1, 2, 3]; reaches s 0 = true ∧ d ≠ [] ∧ 0 + d.length ≤ 512 ∧
     (true = true ∧ (0 < 0 ∨ 1 < d.length) ∨ true = false ∧ 0 < 0 ∧ slotOwner (getFn s 0).inbox 0 = 165)) ∧
    (let s := up2; let d : Bytes := []; reaches s 0 = true ∧ 1 + d.length ≤ 512 ∧ slotOwner (getFn s 0).inbox 0 ≠ 165) ∧
    (let s := w10_1; reaches s 1 = true ∧ slotOwner (getFn s 1).outbox 1 = 90) := by
  refine ⟨?_, ?_, ?_, ?_, ?_⟩ <;> (and_intros <;> first | decide +kernel | (constructor <;> first | decide +kernel | exact ⟨_, rfl, rfl⟩) | (intro _ h; cases h; decide +kernel) | (intro _; rfl) | (intro _ _ h; cases h) | (intro _ h; cases h))

/-- What FunctionLevelResetClears assumes, clause by clause. -/
theorem test_FunctionLevelResetClears_met :
    (let s := up2; reaches s 0 = true) ∧
    (let s := w10_1; (getFn s 1).flr = true) := by
  refine ⟨?_, ?_⟩ <;> (and_intros <;> first | decide +kernel | (constructor <;> first | decide +kernel | exact ⟨_, rfl, rfl⟩) | (intro _ h; cases h; decide +kernel) | (intro _; rfl) | (intro _ _ h; cases h) | (intro _ h; cases h))

/-- What SlotsAreTakenInSeqOrder assumes, clause by clause. -/
theorem test_SlotsAreTakenInSeqOrder_met :
    (let s := w10_5; let h := parseSlot 1 1 (memRead (getFn s 1).inbox (512 * 1) 512) s.now; let k := BitVec.toNat (h.req.seq - (getFn s 1).expSeq);
     voxubRuns s = true ∧ (getFn s 1).flr = false ∧ slotOwner (getFn s 1).inbox 1 = 90 ∧ mayRelease s 1 = true ∧ k = 0 ∧ (getFn s 1).held = []) ∧
    (let s := w10_6; let h := parseSlot 1 1 (memRead (getFn s 1).inbox (512 * 1) 512) s.now; let k := BitVec.toNat (h.req.seq - (getFn s 1).expSeq);
     voxubRuns s = true ∧ (getFn s 1).flr = false ∧ slotOwner (getFn s 1).inbox 1 = 90 ∧ mayRelease s 1 = true ∧ 0 < k ∧ k ≤ 31 ∧
     (∀ (y : Held), y ∈ (getFn s 1).held → y.req.seq ≠ h.req.seq)) ∧
    (let s := w10_8; let h := parseSlot 1 1 (memRead (getFn s 1).inbox (512 * 1) 512) s.now; let k := BitVec.toNat (h.req.seq - (getFn s 1).expSeq);
     voxubRuns s = true ∧ (getFn s 1).flr = false ∧ slotOwner (getFn s 1).inbox 1 = 90 ∧ mayRelease s 1 = true ∧ 31 < k) ∧
    (let s := w10_7; let h := hl 3; served s = true ∧ (getFn s 1).held = [h] ∧ BitVec.toNat h.req.takenAt + 1000000 ≤ time s ∧ mayRelease s 1 = true ∧
     expectedPosted (getFn s 1) = false) ∧
    (let s := w10_10; let h := w10_11; served s = true ∧ (getFn s 1).held = [h] ∧
     (time s < BitVec.toNat h.req.takenAt + 1000000 ∨ expectedPosted (getFn s 1) = true)) := by
  refine ⟨?_, ?_, ?_, ?_, ?_⟩ <;> (and_intros <;> first | decide +kernel | (constructor <;> first | decide +kernel | exact ⟨_, rfl, rfl⟩) | (intro _ h; cases h; decide +kernel) | (intro _; rfl) | (intro _ _ h; cases h) | (intro _ h; cases h))

/-- What RepliesArePostedInOrder assumes, clause by clause. -/
theorem test_RepliesArePostedInOrder_met :
    (let s := w10_12; let r := rp 1 true; let l : List Reply := []; (getFn s 1).replies = r :: l ∧ served s = true ∧ (getFn s 1).flr = false ∧
     slotOwner (getFn s 1).outbox (getFn s 1).nextOut = 0) ∧
    (let s := w10_15; let r := rp 1 true; let l : List Reply := []; (getFn s 1).replies = r :: l ∧ served s = true ∧ (getFn s 1).flr = false ∧
     slotOwner (getFn s 1).outbox (getFn s 1).nextOut ≠ 0) := by
  refine ⟨?_, ?_⟩ <;> (and_intros <;> first | decide +kernel | (constructor <;> first | decide +kernel | exact ⟨_, rfl, rfl⟩) | (intro _ h; cases h; decide +kernel) | (intro _; rfl) | (intro _ _ h; cases h) | (intro _ h; cases h))

/-- What WindowAccessesComplete assumes, clause by clause. -/
theorem test_WindowAccessesComplete_met :
    (let s := up1; reaches s 0 = true ∧ 0 + 0 ≤ 2 ^ (getFn s 0).bar2Log) ∧
    (let s := up1; let d : List Byte := [1]; reaches s 0 = true ∧ 0 + d.length ≤ 2 ^ (getFn s 0).bar2Log ∧ d ≠ [] ∧ (getDist s 0).segs = []) ∧
    (let s := sg seg1; let d : List Byte := [1]; let e := seg1; reaches s 1 = true ∧ 0 + d.length ≤ 2 ^ (getFn s 1).bar2Log ∧ d ≠ [] ∧
     (getDist s 1).segs = [(1, e)] ∧ 1 ≠ poolSeg (getDist s 1) ∧ e.tier ≠ 3 ∧ e.ro = false ∧ e.dbase ≤ BitVec.toNat (getFn s 1).winBase + 0 ∧
     BitVec.toNat (getFn s 1).winBase + 0 + d.length ≤ e.dbase + e.size) := by
  refine ⟨?_, ?_, ?_⟩ <;> (and_intros <;> first | decide +kernel | (constructor <;> first | decide +kernel | exact ⟨_, rfl, rfl⟩) | (intro _ h; cases h; decide +kernel) | (intro _; rfl) | (intro _ _ h; cases h) | (intro _ h; cases h))

/-- What ConfigAccessesComplete assumes, clause by clause. -/
theorem test_ConfigAccessesComplete_met :
    (let s := up1; reaches s 0 = true) ∧
    (let s := up1; reaches s 0 = true ∧ 0 ≤ 31 ∧ 0 = 0 ∧ romServes s = false) ∧
    (let s := up1; reaches s 0 = true ∧ 28 ≤ 28 ∧ 28 ≤ 36) ∧
    (let s := up1; reaches s 0 = true ∧ (0 < 28 ∨ 36 < 0)) ∧
    (let s := up1; reaches s 0 = true) := by
  refine ⟨?_, ?_, ?_, ?_, ?_⟩ <;> (and_intros <;> first | decide +kernel | (constructor <;> first | decide +kernel | exact ⟨_, rfl, rfl⟩) | (intro _ h; cases h; decide +kernel) | (intro _; rfl) | (intro _ _ h; cases h) | (intro _ h; cases h))

/-- LowWordReadsAreLatched, last clause: nothing is latched. -/
theorem test_LowWordReadsAreLatched_unlatched : let s := up2; reaches s 0 = true ∧ isReg64 0 24 = true ∧
    ∀ h : BitVec 32, (getFn s 0).latch ≠ some (24, h) :=
  ⟨by decide +kernel, by decide +kernel, fun _ h => by cases h⟩

end P10

namespace P11
def w11_1 : State := {up1 with index := List.replicate 100 7, deferred := [evr 3]}
def w11_2 : State := sFn 0 {ring := ring1}
def w11_4 : FwReq := rq 0 0xFF (le 4 8 ++ le 2 16 ++ le 2 0)
def w11_5 : FwReq := rq 0 0xFF (le 8 4096 ++ le 8 64 ++ [8, 1] ++ le 2 3 ++ le 4 5 ++ le 8 1)
def stg : Staging := {len := 664, data := bm, ranges := [(0,664)], writeFlash := false }
def rs (s : Sec) : State := { up1 with sec := s }
def w11_7 : State := rs { boot := 2, recovery := some {len := 64}}
def w11_8 : State := rs { boot := 2, recovery := some stg, recStart := true}
def w11_10 : (Staging) := {len := 64}
def w11_12 : FwReq := rq 0 0xFF (le 4 3200 ++ le 4 0)
def w11_13 : FwReq := rq 0 0xFF (le 4 8 ++ le 4 0 ++ [1, 2, 3, 4, 5, 6, 7,8])
def w11_14 : State := {up1 with emitted := [evr 3, evr 5, evr 3], fns := [(1, {ring := ring1})]}
def w11_15 : State := {up1 with emitted := [evr 3 4000, evr 5 4000 5 0xFF], fns := [(0, {ring := ring1}), (1, {ring := ring1})]}
def w11_16 : State := {up1 with held := [⟨evr 3 1000, [1]⟩, ⟨evr 3, [1]⟩], fns := [(1, {ring := ring1})]}
def w11_17 : State := {up1 with held := [⟨evr 3, [1]⟩], fns := [(1, {ring := ring1})]}
def w11_18 : State := {up1 with held := [⟨evr 3 1000, [1]⟩], fns := []}
def rg (x : Ring) : State := sFn 1 { ring := x, modUntil := [(3, 7000000), (4, 1000)], flags := [(1, {count := 3})] }
def w11_20 : State := rg {ring1 with consReadAt := some 4999500}
def w11_22 : State := rg {ring1 with produce := 1, writtenAt := [(0, 1000)]}
def w11_23 : State := {up1 with pcie := {linkUp := false, speed := 6, width := 16}}
def w11_24 : State := {up1 with pcie := {up1.pcie with downCount := 65535, flit := true}}
def w11_25 : State := { up1 with sec := { boot := 2, keys := false, identity := some [1, 2, 3]}}

/-- What DeviceCommandsComplete assumes, clause by clause. -/
theorem test_DeviceCommandsComplete_met :
    (let c := rq 0 1; let s := w11_1; Sendable specDevNop c s ∧ c.payload = []) ∧
    (let c := rq 0 1; let s := w11_2; Sendable specDevRingOff c s ∧ c.payload = [] ∧ (getFn s c.fn).ring.enabled = true) ∧
    (let c := w11_4; let s := w11_1; Sendable specDevIndex c s ∧ c.payload.length = 8 ∧ fld c.payload 63 48 = 0 ∧ fld c.payload 31 0 % 8 = 0 ∧
     fld c.payload 47 32 % 8 = 0 ∧ 0 < fld c.payload 47 32 ∧ fld c.payload 47 32 ≤ 448 ∧ fld c.payload 31 0 + fld c.payload 47 32 ≤ s.index.length) ∧
    (let c := rq 1 1 (le 8 (2 ^ 30)); let s := w11_1; Sendable specDevWindow c s ∧ c.payload.length = 8 ∧
     fld c.payload 63 0 % 2 ^ (getFn s c.fn).bar2Log = 0 ∧ fld c.payload 63 0 + 2 ^ (getFn s c.fn).bar2Log ≤ 2 ^ 48) ∧
    (let c := w11_5; let s := w11_1; Sendable specDevRingSet c s ∧ c.payload.length = 32 ∧ zeroAt c.payload [(255, 193)] = true ∧
     (c.fn ≠ 0 → bit c.payload 192 = false) ∧ ringArgsOk c.payload = true ∧ (getFn s c.fn).ring.enabled = false) := by
  refine ⟨?_, ?_, ?_, ?_, ?_⟩ <;> (and_intros <;> first | decide +kernel | (constructor <;> first | decide +kernel | exact ⟨_, rfl, rfl⟩) | (intro _ h; cases h; decide +kernel) | (intro _; rfl) | (intro _ _ h; cases h) | (intro _ h; cases h))

/-- What RecoveryCommandsComplete assumes, clause by clause. -/
theorem test_RecoveryCommandsComplete_met :
    (let c := rq 0 255; let s := up1; c.fn < 32 ∧ voxubRuns s = true ∧
     Instr.devRecBegin c ∈ [Instr.devRecBegin c, Instr.devRecData c, Instr.devRecEnd c]) ∧
    (let s := w11_8; let g := stg; romServes s = true ∧ s.sec.recStart = true ∧ (getFn s 0).replies = [] ∧ s.sec.recovery = some g) ∧
    (let c := w11_12; let s := rom up1; romServes s = true ∧ Sendable specDevRecBegin c s ∧ c.payload.length = 8 ∧ fld c.payload 63 33 = 0 ∧
     fld c.payload 31 0 ≤ 33554432) ∧
    (let c := w11_13; let s := w11_7; let g := w11_10; romServes s = true ∧ Sendable specDevRecData c s ∧ dataFormOk c.payload = true ∧
     s.sec.recovery = some g ∧ fld c.payload 31 0 % 8 = 0 ∧ fld c.payload 31 0 + (c.payload.length - 8) ≤ g.len) := by
  refine ⟨?_, ?_, ?_, ?_⟩ <;> (and_intros <;> first | decide +kernel | (constructor <;> first | decide +kernel | exact ⟨_, rfl, rfl⟩) | (intro _ h; cases h; decide +kernel) | (intro _; rfl) | (intro _ _ h; cases h) | (intro _ h; cases h))

/-- What RecordsReachTheRingInOrder assumes, clause by clause. -/
theorem test_RecordsReachTheRingInOrder_met :
    (let s := w11_14; let e := evr 3; s.emitted[0]? = some e ∧ (∀ (x : EventRec), x ∈ List.take 0 s.emitted → x.source ≠ e.source) ∧
     time s ≤ BitVec.toNat e.stamp + 4000) ∧
    (let s := w11_15; let e := evr 3 4000; s.emitted[0]? = some e ∧ (∀ (x : EventRec), x ∈ List.take 0 s.emitted → x.source ≠ e.source) ∧
     BitVec.toNat e.stamp + 4000 < time s) ∧
    (let s := w11_16; let e := evr 3 1000; let l : List HeldRec := [{ ev := evr 3, dests := [1] }]; s.held = { ev := e, dests := [1] } :: l ∧
     BitVec.toNat e.stamp + 4000 ≤ time s ∧ (getFn s 1).ring.enabled = true ∧ s.pcie.linkUp = true ∧
     unconsumed (getFn s 1).ring < 2 ^ (getFn s 1).ring.log2n) ∧
    (let s := w11_17; let e := evr 3; let l : List HeldRec := []; s.held = { ev := e, dests := [1] } :: l ∧ time s < BitVec.toNat e.stamp + 4000) ∧
    (let s := w11_18; let e := evr 3 1000; let l : List HeldRec := []; s.held = { ev := e, dests := [1] } :: l ∧
     BitVec.toNat e.stamp + 4000 ≤ time s ∧ ((getFn s 1).ring.enabled = false ∨ s.pcie.linkUp = false)) := by
  refine ⟨?_, ?_, ?_, ?_, ?_⟩ <;> (and_intros <;> first | decide +kernel | (constructor <;> first | decide +kernel | exact ⟨_, rfl, rfl⟩) | (intro _ h; cases h; decide +kernel) | (intro _; rfl) | (intro _ _ h; cases h) | (intro _ h; cases h))

/-- What RingAndLinkEventsComplete assumes, clause by clause. -/
theorem test_RingAndLinkEventsComplete_met :
    (let s := rg ring1; (getFn s 1).ring.enabled = true ∧ s.pcie.linkUp = true ∧
     (∀ (t : Nat), (getFn s 1).ring.consReadAt = some t → t + 1000 ≤ time s)) ∧
    (let s := rg ring1; tfind (getFn s 1).modUntil 4 = some 1000 ∧ 1000 ≤ time s ∧ (¬4 ∈ (getFn s 1).modAgain)) ∧
    (let s := rg ring1; tfind (getFn s 1).modUntil 3 = some 7000000 ∧ time s < 7000000) ∧
    (let s := w11_20; (getFn s 1).ring.consReadAt = some 4999500 ∧ time s < 4999500 + 1000) ∧
    (let s := w11_22; let l : List (Nat × Nat) := []; (getFn s 1).ring.writtenAt = (0, 1000) :: l ∧ BitVec.toNat (getFn s 1).ring.cons ≤ 0 ∧
     (getFn s 1).ring.enabled = true ∧ (getFn s 1).ring.ageRaised ≠ some 0 ∧ 1000 + 100000 ≤ time s) ∧
    (let s := rg ring1; 1 ∈ [1, 2, 4, 8, 16] ∧ s.pins.perst = false ∧ s.indexOk = true ∧ s.sec.boot ≠ 4 ∧ 1 ≤ 1 ∧ 1 ≤ 6) ∧
    (let s := rg ring1; s.pcie.linkUp = true) ∧
    (let s := w11_23; s.pcie.linkUp = false ∧ s.pcie.speed ≠ 0 ∧ s.pins.perst = false ∧ s.indexOk = true) ∧
    (let s := w11_24; s.pcie.linkUp = true ∧ s.pcie.flit = true ∧ 2 ∈ [2, 4, 8, 16] ∧ 2 ≤ s.pcie.width) := by
  refine ⟨?_, ?_, ?_, ?_, ?_, ?_, ?_, ?_, ?_⟩ <;> (and_intros <;> first | decide +kernel | (constructor <;> first | decide +kernel | exact ⟨_, rfl, rfl⟩) | (intro _ h; cases h; decide +kernel) | (intro _; rfl) | (intro _ _ h; cases h) | (intro _ h; cases h))

/-- What ManagementRequestsComplete assumes, clause by clause. -/
theorem test_ManagementRequestsComplete_met :
    (let s := up1; s.pins.aonRst = false ∧ 900 ≤ 900 ∧ 900 ≤ 1800) ∧
    (let s := up1; s.pins.aonRst = false ∧ 1 ≤ 1 ∧ 1 ≤ 7) ∧
    (let s := up1; s.pins.aonRst = false ∧ 0 ≤ 1) ∧
    (let s := up1; s.pins.aonRst = false ∧ (0 < 900 ∨ 1800 < 0)) ∧
    (let s := up1; s.pins.aonRst = false ∧ (0 = 0 ∨ 7 < 0)) ∧
    (let s := up1; s.pins.aonRst = false ∧ 1 ≤ 1 ∧ 1 ≤ 8) ∧
    (let s := up1; s.pins.aonRst = false) ∧
    (let via := SpdmVia.doe; let s := up1; spdmUp s via = true) ∧
    (let via := SpdmVia.doe; let s := up1; spdmUp s via = true) ∧
    (let via := SpdmVia.doe; let s := up1; spdmUp s via = true) ∧
    (let via := SpdmVia.doe; let s := up1; spdmUp s via = true ∧ s.sec.keys = true) ∧
    (let via := SpdmVia.doe; let s := up1; spdmUp s via = true ∧ (s.sec.keys = true ∨ false = false)) ∧
    (let via := SpdmVia.doe; let s := w11_25; let ch := Config.identityCert [1, 2, 3]; spdmUp s via = true ∧ certChain s = some ch) ∧
    (let via := SpdmVia.doe; let s := w11_25; spdmUp s via = true ∧ s.sec.keys = false) ∧
    (let via := SpdmVia.doe; let s := w11_25; spdmUp s via = true ∧ s.sec.keys = false) := by
  refine ⟨?_, ?_, ?_, ?_, ?_, ?_, ?_, ?_, ?_, ?_, ?_, ?_, ?_, ?_, ?_⟩ <;> (and_intros <;> first | decide +kernel | (constructor <;> first | decide +kernel | exact ⟨_, rfl, rfl⟩) | (intro _ h; cases h; decide +kernel) | (intro _; rfl) | (intro _ _ h; cases h) | (intro _ h; cases h))

/-- RecoveryCommandsComplete, DEV_REC_END: the witness, for a bundle whose signature holds. -/
theorem test_RecoveryCommandsComplete_end (hs : signed bm) : let c := rq 0 255; let s := w11_8; let g := stg; romServes s = true ∧
    Sendable specDevRecEnd c s ∧ c.payload = [] ∧ s.sec.recovery = some g ∧ fullyWritten g = true ∧ bundleFail s.sec g.data = none ∧
    bundleLen g.data = g.len := by
  refine ⟨by decide +kernel, ?_, rfl, rfl, by decide +kernel, bundle_passes _ _ hs ?_ ?_ ?_ rfl, ?_⟩
  · constructor <;> first | decide +kernel | exact ⟨_, rfl, rfl⟩
  all_goals decide +kernel

/-- ManagementRequestsComplete, GET_CERTIFICATE: the witness, for a chain that is not empty. -/
theorem test_ManagementRequestsComplete_certificate (hc : 0 < (Config.identityCert [1, 2, 3]).length) : let s := w11_25;
    spdmUp s .doe = true ∧ certChain s = some (Config.identityCert [1, 2, 3]) ∧ 0 < (Config.identityCert [1, 2, 3]).length :=
  ⟨by decide +kernel, rfl, hc⟩

end P11

namespace P12_1
def cr (q m fl ch nd : Nat) (sh : List Byte) : Bytes := [0, BitVec.ofNat 8 fl, BitVec.ofNat 8 q, 2] ++ le 4 m ++ le 8 ch ++ le 8 nd ++ sh
def w12x1_2 : FwReq := rq 0 1 (cr 2 0 0 0 5 (List.replicate 24 0))

/-- What DistrictsAreCreatedAndLogged assumes, clause by clause. -/
theorem test_DistrictsAreCreatedAndLogged_met :
    let c := w12x1_2; let s := up; Sendable specDistCreate c s ∧ c.payload.length = 48 ∧ zeroAt c.payload createRsvd = true ∧
    (List.all (sharesOf c.payload) fun (e : Nat × Nat) ↦ portPresent s e.fst) = true ∧ createOk c.payload = true ∧ (getDist s (cmdDist c)).state = 0 ∧
    (getDist s (cmdDist c)).loop = none ∧ createFree s c.payload = true := by
  and_intros <;> first | decide +kernel | (constructor <;> first | decide +kernel | exact ⟨_, rfl, rfl⟩) | (intro _ h; cases h; decide +kernel) | (intro _; rfl) | (intro _ _ h; cases h) | (intro _ h; cases h)

end P12_1

namespace P12_2
def w12x2_1 : State := withD { dq with state := 3, preempt := true, run := some runN, progs := [(1, prog1)] }
def w12x2_3 : State := withD { dq with state := 6, recover := none, progs := [(1, prog1)]}
def w12x2_5 : State := withD {dq with state := 5, prior := 3, quarters := []}

/-- What DistrictCommandsComplete assumes, clause by clause. -/
theorem test_DistrictCommandsComplete_met :
    (let c := rq 0 1; let s := up1; Sendable specDistDestroy c s ∧ c.payload = [] ∧ (getDist s (cmdDist c)).state ∈ [1, 2, 5, 6]) ∧
    (let c := rq 0 1; let s := up1; Sendable specDistInfo c s ∧ c.payload = []) ∧
    (let c := rq 0 1; let s := w12x2_3; Sendable specDistRecover c s ∧ c.payload = [] ∧ (getDist s (cmdDist c)).state = 6 ∧
     (getDist s (cmdDist c)).recover = none ∧ (getDist s (cmdDist c)).run = none ∧
     (∀ (e : Nat × Core), e ∈ (getDist s (cmdDist c)).cores → e.snd.issued = [] ∧ e.snd.prefetches = [])) ∧
    (let c := rq 0 1 (le 8 0); let s := w12x2_1; Sendable specDistPause c s ∧ c.payload.length = 8 ∧ fld c.payload 63 0 = 0 ∧
     (getDist s (cmdDist c)).preempt = true ∧ (getDist s (cmdDist c)).state ∈ [1, 2, 3] ∧ (getDist s (cmdDist c)).pause = none) ∧
    (let c := rq 0 1 (le 8 0); let s := w12x2_5; let qs : List Nat := [0]; Sendable specDistResume c s ∧ c.payload.length = 8 ∧
     fld c.payload 63 0 = 0 ∧ (getDist s (cmdDist c)).state = 5 ∧ (getDist s (cmdDist c)).resume = none ∧ (retainBlocks s).fst = false ∧
     pickQuarters s (getDist s (cmdDist c)).q 0 = some qs) := by
  refine ⟨?_, ?_, ?_, ?_, ?_⟩ <;> (and_intros <;> first | decide +kernel | (constructor <;> first | decide +kernel | exact ⟨_, rfl, rfl⟩) | (intro _ h; cases h; decide +kernel) | (intro _; rfl) | (intro _ _ h; cases h) | (intro _ h; cases h))

end P12_2

namespace P12_3
def w12x3_1 : State := withD {dq with state := 4, pause := some ⟨pd 0 0x202, false, 4000000, none⟩, prior := 3, run := some runN}
def w12x3_2 : State := withD {dq with state := 4, pause := some ⟨pd 0 0x202, false, 4000000, some 7⟩, prior := 3, run := some runN, segs := [(1, seg1)], saveBid := some 1}
def w12x3_3 : State := withD {dq with state := 5, prior := 3, run := some runN, quarters := [], resume := some ⟨pd 0 0x203, 4000000, [3]⟩}
def w12x3_5 : State := withD {dq with state := 6, recover := some (pd 0 0x204), progs := [(1, prog1)], run := some runN}
def w12x3_7 : State := withD {dq with state := 6, recover := some (pd 0 0x204), cores := [(0, {issued := [{q := ⟨desc 0, 0, 0, []⟩, work := .fin}]})]}
def w12x3_8 : Pausing := ⟨pd 0 0x202, false, 4000000, none⟩
def w12x3_9 : Pausing := ⟨pd 0 0x202, false, 4000000, some 7⟩

/-- What PauseAndResumeComplete assumes, clause by clause. -/
theorem test_PauseAndResumeComplete_met :
    (let s := w12x3_1; let p := w12x3_8; (getDist s 1).state = 4 ∧ (getDist s 1).pause = some p ∧ p.drained = none ∧ atRest s (getDist s 1) = true) ∧
    (let s := w12x3_2; let p := w12x3_9; (getDist s 1).state = 4 ∧ (getDist s 1).pause = some p ∧ p.drained = some 7) ∧
    (let s := w12x3_3; let r := { pend := pd 0 515, start := 4000000, quarters := [3] }; (getDist s 1).state = 5 ∧ (getDist s 1).resume = some r ∧
     (¬(getDist s 1).prior ∈ [1, 2, 5]) ∧ (getDist s 1).gate.waiting = [] ∧ (¬((getDist s 1).gate.code = 4 ∧ (getDist s 1).gate.stop = true))) ∧
    (let s := w12x3_5; let p := pd 0 516; (getDist s 1).state = 6 ∧ (getDist s 1).recover = some p ∧ allIdle (getDist s 1) = true) ∧
    (let s := w12x3_7; let p := pd 0 516; (getDist s 1).recover = some p ∧ allIdle (getDist s 1) = false) := by
  refine ⟨?_, ?_, ?_, ?_, ?_⟩ <;> (and_intros <;> first | decide +kernel | (constructor <;> first | decide +kernel | exact ⟨_, rfl, rfl⟩) | (intro _ h; cases h; decide +kernel) | (intro _; rfl) | (intro _ _ h; cases h) | (intro _ h; cases h))

end P12_3

namespace P12_5a
def ldN : Loading := ⟨pd 1 0x300, [], 5, [(3, 1)], 0, 0⟩
def w12x5a_4 : State := withD {dq with loadings := [ldN]}
def w12x5a_5 : State := withD {dq with segs := [(1, seg1)]}
def w12x5a_6 : State := withD {dq with state := 2, progs := [(1, prog1)]}
def w12x5a_7 : State := withD {dq with state := 3, progs := [(1, prog1), (2, prog1)], run := some runN}
def w12x5a_8 : State := withD {dq with state := 3, progs := [(1, prog1)], run := some {runN with stopped := true, aborts := [pd 1 0x302]}}
def w12x5a_9 : Run := {runN with stopped := true, aborts := [pd 1 0x302]}
def w12x5a_11 : FwReq := rq 1 1 (le 8 1 ++ le 8 0 ++ le 4 100 ++ le 8 0 ++ le 4 0)
def w12x5a_12 : FwReq := rq 0 1 (le 2 1 ++ [3] ++ le 5 0)

/-- What ProgramCommandsComplete assumes, clause by clause. -/
theorem test_ProgramCommandsComplete_met :
    (let c := w12x5a_11; let s := w12x5a_4; let d := cmdDist c; let l := ldN; let rest : List Loading := []; (getDist s d).loadings = l :: rest ∧
     l.need ≠ []) ∧
    (let c := w12x5a_11; let s := w12x5a_5; let d := cmdDist c; let e := seg1; Sendable specProgLoad c s ∧ c.payload.length = 32 ∧
     zeroAt c.payload [(63, 8), (255, 160)] = true ∧ tfind (getDist s d).segs (fld c.payload 7 0) = some e ∧ (flashKeys s (e.tier == 3)).fst = false ∧
     fld c.payload 127 64 + fld c.payload 159 128 ≤ e.size ∧ (getDist s d).state ∈ [1, 2, 3, 5, 6] ∧
     List.length (getDist s d).progs + List.length (getDist s d).loadings < 8) ∧
    (let c := w12x5a_11; let s := w12x5a_8; let d := cmdDist c; let r := w12x5a_9; let p := pd 1 770; let l : List Pend := [];
     (getDist s d).run = some r ∧ r.aborts = p :: l ∧ allIdle (getDist s d) = true) ∧
    (let c := rq 1 1 (le 8 1); let s := w12x5a_6; let d := cmdDist c; Sendable specProgAbort c s ∧ handleForm c.payload = true ∧
     thas (getDist s d).progs (fld c.payload 15 0) = true ∧ (getDist s d).state ∈ [2, 3, 6] ∧ isRunning (getDist s d) (fld c.payload 15 0) = false) ∧
    (let c := rq 1 1 (le 8 1); let s := w12x5a_6; let d := cmdDist c; let p := prog1; Sendable specProgStatus c s ∧ handleForm c.payload = true ∧
     (getDist s d).state ∈ [1, 2, 3, 4, 5, 6] ∧ tfind (getDist s d).progs (fld c.payload 15 0) = some p) ∧
    (let c := rq 1 1 (le 8 1); let s := w12x5a_6; let d := cmdDist c; let p := prog1; Sendable specProgUnload c s ∧ handleForm c.payload = true ∧
     (getDist s d).state ∈ [1, 2, 3, 5, 6] ∧ tfind (getDist s d).progs (fld c.payload 15 0) = some p ∧
     isRunning (getDist s d) (fld c.payload 15 0) = false) ∧
    (let c := rq 1 1 (le 8 1); let s := w12x5a_7; let d := cmdDist c; Sendable specProgAbort c s ∧ handleForm c.payload = true ∧
     thas (getDist s d).progs (fld c.payload 15 0) = true ∧ (getDist s d).state ∈ [2, 3, 6] ∧ isRunning (getDist s d) (fld c.payload 15 0) = true) ∧
    (let c := w12x5a_12; let s := w12x5a_6; let d := cmdDist c; let p := prog1; Sendable specProgStart c s ∧ c.payload.length = 8 ∧
     fld c.payload 63 24 = 0 ∧ vecArgOk (fld c.payload 23 16) = true ∧ tfind (getDist s d).progs (fld c.payload 15 0) = some p ∧
     (getDist s d).state = 2 ∧ vecFree s d (fld c.payload 23 16) = true ∧ (retainBlocks s).fst = false) := by
  refine ⟨?_, ?_, ?_, ?_, ?_, ?_, ?_, ?_⟩ <;> (and_intros <;> first | decide +kernel | (constructor <;> first | decide +kernel | exact ⟨_, rfl, rfl⟩) | (intro _ h; cases h; decide +kernel) | (intro _; rfl) | (intro _ _ h; cases h) | (intro _ h; cases h))

end P12_5a

namespace P12_5b
def ldBad2 : Loading := ⟨pd 1 0x300, [], 5, [], 0, 0⟩

/-- What ProgramCommandsComplete assumes, clause by clause. -/
theorem test_ProgramCommandsComplete_met :
    let s := withD {dq with loadings := [ldBad2]}; let l := ldBad2; let rest : List Loading := []; let f : LoadFail := ⟨0xFFFFFFFF, 0xFFFFFFFF, 1⟩;
    let u := {s with dists := [(1, {getDist s 1 with loadings := rest})]}; (getDist s 1).loadings = l :: rest ∧ l.need = [] ∧
    (u = modDist s 1 fun x => {x with loadings := rest}) ∧ loadFail u (getDist u 1) l.image l.len = some f := by
  and_intros <;> first | decide +kernel | (constructor <;> first | decide +kernel | exact ⟨_, rfl, rfl⟩) | (intro _ h; cases h; decide +kernel) | (intro _; rfl) | (intro _ _ h; cases h) | (intro _ h; cases h)

/-- A directory of `n` records from core `c` on: each core's stream is one descriptor at 1280. -/
def dirs (c : Nat) : Nat → Mem
  | 0 => []
  | n + 1 => (64 + 16 * c + 1, 5) :: (64 + 16 * c + 8, 1) :: dirs (c + 1) n
def okImage : Mem := (0, 0x43) :: (1, 0x50) :: (2, 0x52) :: (3, 0x47) :: (4, 1) :: (5, 1) :: (8, 0x40) :: (9, 5) :: (12, 64) :: dirs 0 64
def ldOk : Loading := ⟨pd 1 0x300, okImage, 1344, [], 0, 0⟩
theorem dirs_get (n c k j : Nat) (hk : k < n) (hj : j < 16) : memGet (dirs c n) (64 + 16 * (c + k) + j) = if j = 1 then 5 else if j = 8 then 1 else 0 := by
  induction n generalizing c k with
  | zero => omega
  | succ n ih =>
    simp only [dirs, memGet]
    cases k with
    | zero =>
      have h0 : ∀ n c a, a < 64 + 16 * c → memGet (dirs c n) a = 0 := by
        intro n; induction n with
        | zero => intros; rfl
        | succ n ih => intro c a h; simp only [dirs, memGet]; rw [if_neg (by omega), if_neg (by omega)]; exact ih _ _ (by omega)
      rw [h0 n (c + 1) _ (by omega)]
      simp only [Nat.add_zero, Nat.add_right_inj, eq_comm]
    | succ k =>
      rw [if_neg (by omega), if_neg (by omega)]
      have := ih (c + 1) k (by omega)
      rwa [show c + 1 + k = c + (k + 1) by omega] at this
theorem okImage_record (core : Nat) (h : core < 64) : memRead okImage (64 + 16 * core) 16 = [0, 5, 0, 0, 0, 0, 0, 0, 1, 0, 0, 0, 0, 0, 0, 0] := by
  have g : ∀ j < 16, memGet okImage (64 + 16 * core + j) = if j = 1 then 5 else if j = 8 then 1 else 0 := by
    intro j hj
    have := dirs_get 64 0 core j h hj
    rw [Nat.zero_add] at this
    simp only [okImage, memGet]
    repeat rw [if_neg (by omega)]
    exact this
  simp only [memRead, Nat.add_assoc, Nat.reduceAdd]
  simp only [Nat.add_assoc] at g
  have g0 := g 0 (by omega)
  rw [Nat.add_zero] at g0
  simp only [g0, g, Nat.reduceLT, Nat.reduceEqDiff, ↓reduceIte]
theorem okImage_stream (core : Nat) (h : core < 64) : streamFails (withD dq) dq okImage 1344 core = [] := by
  have d : memRead okImage 1280 64 = zeros 64 := by decide +kernel
  have e : descFails (withD dq) dq (zeros 64) = [] := by decide +kernel
  simp only [streamFails, okImage_record core h]
  rw [show fld [0, 5, 0, 0, 0, 0, 0, 0, 1, 0, 0, 0, 0, 0, 0, 0] 63 0 = 1280 by decide, show fld [0, 5, 0, 0, 0, 0, 0, 0, 1, 0, 0, 0, 0, 0, 0, 0] 95 64 = 1 by decide,
    if_neg (by decide)]
  simp only [List.range_one, List.flatMap_cons, List.flatMap_nil, Nat.mul_zero, Nat.add_zero, d, e, List.map_nil, List.append_nil]
theorem okImage_loads : loadFail (withD dq) dq okImage 1344 = none := by
  have h : progHeaderOk dq okImage 1344 = true := by decide +kernel
  have f : (List.range (64 * dq.q)).flatMap (streamFails (withD dq) dq okImage 1344) = [] := by
    rw [List.flatMap_eq_nil_iff]; intro c hc; exact okImage_stream c (by simpa [dq] using hc)
  rw [loadFail, h, f]; rfl


/-- ProgramCommandsComplete: an image of 64 streams of one NOP each passes its load. -/
theorem test_ProgramCommandsComplete_loaded : let s := withD {dq with loadings := [ldOk]}; let d := 1; let l := ldOk; let rest : List Loading := [];
    let u := withD dq; (getDist s d).loadings = l :: rest ∧ l.need = [] ∧
  (u = modDist s d fun x => {x with loadings := rest}) ∧ loadFail u (getDist u d) l.image l.len = none ∧
  fits u 1 (placeUnits u 1 0) (copySize l.len) = true ∧ (getDist s d).state = 1 ∧ (getFn s l.pend.req.fn).epoch = l.pend.epoch :=
  ⟨rfl, rfl, rfl, okImage_loads, by decide +kernel, rfl, rfl⟩


end P12_5b

namespace P12_6
def tbl : Bytes := le 4 0x4C425458 ++ [1, 1, 1, 0] ++ le 8 9 ++ [5, 1] ++ List.replicate 30 0
def isu (r : List Nat) : Core := {issued := [{q := ⟨desc 0, 0, 0, []⟩, work := .fin, refs := r}]}
def w12x6_2 : State := withD {dq with tbls := [(1, {image := some [1], gen := 15, pending := [(some [3], pd 1 0x320), (none, pd 1 0x321)]})]}
def w12x6_3 : State := withD {dq with cores := [(0, isu [0, 1, 2, 3])]}
def w12x6_4 : FwReq := rq 1 1 ([2, 1, 0, 0, 0, 0, 0,0] ++ le 24 0)
def w12x6_6 : FwReq := rq 1 1 ([2, 0, 0, 0, 0, 0, 0,0])
def w12x6_8 : FwReq := rq 1 1 ([1, 0, 0, 0, 0, 0, 0,0] ++ tbl)

/-- What SlotCommandsComplete assumes, clause by clause. -/
theorem test_SlotCommandsComplete_met :
    (let c := w12x6_4; let s := withD dq; let d := cmdDist c; let m := fld c.payload 3 0; Sendable specSlotLoad c s ∧ c.payload.length = 32 ∧
     zeroAt c.payload [(7, 4), (63, 24), (255, 160)] = true ∧ fld c.payload 23 16 = 0 ∧ fld c.payload 127 64 = 0 ∧ fld c.payload 159 128 = 0 ∧
     1 ≤ fld c.payload 15 8 ∧ fld c.payload 15 8 ≤ 8 ∧ (getDist s d).state ∈ [1, 2, 3, 5, 6] ∧ slotNamed (getDist s d) m = false) ∧
    (let c := w12x6_4; let s := w12x6_2; let d := cmdDist c; let img := some [3]; let p := pd 1 800;
     let rest : List (Option Bytes × Pend) := [(none, pd 1 801)]; (getTbl (getDist s d) 1).pending = (img, p) :: rest ∧ tblRefs (getDist s d) 1 = 0 ∧
     (getDist s d).state ≠ 5) ∧
    (let c := w12x6_6; let s := withD dq; let d := cmdDist c; let m := fld c.payload 3 0; Sendable specSlotClear c s ∧ slotForm c.payload 4 = true ∧
     (getDist s d).state ∈ [1, 2, 3, 5, 6] ∧ slotNamed (getDist s d) m = false) ∧
    (let c := w12x6_6; let s := withD dq; let d := cmdDist c; Sendable specSlotInfo c s ∧ slotForm c.payload 4 = true ∧
     (getDist s d).state ∈ [1, 2, 3, 4, 5, 6]) ∧
    (let c := w12x6_6; let s := withD dq; let d := cmdDist c; let k := fld c.payload 1 0; Sendable specTblClear c s ∧ slotForm c.payload 2 = true ∧
     (getDist s d).state ∈ [1, 2, 3, 5, 6] ∧ tblRefs (getDist s d) k = 0 ∧ (getTbl (getDist s d) k).pending = []) ∧
    (let c := w12x6_6; let s := withD dq; let d := cmdDist c; Sendable specTblInfo c s ∧ slotForm c.payload 2 = true ∧
     (getDist s d).state ∈ [1, 2, 3, 4, 5, 6]) ∧
    (let c := w12x6_8; let s := withD dq; let d := cmdDist c; let k := fld c.payload 1 0; Sendable specTblLoad c s ∧ c.payload.length = 56 ∧
     fld c.payload 63 2 = 0 ∧ tableFormatOk (slice c.payload 8 48) = true ∧ tableArgsOk (tableOf (slice c.payload 8 48)) = true ∧
     (getDist s d).state ∈ [1, 2, 3, 5, 6] ∧ List.length (getTbl (getDist s d) k).pending < 4 ∧ tblRefs (getDist s d) k = 0 ∧
     (getTbl (getDist s d) k).pending = []) ∧
    (let c := w12x6_8; let s := w12x6_3; let d := cmdDist c; let k := fld c.payload 1 0; Sendable specTblLoad c s ∧ c.payload.length = 56 ∧
     fld c.payload 63 2 = 0 ∧ tableFormatOk (slice c.payload 8 48) = true ∧ tableArgsOk (tableOf (slice c.payload 8 48)) = true ∧
     (getDist s d).state ∈ [1, 2, 3, 5, 6] ∧ List.length (getTbl (getDist s d) k).pending < 4 ∧ tblRefs (getDist s d) k ≠ 0) := by
  refine ⟨?_, ?_, ?_, ?_, ?_, ?_, ?_, ?_⟩ <;> (and_intros <;> first | decide +kernel | (constructor <;> first | decide +kernel | exact ⟨_, rfl, rfl⟩) | (intro _ h; cases h; decide +kernel) | (intro _; rfl) | (intro _ _ h; cases h) | (intro _ h; cases h))

end P12_6

namespace P13a
def w13a_1 : State := run1 {}
def w13a_2 : State := run1 {next := 2}
def w13a_3 : State := run1 {next := 1, queue := List.replicate 8 (qe (desc 0))}
def ff : List State := [w13a_1, w13a_2, w13a_3]
def wmat := mk [(0,8,1), (128,8,1), (136,8,1), (144,8,1), (256,16,32), (272,8,1), (280,8,2), (192,19,0x10000), (224,19,0x20000), (288,16,128), (304,16,128), (320,16,128)]
def wcoll (put : Bool) := mk [(0,8,7), (128,6,3), (134,1, b2n (!put)), (135,1,1), (160,19,0x20000), (224,32,64)]
def wcollS (put : Bool) (len : Nat) := mk [(0,8,7), (128,6,3), (134,1, b2n (!put)), (135,1,0), (144,8,1), (160,64,64), (224,32,len)]
def gr3 : Group := { dist := 1, state := 1, members := [⟨0, none⟩, ⟨1, none⟩], myPos := 0, stageKib := 256, epoch := 255, seq := 7, sig := 9, tag := 0x55 }
def hsG : List (State × QEntry) := [wcoll true, wcoll false, wcollS true 64, wcollS false 64].map fun b => ({ hd b with groups := [(3, gr3)] }, qe b 0 [(1, seg1)])
def hs : List (State × QEntry) := hsG ++  [desc 0, desc 10, mk [(0,8,5), (128,11,0), (144,7,5), (139,1,1)], mk [(0,8,6), (144,7,1), (192,32,4)], mk [(0,8,6), (144,7,1)], wmat, wcoll true, wcoll false, wcollS true 64, wcollS true 8192].map fun b => (hd b, qe b 0 [(1, seg1)])
def wl13a_4 : List State := ff ++ hs.map (·.1)
def wl13a_5 : List QEntry := hs.map (·.2)
def mv (ls ld : Bool) (sz rows : Nat) (off : Nat := 0) := mk [(0,8,4), (128,1,b2n ls), (129,1,b2n ld), (144,8,1), (152,8,1), (160,64,if ls then 0x20000 else off), (224,64,if ld then 0x20000 else off), (288,32,sz), (320,16,rows), (352,32,sz),(384,32,sz)]
def hs2 : List (State × QEntry) := [mv false true 64 2, mv true false 64 2, mv false true 64 2 4090, mv false true 8000 1, mv false false 64 1, mv true true 64 1].map fun b => (hd b, qe b 0 [(1, seg1)])
def wl13a_9 : List Xfer := hs2.filterMap fun h => moveXfer (getDist h.1 1) (time h.1) h.2
def wsend := mk [(0,8,1), (128,8,1), (136,8,1), (144,8,1), (155,1,1), (256,16,32), (272,8,1), (280,8,2), (192,19,0x10000), (224,19,0x20000), (288,16,64), (304,16,64), (320,16,64), (354,6,3)]
def sr : Mem := memWrite [] 0x20000 (List.replicate 64 0x3F)
def ln := mk [(0,8,2), (128,8,1), (136,8,1), (144,8,1), (152,2,1), (160,19,0x30000), (192,19,0x20000), (288,19,0x20100), (320,32,16), (352,16,16)]
def sf := mk [(0,8,3), (128,8,1), (136,8,1), (144,8,1), (160,19,0x20000), (192,19,0x20100), (224,32,16)]
def wl := mk [(0,8,8), (128,32,0), (160,8,0), (176,16,0), (192,16,1), (224,19,0x20000)]
def cs (op : Nat) := mk [(0,8,9), (128,10,3), (144,2,op), (160,19,0x20000)]
def pool1 : Pool := { seg := 9, histSeg := 1, histOff := 0, batchSeg := 1, batchOff := 0, noDrop := false, layers := 1, window := 0, slots := 2, maxPages := 4, pages := 8, columns := 8, bid := 1, seqs := [(0, {state := 2, len := 20, table := [(0, ⟨5, false, 3⟩), (1, ⟨6, false, 3⟩)]})] }
def ce (x : Dist) : Dist := { x with census := [(3, {cnt := {nonfin := 5}})], pool := some pool1 }
def hs3 : List (State × QEntry) := [ln, sf, wl, cs 0, cs 1, cs 2].map fun b => (hd b [(1, seg1)] sr ce, qe b 0 [(1, seg1)])
def tt : List (State × Issued) := [(wmat, false, 0), (wmat, false, 1), (wsend, false, 0)].map fun b => (wk b.1 (.mat b.2.2 b.2.1 []) {sram := sr}, {q := qe b.1 0 [(1, seg1)], work := .mat b.2.2 b.2.1 [], begun := true})
def wl13a_10 : List State := hs3.map (·.1) ++ tt.map (fun x => { x.1 with groups := [(3, gr3)] })
def wl13a_12 : List Issued := tt.map (·.2)

/-- What DescriptorsAreFetchedAndIssued assumes, clause by clause. -/
theorem test_DescriptorsAreFetchedAndIssued_met :
    (let s := w13a_1; let r := runN; let p := prog1; quartersRun s = true ∧ (getDist s 1).state = 3 ∧ (getCore s 1 0).halted = false ∧
     thas (getDist s 1).cores 0 = true ∧ runProg (getDist s 1) = some (r, p) ∧ r.stopped = false ∧ List.length (getCore s 1 0).queue ≤ 8 ∧
     (getCore s 1 0).next < (streamOf p 0).snd) ∧
    (let s := wl13a_4[3]'(by decide); let q := wl13a_5[0]'(by decide); let rest : List QEntry := [qe (desc 0) 1]; AtHead s 1 0 q rest 7 ∧
     (startWork s 1 (getDist s 1) (time s) q).snd = none) ∧
    (let s := hd (desc 0); let q := qe (desc 0) 0 [(1, seg1)]; let rest : List QEntry := [qe (desc 0) 1];
     (Instr.nop 1 0, 0, Work.fin) ∈ [(Instr.nop 1 0, 0, Work.fin), (Instr.fence 1 0, 10, Work.fin), (Instr.signal 1 0, 5, Work.sig s.nextSig), (Instr.waitDesc 1 0, 6, Work.wait (if fld q.raw 223 192 = 0 then none else some (time s + 1000 * fld q.raw 223 192)))] ∧
     AtHead s 1 0 q rest 0) ∧
    (let s := hd wmat; let q := qe wmat 0 [(1, seg1)]; let rest : List QEntry := [qe (desc 0) 1]; AtHead s 1 0 q rest 1 ∧ 0 < matTiles (matOf q.raw) ∧
     bit q.raw 350 = false ∧ (bit q.raw 155 = true → groupGone s 1 (fld q.raw 359 354) = false) ∧ maskPois (coreEnv s 1 0) (matOf q.raw) = false) ∧
    (let s := hd (mv false true 64 2); let q := qe (mv false true 64 2) 0 [(1, seg1)]; let rest : List QEntry := [qe (desc 0) 1];
     let x := wl13a_9[0]'(by decide); AtHead s 1 0 q rest 4 ∧
     (bit q.raw 130 = true → (tget { } (getDist s 1).tbls (fld q.raw 133 132)).image ≠ none) ∧ moveXfer (getDist s 1) (time s) q = some x ∧
     xferDone x = false ∧ (∀ (a b : Nat), x.src = End.lcl a → x.dst = End.lcl b → False)) ∧
    (let s := hd (mv false true 64 2 4090); let q := qe (mv false true 64 2 4090) 0 [(1, seg1)]; let rest : List QEntry := [qe (desc 0) 1];
     AtHead s 1 0 q rest 4 ∧ (bit q.raw 130 = true → (tget { } (getDist s 1).tbls (fld q.raw 133 132)).image ≠ none) ∧
     moveXfer (getDist s 1) (time s) q = none) ∧
    (let s := hd (mv true true 64 1); let q := qe (mv true true 64 1) 0 [(1, seg1)]; let rest : List QEntry := [qe (desc 0) 1];
     let x := wl13a_9[3]'(by decide); AtHead s 1 0 q rest 4 ∧
     (bit q.raw 130 = true → (tget { } (getDist s 1).tbls (fld q.raw 133 132)).image ≠ none) ∧ moveXfer (getDist s 1) (time s) q = some x ∧
     x.src = End.lcl 131072 ∧ x.dst = End.lcl 131072) := by
  refine ⟨?_, ?_, ?_, ?_, ?_, ?_, ?_⟩ <;> (and_intros <;> first | decide +kernel | (constructor <;> first | decide +kernel | exact ⟨_, rfl, rfl⟩) | (intro _ h; cases h; decide +kernel) | (intro _; rfl) | (intro _ _ h; cases h) | (intro _ h; cases h))

/-- What ArithmeticDescriptorsWrite assumes, clause by clause. -/
theorem test_ArithmeticDescriptorsWrite_met :
    (let s := hd ln [(1, seg1)] sr ce; let q := qe ln 0 [(1, seg1)]; let rest : List QEntry := [qe (desc 0) 1]; AtHead s 1 0 q rest 2) ∧
    (let s := hd sf [(1, seg1)] sr ce; let q := qe sf 0 [(1, seg1)]; let rest : List QEntry := [qe (desc 0) 1]; let img := none;
     AtHead s 1 0 q rest 3 ∧ (img = if 32 ≤ (sfnOf q.raw).func then tfind (getDist s 1).uslots ((sfnOf q.raw).func - 32) else none) ∧
     ((sfnOf q.raw).func < 32 ∨ img ≠ none)) ∧
    (let s := hd wl [(1, seg1)] sr ce; let q := qe wl 0 [(1, seg1)]; let rest : List QEntry := [qe (desc 0) 1]; let p := pool1;
     let w : Bytes := [] ++ leBytes 4 4294967295; AtHead s 1 0 q rest 8 ∧ (getDist s 1).pool = some p ∧ (getSeq p (fld q.raw 159 128)).edits = [] ∧
     walkWords p (getSeq p (fld q.raw 159 128)) (fld q.raw 167 160) (fld q.raw 191 176) (fld q.raw 207 192) = some w) ∧
    (let s := hd (cs 0) [(1, seg1)] sr ce; let q := qe (cs 0) 0 [(1, seg1)]; let rest : List QEntry := [qe (desc 0) 1]; AtHead s 1 0 q rest 9) ∧
    (let s := wl13a_10[6]'(by decide); let i := wl13a_12[0]'(by decide); let part : List (List Nat) := []; let m := matOf i.q.raw; Working s 1 0 i ∧
     fld i.q.raw 7 0 = 1 ∧ i.begun = true ∧ i.work = Work.mat 0 false part ∧ 0 < matTiles (matOf i.q.raw) ∧ m.send = false) ∧
    (let s := wl13a_10[8]'(by decide); let i := wl13a_12[2]'(by decide); let part : List (List Nat) := []; let m := matOf i.q.raw; Working s 1 0 i ∧
     fld i.q.raw 7 0 = 1 ∧ i.begun = true ∧ i.work = Work.mat 0 false part ∧ 0 < matTiles (matOf i.q.raw) ∧ m.send = true) := by
  refine ⟨?_, ?_, ?_, ?_, ?_, ?_⟩ <;> (and_intros <;> first | decide +kernel | (constructor <;> first | decide +kernel | exact ⟨_, rfl, rfl⟩) | (intro _ h; cases h; decide +kernel) | (intro _; rfl) | (intro _ _ h; cases h) | (intro _ h; cases h))

/-- ArithmeticDescriptorsWrite, tanh: two inputs below the segments, and the first shipped image. -/
theorem test_ArithmeticDescriptorsWrite_tanh : (0 : Nat) ≤ 0x3B000000 ∧ 0x3B000000 ≤ 0x7F800000 ∧
    risesOn (sfnTanh 1) (max 0 0x3B7FFFFF) (min 0x3B000000 0x41100000) ∧ (1 : Nat) ≤ 1 ∧ 1 ≤ 8 := by
  refine ⟨by decide, by decide, ?_, by decide, by decide⟩
  intro x h k; omega

end P13a

namespace P13b
def mv (ls ld : Bool) (sz rows : Nat) (off : Nat := 0) := mk [(0,8,4), (16,16,99), (128,1,b2n ls), (129,1,b2n ld), (144,8,1), (152,8,1), (160,64,if ls then 0x20000 else off), (224,64,if ld then 0x20000 else off), (288,32,sz), (320,16,rows), (352,32,sz),(384,32,sz)]
def segS : Seg := { seg1 with tier := 4 }
def xf (e : Seg) (pos : Nat) (rb rows : Nat) (aop : Nat := 0) (fell : Option Nat := none) (dl : Option Nat := none) : Xfer := { src := .seg 1 e 64, dst := .lcl 0x20000, rowBytes := rb, rows := rows, srcStride := rb + 64, dstStride := rb, pos := pos, aop := aop, fell := fell, deadline := dl }
def w13b_1 : Xfer := xf seg1 1212 700 2 0 (some 0)
def w13b_2 : Xfer := xf {segS with tier := 1, cached := true} 0 64 3 0 (some 1) (some 3)
def xfs : List Xfer := [xf seg1 0 700 2, xf seg1 512 700 2, xf seg1 700 700 2, w13b_1, xf segS 640 700 1, xf segS 0 64 3, w13b_2]
def sts : List (State × Issued) := xfs.map fun x => (wk (mv false true 700 2) (.xfer x) {sram := [(0x20000, 9)]}, {q := qe (mv false true 700 2) 0 [(1, seg1)], work := .xfer x, begun := true})
def seg2f : Seg := { seg1 with fallback := 2 }
def w13b_3 : Xfer := xf seg2f 0 700 2 0 none (some 4999999)
def w13b_4 : Xfer := xf seg2f 640 700 2 0 none (some 4999998)
def w13b_5 : Xfer := xf seg1 0 700 2 0 none (some 4999999)
def w13b_6 : Xfer := xf seg1 0 700 2 0 none (some 5000000)
def dls : List Xfer := [w13b_3, w13b_4, w13b_5, w13b_6]
def stsd : List (State × Issued) := dls.map fun x => (wk (mv false true 700 2) (.xfer x), {q := qe (mv false true 700 2) 0 [(1, seg1)], work := .xfer x, begun := true})
def pfs : List (State × Prefetch) := [1, 0].map fun r => let p : Prefetch := ⟨4, 9, [(1, seg1)], xf seg1 64 64 r, true⟩; (run1 {prefetches := [p]}, p)
def wl13b_7 : List State := sts.map (·.1) ++ stsd.map (·.1) ++ pfs.map (·.1)
def wl13b_8 : List Issued := sts.map (·.2) ++ stsd.map (·.2)
def xa (aop pos rb : Nat) (src : End := .lcl 0x20000) : Xfer := { src := src, dst := .seg 1 segS 64, rowBytes := rb, rows := 2, srcStride := rb, dstStride := rb + 64, pos := pos, aop := aop }
def rec1 : Mem := memWrite [] 0 ([3, 0, 1, 0, 1, 0, 0, 0] ++ List.replicate 56 0)
def xo (pos : Nat) : Xfer := { src := .lcl 0x20000, dst := .seg 1 segS 0, rowBytes := 128, rows := 2, srcStride := 128, dstStride := 0, pos := pos, aop := 13 }
def sta (p : List Nat) (x : Xfer) (m : Mem := [(64, 5)]) : State × Issued := let s := wk (mv true false 700 2) (.xfer x) {sram := memWrite [(0x20000, 1)] 0x20040 [0,0,0x80,0x3f, 0,0,0x80,0x3f]}; ({ s with backs := [(1, { tier := 4, units := [0], size := 4096, data := m, poison := p })] }, {q := qe (mv true false 700 2) 0 [(1, seg1)], work := .xfer x, begun := true})
def sg (fr inc : Nat) := mk [(0,8,5), (128,11,0), (144,7,5), (152,1,fr), (160,8,inc)]
def wt (f v : Nat) := mk [(0,8,6), (144,7,5), (152,1,f), (160,16,v), (192,32,4)]
def stg (b : Bytes) (w : Work) (p : Pair) : State × Issued := (wk b w {pairs := [(5, p)]}, {q := qe b 0 [(1, seg1)], work := w, begun := true})

/-- What TransfersAdvanceAndFallBack assumes, clause by clause. -/
theorem test_TransfersAdvanceAndFallBack_met :
    (let s := wl13b_7[0]'(by decide); let i := wl13b_8[0]'(by decide); let x := xf seg1 0 700 2; let e := seg1; Working s 1 0 i ∧ i.begun = true ∧
     i.work = Work.xfer x ∧ x.src = End.seg 1 e 64 ∧ x.dst = End.lcl 131072 ∧ e.coded = false ∧ 131072 ≤ 131072 ∧ x.aop = 0 ∧ x.recode = none ∧
     x.page = false ∧ 0 < x.rowBytes ∧ xferDone x = false ∧ x.fell ≠ some 2 ∧ sourceStaged s x = true ∧
     (coresStart s 1 = true ∨ resumable x = false) ∧ endMem x.src = true ∧ e.cached = false ∧ chanGrants s 1 0 i.q.idx false x = true) ∧
    (let s := wl13b_7[4]'(by decide); let i := wl13b_8[4]'(by decide); let x := xf segS 640 700 1; let e := segS; Working s 1 0 i ∧ i.begun = true ∧
     i.work = Work.xfer x ∧ x.src = End.seg 1 e 64 ∧ x.dst = End.lcl 131072 ∧ e.coded = false ∧ 131072 ≤ 131072 ∧ x.aop = 0 ∧ x.recode = none ∧
     x.page = false ∧ 0 < x.rowBytes ∧ xferDone x = false ∧ x.fell ≠ some 2 ∧ sourceStaged s x = true ∧
     (coresStart s 1 = true ∨ resumable x = false) ∧ endSlice x.src = true ∧ bridgeClear s 1 0 (sliceEnd x) = true) ∧
    (let s := wl13b_7[7]'(by decide); let i := wl13b_8[7]'(by decide); let x := w13b_3; let e := seg2f; Working s 1 0 i ∧ i.begun = true ∧
     i.work = Work.xfer x ∧ x.src = End.seg 1 e 64 ∧ x.deadline = some 4999999 ∧ x.fell = none ∧ xferDone x = false ∧ coresStart s 1 = true ∧
     e.fallback = 2 ∧ x.dst = End.lcl 131072 ∧ 4999999 < time s) ∧
    (let s := wl13b_7[9]'(by decide); let i := wl13b_8[9]'(by decide); let x := w13b_5; let e := seg1; Working s 1 0 i ∧ i.begun = true ∧
     i.work = Work.xfer x ∧ x.src = End.seg 1 e 64 ∧ x.deadline = some 4999999 ∧ x.fell = none ∧ xferDone x = false ∧ coresStart s 1 = true ∧
     e.fallback = 0 ∧ 4999999 < time s) ∧
    (let s := wl13b_7[10]'(by decide); let i := wl13b_8[10]'(by decide); let x := w13b_6; let e := seg1; Working s 1 0 i ∧ i.begun = true ∧
     i.work = Work.xfer x ∧ x.src = End.seg 1 e 64 ∧ x.deadline = some 5000000 ∧ x.fell = none ∧ xferDone x = false ∧ coresStart s 1 = true ∧
     e.fallback = 0 ∧ time s ≤ 5000000) ∧
    (let s := (have p := { idx := 4, tag := 9, segs := [(1, seg1)], x := xf seg1 64 64 1, begun := true }; (run1 { prefetches := [p] }, p)).fst;
     let p := (have p := { idx := 4, tag := 9, segs := [(1, seg1)], x := xf seg1 64 64 1, begun := true }; (run1 { prefetches := [p] }, p)).snd;
     coresWork s 1 = true ∧ (getCore s 1 0).issued = [] ∧ (getCore s 1 0).prefetches = [p] ∧ xferDone p.x = true) := by
  refine ⟨?_, ?_, ?_, ?_, ?_, ?_⟩ <;> (and_intros <;> first | decide +kernel | (constructor <;> first | decide +kernel | exact ⟨_, rfl, rfl⟩) | (intro _ h; cases h; decide +kernel) | (intro _; rfl) | (intro _ _ h; cases h) | (intro _ h; cases h))

/-- What AtomicsAndContributionsAct assumes, clause by clause. -/
theorem test_AtomicsAndContributionsAct_met :
    (let s := (sta [] (xa 1 0 64)).fst; let i := (sta [] (xa 1 0 64)).snd; let x := xa 1 0 64; let e := segS; let cas : Prop := 11 ≤ x.aop;
     let o := x.pos % x.rowBytes; let r := x.pos / x.rowBytes; let k := min (if cas then 128 else 64) (x.rowBytes - o);
     let kd := if cas then k / 2 else k; let at_ : Nat := 64 + r * x.dstStride + if cas then o / 2 else o; Working s 1 0 i ∧ i.begun = true ∧
     i.work = Work.xfer x ∧ x.dst = End.seg 1 e 64 ∧ 1 ≤ x.aop ∧ x.aop ≤ 12 ∧ 0 < x.rowBytes ∧ xferDone x = false ∧
     (coresStart s 1 = true ∨ resumable x = false) ∧ bridgeClear s 1 0 (some (e, at_)) = true ∧ segPoison s e at_ kd = [] ∧
     endPoison s 1 0 x.src (r * x.srcStride + o) k = [] ∧ (¬cas)) ∧
    (let s := (sta [] (xa 11 0 128)).fst; let i := (sta [] (xa 11 0 128)).snd; let x := xa 11 0 128; let e := segS; let cas : Prop := 11 ≤ x.aop;
     let o := x.pos % x.rowBytes; let r := x.pos / x.rowBytes; let k := min (if cas then 128 else 64) (x.rowBytes - o);
     let kd := if cas then k / 2 else k; let at_ : Nat := 64 + r * x.dstStride + if cas then o / 2 else o; Working s 1 0 i ∧ i.begun = true ∧
     i.work = Work.xfer x ∧ x.dst = End.seg 1 e 64 ∧ 1 ≤ x.aop ∧ x.aop ≤ 12 ∧ 0 < x.rowBytes ∧ xferDone x = false ∧
     (coresStart s 1 = true ∨ resumable x = false) ∧ bridgeClear s 1 0 (some (e, at_)) = true ∧ segPoison s e at_ kd = [] ∧
     endPoison s 1 0 x.src (r * x.srcStride + o) k = [] ∧ cas ∧ x.src = End.lcl 131072) ∧
    (let s := (sta [1, 2] (xa 1 0 64)).fst; let i := (sta [] (xa 1 0 64)).snd; let x := xa 1 0 64; let e := segS; let cas : Prop := 11 ≤ x.aop;
     let o := x.pos % x.rowBytes; let r := x.pos / x.rowBytes; let k := min (if cas then 128 else 64) (x.rowBytes - o);
     let kd := if cas then k / 2 else k; let at_ : Nat := 64 + r * x.dstStride + if cas then o / 2 else o; Working s 1 0 i ∧ i.begun = true ∧
     i.work = Work.xfer x ∧ x.dst = End.seg 1 e 64 ∧ 1 ≤ x.aop ∧ x.aop ≤ 12 ∧ 0 < x.rowBytes ∧ xferDone x = false ∧
     (coresStart s 1 = true ∨ resumable x = false) ∧ bridgeClear s 1 0 (some (e, at_)) = true ∧ segPoison s e at_ kd ≠ []) ∧
    (let s := (sta [] (xo 0) rec1).fst; let i := (sta [] (xo 0) rec1).snd; let x := xo 0; let e := segS; let r := x.pos / x.rowBytes;
     let rec_ : Nat := 0 + r * x.dstStride; let row := endRead s 1 0 x.src (r * x.srcStride) x.rowBytes; let h := segRead s e rec_ 64;
     Working s 1 0 i ∧ i.begun = true ∧ i.work = Work.xfer x ∧ x.dst = End.seg 1 e 0 ∧ x.aop = 13 ∧ 0 < x.rowBytes ∧ xferDone x = false ∧
     x.pos % x.rowBytes = 0 ∧ coresStart s 1 = true ∧ bridgeClear s 1 0 (some (e, rec_)) = true ∧
     endPoison s 1 0 x.src (r * x.srcStride) x.rowBytes = [] ∧ segPoison s e rec_ 64 = [] ∧
     rec_ + 64 + (Option.getD (Option.map (fun (x : Nat) ↦ x + 1) (List.getLast? (setBits 16 (fld h 15 0)))) 0 + 1) * (64 * fld h 40 32) ≤ e.size ∧
     contributionOk row h x.rowBytes = true) := by
  refine ⟨?_, ?_, ?_, ?_⟩ <;> (and_intros <;> first | decide +kernel | (constructor <;> first | decide +kernel | exact ⟨_, rfl, rfl⟩) | (intro _ h; cases h; decide +kernel) | (intro _; rfl) | (intro _ _ h; cases h) | (intro _ h; cases h))

/-- What SignalsAndWaits assumes, clause by clause. -/
theorem test_SignalsAndWaits_met :
    (let s := (stg (sg 0 3) (Work.sig 0) { filled := 4 }).fst; let i := (stg (sg 0 3) (Work.sig 0) { filled := 4 }).snd;
     let tgt := fld i.q.raw 138 128; let pair := fld i.q.raw 150 144; Working s 1 0 i ∧ i.work = Work.sig 0 ∧ sigInOrder s 1 0 i [0] = true ∧
     pairOk (bumpPair i.q.raw (getPair s 1 tgt pair)) = true) ∧
    (let s := (stg (sg 0 3) (Work.sig 0) { filled := 7 }).fst; let i := (stg (sg 0 3) (Work.sig 0) { filled := 4 }).snd;
     let tgt := fld i.q.raw 138 128; let pair := fld i.q.raw 150 144; Working s 1 0 i ∧ i.work = Work.sig 0 ∧ sigInOrder s 1 0 i [0] = true ∧
     pairOk (bumpPair i.q.raw (getPair s 1 tgt pair)) = false) ∧
    (let s := (stg (wt 0 3) (Work.wait none) { filled := 3 }).fst; let i := (stg (wt 0 3) (Work.wait none) { filled := 3 }).snd; let k := none;
     Working s 1 0 i ∧ i.work = Work.wait k ∧ coresStart s 1 = true ∧ waitHolds s 1 i.q.raw = true) ∧
    (let s := (stg (wt 0 4) (Work.wait none) { filled := 3 }).fst; let i := (stg (wt 0 4) (Work.wait none) { filled := 3 }).snd; let k := none;
     Working s 1 0 i ∧ i.work = Work.wait k ∧ waitHolds s 1 i.q.raw = false) ∧
    (let s := (stg (wt 0 4) (Work.wait (some 4000000)) { filled := 3 }).fst; let i := (stg (wt 0 4) (Work.wait (some 4000000)) { filled := 3 }).snd;
     Working s 1 0 i ∧ i.work = Work.wait (some 4000000) ∧ coresStart s 1 = true ∧ 4000000 ≤ time s ∧ waitHolds s 1 i.q.raw = false) ∧
    (let s := (stg (wt 0 4) (Work.wait (some 6000000)) { filled := 3 }).fst; let i := (stg (wt 0 4) (Work.wait (some 6000000)) { filled := 3 }).snd;
     Working s 1 0 i ∧ i.work = Work.wait (some 6000000) ∧ (time s < 6000000 ∨ coresStart s 1 = false)) := by
  refine ⟨?_, ?_, ?_, ?_, ?_, ?_⟩ <;> (and_intros <;> first | decide +kernel | (constructor <;> first | decide +kernel | exact ⟨_, rfl, rfl⟩) | (intro _ h; cases h; decide +kernel) | (intro _; rfl) | (intro _ _ h; cases h) | (intro _ h; cases h))

/-- What DescriptorsAndRunsEnd assumes, clause by clause. -/
theorem test_DescriptorsAndRunsEnd_met :
    let s := (stg (sg 0 3) Work.fin { filled := 4 }).fst; let i := (stg (sg 0 3) Work.fin { filled := 4 }).snd; let r := runN; let p := prog1;
    Working s 1 0 i ∧ i.begun = true ∧ workDone i = true ∧ (getDist s 1).run = some r ∧ tfind (getDist s 1).progs r.handle = some p := by
  and_intros <;> first | decide +kernel | (constructor <;> first | decide +kernel | exact ⟨_, rfl, rfl⟩) | (intro _ h; cases h; decide +kernel) | (intro _; rfl) | (intro _ _ h; cases h) | (intro _ h; cases h)

end P13b

namespace P14
def sb (tier place dbase size vol fe fb prio : Nat) (dl : Nat := 0) (sub : Nat := 0) : Bytes := mk0 32 [(0,3,tier), (6,2,fb), (8,4,prio), (16,16,dl), (32,8,sub), (48,16,place), (64,48,dbase), (128,48,size), (192,32,fe), (224,32,vol)]
  where mk0 (n : Nat) (fs : List (Nat × Nat × Nat)) : Bytes := leBytes n (fs.foldl (fun a f => a + f.2.2 % 2 ^ f.2.1 * 2 ^ f.1) 0)
def fl : Flash := { vols := [(3, { owner := 1, extents := 10 }), (4, { owner := 1, extents := 5, creating := some (pd 0 0x404) })], staging := [(3, 2), (5, 1)], inflight := [⟨3, 1, none⟩] }
def seg9 : Seg := { segOf (sb 1 0 0 4096 0 0 0 0) 1 with bid := 1 }
def w14_1 : State := { up2 with flash := fl }
def w14_3 : State := { up2 with dists := [(1, { d1 with segs := [(1, seg9)], filling := [(2, { seg9 with bid := 5 }, pd 1 0x400)] })], flash := fl}
def w14_4 : Seg := {seg9 with bid := 5}
def w14_5 : FwReq := rq 1 1 (le 8 1 ++ sb 1 0 0 4096 0 0 0 5)
def w14_6 : FwReq := rq 1 1 (le 8 2 ++ sb 1 0 8192 8192 0 0 0 5)
def w14_9 : FwReq := rq 0 1 (le 8 7 ++ sb 3 0 65536 65536 3 1 0 5)
def segB : Seg := { seg1 with tier := 2, dbase := 4096, bid := 2 }
def mm (done : Nat) : MemMove := { pend := pd 1 0x403, src := seg1, dst := segB, srcOff := 64, dstOff := 128, len := 128, done := done }
def ss (f : Dist → Dist) : State := { up2 with dists := [(1, f { d1 with segs := [(1, seg1), (2, segB)] })], backs := [(1, {tier := 1, units := [0], size := 4096, data := [(64, 5), (130, 6)]}), (2, {tier := 2, units := [0], size := 4096})], flash := fl }
def vS := [ss id, ss fun x => { x with moves := [mm 0] }, ss fun x => { x with moves := [mm 64] }, ss fun x => { x with moves := [mm 128] } ]
def segF : Seg := { segOf (sb 3 0 65536 65536 3 1 0 5) 1 with bid := 0 }
def mmF : MemMove := { pend := pd 1 0x403, src := seg1, dst := segF, srcOff := 64, dstOff := 0, len := 65536, done := 0 }
def vS2 := vS ++ [ss fun x => { x with moves := [mmF], segs := [(1, seg1), (3, segF)] }]
def w14_11 : FwReq := rq 1 1 ([1, 2] ++ le 6 0 ++ le 8 64 ++ le 8 128 ++ le 8 128 ++ le 8 0)
def w14_13 : FwReq := rq 0 0xFF (le 4 9 ++ [3, 0, 0, 0] ++ le 4 7 ++ le 4 0)
def fs (o : List FlashOp) (b : AMap FlBlock) : State := { up2 with flash := { fl with inflight := o, blocks := b }, now := 700000000000, sites := [(3, {count := 5}), (9, {count := 4, lastEvent := some 5}), (1, {count := 4, lastEvent := some 699999999999})] }
def ww : Extent := { data := [(3, 4)], poison := [1] }
def mv (ls ld : Bool) (sz rows : Nat) (off : Nat := 0) := mk [(0,8,4), (16,16,99), (128,1,b2n ls), (129,1,b2n ld), (144,8,1), (152,8,1), (160,64,if ls then 0x20000 else off), (224,64,if ld then 0x20000 else off), (288,32,sz), (320,16,rows), (352,32,sz),(384,32,sz)]
def xf (e : Seg) (pos : Nat) (rb rows : Nat) : Xfer := { src := .seg 1 e 64, dst := .lcl 0x20000, rowBytes := rb, rows := rows, srcStride := rb + 64, dstStride := rb, pos := pos }
def w14_14 : State := (wk (mv false true 700 2) (.xfer (xf seg1 0 700 2)) {sram := [(0x20000, 9)]})
def aS : List State := [w14_14]
def wl14_15 : List MemReq := aS.flatMap fun s => (List.range 320).filterMap fun k => ageLimit k s

/-- What SegmentsHoldBytes assumes, clause by clause. -/
theorem test_SegmentsHoldBytes_met :
    (let c := rq 1 1 (le 8 1); let s := w14_1; let d := cmdDist c; let n := fld c.payload 7 0; Sendable specSegClear c s ∧ segForm c.payload = true ∧
     (getDist s d).state ∈ [1, 2, 3, 5, 6] ∧ (∀ (x : Nat × Seg), x ∈ (getDist s d).segs → x.fst ≠ n → x.snd.fallback = 1 → x.snd.subst ≠ n)) ∧
    (let c := rq 1 1 (le 8 1); let s := w14_1; let d := cmdDist c; Sendable specSegInfo c s ∧ segForm c.payload = true ∧
     (getDist s d).state ∈ [1, 2, 3, 4, 5, 6]) ∧
    (let s := w14_3; let g := w14_4; let p := pd 1 1024; tfind (getDist s 1).filling 2 = some (g, p) ∧ (getFn s p.req.fn).epoch = p.epoch) ∧
    (let c := w14_5; let s := w14_1; let d := cmdDist c; let n := fld c.payload 7 0; let e := segOf (List.drop 8 c.payload) 0; let o := seg9;
     Sendable specSegSet c s ∧ c.payload.length = 40 ∧ zeroAt c.payload segRsvd = true ∧ segPresent s e = true ∧
     (getDist s d).state ∈ [1, 2, 3, 5, 6] ∧ (e.fallback = 0 ∨ (getDist s d).serving = true ∨ (getDist s d).approx = true) ∧
     (e.tier = 3 → (keyErr s).fst = false) ∧ tfind (getDist s d).segs n = some o ∧
     sameFixed { tier := e.tier, coded := e.coded, cached := e.cached, ro := e.ro, fallback := e.fallback, prio := e.prio, deadlineUs := e.deadlineUs, subst := e.subst, place := e.place, dbase := e.dbase, size := e.size, firstExt := e.firstExt, volume := e.volume, bid := o.bid } o = true ∧
     hintOk (getDist s d) e = true ∧
     { tier := e.tier, coded := e.coded, cached := e.cached, ro := e.ro, fallback := e.fallback, prio := e.prio, deadlineUs := e.deadlineUs, subst := e.subst, place := e.place, dbase := e.dbase, size := e.size, firstExt := e.firstExt, volume := e.volume, bid := o.bid } ≠ o) ∧
    (let c := w14_6; let s := w14_1; let d := cmdDist c; let n := fld c.payload 7 0; let e := segOf (List.drop 8 c.payload) 0;
     Sendable specSegSet c s ∧ c.payload.length = 40 ∧ zeroAt c.payload segRsvd = true ∧ segPresent s e = true ∧
     (getDist s d).state ∈ [1, 2, 3, 5, 6] ∧ (e.fallback = 0 ∨ (getDist s d).serving = true ∨ (getDist s d).approx = true) ∧
     (e.tier = 3 → (keyErr s).fst = false) ∧ tfind (getDist s d).segs n = none ∧ newSegOk s (getDist s d) d c.fn n e = true ∧ e.tier ≠ 3 ∧
     (e.tier = 4 ∨ fits s e.tier (placeUnits s e.tier e.place) e.size = true)) ∧
    (let c := w14_9; let s := w14_1; let d := cmdDist c; let n := fld c.payload 7 0; let e := segOf (List.drop 8 c.payload) 0;
     Sendable specSegSet c s ∧ c.payload.length = 40 ∧ zeroAt c.payload segRsvd = true ∧ segPresent s e = true ∧
     (getDist s d).state ∈ [1, 2, 3, 5, 6] ∧ (e.fallback = 0 ∨ (getDist s d).serving = true ∨ (getDist s d).approx = true) ∧
     (e.tier = 3 → (keyErr s).fst = false) ∧ tfind (getDist s d).segs n = none ∧ newSegOk s (getDist s d) d c.fn n e = true ∧ e.tier = 3) := by
  refine ⟨?_, ?_, ?_, ?_, ?_, ?_⟩ <;> (and_intros <;> first | decide +kernel | (constructor <;> first | decide +kernel | exact ⟨_, rfl, rfl⟩) | (intro _ h; cases h; decide +kernel) | (intro _; rfl) | (intro _ _ h; cases h) | (intro _ h; cases h))

/-- What VolumesAndMovesComplete assumes, clause by clause. -/
theorem test_VolumesAndMovesComplete_met :
    (let c := w14_11; let s := ss id; let d := cmdDist c; let a := seg1; let b := segB; Sendable specMemMove c s ∧ c.payload.length = 40 ∧
     zeroAt c.payload [(63, 16), (319, 256)] = true ∧ tfind (getDist s d).segs (fld c.payload 7 0) = some a ∧
     tfind (getDist s d).segs (fld c.payload 15 8) = some b ∧
     (b.tier = 3 → fld c.payload 191 128 % 65536 = 0 ∧ fld c.payload 255 192 % 65536 = 0 ∧ s.flash.readOnly = false) ∧
     (a.tier = 3 ∨ b.tier = 3 → (keyErr s).fst = false) ∧
     (3 ≤ a.tier ∨ 3 ≤ b.tier ∨ a.cached = true ∨ b.cached = true → (retainBlocks s).fst = false) ∧ 0 < fld c.payload 255 192 ∧
     fld c.payload 255 192 % 64 = 0 ∧ fld c.payload 127 64 + fld c.payload 255 192 ≤ a.size ∧ fld c.payload 191 128 + fld c.payload 255 192 ≤ b.size ∧
     (getDist s d).state ∈ [1, 2, 3, 5, 6]) ∧
    (let s := ss id; pickMove s 0 = none) ∧
    (let s := vS2[1]'(by decide); let m := mm 0; (getDist s 1).moves = [m] ∧ pickMove s 1 = some m ∧ m.dst.tier ≠ 3 ∧ m.src.dbase ≠ m.dst.dbase ∧
     m.snapshot = none ∧ (∀ (g : Nat), segPoisoned s m.src g = false)) ∧
    (let s := vS2[3]'(by decide); let m := mm 128; (getDist s 1).moves = [m] ∧ m.len ≤ m.done ∧ m.dst.tier ≠ 3 ∧
     (getFn s m.pend.req.fn).epoch = m.pend.epoch) ∧
    (let s := vS2[4]'(by decide); let m := mmF; pickMove s 1 = some m ∧ m.dst.tier = 3 ∧ s.flash.readOnly = false ∧ volReady s m.dst.volume = true) ∧
    (let s := ss id; let x := { owner := 1, extents := 5, creating := some (pd 0 1028) }; let p := pd 0 1028; tfind s.flash.vols 4 = some x ∧
     x.creating = some p ∧ (getFn s p.req.fn).epoch = p.epoch) ∧
    (let c := rq 0 255 (le 8 3); let s := ss id; let v := fld c.payload 31 0; Sendable specVolDelete c s ∧ flashPresent s = true ∧
     c.payload.length = 8 ∧ fld c.payload 63 32 = 0 ∧ volReady s v = true ∧ (keyErr s).fst = false) ∧
    (let c := rq 0 255 (le 8 3); let s := ss id; let v := fld c.payload 31 0; Sendable specVolOwner c s ∧ flashPresent s = true ∧
     c.payload.length = 8 ∧ fld c.payload 63 40 = 0 ∧ volReady s v = true ∧ fld c.payload 39 32 < 32 ∧ (keyErr s).fst = false) ∧
    (let c := rq 0 1 (le 8 0); let s := ss id; let v := fld c.payload 31 0; Sendable specFlashInfo c s ∧ flashPresent s = true ∧
     c.payload.length = 8 ∧ fld c.payload 63 32 = 0 ∧ (v = 0 ∨ volReady s v = true) ∧ (getDist s (cmdDist c)).state ∈ [1, 2, 3, 4, 5, 6] ∧
     (keyErr s).fst = false) ∧
    (let c := w14_13; let s := ss id; let v := fld c.payload 31 0; Sendable specVolCreate c s ∧ flashPresent s = true ∧ c.payload.length = 16 ∧
     zeroAt c.payload [(63, 40), (127, 96)] = true ∧ v ≠ 0 ∧ fld c.payload 39 32 < 32 ∧ 0 < fld c.payload 95 64 ∧ tfind s.flash.vols v = none ∧
     (keyErr s).fst = false ∧ s.flash.readOnly = false ∧ usedExtents s + fld c.payload 95 64 ≤ flashExtents s) := by
  refine ⟨?_, ?_, ?_, ?_, ?_, ?_, ?_, ?_, ?_, ?_⟩ <;> (and_intros <;> first | decide +kernel | (constructor <;> first | decide +kernel | exact ⟨_, rfl, rfl⟩) | (intro _ h; cases h; decide +kernel) | (intro _; rfl) | (intro _ _ h; cases h) | (intro _ h; cases h))

/-- What MemoryControllerEventsComplete assumes, clause by clause. -/
theorem test_MemoryControllerEventsComplete_met :
    (let s := fs [{ vol := 3, ext := 1 }] [(0, { reads := 5, holds := [(3, 1)] })]; flashPresent s = true ∧ s.sec.keys = true ∧ blockGood s 0 = true ∧
     (getBlock s 0).reads + 1 < 100000) ∧
    (let s := fs [{ vol := 3, ext := 1 }] [(0, { reads := 5, holds := [(3, 1)] })]; flashPresent s = true ∧
     (s.flash.calibratedAt = 0 ∨ s.flash.calibratedAt + 600000000000 ≤ time s)) ∧
    (let s := fs [{ vol := 3, ext := 1 }] [(0, { reads := 5, holds := [(3, 1)] })]; flashPresent s = true ∧ s.sec.keys = true ∧ blockGood s 1 = true ∧
     (getBlock s 1).holds = []) ∧
    (let s := fs [{ vol := 3, ext := 1 }] [(0, { reads := 5, holds := [(3, 1)] })]; flashPresent s = true ∧ s.sec.keys = true ∧ blockGood s 1 = true ∧
     (getBlock s 1).holds = []) ∧
    (let s := fs [{ vol := 3, ext := 1 }] [(0, { reads := 5, holds := [(3, 1)] })]; s.sec.keys = true ∧ volReady s 3 = true ∧
     1 < (getVol s 3).extents ∧ 0 ≤ 3 ∧ heldRead s 3 1 = true ∧ extentWanted s 3 1 = true ∧ s.flash.staging.length < 4096) ∧
    (let s := fs [{ vol := 3, ext := 1 }] [(0, { reads := 5, holds := [(3, 1)] })]; s.sec.keys = true ∧ volReady s 3 = true ∧
     1 < (getVol s 3).extents ∧ 0 ≤ 3 ∧ heldRead s 3 1 = true ∧ extentWanted s 3 1 = true ∧ s.flash.staging.length < 4096) ∧
    (let s := fs [{ vol := 3, ext := 1, write := some ww }] []; let o := { vol := 3, ext := 1, write := some ww }; let w := ww;
     s.flash.inflight = [o] ∧ o.vol = 3 ∧ o.ext = 1 ∧ o.write = some w ∧ s.sec.keys = true ∧ mayProgram s 0 = true) ∧
    (let s := fs [{ vol := 3, ext := 1, write := some ww }] []; let o := { vol := 3, ext := 1, write := some ww }; let w := ww;
     s.flash.inflight = [o] ∧ o.vol = 3 ∧ o.ext = 1 ∧ o.write = some w ∧ s.sec.keys = true ∧ mayProgram s 0 = true) ∧
    (let s := fs [{ vol := 3, ext := 1 }] [(0, { reads := 5, holds := [(3, 1)] })]; ageLimit 0 s = none) ∧
    (let s := fs [{ vol := 3, ext := 1 }] [(0, { reads := 5, holds := [(3, 1)] })]; chanOk s 0 = true) ∧
    (let s := fs [{ vol := 3, ext := 1 }] [(0, { reads := 5, holds := [(3, 1)] })]; siteOk s 0 = true) ∧
    (let s := fs [{ vol := 3, ext := 1 }] [(0, { reads := 5, holds := [(3, 1)] })]; siteOk s 0 = true) ∧
    (let s := fs [{ vol := 3, ext := 1 }] [(0, { reads := 5, holds := [(3, 1)] })]; (siteOk s 3 = true ∨ 24 ≤ 3 ∧ 3 < 56) ∧
     (tget { } s.sites 3).count = 5 ∧ 5 ≠ 0 ∧ (∀ (k : Nat), (tget { } s.sites 3).lastEvent = some k → k + 1000000000 ≤ time s)) ∧
    (let s := w14_14; let r := wl14_15[0]'(by decide); ageLimit 0 s = some r) := by
  refine ⟨?_, ?_, ?_, ?_, ?_, ?_, ?_, ?_, ?_, ?_, ?_, ?_, ?_, ?_⟩ <;> (and_intros <;> first | decide +kernel | (constructor <;> first | decide +kernel | exact ⟨_, rfl, rfl⟩) | (intro _ h; cases h; decide +kernel) | (intro _; rfl) | (intro _ _ h; cases h) | (intro _ h; cases h))

end P14

namespace P15
def peers24 (e : Nat) : Bytes := (List.range 24).flatMap fun i => leBytes 4 (i + 5 + i % 24 * 4096 + e * 131072)
def cfg1 : LinksRec := { deviceId := 3, ward := false, tag := 7, peers := (List.range 24).map fun i => (i, { id := i + 5, port := i, expect := true }) }
def df (fseq : Nat) (chan : Nat := 2) (first := true) (last := true) : Flit := { typ := 1, chan := chan, first := first, last := last, dest := 3, src := 9, fseq := fseq, payload := List.replicate 240 5, len := 240, ack := 11 }
def po (x : Port) (cfg : LinksRec := cfg1) : State := { up1 with links := { cfg := cfg, ports := [(1, x), (2, { state := 2 })] }, groups := [] }
def lk : Links := { cfg := cfg1, ports := [(1, { state := 2, queue := [(2, [⟨1, [⟨df 0, none⟩], false⟩])], replay := [df 3], rx := [(2, [df 1])] }), (2, { state := 3 }), (3, {state := 1})] }
def w15_1 : State := { up1 with links := lk}
def w15_3 : FwReq := rq 0 0xFF (le 8 3 ++ le 8 9 ++ peers24 1)
def w15_4 : FwReq := rq 0 0xFF (le 8 (5 + 3 * 4096) ++ le 4 1 ++ le 4 2 ++ le 4 0)
def pt0 : Port := { state := 1, ownId := 3, ownTag := 7, peer := { id := 6, port := 1, expect := true } }
def pl : Port := { pt0 with state := 2, identOk := true, replay := [df 3, df 4], txNext := 5, lastRx := 4000000, txPools := [(4, {size := 4, sent := 2})], queue := [(2, [⟨1, [⟨df 0, none⟩], false⟩])] }
def ptT : Port := { pt0 with identOk := true, credited := true, syncAt := some 4, syncT2 := 6, attempts := 1 }
def w15_5 : Port := { ptT with attempts := 2 }
def w15_11 : Port := { pl with retrain := some 1 }
def w15_12 : Port := { pl with retrain := some 1, ceFec := 5 }
def idB (ok : Bool) (f : Bytes → Bytes := id) : Bytes := f (identBytes { ownId := if ok then 6 else 8, ownTag := 7 } 1)
def w15_14 : Bytes := idB true fun b => b.set 3 0x80
def pf : Port := { pl with rxNext := 11, lastTx := 0, txPools := [(4, {size := 4, sent := 2}), (6, {size := 2, sent := 9, freed := 8})], rxPools := [(4, {size := 3, freed := 2, reported := 1})] }
def w15_15 : Port := { pf with ctl := [{ df 3 with typ := 5 }] }
def w15_17 : Port := { pf with queue := [(2, [⟨1, [⟨df 0, some (2, 4)⟩], false⟩])] }
def w15_18 : Port := { pf with nak := none, rxNext := 12 }
def w15_20 : Port := {pf with resend := some 0}
def w15_22 : Port := { pf with queue := [] }
def w15_26 : Port := {pf with nak := some 4999000}
def w15_29 : Flit := {df 3 with typ := 5}
def fb (f : Flit) := flitBytes f
def sy (s : Bool) (t1 t2 t4 : Nat) (root : Nat := 2) : SyncMsg := { t1 := t1, t2 := t2, t4 := t4, root := root, dist := 1, rootSeq := 9, spans := s }
def sp : Port := { state := 2, syncT1 := 1000, syncT2 := 5, peer := {id := 6, port := 1}}
def l1 : State := po sp
def l2 : State := { l1 with links := { l1.links with root := some 2, parent := some 1, synced := true, rootAt := 4000000, dist := 2 } }
def l4 : State := { l2 with links := { l2.links with ports := [(1, sp), (2, { sp with root := 1, dist := 4, rootAt := some 4990000, rootSeq := 8 })] } }

/-- What LinkCommandsComplete assumes, clause by clause. -/
theorem test_LinkCommandsComplete_met :
    (let c := w15_3; let s := w15_1; let p := c.payload; Sendable specLinkConfig c s ∧ p.length = 112 ∧
     zeroAt p ((63, 13) :: List.map (fun (i : Nat) ↦ (128 + 32 * i + 31, 128 + 32 * i + 18)) (List.range 24)) = true) ∧
    (let c := w15_4; let s := w15_1; let p := c.payload; Sendable specLinkRoute c s ∧ 8 ≤ p.length ∧ p.length = 8 + 4 * fld p 23 12 ∧
     zeroAt p [(63, 24)] = true ∧ 1 ≤ fld p 23 12 ∧ fld p 23 12 ≤ 110 ∧ fld p 11 0 + fld p 23 12 ≤ 4096 ∧
     (∀ (w : Nat × Nat), w ∈ routeWords p → w.snd < 2 ^ 24 ∧ (∀ (q : Nat), q ∈ setBits 24 w.snd → portPresent s q = true) ∧ routeOk s.links.cfg w.fst w.snd = true)) ∧
    (let c := rq 0 255 (le 8 6); let s := w15_1; let p := c.payload; Sendable specLinkEnable c s ∧ portsForm p = true ∧
     (∀ (i : Nat), i ∈ portsOf p → portPresent s i = true ∧ (tget { } s.links.cfg.peers i).expect = true) ∧ s.pwr.state ≠ 2 ∧
     (retainBlocks s).fst = false ∧ (∀ (e : LinkEnable), e ∈ s.links.enables → stillTraining s e = true) ∧
     (∃ (i : Nat), i ∈ portsOf p ∧ (getPort s i).state ≠ 2)) ∧
    (let c := rq 0 255 (le 8 6); let s := w15_1; let p := c.payload; Sendable specLinkDisable c s ∧ portsForm p = true ∧
     (∀ (i : Nat), i ∈ portsOf p → portPresent s i = true)) ∧
    (let c := rq 0 255 (le 8 6); let s := w15_1; let p := c.payload; Sendable specLinkInfo c s ∧ p.length = 8 ∧ zeroAt p [(63, 5)] = true ∧
     portPresent s (fld p 4 0) = true) ∧
    (let c := rq 0 255 (le 8 2); let s := w15_1; let p := c.payload; Sendable specLinkEnable c s ∧ portsForm p = true ∧
     (∀ (i : Nat), i ∈ portsOf p → portPresent s i = true ∧ (tget { } s.links.cfg.peers i).expect = true) ∧ s.pwr.state ≠ 2 ∧
     (retainBlocks s).fst = false ∧ (∀ (e : LinkEnable), e ∈ s.links.enables → stillTraining s e = true) ∧
     (∀ (i : Nat), i ∈ portsOf p → (getPort s i).state = 2)) := by
  refine ⟨?_, ?_, ?_, ?_, ?_, ?_⟩ <;> (and_intros <;> first | decide +kernel | (constructor <;> first | decide +kernel | exact ⟨_, rfl, rfl⟩) | (intro _ h; cases h; decide +kernel) | (intro _; rfl) | (intro _ _ h; cases h) | (intro _ h; cases h))

/-- What LinksTrainAndRetrain assumes, clause by clause. -/
theorem test_LinksTrainAndRetrain_met :
    (let s := po ptT; let x := getPort s 0; portRuns s 0 = true ∧
     (x.ceFec = 0 ∧ x.ceReplays = 0 ∨ ∃ (k : Nat), x.ceAt = some k ∧ time s < k + 1000000000)) ∧
    (let b := idB true; let s := po ptT; let x := getPort s 1; let i := identRead b; portRuns s 1 = true ∧ x.state = 1 ∧ i.rsvd = false ∧
     identMatches x i = true) ∧
    (let s := po ptT; let x := getPort s 1; portRuns s 1 = true ∧ x.state = 1 ∧ trained x = true) ∧
    (let s := po ptT; let x := getPort s 1; portRuns s 1 = true ∧ x.state = 1 ∧ (false = false ∨ trained x = false) ∧ x.attempts < 2) ∧
    (let s := po ptT; let x := getPort s 1; portRuns s 1 = true ∧ (x.state = 2 ∨ x.state = 1)) ∧
    (let s := po w15_5; let x := getPort s 1; portRuns s 1 = true ∧ x.state = 1 ∧ (false = false ∨ trained x = false) ∧ x.attempts = 2) ∧
    (let s := po pl; portLive s 1 = true) ∧
    (let s := po pl; let x := getPort s 1; portLive s 1 = true ∧ portWaits x = true ∧ x.lastRx + 4000 ≤ time s) ∧
    (let s := po pl; portLive s 1 = true) ∧
    (let b := idB true; let s := po w15_11; let x := getPort s 1; let i := identRead b; portRuns s 1 = true ∧ Option.isSome x.retrain = true ∧
     i.rsvd = false ∧ identMatches x i = true) ∧
    (let b := idB true; let s := po w15_11; let x := getPort s 1; let i := identRead b; portRuns s 1 = true ∧ Option.isSome x.retrain = true ∧
     (false = false ∨ i.rsvd = true)) ∧
    (let s := po w15_12; let x := getPort s 1; portRuns s 1 = true ∧ (x.ceFec ≠ 0 ∨ x.ceReplays ≠ 0) ∧
     (∀ (k : Nat), x.ceAt = some k → k + 1000000000 ≤ time s)) ∧
    (let b := idB false; let s := po ptT; let x := getPort s 1; let i := identRead b; portRuns s 1 = true ∧ x.state = 1 ∧ i.rsvd = false ∧
     identMatches x i = false) ∧
    (let b := idB false; let s := po w15_11; let x := getPort s 1; let i := identRead b; portRuns s 1 = true ∧ Option.isSome x.retrain = true ∧
     i.rsvd = false ∧ identMatches x i = false) ∧
    (let b := w15_14; let s := po ptT; let x := getPort s 1; let i := identRead b; portRuns s 1 = true ∧ x.state = 1 ∧ i.rsvd = true) := by
  refine ⟨?_, ?_, ?_, ?_, ?_, ?_, ?_, ?_, ?_, ?_, ?_, ?_, ?_, ?_, ?_⟩ <;> (and_intros <;> first | decide +kernel | (constructor <;> first | decide +kernel | exact ⟨_, rfl, rfl⟩) | (intro _ h; cases h; decide +kernel) | (intro _; rfl) | (intro _ _ h; cases h) | (intro _ h; cases h))

/-- What FlitsMoveInOrder assumes, clause by clause. -/
theorem test_FlitsMoveInOrder_met :
    (let s := po w15_15; let x := getPort s 1; let f := w15_29; let l : List Flit := []; portFlits s 1 = true ∧ x.resend = none ∧
     x.replay.length < 512 ∧ x.ctl = f :: l) ∧
    (let s := po w15_15; let x := getPort s 1; portFlits s 1 = true ∧ x.lastTx + 256 ≤ time s) ∧
    (let s := po w15_15; let x := getPort s 1; let b := fb (df 11); let errs : List Nat := [0, 2, 4, 6, 8]; let f := flitOf b; portFlits s 1 = true ∧
     (fecOk errs = false ∨ flitCrcOk b = false ∨ 5 < f.typ ∨ f.rsvd = true ∨ (f.typ = 1 ∨ f.typ = 5) ∧ f.fseq ≠ x.rxNext)) ∧
    (let s := po w15_15; let x := getPort s 1; let b := fb (df 11); let errs : List Nat := []; let f := flitOf b; portFlits s 1 = true ∧
     fecOk errs = true ∧ flitCrcOk b = true ∧ f.typ = 1 ∧ f.rsvd = false ∧ f.fseq = x.rxNext ∧ f.transit = false ∧ f.chan < 64 ∧
     (tget { } x.rxPools (2 * f.chan)).size ≠ 0) ∧
    (let s := po w15_15; let x := getPort s 1; let b := fb (df 11 5); let errs : List Nat := []; let f := flitOf b; portFlits s 1 = true ∧
     fecOk errs = true ∧ flitCrcOk b = true ∧ f.typ = 1 ∧ f.rsvd = false ∧ f.fseq = x.rxNext ∧ x.grow = [] ∧
     (tget { } x.rxPools (2 * f.chan + if f.transit = true then 1 else 0)).size = 0) ∧
    (let s := po w15_17; let x := getPort s 1; let f := { f := df 0, origin := some (2, 4) }; portFlits s 1 = true ∧ x.resend = none ∧
     x.replay.length < 512 ∧ x.ctl = [] ∧ nextChannel x = some 2 ∧ headFlit x 2 = some f ∧ f.origin = some (2, 4) ∧ 2 ≠ 1) ∧
    (let s := po w15_18; let x := getPort s 1; let f := { f := df 0 }; portFlits s 1 = true ∧ x.resend = none ∧ x.replay.length < 512 ∧ x.ctl = [] ∧
     nextChannel x = some 2 ∧ headFlit x 2 = some f ∧ f.origin = none) ∧
    (let s := po w15_20; let x := getPort s 1; let f := df 3; portFlits s 1 = true ∧ x.resend = some 0 ∧ x.replay[0]? = some f) ∧
    (let s := po w15_22; let x := getPort s 1; portFlits s 1 = true ∧ x.resend = none ∧ (512 ≤ x.replay.length ∨ x.ctl = [] ∧ nextChannel x = none) ∧
     (∃ (k : Nat), k < 136 ∧ reportDue x (time s) k = true)) ∧
    (let s := po w15_26; let x := getPort s 1; portFlits s 1 = true ∧ x.nak = some 4999000 ∧ 4999000 + 1000 ≤ time s) ∧
    (let s := po w15_15; let x := getPort s 2; portFlits s 2 = true ∧ x.resend = none ∧ (512 ≤ x.replay.length ∨ x.ctl = [] ∧ nextChannel x = none) ∧
     (∀ (k : Nat), k < 136 → reportDue x (time s) k = false)) := by
  refine ⟨?_, ?_, ?_, ?_, ?_, ?_, ?_, ?_, ?_, ?_, ?_⟩ <;> (and_intros <;> first | decide +kernel | (constructor <;> first | decide +kernel | exact ⟨_, rfl, rfl⟩) | (intro _ h; cases h; decide +kernel) | (intro _; rfl) | (intro _ _ h; cases h) | (intro _ h; cases h))

/-- What TimeBaseSynchronises assumes, clause by clause. -/
theorem test_TimeBaseSynchronises_met :
    (let s := l2; Option.isSome s.links.root = true ∧ s.links.rootAt + 64000 ≤ time s ∧ lowestRoot s s.links.root = none) ∧
    (let s := l4; Option.isSome s.links.root = true ∧ s.links.rootAt + 64000 ≤ time s ∧ lowestRoot s s.links.root = some 1) ∧
    (let s := l1; portFlits s 1 = true ∧ (∀ (k : Nat), (getPort s 1).syncAt = some k → k + 8000 ≤ time s)) ∧
    (let s := l1; let m := sy true 0 0 0; portFlits s 1 = true ∧ (m.spans = true ∨ Option.isSome (getPort s 1).resend = true)) ∧
    (let s := l1; let m := sy false 0 1000 0; portFlits s 1 = true ∧ m.spans = false ∧ (getPort s 1).resend = none) := by
  refine ⟨?_, ?_, ?_, ?_, ?_⟩ <;> (and_intros <;> first | decide +kernel | (constructor <;> first | decide +kernel | exact ⟨_, rfl, rfl⟩) | (intro _ h; cases h; decide +kernel) | (intro _; rfl) | (intro _ _ h; cases h) | (intro _ h; cases h))

end P15

namespace P16a
def ml : Bytes := le 4 0 ++ le 4 1 ++ le 4 2
def lk : Links := { cfg := { deviceId := 0, routes := [(1, 2), (2, 4)], peers := [(1, ⟨1, 1, true⟩), (2, ⟨2, 1, true⟩)] }, ports := [(1, {state := 2, peer := ⟨1,1,true⟩}), (2, {state := 2, peer := ⟨2,1,true⟩})] }
def planI (op red fmt owner peer units : Nat) (early : Nat := 0) : Bytes := leBytes 32 (0x4E414C50 + 1 * 2^32 + op * 2^40 + red * 2^44 + fmt * 2^48 + early * 2^57 + 1 * 2^80) ++ leBytes 8 (units + owner * 2^19 + peer * 2^32)
def gd : Dist := { state := 1, q := 1, quarters := [0], gen := 3, channels := [3, 4, 5], segs := [(1, seg1)], shares := [(1, 16), (2, 16)] }
def gr (st : Nat) (f : Group → Group := id) : Group := f { dist := 1, state := st, members := [⟨0, none⟩, ⟨1, none⟩, ⟨2, none⟩], myPos := 0, stageKib := 256, links := 6, epoch := 255, seq := 7, sig := 9, tag := 0x55 }
def gs (gs : AMap Group) (f : Dist → Dist := id) : State := { up with dists := [(1, f gd)], backs := [(1, { tier := 1, units := [0], size := 4096, data := memOf (ml ++ List.replicate 52 0 ++ planI 1 1 1 0 0 1) })], nextBid := 2, links := lk, groups := gs }
def gc (g n pos stage : Nat) : Bytes := leBytes 48 (g + n * 2^16 + pos * 2^32 + 0x55 * 2^64 + 1 * 2^128 + stage * 2^256 + 5 * 2^288 + 6 * 2^320)
def mi (sig : Nat) : Msg := { gseq := 7, chunk := 0, pass := 0, level := 0, relayed := false, epoch := 255, sig := sig, crc := 5, src := 1, v := {data := [1], lateReady := 4, earlyReady := 3, latePos := 1} }
def grI : Group := gr 0 fun x => { x with inbox := [mi 12345] }
def w16a_3 : FwReq := rq 1 1 (le 8 3 ++ le 8 1 ++ le 8 64 ++ le 8 40)

/-- What GroupCommandsComplete assumes, clause by clause. -/
theorem test_GroupCommandsComplete_met :
    (let c := rq 1 1 (gc 3 3 0 256); let s := gs []; let p := c.payload; let d := cmdDist c; let g := cmdGroup c;
     let ms := tableBytes s (getDist s d) (fld p 135 128) (fld p 255 192) (4 * min 4096 (fld p 28 16)); let x := groupOf s d p ms;
     Sendable specGroupCreate c s ∧ p.length = 48 ∧ zeroAt p groupRsvd = true ∧ memberListOk ms = true ∧
     (∀ (q : Nat), q ∈ setBits 24 (fld p 343 320) → portPresent s q = true) ∧ groupOk s d p x = true ∧ g ∈ (getDist s d).channels ∧
     groupFree s d x = true ∧ (getDist s d).state ∈ [1, 2, 3, 5, 6] ∧ getGroup s g = none) ∧
    (let c := rq 1 1 (le 8 3); let s := gs [(3, grI)]; let p := c.payload; let d := cmdDist c; let g := cmdGroup c; let x := grI;
     Sendable specGroupDestroy c s ∧ groupForm p = true ∧ (getDist s d).state ∈ [1, 2, 3, 4, 5, 6] ∧ getGroup s g = some x ∧ x.dist = d ∧
     x.state ∈ [0, 1, 3]) ∧
    (let c := rq 1 1 (le 8 3); let s := gs [(3, grI)]; let p := c.payload; let d := cmdDist c; let g := cmdGroup c; let x := grI;
     Sendable specGroupInfo c s ∧ groupForm p = true ∧ (getDist s d).state ∈ [1, 2, 3, 4, 5, 6] ∧ getGroup s g = some x ∧ x.dist = d ∧ x.state ≤ 3) ∧
    (let c := rq 1 1 (le 8 3); let s := gs [(3, gr 1)]; let p := c.payload; let d := cmdDist c; let g := cmdGroup c; let x := gr 1;
     Sendable specCollAbort c s ∧ groupForm p = true ∧ (getDist s d).state ∈ [1, 2, 3, 4, 5, 6] ∧ getGroup s g = some x ∧ x.dist = d ∧
     x.state ∈ [1, 2]) ∧
    (let c := rq 1 1 (le 8 3); let s := gs [(3, gr 3)]; let p := c.payload; let d := cmdDist c; let g := cmdGroup c; let x := gr 3;
     Sendable specCollAbort c s ∧ groupForm p = true ∧ (getDist s d).state ∈ [1, 2, 3, 4, 5, 6] ∧ getGroup s g = some x ∧ x.dist = d ∧ x.state = 3) ∧
    (let c := w16a_3; let s := gs [(3, grI)]; let p := c.payload; let d := cmdDist c; let g := cmdGroup c; let x := grI; let len := fld p 223 192;
     let img := tableBytes s (getDist s d) (fld p 71 64) (fld p 191 128) (min len 65600); let sig := crc32c (img ++ leBytes 8 (BitVec.toNat x.tag));
     Sendable specPlanSet c s ∧ p.length = 32 ∧ zeroAt p [(63, 6), (127, 72), (255, 224)] = true ∧
     rangeIn (getDist s d) (fld p 71 64) (fld p 191 128) len [1, 2, 3, 4] = true ∧ planFormatOk img = true ∧ (getDist s d).state ∈ [1, 2, 3, 5, 6] ∧
     getGroup s g = some x ∧ x.dist = d ∧ planArgsOk (planOf img) (x.members.length) = true ∧ x.state ∈ [0, 1] ∧
     (∃ (m : Msg), m ∈ x.inbox ∧ m.sig ≠ sig)) ∧
    (let c := w16a_3; let s := gs [(3, gr 0)]; let p := c.payload; let d := cmdDist c; let g := cmdGroup c; let x := gr 0; let len := fld p 223 192;
     let img := tableBytes s (getDist s d) (fld p 71 64) (fld p 191 128) (min len 65600); let sig := crc32c (img ++ leBytes 8 (BitVec.toNat x.tag));
     Sendable specPlanSet c s ∧ p.length = 32 ∧ zeroAt p [(63, 6), (127, 72), (255, 224)] = true ∧
     rangeIn (getDist s d) (fld p 71 64) (fld p 191 128) len [1, 2, 3, 4] = true ∧ planFormatOk img = true ∧ (getDist s d).state ∈ [1, 2, 3, 5, 6] ∧
     getGroup s g = some x ∧ x.dist = d ∧ planArgsOk (planOf img) (x.members.length) = true ∧ x.state ∈ [0, 1] ∧
     (x.inbox = [] ∨ (planOf img).early = false ∧ ∀ (m : Msg), m ∈ x.inbox → m.sig = sig ∧ m.checked = false)) ∧
    (let c := rq 1 1 (le 8 3 ++ le 8 70); let s := gs [(3, gr 1)]; let p := c.payload; let d := cmdDist c; let g := cmdGroup c; let x := gr 1;
     Sendable specGroupReset c s ∧ p.length = 16 ∧ zeroAt p [(63, 6)] = true ∧ (getDist s d).state ∈ [1, 2, 3, 4, 5, 6] ∧ getGroup s g = some x ∧
     x.dist = d ∧ x.state ∈ [1, 3]) := by
  refine ⟨?_, ?_, ?_, ?_, ?_, ?_, ?_, ?_⟩ <;> (and_intros <;> first | decide +kernel | (constructor <;> first | decide +kernel | exact ⟨_, rfl, rfl⟩) | (intro _ h; cases h; decide +kernel) | (intro _; rfl) | (intro _ _ h; cases h) | (intro _ h; cases h))

end P16a

namespace P16b
def ml : Bytes := le 4 0 ++ le 4 1 ++ le 4 2
def lk : Links := { cfg := { deviceId := 0, routes := [(1, 2), (2, 4)], peers := [(1, ⟨1, 1, true⟩), (2, ⟨2, 1, true⟩)] }, ports := [(1, {state := 2, peer := ⟨1,1,true⟩}), (2, {state := 2, peer := ⟨2,1,true⟩})] }
def planI (op red fmt owner peer units : Nat) (early : Nat := 0) : Bytes := leBytes 32 (0x4E414C50 + 1 * 2^32 + op * 2^40 + red * 2^44 + fmt * 2^48 + early * 2^57 + 1 * 2^80) ++ leBytes 8 (units + owner * 2^19 + peer * 2^32)
def gd : Dist := { state := 1, q := 1, quarters := [0], gen := 3, channels := [3, 4, 5], segs := [(1, seg1)], shares := [(1, 16), (2, 16)] }
def gr (st : Nat) (f : Group → Group := id) : Group := f { dist := 1, state := st, members := [⟨0, none⟩, ⟨1, none⟩, ⟨2, none⟩], myPos := 0, stageKib := 256, links := 6, epoch := 255, seq := 7, sig := 9, tag := 0x55 }
def gs (gs : AMap Group) (f : Dist → Dist := id) : State := { up with dists := [(1, f gd)], backs := [(1, { tier := 1, units := [0], size := 4096, data := memOf (ml ++ List.replicate 52 0 ++ planI 1 1 1 0 0 1) })], nextBid := 2, links := lk, groups := gs }
def pl1 (f : Plan → Plan := id) : Plan := f (planOf (planI 5 0 1 0 1 1))
def mh (seq chunk pass level epoch sig : Nat) (rel : Bool := false) (d : Bytes := List.replicate 64 1) : Msg := { gseq := seq, chunk := chunk, pass := pass, level := level, relayed := rel, epoch := epoch, sig := sig, crc := crc32c d, src := 1, v := {data := d, lateReady := 4, earlyReady := 3, latePos := 1} }
def rxOf (m : Msg) (srcId : Nat := 1) : List Flit := (flitsOf 3 0 srcId false false (msgHeader m ++ m.v.data)).map (·.f)
def gm (m : Msg) (x : Group) (srcId : Nat := 1) (port : Nat := 1) (f : Dist → Dist := id) : State := { gs [(3, x)] f with links := { lk with ports := [(1, {state := 2, peer := ⟨1,1,true⟩, rx := if port = 1 then [(3, rxOf m srcId)] else []}), (2, {state := 2, peer := ⟨2,1,true⟩, rx := if port = 2 then [(3, rxOf m srcId)] else []})] } }
def cu (f : Inst → Inst := id) : Option Inst := some (f {gseq := 7, tOpen := 5})
def rqC (put : Bool) (chunk : Nat) (inst : Option Nat := some 7) : CollReq := { d := 1, core := 0, idx := 0, put := put, tile := false, chunk := chunk, addr := 64, bytes := 64, fmt := 1, inst := inst }
def gA : Group := gr 2 fun x => {x with plan := some pl1, cur := cu, reqs := [rqC true 0]}
def gV : Group := gr 2 fun x => {x with plan := some pl1, cur := cu}
def gCk (fails : Nat) (seq : Nat := 7) : Group := gr 2 fun x => {x with plan := some pl1, cur := cu, fails := List.replicate fails (seq, 0), inbox := [mh seq 0 1 0 255 9], timeoutUs := 5, progress := 100}
def gAck : Group := gr 2 fun x => {x with plan := some pl1, cur := cu, acks := [(1, 5), (2, 0)], acksAt := 4, timeoutUs := 5, progress := 1, kept := [⟨1, mh 7 0 1 0 255 9⟩], evt := true}
def gClose : Group := gr 2 fun x => {x with plan := some pl1, cur := cu fun i => {i with puts := [(0, {data := List.replicate 64 1})], taken := [], putIssued := [0], late := some (9, 0, 1), early := some 4}, evt := true}
def g3 : Group := gr 3
def w16b_2 : Inst := {gseq := 7, tOpen := 5}
def w16b_3 : Inst := {gseq := 7, tOpen := 5, puts := [(0, {data := List.replicate 64 1})], taken := [], putIssued := [0], late := some (9, 0, 1), early := some 4}

/-- What CollectiveEventsReduceInOrder assumes, clause by clause. -/
theorem test_CollectiveEventsReduceInOrder_met :
    (let x := g3; let s := gs [(3, g3)]; getGroup s 3 = some x) ∧
    (let x := g3; let s := gs [(3, g3)]; getGroup s 3 = some x ∧ 1 ≠ x.myPos) ∧
    (let x := g3; let s := gs [(3, g3)]; getGroup s 3 = some x ∧ 1 ≠ x.myPos) ∧
    (let x := g3; let s := gm (mh 7 0 1 0 255 9) g3; let fs := rxOf (mh 7 0 1 0 255 9);
     let m := { msgOf 1 (List.any fs fun (f : Flit) ↦ f.poison) (msgBytes fs) (time s) with port := 1 }; getGroup s 3 = some x ∧
     (getDist s x.dist).state ≠ 5 ∧ (takeMsg 3 1 s).map (·.1) = some fs ∧ fld (msgBytes fs) 75 64 < 4092 ∧
     posOf x (List.headD fs { typ := 1 }).src = some 1 ∧ m.epoch = x.epoch ∧ x.state = 3) ∧
    (let x := gA; let s := gs [(3, gA)]; let p := pl1; let i := w16b_2; let r := rqC true 0;
     let rec1 := chunkRecOf (List.take 8 (List.drop 32 (planI 5 0 1 0 1 1))); getGroup s 3 = some x ∧ (getDist s x.dist).state ≠ 5 ∧ x.plan = some p ∧
     x.bind = none ∧ (p.op = 5 ∨ p.op = 6) ∧ p.chunks[r.chunk]? = some rec1 ∧ hasRoute s x rec1.peer = true ∧ memberPort s 3 x rec1.peer = some 1 ∧
     x.cur = some i ∧ x.reqs = [r] ∧ r.put = true ∧ r.inst = some x.seq ∧ r.bytes ≤ stageHalf x ∧ putBytes x = 0 ∧
     (∀ (e : Nat × Seg), r.seg = some e → staged s e.snd r.addr r.bytes = true)) ∧
    (let x := gA; let s := gs [(3, gA)]; getGroup s 3 = some x ∧ x.state ≠ 3) ∧
    (let x := gV; let s := gm (mh 8 0 1 0 255 9) gV; let fs := rxOf (mh 8 0 1 0 255 9);
     let m := { msgOf 1 (List.any fs fun (f : Flit) ↦ f.poison) (msgBytes fs) (time s) with port := 1 }; getGroup s 3 = some x ∧
     (getDist s x.dist).state ≠ 5 ∧ (takeMsg 3 1 s).map (·.1) = some fs ∧ fld (msgBytes fs) 75 64 < 4092 ∧
     posOf x (List.headD fs { typ := 1 }).src = some 1 ∧ m.epoch = x.epoch ∧ verified x = true ∧ (x.state = 0 ∨ x.state ∈ [1, 2] ∧ m.sig = x.sig) ∧
     (m.gseq = x.seq ∨ m.gseq = (x.seq + 1) % 2 ^ 64)) ∧
    (let x := gV; let s := gm (mh 7 0 1 0 0 9) gV; let fs := rxOf (mh 7 0 1 0 0 9);
     let m := { msgOf 1 (List.any fs fun (f : Flit) ↦ f.poison) (msgBytes fs) (time s) with port := 1 }; getGroup s 3 = some x ∧
     (getDist s x.dist).state ≠ 5 ∧ (takeMsg 3 1 s).map (·.1) = some fs ∧ fld (msgBytes fs) 75 64 < 4092 ∧
     posOf x (List.headD fs { typ := 1 }).src = some 1 ∧ m.epoch ≠ x.epoch) ∧
    (let x := gV; let s := gm (mh 9 0 1 0 255 9) gV; let fs := rxOf (mh 9 0 1 0 255 9);
     let m := { msgOf 1 (List.any fs fun (f : Flit) ↦ f.poison) (msgBytes fs) (time s) with port := 1 }; getGroup s 3 = some x ∧
     (getDist s x.dist).state ≠ 5 ∧ (takeMsg 3 1 s).map (·.1) = some fs ∧ fld (msgBytes fs) 75 64 < 4092 ∧
     posOf x (List.headD fs { typ := 1 }).src = some 1 ∧ m.epoch = x.epoch ∧ x.state ≠ 3 ∧
     (x.state ≠ 0 ∧ m.sig ≠ x.sig ∨ m.gseq ≠ x.seq ∧ m.gseq ≠ (x.seq + 1) % 2 ^ 64)) ∧
    (let x := gCk 0; let s := gs [(3, gCk 0)]; let m := mh 7 0 1 0 255 9; let p := pl1;
     let r := chunkRecOf (List.take 8 (List.drop 32 (planI 5 0 1 0 1 1))); getGroup s 3 = some x ∧ (getDist s x.dist).state ≠ 5 ∧ verified x = true ∧
     x.bind = none ∧ List.find? (fun (m : Msg) ↦ m.chunk == 0 && m.src == 1 && !m.checked) x.inbox = some m ∧ m.relayed = false ∧
     crc32c m.v.data = m.crc ∧ x.plan = some p ∧ (p.op = 5 ∨ p.op = 6) ∧ m.gseq = x.seq ∧ p.chunks[m.chunk]? = some r ∧ r.coded = false ∧ m.pass = 1 ∧
     m.v.taint = false) ∧
    (let x := gCk 0; let s := gs [(3, gCk 0)]; let m := mh 7 0 1 0 255 9; getGroup s 3 = some x ∧ (getDist s x.dist).state ≠ 5 ∧ verified x = true ∧
     x.bind = none ∧ List.find? (fun (m : Msg) ↦ m.chunk == 0 && m.src == 1 && !m.checked) x.inbox = some m ∧ failCount x m.gseq 0 < 3) ∧
    (let x := gCk 0; let s := gs [(3, gCk 0)]; getGroup s 3 = some x ∧ (getDist s x.dist).state ≠ 5 ∧ timedOut s x = true ∧ x.state ≠ 3) ∧
    (let x := gCk 3; let s := gs [(3, gCk 3)]; let m := mh 7 0 1 0 255 9; getGroup s 3 = some x ∧ (getDist s x.dist).state ≠ 5 ∧ verified x = true ∧
     x.bind = none ∧ List.find? (fun (m : Msg) ↦ m.chunk == 0 && m.src == 1 && !m.checked) x.inbox = some m ∧ x.state ≠ 3 ∧ 3 ≤ failCount x m.gseq 0) ∧
    (let x := gCk 0 8; let s := gs [(3, gCk 0 8)]; let m := mh 8 0 1 0 255 9; getGroup s 3 = some x ∧ (getDist s x.dist).state ≠ 5 ∧
     verified x = true ∧ x.bind = none ∧ List.find? (fun (m : Msg) ↦ m.chunk == 0 && m.src == 1 && !m.checked) x.inbox = some m ∧ m.relayed = false ∧
     crc32c m.v.data = m.crc ∧ (x.plan = none ∨ m.gseq ≠ x.seq)) ∧
    (let x := gAck; let s := gs [(3, gAck)]; getGroup s 3 = some x ∧ (getDist s x.dist).state ≠ 5 ∧ x.acks ≠ [] ∧
     (64 ≤ x.acks.length ∨ x.acksAt + 1000 ≤ time s)) ∧
    (let x := gAck; let s := gs [(3, gAck)]; let e := { dst := 1, m := mh 7 0 1 0 255 9 }; getGroup s 3 = some x ∧ keptFor x 1 0 = some e) ∧
    (let x := gAck; let s := gs [(3, gAck)]; let e := { dst := 1, m := mh 7 0 1 0 255 9 }; getGroup s 3 = some x ∧ keptFor x 1 0 = some e ∧
     memberPort s 3 x 1 = some 1) ∧
    (let x := gClose; let s := gs [(3, gClose)]; let i := w16b_3; getGroup s 3 = some x ∧ (getDist s x.dist).state ≠ 5 ∧ x.cur = some i ∧
     closable x = true ∧ x.nxt = none ∧ x.reqs = [] ∧ x.inbox = [] ∧ x.bind = none) := by
  refine ⟨?_, ?_, ?_, ?_, ?_, ?_, ?_, ?_, ?_, ?_, ?_, ?_, ?_, ?_, ?_, ?_, ?_, ?_⟩ <;> (and_intros <;> first | decide +kernel | (constructor <;> first | decide +kernel | exact ⟨_, rfl, rfl⟩) | (intro _ h; cases h; decide +kernel) | (intro _; rfl) | (intro _ _ h; cases h) | (intro _ h; cases h))

end P16b

namespace P16c
def ml : Bytes := le 4 0 ++ le 4 1 ++ le 4 2
def lk : Links := { cfg := { deviceId := 0, routes := [(1, 2), (2, 4)], peers := [(1, ⟨1, 1, true⟩), (2, ⟨2, 1, true⟩)] }, ports := [(1, {state := 2, peer := ⟨1,1,true⟩}), (2, {state := 2, peer := ⟨2,1,true⟩})] }
def planI (op red fmt owner peer units : Nat) (early : Nat := 0) : Bytes := leBytes 32 (0x4E414C50 + 1 * 2^32 + op * 2^40 + red * 2^44 + fmt * 2^48 + early * 2^57 + 1 * 2^80) ++ leBytes 8 (units + owner * 2^19 + peer * 2^32)
def gd : Dist := { state := 1, q := 1, quarters := [0], gen := 3, channels := [3, 4, 5], segs := [(1, seg1)], shares := [(1, 16), (2, 16)] }
def gr (st : Nat) (f : Group → Group := id) : Group := f { dist := 1, state := st, members := [⟨0, none⟩, ⟨1, none⟩, ⟨2, none⟩], myPos := 0, stageKib := 256, links := 6, epoch := 255, seq := 7, sig := 9, tag := 0x55 }
def gs (gs : AMap Group) (f : Dist → Dist := id) : State := { up with dists := [(1, f gd)], backs := [(1, { tier := 1, units := [0], size := 4096, data := memOf (ml ++ List.replicate 52 0 ++ planI 1 1 1 0 0 1) })], nextBid := 2, links := lk, groups := gs }
def plR (acc : Bool) (red fmt : Nat) : Plan := { op := 1, redop := red, fmt := fmt, acc := acc, early := true, root := 0, chunks := [{units := 1, owner := 1, peer := 0, coded := false, slot := 0}] }
def ow : ChunkVal := { data := (List.range 16).flatMap fun i => leBytes 4 (0x3F800000 + i * 0x10001), lateReady := 9, earlyReady := 9 }
def pa : ChunkVal := { data := (List.range 16).flatMap fun i => leBytes 4 (0x40000000 + i * 0x10101), lateReady := 7, earlyReady := 3, latePos := 2, poison := true }
def iR : Inst := { gseq := 7, tOpen := 5, puts := [(0, ow)], parts := [(0, pa, 8)] }
def gR (p : Plan) : Group := gr 2 fun x => {x with plan := some p, cur := some iR}

/-- CollectiveEventsReduceInOrder, the ring: member 0 adds its value to the partial sum that has come for chunk 0, which member 1 owns. -/
theorem test_CollectiveEventsReduceInOrder_ring : let p := plR false 1 1; let x := gR p; let s := gs [(3, x)]; let r : ChunkRec := {units := 1, owner := 1, peer := 0, coded := false, slot := 0}
    getGroup s 3 = some x ∧ x.plan = some p ∧ x.cur = some iR ∧ p.chunks[0]? = some r ∧ hier s x = false ∧ 2 ≤ x.members.length ∧
    x.myPos < x.members.length ∧ r.owner < x.members.length ∧ p.op ≤ 2 ∧ r.coded = false ∧ p.early = true ∧
    x.myPos ≠ r.owner ∧ x.myPos ≠ (r.owner + 1) % x.members.length ∧ tfind iR.puts 0 = some ow ∧ tfind iR.parts (2 * 0) = some (pa, 8) ∧
    0 ∉ iR.done0 ∧ tfind iR.totals 0 = none ∧ hasRoute s x ((x.myPos + 1) % x.members.length) = true ∧
    memberPort s 3 x ((x.myPos + 1) % x.members.length) = some 1 := by
  and_intros <;> decide +kernel

end P16c

namespace P16d
def ml : Bytes := le 4 0 ++ le 4 1 ++ le 4 2
def lk : Links := { cfg := { deviceId := 0, routes := [(1, 2), (2, 4)], peers := [(1, ⟨1, 1, true⟩), (2, ⟨2, 1, true⟩)] }, ports := [(1, {state := 2, peer := ⟨1,1,true⟩}), (2, {state := 2, peer := ⟨2,1,true⟩})] }
def planI (op red fmt owner peer units : Nat) (early : Nat := 0) : Bytes := leBytes 32 (0x4E414C50 + 1 * 2^32 + op * 2^40 + red * 2^44 + fmt * 2^48 + early * 2^57 + 1 * 2^80) ++ leBytes 8 (units + owner * 2^19 + peer * 2^32)
def gd : Dist := { state := 1, q := 1, quarters := [0], gen := 3, channels := [3, 4, 5], segs := [(1, seg1)], shares := [(1, 16), (2, 16)] }
def gr (st : Nat) (f : Group → Group := id) : Group := f { dist := 1, state := st, members := [⟨0, none⟩, ⟨1, none⟩, ⟨2, none⟩], myPos := 0, stageKib := 256, links := 6, epoch := 255, seq := 7, sig := 9, tag := 0x55 }
def gs (gs : AMap Group) (f : Dist → Dist := id) : State := { up with dists := [(1, f gd)], backs := [(1, { tier := 1, units := [0], size := 4096, data := memOf (ml ++ List.replicate 52 0 ++ planI 1 1 1 0 0 1) })], nextBid := 2, links := lk, groups := gs }
def ent (slot tier subst rep : Nat) (cls : Nat := 0) (off : Nat := 0) (len : Nat := 100) : Bytes := leBytes 32 (1 + slot * 2^8 + rep * 2^16 + tier * 2^64 + 1 * 2^72 + cls * 2^80 + subst * 2^96 + off * 2^128 + len * 2^192)
def dd (f : Dist → Dist := id) : Dist := f { gd with dirCount := 10, dir := [(0, ent 0 1 0xFFFF 0), (1, ent 1 3 0 0 1), (2, ent 0 1 0xFFFF 1)], segs := [(1, { seg1 with size := 8192 }), (2, { seg1 with tier := 4, bid := 2, size := 65536, dbase := 65536 })] }
def hwr : DirWrite := ⟨pd 1 0x540, 4, [ent 5 1 0xFFFF 2]⟩
def dw (first n : Nat) (es : Bytes) : Bytes := leBytes 8 (first + n * 2^16) ++ es
def bnd (fb : Nat := 0) (nblk : Nat := 2) : Bytes := leBytes 96 (3 + 2 * 2^8 + 2 * 2^16 + 2^24 + 2^25 + 1 * 2^32 + 1 * 2^40 + 8 * 2^48 + nblk * 2^64 + 4 * 2^80 + 0 * 2^96 + 3 * 2^112 + 2 * 2^128 + 1 * 2^144 + 2 * 2^152 + 64 * 2^160 + 1 * 2^192 + 1024 * 2^224 + 0 * 2^256 + 0 * 2^320 + (if fb = 0 then 0 else 5 * 2^416 + fb * 2^432))
def ds (gs : AMap Group) (f : Dist → Dist := id) (l : Links := lk) : State := { up with dists := [(1, dd f)], backs := [(1, { tier := 1, units := [0], size := 8192, data := [(3, 1)] }), (2, { tier := 4, units := [0], size := 65536 })], nextBid := 3, links := l, groups := gs }
def w16d_1 : State := ds [(3, gr 1 fun x => {x with bind := some (bnd), cur := some {gseq := 7, tOpen := 5}})]
def w16d_2 : State := ds [(3, gr 0)] fun x => {x with dirWrites := [hwr]}
def w16d_4 : FwReq := rq 1 1 (dw 4 1 (ent 4 1 0xFFFF 2))
def cu (f : Inst → Inst := id) : Option Inst := some (f {gseq := 7, tOpen := 5})
def gb (f : Group → Group := id) (b : Bytes := bnd) : Group := f (gr 2 fun x => {x with bind := some b, cur := cu})
def routes : ChunkVal := { data := (List.range 16).flatMap fun i => leBytes 4 (if i = 3 then 0xFF800000 else 0x3F800000 + i) ++ leBytes 4 (i % 4) }
def rowsV : ChunkVal := { data := (List.range 512).map fun i => BitVec.ofNat 8 i, poison := true }
def iB : Inst := { gseq := 7, tOpen := 5, puts := [(0, routes), (1, rowsV)] }
def tok (src t r slot entry : Nat) (dst : Nat := 0) : DTok := { src := src, tok := t, rank := r, gate := 5, slot := slot, entry := entry, dst := dst, row := List.replicate 64 (BitVec.ofNat 8 (t + 1)), poison := t == 2 }
def mh (chunk seq src epoch sig : Nat) (d : Bytes) (chk : Bool := true) : Msg := { gseq := seq, chunk := chunk, pass := 0, level := 0, relayed := false, epoch := epoch, sig := sig, crc := crc32c d, src := src, v := {data := d, lateReady := 4, earlyReady := 3, latePos := 1}, checked := chk }
def g1 := gb fun x => {x with cur := some iB}
def g2 := gb fun x => {x with disp := { sent := true, toks := [tok 0 3 0 0 0, tok 0 1 1 1 1, tok 0 2 0 0 0 1] }, inbox := [mh 0xFFC 7 1 255 9 (dispatchBody [tok 1 2 0 0 0]), mh 0xFFC 7 2 255 9 (dispatchBody [])] }
def g3 (warm pinned : Bool) (fb : Nat := 1) := gb (fun x => {x with disp := { slots := [(1, { cold := some 1, pinned := pinned, warm := warm })] } }) (bnd fb)
def g4 := gb fun x => {x with cur := cu fun i => { i with takeIssued := [0xFFE, 0xFFF] }, disp := { headers := true, counts := [1,2,3,4,5,6,7,8], slots := [(0, { written := true, inbox := [tok 1 2 0 0 0] }), (1, { written := true, state := 2 })] } }
def iCl : Inst := { gseq := 7, tOpen := 5, puts := (listed gb true).map fun c => (c, if c % 2 = 0 then routes else rowsV), taken := listed gb false, late := some (9, 0, 1), early := some 4 }
def gCl := gb fun x => { x with cur := some iCl, evt := true }
def rxB (m : Msg) (srcId : Nat) : List Flit := (flitsOf 3 0 srcId false false (msgHeader m ++ m.v.data)).map (·.f)
def lkB (m : Msg) : Links := { lk with ports := [(1, {state := 2, peer := ⟨1,1,true⟩, rx := [(3, rxB m 1)]}), (2, {state := 2, peer := ⟨2,1,true⟩})] }
def mD := mh 0xFFC 7 1 255 9 (dispatchBody [tok 1 2 0 1 1]) false
def mR := mh 0xFFD 8 1 255 9 (returnBody [(tok 0 2 0 1 1, List.replicate 16 3)]) false
def doneRec (f : Backing → Backing) : Backing := f { tier := 4, units := [0], size := 65536, data := (List.range 16).map fun i => (256 * i + 6, 1) }
def s4 := { ds [(3, g4)] with backs := [(2, doneRec id)] }
def w16d_8 : State := ds [(3, g3 false true 1)] fun x => {x with run := some { runN with tStart := 4999999 }}
def w16d_10 : DSlot := { cold := some 1, pinned := true }
def w16d_12 : Inst := {gseq := 7, tOpen := 5}
def w16d_13 : Seg := { seg1 with size := 8192 }

/-- What DirectoryCommandsComplete assumes, clause by clause. -/
theorem test_DirectoryCommandsComplete_met :
    (let c := w16d_4; let s := ds []; let p := c.payload; let d := cmdDist c; let es := dirEntries p; Sendable specDirWrite c s ∧ 8 ≤ p.length ∧
     p.length = 8 + 32 * fld p 19 16 ∧ zeroAt p [(63, 20)] = true ∧ (∀ (e : Bytes), e ∈ es → dirRsvdOk e = true) ∧ 1 ≤ fld p 19 16 ∧
     fld p 19 16 ≤ 14 ∧ dirWriteOk (getDist s d) (fld p 15 0) es = true ∧ (getDist s d).state ∈ [1, 2, 3, 5, 6] ∧ dispOpen s d = false ∧
     (getDist s d).dirWrites = []) ∧
    (let c := w16d_4; let s := w16d_1; let p := c.payload; let d := cmdDist c; let es := dirEntries p; Sendable specDirWrite c s ∧ 8 ≤ p.length ∧
     p.length = 8 + 32 * fld p 19 16 ∧ zeroAt p [(63, 20)] = true ∧ (∀ (e : Bytes), e ∈ es → dirRsvdOk e = true) ∧ 1 ≤ fld p 19 16 ∧
     fld p 19 16 ≤ 14 ∧ dirWriteOk (getDist s d) (fld p 15 0) es = true ∧ (getDist s d).state ∈ [1, 2, 3, 5, 6] ∧
     (dispOpen s d = true ∨ (getDist s d).dirWrites ≠ [])) ∧
    (let s := w16d_2; let w := hwr; dispOpen s 1 = false ∧ (getDist s 1).dirWrites = [w] ∧ (getFn s w.pend.req.fn).epoch = w.pend.epoch) ∧
    (let c := rq 1 1 (dw 0 2 []); let s := ds []; let p := c.payload; let d := cmdDist c; Sendable specDirRead c s ∧ p.length = 8 ∧
     zeroAt p [(63, 20)] = true ∧ 1 ≤ fld p 19 16 ∧ fld p 19 16 ≤ 14 ∧ fld p 15 0 + fld p 19 16 ≤ (getDist s d).dirCount ∧
     (getDist s d).state ∈ [1, 2, 3, 4, 5, 6]) ∧
    (let c := rq 1 1 (le 8 3); let s := ds [(3, gr 0)]; let p := c.payload; let d := cmdDist c; let g := cmdGroup c; let x := gr 0;
     Sendable specDispInfo c s ∧ groupForm p = true ∧ (getDist s d).state ∈ [1, 2, 3, 4, 5, 6] ∧ getGroup s g = some x ∧ x.dist = d ∧ x.state ≤ 3) ∧
    (let c := rq 1 1 bnd; let s := ds [(3, gr 0)]; let p := c.payload; let d := cmdDist c; let g := cmdGroup c; let x := gr 0;
     let sig := crc32c (p ++ leBytes 8 (BitVec.toNat x.tag)); Sendable specDispBind c s ∧ p.length = 96 ∧ zeroAt p bindRsvd = true ∧
     getGroup s g = some x ∧ x.dist = d ∧ bindOk (getDist s d) p (x.members.length) = true ∧ (getDist s d).state ∈ [1, 2, 3, 5, 6] ∧
     (anyFallback p = false ∨ (getDist s d).serving = true ∨ (getDist s d).approx = true) ∧ x.state ∈ [0, 1] ∧
     (∀ (m : Msg), m ∈ x.inbox → m.sig = sig)) := by
  refine ⟨?_, ?_, ?_, ?_, ?_, ?_⟩ <;> (and_intros <;> first | decide +kernel | (constructor <;> first | decide +kernel | exact ⟨_, rfl, rfl⟩) | (intro _ h; cases h; decide +kernel) | (intro _; rfl) | (intro _ _ h; cases h) | (intro _ h; cases h))

/-- What DispatchEventsComplete assumes, clause by clause. -/
theorem test_DispatchEventsComplete_met :
    (let x := g1; let b := bnd; let s := ds [(3, g1)]; let i := iB; let rows := rowsV; getGroup s 3 = some x ∧ x.bind = some b ∧ x.plan = none ∧
     (getDist s x.dist).state ≠ 5 ∧ x.cur = some i ∧ tfind i.puts (2 * x.disp.routed) = some routes ∧
     tfind i.puts (2 * x.disp.routed + 1) = some rows ∧ x.disp.routed + 1 < bNBlk b) ∧
    (let x := gCl; let b := bnd; let s := ds [(3, gCl)]; let i := iCl; getGroup s 3 = some x ∧ x.bind = some b ∧ x.plan = none ∧
     (getDist s x.dist).state ≠ 5 ∧ x.cur = some i ∧ closable x = true ∧ x.nxt = none ∧ x.reqs = [] ∧ x.inbox = []) ∧
    (let x := g2; let b := bnd; let s := ds [(3, g2)]; let i := w16d_12; let e := w16d_13; getGroup s 3 = some x ∧ x.bind = some b ∧ x.plan = none ∧
     (getDist s x.dist).state ≠ 5 ∧ x.cur = some i ∧ allMsgs x b = true ∧ List.find? (slotReady s x b) (List.range (bNLocal b)) = some 0 ∧
     groupSeg s x (bInboxSeg b) = some e ∧ e.tier ≠ 3 ∧ memWf (getBack s e.bid).data = true ∧ 0 < bNLocal b ∧ tfind i.puts (2048 + 0) = none) ∧
    (let x := g3 false true; let b := bnd 1; let s := ds [(3, g3 false true)]; let q := w16d_10; getGroup s 3 = some x ∧ x.bind = some b ∧
     x.plan = none ∧ (getDist s x.dist).state ≠ 5 ∧ tfind x.disp.slots 1 = some q ∧ q.cold = some 1 ∧ q.state = 0 ∧ q.warm = false ∧
     coldDeadline s x b q = some 5000 ∧ 5000 < time s) ∧
    (let x := g3 false true; let b := bnd 1; let s := w16d_8; let q := w16d_10; getGroup s 3 = some x ∧ x.bind = some b ∧ x.plan = none ∧
     (getDist s x.dist).state ≠ 5 ∧ tfind x.disp.slots 1 = some q ∧ q.cold = some 1 ∧ q.state = 0 ∧ q.warm = false ∧ q.pinned = true ∧
     coldRead s q = true ∧ (∀ (k : Nat), coldDeadline s x b q = some k → time s ≤ k)) ∧
    (let x := g4; let b := bnd; let s := s4; getGroup s 3 = some x ∧ x.bind = some b ∧ x.plan = none ∧ (getDist s x.dist).state ≠ 5 ∧
     takeWaits x 4094 = true ∧ allWritten x b = true) ∧
    (let x := g4; let b := bnd; let s := s4; getGroup s 3 = some x ∧ x.bind = some b ∧ x.plan = none ∧ (getDist s x.dist).state ≠ 5 ∧
     takeWaits x 4095 = true ∧ recordsDone s x b = true) ∧
    (let x := gb; let b := bnd; let s := ds [(3, gb)] id (lkB mD); let fs := rxB mD 1;
     let m := { msgOf 1 (List.any fs fun (f : Flit) ↦ f.poison) (msgBytes fs) (time s) with port := 1 }; getGroup s 3 = some x ∧ x.bind = some b ∧
     x.plan = none ∧ (getDist s x.dist).state ≠ 5 ∧ (takeMsg 3 1 s).map (·.1) = some fs ∧ posOf x (List.headD fs { typ := 1 }).src = some 1 ∧
     m.epoch = x.epoch ∧ x.state ∈ [1, 2] ∧ m.sig = x.sig ∧ (m.gseq = x.seq ∨ m.gseq = (x.seq + 1) % 2 ^ 64) ∧ fld (msgBytes fs) 75 64 = 4092) ∧
    (let x := gb; let b := bnd; let s := ds [(3, gb)] id (lkB mR); let fs := rxB mR 1;
     let m := { msgOf 1 (List.any fs fun (f : Flit) ↦ f.poison) (msgBytes fs) (time s) with port := 1 }; getGroup s 3 = some x ∧ x.bind = some b ∧
     x.plan = none ∧ (getDist s x.dist).state ≠ 5 ∧ (takeMsg 3 1 s).map (·.1) = some fs ∧ posOf x (List.headD fs { typ := 1 }).src = some 1 ∧
     m.epoch = x.epoch ∧ x.state ∈ [1, 2] ∧ m.sig = x.sig ∧ (m.gseq = x.seq ∨ m.gseq = (x.seq + 1) % 2 ^ 64) ∧ fld (msgBytes fs) 75 64 = 4093) := by
  refine ⟨?_, ?_, ?_, ?_, ?_, ?_, ?_, ?_, ?_⟩ <;> (and_intros <;> first | decide +kernel | (constructor <;> first | decide +kernel | exact ⟨_, rfl, rfl⟩) | (intro _ h; cases h; decide +kernel) | (intro _; rfl) | (intro _ _ h; cases h) | (intro _ h; cases h))

end P16d

namespace P17
def ml : Bytes := le 4 0 ++ le 4 1 ++ le 4 2
def lk : Links := { cfg := { deviceId := 0, routes := [(1, 2), (2, 4)], peers := [(1, ⟨1, 1, true⟩), (2, ⟨2, 1, true⟩)] }, ports := [(1, {state := 2, peer := ⟨1,1,true⟩}), (2, {state := 2, peer := ⟨2,1,true⟩})] }
def gr (st : Nat) (f : Group → Group := id) : Group := f { dist := 1, state := st, members := [⟨0, none⟩, ⟨1, none⟩, ⟨2, none⟩], myPos := 0, stageKib := 256, links := 6, epoch := 255, seq := 7, sig := 9, tag := 0x55 }
def jb (f : Job → Job := id) : Job := f { compute := 1, update := 2, early := true, hold := false, evt := true, skip := false, replayMax := 2, infoSeg := 1, infoOff := 64, members := [⟨0, none⟩, ⟨1, none⟩, ⟨2, none⟩], memberBytes := ml, layerBytes := [], myPos := 0, lossPos := 0, feedSeg := 1, feedOff := 512, bufSeg := 2, bufOff := 128, recBytes := 64, recs := 1, feedRecs := 4, evalMs := 1, protect := 0, sig := 77 }
def segB : Seg := { seg1 with tier := 2, dbase := 8192, bid := 2 }
def td (g : Gate) (f : Dist → Dist := id) : Dist := f { state := 3, q := 1, quarters := [0], gen := 3, channels := [3], segs := [(1, seg1), (2, segB)], progs := [(1, prog1), (2, prog1)], gate := g }
def ts (g : Gate) (f : Dist → Dist := id) (grp : AMap Group := []) : State := { up with dists := [(1, td g f)], backs := [(1, { tier := 1, units := [0], size := 4096, data := [(4, 1), (8, 2), (67, 0x20), (69, 1), (512, 9)] }), (2, { tier := 2, units := [0], size := 4096, data := [(3,1)] })], nextBid := 3, links := lk, groups := grp }
def srun (cnt done : Nat) : StepRun := ⟨pd 1 0x601, cnt, done⟩
def cfg (ev : Nat := 5) : Bytes := leBytes 136 (1 + 2 * 2^16 + 2^32 + 2^34 + 0xFF * 2^40 + 7 * 2^64 + 9 * 2^128 + 1 * 2^192 + 1 * 2^200 + 1 * 2^208 + 1 * 2^216 + 2 * 2^224 + 256 * 2^256 + 0 * 2^320 + 3 * 2^384 + 0 * 2^400 + 0 * 2^416 + 1 * 2^432 + 64 * 2^448 + 512 * 2^512 + 64 * 2^576 + 1 * 2^608 + 4 * 2^640 + 0 * 2^704 + ev * 2^768 + 2 * 2^832)
def gt (c : Nat) (f : Gate → Gate := id) : Gate := f { code := c, job := some jb, step := 7, cursor := 2^64 - 1, replay := 1, run := some (srun 5 2), record := { step := 7, loss := 3, verdict := 1 } }
def mg (f : GateMsg → GateMsg := id) : GateMsg := f { round := .contribution, sig := 77, members := [0, 1, 2], loss := 5 }
def st2 (x : Dist) : Dist := { x with state := 2 }
def pa (x : Dist) : Dist := { x with state := 5 }
def w17_1 : State := ts (gt 2 fun g => {g with job := some (jb fun j => {j with hold := true}), held := some mg}) pa
def w17_2 : State := ts (gt 0 fun g => {g with run := none}) st2
def w17_4 : State := ts (gt 1 fun g => {g with job := some (jb fun j => {j with hold := true})})
def w17_5 : State := ts (gt 2 fun g => {g with job := some (jb fun j => {j with hold := true}), held := some mg})
def w17_6 : Job := jb fun j => {j with hold := true}
def grp := [(3, gr 1), (4, gr 2 fun x => {x with cur := some {gseq := 7, tOpen := 5}, dist := 1})]
def w17_7 : Job := jb fun j => {j with myPos := 1}
def w17_11 : GateMsg := mg fun m => {m with nf := 3, poison := 1}
def w17_13 : GateMsg := mg fun m => {m with round := .commit}
def w17_14 : GateMsg := mg fun m => {m with round := .commit, clean := false}

/-- What StepCommandsComplete assumes, clause by clause. -/
theorem test_StepCommandsComplete_met :
    (let c := rq 1 1 cfg; let s := w17_2; let p := c.payload; let d := cmdDist c; let x := getDist s d; let g := x.gate;
     let ms := tableBytes s x (fld p 207 200) (fld p 383 320) (4 * min 4096 (fld p 396 384));
     let ls := tableBytes s x (fld p 215 208) (fld p 511 448) (32 * min 4096 (fld p 447 432)); x.serving = false ∧ Sendable specStepConfig c s ∧
     p.length = 136 ∧ zeroAt p stepRsvd = true ∧ memberListOk ms = true ∧
     (∀ (r : List Byte), r ∈ chunksOf 32 4097 ls → zeroAt r [(31, 30), (63, 48), (255, 192)] = true) ∧ jobOk s x p (jobOf p ms ls) = true ∧
     x.state = 2 ∧ g.code ∈ [0, 5] ∧ vecFree (unbind s d vbStep) d (fld p 47 40) = true) ∧
    (let c := rq 1 1 (le 8 3); let s := w17_2; let p := c.payload; let d := cmdDist c; let x := getDist s d; let g := x.gate; x.serving = false ∧
     Sendable specStepRun c s ∧ p.length = 8 ∧ zeroAt p [(63, 32)] = true ∧ x.state = 2 ∧ jobReady x = true ∧ g.code = 0 ∧ x.snap.code ≠ 5 ∧
     (retainBlocks s).fst = false ∧ s.pwr.state ≠ 2) ∧
    (let c := rq 1 1; let s := ts (gt 4) pa; let p := c.payload; let d := cmdDist c; let x := getDist s d; let g := x.gate; x.serving = false ∧
     Sendable specStepStop c s ∧ p = [] ∧ x.state ∈ [1, 2, 3, 4, 5, 6] ∧ (g.code ∈ [1, 2, 3] ∨ g.code = 4 ∧ x.state = 5)) ∧
    (let c := rq 1 1; let s := ts (gt 4) pa; let p := c.payload; let d := cmdDist c; let x := getDist s d; x.serving = false ∧
     Sendable specStepInfo c s ∧ p = [] ∧ x.state ∈ [1, 2, 3, 4, 5, 6]) ∧
    (let c := rq 1 1; let s := ts (gt 4); let p := c.payload; let d := cmdDist c; let x := getDist s d; let g := x.gate; let r := srun 5 2;
     x.serving = false ∧ Sendable specStepStop c s ∧ p = [] ∧ x.state ∈ [1, 2, 3, 4, 5, 6] ∧ g.code = 4 ∧ x.state ≠ 5 ∧ g.run = some r ∧
     (getFn s r.pend.req.fn).epoch = r.pend.epoch) ∧
    (let c := rq 1 1 (le 8 1); let s := ts (gt 4) pa; let p := c.payload; let d := cmdDist c; let x := getDist s d; let g := x.gate; let j := jb;
     let r := srun 5 2; x.serving = false ∧ g.job = some j ∧ j.myPos = 0 ∧ Sendable specStepResume c s ∧ p.length = 8 ∧ zeroAt p [(63, 2)] = true ∧
     x.state ∈ [1, 2, 3, 4, 5, 6] ∧ g.code = 4 ∧ fld p 1 0 ≠ 3 ∧ g.run = some r ∧ g.stop = false ∧ g.ends = false ∧
     (r.count = 0 ∨ r.done + 1 < r.count) ∧ x.state = 5) ∧
    (let c := rq 1 1 (le 8 1); let s := w17_1; let p := c.payload; let d := cmdDist c; let x := getDist s d; let g := x.gate; let j := w17_6;
     x.serving = false ∧ g.job = some j ∧ j.myPos = 0 ∧ j.hold = true ∧ Sendable specStepCommit c s ∧ p.length = 8 ∧ zeroAt p [(63, 1)] = true ∧
     x.state ∈ [1, 2, 3, 4, 5, 6] ∧ g.code ∈ [1, 2] ∧ Option.isSome g.held = true ∧ x.state = 5) ∧
    (let c := rq 1 1 (le 8 1); let s := ts (gt 4); let p := c.payload; let d := cmdDist c; let x := getDist s d; let g := x.gate; let j := jb;
     let r := srun 5 2; x.serving = false ∧ g.job = some j ∧ j.myPos = 0 ∧ Sendable specStepResume c s ∧ p.length = 8 ∧ zeroAt p [(63, 2)] = true ∧
     x.state ∈ [1, 2, 3, 4, 5, 6] ∧ g.code = 4 ∧ fld p 1 0 ≠ 3 ∧ g.run = some r ∧ g.stop = false ∧ g.ends = false ∧
     (r.count = 0 ∨ r.done + 1 < r.count) ∧ x.state ≠ 5 ∧ fld p 1 0 = 1) ∧
    (let c := rq 1 1 (le 8 1); let s := w17_4; let p := c.payload; let d := cmdDist c; let x := getDist s d; let g := x.gate; let j := w17_6;
     x.serving = false ∧ g.job = some j ∧ j.myPos = 0 ∧ j.hold = true ∧ Sendable specStepCommit c s ∧ p.length = 8 ∧ zeroAt p [(63, 1)] = true ∧
     x.state ∈ [1, 2, 3, 4, 5, 6] ∧ g.code ∈ [1, 2] ∧ g.held = none) ∧
    (let c := rq 1 1 (le 8 1); let s := w17_5; let p := c.payload; let d := cmdDist c; let x := getDist s d; let g := x.gate; let j := w17_6;
     let v := mg; x.serving = false ∧ g.job = some j ∧ j.myPos = 0 ∧ j.hold = true ∧ Sendable specStepCommit c s ∧ p.length = 8 ∧
     zeroAt p [(63, 1)] = true ∧ x.state ∈ [1, 2, 3, 4, 5, 6] ∧ g.code ∈ [1, 2] ∧ g.held = some v ∧ x.state ≠ 5) ∧
    (let c := rq 1 1 (le 8 0); let s := ts (gt 4); let p := c.payload; let d := cmdDist c; let x := getDist s d; let g := x.gate; let j := jb;
     let r := srun 5 2; x.serving = false ∧ g.job = some j ∧ j.myPos = 0 ∧ Sendable specStepResume c s ∧ p.length = 8 ∧ zeroAt p [(63, 2)] = true ∧
     x.state ∈ [1, 2, 3, 4, 5, 6] ∧ g.code = 4 ∧ fld p 1 0 ≠ 3 ∧ g.run = some r ∧ g.stop = false ∧ g.ends = false ∧
     (r.count = 0 ∨ r.done + 1 < r.count) ∧ x.state ≠ 5 ∧ fld p 1 0 = 0) ∧
    (let c := rq 1 1 (le 8 2); let s := ts (gt 4); let p := c.payload; let d := cmdDist c; let x := getDist s d; let g := x.gate; let j := jb;
     let r := srun 5 2; x.serving = false ∧ g.job = some j ∧ j.myPos = 0 ∧ Sendable specStepResume c s ∧ p.length = 8 ∧ zeroAt p [(63, 2)] = true ∧
     x.state ∈ [1, 2, 3, 4, 5, 6] ∧ g.code = 4 ∧ fld p 1 0 ≠ 3 ∧ g.run = some r ∧ g.stop = false ∧ g.ends = false ∧
     (r.count = 0 ∨ r.done + 1 < r.count) ∧ x.state ≠ 5 ∧ fld p 1 0 = 2) ∧
    (let c := rq 1 1 (le 8 3 ++ le 8 4); let s := w17_2; let p := c.payload; let d := cmdDist c; let x := getDist s d; let g := x.gate;
     x.serving = false ∧ Sendable specStepSet c s ∧ p.length = 16 ∧ x.state ∈ [2, 6] ∧ g.code ∈ [0, 5]) := by
  refine ⟨?_, ?_, ?_, ?_, ?_, ?_, ?_, ?_, ?_, ?_, ?_, ?_, ?_⟩ <;> (and_intros <;> first | decide +kernel | (constructor <;> first | decide +kernel | exact ⟨_, rfl, rfl⟩) | (intro _ h; cases h; decide +kernel) | (intro _; rfl) | (intro _ _ h; cases h) | (intro _ h; cases h))

/-- What StepAttemptsRun assumes, clause by clause. -/
theorem test_StepAttemptsRun_met :
    (let j := jb; let s := ts (gt 0 fun g => {g with opening := true}); let x := getDist s 1; let g := x.gate; g.job = some j ∧ g.opening = true ∧
     Option.isSome g.run = true ∧ g.feeding = none ∧ x.state = 3 ∧ x.pause = none ∧
     (∀ (e : Seg), tfind x.segs j.infoSeg = some e → e.tier ≠ 3 ∧ memWf (getBack s e.bid).data = true)) ∧
    (let j := jb; let s := ts (gt 0 fun g => {g with opening := true}); let x := getDist s 1; let g := x.gate; g.job = some j ∧ 0 ≠ j.sig ∧
     (j.early = false ∨ g.code ≠ 1)) ∧
    (let j := jb; let s := ts (gt 1 fun g => {g with feeding := some (3, 8)}); let x := getDist s 1; let g := x.gate; let src := seg1;
     let dst := segB; g.job = some j ∧ g.feeding = some (3, 8) ∧ feedReady s 1 j 3 = true ∧ tfind x.segs j.feedSeg = some src ∧
     tfind x.segs j.bufSeg = some dst ∧ dst.tier ≠ 3 ∧ memWf (getBack s dst.bid).data = true ∧ j.recs = 1) ∧
    (let j := jb; let s := ts (gt 1 fun g => {g with feeding := some (3, 8)}); let x := getDist s 1; let g := x.gate; let sh := gateShape s j.members;
     g.job = some j ∧ g.code = 1 ∧ g.early = none ∧ x.state ≠ 5 ∧ runOver x = true ∧ groupsFinal s 1 = true ∧ g.acc = none ∧
     (∃ (q : Nat), q ∈ ringNeeds sh.fst sh.snd j.myPos ∧ q ≠ j.myPos)) ∧
    (let j := jb; let s := ts (gt 1 fun g => {g with feeding := some (3, 8)}); let x := getDist s 1; let g := x.gate; g.job = some j ∧
     (g.code = 1 ∨ g.code = 2) ∧ g.early = none) ∧
    (let j := jb; let s := ts (gt 2); let x := getDist s 1; let g := x.gate; let m := mg; g.job = some j ∧ x.state ≠ 5 ∧
     m.round = GateRound.contribution ∧ m.sig = j.sig ∧ isFull j m = true ∧ g.code = 2 ∧ msgCauses m = 0 ∧ m.held = false) ∧
    (let j := jb; let s := ts (gt 2); let x := getDist s 1; let g := x.gate; let m := w17_11; g.job = some j ∧ x.state ≠ 5 ∧
     m.round = GateRound.contribution ∧ m.sig = j.sig ∧ isFull j m = true ∧ g.code = 2 ∧ msgCauses m ≠ 0) ∧
    (let j := jb; let s := ts (gt 2); let x := getDist s 1; let g := x.gate; g.job = some j ∧ g.code = 2 ∧ g.held = none ∧ g.early = none ∧
     x.state ≠ 5 ∧ g.evalFrom + j.evalMs * 1000000 ≤ time s) ∧
    (let j := jb; let s := ts (gt 3); let x := getDist s 1; let g := x.gate; let m := w17_13; g.job = some j ∧ x.state ≠ 5 ∧
     m.round = GateRound.commit ∧ m.sig = j.sig ∧ isFull j m = true ∧ g.code = 3 ∧ m.clean = true) ∧
    (let j := jb; let s := ts (gt 3); let x := getDist s 1; let g := x.gate; let m := w17_14; g.job = some j ∧ x.state ≠ 5 ∧
     m.round = GateRound.commit ∧ m.sig = j.sig ∧ isFull j m = true ∧ g.code = 3 ∧ m.clean = false) ∧
    (let j := jb; let s := ts (gt 3); let x := getDist s 1; let g := x.gate; let sh := gateShape s j.members; g.job = some j ∧ g.code = 3 ∧
     g.mine = false ∧ g.updWait = false ∧ x.state ≠ 5 ∧ runOver x = true ∧ g.accC = none ∧
     (∃ (q : Nat), q ∈ ringNeeds sh.fst sh.snd j.myPos ∧ q ≠ j.myPos)) ∧
    (let j := jb; let s := ts (gt 1 fun g => {g with early := some 2}); let x := getDist s 1; let g := x.gate; g.job = some j ∧
     (g.code = 1 ∨ g.code = 2) ∧ g.early = some 2) ∧
    (let j := jb; let s := ts (gt 1 fun g => {g with early := some 2}); let x := getDist s 1; let g := x.gate; g.job = some j ∧
     (g.code = 1 ∨ g.code = 2) ∧ g.early = some 2 ∧ x.run = none ∧ List.Nodup (List.map (fun (x : Nat × Group) ↦ x.fst) s.groups)) ∧
    (let j := jb; let s := ts (gt 0 fun g => {g with opening := true}) (fun x => { x with state := 5 }); let x := getDist s 1; let g := x.gate;
     g.job = some j ∧ x.state = 5) ∧
    (let j := w17_7; let s := ts (gt 1 fun g => {g with feeding := some (3, 8), job := some (jb fun j => {j with myPos := 1})}); let x := getDist s 1;
     let g := x.gate; let sh := gateShape s j.members; g.job = some j ∧ g.code = 1 ∧ g.early = none ∧ x.state ≠ 5 ∧ runOver x = true ∧
     groupsFinal s 1 = true ∧ g.acc = none ∧ (∀ (i : Nat), i ∈ ringNeeds sh.fst sh.snd j.myPos → i = j.myPos) ∧
     ringNext sh.fst sh.snd j.myPos = some 2) := by
  refine ⟨?_, ?_, ?_, ?_, ?_, ?_, ?_, ?_, ?_, ?_, ?_, ?_, ?_, ?_, ?_⟩ <;> (and_intros <;> first | decide +kernel | (constructor <;> first | decide +kernel | exact ⟨_, rfl, rfl⟩) | (intro _ h; cases h; decide +kernel) | (intro _; rfl) | (intro _ _ h; cases h) | (intro _ h; cases h))

end P17

namespace P18
def segP : Seg := { seg1 with size := 65536 }
def segH : Seg := { seg1 with size := 65536, dbase := 65536, bid := 2 }
def pool (f : Pool → Pool := id) : Pool := f { seg := 1, histSeg := 2, histOff := 64, batchSeg := 2, batchOff := 32768, noDrop := false, layers := 2, window := 4, slots := 4, maxPages := 4, pages := 8, columns := 4, bid := 9 }
def sd (f : Dist → Dist := id) : Dist := f { state := 2, serving := true, q := 1, quarters := [0], gen := 3, segs := [(1, segP), (2, segH)], progs := [(1, prog1)] }
def ss (f : Dist → Dist := id) : State := { up with dists := [(1, sd f)], backs := [(1, { tier := 1, units := [0], size := 65536, data := [(3, 5), (100, 7)] }), (2, { tier := 1, units := [0], size := 65536, data := [(32768 + 24 + 3, 9)] })], nextBid := 3 }
def pw (c : Nat) : Pend := pd 1 c
def sq (st : Nat) (f : Seq → Seq := id) : Seq := f { state := st, tag := 0xABC, prio := 3, gen := 65535, len := 20, hist := 21, goal := 5, table := [(0, ⟨0, false, 65535⟩), (1, ⟨2, false, 65535⟩)], spare := some 2, pend := some (pw 0x702) }
def walkQ : AMap Core := [(0, { issued := [{ q := qe (mk [(0, 8, 8), (128, 32, 1)]), work := .fin, begun := true }] })]
def lp (f : Loop → Loop := id) : Loop := f { pend := pw 0x710, handle := 1, ringBase := 8192, consAddr := 64, log2n := 8, modUs := 1, vec := 5, produce := 255, cons := 3 }
def wp (q : Pool → Pool) (f : Dist → Dist := id) : State := ss fun x => f { x with pool := some (pool q) }
def pc : Bytes := leBytes 48 (1 + 2 * 2^8 + 2 * 2^16 + 2 * 2^32 + 4 * 2^48 + 4 * 2^64 + 4 * 2^80 + 64 * 2^128 + 32768 * 2^192)
def w18_1 : State := wp fun p => {p with seqs := [(1, sq 1)]}
def w18_2 : State := wp fun p => {p with seqs := [(1, sq 3), (0, sq 2)], used := [0, 1, 2]}
def w18_3 : State := wp (fun p => {p with seqs := [(1, sq 4 fun y => {y with inStep := true})], used := [0, 1, 2]})
def w18_4 : State := wp (fun p => {p with seqs := [(1, sq 3)]}) (fun x => {x with cores := walkQ})
def w18_5 : State := wp (fun p => {p with seqs := [(1, sq 3 fun y => {y with edits := [(3, pw 0x704)]})]})
def w18_6 : State := wp (fun p => {p with seqs := [(1, sq 3 fun y => {y with edits := [(3, pw 0x704)]})]}) (fun x => {x with cores := walkQ})
def w18_7 : State := wp (fun p => {p with seqs := [(1, sq 3)]}) (fun x => {x with state := 3, loop := some (lp fun l => {l with phase := 3})})
def w18_8 : State := wp id (fun x => {x with state := 3, loop := some lp})
def sList : List State := [ss, wp id, w18_1, w18_2, w18_3, w18_4, w18_5, w18_6, w18_7, w18_8]
def w18_9 : FwReq := rq 1 1 (leBytes 32 (0xFFF + 5 * 2^64 + 1 * 2^72 + 3 * 2^96 + 2 * 2^128))
def w18_10 : FwReq := rq 1 1 (leBytes 8 (1 + 17 * 2^32))
def w18_13 : FwReq := rq 1 1 (leBytes 32 (1 + 0xFF * 2^16 + 8 * 2^24 + 5 * 2^32 + 4096 * 2^64 + 64 * 2^128))
def wl18_14 : List Pool := sList.filterMap fun s => (getDist s 1).pool
def w18_15 : Loop := lp fun l => {l with phase := 3}
def w18_16 : (Pool → Pool) := fun p => {p with seqs := [(1, sq 6)], used := [0, 1, 2, 3], back := [3]}
def w18_17 : (Pool → Pool) := fun p => {p with seqs := [(1, sq 1)]}
def w18_18 : (Pool → Pool) := fun p => {p with seqs := [(1, sq 1)], used := [0,1,3]}
def w18_19 : (Pool → Pool) := fun p => {p with seqs := [(1, sq 1 fun y => {y with admitting := true, deferred := true})], used := [0,1,3]}
def w18_20 : (Pool → Pool) := fun p => {p with seqs := [(1, sq 3 fun y => {y with len := 32})], used := [0, 1, 2]}
def w18_21 : (Pool → Pool) := fun p => {p with noDrop := true, seqs := [(1, sq 3 fun y => {y with len := 32})], used := [0, 1, 2, 3]}
def w18_22 : (Pool → Pool) := fun p => {p with noDrop := true, seqs := [(1, sq 3 fun y => {y with len := 32, resUsed := true})], used := [0, 1, 2, 3]}
def w18_23 : (Pool → Pool) := fun p => {p with seqs := [(1, sq 3 fun y => {y with len := 32, resUsed := true})], used := [0, 1, 2, 3]}
def w18_24 : (Pool → Pool) := fun p => {p with seqs := [(1, sq 3), (0, sq 2 fun y => {y with goal := 100}), (2, sq 2 fun y => {y with goal := 18}), (3, sq 5)], used := [0, 1, 2]}
def boundPools : List (Pool → Pool) := [w18_16, w18_17, w18_18, w18_19, w18_20, w18_21, w18_22, w18_23, w18_24]
def b0 := boundPools.map fun q => wp q fun x => {x with state := 3, loop := some lp}
def l2 := lp fun l => {l with phase := 2}
def l3 := lp fun l => {l with phase := 3}
def b2 := [wp (fun p => {p with seqs := [(1, sq 3 fun y => {y with inStep := true, new := 1})]}) fun x => {x with state := 3, loop := some l2}]
def b3 := ([sq 3 fun y => {y with inStep := true, new := 1}, sq 3 fun y => {y with inStep := true, new := 1, len := 63}, sq 3 fun y => {y with inStep := true, new := 1, void := true}]).map fun y => wp (fun p => {p with seqs := [(1, y)]}) fun x => {x with state := 3, loop := some l3}
def all := b0 ++ b2 ++ b3
def wl18_25 : List Pool := all.filterMap fun s => (getDist s 1).pool
def wl18_26 : List Seq := all.flatMap fun s => (((getDist s 1).pool.map (·.seqs)).getD []).map (·.2)

/-- What ServingCommandsComplete assumes, clause by clause. -/
theorem test_ServingCommandsComplete_met :
    (let c := rq 1 1 pc; let s := ss; let p := c.payload; let d := cmdDist c; let x := getDist s d; let e := segP; x.serving = true ∧
     Sendable specServePoolCreate c s ∧ p.length = 48 ∧ zeroAt p [(31, 25), (47, 41), (79, 77), (127, 97), (383, 256)] = true ∧
     poolArgsOk x p = true ∧ x.state ∈ [1, 2] ∧ x.pool = none ∧ x.loop = none ∧ fits s 1 (List.range 8) (tableSize p) = true ∧
     tfind x.segs (fld p 7 0) = some e) ∧
    (let c := rq 1 1 pc; let s := w18_5; let d := cmdDist c; let x := getDist s d; let q := wl18_14[5]'(by decide); let w := pw 1796;
     x.serving = true ∧ x.pool = some q ∧ (getSeq q 1).edits = [(3, w)] ∧ 3 < (getSeq q 1).len ∧ (getFn s w.req.fn).epoch = w.epoch ∧
     walking x 1 = false ∧ inBoundary x = false) ∧
    (let c := rq 1 1 pc; let s := w18_6; let d := cmdDist c; let x := getDist s d; let q := wl18_14[5]'(by decide); let w := pw 1796;
     x.serving = true ∧ x.pool = some q ∧ (getSeq q 1).edits = [(3, w)] ∧ 3 < (getSeq q 1).len ∧ (getFn s w.req.fn).epoch = w.epoch ∧
     (walking x 1 = true ∨ inBoundary x = true)) ∧
    (let c := rq 1 1; let s := wp id; let p := c.payload; let d := cmdDist c; let x := getDist s d; let q := pool; x.serving = true ∧
     x.pool = some q ∧ (∀ (e : Nat × Machine.Seq), e ∈ q.seqs → e.snd.state = 0) ∧ Sendable specServePoolDestroy c s ∧ p = [] ∧ x.state ∈ [1, 2, 6] ∧
     x.loop = none ∧ x.run = none) ∧
    (let c := rq 1 1; let s := wp id; let p := c.payload; let d := cmdDist c; let x := getDist s d; let q := pool; x.serving = true ∧
     x.pool = some q ∧ x.state ∈ [1, 2, 3, 4, 5, 6] ∧ Sendable specServePoolInfo c s ∧ p = []) ∧
    (let c := rq 1 1; let s := w18_7; let p := c.payload; let d := cmdDist c; let x := getDist s d; let l := w18_15; x.serving = true ∧
     Option.isSome x.pool = true ∧ x.loop = some l ∧ Sendable specServeStop c s ∧ p = [] ∧ (l.phase = 3 ∨ l.phase = 0 ∧ l.part ≠ 0) ∧
     x.state ∈ [3, 4, 5]) ∧
    (let c := rq 1 1; let s := w18_8; let p := c.payload; let d := cmdDist c; let x := getDist s d; let l := lp; x.serving = true ∧
     Option.isSome x.pool = true ∧ x.loop = some l ∧ Sendable specServeStop c s ∧ p = [] ∧ l.phase ≠ 3 ∧ l.part = 0 ∧ x.state = 3 ∧ x.pause = none ∧
     (getFn s l.pend.req.fn).epoch = l.pend.epoch) ∧
    (let c := w18_9; let s := wp id; let p := c.payload; let d := cmdDist c; let x := getDist s d; let q := pool; let a := segP; let b := segH;
     x.serving = true ∧ x.pool = some q ∧ freeSlot x = some 0 ∧ tfind x.segs (fld p 79 72) = some a ∧ tfind x.segs q.histSeg = some b ∧ b.tier ≠ 3 ∧
     memWf (getBack s b.bid).data = true ∧ Sendable specServeJoin c s ∧ p.length = 32 ∧ zeroAt p [(71, 69), (95, 80), (255, 192)] = true ∧
     joinOk x p = true ∧ x.state ∈ [1, 2, 3, 4, 5, 6]) ∧
    (let c := rq 1 1 (le 8 1); let s := wp id; let p := c.payload; let d := cmdDist c; let x := getDist s d; let q := pool; x.serving = true ∧
     x.pool = some q ∧ x.state ∈ [1, 2, 3, 4, 5, 6] ∧ Sendable specServeSeqInfo c s ∧ p.length = 8 ∧ zeroAt p [(63, 12)] = true ∧ fld p 11 0 < q.slots) ∧
    (let c := rq 1 1 (le 8 1); let s := w18_1; let p := c.payload; let d := cmdDist c; let x := getDist s d; let q := wl18_14[1]'(by decide);
     let w := pw 1794; x.serving = true ∧ x.pool = some q ∧ fld p 11 0 < q.slots ∧ Sendable specServeLeave c s ∧ p.length = 8 ∧
     zeroAt p [(63, 12)] = true ∧ x.state ∈ [1, 2, 3, 4, 5, 6] ∧ (getSeq q (fld p 11 0)).state = 1 ∧ (getSeq q (fld p 11 0)).pend = some w ∧
     (getFn s w.req.fn).epoch = w.epoch) ∧
    (let c := rq 1 1 (le 8 1); let s := w18_2; let p := c.payload; let d := cmdDist c; let x := getDist s d; let q := wl18_14[2]'(by decide);
     x.serving = true ∧ x.pool = some q ∧ fld p 11 0 < q.slots ∧ Sendable specServeLeave c s ∧ p.length = 8 ∧ zeroAt p [(63, 12)] = true ∧
     x.state ∈ [1, 2, 3, 4, 5, 6] ∧ (getSeq q (fld p 11 0)).state ∈ [2, 3, 4, 5]) ∧
    (let c := w18_10; let s := w18_2; let p := c.payload; let d := cmdDist c; let x := getDist s d; let q := wl18_14[2]'(by decide);
     x.serving = true ∧ x.pool = some q ∧ fld p 11 0 < q.slots ∧ Sendable specServeTruncate c s ∧ p.length = 8 ∧ zeroAt p [(31, 12)] = true ∧
     0 < fld p 63 32 ∧ fld p 63 32 < (getSeq q (fld p 11 0)).len ∧ x.state ∈ [1, 2, 3, 4, 5, 6] ∧ (getSeq q (fld p 11 0)).state ∈ [3, 4] ∧
     walking x (fld p 11 0) = false ∧ inBoundary x = false ∧ (getSeq q (fld p 11 0)).edits = []) ∧
    (let c := w18_10; let s := w18_4; let p := c.payload; let d := cmdDist c; let x := getDist s d; let q := wl18_14[4]'(by decide);
     x.serving = true ∧ x.pool = some q ∧ fld p 11 0 < q.slots ∧ Sendable specServeTruncate c s ∧ p.length = 8 ∧ zeroAt p [(31, 12)] = true ∧
     0 < fld p 63 32 ∧ fld p 63 32 < (getSeq q (fld p 11 0)).len ∧ x.state ∈ [1, 2, 3, 4, 5, 6] ∧ (getSeq q (fld p 11 0)).state ∈ [3, 4] ∧
     (walking x (fld p 11 0) = true ∨ inBoundary x = true)) ∧
    (let c := w18_13; let s := wp id; let p := c.payload; let d := cmdDist c; let x := getDist s d; x.serving = true ∧ Option.isSome x.pool = true ∧
     Sendable specServeRun c s ∧ p.length = 32 ∧ zeroAt p [(63, 48), (255, 192)] = true ∧ serveArgsOk x p = true ∧ x.state = 2 ∧ x.loop = none ∧
     (retainBlocks s).fst = false ∧ s.pwr.state ≠ 2 ∧ vecFree s d (fld p 23 16) = true) := by
  refine ⟨?_, ?_, ?_, ?_, ?_, ?_, ?_, ?_, ?_, ?_, ?_, ?_, ?_, ?_⟩ <;> (and_intros <;> first | decide +kernel | (constructor <;> first | decide +kernel | exact ⟨_, rfl, rfl⟩) | (intro _ h; cases h; decide +kernel) | (intro _; rfl) | (intro _ _ h; cases h) | (intro _ h; cases h))

/-- What ServingStepsRun assumes, clause by clause. -/
theorem test_ServingStepsRun_met :
    (let l := lp; let q := pool w18_16; let s := all[0]'(by decide); let x := getDist s 1; x.loop = some l ∧ x.pool = some q ∧ x.state = 3 ∧
     x.run = none ∧ x.pause = none ∧ l.stop = false ∧ l.phase = 0 ∧ 1 ≤ 1 ∧ 1 ≤ 3 ∧ l.part ≤ 1) ∧
    (let l := lp; let q := pool w18_16; let s := all[0]'(by decide); let x := getDist s 1; x.loop = some l ∧ x.pool = some q ∧ x.state = 3 ∧
     x.run = none ∧ x.pause = none ∧ l.stop = false ∧ l.phase = 0 ∧ l.part = 0) ∧
    (let l := lp; let q := pool w18_16; let s := all[0]'(by decide); let x := getDist s 1; let y := sq 6; x.loop = some l ∧ x.pool = some q ∧
     x.state = 3 ∧ x.run = none ∧ x.pause = none ∧ l.stop = false ∧ l.phase = 0 ∧ l.part = 0 ∧ q.seqs = [(1, y)] ∧ y.edits = [] ∧ y.state = 6) ∧
    (let l := lp; let q := pool w18_17; let s := all[1]'(by decide); let x := getDist s 1; let y := sq 1; let w := pw 1794; x.loop = some l ∧
     x.pool = some q ∧ x.state = 3 ∧ x.run = none ∧ x.pause = none ∧ l.stop = false ∧ l.phase = 0 ∧ l.part = 0 ∧ q.seqs = [(1, y)] ∧ y.edits = [] ∧
     y.state = 1 ∧ y.ends = 0 ∧ q.back = [] ∧ y.pend = some w ∧ (getFn s w.req.fn).epoch = w.epoch ∧ joinCols y ≤ freeCols q) ∧
    (let l := lp; let q := pool w18_18; let s := all[2]'(by decide); let x := getDist s 1; let y := sq 1; let w := pw 1794; x.loop = some l ∧
     x.pool = some q ∧ x.state = 3 ∧ x.run = none ∧ x.pause = none ∧ l.stop = false ∧ l.phase = 0 ∧ l.part = 0 ∧ q.seqs = [(1, y)] ∧ y.edits = [] ∧
     y.state = 1 ∧ y.ends = 0 ∧ q.back = [] ∧ y.pend = some w ∧ (getFn s w.req.fn).epoch = w.epoch ∧ freeCols q < joinCols y) ∧
    (let l := lp; let q := pool w18_20; let s := all[4]'(by decide); let x := getDist s 1; let y := wl18_26[4]'(by decide); x.loop = some l ∧
     x.pool = some q ∧ x.state = 3 ∧ x.run = none ∧ x.pause = none ∧ l.stop = false ∧ l.phase = 0 ∧ l.part = 0 ∧ q.seqs = [(1, y)] ∧ y.edits = [] ∧
     y.state = 3 ∧ y.ends = 0 ∧ q.back = [] ∧ startsPage y = true ∧ y.resUsed = false ∧ 0 < freeCols q) ∧
    (let l := lp; let q := pool w18_21; let s := all[5]'(by decide); let x := getDist s 1; let y := wl18_26[4]'(by decide); x.loop = some l ∧
     x.pool = some q ∧ x.state = 3 ∧ x.run = none ∧ x.pause = none ∧ l.stop = false ∧ l.phase = 0 ∧ l.part = 0 ∧ q.seqs = [(1, y)] ∧ y.edits = [] ∧
     y.state = 3 ∧ y.ends = 0 ∧ q.back = [] ∧ startsPage y = true ∧ y.resUsed = false ∧ freeCols q = 0 ∧ q.noDrop = true ∧ y.spare = some 2) ∧
    (let l := lp; let q := pool w18_22; let s := all[6]'(by decide); let x := getDist s 1; let y := wl18_26[6]'(by decide); x.loop = some l ∧
     x.pool = some q ∧ x.state = 3 ∧ x.run = none ∧ x.pause = none ∧ l.stop = false ∧ l.phase = 0 ∧ l.part = 0 ∧ q.seqs = [(1, y)] ∧ y.edits = [] ∧
     y.state = 3 ∧ y.ends = 0 ∧ q.back = [] ∧ startsPage y = true ∧ y.resUsed = true ∧ freeCols q = 0 ∧ q.noDrop = true ∧ y.noPage = false) ∧
    (let l := lp; let q := pool w18_23; let s := all[7]'(by decide); let x := getDist s 1; let y := wl18_26[6]'(by decide); x.loop = some l ∧
     x.pool = some q ∧ x.state = 3 ∧ x.run = none ∧ x.pause = none ∧ l.stop = false ∧ l.phase = 0 ∧ l.part = 0 ∧ q.seqs = [(1, y)] ∧ y.edits = [] ∧
     y.state = 3 ∧ y.ends = 0 ∧ q.back = [] ∧ startsPage y = true ∧ y.resUsed = true ∧ freeCols q = 0 ∧ q.noDrop = false ∧ 0 < q.slots) ∧
    (let l := l2; let q := wl18_25[9]'(by decide); let s := all[9]'(by decide); let x := getDist s 1; let cons : BitVec 64 := 255; x.loop = some l ∧
     x.pool = some q ∧ x.state = 3 ∧ x.run = none ∧ x.pause = none ∧ l.stop = false ∧ l.phase = 2 ∧ s.pcie.linkUp = true ∧
     List.length (stepSlots q) ≤ ringRoom l (BitVec.toNat cons) ∧ thas x.progs l.handle = true) ∧
    (let l := l2; let q := wl18_25[9]'(by decide); let s := all[9]'(by decide); let x := getDist s 1; let cons : BitVec 64 := 2 ^ 64 - 1;
     x.loop = some l ∧ x.pool = some q ∧ x.state = 3 ∧ x.run = none ∧ x.pause = none ∧ l.stop = false ∧ l.phase = 2 ∧ s.pcie.linkUp = true ∧
     ringRoom l (BitVec.toNat cons) < List.length (stepSlots q) ∧ l.heldLogged = false) ∧
    (let l := l3; let q := wl18_25[9]'(by decide); let s := all[10]'(by decide); let x := getDist s 1; let y := wl18_26[12]'(by decide);
     let e := segH; x.loop = some l ∧ x.pool = some q ∧ x.state = 3 ∧ x.run = none ∧ x.pause = none ∧ l.stop = false ∧ l.phase = 3 ∧
     s.pcie.linkUp = true ∧ q.seqs = [(1, y)] ∧ y.edits = [] ∧ y.inStep = true ∧ tfind x.segs q.batchSeg = some e ∧ y.state = 3 ∧ y.void = false) ∧
    (let l := l3; let q := wl18_25[12]'(by decide); let s := all[12]'(by decide); let x := getDist s 1; let y := wl18_26[15]'(by decide);
     let e := segH; x.loop = some l ∧ x.pool = some q ∧ x.state = 3 ∧ x.run = none ∧ x.pause = none ∧ l.stop = false ∧ l.phase = 3 ∧
     s.pcie.linkUp = true ∧ q.seqs = [(1, y)] ∧ y.edits = [] ∧ y.inStep = true ∧ tfind x.segs q.batchSeg = some e ∧ y.void = true) := by
  refine ⟨?_, ?_, ?_, ?_, ?_, ?_, ?_, ?_, ?_, ?_, ?_, ?_, ?_⟩ <;> (and_intros <;> first | decide +kernel | (constructor <;> first | decide +kernel | exact ⟨_, rfl, rfl⟩) | (intro _ h; cases h; decide +kernel) | (intro _; rfl) | (intro _ _ h; cases h) | (intro _ h; cases h))

end P18

namespace P19
def segO : Seg := { seg1 with size := 65536, dbase := 65536, bid := 2 }
def w120 (fs : List (Nat × Nat × Nat)) : Bytes := leBytes 120 (fs.foldl (fun a f => a + f.2.2 % 2 ^ f.2.1 * 2 ^ f.1) 0)
def decJob (inLen : Nat) (e : Nat) (toks : Bool) (outLen : Nat := 4096): Bytes := w120 ([(0, 4, 1), (5, 1, 1), (8, 1, e), (16, 8, 1), (24, 8, 255), (32, 8, 1), (40, 8, 2), (64, 64, 0), (128, 64, inLen), (192, 64, 64), (256, 64, outLen), (320, 16, 8), (336, 16, 8)]
  ++ if toks then [(6, 1, 1), (48, 8, 2), (512, 4, 0), (516, 4, 1), (520, 8, 2), (528, 2, 0), (532, 4, 0), (544, 10, 7), (608, 16, 8), (624, 16, 8), (832, 32, 2), (896, 64, 16384)] ++ (List.range 6).map (fun i => (640 + 32 * i, 32, 0x3F800000)) else [])
def encJob (inLen : Nat) (e : Nat) : Bytes := w120 [(0, 4, 1), (4, 1, 1), (8, 1, e), (16, 8, 1), (24, 8, 3), (32, 8, 1), (40, 8, 2), (128, 64, inLen), (192, 64, 64), (256, 64, 4096), (320, 16, 8), (336, 16, 8), (384, 32, 1), (416, 16, 2), (432, 16, 1), (448, 16, 1)]
def encR (buf kbps : Nat) : Bytes := w120 [(0, 4, 1), (4, 1, 1), (16, 8, 1), (24, 8, 3), (32, 8, 1), (40, 8, 2), (128, 64, 3), (192, 64, 64), (256, 64, 4096), (320, 16, 8), (336, 16, 8), (360, 2, 1), (384, 32, kbps), (432, 16, 1), (448, 16, 1), (464, 16, 2), (480, 32, buf)]
def decDist : Dist := { d1 with segs := [(1, seg1), (2, segO)] }
def ms (ps : List (Nat × Pipe)) (f : State → State := id) : State := f { up with dists := [(1, decDist)], pipes := ps, backs := [(1, { tier := 1, units := [0], size := 4096, data := [(3, 9)] }), (2, { tier := 1, units := [0], size := 65536 }), (7, { tier := 2, units := [0], size := 65536 })], nextBid := 8 }
def pj (job : Bytes) (f : Pipe → Pipe := id) : Pipe := f { state := 1, dist := 1, pend := some (pd 1 0x800), job := job, inLen := 100, storeBid := 7 }
def fr : DecodedFrame := { inBytes := 20, width := 8, height := 8, planes := (List.range 1024).map fun i => BitVec.ofNat 8 i }
def mfr : MFrame := { planes := (List.range 1024).map fun i => BitVec.ofNat 8 i, poison := false, ten := false, mono := false, full := false, matrix := 1 }
def w19_1 : State := ms [(1, pj (decJob 100 0 false))]
def w19_4 : FwReq := rq 1 1 (le 8 1 ++ le 8 100)
def w19_7 : State := ms [(1, pj (decJob 100 0 false))]
def w19_8 : State := ms [(1, pj (decJob 100 1 true) fun p => {p with inPos := 90})]
def w19_10 : State := ms [(1, pj (decJob 100 0 true 1500) fun p => {p with frames := 1})]
def w19_11 : State := ms [(1, pj (decJob 100 0 true) fun p => {p with group := [mfr], groups := 3, tokRows := 3})]
def w19_13 : State := ms [(9, pj (encR 9000 1) fun p => {p with bufFull := 9000})]
def w19_20 : State := ms [(8, pj (encJob 3 0) fun p => {p with inPos := 100, isEnd := true, frames := 5})]
def w19_22 : DecodedFrame := {fr with damaged := [(0, 0)], sb := 64}
def w19_23 : DecodedFrame := {fr with causes := 64}
def w19_26 : EncodedFrame := {attempts := [(0, [1, 2, 3]), (32, [1])], fallback := [9], padding := [5, 6]}

/-- What MediaRequestsComplete assumes, clause by clause. -/
theorem test_MediaRequestsComplete_met :
    (let c := rq 1 1 (decJob 0 0 false); let s := ms []; let p := c.payload; let d := cmdDist c; let x := getDist s d;
     let k := pipeKey (bit p 4) (fld p 3 0); let q := getPipe s k; pipePresent s (bit p 4) (fld p 3 0) = true ∧ x.state ∈ [1, 2, 3, 5, 6] ∧
     Sendable specMediaStart c s ∧ p.length = 120 ∧ zeroAt p (mediaRsvd (bit p 4)) = true ∧ mediaOk s x p = true ∧ q.state = 0 ∧
     (retainBlocks s).fst = false ∧ s.pwr.state ≠ 2 ∧ fits (wakeLoop s d) 2 s.lpSites (storeBytes p) = true ∧ vecFree s d (fld p 31 24) = true) ∧
    (let c := w19_4; let s := w19_1; let p := c.payload; let d := cmdDist c; let x := getDist s d; let k := pipeKey (bit p 4) (fld p 3 0);
     let q := getPipe s k; pipePresent s (bit p 4) (fld p 3 0) = true ∧ x.state ∈ [1, 2, 3, 5, 6] ∧ q.dist = d ∧ q.state ∈ [1, 2] ∧
     Sendable specMediaExtend c s ∧ p.length = 16 ∧ zeroAt p [(7, 5), (63, 9)] = true ∧ q.inLen ≤ fld p 127 64 ∧
     mediaRange x (fld q.job 39 32) (fld q.job 127 64) (fld p 127 64 * if bit p 4 = true then slotBytes (jobW q.job) (jobH q.job) (bit q.job 352) else 1) false = true) ∧
    (let c := rq 1 1 (le 8 1); let s := ms []; let p := c.payload; let d := cmdDist c; let x := getDist s d;
     pipePresent s (bit p 4) (fld p 3 0) = true ∧ x.state ∈ [1, 2, 3, 5, 6] ∧ Sendable specMediaInfo c s ∧ p.length = 8 ∧ zeroAt p [(63, 5)] = true) ∧
    (let c := rq 1 1 (le 8 1); let s := w19_1; let p := c.payload; let d := cmdDist c; let x := getDist s d; let k := pipeKey (bit p 4) (fld p 3 0);
     let q := getPipe s k; pipePresent s (bit p 4) (fld p 3 0) = true ∧ x.state ∈ [1, 2, 3, 5, 6] ∧ q.dist = d ∧ q.state ∈ [1, 2] ∧
     Sendable specMediaStop c s ∧ p.length = 8 ∧ zeroAt p [(63, 5)] = true ∧ q.ending = none) ∧
    (let s := w19_20; let w := pd 1 2048; let k := pipeKey true 0; let q := getPipe s k; q.state ≠ 0 ∧ jobOver q = some 0 ∧ q.pend = some w ∧
     (getFn s w.req.fn).epoch = w.epoch) ∧
    (let s := w19_7; let f := fr; let q := getPipe s 1; let x := getDist s q.dist; let slot := slotBytes (jobW q.job) (jobH q.job) f.ten;
     let n := q.frames; let a := seg1; let b := segO; q.state ∈ [1, 2] ∧ q.ending = none ∧ groupFull q = false ∧ q.inPos < q.inLen ∧
     f.inBytes ≤ q.inLen - q.inPos ∧ bit q.job 5 = true ∧ (n + 1) * slot ≤ fld q.job 319 256 ∧ tfind x.segs (fld q.job 39 32) = some a ∧
     tfind x.segs (fld q.job 47 40) = some b ∧ b.tier ≠ 3 ∧ memWf (getBack s b.bid).data = true ∧
     segPoison s a (fld q.job 127 64 + q.inPos) f.inBytes = [] ∧ f.width ≤ jobW q.job ∧ f.height ≤ jobH q.job ∧ f.damaged = [] ∧ f.causes = 0 ∧
     List.any f.refs (List.contains q.conc) = false) ∧
    (let s := w19_7; let f := w19_22; let q := getPipe s 1; let x := getDist s q.dist; let slot := slotBytes (jobW q.job) (jobH q.job) f.ten;
     let n := q.frames; let a := seg1; let b := segO; q.state ∈ [1, 2] ∧ q.ending = none ∧ groupFull q = false ∧ q.inPos < q.inLen ∧
     f.inBytes ≤ q.inLen - q.inPos ∧ bit q.job 5 = true ∧ (n + 1) * slot ≤ fld q.job 319 256 ∧ tfind x.segs (fld q.job 39 32) = some a ∧
     tfind x.segs (fld q.job 47 40) = some b ∧ b.tier ≠ 3 ∧ memWf (getBack s b.bid).data = true ∧
     segPoison s a (fld q.job 127 64 + q.inPos) f.inBytes = [] ∧ f.width ≤ jobW q.job ∧ f.height ≤ jobH q.job ∧ f.damaged = [(0, 0)] ∧ f.causes = 0 ∧
     List.any f.refs (List.contains q.conc) = false) ∧
    (let s := w19_7; let f := w19_23; let q := getPipe s 1; let x := getDist s q.dist; let slot := slotBytes (jobW q.job) (jobH q.job) f.ten;
     let n := q.frames; let a := seg1; let b := segO; q.state ∈ [1, 2] ∧ q.ending = none ∧ groupFull q = false ∧ q.inPos < q.inLen ∧
     f.inBytes ≤ q.inLen - q.inPos ∧ bit q.job 5 = true ∧ (n + 1) * slot ≤ fld q.job 319 256 ∧ tfind x.segs (fld q.job 39 32) = some a ∧
     tfind x.segs (fld q.job 47 40) = some b ∧ b.tier ≠ 3 ∧ memWf (getBack s b.bid).data = true ∧
     segPoison s a (fld q.job 127 64 + q.inPos) f.inBytes = [] ∧ f.width ≤ jobW q.job ∧ f.height ≤ jobH q.job ∧ f.damaged = [] ∧ f.causes = 64 ∧
     List.any f.refs (List.contains q.conc) = false) ∧
    (let s := w19_8; let f := fr; let q := getPipe s 1; q.state ∈ [1, 2] ∧ q.ending = none ∧ groupFull q = false ∧ q.inPos < q.inLen ∧
     q.inLen - q.inPos < f.inBytes ∧ q.isEnd = false) ∧
    (let s := w19_10; let f := fr; let q := getPipe s 1; let slot := slotBytes (jobW q.job) (jobH q.job) f.ten; let n := q.frames; q.state ∈ [1, 2] ∧
     q.ending = none ∧ groupFull q = false ∧ q.inPos < q.inLen ∧ f.inBytes ≤ q.inLen - q.inPos ∧ bit q.job 5 = true ∧
     fld q.job 319 256 < (n + 1) * slot) ∧
    (let s := w19_11; let e := segO; let q := getPipe s 1; q.state ≠ 0 ∧ groupFull q = true ∧ bit q.job 10 = false ∧
     tfind (getDist s q.dist).segs (fld q.job 55 48) = some e ∧ e.tier ≠ 3 ∧ memWf (getBack s e.bid).data = true ∧
     q.tokRows = q.groups * patchCount q.job) ∧
    (let s := w19_13; let f := w19_26; let e := segO; let q := getPipe s (8 + 1); let n := fld q.job 447 432; let room := q.bufFull / n;
     let r := encodeBuf q f room; let fill := q.bufFull - bitsLen r.fst * n + fld q.job 415 384 * 1000 * fld q.job 463 448;
     let full := fld q.job 511 480 * n; let out := r.fst ++ if full < fill then f.padding else []; q.state ∈ [1, 2] ∧ q.ending = none ∧
     q.inPos < q.inLen ∧ fld q.job 361 360 = 1 ∧ n ≠ 0 ∧ tfind (getDist s q.dist).segs (fld q.job 47 40) = some e ∧ e.tier ≠ 3 ∧
     memWf (getBack s e.bid).data = true ∧ q.outBytes + out.length ≤ fld q.job 319 256) ∧
    (let s := ms [(9, pj (encJob 3 0))]; let f := w19_26; let e := segO; let q := getPipe s (8 + 1); q.state ∈ [1, 2] ∧ q.ending = none ∧
     q.inPos < q.inLen ∧ fld q.job 361 360 = 0 ∧ tfind (getDist s q.dist).segs (fld q.job 47 40) = some e ∧ e.tier ≠ 3 ∧
     memWf (getBack s e.bid).data = true ∧ q.outBytes + List.length (encodeCap q f (freshNat s).fst).fst ≤ fld q.job 319 256) := by
  refine ⟨?_, ?_, ?_, ?_, ?_, ?_, ?_, ?_, ?_, ?_, ?_, ?_, ?_⟩ <;> (and_intros <;> first | decide +kernel | (constructor <;> first | decide +kernel | exact ⟨_, rfl, rfl⟩) | (intro _ h; cases h; decide +kernel) | (intro _; rfl) | (intro _ _ h; cases h) | (intro _ h; cases h))

/-- MediaRequestsComplete, RC 1: the second index fits exactly; every index is too large. -/
theorem test_MediaRequestsComplete_rc1 : let q : Pipe := pj (encR 9000 1); let qi := fld q.job 375 368
    let f : EncodedFrame := { attempts := [(0, [1, 2, 3]), (32, [1, 2])], fallback := [] }
    let g : EncodedFrame := { attempts := (quantSteps 0).map fun i => (i, [1, 2, 3]), fallback := [] }
    (bitsLen (tget [] f.attempts (min (qi + 32 * 1) 255)) ≤ 16 ∧ ∀ j < 1, 16 < bitsLen (tget [] f.attempts (min (qi + 32 * j) 255))) ∧
    ∀ i, 23 < bitsLen (tget [] g.attempts (min (qi + 32 * i) 255)) := by
  refine ⟨by decide +kernel, fun i => ?_⟩
  by_cases h : i < 8
  · have : ∀ i < 8, 23 < bitsLen (tget [] (((quantSteps 0).map fun i => (i, ([1, 2, 3] : Bytes)))) (min (0 + 32 * i) 255)) := by decide +kernel
    exact this i h
  · rw [show min (fld (pj (encR 9000 1)).job 375 368 + 32 * i) 255 = 255 by omega]
    decide +kernel

/-- MediaRequestsComplete, vectors: a block at a superblock's last corner whose vector reaches the window's edge. -/
theorem test_MediaRequestsComplete_vectors : let m : MotionBlock := { ref := 0, x := 112, y := 48, w := 16, h := 16, mx := 384, my := 128 };
    let sx : Int := (m.x / 64 * 64 : Nat); let sy : Int := (m.y / 64 * 64 : Nat)
    m.x % 64 + m.w ≤ 64 ∧ m.y % 64 + m.h ≤ 64 ∧ 4 * (sx - 96) ≤ 4 * (m.x : Int) + m.mx ∧ 4 * ((m.x : Int) + m.w) + m.mx ≤ 4 * (sx + 160) ∧
    4 * (sy - 32) ≤ 4 * (m.y : Int) + m.my ∧ 4 * ((m.y : Int) + m.h) + m.my ≤ 4 * (sy + 96) := by
  decide +kernel

end P19

namespace P20
def gr (st : Nat) (f : Group → Group := id) : Group := f { dist := 1, state := st, members := [⟨0, none⟩, ⟨1, none⟩, ⟨2, none⟩], myPos := 0, stageKib := 256, links := 6, epoch := 255, seq := 7, sig := 9, tag := 0x55 }
def jS (f : Job → Job := id) : Job := f { compute := 1, update := 2, early := true, hold := false, evt := true, skip := false, replayMax := 2, infoSeg := 1, infoOff := 64, members := [⟨0, none⟩, ⟨1, none⟩, ⟨2, none⟩], memberBytes := [0,0,0,0,1,0,0,0,2,0,0,0], layerBytes := [5, 6], myPos := 0, lossPos := 0, feedSeg := 1, feedOff := 512, bufSeg := 2, bufOff := 128, recBytes := 64, recs := 1, feedRecs := 4, evalMs := 1, protect := 2, sig := 77 }
def pol : Policy := { volume := 3, intervalS := 10, regions := [0, 10, 20, 30], regionExt := 8, ms := 1, group := 3, bufSeg := 2, bufOff := 64 }
def polB : Bytes := leBytes 48 (3 + 10 * 2^32 + 0 * 2^64 + 10 * 2^96 + 20 * 2^128 + 30 * 2^160 + 8 * 2^192 + 1 * 2^224 + 3 * 2^240 + 2 * 2^248 + 64 * 2^256)
def capR (f : Capture → Capture := id) : Capture := f { seq := 4, step := 7, cursor := 9, cause := 1, at_ := 5 }
def dirX : Bytes := dirBytes [(1, seg1, 2)]
def hdr (seq : Nat) (dg : Bytes) (mir : Bool) : Bytes := withCheck (slice (headerOf (capR fun c => {c with seq := seq, bytes := 4096}) jS 1 1 dg) 0 256 ++ dirX) 1 5 mir
def meta1 : Bytes := slice ([0,0,0,0,1,0,0,0,2,0,0,0] ++ [5, 6]) 0 65536
def dgOk : Bytes := zeros 64
/-- A region's head as it lies in flash: flags byte, snapshot number, check word. -/
def headMem (flags seq c0 c1 c2 c3 : BitVec 8) : Mem := [(0, 0x53), (1, 0x4e), (2, 0x41), (3, 0x50), (4, 1), (5, flags), (8, seq), (16, 7), (24, 9), (32, 5), (38, 3),
  (41, 0x30), (42, 1), (43, 1), (44, 1), (48, 0x4d), (52, 0x91), (53, 0x69), (54, 0xe8), (55, 0x8a), (56, 1), (60, 1), (64, 1), (72, 5), (81, 0x10),
  (160, c0), (161, c1), (162, c2), (163, c3), (256, 1), (257, 1), (265, 0x10), (272, 2)]
def metaMem : Mem := [(4, 1), (8, 2), (12, 5), (13, 6)]
def datMem : Mem := [(0, 9), (1, 8), (2, 7)]
def vol3 : Vol := { owner := 1, extents := 100, data := [(0, { data := headMem 1 40 0x11 0xf7 0xa8 0x6f }), (1, { data := metaMem }), (2, { data := datMem }), (10, { data := headMem 1 41 0xb6 0x65 0x22 0xe8 }), (20, { data := headMem 5 42 0x12 0xa5 0x42 0x36 }), (21, { data := metaMem }), (22, { data := datMem })] }
def ds (n : Snap) (st : Nat := 2) (f : Dist → Dist := id) : Dist := f { state := st, q := 1, quarters := [0], gen := 3, channels := [3], segs := [(1, seg1), (2, { seg1 with tier := 2, dbase := 8192, bid := 2 , size := 8192})], gate := { job := some jS }, snap := n }
def sst (n : Snap) (st : Nat := 2) (f : Dist → Dist := id) (g : State → State := id) : State := g { up with dists := [(1, ds n st f)], backs := [(1, { tier := 1, units := [0], size := 4096, data := [(0, 5), (100, 7)] }), (2, { tier := 2, units := [0], size := 8192 })], nextBid := 3, flash := { vols := [(3, vol3)] }, groups := [(3, { gr 1 with plan := none })] }
def n0 : Snap := { policy := some pol, seq := 3 }
def w20_1 : State := sst {}
def w20_6 : FwReq := rq 1 1 (leBytes 16 (42 + 2^64 + 2^78))
def w20_7 : FwReq := rq 1 1 (leBytes 16 (42 + 1 * 2^64))
def fEx : Restore := { pend := pd 1 0x903, region := 0, mirror := false, verify := true, remap := zeros 256 }
def cpd := capR fun c => {c with head := hdr 4 (zeros 64) false}
def rs (r : Nat) : Snap := { n0 with code := 4, restore := some { fEx with got := List.range 12, region := r, mirror := r ≥ 2, pend := pd 1 0x903 } }
def fl (f : Fill → Fill := id) : Fill := f { pend := [pd 1 0x904], seq := 42, src := 1, verify := true }
def w20_9 : Fill := fl fun f => {f with head := some (hdr 42 (zeros 64) true), have_ := [0]}
def w20_10 : Fill := fl fun f => {f with head := some (hdr 42 (zeros 64) true), have_ := [0, 1], metas := [(1, meta1)]}
def w20_11 : Fill := fl fun f => {f with head := some (hdr 42 dgOk true), have_ := [0, 1], metas := [(1, meta1)]}
def fls : List Fill := [fl, w20_9, w20_10, w20_11]
def poisoned (s : State) : State := { s with backs := (s.backs.map fun e => (e.1, {e.2 with poison := [3]})) }
def wl20_12 : List State := [sst { n0 with code := 1, cap := some capR }, sst { n0 with code := 1, cap := some capR } (g := poisoned), sst { n0 with code := 2, cap := some cpd }, sst { n0 with code := 2, cap := some {cpd with mirDone := true, check := some (2, 77)} }, sst { n0 with mirHead := some (hdr 50 dgOk true), mirAll := true, nextMir := true},
  sst (rs 0), sst (rs 1), sst (rs 2), sst { n0 with code := 6, serving := some 42}] ++ fls.map fun f => sst { n0 with code := 5, fill := some f}
def w20_13 : Capture := {cpd with mirDone := true, check := some (2, 77)}
def w20_15 : Seg := { seg1 with tier := 2, dbase := 8192, bid := 2 , size := 8192}

/-- What SnapshotCommandsComplete assumes, clause by clause. -/
theorem test_SnapshotCommandsComplete_met :
    (let c := rq 1 1 polB; let s := w20_1; let p := c.payload; let d := cmdDist c; let x := getDist s d; let n := x.snap; flashPresent s = true ∧
     s.sec.keys = true ∧ x.serving = false ∧ x.loop = none ∧ x.state ∈ [1, 2, 3, 5, 6] ∧ Sendable specSnapPolicy c s ∧ p.length = 48 ∧
     zeroAt p [(239, 237), (247, 246), (383, 320)] = true ∧ policyOk s d (policyOf p) = true ∧ n.code = 0) ∧
    (let c := rq 1 1; let s := w20_1; let p := c.payload; let d := cmdDist c; let x := getDist s d; flashPresent s = true ∧ s.sec.keys = true ∧
     x.serving = false ∧ x.loop = none ∧ x.state ∈ [1, 2, 3, 5, 6] ∧ Sendable specSnapTake c s ∧ p = []) ∧
    (let c := rq 1 1; let s := w20_1; let p := c.payload; let d := cmdDist c; let x := getDist s d; flashPresent s = true ∧ s.sec.keys = true ∧
     x.serving = false ∧ x.loop = none ∧ x.state ∈ [1, 2, 3, 5, 6] ∧ Sendable specSnapInfo c s ∧ p = []) ∧
    (let c := rq 1 1; let s := w20_1; let p := c.payload; let d := cmdDist c; let x := getDist s d; flashPresent s = true ∧ s.sec.keys = true ∧
     x.serving = false ∧ x.loop = none ∧ x.state ∈ [1, 2, 3, 5, 6] ∧ Sendable specSnapFillInfo c s ∧ p = []) ∧
    (let c := rq 1 1 (leBytes 32 40); let s := sst n0; let p := c.payload; let d := cmdDist c; let x := getDist s d; let n := x.snap; let q := pol;
     flashPresent s = true ∧ s.sec.keys = true ∧ x.serving = false ∧ x.loop = none ∧ x.state ∈ [1, 2, 3, 5, 6] ∧ n.policy = some q ∧
     Sendable specSnapRestore c s ∧ p.length = 32 ∧ zeroAt p [(71, 66), (127, 80), (255, 192)] = true ∧ restoreOk s x p = true ∧ x.state ≠ 3 ∧
     n.code = 0 ∧ x.gate.code ∈ [0, 5]) ∧
    (let c := w20_6; let s := sst n0; let p := c.payload; let d := cmdDist c; let x := getDist s d; let n := x.snap; let q := pol; let j := jS;
     flashPresent s = true ∧ s.sec.keys = true ∧ x.serving = false ∧ x.loop = none ∧ x.state ∈ [1, 2, 3, 5, 6] ∧ n.policy = some q ∧
     x.gate.job = some j ∧ fld p 76 64 < j.members.length ∧ Sendable specSnapFill c s ∧ p.length = 16 ∧ zeroAt p [(127, 79)] = true ∧ n.code = 0 ∧
     n.fill = none) ∧
    (let c := rq 1 1 (leBytes 16 42); let s := sst n0; let p := c.payload; let d := cmdDist c; let x := getDist s d; let n := x.snap; let q := pol;
     flashPresent s = true ∧ s.sec.keys = true ∧ x.serving = false ∧ x.loop = none ∧ x.state ∈ [1, 2, 3, 5, 6] ∧ n.policy = some q ∧
     Sendable specSnapServe c s ∧ p.length = 16 ∧ zeroAt p [(127, 65)] = true ∧ n.code ∈ [0, 6] ∧ bit p 64 = false ∧
     Option.isSome (findRegion s q true (fld p 63 0)) = true) ∧
    (let c := w20_7; let s := sst n0; let p := c.payload; let d := cmdDist c; let x := getDist s d; let n := x.snap; let q := pol;
     flashPresent s = true ∧ s.sec.keys = true ∧ x.serving = false ∧ x.loop = none ∧ x.state ∈ [1, 2, 3, 5, 6] ∧ n.policy = some q ∧
     Sendable specSnapServe c s ∧ p.length = 16 ∧ zeroAt p [(127, 65)] = true ∧ n.code ∈ [0, 6] ∧ bit p 64 = true) := by
  refine ⟨?_, ?_, ?_, ?_, ?_, ?_, ?_, ?_⟩ <;> (and_intros <;> first | decide +kernel | (constructor <;> first | decide +kernel | exact ⟨_, rfl, rfl⟩) | (intro _ h; cases h; decide +kernel) | (intro _; rfl) | (intro _ _ h; cases h) | (intro _ h; cases h))

/-- What SnapshotsAreWrittenAndRead assumes, clause by clause. -/
theorem test_SnapshotsAreWrittenAndRead_met :
    (let p := pol; let j := jS; let s := wl20_12[0]'(by decide); let x := getDist s 1; let n := x.snap; let c := capR; let e := seg1; let b := w20_15;
     n.policy = some p ∧ x.gate.job = some j ∧ s.sec.keys = true ∧ thas s.flash.vols p.volume = true ∧ n.code = 1 ∧ n.cap = some c ∧
     x.gate.updWait = false ∧ shardSegs x = [(1, e)] ∧ segPoison s e 0 e.size = [] ∧ 1 + metaExt j + extentsOf e.size ≤ p.regionExt ∧
     s.flash.readOnly = false ∧ tfind x.segs p.bufSeg = some b ∧ b.tier ≠ 3 ∧ memWf (getBack s b.bid).data = true) ∧
    (let p := pol; let j := jS; let s := wl20_12[0]'(by decide); let x := getDist s 1; let n := x.snap; n.policy = some p ∧ x.gate.job = some j ∧
     s.sec.keys = true ∧ thas s.flash.vols p.volume = true ∧ s.flash.readOnly = false) ∧
    (let p := pol; let j := jS; let s := wl20_12[0]'(by decide); let x := getDist s 1; let n := x.snap; n.policy = some p ∧ x.gate.job = some j ∧
     s.sec.keys = true ∧ thas s.flash.vols p.volume = true ∧ s.flash.readOnly = false ∧ 1 < p.regionExt) ∧
    (let p := pol; let j := jS; let s := wl20_12[1]'(by decide); let x := getDist s 1; let n := x.snap; let c := capR; n.policy = some p ∧
     x.gate.job = some j ∧ s.sec.keys = true ∧ thas s.flash.vols p.volume = true ∧ n.code = 1 ∧ n.cap = some c ∧ x.gate.updWait = false ∧
     (∃ (e : Nat × Seg), e ∈ shardSegs x ∧ segPoison s e.snd 0 e.snd.size ≠ [])) ∧
    (let p := pol; let j := jS; let s := wl20_12[2]'(by decide); let x := getDist s 1; let n := x.snap; let c := cpd; n.policy = some p ∧
     x.gate.job = some j ∧ s.sec.keys = true ∧ thas s.flash.vols p.volume = true ∧ n.code = 2 ∧ n.cap = some c ∧ c.ownDone = false ∧
     s.flash.readOnly = false ∧ c.mirDone = false) ∧
    (let p := pol; let j := jS; let s := wl20_12[3]'(by decide); let x := getDist s 1; let n := x.snap; let c := w20_13; n.policy = some p ∧
     x.gate.job = some j ∧ s.sec.keys = true ∧ thas s.flash.vols p.volume = true ∧ n.code = 2 ∧ n.cap = some c ∧ c.ownDone = false ∧
     s.flash.readOnly = false ∧ c.mirDone = true ∧ c.check = some (2, 77)) ∧
    (let p := pol; let j := jS; let s := wl20_12[4]'(by decide); let x := getDist s 1; let n := x.snap; let h := hdr 50 dgOk true; n.policy = some p ∧
     x.gate.job = some j ∧ s.sec.keys = true ∧ thas s.flash.vols p.volume = true ∧ n.mirHead = some h ∧ n.mirAll = true ∧ n.cap = none) ∧
    (let p := pol; let j := jS; let s := wl20_12[8]'(by decide); let x := getDist s 1; let n := x.snap; n.policy = some p ∧ x.gate.job = some j ∧
     s.sec.keys = true ∧ thas s.flash.vols p.volume = true ∧ n.code = 6 ∧ n.serving = some 42 ∧ findRegion s p true 42 = some 2) ∧
    (let p := pol; let j := jS; let s := wl20_12[9]'(by decide); let x := getDist s 1; let n := x.snap; let f := fl; n.policy = some p ∧
     x.gate.job = some j ∧ s.sec.keys = true ∧ thas s.flash.vols p.volume = true ∧ n.code = 5 ∧ n.fill = some f) ∧
    (let p := pol; let j := jS; let s := wl20_12[10]'(by decide); let x := getDist s 1; let n := x.snap; let f := w20_9;
     let h := hdr 42 (zeros 64) true; let e := seg1; n.policy = some p ∧ x.gate.job = some j ∧ s.sec.keys = true ∧ thas s.flash.vols p.volume = true ∧
     n.code = 5 ∧ n.fill = some f ∧ f.head = some h ∧ fld h 511 480 < 2 ∧ 2 < fillTotal f ∧ extentHome h 2 = some (1, 0, 4096) ∧
     tfind x.segs 1 = some e ∧ e.tier ≠ 3 ∧ memWf (getBack s e.bid).data = true ∧ List.length (nsAdd f.have_ 2) < fillTotal f) ∧
    (let p := pol; let j := jS; let s := wl20_12[11]'(by decide); let x := getDist s 1; let n := x.snap; let f := w20_10;
     let h := hdr 42 (zeros 64) true; let e := seg1; n.policy = some p ∧ x.gate.job = some j ∧ s.sec.keys = true ∧ thas s.flash.vols p.volume = true ∧
     n.code = 5 ∧ n.fill = some f ∧ f.head = some h ∧ fld h 511 480 < 2 ∧ 2 < fillTotal f ∧ extentHome h 2 = some (1, 0, 4096) ∧
     tfind x.segs 1 = some e ∧ e.tier ≠ 3 ∧ memWf (getBack s e.bid).data = true ∧ fillTotal f ≤ List.length (nsAdd f.have_ 2)) := by
  refine ⟨?_, ?_, ?_, ?_, ?_, ?_, ?_, ?_, ?_, ?_, ?_⟩ <;> (and_intros <;> first | decide +kernel | (constructor <;> first | decide +kernel | exact ⟨_, rfl, rfl⟩) | (intro _ h; cases h; decide +kernel) | (intro _; rfl) | (intro _ _ h; cases h) | (intro _ h; cases h))

/-- SnapshotsAreWrittenAndRead, the end of a restore: the clause's two cases are agree and not agree, and one of them holds. -/
theorem test_SnapshotsAreWrittenAndRead_restored : let s := sst (rs 0); let x := getDist s 1; let n := x.snap
    let r : Restore := {fEx with got := List.range 12, pend := pd 1 0x903, region := 0}; n.policy = some pol ∧ x.gate.job = some jS ∧ n.code = 4 ∧
    n.restore = some r ∧ restoreRead s pol r = true ∧ (getFn s r.pend.req.fn).epoch = r.pend.epoch := by
  and_intros <;> decide +kernel

end P20

namespace P21
def w21_1 : Health := {}
def w21_5 : Health := { level := 1, lastAt := some 5000000 }
def sh (h : Health) (now : Nat) (thr : Nat) : State := { up2 with health := h, now := BitVec.ofNat 64 now, pwr := { up2.pwr with riskThreshold := thr }, adv := [(4, { value := 3, unread := true })] }
def w21_9 : State := {up2 with health := { wdog := [0, 1, 2] }}
def w21_10 : State := {up2 with health := { fatal := some 4, fatalAt := 4900000 }}
def w21_11 : State := {up2 with health := { fatal := some 4, fatalAt := 4900001, fatalAck := false }}

/-- What RiskLevelIsRecomputed assumes, clause by clause. -/
theorem test_RiskLevelIsRecomputed_met :
    (let s := sh w21_1 5000000 3; s.pins.aonRst = false ∧ (∀ (u : Nat), s.health.lastAt = some u → u + 1000000000 ≤ time s)) ∧
    (let s := sh w21_5 5000000 3; s.pins.aonRst = false ∧ s.health.lastAt = some 5000000 ∧ time s < 5000000 + 1000000000) := by
  refine ⟨?_, ?_⟩ <;> (and_intros <;> first | decide +kernel | (constructor <;> first | decide +kernel | exact ⟨_, rfl, rfl⟩) | (intro _ h; cases h; decide +kernel) | (intro _; rfl) | (intro _ _ h; cases h) | (intro _ h; cases h))

/-- What PackageFatalStopsThePackage assumes, clause by clause. -/
theorem test_PackageFatalStopsThePackage_met :
    (let s := up2; s.pins.aonRst = false ∧ s.pins.sysRst = false ∧ s.health.fatal = none ∧ liveCps s ≠ [] ∧ (s.dists.map (·.1)).Nodup ∧
     (Instr.bridgeLinkLoss, 4) ∈ [(Instr.bridgeLinkLoss, 4), (Instr.timebaseReplicaLockFailure, 5), (Instr.pwrGoodFall, 2)]) ∧
    (let s := up2; voxubRuns s = true) ∧
    (let s := w21_9; voxubRuns s = true) ∧
    (let s := w21_10; s.health.fatal = some 4 ∧ s.health.fatalAck = false ∧ s.health.fatalAt + 100000 ≤ time s) ∧
    (let s := w21_10; (Option.isSome s.health.fatal = true ∨ s.pins.aonRst = true ∨ s.pins.sysRst = true)) ∧
    (let s := w21_10; (Option.isSome s.health.fatal = true ∨ s.pins.aonRst = true ∨ s.pins.sysRst = true)) ∧
    (let s := w21_10; (Option.isSome s.health.fatal = true ∨ s.pins.aonRst = true ∨ s.pins.sysRst = true)) ∧
    (let s := w21_11; s.health.fatal = some 4 ∧ s.health.fatalAck = false ∧ time s < s.health.fatalAt + 100000) := by
  refine ⟨?_, ?_, ?_, ?_, ?_, ?_, ?_, ?_⟩ <;> (and_intros <;> first | decide +kernel | (constructor <;> first | decide +kernel | exact ⟨_, rfl, rfl⟩) | (intro _ h; cases h; decide +kernel) | (intro _; rfl) | (intro _ _ h; cases h) | (intro _ h; cases h))

end P21

namespace P22
def sS (f : Sec → Sec := id) (g : State → State := id) : State := g { up2 with sec := f { boot := 3, lifecycle := 0, keys := true, running := some (runningOf 0 (bm)) } }
def own : Owner := { key := List.replicate 136 1, require := true, vendorDebug := true, gen := 4 }
def stg (f : Staging → Staging := id) : Staging := f { len := 664, data := bm, ranges := [(0, 664)] }
def nn : BitVec 256 := 0x1234
def fresh (l : Nat) (f : Sec → Sec := id) (g : State → State := id) : State := sS (fun x => f { x with lifecycle := l, nonce := some (nn, 10^12), owner := some own, identity := some [7] }) g
def w22_1 : State := sS (fun x => {x with update := some (stg fun g => {g with ranges := []}), keys := false})
def w22_2 : State := sS (fun x => {x with update := some stg})
def w22_4 : State := sS (fun x => {x with slotWrites := [(pd 1 0xA02, 1, bm), (pd 1 0xA02, 0, [])]})
def w22_7 : State := sS (fun x => {x with staged := [(1, (memOf [1, 2, 3], 3))]})
def w22_9 : State := sS (fun x => {x with returning := some (pd 1 0xA05), lifecycle := 2}) (fun s => {s with nvm := {bankA := [(7, {header := storeHeader 7 1 [1] false, payload := [1]}), (2, {header := storeHeader 2 4 [1] false, payload := [1]})]}, flash := {vols := [(3, {owner := 1, extents := 4})]}})
def w22_10 : State := sS id (fun s => {s with nvm := {bankA := [(2, {header := storeHeader 2 1 [1] false, payload := [1]}), (6, {header := storeHeader 6 4 [1] false, payload := [1]})], bankB := [(2, {header := storeHeader 2 7 [9] true, payload := [9]})], writes := [⟨2, [5, 5], none⟩, ⟨2, [6], none⟩]}})
def stW (typ fin off : Nat) (d : Bytes) : Bytes := leBytes 8 (typ + 2^8 * fin + off * 2^32) ++ d
def ownP (req vd gen : Nat) (sig : Bytes) : Bytes := List.replicate 136 7 ++ leBytes 8 (req + 2 * vd + gen * 2^32) ++ sig
def w22_14 : FwReq := rq 0 1 (ownP 1 0 9 (zeros 136))
def w22_21 : Staging := stg fun g => {g with ranges := []}
def acc (op space dist core addr len : Nat) (d : Bytes := []) : Bytes := leBytes 24 (op + space * 2^4 + dist * 2^16 + core * 2^32 + addr * 2^64 + len * 2^128) ++ d
def seD (lv : Nat) (lc : Nat := 0) (g : State → State := id) (e : Option Nat := none) : State := sS (fun x => {x with lifecycle := lc, session := some ⟨lv, false, 1, e⟩}) fun s => g { s with dists := [(1, { d1 with q := 1, quarters := [0], segs := [(1, { seg1 with dbase := 4096})], cores := [(3, {sram := [(5, 5)]})] })], backs := [(1, { tier := 1, units := [0], size := 4096, data := [(4, 5)] })] }
def halted (s : State) : State := modDist s 1 fun x => {x with dbgHalt := true, dbgSteps := 3}
def w22_24 : State := seD 2 2 (e := some 4000000)
def w22_25 : State := seD 2 2 (e := some 6000000)
def w22_26 : State := sS (fun x => {x with lifecycle := 2, zeroising := some (some (pd 0 0xC01), .scan ⟨3, false, 1, some 77⟩)})
def w22_27 : State := sS (fun x => {x with lifecycle := 2, zeroising := some (some (pd 0 0xA05), .toReturn)})
def w22_29 : State := fresh 2 (fun x => {x with nonce := some (nn, 5)})
def w22_35 : FwReq := rq 0 1 (acc 0 3 1 0 4098 7)
def w22_36 : FwReq := rq 0 1 (acc 1 1 1 3 0x20000 2 [8, 9])
def w22_38 : FwReq := rq 0 1 (acc 1 3 1 3 4099 2 [8, 9])
def w22_39 : Session := ⟨2, false, 1, some 4000000⟩
def w22_40 : Session := ⟨2, false, 1, some 6000000⟩
def w22_41 : Seg := { seg1 with dbase := 4096}

/-- What SecurityCommandsComplete assumes, clause by clause. -/
theorem test_SecurityCommandsComplete_met :
    (let c := rq 0 1 (le 8 664); let s := sS; let p := c.payload; Sendable specSecUpdateBegin c s ∧ p.length = 8 ∧ zeroAt p [(63, 32)] = true ∧
     fld p 31 0 ≤ bundleMax) ∧
    (let c := rq 0 1 (le 8 8 ++ [1, 2, 3]); let s := w22_1; let p := c.payload; let g := w22_21; s.sec.update = some g ∧ memWf g.data = true ∧
     Sendable specSecUpdateData c s ∧ dataFormOk p = true ∧ (dataChecks p (some g)).all (fun e => !e.1) = true) ∧
    (let s := w22_4; let w := pd 1 2562; let m := bm; let l : List (Pend × Nat × Mem) := [(pd 1 2562, 0, [])]; s.sec.slotWrites = (w, 1, m) :: l ∧
     (getFn s w.req.fn).epoch = w.epoch) ∧
    (let s := w22_9; let w := pd 1 2565; s.sec.returning = some w ∧ s.nvm.writes = [] ∧ (getFn s w.req.fn).epoch = w.epoch) ∧
    (let s := w22_10; let w := { typ := 2, payload := [5, 5] }; let ws : List StoreWrite := [{ typ := 2, payload := [6] }]; s.nvm.writes = w :: ws ∧
     s.pins.aonRst = false ∧ (¬w.typ ∈ [stIdentity, stCounters, stOwner])) ∧
    (let c := rq 0 1; let s := sS; let p := c.payload; let r := runningOf 0 (bm); s.sec.running = some r ∧ s.sec.counters.length = 8 ∧
     Sendable specSecRollback c s ∧ p = []) ∧
    (let c := rq 0 1; let s := sS; let p := c.payload; Sendable specSecInfo c s ∧ p = []) ∧
    (let c := rq 0 1; let s := w22_1; let p := c.payload; let g := w22_21; s.sec.update = some g ∧ Sendable specSecUpdateEnd c s ∧ p = [] ∧
     updateOk s g = false) ∧
    (let c := w22_14; let s := sS; let p := c.payload; Sendable specSecOwner c s ∧ p.length = 280 ∧ zeroAt p [(1119, 1090)] = true ∧
     ownerPermitted s p = false) ∧
    (let c := w22_14; let s := fresh 1; let p := c.payload; Sendable specSecOwner c s ∧ p.length = 280 ∧ zeroAt p [(1119, 1090)] = true ∧
     ownerPermitted s p = true ∧ s.sec.counters.length = 8) ∧
    (let c := rq 0 1 (le 8 1); let s := sS; let p := c.payload; let typ := fld p 7 0; Sendable specSecStore c s ∧ 8 ≤ p.length ∧ p.length ≤ 456 ∧
     zeroAt p [(31, 9)] = true ∧ slotSize typ ≠ 0 ∧ storeTypeOk s typ = true ∧ 32 + fld p 63 32 + (p.length - 8) ≤ slotSize typ ∧
     (bit p 8 = true → typ = stBoard → boardOk (storeRecord s p) = true) ∧ (bit p 8 = false ∨ typ = stIdentity)) ∧
    (let c := rq 0 1 (le 8 1); let s := w22_7; let p := c.payload; Sendable specSecLifecycle c s ∧ lifecycleForm p = true ∧
     lifecycleTargetOk s (fld p 1 0) = true ∧ dbgLevel s < 2 ∧ s.sec.zeroising = none ∧ s.sec.returning = none ∧ s.pwr.state ≠ 2 ∧
     retainEntering s = false ∧ fld p 1 0 ≠ 3) ∧
    (let c := rq 0 1 (le 8 3 ++ zeros 264); let s := fresh 2; let p := c.payload; Sendable specSecLifecycle c s ∧ lifecycleForm p = true ∧
     lifecycleTargetOk s (fld p 1 0) = true ∧ dbgLevel s < 2 ∧ s.sec.zeroising = none ∧ s.sec.returning = none ∧ s.pwr.state ≠ 2 ∧
     retainEntering s = false ∧ fld p 1 0 = 3 ∧ tokenFail s (p.drop 8) 1 0 = some 1) ∧
    (let c := rq 0 1 (stW 7 1 3 [1, 2]); let s := sS; let p := c.payload; let typ := fld p 7 0; Sendable specSecStore c s ∧ 8 ≤ p.length ∧
     p.length ≤ 456 ∧ zeroAt p [(31, 9)] = true ∧ slotSize typ ≠ 0 ∧ storeTypeOk s typ = true ∧ 32 + fld p 63 32 + (p.length - 8) ≤ slotSize typ ∧
     (bit p 8 = true → typ = stBoard → boardOk (storeRecord s p) = true) ∧ bit p 8 = true ∧ typ ≠ stIdentity) := by
  refine ⟨?_, ?_, ?_, ?_, ?_, ?_, ?_, ?_, ?_, ?_, ?_, ?_, ?_, ?_⟩ <;> (and_intros <;> first | decide +kernel | (constructor <;> first | decide +kernel | exact ⟨_, rfl, rfl⟩) | (intro _ h; cases h; decide +kernel) | (intro _; rfl) | (intro _ _ h; cases h) | (intro _ h; cases h))

/-- What DebugCommandsComplete assumes, clause by clause. -/
theorem test_DebugCommandsComplete_met :
    (let c := rq 0 1; let s := sS; let p := c.payload; Sendable specDbgNonce c s ∧ p = []) ∧
    (let c := rq 0 1; let s := sS; let p := c.payload; Sendable specDbgInfo c s ∧ p = []) ∧
    (let s := fresh 1; let n := nn; s.sec.nonce = some (n, 10 ^ 12) ∧ time s < 10 ^ 12) ∧
    (let c := rq 0 1; let s := seD 1; let p := c.payload; let x := { level := 1, jtag := false, signer := 1, expires := none };
     s.sec.session = some x ∧ x.level ≠ 0 ∧ Sendable specDbgClose c s ∧ p = []) ∧
    (let s := w22_24; let x := w22_39; s.sec.session = some x ∧ x.level ≠ 0 ∧ x.expires = some 4000000 ∧ s.pins.sysRst = false ∧ 4000000 ≤ time s) ∧
    (let s := w22_25; let x := w22_40; s.sec.session = some x ∧ x.level ≠ 0 ∧ x.expires = some 6000000 ∧ s.pins.sysRst = false ∧ time s < 6000000) ∧
    (let s := w22_26; let w := pd 0 3073; let x := { level := 3, jtag := false, signer := 1, expires := some 77 };
     s.sec.zeroising = some (some w, ZeroWhy.scan x) ∧ w.req.fn = 0 ∧ (getFn s 0).epoch = w.epoch ∧ x.level = 3 ∧ (s.dists.map (·.1)).Nodup) ∧
    (let s := w22_27; let w := some (pd 0 2565); s.sec.zeroising = some (w, ZeroWhy.toReturn)) ∧
    (let s := w22_29; let n := nn; s.sec.nonce = some (n, 5) ∧ 5 ≤ time s) ∧
    (let c := rq 0 1 (le 8 1); let s := sS; let p := c.payload; let l := fld p 1 0; Sendable specDbgOpen c s ∧ openForm s p = true ∧
     (openChecks s p).all (fun e => !e.1) = true ∧ openToken s p = none ∧ openTwoStage s p = false ∧ l ≠ 3) ∧
    (let c := rq 0 1 (le 8 2 ++ zeros 264); let s := fresh 2; let p := c.payload; Sendable specDbgOpen c s ∧ openForm s p = true ∧
     (openChecks s p).all (fun e => !e.1) = true ∧ openToken s p = some 1) ∧
    (let c := rq 0 1 (acc 0 1 1 3 4 4); let s := seD 2; let p := c.payload; let a := accessOf p; Sendable specDbgAccess c s ∧ accessForm p = true ∧
     (accessChecks s a).all (fun e => !e.1) = true ∧ s.pwr.state = 0 ∧ a.op = 0 ∧ a.space = 1) ∧
    (let c := w22_35; let s := seD 2; let p := c.payload; let a := accessOf p; let e := w22_41; Sendable specDbgAccess c s ∧ accessForm p = true ∧
     (accessChecks s a).all (fun e => !e.1) = true ∧ s.pwr.state = 0 ∧ a.op = 0 ∧ a.space = 3 ∧ segAt s a.dist a.addr = some (1, e)) ∧
    (let c := w22_36; let s := seD 2; let p := c.payload; let a := accessOf p; Sendable specDbgAccess c s ∧ accessForm p = true ∧
     (accessChecks s a).all (fun e => !e.1) = true ∧ s.pwr.state = 0 ∧ a.op = 1 ∧ a.space = 1 ∧ memWf (getCore s a.dist a.core).sram = true) ∧
    (let c := w22_38; let s := seD 2; let p := c.payload; let a := accessOf p; let e := w22_41; Sendable specDbgAccess c s ∧ accessForm p = true ∧
     (accessChecks s a).all (fun e => !e.1) = true ∧ s.pwr.state = 0 ∧ a.op = 1 ∧ a.space = 3 ∧ segAt s a.dist a.addr = some (1, e) ∧ e.tier ≠ 3 ∧
     memWf (getBack s e.bid).data = true) ∧
    (let c := rq 0 1 (acc 2 0 1 3 0 0); let s := seD 2; let p := c.payload; let a := accessOf p; Sendable specDbgAccess c s ∧ accessForm p = true ∧
     (accessChecks s a).all (fun e => !e.1) = true ∧ s.pwr.state = 0 ∧ a.op = 2) ∧
    (let c := rq 0 1 (acc 3 0 1 3 0 0); let s := seD 2; let p := c.payload; let a := accessOf p; Sendable specDbgAccess c s ∧ accessForm p = true ∧
     (accessChecks s a).all (fun e => !e.1) = true ∧ s.pwr.state = 0 ∧ a.op = 3) ∧
    (let c := rq 0 1 (acc 4 0 1 3 0 0); let s := seD 2 0 halted; let p := c.payload; let a := accessOf p; Sendable specDbgAccess c s ∧
     accessForm p = true ∧ (accessChecks s a).all (fun e => !e.1) = true ∧ s.pwr.state = 0 ∧ a.op = 4 ∧ (getDist s a.dist).dbgHalt = true) := by
  refine ⟨?_, ?_, ?_, ?_, ?_, ?_, ?_, ?_, ?_, ?_, ?_, ?_, ?_, ?_, ?_, ?_, ?_, ?_⟩ <;> (and_intros <;> first | decide +kernel | (constructor <;> first | decide +kernel | exact ⟨_, rfl, rfl⟩) | (intro _ h; cases h; decide +kernel) | (intro _; rfl) | (intro _ _ h; cases h) | (intro _ h; cases h))

/-- The token's device identity (the second check of R436) and its signature (the fourth) hold; whether they do depends on the opaque cryptography of
Config. -/
def genuine (s : State) (t : Bytes) (purpose level : Nat) : Prop :=
  (tokenChecks s t purpose level).getD 1 false = true ∧ (tokenChecks s t purpose level).getD 3 false = true
theorem token_passes (s : State) (t : Bytes) (purpose level : Nat) (h : genuine s t purpose level)
    (h1 : (tokenChecks s t purpose level).getD 0 false = true) (h3 : (tokenChecks s t purpose level).getD 2 false = true)
    (h5 : (tokenChecks s t purpose level).getD 4 false = true) (h6 : (tokenChecks s t purpose level).getD 5 false = true) :
    tokenFail s t purpose level = none := by
  obtain ⟨h2, h4⟩ := h
  have e : tokenChecks s t purpose level = [true, true, true, true, true, true] := by
    unfold tokenChecks at *
    simp only [List.getD_cons_zero, List.getD_cons_succ] at h1 h2 h3 h4 h5 h6
    rw [h1, h2, h3, h4, h5, h6]
  rw [tokenFail, e]; rfl
/-- A token for device nonce 0x1234. -/
def tokB (purpose level signer : Nat) : Bytes :=
  leBytes 128 (0x4E4B5444 + 1 * 2^32 + level * 2^40 + signer * 2^42 + purpose * 2^43 + 0x1234 * 2^640) ++ List.replicate 136 1


/-- SecurityCommandsComplete, SEC_UPDATE_END: the witness, for a bundle whose signature holds. -/
theorem test_SecurityCommandsComplete_update (hs : signed bm) : let c := rq 0 1; let s := w22_2; let g := stg; s.sec.update = some g ∧
    Sendable specSecUpdateEnd c s ∧ c.payload = [] ∧ updateOk s g = true := by
  refine ⟨rfl, ?_, rfl, ?_⟩
  · constructor <;> first | decide +kernel | exact ⟨_, rfl, rfl⟩
  · have h : bundleFail w22_2.sec stg.data = none := by
      refine bundle_passes _ _ hs ?_ ?_ ?_ rfl <;> decide +kernel
    have f : (fullyWritten stg && bundleLen stg.data == stg.len) = true := by decide +kernel
    show (fullyWritten stg && bundleLen stg.data == stg.len && (bundleFail w22_2.sec stg.data).isNone) = true
    rw [h, f]; rfl

/-- SecurityCommandsComplete, SEC_LIFECYCLE to RETURN: the witness, for a genuine token. -/
theorem test_SecurityCommandsComplete_return (ht : genuine (fresh 2) (tokB 1 0 0) 1 0) : let c := rq 0 1 (le 8 3 ++ tokB 1 0 0); let s := fresh 2; let p := c.payload
    Sendable specSecLifecycle c s ∧ lifecycleForm p = true ∧ lifecycleTargetOk s (fld p 1 0) = true ∧ dbgLevel s < 2 ∧
    s.sec.zeroising = none ∧ s.sec.returning = none ∧ s.pwr.state ≠ 2 ∧ retainEntering s = false ∧ fld p 1 0 = 3 ∧
    tokenFail s (p.drop 8) 1 0 = none ∧ (s.dists.map (·.1)).Nodup := by
  have e : (le 8 3 ++ tokB 1 0 0).drop 8 = tokB 1 0 0 := by decide +kernel
  refine ⟨?_, ?_, ?_, ?_, ?_, ?_, ?_, ?_, ?_, ?_, ?_⟩
  · constructor <;> first | decide +kernel | exact ⟨_, rfl, rfl⟩
  case refine_10 => show tokenFail _ ((le 8 3 ++ tokB 1 0 0).drop 8) 1 0 = none; rw [e]; exact token_passes _ _ _ _ ht (by decide +kernel) (by decide +kernel) (by decide +kernel) (by decide +kernel)
  all_goals decide +kernel

/-- DebugCommandsComplete, DBG_OPEN at SCAN in two stages: the witness, for a genuine token. -/
theorem test_DebugCommandsComplete_scan (ht : genuine (fresh 1) (tokB 0 3 1) 0 3) : let c := rq 0 1 (le 8 3 ++ tokB 0 3 1); let s := fresh 1; let p := c.payload
    Sendable specDbgOpen c s ∧ openForm s p = true ∧ (openChecks s p).all (fun e => !e.1) = true ∧ openToken s p = none ∧
    openTwoStage s p = true ∧ (s.dists.map (·.1)).Nodup := by
  have e : (le 8 3 ++ tokB 0 3 1).drop 8 = tokB 0 3 1 := by decide +kernel
  have k : fld (le 8 3 ++ tokB 0 3 1) 1 0 = 3 := by decide +kernel
  refine ⟨?_, ?_, ?_, ?_, ?_, ?_⟩
  · constructor <;> first | decide +kernel | exact ⟨_, rfl, rfl⟩
  case refine_4 =>
    show openToken _ (le 8 3 ++ tokB 0 3 1) = none
    unfold openToken; rw [e, k, token_passes _ _ 0 3 ht (by decide +kernel) (by decide +kernel) (by decide +kernel) (by decide +kernel)]; exact ite_self _
  all_goals decide +kernel

end P22

namespace P23
def pS (f : Pwr → Pwr := id) (g : State → State := id) : State := g { up2 with pwr := f up2.pwr }
def sh4 : Seg := { seg1 with tier := 4, bid := 2 }
def dk : State → State := fun s => { s with dists := [(1, { d1 with segs := [(1, seg1), (2, sh4)], cores := [(3, { sram := [(5, 5)], pairs := [(0, {})] })] }), (2, { d1 with state := 5, cores := [(3, { sram := [(5, 5)] })] })], backs := [(2, { tier := 4, units := [0], size := 4096, data := [(3, 3)] })], links := { ports := [(2, {state := 2}), (5, {state := 1})] } }
def ses (l : Nat) (s : State) : State := { s with sec := { s.sec with session := some ⟨l, false, 1, none⟩ } }
def w23_1 : State := pS (fun p => {p with state := 1, idleUs := 5, autoWake := true})
def w23_2 : State := pS (fun p => {p with state := 2})
def w23_3 : State := pS (fun p => {p with going := some (2, some (pd 1 0xB00))}) dk
def w23_4 : State := pS (fun p => {p with going := some (0, some (pd 1 0xB00)), state := 2, retainPorts := [2, 5]}) dk
def w23_5 : State := pS (fun p => {p with offAt := some 5000000}) (ses 2)
def w23_6 : State := pS (fun p => {p with offAt := some 5000001})
def w23_7 : State := pS (fun p => {p with idleUs := 1000, lastIssue := 4000000})
def w23_8 : State := pS (fun p => {p with idleUs := 1000, lastIssue := 4000001})
def w23_9 : State := pS (fun p => {p with state := 1, waking := true})
def w23_10 : State := pS id (fun s => {s with dists := [(1, {d1 with state := 3})]})
def w23_11 : State := pS id (fun s => {s with dists := [(1, {d1 with dbgHalt := true})]})
def w23_12 : State := pS (fun p => {p with idleUs := 1000, lastIssue := 4000000}) (fun s => {s with dists := [(1, {d1 with dbgHalt := true})]})
def w23_13 : State := pS (fun p => {p with idleUs := 1000, lastIssue := 4000000}) (ses 3)
def pst : List State := [pS, w23_1, w23_2, w23_3, w23_4, w23_5, w23_6, w23_7, w23_8, w23_9, pS id (ses 2), pS id (ses 1 ∘ dk), pS id (ses 3), w23_10, w23_11, w23_12, w23_13]
def wl23_15 : List Err := pst.filterMap retainBlocker
def mq (e w : Nat) : AMap Nat := (List.range 32).map fun q => (q, if q < 16 then e + 10 * (q % 2) else w)
def cS (f : Pwr → Pwr := id) : State := { up2 with pwr := f up2.pwr }
def w23_17 : State := cS fun p => {p with raising := true, mvE := 650, mvW := 650, mhz := mq 1100 1200}
def w23_20 : State := cS fun p => {p with tEast := 101, throttling := true, mhz := mq 850 2000}

/-- What PowerCommandsComplete assumes, clause by clause. -/
theorem test_PowerCommandsComplete_met :
    (let c := rq 0 1 (le 8 0); let s := w23_1; let p := c.payload; let g := fld p 1 0; Sendable specPwrState c s ∧ p.length = 8 ∧
     zeroAt p [(7, 2), (31, 10)] = true ∧ s.sec.zeroising = none ∧ s.sec.returning = none ∧ s.pwr.going = none ∧ s.pwr.offAt = none ∧ g = 0 ∧
     bit p 9 = false ∧ s.pwr.state = 1) ∧
    (let c := rq 0 1 (le 8 0); let s := w23_2; let p := c.payload; let g := fld p 1 0; Sendable specPwrState c s ∧ p.length = 8 ∧
     zeroAt p [(7, 2), (31, 10)] = true ∧ s.sec.zeroising = none ∧ s.sec.returning = none ∧ s.pwr.going = none ∧ s.pwr.offAt = none ∧ g = 0 ∧
     bit p 9 = false ∧ s.pwr.state = 2) ∧
    (let s := w23_3; let w := pd 1 2816; s.pwr.going = some (2, some w) ∧ (getFn s w.req.fn).epoch = w.epoch) ∧
    (let s := w23_4; let w := pd 1 2816; s.pwr.going = some (0, some w) ∧ (getFn s w.req.fn).epoch = w.epoch) ∧
    (let s := w23_5; s.pwr.offAt = some 5000000 ∧ 5000000 ≤ time s) ∧
    (let s := w23_6; s.pwr.offAt = some 5000001 ∧ time s < 5000001) ∧
    (let s := w23_7; s.pins.sysRst = false ∧ s.pwr.state = 0 ∧ s.pwr.going = none ∧ s.pwr.offAt = none ∧ s.pwr.idleUs ≠ 0 ∧ dbgLevel s ≠ 3 ∧
     debugHalted s = false ∧ s.pwr.lastIssue + 1000 * s.pwr.idleUs ≤ time s) ∧
    (let s := w23_8; s.pins.sysRst = false ∧ s.pwr.state = 0 ∧ s.pwr.going = none ∧ s.pwr.offAt = none ∧ s.pwr.idleUs ≠ 0 ∧
     (dbgLevel s = 3 ∨ debugHalted s = true ∨ time s < s.pwr.lastIssue + 1000 * s.pwr.idleUs)) ∧
    (let s := w23_9; s.pwr.state = 1 ∧ s.pwr.waking = true) ∧
    (let c := rq 0 1 (le 8 1); let s := pS; let p := c.payload; let g := fld p 1 0; Sendable specPwrState c s ∧ p.length = 8 ∧
     zeroAt p [(7, 2), (31, 10)] = true ∧ s.sec.zeroising = none ∧ s.sec.returning = none ∧ s.pwr.going = none ∧ s.pwr.offAt = none ∧ g = 1 ∧
     bit p 9 = false ∧ s.pwr.state = 0 ∧ dbgLevel s ≠ 3) ∧
    (let c := rq 0 1 (le 8 2); let s := pS; let p := c.payload; let g := fld p 1 0; Sendable specPwrState c s ∧ p.length = 8 ∧
     zeroAt p [(7, 2), (31, 10)] = true ∧ s.sec.zeroising = none ∧ s.sec.returning = none ∧ s.pwr.going = none ∧ s.pwr.offAt = none ∧ g = 2 ∧
     bit p 9 = false ∧ s.pwr.state ∈ [0, 1] ∧ retainBlocker s = none) ∧
    (let c := rq 0 1 (le 8 2); let s := w23_10; let p := c.payload; let g := fld p 1 0; let e := wl23_15[0]'(by decide); Sendable specPwrState c s ∧
     p.length = 8 ∧ zeroAt p [(7, 2), (31, 10)] = true ∧ s.sec.zeroising = none ∧ s.sec.returning = none ∧ s.pwr.going = none ∧ s.pwr.offAt = none ∧
     g = 2 ∧ bit p 9 = false ∧ s.pwr.state ∈ [0, 1] ∧ retainBlocker s = some e) ∧
    (let c := rq 0 1 (le 8 3); let s := pS; let p := c.payload; let g := fld p 1 0; Sendable specPwrState c s ∧ p.length = 8 ∧
     zeroAt p [(7, 2), (31, 10)] = true ∧ s.sec.zeroising = none ∧ s.sec.returning = none ∧ s.pwr.going = none ∧ s.pwr.offAt = none ∧ g = 3 ∧
     (bit p 9 = true ∨ retainBlocker s = none) ∧ (s.dists.map (·.1)).Nodup) ∧
    (let c := rq 0 1 (le 8 900); let s := pS; let p := c.payload; Sendable specPwrCap c s ∧ p.length = 8 ∧ zeroAt p [(63, 16)] = true ∧
     900 ≤ fld p 15 0 ∧ fld p 15 0 ≤ 1800) ∧
    (let c := rq 0 255; let s := pS; let p := c.payload; Sendable specPwrInfo c s ∧ p = []) := by
  refine ⟨?_, ?_, ?_, ?_, ?_, ?_, ?_, ?_, ?_, ?_, ?_, ?_, ?_, ?_, ?_⟩ <;> (and_intros <;> first | decide +kernel | (constructor <;> first | decide +kernel | exact ⟨_, rfl, rfl⟩) | (intro _ h; cases h; decide +kernel) | (intro _; rfl) | (intro _ _ h; cases h) | (intro _ h; cases h))

/-- What ClocksFollowPowerAndHeat assumes, clause by clause. -/
theorem test_ClocksFollowPowerAndHeat_met :
    (let s := cS; s.pins.aonRst = false ∧ (∀ (q : Nat), q < 32 → 800 ≤ quarterMhz s.pwr q)) ∧
    (let s := cS; s.pins.aonRst = false ∧ (∀ (q : Nat), q < 32 → 800 ≤ quarterMhz s.pwr q)) ∧
    (let s := cS; s.pins.aonRst = false ∧ (∀ (q : Nat), q < 32 → 800 ≤ quarterMhz s.pwr q)) ∧
    (let s := cS; s.pins.aonRst = false ∧ (∀ (q : Nat), q < 32 → 800 ≤ quarterMhz s.pwr q)) ∧
    (let s := cS; s.pins.aonRst = false ∧ (∀ (q : Nat), q < 32 → 800 ≤ quarterMhz s.pwr q)) ∧
    (let s := cS; s.pins.aonRst = false ∧ (∀ (q : Nat), q < 32 → 800 ≤ quarterMhz s.pwr q) ∧ hottestNow s.pwr < 100) ∧
    (let s := cS; s.pins.aonRst = false ∧ (∀ (q : Nat), q < 32 → 800 ≤ quarterMhz s.pwr q)) ∧
    (let s := w23_17; s.pins.aonRst = false ∧ (∀ (q : Nat), q < 32 → 800 ≤ quarterMhz s.pwr q) ∧ s.pwr.raising = true ∧ s.pwr.prochot = false ∧
     hottestNow s.pwr < 97 ∧ s.pwr.lastThrottle + 1000000 ≤ time s) ∧
    (let s := w23_20; s.pins.aonRst = false ∧ (∀ (q : Nat), q < 32 → 800 ≤ quarterMhz s.pwr q) ∧ s.pwr.lastThrottle + 50000 ≤ time s ∧
     100 ≤ hottestNow s.pwr) := by
  refine ⟨?_, ?_, ?_, ?_, ?_, ?_, ?_, ?_, ?_⟩ <;> (and_intros <;> first | decide +kernel | (constructor <;> first | decide +kernel | exact ⟨_, rfl, rfl⟩) | (intro _ h; cases h; decide +kernel) | (intro _; rfl) | (intro _ _ h; cases h) | (intro _ h; cases h))

end P23

namespace P24
def sS (f : Sec → Sec := id) (g : State → State := id) : State := g { up2 with sec := f { boot := 3, lifecycle := 0, keys := true, running := some (runningOf 0 (bm)) } }
def nn : BitVec 256 := 0x1234
def own : Owner := { key := List.replicate 136 1, require := true, vendorDebug := true, gen := 4 }
def fresh (l : Nat) (f : Sec → Sec := id) (g : State → State := id) : State := sS (fun x => f { x with lifecycle := l, nonce := some (nn, 10^12), owner := some own, identity := some [7] }) g
def acc (op space dist core addr len : Nat) (d : Bytes := []) : Bytes := leBytes 24 (op + space * 2^4 + dist * 2^16 + core * 2^32 + addr * 2^64 + len * 2^128) ++ d
def seD (lv : Nat) (lc : Nat := 0) (g : State → State := id) (e : Option Nat := none) : State := sS (fun x => {x with lifecycle := lc, session := some ⟨lv, false, 1, e⟩}) fun s => g { s with dists := [(1, { d1 with q := 1, quarters := [0], segs := [(1, { seg1 with dbase := 4096})], cores := [(3, {sram := [(5, 5)]})] })], backs := [(1, { tier := 1, units := [0], size := 4096, data := [(4, 5)] })] }
def w24_1 : State := {up2 with pins := {up2.pins with sysRst := true}}
def copy (ty : Nat) (p : Bytes) (q : Nat := 1) (torn : Bool := false) : StoreCopy := { header := storeHeader ty q p torn, payload := p }
def nv : Nvm := { bankA := [(2, copy 2 [1]), (6, copy 6 [2] 5), (7, copy 7 [4])], bankB := [(2, copy 2 [9] 3), (6, copy 6 [3] 4), (7, copy 7 [8] 9 true)], writes := [⟨2, [5, 5], none⟩, ⟨5, [6], none⟩] }
def r1 : State := { up2 with nvm := nv, flash := { vols := [(3, {owner := 1, extents := 4}), (4, {owner := 1, extents := 4, creating := some (pd 1 5)})], blocks := [(1, {erases := 4})] }, links := { cfg := {routes := [(1, 2)]}, ports := [(2, {state := 2})] }, fns := [(1, {inbox := [(5, 5)], held := [{req := {fn := 1}, cmd := 5, hdrOk := true}], ring := ring1}), (0, {})], health := {level := 3, fatal := some 4}, adv := [(1, {value := 5, unread := true})], pcie := {up2.pcie with downCount := 6}, sec := {up2.sec with slotWrites := [(pd 1 5, 1, [(1, 1)])]} }
def rst (a y p yp : Bool) (s : State := r1) : State := { s with pins := { aonRst := a, sysRst := y, perst := p, sysPin := yp } }
def bundle2 (svn rel : Nat) (good : Bool) : Bytes := leBytes 4 0x42584F56 ++ [1, 0, 0, 0] ++ leBytes 4 (392 + 272) ++ leBytes 4 svn ++ leBytes 4 rel ++ List.replicate (256 - 20) 0 ++ List.replicate 136 3 ++ List.replicate 135 4 ++ [if good then 4 else 0xEE] ++ List.replicate 136 4
def bn (a b : Bytes) : Nvm := { slotA := memOf a, slotB := memOf b }
def bs (n : Nvm) : State := { up2 with dists := [], backs := [], nvm := n, sec := { boot := 1 } }
def rs (n : Nvm) (f : State → State := id) : State := f { State.reset with pins := { aonRst := false, sysRst := true, perst := true, sysPin := true }, now := 77, nvm := n }
def w24_9 : State := bs (bn (bundle2 1 1 true) [])
def w24_14 : State := { up with training := some {lpRates := [(0, 6400)]}, indexOk := false}
def w24_16 : TrainingResult := {}
def w24_17 : TrainingResult := {lpRates := [(0, 6400)]}

/-- What JtagCompletes assumes, clause by clause. -/
theorem test_JtagCompletes_met :
    (let s := up2; s.pins.sysRst = false ∧
     Instr.jtagExtest ∈ [Instr.jtagExtest, Instr.jtagClamp, Instr.jtagHighz, Instr.jtagExtestPulse, Instr.jtagExtestTrain]) ∧
    (let s := up2; jtagDebugUp s = true) ∧
    (let s := up2; let p := le 8 1; jtagDebugUp s = true ∧ openForm s p = true ∧ (openChecks s p).all (fun e => !e.1) = true ∧ openToken s p = none ∧
     openTwoStage s p = false ∧ fld p 1 0 ≠ 3) ∧
    (let s := up2; dbgLevel s ≠ 3) ∧
    (let s := fresh 2; let p := le 8 2 ++ zeros 264; jtagDebugUp s = true ∧ openForm s p = true ∧ (openChecks s p).all (fun e => !e.1) = true ∧
     openToken s p = some 1) ∧
    (let s := seD 2; let p := acc 0 1 1 3 4 4; jtagDebugUp s = true ∧ accessForm p = true ∧ (accessChecks s (accessOf p)).all (fun e => !e.1) = true ∧
     s.pwr.state = 0 ∧ (accessOf p).op = 0 ∧ (accessOf p).space = 1) ∧
    (let s := seD 3; jtagDebugUp s = true) ∧
    (let s := w24_1; s.pins.sysRst = true ∧
     (Instr.jtagExtest, 1, 0) ∈ [(Instr.jtagExtest, 1, 0), (Instr.jtagExtestPulse, 4, 5), (Instr.jtagExtestTrain, 5, 6)]) ∧
    (let s := w24_1; s.pins.sysRst = true ∧ (Instr.jtagClamp, 2, 3) ∈ [(Instr.jtagClamp, 2, 3), (Instr.jtagHighz, 3, 4)]) := by
  refine ⟨?_, ?_, ?_, ?_, ?_, ?_, ?_, ?_, ?_⟩ <;> (and_intros <;> first | decide +kernel | (constructor <;> first | decide +kernel | exact ⟨_, rfl, rfl⟩) | (intro _ h; cases h; decide +kernel) | (intro _; rfl) | (intro _ _ h; cases h) | (intro _ h; cases h))

/-- What ResetsClearTheirScope assumes, clause by clause. -/
theorem test_ResetsClearTheirScope_met :
    (let s := r1; s.pins.sysRst = false) ∧
    (let s := r1; s.pins.aonRst = false) ∧
    (let s := r1; s.pins.perst = false) ∧
    (let s := rst true true true true; s.pins.aonRst = true ∧ s.pins.sysPin = true) ∧
    (let s := rst true true true true; s.pins.aonRst = true ∧ s.pins.sysPin = true) := by
  refine ⟨?_, ?_, ?_, ?_, ?_⟩ <;> (and_intros <;> first | decide +kernel | (constructor <;> first | decide +kernel | exact ⟨_, rfl, rfl⟩) | (intro _ h; cases h; decide +kernel) | (intro _; rfl) | (intro _ _ h; cases h) | (intro _ h; cases h))

/-- What BootFollowsTheChain assumes, clause by clause. -/
theorem test_BootFollowsTheChain_met :
    (let s := w24_9; s.indexOk = true) ∧
    (let s := bs (bn [] []); slotOrder s.nvm = [0, 1] ∧ s.pins.sysRst = false ∧ s.sec.boot = 1 ∧ s.indexOk = true ∧ s.health.fatal = none ∧
     bundleFail s.sec (slotMem s.nvm 0) = some 1 ∧ bundleFail s.sec (slotMem s.nvm 1) = some 1) ∧
    (let s := rs (bn [] []); let r := w24_16; s.pins.sysPin = true ∧ s.pins.aonRst = false ∧ r.stacksOk = true) ∧
    (let s := w24_14; let r := w24_17; s.training = some r ∧ s.pins.sysRst = false ∧ s.indexOk = false ∧ s.sec.boot ≠ 4 ∧ s.health.fatal = none) := by
  refine ⟨?_, ?_, ?_, ?_⟩ <;> (and_intros <;> first | decide +kernel | (constructor <;> first | decide +kernel | exact ⟨_, rfl, rfl⟩) | (intro _ h; cases h; decide +kernel) | (intro _; rfl) | (intro _ _ h; cases h) | (intro _ h; cases h))

/-- What AbsentBoardRecordGivesTheDefaults assumes, clause by clause. -/
theorem test_AbsentBoardRecordGivesTheDefaults_met :
    let r := w24_16; let s := rs (bn [] []); s.pins.sysPin = true ∧ s.pins.aonRst = false ∧ r.stacksOk = true ∧ storeRead s.nvm stBoard 0 = none := by
  and_intros <;> first | decide +kernel | (constructor <;> first | decide +kernel | exact ⟨_, rfl, rfl⟩) | (intro _ h; cases h; decide +kernel) | (intro _; rfl) | (intro _ _ h; cases h) | (intro _ h; cases h)

/-- BootFollowsTheChain: a device whose slots hold `a` and `b`, with key counter 1. -/
def booting (a b : Mem) : State :=
  { up2 with dists := [], backs := [], nvm := { slotA := a, slotB := b }, sec := { boot := 1, counters := [0, 1, 0, 0, 0, 0, 0, 0] } }
/-- The bundle of `bm` with key 1. -/
def bm1 : Mem := [(0, 0x56), (1, 0x4F), (2, 0x58), (3, 0x42), (4, 1), (5, 1), (8, 0x98), (9, 2), (12, 1), (16, 2)]
/-- BootFollowsTheChain: the first slot's bundle boots, where its signature holds. -/
theorem test_BootFollowsTheChain_first (hs : signed bm1) : let s := booting bm1 bm; slotOrder s.nvm = [0, 1] ∧ s.pins.sysRst = false ∧ s.sec.boot = 1 ∧
    s.indexOk = true ∧ s.health.fatal = none ∧ bundleFail s.sec (slotMem s.nvm 0) = none := by
  refine ⟨?_, rfl, rfl, rfl, rfl, bundle_passes _ bm1 hs ?_ ?_ ?_ rfl⟩ <;> decide +kernel
/-- BootFollowsTheChain: the first slot's key is too old and the second slot's bundle boots, where its signature holds. -/
theorem test_BootFollowsTheChain_second (hs : signed bm1) : let s := booting bm bm1; slotOrder s.nvm = [0, 1] ∧ s.pins.sysRst = false ∧ s.sec.boot = 1 ∧
    s.indexOk = true ∧ s.health.fatal = none ∧ bundleFail s.sec (slotMem s.nvm 0) = some 2 ∧ bundleFail s.sec (slotMem s.nvm 1) = none := by
  refine ⟨?_, rfl, rfl, rfl, rfl, ?_, bundle_passes _ bm1 hs ?_ ?_ ?_ rfl⟩ <;> decide +kernel

end P24

namespace P25

/-- One command for each check of `wf`, with one number at its bound: refused. -/
theorem test_wf_refuses_each_bound :
    ([.configRead 32 0, .devNop (rq 32 0), .outboundSlotReturn 0 32, .msiModerationExpiry 0 64, .stepOpen 32, .tableChangeInstall 0 4,
      .descFetch 0 2048, .memCe 56, .memSegZeroFillDone 0 256, .flitSend 24, .laneLockLoss 0 4, .instanceClose 64, .chunkMessageReceive 0 24,
      .coldWarmingDone 0 256, .immediateEditApply 0 65536, .tokenGroupConvert 4, .mediaFrameEncode 2 ⟨[], [], [], [], []⟩, .jtagScanChain 16,
      .railOutOfRangeExpiry 12, .railCurrentLimit 2, .fwWatchdogExpiry 4] : List Instr).any Instr.wf = false := by decide +kernel

/-- The same commands with that number one lower: well formed. -/
theorem test_wf_takes_the_largest :
    ([.configRead 31 0, .devNop (rq 31 0), .outboundSlotReturn 0 31, .msiModerationExpiry 0 63, .stepOpen 31, .tableChangeInstall 0 3,
      .descFetch 0 2047, .memCe 55, .memSegZeroFillDone 0 255, .flitSend 23, .laneLockLoss 0 3, .instanceClose 63, .chunkMessageReceive 0 23,
      .coldWarmingDone 0 255, .immediateEditApply 0 65535, .tokenGroupConvert 3, .mediaFrameEncode 1 ⟨[], [], [], [], []⟩, .jtagScanChain 15,
      .railOutOfRangeExpiry 11, .railCurrentLimit 1, .fwWatchdogExpiry 3] : List Instr).all Instr.wf = true := by decide +kernel

/-! The statements over the whole machine and the number formats. -/

theorem test_NonFiniteAndZeroValuesAreWritten_met :
    f32 0x7FC00000 = .nan ∧ f32 0xFF800000 = .inf true ∧ fmtNarrow 4 = true ∧ (∃ y ∈ [0, 0x7F800000], fvNonfin (f32 y) = true) ∧
    ∀ y ∈ [0, 0x80000000], fvIsZero (f32 y) = true := by decide +kernel

/-- The owner of an OWNER record. -/
def own : Owner := { key := List.replicate 136 1, require := true, vendorDebug := false, gen := 4 }

theorem test_OwnerRecordIsRead_met :
    let s : State := { up with sec := { up.sec with owner := some own, lifecycle := lcField } }
    own.key.length = 136 ∧ own.gen < 2 ^ 32 ∧ own.gen < 5 ∧ 4 ≤ own.gen ∧ s.sec.owner = some own ∧ own.require = true ∧
    fld (memRead bm 0 8) 42 42 = 0 ∧ s.sec.lifecycle = lcField ∧ fld (zeros 264) 42 42 = 0 := by
  and_intros <;> decide +kernel

theorem test_StepRunsTheFrontOfTheQueue_met :
    ({ up with pending := [.configRead 0 0] } : State).pending = [.configRead 0 0] ∧ up.pending = [] ∧ State.reset.pins.aonRst = true ∧
    up.pins.aonRst = false ∧ up.links.lead = 0 ∧ up.links.slew = 0 ∧ clocksRun up = true ∧ clocksRun State.reset = false ∧
    (let s : State := { up with links := { up.links with slew := 2, slewCount := 1023 } }; s.links.lead = 0 ∧ 0 < s.links.slew ∧
      s.links.slewCount = 1023) := by
  and_intros <;> decide +kernel

/-- Requests of the refusals of R49 and R67, each with its state. -/
theorem test_RefusedCommandsChangeNothing_met :
    let wideK : Spec := specDevRecBegin
    ((rq 0 0).fn < 32 ∧ served (rom up) = true ∧ romServes (rom up) = true ∧ specPwrCap.romOk = false) ∧
    (served up = true ∧ romServes up = false ∧ 480 < (rq 0 0 (zeros 481)).payload.length ∧ (rq 0 0).payload.length ≤ 480) ∧
    (specSecInfo.pf0 = true ∧ (rq 1 1).fn ≠ 0 ∧ specProgLoad.pf0 = false ∧ (rq 0 0).fn = 0 ∧ dbgLevel up ≠ 3) ∧
    ((rq 1 2).fn ≠ 0 ∧ (rq 1 2).district.toNat ≠ (rq 1 2).fn) ∧ (32 ≤ (rq 0 40).district.toNat ∧ (rq 0 40).district.toNat ≤ 254) ∧
    (specDistInfo.wide = false ∧ (rq 0 255).district.toNat = 255 ∧ wideK.wide = true) ∧
    (specProgLoad.wide = false ∧ specProgLoad.emptyOk = false ∧ (getDist up (cmdDist (rq 1 1))).state = 0) ∧
    (served State.reset = false ∧ served up2 = true ∧ firstErr (headChecks specProgLoad true true (rq 1 1) up2) = none) ∧
    (let s : State := { up with sec := { up.sec with session := some ⟨3, false, 0, none⟩ } }; served s = true ∧ dbgLevel s = 3 ∧
      specProgLoad.scanOk = false) := by
  and_intros <;> decide +kernel

theorem test_WellFormedCommandsNeverStop_met :
    (Instr.devNop (rq 3 3)).wf = true ∧ queueWf { up with pending := [.jtagScanChain 15] } = true ∧ 32 ≤ (rq 32 0).fn := by
  and_intros <;> decide +kernel

theorem test_CommandsKeepQueuePopulationAndTime_met : isNext (exec .prochotAssert up) = true := by decide +kernel

theorem test_EveryStepKeepsTheInvariant_met :
    queueWf up = true ∧ (up.pins.aonRst = true → up.pins.sysRst = true) ∧ (up.pins.sysPin = true → up.pins.sysRst = true) ∧
    isNext (step { up with pending := [.prochotAssert] }) = true := by
  and_intros <;> decide +kernel

/-! Worked examples of the spec, and a few results computed by hand. -/

/-- Block 0 of the worked example of the number formats (FP8-E4M3, mode P): scale 0x78; 3.1, 0.01, 1e-5 and 5e-6 give 0x7C, 0x3A, 0x01 and 0. -/
theorem test_drain_block_of_worked_example :
    drainBlock 4 false false (fun _ => 0) [0x40466666, 0x3C23D70A, 0, 0x3727C5AC, 0x36A7C5AC, 0] =
      ([0x7C, 0x3A, 0, 0x01, 0, 0], 0x78, { zeros := 3, under := 1, elems := 6 }) := by decide +kernel

/-- Its stochastic rounding of 3.1: F is 26,214, so a draw below writes 416 (0x7D) and one at it writes 384 (0x7C). -/
theorem test_drain_block_stochastic :
    (drainBlock 4 false true (fun _ => 26213) [0x40466666]).1 = [0x7D] ∧ (drainBlock 4 false true (fun _ => 26214) [0x40466666]).1 = [0x7C] := by
  decide +kernel

/-- The table of the worked example of the exponent compression. -/
def wTable : Table := { fmt := 2, escLen := 5, id := 0, syms := ([122, 121, 123, 120, 124, 119, 0, 118, 125, 117, 116, 115, 114, 113, 126, 127].zip
  ([2, 2, 3, 3, 4, 5, 5, 6, 6, 6, 7, 7, 7, 7, 7, 7] : List Nat)) }

/-- Its code words as far as the source prints them, and its place header 0D 02 00 00 01 52 01 00. -/
theorem test_code_words_of_worked_example :
    ((tableWords wTable).take 7).map (fun w => (w.1, msbBits w.2.1 w.2.2)) = [(some 122, [false, false]), (some 121, [false, true]),
      (some 123, [true, false, false]), (some 120, [true, false, true]), (some 124, [true, true, false, false]),
      (some 119, [true, true, false, true, false]), (some 0, [true, true, false, true, true])] ∧
    placeOf [0x0D, 0x02, 0, 0, 0x01, 0x52, 0x01, 0] =
      { slot := 1, gen := 3, raw := false, sparse := false, fmt := 2, block := 0, modeF := false, rsvd := false, nelem := 256, clen := 338 } := by
  decide +kernel

/-- The ordered sum of the worked example of R213: 1, then 2^24, then 1 give 2^24. -/
theorem test_ordered_sum_of_worked_example :
    sumRows [leBytes 4 0x3F800000, leBytes 4 0x4B800000, leBytes 4 0x3F800000] = leBytes 4 0x4B800000 := by decide +kernel

/-- HOST_FLAGS in the worked example of R471: the read at T0 + 1,200 ns; the post one cycle before the clear leaves a count of 1. -/
theorem test_flags_of_worked_example :
    hostFlags { flags := [(0, ⟨1, none, true⟩)] } = 0x0000000000010001 ∧ flagSet (flagClear ⟨1, some 1, true⟩) = ⟨1, none, true⟩ ∧
    flagClear ⟨2, some 1, true⟩ = ⟨1, none, true⟩ ∧ flagClear ⟨1, some 1, true⟩ = ⟨0, none, false⟩ := by decide +kernel

/-- The source of the worked example of R10: core 37 of West's quarter 11 is 0x6E5. -/
theorem test_source_of_worked_example : coreSource { up with dists := [(1, { quarters := [27] })] } 1 37 = 0x6E5 := by decide +kernel

/-- A district command to an empty district is refused (R67): the reply waits, no district changes. -/
theorem test_prog_status_refused : goesTo (exec (.progStatus (rq 1 1 (le 8 1))) up) fun t => t.dists = [] ∧ (getFn t 1).replies.length = 1 := by
  refine ⟨_, rfl, ?_, ?_⟩ <;> decide +kernel

/-- PWR_CAP below 900 W is refused and leaves the cap; 900 W is taken (R441). -/
theorem test_pwr_cap : (∀ t, exec (.pwrCap (rq 0 255 (le 8 899))) up = .next t → t.pwr.capW = up.pwr.capW) ∧
    ∀ t, exec (.pwrCap (rq 0 255 (le 8 900))) up = .next t → t.pwr.capW = 900 := by
  constructor <;> (intro t h; cases h; decide +kernel)

end P25

end Sys2Proof.Tests
end

section
/-! The anchor of a state: its queue, its population, its time-base and its pins. One rule for each operation of the machine that
answers a state says that the operation keeps the anchor, and one rule for each command says the same of its meaning. Only SYNC_RECEIVE,
PWR_GOOD_FALL and the reset pins' commands move a part of it. Where an operation leaves the power state and the health record too, the rule
is about the vitals, and the anchor follows. (A rule that holds by definition is proved `by rfl` and not `:= rfl`, so that
`simp` and not `dsimp` uses it, also in the side condition of a fold.) -/

namespace Sys2Proof.Machine

/-- The queue, the population, the time-base and the pins of a state. -/
def anchor (s : State) : List Instr × Nat × BitVec 64 × Pins := (s.pending, s.population, s.now, s.pins)

theorem anchor_eq_iff (s t : State) :
    anchor t = anchor s ↔ t.pending = s.pending ∧ t.population = s.population ∧ t.now = s.now ∧ t.pins = s.pins := by
  simp only [anchor, Prod.mk.injEq]

@[simp] theorem anchor_fields (s : State) : (s.pending, s.population, s.now, s.pins) = anchor s := by rfl

@[simp] theorem anchor_mk (pending now freeCtr population pins indexOk index training board lpSites lpRate lpMib fns
    pcie emitted deferred held out lastRel sec nvm pwr health adv planned dists backs
    nextBid nextSig flash sites chans links groups pipes jtagCells jtagMode work cyc) :
    anchor (State.mk pending now freeCtr population pins indexOk index training board lpSites lpRate lpMib fns
      pcie emitted deferred held out lastRel sec nvm pwr health adv planned dists backs
      nextBid nextSig flash sites chans links groups pipes jtagCells jtagMode work cyc) =
    (pending, population, now, pins) := by rfl

@[simp] theorem anchor_ite {c : Prop} [Decidable c] (a b : State) : anchor (if c then a else b) = if c then anchor a else anchor b := by
  split <;> rfl

@[simp] theorem anchor_foldl {α} (g : State → α → State) (h : ∀ s x, anchor (g s x) = anchor s) (l : List α) (s : State) :
    anchor (l.foldl g s) = anchor s := by
  induction l generalizing s with
  | nil => rfl
  | cons x l ih => simp [ih, h]

/-- The anchor with the power state and the health record: what most operations leave. -/
def vitals (s : State) : List Instr × Nat × BitVec 64 × Pins × Pwr × Health := (s.pending, s.population, s.now, s.pins, s.pwr, s.health)

theorem vitals_eq_iff (s t : State) : vitals t = vitals s ↔ anchor t = anchor s ∧ t.pwr = s.pwr ∧ t.health = s.health := by
  simp only [vitals, anchor, Prod.mk.injEq, and_assoc]

theorem anchor_of_vitals {s t : State} (h : vitals t = vitals s) : anchor t = anchor s := ((vitals_eq_iff s t).mp h).1

@[simp] theorem vitals_fields (s : State) : (s.pending, s.population, s.now, s.pins, s.pwr, s.health) = vitals s := by rfl

@[simp] theorem vitals_mk (pending now freeCtr population pins indexOk index training board lpSites lpRate lpMib fns
    pcie emitted deferred held out lastRel sec nvm pwr health adv planned dists backs
    nextBid nextSig flash sites chans links groups pipes jtagCells jtagMode work cyc) :
    vitals (State.mk pending now freeCtr population pins indexOk index training board lpSites lpRate lpMib fns
      pcie emitted deferred held out lastRel sec nvm pwr health adv planned dists backs
      nextBid nextSig flash sites chans links groups pipes jtagCells jtagMode work cyc) =
    (pending, population, now, pins, pwr, health) := by rfl

@[simp] theorem vitals_ite {c : Prop} [Decidable c] (a b : State) : vitals (if c then a else b) = if c then vitals a else vitals b := by
  split <;> rfl

@[simp] theorem vitals_foldl {α} (g : State → α → State) (h : ∀ s x, vitals (g s x) = vitals s) (l : List α) (s : State) :
    vitals (l.foldl g s) = vitals s := by
  induction l generalizing s with
  | nil => rfl
  | cons x l ih => simp [ih, h]

theorem anchor_foldl_fst {α β} {g : State × β → α → State × β} (h : ∀ p x, anchor (g p x).1 = anchor p.1) (l : List α) (p : State × β) :
    anchor (l.foldl g p).1 = anchor p.1 := by
  induction l generalizing p with
  | nil => rfl
  | cons x l ih => simp [ih, h]

theorem anchor_foldl_snd {α β} {g : β × State → α → β × State} (h : ∀ p x, anchor (g p x).2 = anchor p.2) (l : List α) (p : β × State) :
    anchor (l.foldl g p).2 = anchor p.2 := by
  induction l generalizing p with
  | nil => rfl
  | cons x l ih => simp [ih, h]

@[simp] theorem anchor_when (due : Bool) (g : State → State) (h : ∀ s, anchor (g s) = anchor s) (s : State) :
    anchor (when due g s) = anchor s := by
  unfold when; split <;> simp [h]


/-! ## Flags -/

@[simp] theorem modFn_vitals (s f g) : vitals (modFn s f g) = vitals s := by rfl
@[simp] theorem modFn_anchor (s f g) : anchor (modFn s f g) = anchor s := anchor_of_vitals (modFn_vitals s f g)
@[simp] theorem setFlag_vitals (s f i) : vitals (setFlag s f i) = vitals s := by simp [setFlag]
@[simp] theorem setFlag_anchor (s f i) : anchor (setFlag s f i) = anchor s := anchor_of_vitals (setFlag_vitals s f i)
@[simp] theorem send_vitals (s o) : vitals (send s o) = vitals s := by rfl
@[simp] theorem send_anchor (s o) : anchor (send s o) = anchor s := anchor_of_vitals (send_vitals s o)
@[simp] theorem msix_vitals (s f vec) : vitals (msix s f vec) = vitals s := by simp [msix]
@[simp] theorem msix_anchor (s f vec) : anchor (msix s f vec) = anchor s := anchor_of_vitals (msix_vitals s f vec)
@[simp] theorem raiseVec_vitals (s f vec) : vitals (raiseVec s f vec) = vitals s := by simp [raiseVec]
@[simp] theorem raiseVec_anchor (s f vec) : anchor (raiseVec s f vec) = anchor s := anchor_of_vitals (raiseVec_vitals s f vec)

/-! ## Ops -/

@[simp] theorem modDist_vitals (s d g) : vitals (modDist s d g) = vitals s := by rfl
@[simp] theorem modDist_anchor (s d g) : anchor (modDist s d g) = anchor s := anchor_of_vitals (modDist_vitals s d g)
@[simp] theorem modCore_vitals (s d c g) : vitals (modCore s d c g) = vitals s := by rfl
@[simp] theorem modCore_anchor (s d c g) : anchor (modCore s d c g) = anchor s := anchor_of_vitals (modCore_vitals s d c g)
@[simp] theorem freshNat_anchor (s) : anchor (freshNat s).2 = anchor s := by rfl
@[simp] theorem modBack_anchor (s b g) : anchor (modBack s b g) = anchor s := by rfl
@[simp] theorem fatalRaised_vitals (s f) : vitals (fatalRaised s f) = vitals s := by simp [fatalRaised]
@[simp] theorem fatalRaised_anchor (s f) : anchor (fatalRaised s f) = anchor s := anchor_of_vitals (fatalRaised_vitals s f)
@[simp] theorem emit_vitals (s source kind sev district payload) : vitals (emit s source kind sev district payload) = vitals s := by simp [emit]
@[simp] theorem emit_anchor (s source kind sev district payload) : anchor (emit s source kind sev district payload) = anchor s :=
  anchor_of_vitals (emit_vitals s source kind sev district payload)
@[simp] theorem emitLater_anchor (s source kind sev district payload) : anchor (emitLater s source kind sev district payload) = anchor s := by rfl
@[simp] theorem queueReply_vitals (s epoch r) : vitals (queueReply s epoch r) = vitals s := by simp [queueReply]
@[simp] theorem queueReply_anchor (s epoch r) : anchor (queueReply s epoch r) = anchor s := anchor_of_vitals (queueReply_vitals s epoch r)
@[simp] theorem refuse_anchor (s c cmd e) : anchor (refuse s c cmd e) = anchor s := by simp [refuse]
@[simp] theorem replyOk_anchor (s c cmd payload) : anchor (replyOk s c cmd payload) = anchor s := by simp [replyOk]
@[simp] theorem replyAccepted_anchor (s c cmd) : anchor (replyAccepted s c cmd) = anchor s := by simp [replyAccepted]
@[simp] theorem finish_vitals (s p status state payload) : vitals (finish s p status state payload) = vitals s := by simp [finish]
@[simp] theorem finish_anchor (s p status state payload) : anchor (finish s p status state payload) = anchor s :=
  anchor_of_vitals (finish_vitals s p status state payload)
@[simp] theorem finishOk_vitals (s p payload) : vitals (finishOk s p payload) = vitals s := by simp [finishOk]
@[simp] theorem finishOk_anchor (s p payload) : anchor (finishOk s p payload) = anchor s := anchor_of_vitals (finishOk_vitals s p payload)

@[simp] theorem wakeLoop_anchor (s d) : anchor (wakeLoop s d) = anchor s := by
  unfold wakeLoop
  split <;> simp

@[simp] theorem fwRun_anchor (k c checks) {eff : State → State} (h : ∀ s, anchor (eff s) = anchor s) (s) :
    anchor (fwRun k c checks eff s) = anchor s := by
  unfold fwRun
  split
  · split <;> simp [h]
  · rfl

@[simp] theorem setDistState_vitals (s d st) : vitals (setDistState s d st) = vitals s := by simp [setDistState]
@[simp] theorem setDistState_anchor (s d st) : anchor (setDistState s d st) = anchor s := anchor_of_vitals (setDistState_vitals s d st)

theorem bindVec_anchor {s d vec purpose r} (h : bindVec s d vec purpose = some r) : anchor r.2 = anchor s := by
  simp only [bindVec] at h
  split at h
  · cases h; simp
  · split at h
    · split at h
      · cases h; simp
      · cases h
    · cases h

@[simp] theorem unbind_vitals (s d purpose) : vitals (unbind s d purpose) = vitals s := by rfl
@[simp] theorem unbind_anchor (s d purpose) : anchor (unbind s d purpose) = anchor s := anchor_of_vitals (unbind_vitals s d purpose)

@[simp] theorem raiseBound_vitals (s d purpose) : vitals (raiseBound s d purpose) = vitals s := by
  unfold raiseBound
  split <;> simp

@[simp] theorem raiseBound_anchor (s d purpose) : anchor (raiseBound s d purpose) = anchor s := anchor_of_vitals (raiseBound_vitals s d purpose)

@[simp] theorem censusAdd_anchor (s d tag source n) : anchor (censusAdd s d tag source n) = anchor s := by simp [censusAdd]

/-! ## EventRing -/

@[simp] theorem loseRecord_anchor (s f) : anchor (loseRecord s f) = anchor s := by rfl
@[simp] theorem ringCause_anchor (s f) : anchor (ringCause s f) = anchor s := by simp [ringCause]
@[simp] theorem readCons_anchor (s f c) : anchor (readCons s f c) = anchor s := by rfl
@[simp] theorem watermarkCheck_anchor (s f before) : anchor (watermarkCheck s f before) = anchor s := by simp [watermarkCheck]

@[simp] theorem freshRead_anchor (s f fresh) : anchor (freshRead s f fresh) = anchor s := by
  unfold freshRead
  split <;> simp

@[simp] theorem ringPut_anchor (s f e late fresh) : anchor (ringPut s f e late fresh) = anchor s := by simp [ringPut]
@[simp] theorem ringPutAll_anchor (s fs e late fresh) : anchor (ringPutAll s fs e late fresh) = anchor s := by simp [ringPutAll]

@[simp] theorem eventArrival_anchor (i s) : anchor (eventArrival i s) = anchor s := by
  unfold eventArrival
  split <;> simp

@[simp] theorem holdExpiry_anchor (fresh s) : anchor (holdExpiry fresh s) = anchor s := by
  unfold holdExpiry
  split <;> simp

@[simp] theorem flushHeld_anchor (f l s) : anchor (flushHeld f l s) = anchor s := by
  induction l generalizing s with
  | nil => rfl
  | cons h l ih => simp [flushHeld, ih]

@[simp] theorem routineRead_anchor (f v s) : anchor (routineRead f v s) = anchor s := by simp [routineRead]

@[simp] theorem ageExpiry_anchor (f s) : anchor (ageExpiry f s) = anchor s := by
  simp only [ageExpiry]
  (repeat' split) <;> simp

@[simp] theorem moderationExpiry_anchor (f vec s) : anchor (moderationExpiry f vec s) = anchor s := by
  simp only [moderationExpiry]
  (repeat' split) <;> simp

@[simp] theorem ringDisable_anchor (s f) : anchor (ringDisable s f) = anchor s := by rfl
@[simp] theorem releaseDeferred_anchor (s) : anchor (releaseDeferred s) = anchor s := by rfl
@[simp] theorem ringsOff_anchor (s) : anchor (ringsOff s) = anchor s := by simp [ringsOff]
@[simp] theorem linkReturned_anchor (s) : anchor (linkReturned s) = anchor s := by simp [linkReturned]

/-! ## StreetIndex -/

@[simp] theorem trainMemory_anchor (t s) : anchor (trainMemory t s) = anchor s := by simp [trainMemory]

/-! ## SegMem -/

@[simp] theorem alloc_anchor (s tier units size) : anchor (alloc s tier units size).2 = anchor s := by rfl
@[simp] theorem release_anchor (s b) : anchor (release s b) = anchor s := by simp [release]
@[simp] theorem sweepBacks_anchor (s) : anchor (sweepBacks s) = anchor s := by rfl
@[simp] theorem modVol_vitals (s v g) : vitals (modVol s v g) = vitals s := by simp [modVol]
@[simp] theorem modVol_anchor (s v g) : anchor (modVol s v g) = anchor s := anchor_of_vitals (modVol_vitals s v g)
@[simp] theorem segWrite_anchor (s e off d) : anchor (segWrite s e off d) = anchor s := by simp [segWrite]
@[simp] theorem segMark_anchor (s e gs) : anchor (segMark s e gs) = anchor s := by simp [segMark]
@[simp] theorem holdIn_vitals (s b v e) : vitals (holdIn s b v e) = vitals s := by rfl
@[simp] theorem holdIn_anchor (s b v e) : anchor (holdIn s b v e) = anchor s := anchor_of_vitals (holdIn_vitals s b v e)
@[simp] theorem extentWrite_vitals (s v e d poison) : vitals (extentWrite s v e d poison) = vitals s := by simp [extentWrite]
@[simp] theorem extentWrite_anchor (s v e d poison) : anchor (extentWrite s v e d poison) = anchor s :=
  anchor_of_vitals (extentWrite_vitals s v e d poison)
@[simp] theorem stageIn_anchor (s v e) : anchor (stageIn s v e) = anchor s := by simp [stageIn]
@[simp] theorem useStaged_anchor (s e off n) : anchor (useStaged s e off n) = anchor s := by simp [useStaged]
@[simp] theorem memUe_anchor (s d e g) : anchor (memUe s d e g) = anchor s := by simp [memUe]

/-! ## HostPort -/

@[simp] theorem violation_anchor (f slot off s) : anchor (violation f slot off s) = anchor s := by rfl
@[simp] theorem slotWrite_anchor (f outbound slot off d s) : anchor (slotWrite f outbound slot off d s) = anchor s := by simp [slotWrite]

@[simp] theorem postReply_anchor (f s) : anchor (postReply f s) = anchor s := by
  simp only [postReply]
  (repeat' split) <;> simp

@[simp] theorem resetFn_anchor (f s) : anchor (resetFn f s) = anchor s := by rfl

@[simp] theorem unbacked_anchor (s f bad) : anchor (unbacked s f bad) = anchor s := by
  unfold unbacked
  split <;> simp

@[simp] theorem bar2Read_anchor (f off n s) : anchor (bar2Read f off n s) = anchor s := by simp [bar2Read]
@[simp] theorem bar2WriteSeg_anchor (a d s e) : anchor (bar2WriteSeg a d s e) = anchor s := by simp [bar2WriteSeg]
@[simp] theorem bar2Write_anchor (f off d s) : anchor (bar2Write f off d s) = anchor s := by simp [bar2Write]
@[simp] theorem flagsWrite_anchor (f v s) : anchor (flagsWrite f v s) = anchor s := by rfl
@[simp] theorem bar0Write_anchor (f off d s) : anchor (bar0Write f off d s) = anchor s := by simp [bar0Write]
@[simp] theorem releasePending_anchor (f s) : anchor (releasePending f s) = anchor s := by simp [releasePending]

@[simp] theorem configWrite_anchor (f w s) : anchor (configWrite f w s) = anchor s := by
  unfold configWrite
  split <;> simp

/-! ## DevCmd -/

@[simp] theorem writeSlot_anchor (s i m) : anchor (writeSlot s i m) = anchor s := by rfl

/-! ## Store -/

@[simp] theorem storeWrite_anchor (s typ p) : anchor (storeWrite s typ p) = anchor s := by rfl

@[simp] theorem cutWrites_anchor (s) : anchor (cutWrites s) = anchor s := by
  unfold cutWrites
  split <;> simp

@[simp] theorem raiseCounters_anchor (s cs) : anchor (raiseCounters s cs) = anchor s := by simp [raiseCounters]

/-! ## Links -/

@[simp] theorem modPort_vitals (s p g) : vitals (modPort s p g) = vitals s := by rfl
@[simp] theorem modPort_anchor (s p g) : anchor (modPort s p g) = anchor s := anchor_of_vitals (modPort_vitals s p g)
@[simp] theorem setGroup_vitals (s g x) : vitals (setGroup s g x) = vitals s := by rfl
@[simp] theorem setGroup_anchor (s g x) : anchor (setGroup s g x) = anchor s := anchor_of_vitals (setGroup_vitals s g x)

@[simp] theorem modGroup_anchor (s g f) : anchor (modGroup s g f) = anchor s := by
  unfold modGroup
  split <;> simp

@[simp] theorem linkEvent_vitals (s p kind sev payload) : vitals (linkEvent s p kind sev payload) = vitals s := by simp [linkEvent]
@[simp] theorem linkEvent_anchor (s p kind sev payload) : anchor (linkEvent s p kind sev payload) = anchor s :=
  anchor_of_vitals (linkEvent_vitals s p kind sev payload)
@[simp] theorem sendFlit_anchor (s p f) : anchor (sendFlit s p f) = anchor s := by rfl
@[simp] theorem announce_anchor (s p l) : anchor (announce s p l) = anchor s := by rfl
@[simp] theorem freeRx_vitals (s p k) : vitals (freeRx s p k) = vitals s := by rfl
@[simp] theorem freeRx_anchor (s p k) : anchor (freeRx s p k) = anchor s := anchor_of_vitals (freeRx_vitals s p k)
@[simp] theorem freeHeld_vitals (g s p) : vitals (freeHeld g s p) = vitals s := by simp [freeHeld]
@[simp] theorem freeHeld_anchor (g s p) : anchor (freeHeld g s p) = anchor s := anchor_of_vitals (freeHeld_vitals g s p)
@[simp] theorem queueMsg_vitals (s p chan flits key open_) : vitals (queueMsg s p chan flits key open_) = vitals s := by rfl
@[simp] theorem queueMsg_anchor (s p chan flits key open_) : anchor (queueMsg s p chan flits key open_) = anchor s :=
  anchor_of_vitals (queueMsg_vitals s p chan flits key open_)
@[simp] theorem queueFlit_anchor (s p chan key t) : anchor (queueFlit s p chan key t) = anchor s := by rfl
@[simp] theorem sendMsg_vitals (s p chan dest src poison b) : vitals (sendMsg s p chan dest src poison b) = vitals s := by rfl
@[simp] theorem sendMsg_anchor (s p chan dest src poison b) : anchor (sendMsg s p chan dest src poison b) = anchor s :=
  anchor_of_vitals (sendMsg_vitals s p chan dest src poison b)

@[simp] theorem sysSend_vitals (s chan mask dest kind args data) : vitals (sysSend s chan mask dest kind args data) = vitals s := by
  unfold sysSend
  split <;> simp

@[simp] theorem sysSend_anchor (s chan mask dest kind args data) : anchor (sysSend s chan mask dest kind args data) = anchor s :=
  anchor_of_vitals (sysSend_vitals s chan mask dest kind args data)

@[simp] theorem sendFree_anchor (s p typ payload) : anchor (sendFree s p typ payload) = anchor s := by rfl
@[simp] theorem sendNew_anchor (s p f) : anchor (sendNew s p f) = anchor s := by rfl
@[simp] theorem idleSend_anchor (s p) : anchor (idleSend s p) = anchor s := by simp [idleSend]
@[simp] theorem sendNak_anchor (s p) : anchor (sendNak s p) = anchor s := by rfl
@[simp] theorem flitFail_anchor (s p) : anchor (flitFail s p) = anchor s := by simp [flitFail]
@[simp] theorem stray_anchor (s p f) : anchor (stray s p f) = anchor s := by rfl

@[simp] theorem forward_anchor (s p f) : anchor (forward s p f) = anchor s := by
  unfold forward
  split <;> simp

@[simp] theorem acceptLocal_anchor (s p f) : anchor (acceptLocal s p f) = anchor s := by simp [acceptLocal]
@[simp] theorem acceptData_anchor (s p f) : anchor (acceptData s p f) = anchor s := by simp [acceptData]
@[simp] theorem sendIdent_anchor (s p) : anchor (sendIdent s p) = anchor s := by rfl
@[simp] theorem retrain_anchor (s p cause) : anchor (retrain s p cause) = anchor s := by simp [retrain]
@[simp] theorem nakTake_anchor (p fseq s) : anchor (nakTake p fseq s) = anchor s := by simp [nakTake]
@[simp] theorem flitReceive_anchor (p f crcOk s) : anchor (flitReceive p f crcOk s) = anchor s := by simp [flitReceive]
@[simp] theorem countFec_anchor (s p n) : anchor (countFec s p n) = anchor s := by rfl
@[simp] theorem losePort_vitals (s p st) : vitals (losePort s p st) = vitals s := by rfl
@[simp] theorem losePort_anchor (s p st) : anchor (losePort s p st) = anchor s := anchor_of_vitals (losePort_vitals s p st)
@[simp] theorem finishEnables_vitals (s) : vitals (finishEnables s) = vitals s := by simp [finishEnables]
@[simp] theorem finishEnables_anchor (s) : anchor (finishEnables s) = anchor s := anchor_of_vitals (finishEnables_vitals s)
@[simp] theorem attempt_anchor (s p) : anchor (attempt s p) = anchor s := by simp [attempt]
@[simp] theorem startTraining_anchor (s p) : anchor (startTraining s p) = anchor s := by simp [startTraining]
@[simp] theorem miswire_anchor (s p i) : anchor (miswire s p i) = anchor s := by rfl
@[simp] theorem linkReport_anchor (p s) : anchor (linkReport p s) = anchor s := by simp [linkReport]

@[simp] theorem follow_vitals (s r seq at_) : vitals (follow s r seq at_) = vitals s := by
  unfold follow
  split <;> simp

@[simp] theorem follow_anchor (s r seq at_) : anchor (follow s r seq at_) = anchor s := anchor_of_vitals (follow_vitals s r seq at_)

@[simp] theorem newRoot_vitals (s r) : vitals (newRoot s r) = vitals s := by
  unfold newRoot
  split <;> simp

@[simp] theorem newRoot_anchor (s r) : anchor (newRoot s r) = anchor s := anchor_of_vitals (newRoot_vitals s r)

@[simp] theorem becomeRoot_vitals (s) : vitals (becomeRoot s) = vitals s := by simp [becomeRoot]
@[simp] theorem becomeRoot_anchor (s) : anchor (becomeRoot s) = anchor s := anchor_of_vitals (becomeRoot_vitals s)

@[simp] theorem adopt_vitals (s) : vitals (adopt s) = vitals s := by
  simp only [adopt]
  (repeat' split) <;> simp

@[simp] theorem adopt_anchor (s) : anchor (adopt s) = anchor s := anchor_of_vitals (adopt_vitals s)

@[simp] theorem storeLinks_anchor (s) : anchor (storeLinks s) = anchor s := by rfl

@[simp] theorem retainExit_anchor (since s) : anchor (retainExit since s) = anchor s := by
  unfold retainExit
  split <;> simp

@[simp] theorem autoWake_anchor (s) : anchor (autoWake s) = anchor s := by simp [autoWake]
@[simp] theorem idleLeave_anchor (micros s) : anchor (idleLeave micros s) = anchor s := by simp [idleLeave]
@[simp] theorem wakeQuarters_anchor (s) : anchor (wakeQuarters s) = anchor s := by simp [wakeQuarters]

/-! ## CoreBase -/

@[simp] theorem setWork_anchor (s d core idx w) : anchor (setWork s d core idx w) = anchor s := by rfl
@[simp] theorem modProg_vitals (s d g) : vitals (modProg s d g) = vitals s := by rfl
@[simp] theorem modProg_anchor (s d g) : anchor (modProg s d g) = anchor s := anchor_of_vitals (modProg_vitals s d g)
@[simp] theorem modGate_vitals (s d g) : vitals (modGate s d g) = vitals s := by rfl
@[simp] theorem modGate_anchor (s d g) : anchor (modGate s d g) = anchor s := anchor_of_vitals (modGate_vitals s d g)

@[simp] theorem hardFault_vitals (s d core idx code) : vitals (hardFault s d core idx code) = vitals s := by
  unfold hardFault
  split <;> simp

@[simp] theorem hardFault_anchor (s d core idx code) : anchor (hardFault s d core idx code) = anchor s :=
  anchor_of_vitals (hardFault_vitals s d core idx code)

@[simp] theorem softFault_anchor (s d core idx code) : anchor (softFault s d core idx code) = anchor s := by
  unfold softFault
  split <;> simp

@[simp] theorem countSoft_anchor (s d core) : anchor (countSoft s d core) = anchor s := by simp [countSoft]
@[simp] theorem addWork_anchor (s d core w) : anchor (addWork s d core w) = anchor s := by rfl

@[simp] theorem putTaken_anchor (s d core idx) : anchor (putTaken s d core idx) = anchor s := by
  simp only [putTaken]
  (repeat' split) <;> simp

/-! ## Atomics -/

@[simp] theorem ordsumStray_anchor (d core e off rank s) : anchor (ordsumStray d core e off rank s) = anchor s := by simp [ordsumStray]
@[simp] theorem ordsum_anchor (d core e off rank vals poison s) : anchor (ordsum d core e off rank vals poison s) = anchor s := by simp [ordsum]

/-! ## Collectives -/

@[simp] theorem collEvent_vitals (s x kind sev payload) : vitals (collEvent s x kind sev payload) = vitals s := by simp [collEvent]
@[simp] theorem collEvent_anchor (s x kind sev payload) : anchor (collEvent s x kind sev payload) = anchor s :=
  anchor_of_vitals (collEvent_vitals s x kind sev payload)

@[simp] theorem errorMsg_vitals (s x pos kind args) : vitals (errorMsg s x pos kind args) = vitals s := by
  simp only [errorMsg]
  (repeat' split) <;> simp

@[simp] theorem errorMsg_anchor (s x pos kind args) : anchor (errorMsg s x pos kind args) = anchor s :=
  anchor_of_vitals (errorMsg_vitals s x pos kind args)

@[simp] theorem abortGroup_vitals (g cause detector s) : vitals (abortGroup g cause detector s) = vitals s := by
  unfold abortGroup
  split <;> simp

@[simp] theorem abortGroup_anchor (g cause detector s) : anchor (abortGroup g cause detector s) = anchor s :=
  anchor_of_vitals (abortGroup_vitals g cause detector s)

@[simp] theorem abortHere_vitals (g cause s) : vitals (abortHere g cause s) = vitals s := by simp [abortHere]
@[simp] theorem abortHere_anchor (g cause s) : anchor (abortHere g cause s) = anchor s := anchor_of_vitals (abortHere_vitals g cause s)
@[simp] theorem modCur_anchor (s g f) : anchor (modCur s g f) = anchor s := by simp [modCur]

@[simp] theorem markTaint_anchor (s g) : anchor (markTaint s g) = anchor s := by
  unfold markTaint
  split <;> simp

@[simp] theorem sendTo_anchor (g pos m s) : anchor (sendTo g pos m s) = anchor s := by
  simp only [sendTo]
  (repeat' split) <;> simp

@[simp] theorem passOn_anchor (g pos chunk pass level v s) : anchor (passOn g pos chunk pass level v s) = anchor s := by
  unfold passOn
  split <;> simp

@[simp] theorem forwardDeliver_anchor (g c owner level v s) : anchor (forwardDeliver g c owner level v s) = anchor s := by
  unfold forwardDeliver
  split <;> simp

@[simp] theorem startDeliver_anchor (g c owner v s) : anchor (startDeliver g c owner v s) = anchor s := by
  unfold startDeliver
  split <;> simp

@[simp] theorem finishReduce_anchor (g c p r shape v s) : anchor (finishReduce g c p r shape v s) = anchor s := by
  unfold finishReduce
  split <;> simp

@[simp] theorem systemStage_anchor (g c p r shape s) : anchor (systemStage g c p r shape s) = anchor s := by
  simp only [systemStage]
  (repeat' split) <;> simp

@[simp] theorem wardStage_anchor (g c s) : anchor (wardStage g c s) = anchor s := by
  simp only [wardStage]
  (repeat' split) <;> simp

@[simp] theorem broadcastOut_anchor (g fuel s) : anchor (broadcastOut g fuel s) = anchor s := by
  induction fuel generalizing s with
  | zero => rfl
  | succ fuel ih => simp only [broadcastOut]; (repeat' split) <;> simp [ih]

@[simp] theorem putAct_anchor (g c s) : anchor (putAct g c s) = anchor s := by
  simp only [putAct]
  (repeat' split) <;> simp

@[simp] theorem arrive_anchor (s x c b) : anchor (arrive s x c b).2 = anchor s := by
  unfold arrive
  split
  · rfl
  · split <;> simp

@[simp] theorem msgAct_anchor (g m s) : anchor (msgAct g m s) = anchor s := by
  simp only [msgAct]
  (repeat' split) <;> simp

@[simp] theorem bindReq_anchor (g r s) : anchor (bindReq g r s) = anchor s := by
  simp only [bindReq]
  (repeat' split) <;> simp

@[simp] theorem bindReqs_anchor (g s) : anchor (bindReqs g s) = anchor s := by
  unfold bindReqs
  split <;> simp

@[simp] theorem actHeld_anchor (g s) : anchor (actHeld g s) = anchor s := by
  unfold actHeld
  split <;> simp

@[simp] theorem takeWrite_anchor (s coded r v) : anchor (takeWrite s coded r v) = anchor s := by
  unfold takeWrite
  split <;> simp

@[simp] theorem serveTake_anchor (g r s) : anchor (serveTake g r s) = anchor s := by
  simp only [serveTake]
  (repeat' split) <;> simp

@[simp] theorem serveTakes_anchor (g s) : anchor (serveTakes g s) = anchor s := by
  unfold serveTakes
  split <;> simp

@[simp] theorem collRequest_anchor (g r s) : anchor (collRequest g r s) = anchor s := by
  unfold collRequest
  split <;> simp

@[simp] theorem putDecode_anchor (s r n) : anchor (putDecode s r n) = anchor s := by simp [putDecode]

@[simp] theorem acceptPut_anchor (g r s) : anchor (acceptPut g r s) = anchor s := by
  simp only [acceptPut]
  (repeat' split) <;> simp

@[simp] theorem nextInst_anchor (g s) : anchor (nextInst g s) = anchor s := by
  simp only [nextInst]
  (repeat' split) <;> simp

@[simp] theorem closeInst_anchor (g s) : anchor (closeInst g s) = anchor s := by
  simp only [closeInst]
  (repeat' split) <;> simp

theorem takeMsg_anchor {g p s r} (h : takeMsg g p s = some r) : anchor r.2 = anchor s := by
  unfold takeMsg at h
  split at h
  · cases h
  · cases h; simp

@[simp] theorem collStray_anchor (s d p g src epoch) : anchor (collStray s d p g src epoch) = anchor s := by rfl

@[simp] theorem relayOn_anchor (g hop m s) : anchor (relayOn g hop m s) = anchor s := by
  unfold relayOn
  split <;> simp

@[simp] theorem useMsg_anchor (g m s) : anchor (useMsg g m s) = anchor s := by
  unfold useMsg
  split <;> simp

@[simp] theorem chunkReceive_anchor (g p fs s) : anchor (chunkReceive g p fs s) = anchor s := by
  simp only [chunkReceive]
  (repeat' split) <;> simp

@[simp] theorem taintHere_anchor (g seq chunk s) : anchor (taintHere g seq chunk s) = anchor s := by
  unfold taintHere
  split <;> simp

@[simp] theorem checkDone_anchor (g chunk src ok s) : anchor (checkDone g chunk src ok s) = anchor s := by
  simp only [checkDone]
  (repeat' split) <;> simp

@[simp] theorem ackBatch_anchor (g s) : anchor (ackBatch g s) = anchor s := by
  unfold ackBatch
  split <;> simp

@[simp] theorem ackReceive_anchor (g src chunks s) : anchor (ackReceive g src chunks s) = anchor s := by simp [ackReceive]

@[simp] theorem resendChunk_anchor (g src chunk s) : anchor (resendChunk g src chunk s) = anchor s := by
  simp only [resendChunk]
  (repeat' split) <;> simp

@[simp] theorem planTaken_anchor (g s) : anchor (planTaken g s) = anchor s := by
  unfold planTaken
  split <;> simp

@[simp] theorem linkLost_anchor (p s) : anchor (linkLost p s) = anchor s := by
  unfold linkLost
  exact anchor_foldl _ (fun s g => by split <;> simp) _ _

/-! ## Experts -/

@[simp] theorem modDisp_anchor (s g f) : anchor (modDisp s g f) = anchor s := by simp [modDisp]

@[simp] theorem contribute_anchor (x b t r part poison s) : anchor (contribute x b t r part poison s) = anchor s := by
  unfold contribute
  exact anchor_foldl _ (fun s p => by split <;> simp) _ _

@[simp] theorem zeroContribution_anchor (x b t r s) : anchor (zeroContribution x b t r s) = anchor s := by simp [zeroContribution]

@[simp] theorem writeHeaders_anchor (x b s) : anchor (writeHeaders x b s) = anchor s := by
  unfold writeHeaders
  split <;> simp

@[simp] theorem dispSend_anchor (g pos chunk data poison s) : anchor (dispSend g pos chunk data poison s) = anchor s := by simp [dispSend]

@[simp] theorem warmToken_anchor (g t s) : anchor (warmToken g t s) = anchor s := by
  simp only [warmToken]
  (repeat' split) <;> simp

@[simp] theorem warmHeld_anchor (g s) : anchor (warmHeld g s) = anchor s := by
  simp only [warmHeld]
  (repeat' split) <;> simp

@[simp] theorem coldWarm_anchor (g slot s) : anchor (coldWarm g slot s) = anchor s := by
  simp only [coldWarm]
  (repeat' split) <;> simp

@[simp] theorem coldExpire_anchor (g slot s) : anchor (coldExpire g slot s) = anchor s := by
  simp only [coldExpire]
  (repeat' split) <;> simp

@[simp] theorem inboxWrite_anchor (g s) : anchor (inboxWrite g s) = anchor s := by
  simp only [inboxWrite]
  (repeat' split) <;> simp

@[simp] theorem giveTake_anchor (g c d s) : anchor (giveTake g c d s) = anchor s := by simp [giveTake]
@[simp] theorem takeReturns_anchor (x b rs poison s) : anchor (takeReturns x b rs poison s) = anchor s := by simp [takeReturns]

@[simp] theorem tryReturn_anchor (g s) : anchor (tryReturn g s) = anchor s := by
  simp only [tryReturn]
  (repeat' split) <;> simp

@[simp] theorem applyReturns_anchor (g s) : anchor (applyReturns g s) = anchor s := by
  simp only [applyReturns]
  (repeat' split) <;> simp

@[simp] theorem instanceCounts_anchor (g s) : anchor (instanceCounts g s) = anchor s := by
  simp only [instanceCounts]
  (repeat' split) <;> simp

@[simp] theorem slotCountsTake_anchor (g s) : anchor (slotCountsTake g s) = anchor s := by
  simp only [slotCountsTake]
  (repeat' split) <;> simp

@[simp] theorem blockRoute_anchor (g s) : anchor (blockRoute g s) = anchor s := by
  simp only [blockRoute]
  (repeat' split) <;> simp

@[simp] theorem receiveKind_anchor (want g p s) : anchor (receiveKind want g p s) = anchor s := by
  unfold receiveKind
  split
  · rfl
  · next h => split <;> simp [takeMsg_anchor h]

/-! ## Runs -/

@[simp] theorem fetchCore_anchor (s d core) : anchor (fetchCore s d core) = anchor s := by
  unfold fetchCore
  split <;> simp

@[simp] theorem startRun_vitals (s d handle by_ tStart) : vitals (startRun s d handle by_ tStart) = vitals s := by rfl
@[simp] theorem startRun_anchor (s d handle by_ tStart) : anchor (startRun s d handle by_ tStart) = anchor s :=
  anchor_of_vitals (startRun_vitals s d handle by_ tStart)
@[simp] theorem beginPause_vitals (s d drained) : vitals (beginPause s d drained) = vitals s := by simp [beginPause]
@[simp] theorem beginPause_anchor (s d drained) : anchor (beginPause s d drained) = anchor s := anchor_of_vitals (beginPause_vitals s d drained)
@[simp] theorem leaveRunning_vitals (s d) : vitals (leaveRunning s d) = vitals s := by simp [leaveRunning]
@[simp] theorem leaveRunning_anchor (s d) : anchor (leaveRunning s d) = anchor s := anchor_of_vitals (leaveRunning_vitals s d)
@[simp] theorem clearRun_vitals (s d) : vitals (clearRun s d) = vitals s := by rfl
@[simp] theorem clearRun_anchor (s d) : anchor (clearRun s d) = anchor s := anchor_of_vitals (clearRun_vitals s d)

@[simp] theorem endRunDone_vitals (s d) : vitals (endRunDone s d) = vitals s := by
  unfold endRunDone
  split <;> simp

@[simp] theorem endRunDone_anchor (s d) : anchor (endRunDone s d) = anchor s := anchor_of_vitals (endRunDone_vitals s d)

@[simp] theorem endRunHalted_vitals (s d) : vitals (endRunHalted s d) = vitals s := by
  unfold endRunHalted
  split <;> simp

@[simp] theorem endRunHalted_anchor (s d) : anchor (endRunHalted s d) = anchor s := anchor_of_vitals (endRunHalted_vitals s d)

@[simp] theorem unloadProg_anchor (s d handle) : anchor (unloadProg s d handle) = anchor s := by
  simp only [unloadProg]
  (repeat' split) <;> simp

@[simp] theorem abortRun_vitals (s d p) : vitals (abortRun s d p) = vitals s := by rfl
@[simp] theorem abortRun_anchor (s d p) : anchor (abortRun s d p) = anchor s := anchor_of_vitals (abortRun_vitals s d p)
@[simp] theorem postAdvisory_anchor (s k value) : anchor (postAdvisory s k value) = anchor s := by simp [postAdvisory]
@[simp] theorem readAdvisories_anchor (s d) : anchor (readAdvisories s d) = anchor s := by rfl

/-! ## Snapshot -/

@[simp] theorem modSnap_vitals (s d f) : vitals (modSnap s d f) = vitals s := by rfl
@[simp] theorem modSnap_anchor (s d f) : anchor (modSnap s d f) = anchor s := anchor_of_vitals (modSnap_vitals s d f)
@[simp] theorem internalFault_vitals (s d p why) : vitals (internalFault s d p why) = vitals s := by simp [internalFault]
@[simp] theorem internalFault_anchor (s d p why) : anchor (internalFault s d p why) = anchor s := anchor_of_vitals (internalFault_vitals s d p why)
@[simp] theorem writeRegion_vitals (s p r i d) : vitals (writeRegion s p r i d) = vitals s := by simp [writeRegion]
@[simp] theorem writeRegion_anchor (s p r i d) : anchor (writeRegion s p r i d) = anchor s := anchor_of_vitals (writeRegion_vitals s p r i d)
@[simp] theorem writeRun_anchor (s p r first d) : anchor (writeRun s p r first d) = anchor s := by simp [writeRun]
@[simp] theorem snapStart_vitals (s d cause) : vitals (snapStart s d cause) = vitals s := by simp [snapStart]
@[simp] theorem snapStart_anchor (s d cause) : anchor (snapStart s d cause) = anchor s := anchor_of_vitals (snapStart_vitals s d cause)
@[simp] theorem snapFail_vitals (s d seq cause) : vitals (snapFail s d seq cause) = vitals s := by rfl
@[simp] theorem snapFail_anchor (s d seq cause) : anchor (snapFail s d seq cause) = anchor s := anchor_of_vitals (snapFail_vitals s d seq cause)
@[simp] theorem snapMsg_anchor (s p j pos kind args data) : anchor (snapMsg s p j pos kind args data) = anchor s := by simp [snapMsg]

@[simp] theorem captureDone_anchor (d s) : anchor (captureDone d s) = anchor s := by
  simp only [captureDone]
  split
  · (repeat' split) <;> simp [anchor_foldl_fst]
  · rfl

@[simp] theorem rewriteChecks_vitals (s d own mir kind loss) : vitals (rewriteChecks s d own mir kind loss) = vitals s := by
  simp only [rewriteChecks]
  (repeat' split) <;> simp

@[simp] theorem rewriteChecks_anchor (s d own mir kind loss) : anchor (rewriteChecks s d own mir kind loss) = anchor s :=
  anchor_of_vitals (rewriteChecks_vitals s d own mir kind loss)

@[simp] theorem closeSnap_vitals (s d) : vitals (closeSnap s d) = vitals s := by
  simp only [closeSnap]
  (repeat' split) <;> simp

@[simp] theorem closeSnap_anchor (s d) : anchor (closeSnap s d) = anchor s := anchor_of_vitals (closeSnap_vitals s d)

@[simp] theorem regionDone_anchor (d mirror s) : anchor (regionDone d mirror s) = anchor s := by
  simp only [regionDone]
  (repeat' split) <;> simp

@[simp] theorem snapCheck_vitals (s d step kind loss) : vitals (snapCheck s d step kind loss) = vitals s := by
  unfold snapCheck
  split <;> simp

@[simp] theorem snapCheck_anchor (s d step kind loss) : anchor (snapCheck s d step kind loss) = anchor s :=
  anchor_of_vitals (snapCheck_vitals s d step kind loss)

@[simp] theorem snapRunEnds_vitals (s d) : vitals (snapRunEnds s d) = vitals s := by
  unfold snapRunEnds
  split <;> simp

@[simp] theorem snapRunEnds_anchor (s d) : anchor (snapRunEnds s d) = anchor s := anchor_of_vitals (snapRunEnds_vitals s d)

@[simp] theorem mirrorReceive_anchor (d ext data last s) : anchor (mirrorReceive d ext data last s) = anchor s := by
  simp only [mirrorReceive]
  (repeat' split) <;> simp

@[simp] theorem restoreSegs_anchor (s d p r h remap) : anchor (restoreSegs s d p r h remap) = anchor s := by
  unfold restoreSegs
  exact anchor_foldl _ (fun s e => by split <;> simp) _ _

@[simp] theorem setStep_anchor (s d step cursor) : anchor (setStep s d step cursor) = anchor s := by rfl

@[simp] theorem restoreDone_anchor (d s) : anchor (restoreDone d s) = anchor s := by
  simp only [restoreDone]
  (repeat' split) <;> simp

@[simp] theorem fillFail_vitals (s d cause) : vitals (fillFail s d cause) = vitals s := by
  unfold fillFail
  split <;> simp

@[simp] theorem fillFail_anchor (s d cause) : anchor (fillFail s d cause) = anchor s := anchor_of_vitals (fillFail_vitals s d cause)

@[simp] theorem fillRequests_anchor (s d) : anchor (fillRequests s d) = anchor s := by
  simp only [fillRequests]
  (repeat' split) <;> simp

@[simp] theorem fillCheck_anchor (s d) : anchor (fillCheck s d) = anchor s := by
  simp only [fillCheck]
  (repeat' split) <;> simp

@[simp] theorem fillReceive_anchor (d ext data ok s) : anchor (fillReceive d ext data ok s) = anchor s := by
  simp only [fillReceive]
  (repeat' split) <;> simp

@[simp] theorem fillRequest_anchor (d ext s) : anchor (fillRequest d ext s) = anchor s := by
  simp only [fillRequest]
  (repeat' split) <;> simp

/-! ## StepGate -/

@[simp] theorem gateEvent_vitals (s d kind sev payload) : vitals (gateEvent s d kind sev payload) = vitals s := by simp [gateEvent]
@[simp] theorem gateEvent_anchor (s d kind sev payload) : anchor (gateEvent s d kind sev payload) = anchor s :=
  anchor_of_vitals (gateEvent_vitals s d kind sev payload)
@[simp] theorem gateSend_vitals (s j ps m) : vitals (gateSend s j ps m) = vitals s := by simp [gateSend]
@[simp] theorem gateSend_anchor (s j ps m) : anchor (gateSend s j ps m) = anchor s := anchor_of_vitals (gateSend_vitals s j ps m)
@[simp] theorem gateSpread_vitals (s j m) : vitals (gateSpread s j m) = vitals s := by simp [gateSpread]
@[simp] theorem gateSpread_anchor (s j m) : anchor (gateSpread s j m) = anchor s := anchor_of_vitals (gateSpread_vitals s j m)
@[simp] theorem writeOutcome_vitals (s d verdict causes m) : vitals (writeOutcome s d verdict causes m) = vitals s := by rfl
@[simp] theorem writeOutcome_anchor (s d verdict causes m) : anchor (writeOutcome s d verdict causes m) = anchor s :=
  anchor_of_vitals (writeOutcome_vitals s d verdict causes m)

@[simp] theorem endLoop_vitals (d end_ code s) : vitals (endLoop d end_ code s) = vitals s := by
  simp only [endLoop]
  (repeat' split) <;> simp

@[simp] theorem endLoop_anchor (d end_ code s) : anchor (endLoop d end_ code s) = anchor s := anchor_of_vitals (endLoop_vitals d end_ code s)

@[simp] theorem advanceStep_vitals (s d) : vitals (advanceStep s d) = vitals s := by rfl
@[simp] theorem advanceStep_anchor (s d) : anchor (advanceStep s d) = anchor s := anchor_of_vitals (advanceStep_vitals s d)

@[simp] theorem nextOpening_vitals (d s) : vitals (nextOpening d s) = vitals s := by
  simp only [nextOpening]
  (repeat' split) <;> simp

@[simp] theorem nextOpening_anchor (d s) : anchor (nextOpening d s) = anchor s := anchor_of_vitals (nextOpening_vitals d s)

@[simp] theorem logVerify_vitals (s d seq result loss) : vitals (logVerify s d seq result loss) = vitals s := by simp [logVerify]
@[simp] theorem logVerify_anchor (s d seq result loss) : anchor (logVerify s d seq result loss) = anchor s :=
  anchor_of_vitals (logVerify_vitals s d seq result loss)

@[simp] theorem afterRefusal_vitals (d causes s) : vitals (afterRefusal d causes s) = vitals s := by
  simp only [afterRefusal]
  (repeat' split) <;> simp

@[simp] theorem afterRefusal_anchor (d causes s) : anchor (afterRefusal d causes s) = anchor s := anchor_of_vitals (afterRefusal_vitals d causes s)

@[simp] theorem refuseStep_vitals (d causes m s) : vitals (refuseStep d causes m s) = vitals s := by
  simp only [refuseStep]
  (repeat' split) <;> simp

@[simp] theorem refuseStep_anchor (d causes m s) : anchor (refuseStep d causes m s) = anchor s := anchor_of_vitals (refuseStep_vitals d causes m s)

@[simp] theorem startUpdate_vitals (d s) : vitals (startUpdate d s) = vitals s := by
  simp only [startUpdate]
  (repeat' split) <;> simp

@[simp] theorem startUpdate_anchor (d s) : anchor (startUpdate d s) = anchor s := anchor_of_vitals (startUpdate_vitals d s)

@[simp] theorem commitStep_vitals (d m s) : vitals (commitStep d m s) = vitals s := by simp [commitStep]
@[simp] theorem commitStep_anchor (d m s) : anchor (commitStep d m s) = anchor s := anchor_of_vitals (commitStep_vitals d m s)

@[simp] theorem applyDecision_vitals (d action s) : vitals (applyDecision d action s) = vitals s := by
  simp only [applyDecision]
  (repeat' split) <;> simp

@[simp] theorem applyDecision_anchor (d action s) : anchor (applyDecision d action s) = anchor s := anchor_of_vitals (applyDecision_vitals d action s)

@[simp] theorem decide0_vitals (d action s) : vitals (decide0 d action s) = vitals s := by
  unfold decide0
  split <;> simp

@[simp] theorem decide0_anchor (d action s) : anchor (decide0 d action s) = anchor s := anchor_of_vitals (decide0_vitals d action s)

@[simp] theorem takeVerdict_vitals (d v s) : vitals (takeVerdict d v s) = vitals s := by
  simp only [takeVerdict]
  (repeat' split) <;> simp

@[simp] theorem takeVerdict_anchor (d v s) : anchor (takeVerdict d v s) = anchor s := anchor_of_vitals (takeVerdict_vitals d v s)

@[simp] theorem finishCommit_vitals (d v s) : vitals (finishCommit d v s) = vitals s := by
  simp only [finishCommit]
  (repeat' split) <;> simp

@[simp] theorem finishCommit_anchor (d v s) : anchor (finishCommit d v s) = anchor s := anchor_of_vitals (finishCommit_vitals d v s)

@[simp] theorem roundDone_vitals (d j a s) : vitals (roundDone d j a s) = vitals s := by simp [roundDone]
@[simp] theorem roundDone_anchor (d j a s) : anchor (roundDone d j a s) = anchor s := anchor_of_vitals (roundDone_vitals d j a s)

@[simp] theorem gateProgress_vitals (d commit s) : vitals (gateProgress d commit s) = vitals s := by
  simp only [gateProgress]
  (repeat' split) <;> simp

@[simp] theorem gateProgress_anchor (d commit s) : anchor (gateProgress d commit s) = anchor s := anchor_of_vitals (gateProgress_vitals d commit s)

@[simp] theorem addMsg_vitals (s d j m) : vitals (addMsg s d j m) = vitals s := by rfl
@[simp] theorem addMsg_anchor (s d j m) : anchor (addMsg s d j m) = anchor s := anchor_of_vitals (addMsg_vitals s d j m)

theorem pauseAtBoundary_anchor {s d t} (h : pauseAtBoundary s d = some t) : anchor t = anchor s := by
  simp only [pauseAtBoundary] at h
  split at h
  · split at h
    · cases h; simp
    · cases h
  · cases h

@[simp] theorem pauseAtBoundary_getD_anchor (s d) : anchor ((pauseAtBoundary s d).getD s) = anchor s := by
  cases h : pauseAtBoundary s d with
  | none => rfl
  | some t => exact pauseAtBoundary_anchor h

@[simp] theorem stepOpen_anchor (d s) : anchor (stepOpen d s) = anchor s := by
  simp only [stepOpen]
  split
  · rfl
  · split
    · rfl
    · split
      · next h => exact pauseAtBoundary_anchor h
      · simp; split <;> simp

@[simp] theorem copySeg_anchor (s src dst so do_ n) : anchor (copySeg s src dst so do_ n) = anchor s := by simp [copySeg]

@[simp] theorem feedDone_anchor (d s) : anchor (feedDone d s) = anchor s := by
  simp only [feedDone]
  (repeat' split) <;> simp

/-! ## GateCmd -/

@[simp] theorem memberReady_anchor (d s) : anchor (memberReady d s) = anchor s := by
  simp only [memberReady]
  (repeat' split) <;> simp

@[simp] theorem applyResume_vitals (d action s) : vitals (applyResume d action s) = vitals s := by simp [applyResume]
@[simp] theorem applyResume_anchor (d action s) : anchor (applyResume d action s) = anchor s := anchor_of_vitals (applyResume_vitals d action s)

@[simp] theorem gateReceive_vitals (d m0 s) : vitals (gateReceive d m0 s) = vitals s := by
  simp only [gateReceive]
  (repeat' split) <;> simp

@[simp] theorem gateReceive_anchor (d m0 s) : anchor (gateReceive d m0 s) = anchor s := anchor_of_vitals (gateReceive_vitals d m0 s)

@[simp] theorem gateTake_anchor (d m s) : anchor (gateTake d m s) = anchor s := by simp [gateTake]
@[simp] theorem gateThaw_vitals (d s) : vitals (gateThaw d s) = vitals s := by simp [gateThaw]
@[simp] theorem gateThaw_anchor (d s) : anchor (gateThaw d s) = anchor s := anchor_of_vitals (gateThaw_vitals d s)

@[simp] theorem updateComplete_anchor (d s) : anchor (updateComplete d s) = anchor s := by
  simp only [updateComplete]
  (repeat' split) <;> simp

@[simp] theorem evalTimeout_anchor (d s) : anchor (evalTimeout d s) = anchor s := by
  simp only [evalTimeout]
  (repeat' split) <;> simp

@[simp] theorem dropColls_vitals (s g x) : vitals (dropColls s g x) = vitals s := by simp [dropColls]
@[simp] theorem dropColls_anchor (s g x) : anchor (dropColls s g x) = anchor s := anchor_of_vitals (dropColls_vitals s g x)

@[simp] theorem earlyStart_vitals (d pos causes s) : vitals (earlyStart d pos causes s) = vitals s := by
  simp only [earlyStart]
  (repeat' split) <;> simp

@[simp] theorem earlyStart_anchor (d pos causes s) : anchor (earlyStart d pos causes s) = anchor s :=
  anchor_of_vitals (earlyStart_vitals d pos causes s)

@[simp] theorem earlyCheck_vitals (d s) : vitals (earlyCheck d s) = vitals s := by
  simp only [earlyCheck]
  (repeat' split) <;> simp

@[simp] theorem earlyCheck_anchor (d s) : anchor (earlyCheck d s) = anchor s := anchor_of_vitals (earlyCheck_vitals d s)

@[simp] theorem earlyNotice_anchor (d pos causes sig s) : anchor (earlyNotice d pos causes sig s) = anchor s := by
  unfold earlyNotice
  split <;> simp

@[simp] theorem earlyComplete_anchor (d s) : anchor (earlyComplete d s) = anchor s := by
  simp only [earlyComplete]
  (repeat' split) <;> simp

@[simp] theorem unlinkFeeds_anchor (s d j) : anchor (unlinkFeeds s d j) = anchor s := by rfl

@[simp] theorem gateChoose_anchor (d round action s) : anchor (gateChoose d round action s) = anchor s := by
  unfold gateChoose
  split <;> simp

/-! ## Media -/

@[simp] theorem modPipe_anchor (s k g) : anchor (modPipe s k g) = anchor s := by rfl
@[simp] theorem mediaEvent_anchor (s k kind sev payload) : anchor (mediaEvent s k kind sev payload) = anchor s := by simp [mediaEvent]

@[simp] theorem endJob_anchor (k end_ s) : anchor (endJob k end_ s) = anchor s := by
  simp only [endJob]
  (repeat' split) <;> simp

@[simp] theorem frameDecode_anchor (k f s) : anchor (frameDecode k f s) = anchor s := by
  simp only [frameDecode]
  (repeat' split) <;> simp

@[simp] theorem frameEncode_anchor (k f s) : anchor (frameEncode k f s) = anchor s := by
  simp only [frameEncode]
  (repeat' split) <;> simp

@[simp] theorem groupConvert_anchor (k s) : anchor (groupConvert k s) = anchor s := by
  simp only [groupConvert]
  (repeat' split) <;> simp

/-! ## Serving -/

@[simp] theorem modPool_vitals (s d g) : vitals (modPool s d g) = vitals s := by rfl
@[simp] theorem modPool_anchor (s d g) : anchor (modPool s d g) = anchor s := anchor_of_vitals (modPool_vitals s d g)
@[simp] theorem cacheEvent_anchor (s d kind sev payload) : anchor (cacheEvent s d kind sev payload) = anchor s := by simp [cacheEvent]
@[simp] theorem takeEdits_anchor (d slot s) : anchor (takeEdits d slot s) = anchor s := by simp [takeEdits]

@[simp] theorem settleEdits_anchor (d s) : anchor (settleEdits d s) = anchor s := by
  unfold settleEdits
  split <;> simp

@[simp] theorem applyEdit_anchor (d slot s) : anchor (applyEdit d slot s) = anchor s := by simp [applyEdit]

@[simp] theorem endSlot_anchor (d s i) : anchor (endSlot d s i) = anchor s := by
  simp only [endSlot]
  (repeat' split) <;> simp

@[simp] theorem phase1_anchor (d s) : anchor (phase1 d s) = anchor s := by
  unfold phase1
  split <;> simp

@[simp] theorem dropSlot_anchor (d cause i s) : anchor (dropSlot d cause i s) = anchor s := by
  unfold dropSlot
  split <;> simp

@[simp] theorem phase2_anchor (fuel d s) : anchor (phase2 fuel d s) = anchor s := by
  induction fuel generalizing s with
  | zero => rfl
  | succ fuel ih => simp only [phase2]; (repeat' split) <;> simp [ih]

@[simp] theorem grow_anchor (d s i) : anchor (grow d s i) = anchor s := by
  simp only [grow]
  (repeat' split) <;> simp

@[simp] theorem phase3_anchor (d s) : anchor (phase3 d s) = anchor s := by
  unfold phase3
  split <;> simp

@[simp] theorem admitDrops_anchor (l d n s) : anchor (admitDrops l d n s) = anchor s := by
  induction l generalizing s with
  | nil => rfl
  | cons v l ih => simp only [admitDrops]; (repeat' split) <;> simp [ih]

@[simp] theorem admitSlot_anchor (d i s) : anchor (admitSlot d i s) = anchor s := by
  simp only [admitSlot]
  (repeat' split) <;> simp

@[simp] theorem deferSlot_anchor (d s i) : anchor (deferSlot d s i) = anchor s := by
  unfold deferSlot
  split <;> simp

@[simp] theorem phase4_anchor (l d s) : anchor (phase4 l d s) = anchor s := by
  induction l generalizing s with
  | nil => rfl
  | cons i l ih =>
    simp only [phase4]
    split
    · rfl
    · (repeat' split) <;> simp [ih]

@[simp] theorem writeBatch_anchor (d s) : anchor (writeBatch d s) = anchor s := by
  simp only [writeBatch]
  (repeat' split) <;> simp

@[simp] theorem modLoop_anchor (s d g) : anchor (modLoop s d g) = anchor s := by rfl

@[simp] theorem endServe_vitals (s d end_) : vitals (endServe s d end_) = vitals s := by
  unfold endServe
  split <;> simp

@[simp] theorem endServe_anchor (s d end_) : anchor (endServe s d end_) = anchor s := anchor_of_vitals (endServe_vitals s d end_)

@[simp] theorem loopEdge_anchor (d s) : anchor (loopEdge d s) = anchor s := by
  unfold loopEdge
  split <;> simp

@[simp] theorem boundaryPhase_anchor (d s k) : anchor (boundaryPhase d s k) = anchor s := by
  simp only [boundaryPhase]
  (repeat' split) <;> simp

@[simp] theorem boundaryEnd_anchor (d s) : anchor (boundaryEnd d s) = anchor s := by simp [boundaryEnd]

@[simp] theorem serveBoundary_anchor (d upto s) : anchor (serveBoundary d upto s) = anchor s := by
  simp only [serveBoundary]
  (repeat' split) <;> simp

@[simp] theorem serveStepStart_anchor (d cons s) : anchor (serveStepStart d cons s) = anchor s := by
  simp only [serveStepStart]
  (repeat' split) <;> simp

@[simp] theorem putToken_anchor (s d q token pos) : anchor (putToken s d q token pos) = anchor s := by
  unfold putToken
  split <;> simp

@[simp] theorem slotAfter_anchor (d s i) : anchor (slotAfter d s i) = anchor s := by
  simp only [slotAfter]
  (repeat' split) <;> simp

@[simp] theorem serveStepComplete_anchor (d s) : anchor (serveStepComplete d s) = anchor s := by
  simp only [serveStepComplete]
  (repeat' split) <;> simp

@[simp] theorem serveFaulted_vitals (s d) : vitals (serveFaulted s d) = vitals s := by simp [serveFaulted]
@[simp] theorem serveFaulted_anchor (s d) : anchor (serveFaulted s d) = anchor s := anchor_of_vitals (serveFaulted_vitals s d)

/-! ## SnapCmd -/

@[simp] theorem snapTaken_anchor (d s) : anchor (snapTaken d s) = anchor s := by
  unfold snapTaken
  split
  · split
    · next h =>
      obtain ⟨q, _, hq⟩ := List.exists_of_findSome?_eq_some h
      exact takeMsg_anchor hq
    · rfl
  · rfl

/-! ## Districts -/

@[simp] theorem closePools_anchor (g d s p) : anchor (closePools g d s p) = anchor s := by simp [closePools]

@[simp] theorem removeGroup_anchor (s g) : anchor (removeGroup s g) = anchor s := by
  unfold removeGroup
  split <;> simp

@[simp] theorem abortGroups_vitals (s d) : vitals (abortGroups s d) = vitals s := by simp [abortGroups]
@[simp] theorem abortGroups_anchor (s d) : anchor (abortGroups s d) = anchor s := anchor_of_vitals (abortGroups_vitals s d)
@[simp] theorem thaw_vitals (s d) : vitals (thaw s d) = vitals s := by simp [thaw]
@[simp] theorem thaw_anchor (s d) : anchor (thaw s d) = anchor s := anchor_of_vitals (thaw_vitals s d)

@[simp] theorem snapAborts_vitals (s d) : vitals (snapAborts s d) = vitals s := by
  simp only [snapAborts]
  (repeat' split) <;> simp

@[simp] theorem snapAborts_anchor (s d) : anchor (snapAborts s d) = anchor s := anchor_of_vitals (snapAborts_vitals s d)

@[simp] theorem stepFaulted_vitals (s d) : vitals (stepFaulted s d) = vitals s := by simp [stepFaulted]
@[simp] theorem stepFaulted_anchor (s d) : anchor (stepFaulted s d) = anchor s := anchor_of_vitals (stepFaulted_vitals s d)

@[simp] theorem enterFaulted_vitals (d code core s) : vitals (enterFaulted d code core s) = vitals s := by
  simp only [enterFaulted]
  (repeat' split) <;> simp

@[simp] theorem enterFaulted_anchor (d code core s) : anchor (enterFaulted d code core s) = anchor s :=
  anchor_of_vitals (enterFaulted_vitals d code core s)

@[simp] theorem settle_vitals (d s) : vitals (settle d s) = vitals s := by
  simp only [settle]
  (repeat' split) <;> simp

@[simp] theorem settle_anchor (d s) : anchor (settle d s) = anchor s := anchor_of_vitals (settle_vitals d s)

@[simp] theorem answerAbort_anchor (s d) : anchor (answerAbort s d) = anchor s := by simp [answerAbort]
@[simp] theorem abortDone_anchor (d s) : anchor (abortDone d s) = anchor s := by simp [abortDone]
@[simp] theorem settleAll_vitals (s) : vitals (settleAll s) = vitals s := by simp [settleAll]
@[simp] theorem settleAll_anchor (s) : anchor (settleAll s) = anchor s := anchor_of_vitals (settleAll_vitals s)
@[simp] theorem removeDist_anchor (d s) : anchor (removeDist d s) = anchor s := by simp [removeDist]
@[simp] theorem removeFn_anchor (d s) : anchor (removeFn d s) = anchor s := by simp [removeFn]

@[simp] theorem drainDone_anchor (d s) : anchor (drainDone d s) = anchor s := by
  simp only [drainDone]
  (repeat' split) <;> simp

@[simp] theorem engineBytes_anchor (s x) : anchor (engineBytes s x).2 = anchor s :=
  anchor_foldl_snd (fun _ _ => by simp) _ _

@[simp] theorem saveDone_anchor (d s) : anchor (saveDone d s) = anchor s := by
  simp only [saveDone]
  split
  · rfl
  · split
    · rfl
    · split
      · rfl
      · simp

@[simp] theorem restored_anchor (d s) : anchor (restored d s) = anchor s := by
  simp only [restored]
  (repeat' split) <;> simp

@[simp] theorem recovered_anchor (d s) : anchor (recovered d s) = anchor s := by simp [recovered]

@[simp] theorem recoverDone_anchor (d s) : anchor (recoverDone d s) = anchor s := by
  simp only [recoverDone]
  (repeat' split) <;> simp

/-! ## CollRows -/

@[simp] theorem notice_anchor (g pos kind args) {f : Group → State → State} (h : ∀ x s, anchor (f x s) = anchor s) (s) :
    anchor (notice g pos kind args f s) = anchor s := by
  unfold notice; split <;> simp [h]

@[simp] theorem dirInstall_anchor (d s) : anchor (dirInstall d s) = anchor s := by simp [dirInstall]
@[simp] theorem retrainEnd_anchor (p ok i ack s) : anchor (retrainEnd p ok i ack s) = anchor s := by simp [retrainEnd]

/-! ## Fatal -/

@[simp] theorem disablePort_vitals (s p) : vitals (disablePort s p) = vitals s := by simp [disablePort]
@[simp] theorem disablePort_anchor (s p) : anchor (disablePort s p) = anchor s := anchor_of_vitals (disablePort_vitals s p)
@[simp] theorem disablePorts_vitals (s) : vitals (disablePorts s) = vitals s := by simp [disablePorts]
@[simp] theorem disablePorts_anchor (s) : anchor (disablePorts s) = anchor s := anchor_of_vitals (disablePorts_vitals s)
@[simp] theorem fatalActed_anchor (cause s) : anchor (fatalActed cause s) = anchor s := by simp [fatalActed]
@[simp] theorem goFatal_anchor (cause s) : anchor (goFatal cause s) = anchor s := by simp [goFatal]
@[simp] theorem fatalTimeout_anchor (s) : anchor (fatalTimeout s) = anchor s := by simp [fatalTimeout]
@[simp] theorem watchdog_anchor (c s) : anchor (watchdog c s) = anchor s := by simp [watchdog]
@[simp] theorem countCe_anchor (s site) : anchor (countCe s site) = anchor s := by rfl
@[simp] theorem countUe_anchor (s site) : anchor (countUe s site) = anchor s := by simp [countUe]

@[simp] theorem memError_anchor (d e off err s) : anchor (memError d e off err s) = anchor s := by
  unfold memError
  split <;> simp

@[simp] theorem sliceError_anchor (d e off err s) : anchor (sliceError d e off err s) = anchor s := by
  unfold sliceError
  split <;> simp

/-! ## Memory -/

@[simp] theorem installSeg_anchor (s d n e) : anchor (installSeg s d n e) = anchor s := by simp [installSeg]

@[simp] theorem segSet_anchor (c n e s) : anchor (segSet c n e s) = anchor s := by
  simp only [segSet]
  split <;> simp

@[simp] theorem fillDone_anchor (d n s) : anchor (fillDone d n s) = anchor s := by
  unfold fillDone
  split <;> simp

@[simp] theorem segClear_anchor (s d n) : anchor (segClear s d n) = anchor s := by
  unfold segClear
  split <;> simp

@[simp] theorem servedDist_anchor (s d) : anchor (servedDist s d) = anchor s := by rfl
@[simp] theorem writeTo_anchor (s e off b gs) : anchor (writeTo s e off b gs) = anchor s := by simp [writeTo]
@[simp] theorem moveExtent_anchor (s m n) : anchor (moveExtent s m n) = anchor s := by simp [moveExtent]
@[simp] theorem setMove_anchor (s d old new) : anchor (setMove s d old new) = anchor s := by rfl

@[simp] theorem extentTransfer_anchor (d s) : anchor (extentTransfer d s) = anchor s := by
  unfold extentTransfer
  split <;> simp

@[simp] theorem moveDone_anchor (d s) : anchor (moveDone d s) = anchor s := by
  unfold moveDone
  split <;> simp

@[simp] theorem volCreated_anchor (v s) : anchor (volCreated v s) = anchor s := by
  simp only [volCreated]
  (repeat' split) <;> simp

@[simp] theorem volDelete_anchor (v s) : anchor (volDelete v s) = anchor s := by rfl
@[simp] theorem modBlock_anchor (s b f) : anchor (modBlock s b f) = anchor s := by rfl
@[simp] theorem relocate_anchor (s b) : anchor (relocate s b) = anchor s := by simp [relocate]
@[simp] theorem spareCheck_anchor (s) : anchor (spareCheck s) = anchor s := by simp [spareCheck]
@[simp] theorem retireBlock_anchor (s b) : anchor (retireBlock s b) = anchor s := by simp [retireBlock]
@[simp] theorem blockRead_anchor (s b retried) : anchor (blockRead s b retried) = anchor s := by simp [blockRead]
@[simp] theorem extentArrived_anchor (v e s) : anchor (extentArrived v e s) = anchor s := by rfl

@[simp] theorem extentRead_anchor (v e retries bad s) : anchor (extentRead v e retries bad s) = anchor s := by
  simp only [extentRead]
  (repeat' split) <;> simp

@[simp] theorem programDone_anchor (v e b ok s) : anchor (programDone v e b ok s) = anchor s := by
  simp only [programDone]
  (repeat' split) <;> simp

@[simp] theorem levelWear_anchor (s) : anchor (levelWear s) = anchor s := by
  simp only [levelWear]
  (repeat' split) <;> simp

@[simp] theorem eraseDone_anchor (b ok s) : anchor (eraseDone b ok s) = anchor s := by simp [eraseDone]
@[simp] theorem readMarks_anchor (s) : anchor (readMarks s) = anchor s := by simp [readMarks]

@[simp] theorem patrolUe_anchor (s site g) : anchor (patrolUe s site g) = anchor s := by
  simp only [patrolUe]
  (repeat' split) <;> simp

/-! ## Levels -/

@[simp] theorem recordLevel_anchor (old new by_ cause s) : anchor (recordLevel old new by_ cause s) = anchor s := by rfl
@[simp] theorem dropHalts_anchor (s) : anchor (dropHalts s) = anchor s := by simp [dropHalts]
@[simp] theorem openSession_anchor (x s) : anchor (openSession x s) = anchor s := by rfl

@[simp] theorem endSession_anchor (cause new s) : anchor (endSession cause new s) = anchor s := by
  unfold endSession
  split <;> simp

@[simp] theorem useNonce_anchor (s) : anchor (useNonce s) = anchor s := by rfl
@[simp] theorem rejectToken_anchor (n s) : anchor (rejectToken n s) = anchor s := by rfl
@[simp] theorem newNonce_anchor (s) : anchor (newNonce s) = anchor s := by rfl
@[simp] theorem destroyAll_anchor (s) : anchor (destroyAll s) = anchor s := by simp [destroyAll]
@[simp] theorem zeroiseBegin_anchor (s) : anchor (zeroiseBegin s) = anchor s := by simp [zeroiseBegin]
@[simp] theorem zeroMemories_anchor (s) : anchor (zeroMemories s) = anchor s := by simp [zeroMemories]
@[simp] theorem toReturn_anchor (p s) : anchor (toReturn p s) = anchor s := by simp [toReturn]

/-! ## Debug -/

@[simp] theorem openAct_anchor (p jtag pend s) : anchor (openAct p jtag pend s) = anchor s := by simp [openAct]

@[simp] theorem freshBytes_anchor (n s) : anchor (freshBytes n s).2 = anchor s := by
  induction n generalizing s with
  | zero => rfl
  | succ n ih => simp [freshBytes, ih]

@[simp] theorem sliceRead_anchor (a s) : anchor (sliceRead a s).2 = anchor s := by
  unfold sliceRead
  exact anchor_foldl_snd (fun r i => by split <;> simp) _ _

@[simp] theorem sliceWrite_anchor (a s) : anchor (sliceWrite a s) = anchor s := by
  unfold sliceWrite
  exact anchor_foldl _ (fun s d => by split <;> simp) _ _

@[simp] theorem accessRead_anchor (a s) : anchor (accessRead a s).2 = anchor s := by
  simp only [accessRead]; (repeat' split) <;> simp

@[simp] theorem accessWrite_anchor (a s) : anchor (accessWrite a s) = anchor s := by
  simp only [accessWrite]
  (repeat' split) <;> simp

@[simp] theorem inject_anchor (a s) : anchor (inject a s) = anchor s := by
  simp only [inject]
  (repeat' split) <;> simp

@[simp] theorem accessAct_anchor (a s) : anchor (accessAct a s).2 = anchor s := by
  simp only [accessAct]; (repeat' split) <;> simp

/-! ## Cores -/

@[simp] theorem softOnce_anchor (s d core idx code tag) : anchor (softOnce s d core idx code tag) = anchor s := by
  unfold softOnce
  split <;> simp

@[simp] theorem beginAs_anchor (s d core idx w) : anchor (beginAs s d core idx w) = anchor s := by rfl
@[simp] theorem vecApply_anchor (s d core idx out tag r) : anchor (vecApply s d core idx out tag r) = anchor s := by simp [vecApply]
@[simp] theorem runLane_anchor (d core i s) : anchor (runLane d core i s) = anchor s := by simp [runLane]
@[simp] theorem runSfn_anchor (d core i s) : anchor (runSfn d core i s) = anchor s := by simp [runSfn]
@[simp] theorem runCensus_anchor (d core i s) : anchor (runCensus d core i s) = anchor s := by simp [runCensus]

@[simp] theorem runWalk_anchor (d core i s) : anchor (runWalk d core i s) = anchor s := by
  simp only [runWalk]
  (repeat' split) <;> simp

@[simp] theorem runColl_anchor (d core i s) : anchor (runColl d core i s) = anchor s := by simp [runColl]
@[simp] theorem beginMat_anchor (d core i w s) : anchor (beginMat d core i w s) = anchor s := by simp [beginMat]

@[simp] theorem drainTile_anchor (d core s) : anchor (drainTile d core s) = anchor s := by
  simp only [drainTile]
  (repeat' split) <;> simp

/-! ## Transfers -/

@[simp] theorem endWrite_anchor (s d core e o b gs) : anchor (endWrite s d core e o b gs) = anchor s := by
  unfold endWrite
  split <;> simp

@[simp] theorem copyPiece_anchor (s d core x coded lim) : anchor (copyPiece s d core x coded lim).1 = anchor s := by simp [copyPiece]

theorem pageReadRow_anchor {s d core b e pages i r} (h : pageReadRow s d core b e pages i = some r) : anchor r.1 = anchor s := by
  simp only [pageReadRow] at h
  split at h
  · split at h
    · cases h
    · cases h; simp
  · split at h
    · cases h
    · cases h; simp

theorem pageWriteRow_anchor {s d core b e pages i r} (h : pageWriteRow s d core b e pages i = some r) : anchor r.1 = anchor s := by
  simp only [pageWriteRow] at h
  split at h
  · cases h; rfl
  · split at h
    · cases h
    · cases h; simp

@[simp] theorem setXfer_anchor (s d core idx pf y) : anchor (setXfer s d core idx pf y) = anchor s := by simp [setXfer]
@[simp] theorem moveSofts_anchor (s d core idx pf pois err) : anchor (moveSofts s d core idx pf pois err) = anchor s := by simp [moveSofts]

@[simp] theorem useSource_anchor (s x) : anchor (useSource s x) = anchor s := by
  unfold useSource
  split <;> simp

@[simp] theorem advance_anchor (s d core idx pf lim x) : anchor (advance s d core idx pf lim x) = anchor s := by
  simp only [advance]
  split
  · rfl
  · split
    · split
      · split
        · simp
        · next h =>
          simp
          split at h
          · exact pageReadRow_anchor h
          · exact pageWriteRow_anchor h
          · cases h
      · simp
    · simp

@[simp] theorem runLocal_anchor (d core idx fuel s) : anchor (runLocal d core idx fuel s) = anchor s := by
  induction fuel generalizing s with
  | zero => rfl
  | succ fuel ih => unfold runLocal; split <;> simp [ih]

@[simp] theorem chanServe_anchor (s ch bid off n write) : anchor (chanServe s ch bid off n write) = anchor s := by rfl
@[simp] theorem chanRange_anchor (s bid off n write) : anchor (chanRange s bid off n write) = anchor s := by simp [chanRange]

@[simp] theorem chanCarry_anchor (s d core idx pf x) : anchor (chanCarry s d core idx pf x) = anchor s := by
  unfold chanCarry
  split
  · rfl
  · simp only
    split <;> simp

@[simp] theorem memTransaction_anchor (d core idx pf err s) : anchor (memTransaction d core idx pf err s) = anchor s := by
  simp only [memTransaction]
  (repeat' split) <;> simp

@[simp] theorem sliceAccess_anchor (d core idx pf err s) : anchor (sliceAccess d core idx pf err s) = anchor s := by
  simp only [sliceAccess]
  (repeat' split) <;> simp

@[simp] theorem sliceAtomic_anchor (d core idx err s) : anchor (sliceAtomic d core idx err s) = anchor s := by
  simp only [sliceAtomic]
  (repeat' split) <;> simp

@[simp] theorem ordsumRow_anchor (d core idx err s) : anchor (ordsumRow d core idx err s) = anchor s := by
  simp only [ordsumRow]
  (repeat' split) <;> simp

@[simp] theorem cancelFlash_anchor (s x) : anchor (cancelFlash s x) = anchor s := by
  unfold cancelFlash
  split <;> simp

@[simp] theorem modXfer_anchor (s d core idx pf x) : anchor (modXfer s d core idx pf x) = anchor s := by rfl

@[simp] theorem skipRun_anchor (d core idx pf s) : anchor (skipRun d core idx pf s) = anchor s := by
  simp only [skipRun]
  (repeat' split) <;> simp

@[simp] theorem deadlineExpiry_anchor (d core idx pf s) : anchor (deadlineExpiry d core idx pf s) = anchor s := by
  simp only [deadlineExpiry]
  (repeat' split) <;> simp

/-! ## Descriptors -/

@[simp] theorem tryBegin_anchor (d core s idx) : anchor (tryBegin d core s idx) = anchor s := by
  simp only [tryBegin]
  (repeat' split) <;> simp

@[simp] theorem tryPrefetch_anchor (d core s idx) : anchor (tryPrefetch d core s idx) = anchor s := by
  unfold tryPrefetch
  split <;> simp

@[simp] theorem pump_anchor (d core s) : anchor (pump d core s) = anchor s := by simp [pump]
@[simp] theorem after_anchor (d core s) : anchor (after d core s) = anchor s := by simp [after]

@[simp] theorem issueEntry_anchor (d core q s) : anchor (issueEntry d core q s) = anchor s := by
  simp only [issueEntry]
  (repeat' split) <;> simp

@[simp] theorem issue_anchor (kind d core s) : anchor (issue kind d core s) = anchor s := by
  simp only [issue]
  (repeat' split) <;> simp

@[simp] theorem prefetchComplete_anchor (d core idx s) : anchor (prefetchComplete d core idx s) = anchor s := by simp [prefetchComplete]
@[simp] theorem addInc_anchor (d s b) : anchor (addInc d s b) = anchor s := by rfl
@[simp] theorem pairIncrement_anchor (d cores s) : anchor (pairIncrement d cores s) = anchor s := by simp [pairIncrement]

@[simp] theorem waitMet_anchor (d core s) : anchor (waitMet d core s) = anchor s := by
  unfold waitMet
  split <;> simp

@[simp] theorem waitExpiry_anchor (d core s) : anchor (waitExpiry d core s) = anchor s := by
  unfold waitExpiry
  split <;> simp

@[simp] theorem descComplete_anchor (d core s) : anchor (descComplete d core s) = anchor s := by
  simp only [descComplete]
  (repeat' split) <;> simp

/-! ## Health -/

@[simp] theorem recompute_anchor (droops s) : anchor (recompute droops s) = anchor s := by simp [recompute]

/-! ## Jtag -/

@[simp] theorem jtagOut_anchor (code d s) : anchor (jtagOut code d s) = anchor s := by rfl
@[simp] theorem jtagFree_anchor (code s) : anchor (jtagFree code s) = anchor s := by rfl
@[simp] theorem setJtagMode_anchor (m s) : anchor (setJtagMode m s) = anchor s := by rfl

/-! ## Mgmt -/

@[simp] theorem setCap_anchor (w s) : anchor (setCap w s) = anchor s := by simp [setCap]
@[simp] theorem storeSettings_anchor (s) : anchor (storeSettings s) = anchor s := by rfl
@[simp] theorem effecterSet_anchor (id v s) : anchor (effecterSet id v s) = anchor s := by simp [effecterSet]
@[simp] theorem sensorRead_anchor (id s) : anchor (sensorRead id s) = anchor s := by simp [sensorRead]

@[simp] theorem mgmtRequest_anchor (r s) : anchor (mgmtRequest r s) = anchor s := by
  unfold mgmtRequest
  split <;> simp

/-! ## Power -/

@[simp] theorem powerEvent_anchor (old new micros s) : anchor (powerEvent old new micros s) = anchor s := by rfl
@[simp] theorem enterIdle_anchor (s) : anchor (enterIdle s) = anchor s := by rfl
@[simp] theorem retainBegin_anchor (s) : anchor (retainBegin s) = anchor s := by simp [retainBegin]
@[simp] theorem retainEnter_anchor (s) : anchor (retainEnter s) = anchor s := by rfl
@[simp] theorem offBegin_anchor (c force s) : anchor (offBegin c force s) = anchor s := by simp [offBegin]
@[simp] theorem offEnter_anchor (s) : anchor (offEnter s) = anchor s := by simp [offEnter]
@[simp] theorem setFlags_anchor (p s) : anchor (setFlags p s) = anchor s := by rfl
@[simp] theorem pwrAct_anchor (c s) : anchor (pwrAct c s) = anchor s := by simp [pwrAct]
@[simp] theorem setDie_anchor (die f mv s) : anchor (setDie die f mv s) = anchor s := by rfl
@[simp] theorem lowerDie_anchor (die to_ s) : anchor (lowerDie die to_ s) = anchor s := by rfl
@[simp] theorem raiseDie_anchor (die to_ s) : anchor (raiseDie die to_ s) = anchor s := by simp [raiseDie]
@[simp] theorem lowerSome_anchor (die s) : anchor (lowerSome die s) = anchor s := by rfl

@[simp] theorem bothDies_anchor {g : Nat → State → State} (h : ∀ d s, anchor (g d s) = anchor s) (s) : anchor (bothDies g s) = anchor s := by
  simp [bothDies, h]

@[simp] theorem capWindow_anchor (w s) : anchor (capWindow w s) = anchor s := by simp [capWindow]
@[simp] theorem postThermal_anchor (s) : anchor (postThermal s) = anchor s := by simp [postThermal]
@[simp] theorem sampleTemps_anchor (e w h k s) : anchor (sampleTemps e w h k s) = anchor s := by simp [sampleTemps]

/-! ## Programs -/

@[simp] theorem installProg_anchor (s d l) : anchor (installProg s d l) = anchor s := by simp [installProg]

@[simp] theorem loadFinal_anchor (d s) : anchor (loadFinal d s) = anchor s := by
  simp only [loadFinal]
  (repeat' split) <;> simp

@[simp] theorem installTbl_anchor (s d slot img) : anchor (installTbl s d slot img) = anchor s := by simp [installTbl]
@[simp] theorem tblChange_anchor (c cmd slot img s) : anchor (tblChange c cmd slot img s) = anchor s := by simp [tblChange]

@[simp] theorem tblInstall_anchor (d slot s) : anchor (tblInstall d slot s) = anchor s := by
  simp only [tblInstall]
  (repeat' split) <;> simp

/-! ## Security -/

@[simp] theorem advanceRollback_anchor (s) : anchor (advanceRollback s) = anchor s := by
  unfold advanceRollback
  split <;> simp

@[simp] theorem ownerNonce_anchor (s) : anchor (ownerNonce s) = anchor s := by simp [ownerNonce]
@[simp] theorem advanceLifecycle_anchor (t s) : anchor (advanceLifecycle t s) = anchor s := by simp [advanceLifecycle]

/-! ## Resets -/

theorem bootStart_anchor (t s) : anchor (bootStart t s) = anchor { s with pins := { s.pins with sysRst := false, pwrGood := true } } := by
  simp only [bootStart]
  (repeat' split) <;> simp

@[simp] theorem resetFns_anchor (s) : anchor (resetFns s) = anchor s := by rfl
@[simp] theorem resetPort_anchor (s) : anchor (resetPort s) = anchor s := by rfl
@[simp] theorem cutSlot_anchor (w s) : anchor (cutSlot w s) = anchor s := by simp [cutSlot]

@[simp] theorem cutAll_anchor (s) : anchor (cutAll s) = anchor s := by
  simp only [cutAll]
  (repeat' split) <;> simp

theorem sysReset_anchor (s) : anchor (sysReset s) = anchor { s with pins := { s.pins with sysRst := true } } := by
  have h : anchor (resetFns (cutAll s)) = anchor s := by simp
  unfold sysReset
  split
  · next h => rw [← h]
  · simp only [anchor, Prod.mk.injEq] at h ⊢
    simp [h]

theorem aonReset_anchor (s) : anchor (aonReset s) = anchor { s with pins := { s.pins with sysRst := true, aonRst := true } } := by
  have h := sysReset_anchor s
  simp only [anchor, Prod.mk.injEq] at h
  simp [aonReset, anchor, h]

@[simp] theorem bootSlot_anchor (i s) : anchor (bootSlot i s) = anchor s := by rfl
/-- The slots' order and the bundle checks are generalised before the case split: the kernel would otherwise run them on the store. -/
@[simp] theorem verifyBoot_anchor (s) : anchor (verifyBoot s) = anchor s := by
  have h : ∀ f, f = verifyBoot → anchor (f s) = anchor s := by
    delta verifyBoot
    intro f hf
    rw [congrFun hf s]
    generalize slotOrder s.nvm = l, bundleFail s.sec = f, slotMem s.nvm = g
    split
    · split
      · exact bootSlot_anchor _ _
      · split
        · exact (bootSlot_anchor _ _).trans (emit_anchor _ _ _ _ _ _)
        · rfl
    · rfl
  exact h _ rfl

end Sys2Proof.Machine
end

section
/-! What each command's answer keeps of the anchor. -/

namespace Sys2Proof.Machine

/-- An answer keeps the anchor: the state it leaves, if it leaves one, has the anchor of the state before. -/
def Anchored (s : State) (a : Answer) : Prop := ∀ t, a = .next t → anchor t = anchor s

@[simp] theorem anchored_next (s t) : Anchored s (.next t) ↔ anchor t = anchor s := by simp [Anchored]
@[simp] theorem anchored_fault (s r) : Anchored s (.fault r) := by simp [Anchored]

/-! ## The shared forms of an answer -/

@[simp] theorem fwStep_anchored (k c checks) {eff : State → State} (h : ∀ s, anchor (eff s) = anchor s) (s) :
    Anchored s (fwStep k c checks eff s) := by
  unfold fwStep
  split
  · simpa using fwRun_anchor k c checks h s
  · simp

@[simp] theorem hostStep_anchored (f) {g : State → State} (h : ∀ s, anchor (g s) = anchor s) (s) : Anchored s (hostStep f g s) := by
  unfold hostStep
  split <;> simp [h]

@[simp] theorem hostReq_anchored (f) {g : State → State} (h : ∀ s, anchor (g s) = anchor s) (s) : Anchored s (hostReq f g s) := by
  simp [hostReq, h]

@[simp] theorem groupWork_anchored (g) {f : State → State} (h : ∀ s, anchor (f s) = anchor s) (s) : Anchored s (groupWork g f s) := by
  simp [groupWork, h]

@[simp] theorem errorWork_anchored {f : State → State} (h : ∀ s, anchor (f s) = anchor s) (s) : Anchored s (errorWork f s) := by
  simp [errorWork, h]

@[simp] theorem boundary_anchored (mode) {g : State → State} (h : ∀ s, anchor (g s) = anchor s) (s) : Anchored s (boundary mode g s) := by
  simp [boundary, h]

@[simp] theorem spdmStep_anchored (via g s) : Anchored s (spdmStep via g s) := by simp [spdmStep]
@[simp] theorem spdmFresh_anchored (via g s) : Anchored s (spdmFresh via g s) := by simp [spdmFresh]


/-! ## EventRing -/

@[simp] theorem execEventRecordArrival_anchored (i s) : Anchored s (execEventRecordArrival i s) := by simp [execEventRecordArrival]
@[simp] theorem execRingHoldExpiry_anchored (fresh s) : Anchored s (execRingHoldExpiry fresh s) := by simp [execRingHoldExpiry]
@[simp] theorem execConsRoutineRead_anchored (f v s) : Anchored s (execConsRoutineRead f v s) := by simp [execConsRoutineRead]
@[simp] theorem execRingAgeExpiry_anchored (f s) : Anchored s (execRingAgeExpiry f s) := by simp [execRingAgeExpiry]
@[simp] theorem execMsiModerationExpiry_anchored (f vec s) : Anchored s (execMsiModerationExpiry f vec s) := by simp [execMsiModerationExpiry]
@[simp] theorem execPcieLinkLoss_anchored (s) : Anchored s (execPcieLinkLoss s) := by simp [execPcieLinkLoss]
@[simp] theorem execPcieLinkReturn_anchored (s) : Anchored s (execPcieLinkReturn s) := by simp [execPcieLinkReturn]

@[simp] theorem execPcieLinkTrained_anchored (speed width flitMode s) :
    Anchored s (execPcieLinkTrained speed width flitMode s) := by
  simp [execPcieLinkTrained]

@[simp] theorem execPcieL0pWidthChange_anchored (width s) : Anchored s (execPcieL0pWidthChange width s) := by simp [execPcieL0pWidthChange]

/-! ## StreetIndex -/

@[simp] theorem execIndexBuildDone_anchored (s) : Anchored s (execIndexBuildDone s) := by simp [execIndexBuildDone]

/-! ## HostPort -/

@[simp] theorem execMailboxSlotWrite_anchored (f outbound slot off d s) :
    Anchored s (execMailboxSlotWrite f outbound slot off d s) := by
  simp [execMailboxSlotWrite]

@[simp] theorem execInboundOwnerPost_anchored (f slot rest s) : Anchored s (execInboundOwnerPost f slot rest s) := by simp [execInboundOwnerPost]
@[simp] theorem execOutboundSlotReturn_anchored (f slot s) : Anchored s (execOutboundSlotReturn f slot s) := by simp [execOutboundSlotReturn]
@[simp] theorem execReplyPost_anchored (f s) : Anchored s (execReplyPost f s) := by simp [execReplyPost]
@[simp] theorem execFunctionLevelReset_anchored (f s) : Anchored s (execFunctionLevelReset f s) := by simp [execFunctionLevelReset]
@[simp] theorem execFlrDone_anchored (f s) : Anchored s (execFlrDone f s) := by simp [execFlrDone]
@[simp] theorem execBar2Read_anchored (f off n s) : Anchored s (execBar2Read f off n s) := by simp [execBar2Read]
@[simp] theorem execBar2Write_anchored (f off d s) : Anchored s (execBar2Write f off d s) := by simp [execBar2Write]
@[simp] theorem execRegLowWordRead_anchored (f off whole s) : Anchored s (execRegLowWordRead f off whole s) := by simp [execRegLowWordRead]

@[simp] theorem execHostFlagsRead_anchored (f part s) : Anchored s (execHostFlagsRead f part s) := by
  unfold execHostFlagsRead
  split <;> simp

@[simp] theorem execHostFlagsClear_anchored (f v s) : Anchored s (execHostFlagsClear f v s) := by simp [execHostFlagsClear]
@[simp] theorem execBar0PlainWrite_anchored (f off d s) : Anchored s (execBar0PlainWrite f off d s) := by simp [execBar0PlainWrite]
@[simp] theorem execConfigRead_anchored (f off s) : Anchored s (execConfigRead f off s) := by simp [execConfigRead]
@[simp] theorem execConfigWrite_anchored (f w s) : Anchored s (execConfigWrite f w s) := by simp [execConfigWrite]

/-! ## DevCmd -/

@[simp] theorem execDevNop_anchored (c s) : Anchored s (execDevNop c s) := by simp [execDevNop]
@[simp] theorem execDevIndex_anchored (c s) : Anchored s (execDevIndex c s) := by simp [execDevIndex]
@[simp] theorem execDevRingSet_anchored (c s) : Anchored s (execDevRingSet c s) := by simp [execDevRingSet]
@[simp] theorem execDevRingOff_anchored (c s) : Anchored s (execDevRingOff c s) := by simp [execDevRingOff]
@[simp] theorem execDevWindow_anchored (c s) : Anchored s (execDevWindow c s) := by simp [execDevWindow]
@[simp] theorem execDevRecBegin_anchored (c s) : Anchored s (execDevRecBegin c s) := by simp [execDevRecBegin]
@[simp] theorem execDevRecData_anchored (c s) : Anchored s (execDevRecData c s) := by simp [execDevRecData]
@[simp] theorem execDevRecEnd_anchored (c s) : Anchored s (execDevRecEnd c s) := by simp [execDevRecEnd]

@[simp] theorem execRecoveryStart_anchored (s) : Anchored s (execRecoveryStart s) := by
  refine (anchored_next _ _).2 (anchor_when _ _ (fun s => ?_) s)
  dsimp only
  split <;> simp

/-! ## Store -/

@[simp] theorem execStoreWriteDone_anchored (s) : Anchored s (execStoreWriteDone s) := by
  unfold execStoreWriteDone
  split <;> simp

/-! ## Links -/

@[simp] theorem execFlitSend_anchored (p s) : Anchored s (execFlitSend p s) := by
  refine (anchored_next _ _).2 (anchor_when _ _ (fun s => ?_) s)
  dsimp only
  (repeat' split) <;> simp

@[simp] theorem execNullSend_anchored (p s) : Anchored s (execNullSend p s) := by simp [execNullSend]
@[simp] theorem execNakReceive_anchored (p fseq s) : Anchored s (execNakReceive p fseq s) := by simp [execNakReceive]
@[simp] theorem execFlitReceive_anchored (p b errs s) : Anchored s (execFlitReceive p b errs s) := by simp [execFlitReceive]
@[simp] theorem execNakRepeatTimer_anchored (p s) : Anchored s (execNakRepeatTimer p s) := by simp [execNakRepeatTimer]
@[simp] theorem execCreditSetReceive_anchored (p l s) : Anchored s (execCreditSetReceive p l s) := by simp [execCreditSetReceive]
@[simp] theorem execLinkWatchdogExpiry_anchored (p s) : Anchored s (execLinkWatchdogExpiry p s) := by simp [execLinkWatchdogExpiry]
@[simp] theorem execLaneLockLoss_anchored (p lane s) : Anchored s (execLaneLockLoss p lane s) := by simp [execLaneLockLoss]
@[simp] theorem execIdentReceive_anchored (p b s) : Anchored s (execIdentReceive p b s) := by simp [execIdentReceive]
@[simp] theorem execLinkCe_anchored (p s) : Anchored s (execLinkCe p s) := by simp [execLinkCe]
@[simp] theorem execSyncSend_anchored (p s) : Anchored s (execSyncSend p s) := by simp [execSyncSend]
@[simp] theorem execRootLossTimer_anchored (s) : Anchored s (execRootLossTimer s) := by simp [execRootLossTimer]
@[simp] theorem execLinkTrainingAttemptEnd_anchored (p ok s) : Anchored s (execLinkTrainingAttemptEnd p ok s) := by simp [execLinkTrainingAttemptEnd]
@[simp] theorem execCollLinkConfig_anchored (c s) : Anchored s (execCollLinkConfig c s) := by simp [execCollLinkConfig]
@[simp] theorem execCollLinkRoute_anchored (c s) : Anchored s (execCollLinkRoute c s) := by simp [execCollLinkRoute]
@[simp] theorem execCollLinkEnable_anchored (c s) : Anchored s (execCollLinkEnable c s) := by simp [execCollLinkEnable]
@[simp] theorem execCollLinkDisable_anchored (c s) : Anchored s (execCollLinkDisable c s) := by simp [execCollLinkDisable]
@[simp] theorem execCollLinkInfo_anchored (c s) : Anchored s (execCollLinkInfo c s) := by simp [execCollLinkInfo]

/-! ## StepGate -/

@[simp] theorem execStepOpen_anchored (d s) : Anchored s (execStepOpen d s) := by simp [execStepOpen]
@[simp] theorem execFeedMoveDone_anchored (d s) : Anchored s (execFeedMoveDone d s) := by simp [execFeedMoveDone]

/-! ## GateCmd -/

@[simp] theorem execGateMemberReady_anchored (d s) : Anchored s (execGateMemberReady d s) := by simp [execGateMemberReady]
@[simp] theorem execGateMessageReceive_anchored (d m s) : Anchored s (execGateMessageReceive d m s) := by simp [execGateMessageReceive]
@[simp] theorem execUpdateProgramComplete_anchored (d s) : Anchored s (execUpdateProgramComplete d s) := by simp [execUpdateProgramComplete]
@[simp] theorem execGateEvalTimeout_anchored (d s) : Anchored s (execGateEvalTimeout d s) := by simp [execGateEvalTimeout]

@[simp] theorem execEarlyRefusalNotice_anchored (d pos causes sig s) :
    Anchored s (execEarlyRefusalNotice d pos causes sig s) := by
  simp [execEarlyRefusalNotice]

@[simp] theorem execEarlyAbortComplete_anchored (d s) : Anchored s (execEarlyAbortComplete d s) := by simp [execEarlyAbortComplete]

@[simp] theorem execStepConfig_anchored (c s) : Anchored s (execStepConfig c s) := by
  refine fwStep_anchored _ _ _ (fun s => ?_) s
  dsimp only
  split
  · next h => simp [bindVec_anchor h]
  · simp

@[simp] theorem execStepRun_anchored (c s) : Anchored s (execStepRun c s) := by simp [execStepRun]
@[simp] theorem execStepStop_anchored (c s) : Anchored s (execStepStop c s) := by simp [execStepStop]
@[simp] theorem execStepCommit_anchored (c s) : Anchored s (execStepCommit c s) := by simp [execStepCommit]
@[simp] theorem execStepResume_anchored (c s) : Anchored s (execStepResume c s) := by simp [execStepResume]
@[simp] theorem execStepInfo_anchored (c s) : Anchored s (execStepInfo c s) := by simp [execStepInfo]
@[simp] theorem execStepSet_anchored (c s) : Anchored s (execStepSet c s) := by simp [execStepSet]

/-! ## Media -/

@[simp] theorem execMediaJobEnd_anchored (enc pipe s) : Anchored s (execMediaJobEnd enc pipe s) := by
  refine (anchored_next _ _).2 (anchor_when _ _ (fun s => ?_) s)
  split <;> simp

@[simp] theorem execMediaFrameDecode_anchored (pipe f s) : Anchored s (execMediaFrameDecode pipe f s) := by simp [execMediaFrameDecode]
@[simp] theorem execMediaFrameEncode_anchored (pipe f s) : Anchored s (execMediaFrameEncode pipe f s) := by simp [execMediaFrameEncode]
@[simp] theorem execTokenGroupConvert_anchored (pipe s) : Anchored s (execTokenGroupConvert pipe s) := by simp [execTokenGroupConvert]

@[simp] theorem execMediaJobStart_anchored (c s) : Anchored s (execMediaJobStart c s) := by
  refine fwStep_anchored _ _ _ (fun s => ?_) s
  dsimp only
  split
  · next h => simp [bindVec_anchor h]
  · simp

@[simp] theorem execMediaJobExtend_anchored (c s) : Anchored s (execMediaJobExtend c s) := by simp [execMediaJobExtend]
@[simp] theorem execMediaJobStop_anchored (c s) : Anchored s (execMediaJobStop c s) := by simp [execMediaJobStop]
@[simp] theorem execMediaPipeInfo_anchored (c s) : Anchored s (execMediaPipeInfo c s) := by simp [execMediaPipeInfo]

/-! ## Serving -/

@[simp] theorem execServeBoundary_anchored (d upto s) : Anchored s (execServeBoundary d upto s) := by simp [execServeBoundary]
@[simp] theorem execServeStepStart_anchored (d cons s) : Anchored s (execServeStepStart d cons s) := by simp [execServeStepStart]
@[simp] theorem execServeStepComplete_anchored (d s) : Anchored s (execServeStepComplete d s) := by simp [execServeStepComplete]
@[simp] theorem execImmediateEditApply_anchored (d slot s) : Anchored s (execImmediateEditApply d slot s) := by simp [execImmediateEditApply]
@[simp] theorem execServePoolCreate_anchored (c s) : Anchored s (execServePoolCreate c s) := by simp [execServePoolCreate]

@[simp] theorem execServePoolDestroy_anchored (c s) : Anchored s (execServePoolDestroy c s) := by
  simp only [execServePoolDestroy]
  (repeat' split) <;> simp

@[simp] theorem execServeJoin_anchored (c s) : Anchored s (execServeJoin c s) := by
  simp only [execServeJoin]
  (repeat' split) <;> simp

@[simp] theorem execServeLeave_anchored (c s) : Anchored s (execServeLeave c s) := by
  simp only [execServeLeave]
  (repeat' split) <;> simp

@[simp] theorem execServeTruncate_anchored (c s) : Anchored s (execServeTruncate c s) := by simp [execServeTruncate]
@[simp] theorem execServeSeqInfo_anchored (c s) : Anchored s (execServeSeqInfo c s) := by simp [execServeSeqInfo]
@[simp] theorem execServePoolInfo_anchored (c s) : Anchored s (execServePoolInfo c s) := by simp [execServePoolInfo]

@[simp] theorem execServeRun_anchored (c s) : Anchored s (execServeRun c s) := by
  refine fwStep_anchored _ _ _ (fun s => ?_) s
  dsimp only
  split
  · simp
  · next h => simp [bindVec_anchor h]

@[simp] theorem execServeStop_anchored (c s) : Anchored s (execServeStop c s) := by simp [execServeStop]

/-! ## SnapCmd -/

@[simp] theorem execSnapPolicy_anchored (c s) : Anchored s (execSnapPolicy c s) := by simp [execSnapPolicy]
@[simp] theorem execSnapTake_anchored (c s) : Anchored s (execSnapTake c s) := by simp [execSnapTake]
@[simp] theorem execSnapInfo_anchored (c s) : Anchored s (execSnapInfo c s) := by simp [execSnapInfo]

@[simp] theorem execSnapRestore_anchored (c s) : Anchored s (execSnapRestore c s) := by
  refine fwStep_anchored _ _ _ (fun s => ?_) s
  dsimp only
  split <;> simp

@[simp] theorem execSnapRestoreDone_anchored (d s) : Anchored s (execSnapRestoreDone d s) := by simp [execSnapRestoreDone]
@[simp] theorem execSnapFill_anchored (c s) : Anchored s (execSnapFill c s) := by simp [execSnapFill]
@[simp] theorem execSnapFillInfo_anchored (c s) : Anchored s (execSnapFillInfo c s) := by simp [execSnapFillInfo]
@[simp] theorem execSnapServe_anchored (c s) : Anchored s (execSnapServe c s) := by simp [execSnapServe]
@[simp] theorem execSnapCaptureDone_anchored (d s) : Anchored s (execSnapCaptureDone d s) := by simp [execSnapCaptureDone]

@[simp] theorem execSnapMirrorReceive_anchored (d ext data last s) :
    Anchored s (execSnapMirrorReceive d ext data last s) := by
  simp [execSnapMirrorReceive]

@[simp] theorem execSnapRegionWriteDone_anchored (d mirror s) : Anchored s (execSnapRegionWriteDone d mirror s) := by simp [execSnapRegionWriteDone]
@[simp] theorem execFillRequestReceive_anchored (d ext s) : Anchored s (execFillRequestReceive d ext s) := by simp [execFillRequestReceive]

@[simp] theorem execFillExtentReceive_anchored (d ext data ok s) :
    Anchored s (execFillExtentReceive d ext data ok s) := by
  simp [execFillExtentReceive]

/-! ## Districts -/

@[simp] theorem execDistCreate_anchored (c s) : Anchored s (execDistCreate c s) := by
  simp only [execDistCreate]
  (repeat' split) <;> simp

@[simp] theorem execDistDestroy_anchored (c s) : Anchored s (execDistDestroy c s) := by simp [execDistDestroy]
@[simp] theorem execDistPause_anchored (c s) : Anchored s (execDistPause c s) := by simp [execDistPause]
@[simp] theorem execDistDrainDone_anchored (d s) : Anchored s (execDistDrainDone d s) := by simp [execDistDrainDone]
@[simp] theorem execDistSaveDone_anchored (d s) : Anchored s (execDistSaveDone d s) := by simp [execDistSaveDone]
@[simp] theorem execDistResume_anchored (c s) : Anchored s (execDistResume c s) := by simp [execDistResume]
@[simp] theorem execDistRestoreDone_anchored (d s) : Anchored s (execDistRestoreDone d s) := by simp [execDistRestoreDone]
@[simp] theorem execDistRecover_anchored (c s) : Anchored s (execDistRecover c s) := by simp [execDistRecover]
@[simp] theorem execDistRecoverDone_anchored (d s) : Anchored s (execDistRecoverDone d s) := by simp [execDistRecoverDone]
@[simp] theorem execDistInfo_anchored (c s) : Anchored s (execDistInfo c s) := by simp [execDistInfo]

/-! ## CollRows -/

@[simp] theorem execCollPutAccept_anchored (g s) : Anchored s (execCollPutAccept g s) := by
  refine groupWork_anchored _ (fun s => ?_) s
  split <;> simp

@[simp] theorem execChunkMessageReceive_anchored (g p s) : Anchored s (execChunkMessageReceive g p s) := by simp [execChunkMessageReceive]
@[simp] theorem execDispatchMessageReceive_anchored (g p s) : Anchored s (execDispatchMessageReceive g p s) := by simp [execDispatchMessageReceive]
@[simp] theorem execReturnMessageReceive_anchored (g p s) : Anchored s (execReturnMessageReceive g p s) := by simp [execReturnMessageReceive]
@[simp] theorem execChunkCheckDone_anchored (g chunk src ok s) : Anchored s (execChunkCheckDone g chunk src ok s) := by simp [execChunkCheckDone]
@[simp] theorem execChunkAckBatch_anchored (g s) : Anchored s (execChunkAckBatch g s) := by simp [execChunkAckBatch]
@[simp] theorem execChunkAckReceive_anchored (g src chunks s) : Anchored s (execChunkAckReceive g src chunks s) := by simp [execChunkAckReceive]

@[simp] theorem execRetxRequestReceive_anchored (g src chunk s) :
    Anchored s (execRetxRequestReceive g src chunk s) := by
  simp [execRetxRequestReceive]

@[simp] theorem execTaintNoticeReceive_anchored (g gseq pos s) : Anchored s (execTaintNoticeReceive g gseq pos s) := by simp [execTaintNoticeReceive]

@[simp] theorem execAbortNoticeReceive_anchored (g gseq detector pos s) :
    Anchored s (execAbortNoticeReceive g gseq detector pos s) := by
  simp [execAbortNoticeReceive]

@[simp] theorem execGroupTimeoutExpiry_anchored (g s) : Anchored s (execGroupTimeoutExpiry g s) := by simp [execGroupTimeoutExpiry]
@[simp] theorem execInstanceClose_anchored (g s) : Anchored s (execInstanceClose g s) := by simp [execInstanceClose]
@[simp] theorem execDispatchBlockRoute_anchored (g s) : Anchored s (execDispatchBlockRoute g s) := by simp [execDispatchBlockRoute]
@[simp] theorem execDispatchInboxWrite_anchored (g s) : Anchored s (execDispatchInboxWrite g s) := by simp [execDispatchInboxWrite]
@[simp] theorem execColdWarmingDone_anchored (g slot s) : Anchored s (execColdWarmingDone g slot s) := by simp [execColdWarmingDone]
@[simp] theorem execColdDeadlineExpiry_anchored (g slot s) : Anchored s (execColdDeadlineExpiry g slot s) := by simp [execColdDeadlineExpiry]
@[simp] theorem execSlotCountsTakeDone_anchored (g s) : Anchored s (execSlotCountsTakeDone g s) := by simp [execSlotCountsTakeDone]
@[simp] theorem execInstanceCountsTakeDone_anchored (g s) : Anchored s (execInstanceCountsTakeDone g s) := by simp [execInstanceCountsTakeDone]
@[simp] theorem execCollGroupCreate_anchored (c s) : Anchored s (execCollGroupCreate c s) := by simp [execCollGroupCreate]
@[simp] theorem execCollGroupDestroy_anchored (c s) : Anchored s (execCollGroupDestroy c s) := by simp [execCollGroupDestroy]

@[simp] theorem execCollPlanSet_anchored (c s) : Anchored s (execCollPlanSet c s) := by
  refine fwStep_anchored _ _ _ (fun s => ?_) s
  dsimp only
  split <;> simp

@[simp] theorem execCollGroupReset_anchored (c s) : Anchored s (execCollGroupReset c s) := by
  refine fwStep_anchored _ _ _ (fun s => ?_) s
  dsimp only
  split <;> simp

@[simp] theorem execCollAbort_anchored (c s) : Anchored s (execCollAbort c s) := by simp [execCollAbort]

@[simp] theorem execCollGroupInfo_anchored (c s) : Anchored s (execCollGroupInfo c s) := by
  refine fwStep_anchored _ _ _ (fun s => ?_) s
  dsimp only
  split <;> simp

@[simp] theorem execCollDirWrite_anchored (c s) : Anchored s (execCollDirWrite c s) := by simp [execCollDirWrite]
@[simp] theorem execDirWriteInstall_anchored (d s) : Anchored s (execDirWriteInstall d s) := by simp [execDirWriteInstall]
@[simp] theorem execCollDirRead_anchored (c s) : Anchored s (execCollDirRead c s) := by simp [execCollDirRead]

@[simp] theorem execCollDispBind_anchored (c s) : Anchored s (execCollDispBind c s) := by
  refine fwStep_anchored _ _ _ (fun s => ?_) s
  dsimp only
  split <;> simp

@[simp] theorem execCollDispInfo_anchored (c s) : Anchored s (execCollDispInfo c s) := by
  refine fwStep_anchored _ _ _ (fun s => ?_) s
  split <;> simp

@[simp] theorem execRetrainComplete_anchored (p ok b ack s) : Anchored s (execRetrainComplete p ok b ack s) := by simp [execRetrainComplete]

/-! ## Fatal -/

@[simp] theorem execFatalAckTimeout_anchored (s) : Anchored s (execFatalAckTimeout s) := by simp [execFatalAckTimeout]
@[simp] theorem execFwWatchdogExpiry_anchored (c s) : Anchored s (execFwWatchdogExpiry c s) := by simp [execFwWatchdogExpiry]
@[simp] theorem execBridgeLinkLoss_anchored (s) : Anchored s (execBridgeLinkLoss s) := by simp [execBridgeLinkLoss]

@[simp] theorem execTimebaseReplicaLockFailure_anchored (s) :
    Anchored s (execTimebaseReplicaLockFailure s) := by
  simp [execTimebaseReplicaLockFailure]

/-! ## Memory -/

@[simp] theorem execMemSegSet_anchored (c s) : Anchored s (execMemSegSet c s) := by simp [execMemSegSet]
@[simp] theorem execMemSegZeroFillDone_anchored (d n s) : Anchored s (execMemSegZeroFillDone d n s) := by simp [execMemSegZeroFillDone]
@[simp] theorem execMemSegClear_anchored (c s) : Anchored s (execMemSegClear c s) := by simp [execMemSegClear]
@[simp] theorem execMemSegInfo_anchored (c s) : Anchored s (execMemSegInfo c s) := by simp [execMemSegInfo]

@[simp] theorem execMemMove_anchored (c s) : Anchored s (execMemMove c s) := by
  simp only [execMemMove]
  (repeat' split) <;> simp

@[simp] theorem execTierExtentTransferDone_anchored (d s) : Anchored s (execTierExtentTransferDone d s) := by simp [execTierExtentTransferDone]
@[simp] theorem execMemMoveDone_anchored (d s) : Anchored s (execMemMoveDone d s) := by simp [execMemMoveDone]
@[simp] theorem execMemVolCreate_anchored (c s) : Anchored s (execMemVolCreate c s) := by simp [execMemVolCreate]
@[simp] theorem execMemVolCreateDone_anchored (v s) : Anchored s (execMemVolCreateDone v s) := by simp [execMemVolCreateDone]
@[simp] theorem execMemVolDelete_anchored (c s) : Anchored s (execMemVolDelete c s) := by simp [execMemVolDelete]
@[simp] theorem execMemVolOwner_anchored (c s) : Anchored s (execMemVolOwner c s) := by simp [execMemVolOwner]

@[simp] theorem execFlashExtentReadDone_anchored (v e retries bad s) :
    Anchored s (execFlashExtentReadDone v e retries bad s) := by
  simp [execFlashExtentReadDone]

@[simp] theorem execFlashProgramDone_anchored (v e b ok s) : Anchored s (execFlashProgramDone v e b ok s) := by simp [execFlashProgramDone]
@[simp] theorem execFlashEraseDone_anchored (b ok s) : Anchored s (execFlashEraseDone b ok s) := by simp [execFlashEraseDone]
@[simp] theorem execFlashRetentionRead_anchored (b retries s) : Anchored s (execFlashRetentionRead b retries s) := by simp [execFlashRetentionRead]
@[simp] theorem execFlashCalibration_anchored (s) : Anchored s (execFlashCalibration s) := by simp [execFlashCalibration]
@[simp] theorem execMemFlashInfo_anchored (c s) : Anchored s (execMemFlashInfo c s) := by simp [execMemFlashInfo]
@[simp] theorem execMemRefresh_anchored (ch bank underLoad s) : Anchored s (execMemRefresh ch bank underLoad s) := by simp [execMemRefresh]

@[simp] theorem execPatrolScrub_anchored (site err s) : Anchored s (execPatrolScrub site err s) := by
  unfold execPatrolScrub
  split <;> simp

@[simp] theorem execMemCe_anchored (site s) : Anchored s (execMemCe site s) := by simp [execMemCe]

/-! ## Levels -/

@[simp] theorem execNonceExpiry_anchored (s) : Anchored s (execNonceExpiry s) := by simp [execNonceExpiry]
@[simp] theorem execDebugSessionExpiry_anchored (s) : Anchored s (execDebugSessionExpiry s) := by simp [execDebugSessionExpiry]

@[simp] theorem execZeroiseDone_anchored (micros s) : Anchored s (execZeroiseDone micros s) := by
  simp only [execZeroiseDone]
  (repeat' split) <;> simp

@[simp] theorem execLifecycleReturnDone_anchored (s) : Anchored s (execLifecycleReturnDone s) := by
  unfold execLifecycleReturnDone
  split <;> simp

/-! ## Debug -/

@[simp] theorem execDbgNonce_anchored (c s) : Anchored s (execDbgNonce c s) := by simp [execDbgNonce]

@[simp] theorem execDbgOpen_anchored (c s) : Anchored s (execDbgOpen c s) := by
  refine fwStep_anchored _ _ _ (fun s => ?_) s
  split
  · simp
  · split <;> simp

@[simp] theorem execDbgClose_anchored (c s) : Anchored s (execDbgClose c s) := by simp [execDbgClose]
@[simp] theorem execDbgAccess_anchored (c s) : Anchored s (execDbgAccess c s) := by simp [execDbgAccess]
@[simp] theorem execDbgInfo_anchored (c s) : Anchored s (execDbgInfo c s) := by simp [execDbgInfo]

/-! ## Descriptors -/

@[simp] theorem execDescFetch_anchored (d core s) : Anchored s (execDescFetch d core s) := by simp [execDescFetch]
@[simp] theorem execNop_anchored (d core s) : Anchored s (execNop d core s) := by simp [execNop]
@[simp] theorem execMatmul_anchored (d core s) : Anchored s (execMatmul d core s) := by simp [execMatmul]
@[simp] theorem execMatmulTileDrain_anchored (d core s) : Anchored s (execMatmulTileDrain d core s) := by simp [execMatmulTileDrain]
@[simp] theorem execLane_anchored (d core s) : Anchored s (execLane d core s) := by simp [execLane]
@[simp] theorem execSfn_anchored (d core s) : Anchored s (execSfn d core s) := by simp [execSfn]
@[simp] theorem execMove_anchored (d core s) : Anchored s (execMove d core s) := by simp [execMove]
@[simp] theorem execSignal_anchored (d core s) : Anchored s (execSignal d core s) := by simp [execSignal]
@[simp] theorem execWaitDesc_anchored (d core s) : Anchored s (execWaitDesc d core s) := by simp [execWaitDesc]
@[simp] theorem execColl_anchored (d core s) : Anchored s (execColl d core s) := by simp [execColl]
@[simp] theorem execWalk_anchored (d core s) : Anchored s (execWalk d core s) := by simp [execWalk]
@[simp] theorem execCensus_anchored (d core s) : Anchored s (execCensus d core s) := by simp [execCensus]
@[simp] theorem execFence_anchored (d core s) : Anchored s (execFence d core s) := by simp [execFence]

@[simp] theorem execMemTransactionComplete_anchored (d core idx pf err s) :
    Anchored s (execMemTransactionComplete d core idx pf err s) := by
  simp [execMemTransactionComplete]

@[simp] theorem execMemRequestAgeLimit_anchored (ch s) : Anchored s (execMemRequestAgeLimit ch s) := by
  unfold execMemRequestAgeLimit
  split <;> simp

@[simp] theorem execSliceAccess_anchored (d core idx pf err s) : Anchored s (execSliceAccess d core idx pf err s) := by simp [execSliceAccess]
@[simp] theorem execSliceAtomic_anchored (d core idx err s) : Anchored s (execSliceAtomic d core idx err s) := by simp [execSliceAtomic]

@[simp] theorem execOrdsumContribution_anchored (d core idx err s) :
    Anchored s (execOrdsumContribution d core idx err s) := by
  simp [execOrdsumContribution]

@[simp] theorem execReadDeadlineExpiry_anchored (d core idx pf s) :
    Anchored s (execReadDeadlineExpiry d core idx pf s) := by
  simp [execReadDeadlineExpiry]

@[simp] theorem execPrefetchComplete_anchored (d core idx s) : Anchored s (execPrefetchComplete d core idx s) := by simp [execPrefetchComplete]
@[simp] theorem execPairIncrement_anchored (d cores s) : Anchored s (execPairIncrement d cores s) := by simp [execPairIncrement]
@[simp] theorem execWaitConditionMet_anchored (d core s) : Anchored s (execWaitConditionMet d core s) := by simp [execWaitConditionMet]
@[simp] theorem execWaitTimerExpiry_anchored (d core s) : Anchored s (execWaitTimerExpiry d core s) := by simp [execWaitTimerExpiry]
@[simp] theorem execDescComplete_anchored (d core s) : Anchored s (execDescComplete d core s) := by simp [execDescComplete]

/-! ## Health -/

@[simp] theorem execHealthRecompute_anchored (droops s) : Anchored s (execHealthRecompute droops s) := by simp [execHealthRecompute]

/-! ## Jtag -/

@[simp] theorem execJtagIdcode_anchored (s) : Anchored s (execJtagIdcode s) := by simp [execJtagIdcode]
@[simp] theorem execJtagBypass_anchored (code s) : Anchored s (execJtagBypass code s) := by simp [execJtagBypass]

@[simp] theorem execJtagSamplePreload_anchored (load s) : Anchored s (execJtagSamplePreload load s) := by
  unfold execJtagSamplePreload
  split <;> simp

@[simp] theorem execJtagExtest_anchored (s) : Anchored s (execJtagExtest s) := by simp [execJtagExtest]
@[simp] theorem execJtagClamp_anchored (s) : Anchored s (execJtagClamp s) := by simp [execJtagClamp]
@[simp] theorem execJtagHighz_anchored (s) : Anchored s (execJtagHighz s) := by simp [execJtagHighz]
@[simp] theorem execJtagExtestPulse_anchored (s) : Anchored s (execJtagExtestPulse s) := by simp [execJtagExtestPulse]
@[simp] theorem execJtagExtestTrain_anchored (s) : Anchored s (execJtagExtestTrain s) := by simp [execJtagExtestTrain]
@[simp] theorem execJtagDbgNonce_anchored (s) : Anchored s (execJtagDbgNonce s) := by simp [execJtagDbgNonce]

@[simp] theorem execJtagDbgToken_anchored (payload s) : Anchored s (execJtagDbgToken payload s) := by
  refine (anchored_next _ _).2 (anchor_when _ _ (fun s => ?_) s)
  split
  · simp
  · split <;> simp

@[simp] theorem execJtagDbgAccess_anchored (payload s) : Anchored s (execJtagDbgAccess payload s) := by
  refine (anchored_next _ _).2 (anchor_when _ _ (fun s => ?_) s)
  dsimp only
  split <;> simp

@[simp] theorem execJtagScanChain_anchored (chain s) : Anchored s (execJtagScanChain chain s) := by simp [execJtagScanChain]

/-! ## Mgmt -/

@[simp] theorem execPldmEffecterWrite_anchored (r s) : Anchored s (execPldmEffecterWrite r s) := by simp [execPldmEffecterWrite]
@[simp] theorem execSpdmGetVersion_anchored (via s) : Anchored s (execSpdmGetVersion via s) := by simp [execSpdmGetVersion]
@[simp] theorem execSpdmGetCapabilities_anchored (via s) : Anchored s (execSpdmGetCapabilities via s) := by simp [execSpdmGetCapabilities]

@[simp] theorem execSpdmNegotiateAlgorithms_anchored (via p521 sha512 s) :
    Anchored s (execSpdmNegotiateAlgorithms via p521 sha512 s) := by
  simp [execSpdmNegotiateAlgorithms]

@[simp] theorem execSpdmGetDigests_anchored (via s) : Anchored s (execSpdmGetDigests via s) := by simp [execSpdmGetDigests]

@[simp] theorem execSpdmGetCertificate_anchored (via slot off len s) :
    Anchored s (execSpdmGetCertificate via slot off len s) := by
  simp [execSpdmGetCertificate]

@[simp] theorem execSpdmChallenge_anchored (via slot nonce s) : Anchored s (execSpdmChallenge via slot nonce s) := by simp [execSpdmChallenge]

@[simp] theorem execSpdmGetMeasurements_anchored (via index sign nonce s) :
    Anchored s (execSpdmGetMeasurements via index sign nonce s) := by
  simp [execSpdmGetMeasurements]

/-! ## Power -/

@[simp] theorem execRetainEntryDone_anchored (s) : Anchored s (execRetainEntryDone s) := by
  simp only [execRetainEntryDone]
  (repeat' split) <;> simp

@[simp] theorem execRetainExitDone_anchored (s) : Anchored s (execRetainExitDone s) := by
  unfold execRetainExitDone
  split <;> simp

@[simp] theorem execOffWaitExpiry_anchored (s) : Anchored s (execOffWaitExpiry s) := by simp [execOffWaitExpiry]
@[simp] theorem execAutoIdleExpiry_anchored (s) : Anchored s (execAutoIdleExpiry s) := by simp [execAutoIdleExpiry]
@[simp] theorem execIdleExit_anchored (s) : Anchored s (execIdleExit s) := by simp [execIdleExit]
@[simp] theorem execPwrState_anchored (c s) : Anchored s (execPwrState c s) := by simp [execPwrState]
@[simp] theorem execPwrCap_anchored (c s) : Anchored s (execPwrCap c s) := by simp [execPwrCap]
@[simp] theorem execPwrInfo_anchored (c s) : Anchored s (execPwrInfo c s) := by simp [execPwrInfo]
@[simp] theorem execProchotAssert_anchored (s) : Anchored s (execProchotAssert s) := by simp [execProchotAssert]
@[simp] theorem execProchotDeassert_anchored (s) : Anchored s (execProchotDeassert s) := by simp [execProchotDeassert]
@[simp] theorem execRailCurrentLimit_anchored (die s) : Anchored s (execRailCurrentLimit die s) := by simp [execRailCurrentLimit]
@[simp] theorem execAvsAck_anchored (die s) : Anchored s (execAvsAck die s) := by simp [execAvsAck]
@[simp] theorem execPowerCapWindow_anchored (meanWatts s) : Anchored s (execPowerCapWindow meanWatts s) := by simp [execPowerCapWindow]

@[simp] theorem execThermalSensorSample_anchored (east west hub keeper s) :
    Anchored s (execThermalSensorSample east west hub keeper s) := by
  simp [execThermalSensorSample]

@[simp] theorem execThermalThrottleTick_anchored (s) : Anchored s (execThermalThrottleTick s) := by simp [execThermalThrottleTick]
@[simp] theorem execThermalRaiseTick_anchored (s) : Anchored s (execThermalRaiseTick s) := by simp [execThermalRaiseTick]
@[simp] theorem execRailOutOfRangeExpiry_anchored (rail s) : Anchored s (execRailOutOfRangeExpiry rail s) := by simp [execRailOutOfRangeExpiry]

/-! ## Programs -/

@[simp] theorem execProgLoad_anchored (c s) : Anchored s (execProgLoad c s) := by
  simp only [execProgLoad]
  (repeat' split) <;> simp

@[simp] theorem execProgLoadFinal_anchored (d s) : Anchored s (execProgLoadFinal d s) := by simp [execProgLoadFinal]

@[simp] theorem execProgStart_anchored (c s) : Anchored s (execProgStart c s) := by
  refine fwStep_anchored _ _ _ (fun s => ?_) s
  dsimp only
  split
  · simp
  · next h => simp [bindVec_anchor h]

@[simp] theorem execProgAbort_anchored (c s) : Anchored s (execProgAbort c s) := by simp [execProgAbort]
@[simp] theorem execProgAbortFinal_anchored (d s) : Anchored s (execProgAbortFinal d s) := by simp [execProgAbortFinal]

@[simp] theorem execProgStatus_anchored (c s) : Anchored s (execProgStatus c s) := by
  refine fwStep_anchored _ _ _ (fun s => ?_) s
  dsimp only
  split <;> simp

@[simp] theorem execProgUnload_anchored (c s) : Anchored s (execProgUnload c s) := by simp [execProgUnload]
@[simp] theorem execProgSlotLoad_anchored (c s) : Anchored s (execProgSlotLoad c s) := by simp [execProgSlotLoad]
@[simp] theorem execProgSlotClear_anchored (c s) : Anchored s (execProgSlotClear c s) := by simp [execProgSlotClear]
@[simp] theorem execProgSlotInfo_anchored (c s) : Anchored s (execProgSlotInfo c s) := by simp [execProgSlotInfo]
@[simp] theorem execProgTblLoad_anchored (c s) : Anchored s (execProgTblLoad c s) := by simp [execProgTblLoad]
@[simp] theorem execProgTblClear_anchored (c s) : Anchored s (execProgTblClear c s) := by simp [execProgTblClear]
@[simp] theorem execProgTblInfo_anchored (c s) : Anchored s (execProgTblInfo c s) := by simp [execProgTblInfo]
@[simp] theorem execTableChangeInstall_anchored (d slot s) : Anchored s (execTableChangeInstall d slot s) := by simp [execTableChangeInstall]

/-! ## Security -/

@[simp] theorem execSecUpdateBegin_anchored (c s) : Anchored s (execSecUpdateBegin c s) := by simp [execSecUpdateBegin]
@[simp] theorem execSecUpdateData_anchored (c s) : Anchored s (execSecUpdateData c s) := by simp [execSecUpdateData]

@[simp] theorem execSecUpdateEnd_anchored (c s) : Anchored s (execSecUpdateEnd c s) := by
  refine fwStep_anchored _ _ _ (fun s => ?_) s
  split <;> simp

@[simp] theorem execUpdateSlotWriteDone_anchored (s) : Anchored s (execUpdateSlotWriteDone s) := by
  unfold execUpdateSlotWriteDone
  split <;> simp

@[simp] theorem execSecRollbackAdvance_anchored (c s) : Anchored s (execSecRollbackAdvance c s) := by simp [execSecRollbackAdvance]
@[simp] theorem execSecOwnerSet_anchored (c s) : Anchored s (execSecOwnerSet c s) := by simp [execSecOwnerSet]

@[simp] theorem execSecLifecycle_anchored (c s) : Anchored s (execSecLifecycle c s) := by
  refine fwStep_anchored _ _ _ (fun s => ?_) s
  dsimp only
  split
  · split <;> simp
  · simp

@[simp] theorem execSecStoreWrite_anchored (c s) : Anchored s (execSecStoreWrite c s) := by simp [execSecStoreWrite]
@[simp] theorem execSecInfo_anchored (c s) : Anchored s (execSecInfo c s) := by simp [execSecInfo]

/-! ## Resets -/

@[simp] theorem execBootVerifyDone_anchored (s) : Anchored s (execBootVerifyDone s) := by simp [execBootVerifyDone]

/-! ## The mailbox runs a command by its code -/

theorem answerState_anchor {s : State} {a : Answer} (h : Anchored s a) : anchor (answerState a s) = anchor s := by
  cases a with
  | next t => exact h t rfl
  | fault r => rfl
  | refused r => rfl

theorem fwCommand_anchored {cmd c s a} (h : fwCommand cmd c s = some a) : Anchored s a := by
  unfold fwCommand at h
  split at h <;> cases h <;> simp

theorem runCommand_anchor (h s) : anchor (runCommand h s) = anchor s := by
  simp only [runCommand]
  split
  · simp
  · split
    · next h => simpa using answerState_anchor (fwCommand_anchored h)
    · simp

theorem releaseHeld_anchor (f n s) : anchor (releaseHeld f n s) = anchor s := by
  induction n generalizing s with
  | zero => rfl
  | succ n ih =>
    simp only [releaseHeld]
    split
    · rfl
    · simp [ih, runCommand_anchor]

theorem runHeld_anchor (h s) : anchor (runHeld h s) = anchor s := by
  simp [runHeld, releaseHeld_anchor, runCommand_anchor]

theorem takeSlot_anchor (f slot s) : anchor (takeSlot f slot s) = anchor s := by
  simp [takeSlot, runHeld_anchor]

theorem logGaps_anchor (f from_ n s) : anchor (logGaps f from_ n s) = anchor s := by
  simp [logGaps]

theorem seqSkip_anchor (f s) : anchor (seqSkip f s) = anchor s := by
  simp only [seqSkip]
  split
  · rfl
  · simp [releaseHeld_anchor, logGaps_anchor]

@[simp] theorem execMailboxTake_anchored (f slot s) : Anchored s (execMailboxTake f slot s) :=
  hostStep_anchored _ (takeSlot_anchor f slot) s

@[simp] theorem execMboxSeqWaitExpiry_anchored (f s) : Anchored s (execMboxSeqWaitExpiry f s) := by
  simp [execMboxSeqWaitExpiry, seqSkip_anchor]

theorem anchor_withNow {s t : State} (h : anchor t = anchor s) (n : BitVec 64) :
    anchor { t with now := n } = anchor { s with now := n } := by
  simp only [anchor_eq_iff] at h ⊢
  simp [h]

theorem anchor_eq_withNow {s t : State} (h : anchor t = anchor s) : anchor t = anchor { s with now := t.now } := by
  rw [((anchor_eq_iff _ _).1 h).2.2.1]
  exact h

theorem correct_anchor (s p off) : anchor (correct s p off) = anchor { s with now := (correct s p off).now } := by
  simp only [correct]
  (repeat' split) <;> simp

theorem syncReceive_anchor (p m s) : anchor (syncReceive p m s) = anchor { s with now := (syncReceive p m s).now } := by
  simp only [syncReceive]
  split
  · exact (correct_anchor _ _ _).trans (anchor_withNow (by simp) _)
  · exact anchor_eq_withNow (by simp)

/-- AON_RST_N's rise starts the time-base at 0, and brings SYS_RST_N's with it when that pin is already high (R31, R454). -/
theorem aonStart_anchor (s) : anchor (aonStart s) = anchor { s with
    now := 0
    pins := if s.pins.sysPin then { s.pins with aonRst := false } else { s.pins with aonRst := false, sysRst := false, pwrGood := true } } := by
  unfold aonStart
  extract_lets pins pwr s1 s2
  have h : anchor s2 = anchor { s with now := 0, pins := { s.pins with aonRst := false } } := by
    simp only [s2]
    split <;> simp [s1, pins]
  obtain ⟨hq, hp, hn, hi⟩ := (anchor_eq_iff _ _).1 h
  by_cases hpin : s.pins.sysPin = true
  · rw [if_pos (by rw [hi]; exact hpin)]
    simp [h, hpin, pins]
  · rw [if_neg (by rw [hi]; exact hpin), bootStart_anchor]
    simp [hq, hp, hn, hi, hpin, pins]

/-- The commands whose effect moves a pin or the time-base; every other one keeps the anchor. -/
def movesAnchor : Instr → Bool
  | .syncReceive _ _ | .pwrGoodFall | .aonRstNAssert | .aonRstNDeassert | .sysRstNAssert | .sysRstNDeassert _ | .perstNAssert
  | .perstNDeassert => true
  | _ => false

theorem exec_anchored {i : Instr} (hi : movesAnchor i = false) (s : State) : Anchored s (exec i s) := by
  cases i
  case syncReceive | pwrGoodFall | aonRstNAssert | aonRstNDeassert | sysRstNAssert | sysRstNDeassert | perstNAssert | perstNDeassert =>
    cases hi
  all_goals simp [exec]

/-- Queue, population and time-base are as before, whatever the pins are. -/
def KeepsTime (s t : State) : Prop := t.pending = s.pending ∧ t.population = s.population ∧ t.now = s.now

theorem keepsTime_of_anchor {s t : State} {p : Pins} (h : anchor t = anchor { s with pins := p }) : KeepsTime s t := by
  obtain ⟨hq, hp, hn, -⟩ := (anchor_eq_iff _ _).1 h
  exact ⟨hq, hp, hn⟩

theorem execPwrGoodFall_keepsTime {s t} (h : execPwrGoodFall s = .next t) : KeepsTime s t := by
  cases h
  exact keepsTime_of_anchor (goFatal_anchor _ _)

theorem execAonRstNAssert_keepsTime {s t} (h : execAonRstNAssert s = .next t) : KeepsTime s t := by
  cases h
  unfold when
  split
  · exact keepsTime_of_anchor (aonReset_anchor s)
  · exact ⟨rfl, rfl, rfl⟩

theorem execSysRstNAssert_keepsTime {s t} (h : execSysRstNAssert s = .next t) : KeepsTime s t := by
  cases h
  exact keepsTime_of_anchor (sysReset_anchor _)

theorem execSysRstNDeassert_keepsTime {r s t} (h : execSysRstNDeassert r s = .next t) : KeepsTime s t := by
  cases h
  unfold when
  split
  · dsimp only
    split
    · exact ⟨rfl, rfl, rfl⟩
    · exact keepsTime_of_anchor (bootStart_anchor r _)
  · exact ⟨rfl, rfl, rfl⟩

theorem execPerstNAssert_keepsTime {s t} (h : execPerstNAssert s = .next t) : KeepsTime s t := by
  cases h
  unfold when
  split
  · obtain ⟨hq, hp, hn, -⟩ := (anchor_eq_iff _ _).1 (resetPort_anchor s)
    exact ⟨hq, hp, hn⟩
  · exact ⟨rfl, rfl, rfl⟩

theorem execPerstNDeassert_keepsTime {s t} (h : execPerstNDeassert s = .next t) : KeepsTime s t := by
  cases h
  exact ⟨rfl, rfl, rfl⟩

theorem execAonRstNDeassert_time {s t} (h : execAonRstNDeassert s = .next t) :
    t.pending = s.pending ∧ t.population = s.population ∧ (t.now = s.now ∨ t.now = 0) := by
  cases h
  unfold when
  split
  · obtain ⟨hq, hp, hn, -⟩ := (anchor_eq_iff _ _).1 (aonStart_anchor s)
    exact ⟨hq, hp, .inr hn⟩
  · exact ⟨rfl, rfl, .inl rfl⟩

theorem execSyncReceive_keepsQueue {p m s t} (h : execSyncReceive p m s = .next t) : t.pending = s.pending ∧ t.population = s.population := by
  cases h
  unfold when
  split
  · obtain ⟨hq, hp, -, -⟩ := (anchor_eq_iff _ _).1 (syncReceive_anchor p m s)
    exact ⟨hq, hp⟩
  · exact ⟨rfl, rfl⟩

/-- Settles O58: each command keeps the anchor but for the eight that `movesAnchor` names, and of those six move pins alone. -/
theorem commandsKeepQueuePopulationAndTime : Obligations.CommandsKeepQueuePopulationAndTime := by
  unfold Obligations.CommandsKeepQueuePopulationAndTime
  intro i s t h
  have keeps (k : KeepsTime s t) : t.pending = s.pending ∧ t.population = s.population ∧
      (t.now = s.now ∨ (i = .aonRstNDeassert ∧ t.now = 0) ∨ ∃ p m, i = .syncReceive p m) := k.imp_right (·.imp_right .inl)
  cases i
  case pwrGoodFall => exact keeps (execPwrGoodFall_keepsTime h)
  case aonRstNAssert => exact keeps (execAonRstNAssert_keepsTime h)
  case sysRstNAssert => exact keeps (execSysRstNAssert_keepsTime h)
  case sysRstNDeassert => exact keeps (execSysRstNDeassert_keepsTime h)
  case perstNAssert => exact keeps (execPerstNAssert_keepsTime h)
  case perstNDeassert => exact keeps (execPerstNDeassert_keepsTime h)
  case aonRstNDeassert =>
    obtain ⟨hq, hp, hn⟩ := execAonRstNDeassert_time h
    exact ⟨hq, hp, hn.imp_right fun e => .inl ⟨rfl, e⟩⟩
  case syncReceive p m =>
    obtain ⟨hq, hp⟩ := execSyncReceive_keepsQueue h
    exact ⟨hq, hp, .inr (.inr ⟨p, m, rfl⟩)⟩
  all_goals exact keeps (keepsTime_of_anchor (exec_anchored rfl s t h))

end Sys2Proof.Machine
end

section
/-! The step of the machine: the command at the front of the queue, or one nanosecond (R23, R31, R33, R478). -/

namespace Sys2Proof.Machine

theorem step_cons {s : State} {c : Instr} {q : List Instr} (h : s.pending = c :: q) : step s = exec c { s with pending := q } := by
  simp only [step, h]

theorem step_nil {s : State} (h : s.pending = []) : step s = .next (tick s) := by
  simp only [step, h]

/-- What the table holds when it is laid out from a list of keys. -/
theorem tfind_map_key {α : Type} (f : Nat → α) (k : Nat) : ∀ l : List Nat, tfind (l.map fun i => (i, f i)) k = if k ∈ l then some (f k) else none
  | [] => rfl
  | i :: l => by
    simp only [List.map_cons, tfind, tfind_map_key f k l, List.mem_cons]
    by_cases e : i = k
    · simp [e]
    · simp [e, Ne.symm e]

/-! ## One nanosecond -/

theorem tick_of_aonRst {s : State} (h : s.pins.aonRst = true) : tick s = s := by
  simp only [tick, h, if_true]

theorem tick_eq {s : State} (h : s.pins.aonRst = false) :
    tick s = { s with
      now := s.now + BitVec.ofNat 64 (tickStep s.links).1
      links := (tickStep s.links).2
      cyc := if clocksRun s then addCycles s else s.cyc } := by
  simp only [tick, h, Bool.false_eq_true, if_false]

/-- A nanosecond moves nothing but the time-base, its correction and the cycle counts. -/
theorem tick_frame (s : State) : tick s = { s with now := (tick s).now, links := (tick s).links, cyc := (tick s).cyc } := by
  unfold tick
  split <;> rfl

theorem tickStep_plain {l : Links} (hlead : l.lead = 0) (hslew : l.slew = 0) : tickStep l = (1, l) := by
  simp [tickStep, hlead, hslew]

theorem tickStep_slewing {l : Links} (hlead : l.lead = 0) (hslew : 0 < l.slew) (hc : l.slewCount < 1023) :
    tickStep l = (1, { l with slewCount := l.slewCount + 1 }) := by
  simp [tickStep, hlead, Int.ne_of_gt hslew, hc]

theorem tickStep_slewed {l : Links} (hlead : l.lead = 0) (hslew : 0 < l.slew) (hc : l.slewCount = 1023) :
    tickStep l = (2, { l with slewCount := 0, slew := l.slew - 1 }) := by
  simp [tickStep, hlead, Int.ne_of_gt hslew, hc, hslew]

theorem addCycles_quarter (s : State) {q : Nat} (h : q < 32) : tget 0 (addCycles s) q = tget 0 s.cyc q + quarterMhz s.pwr q := by
  rw [tget, addCycles, tfind_map_key, if_pos (List.mem_range.mpr h), Option.getD_some]

theorem tick_cyc_stopped {s : State} (h : clocksRun s = false) : (tick s).cyc = s.cyc := by
  unfold tick
  split
  · rfl
  · simp [h]

/-- Settles O55: with a command in the queue by definition, with none by the rules of one nanosecond. -/
theorem stepRunsTheFrontOfTheQueue : Obligations.StepRunsTheFrontOfTheQueue := by
  unfold Obligations.StepRunsTheFrontOfTheQueue
  intro s
  refine ⟨fun c q h => step_cons h, fun n w => ⟨rfl, rfl⟩, fun h => ⟨tick s, step_nil h, tick_frame s, tick_of_aonRst, ?_, ?_, ?_, tick_cyc_stopped⟩⟩
  · intro hr hlead hslew
    simp [tick_eq hr, tickStep_plain hlead hslew]
  · intro hr hlead hslew
    refine ⟨fun hc => ?_, fun hc => ?_⟩
    · simp [tick_eq hr, tickStep_slewing hlead hslew hc]
    · simp [tick_eq hr, tickStep_slewed hlead hslew hc]
  · intro hr hrun q hq
    simp [tick_eq hr, hrun, addCycles_quarter s hq]

end Sys2Proof.Machine
end

section
/-! The time-base between packages (R31, R33, R262, R263): what a SYNC's sending and receipt and the loss of a root change. -/

namespace Sys2Proof.Machine

/-! ## Ports -/

theorem getPort_congr {s t : State} (h : t.links.ports = s.links.ports) (p : Nat) : getPort t p = getPort s p := by
  simp only [getPort, h]

@[simp] theorem getPort_modPort_self (s : State) (p : Nat) (g : Port → Port) : getPort (modPort s p g) p = g (getPort s p) := by
  simp [getPort, modPort]

@[simp] theorem getPort_send (s : State) (o : Out) (p : Nat) : getPort (send s o) p = getPort s p := rfl

theorem getPort_modPort_ne (s : State) {p q : Nat} (g : Port → Port) (h : q ≠ p) : getPort (modPort s p g) q = getPort s q := by
  simp only [getPort, modPort]
  exact tget_tmod_ne _ _ _ h

theorem modPort_onlyPort (s : State) (p : Nat) (g : Port → Port) : onlyPort s (modPort s p g) p :=
  fun _ h => getPort_modPort_ne s g h

theorem onlyPort_trans {s t u : State} {p : Nat} (h : onlyPort s t p) (k : onlyPort t u p) : onlyPort s u p :=
  fun q hq => (k q hq).trans (h q hq)

theorem onlyPort_of_ports {s t : State} (h : t.links.ports = s.links.ports) (p : Nat) : onlyPort s t p :=
  fun q _ => getPort_congr h q

/-- A link event that is not FATAL changes nothing but the log. -/
theorem linkEvent_plain (s : State) (p kind sev : Nat) (l : List Nat) (h : sev ≠ 3) :
    linkEvent s p kind sev l = { s with emitted := s.emitted ++ [⟨s.now, 0x840 + p, kind, sev, 0xFF, l⟩] } :=
  emit_plain s _ _ _ _ l h

/-! ## The root followed -/

/-- A choice of root and parent: ports, the time-base and whether it is synchronised stay, and the log only grows. -/
structure RootMoves (s t : State) : Prop where
  now : t.now = s.now
  ports : t.links.ports = s.links.ports
  synced : t.links.synced = s.links.synced
  logged : ∃ l, logs s t l

theorem logs_nil (s : State) : logs s s [] := by simp [logs]

theorem rootMoves_refl (s : State) : RootMoves s s := ⟨rfl, rfl, rfl, [], logs_nil s⟩

theorem follow_rootMoves (s : State) (r seq at_ : Nat) : RootMoves s (follow s r seq at_) := by
  simp only [follow]
  split
  · next p _ =>
    split
    · exact ⟨rfl, rfl, rfl, [], logs_nil s⟩
    · rw [linkEvent_plain _ _ _ _ _ (by decide)]
      exact ⟨rfl, rfl, rfl, [(0x840 + p, 0x106, 1, 0xFF, [s.links.parent.getD 31, p, r])], rfl⟩
  · exact ⟨rfl, rfl, rfl, [], logs_nil s⟩

theorem newRoot_rootMoves (s : State) (r : Nat) : RootMoves s (newRoot s r) := by
  unfold newRoot
  split
  · exact follow_rootMoves s r _ _
  · exact rootMoves_refl s

/-- What a package that hears no root any more becomes: root itself, at sequence 0, with the change logged. -/
theorem becomeRoot_eq {s : State} (h : s.links.root.isSome = true) :
    becomeRoot s = { s with
      links := { s.links with root := none, parent := none, dist := 0, rootSeq := 0 }
      emitted := s.emitted ++ [⟨s.now, 0x840 + s.links.parent.getD 0, 0x106, 1, 0xFF, [s.links.parent.getD 31, 31, ownId s]⟩] } := by
  have h' : s.links.root.isNone = false := by simpa using h
  simp only [becomeRoot, h', Bool.false_eq_true, if_false]
  exact linkEvent_plain _ _ _ _ _ (by decide)

theorem becomeRoot_rootMoves {s : State} (h : s.links.root.isSome = true) : RootMoves s (becomeRoot s) := by
  rw [becomeRoot_eq h]
  exact ⟨rfl, rfl, rfl, [(0x840 + s.links.parent.getD 0, 0x106, 1, 0xFF, [s.links.parent.getD 31, 31, ownId s])], rfl⟩

theorem adopt_rootMoves (s : State) : RootMoves s (adopt s) := by
  unfold adopt
  split
  · next hr =>
    split
    · split
      · exact newRoot_rootMoves s _
      · exact becomeRoot_rootMoves (by simp [hr])
    · split
      · split
        · exact newRoot_rootMoves s _
        · exact follow_rootMoves s _ _ _
      · exact follow_rootMoves s _ _ _
  · split
    · exact newRoot_rootMoves s _
    · exact rootMoves_refl s

/-! ## The choice of a new root -/

theorem foldl_min_mem (r : Nat) (l : List Nat) : l.foldl min r ∈ r :: l := by
  induction l generalizing r with
  | nil => simp
  | cons x l ih =>
    rcases List.mem_cons.mp (ih (min r x)) with h | h
    · rw [List.foldl_cons, h]
      rcases Nat.le_total r x with e | e
      · simp [Nat.min_eq_left e]
      · simp [Nat.min_eq_right e]
    · simp [h]

/-- The lowest root heard is heard advancing on some port, and is not the one that is lost. -/
theorem lowestRoot_heard {s : State} {lost : Option Nat} {r : Nat} (h : lowestRoot s lost = some r) : rootPorts s r ≠ [] ∧ lost ≠ some r := by
  unfold lowestRoot at h
  split at h
  · cases h
  · next a l e =>
    have hm : r ∈ a :: l := Option.some.inj h ▸ foldl_min_mem a l
    rw [← e] at hm
    obtain ⟨hroot, hr⟩ := List.mem_filter.mp hm
    obtain ⟨p, hp, rfl⟩ := List.mem_map.mp hroot
    obtain ⟨hlt, hf⟩ := List.mem_filter.mp hp
    refine ⟨List.ne_nil_of_mem (a := p) (List.mem_filter.mpr ⟨hlt, ?_⟩), ?_⟩
    · simp [hf]
    · simp at hr
      exact hr.2

theorem bestPort_mem {s : State} : ∀ {l : List Nat} {p : Nat}, bestPort s l = some p → p ∈ l
  | [], _, h => by cases h
  | a :: l, p, h => by
    simp only [bestPort] at h
    split at h
    · next q e =>
      split at h
      · cases h; simp
      · cases h; exact List.mem_cons_of_mem _ (bestPort_mem e)
    · cases h; simp

theorem bestPort_isSome (s : State) : ∀ {l : List Nat}, l ≠ [] → ∃ p, bestPort s l = some p
  | [], h => absurd rfl h
  | a :: l, _ => by
    simp only [bestPort]
    split
    · split <;> exact ⟨_, rfl⟩
    · exact ⟨_, rfl⟩

/-- A root that some port hears advancing, and that is not the one followed, is adopted through the best such port, with the change
logged. -/
theorem newRoot_eq {s : State} {r : Nat} (h : rootPorts s r ≠ []) (hr : s.links.root ≠ some r) :
    ∃ q seq, heardFresh s q = true ∧ (getPort s q).root = r ∧ newRoot s r = { s with
      links := { s.links with root := some r, parent := some q, dist := (getPort s q).dist + 1, rootSeq := seq, rootAt := time s }
      emitted := s.emitted ++ [⟨s.now, 0x840 + q, 0x106, 1, 0xFF, [s.links.parent.getD 31, q, r]⟩] } := by
  obtain ⟨q, hq⟩ := bestPort_isSome s h
  obtain ⟨-, hm⟩ := List.mem_filter.mp (bestPort_mem hq)
  simp only [Bool.and_eq_true, beq_iff_eq] at hm
  cases e : rootPorts s r with
  | nil => exact absurd e h
  | cons p l =>
    refine ⟨q, highSeq s l (getPort s p).rootSeq, hm.1, hm.2, ?_⟩
    simp only [newRoot, e, follow]
    simp only [← e, hq, hr, false_and, if_false]
    exact linkEvent_plain _ _ _ _ _ (by decide)

/-! ## A SYNC sent -/

/-- The root numbers the SYNC that it sends. -/
def syncNumbered (s : State) : State :=
  if s.links.root.isNone then { s with links := { s.links with rootSeq := (s.links.rootSeq + 1) % 2 ^ 32 } } else s

theorem syncNumbered_rootSeq (s : State) : (syncNumbered s).links.rootSeq =
    if s.links.root = none then (s.links.rootSeq + 1) % 2 ^ 32 else s.links.rootSeq := by
  unfold syncNumbered
  cases s.links.root <;> rfl

/-- Numbering changes the sequence alone. -/
theorem syncNumbered_frame (s : State) : syncNumbered s = { s with links := { s.links with rootSeq := (syncNumbered s).links.rootSeq } } := by
  unfold syncNumbered
  split <;> rfl

@[simp] theorem syncNumbered_now (s : State) : (syncNumbered s).now = s.now := by rw [syncNumbered_frame]
@[simp] theorem syncNumbered_out (s : State) : (syncNumbered s).out = s.out := by rw [syncNumbered_frame]
@[simp] theorem syncNumbered_dist (s : State) : (syncNumbered s).links.dist = s.links.dist := by rw [syncNumbered_frame]
@[simp] theorem syncNumbered_time (s : State) : time (syncNumbered s) = time s := by simp [time]
@[simp] theorem syncNumbered_rootId (s : State) : rootId (syncNumbered s) = rootId s := by rw [syncNumbered_frame]; rfl
@[simp] theorem syncNumbered_getPort (s : State) (p : Nat) : getPort (syncNumbered s) p = getPort s p := by rw [syncNumbered_frame]; rfl

/-- What a SYNC carries. -/
def syncFields (p : Nat) (s : State) : List Nat := [16 * time s, (getPort s p).syncT2, rootId s, s.links.dist, s.links.rootSeq]

/-- The state that SYNC_SEND leaves once its sequence is set. -/
def syncSent (p : Nat) (s : State) : State :=
  sendFree (modPort s p fun x => { x with syncAt := some (time s), syncOld := x.syncT1, syncT1 := 16 * time s }) p 2
    ((List.range 240).map (Config.syncPayload (syncFields p s)))

theorem execSyncSend_due {s : State} {p : Nat} (hf : portFlits s p = true) (hd : ∀ k, (getPort s p).syncAt = some k → k + 8000 ≤ time s) :
    execSyncSend p s = .next (syncSent p (syncNumbered s)) := by
  have hdue : (match (getPort s p).syncAt with
    | some t => decide (t + 8000 ≤ time s)
    | none => true) = true := by
    split
    · next t h => simpa using hd t h
    · rfl
  unfold execSyncSend when
  rw [if_pos (by rw [hf]; exact hdue)]
  rfl

theorem syncSent_out (p : Nat) (s : State) : ∃ f : Flit, (syncSent p s).out = flitOut p f :: s.out ∧ f.typ = 2 ∧ f.ack = (getPort s p).rxNext ∧
    f.payload = (List.range 240).map (Config.syncPayload (syncFields p s)) := by
  refine ⟨_, rfl, rfl, ?_, rfl⟩
  simp [withReport]

theorem syncSent_getPort (p : Nat) (s : State) : (getPort (syncSent p s) p).syncAt = some (time s) ∧
    (getPort (syncSent p s) p).syncT1 = 16 * time s ∧ (getPort (syncSent p s) p).syncOld = (getPort s p).syncT1 := by
  have h : getPort (syncSent p s) p = reported { getPort s p with
      syncAt := some (time s), syncOld := (getPort s p).syncT1, syncT1 := 16 * time s } (time s) := by
    simp only [syncSent, sendFree, sendFlit, getPort_send, getPort_modPort_self]
    rfl
  rw [h]
  exact ⟨rfl, rfl, rfl⟩

theorem syncSent_onlyPort (p : Nat) (s : State) : onlyPort s (syncSent p s) p :=
  onlyPort_trans (modPort_onlyPort s p _) (modPort_onlyPort _ p _)

/-! ## A SYNC heard -/

/-- The state with what a SYNC says of its root taken, and root and parent chosen anew. -/
def syncHeard (p : Nat) (m : SyncMsg) (s : State) : State :=
  let u := modPort s p fun x => hearRoot x (time s) m
  adopt { u with links := hearSeq u.links (time s) m }

theorem hearSeq_ports (l : Links) (now : Nat) (m : SyncMsg) : (hearSeq l now m).ports = l.ports := by
  unfold hearSeq
  split <;> rfl

theorem hearSeq_synced (l : Links) (now : Nat) (m : SyncMsg) : (hearSeq l now m).synced = l.synced := by
  unfold hearSeq
  split <;> rfl

/-- The time-base and all other ports stay, and the log only grows. -/
theorem syncHeard_spec (p : Nat) (m : SyncMsg) (s : State) :
    (syncHeard p m s).now = s.now ∧ getPort (syncHeard p m s) p = hearRoot (getPort s p) (time s) m ∧ onlyPort s (syncHeard p m s) p ∧
    (syncHeard p m s).links.synced = s.links.synced ∧ ∃ l, logs s (syncHeard p m s) l := by
  obtain ⟨hnow, hports, hsync, hlog⟩ := adopt_rootMoves { modPort s p (fun x => hearRoot x (time s) m) with
    links := hearSeq (modPort s p fun x => hearRoot x (time s) m).links (time s) m }
  rw [hearSeq_ports] at hports
  rw [hearSeq_synced] at hsync
  refine ⟨hnow, ?_, ?_, hsync, hlog⟩
  · exact (getPort_congr hports p).trans (getPort_modPort_self s p _)
  · exact onlyPort_trans (modPort_onlyPort s p _) (onlyPort_of_ports hports p)

/-- A SYNC gives an offset: it came on the parent port, and all four stamps are there. -/
def syncSample (p : Nat) (m : SyncMsg) (s : State) : Prop :=
  (syncHeard p m s).links.parent = some p ∧ m.t2 ≠ 0 ∧ ownStamp (getPort s p) m ≠ 0

/-- Twice the offset to the parent over two, in sixteenths of a nanosecond. -/
def syncOffset (p : Nat) (m : SyncMsg) (s : State) : Int := (((m.t2 : Int) - ownStamp (getPort s p) m) - ((m.t4 : Int) - m.t1)) / 2

theorem syncReceive_sample {p : Nat} {m : SyncMsg} {s : State} (h : syncSample p m s) : syncReceive p m s =
    correct (modPort (syncHeard p m s) p fun x => { x with offsetPs := syncOffset p m s * 1000 / 16 }) p (syncOffset p m s / 16) :=
  if_pos h

theorem syncReceive_noSample {p : Nat} {m : SyncMsg} {s : State} (h : ¬ syncSample p m s) : syncReceive p m s = syncHeard p m s :=
  if_neg h

/-! ## A correction -/

theorem correct_links (s : State) (p : Nat) (off : Int) :
    (correct s p off).links.ports = s.links.ports ∧ (correct s p off).links.parent = s.links.parent := by
  simp only [correct]
  (repeat' split) <;> simp

/-- 1 µs or more behind: one jump forward, logged. -/
theorem correct_behind {s : State} (p : Nat) {off : Int} (hs : s.links.synced = true) (h : 1000 ≤ off) : correct s p off = { s with
    now := s.now + BitVec.ofNat 64 off.toNat
    links := { s.links with synced := true, lead := 0, slew := 0 }
    emitted := s.emitted ++ [⟨s.now, 0x840 + p, 0x004, 1, 0xFF, [off.toNat % 2 ^ 64]⟩] } := by
  have hbig : 1000 ≤ off.natAbs := by omega
  have htwos : twos 64 off = off.toNat % 2 ^ 64 := by simp only [twos]; omega
  simp [correct, hs, hbig, htwos, emit_plain, sevNotice, show (0 : Int) ≤ off by omega]

/-- 1 µs or more ahead: half rate until the lead is gone. -/
theorem correct_ahead {s : State} (p : Nat) {off : Int} (hs : s.links.synced = true) (h : off ≤ -1000) :
    (correct s p off).now = s.now ∧ (correct s p off).links.lead = off.natAbs := by
  have hbig : 1000 ≤ off.natAbs := by omega
  simp [correct, hs, hbig, show ¬ (0 : Int) ≤ off by omega]

theorem correct_small {s : State} (p : Nat) {off : Int} (hs : s.links.synced = true) (h : -1000 < off) (h' : off < 1000) :
    correct s p off = { s with links := { s.links with slew := off } } := by
  have hbig : ¬ 1000 ≤ off.natAbs := by omega
  simp [correct, hs, hbig]

/-- After the offset of a sample is noted on its port, the correction leaves the port. -/
theorem syncReceive_spec (p : Nat) (m : SyncMsg) (s : State) :
    (getPort (syncReceive p m s) p).syncT2 = m.t4 ∧ (getPort (syncReceive p m s) p).root = m.root ∧
    (getPort (syncReceive p m s) p).rootSeq = m.rootSeq ∧ onlyPort s (syncReceive p m s) p ∧
    (syncReceive p m s).links.parent = (syncHeard p m s).links.parent := by
  obtain ⟨-, hport, honly, -, -⟩ := syncHeard_spec p m s
  by_cases h : syncSample p m s
  · rw [syncReceive_sample h]
    obtain ⟨hports, hparent⟩ := correct_links (modPort (syncHeard p m s) p fun x => { x with offsetPs := syncOffset p m s * 1000 / 16 }) p
      (syncOffset p m s / 16)
    rw [getPort_congr hports, getPort_modPort_self, hport]
    exact ⟨rfl, rfl, rfl, onlyPort_trans honly (onlyPort_trans (modPort_onlyPort _ p _) (onlyPort_of_ports hports p)), hparent⟩
  · rw [syncReceive_noSample h, hport]
    exact ⟨rfl, rfl, rfl, honly, rfl⟩

/-- A sample after the first sync: the time-base jumps forward only, and a smaller offset or a lead leaves it. -/
theorem syncReceive_corrects {p : Nat} {m : SyncMsg} {s : State} (h : syncSample p m s) (hs : s.links.synced = true) :
    let off := syncOffset p m s / 16
    let t := syncReceive p m s
    (1000 ≤ off → t.now = s.now + BitVec.ofNat 64 off.toNat ∧ ∃ l, logs s t (l ++ [(0x840 + p, 0x004, 1, 0xFF, [off.toNat % 2 ^ 64])])) ∧
    (off < 1000 → t.now = s.now) ∧ (-1000 < off → off < 1000 → t.links.slew = off) ∧ (off ≤ -1000 → t.links.lead = off.natAbs) := by
  obtain ⟨hnow, -, -, hsync, l, hlog⟩ := syncHeard_spec p m s
  dsimp only
  rw [syncReceive_sample h]
  generalize hu : modPort (syncHeard p m s) p (fun x => { x with offsetPs := syncOffset p m s * 1000 / 16 }) = u
  have hunow : u.now = s.now := by rw [← hu]; exact hnow
  have husync : u.links.synced = true := by rw [← hu]; exact hsync.trans hs
  have hulog : logs s u l := by rw [← hu]; exact hlog
  have hahead := correct_ahead (off := syncOffset p m s / 16) p husync
  have hsmall := correct_small (off := syncOffset p m s / 16) p husync
  have hbehind := correct_behind (off := syncOffset p m s / 16) p husync
  refine ⟨fun hb => ?_, fun hlt => ?_, fun hgt hlt => ?_, fun ha => (hahead ha).2⟩
  · rw [hbehind hb]
    refine ⟨by rw [hunow], l, ?_⟩
    simp only [logs] at hulog ⊢
    simp [hulog, hunow]
  · by_cases hgt : -1000 < syncOffset p m s / 16
    · rw [hsmall hgt hlt]
      exact hunow
    · exact (hahead (by omega)).1.trans hunow
  · rw [hsmall hgt hlt]

/-! ## A root lost -/

theorem rootLost_iff (s : State) : rootLost s = true ↔ s.links.root.isSome = true ∧ s.links.rootAt + 64000 ≤ time s := by
  simp [rootLost]

theorem execRootLossTimer_lost {s : State} (h : rootLost s = true) : execRootLossTimer s = .next (adopt s) := by
  unfold execRootLossTimer when
  rw [if_pos h]

theorem adopt_lost_none {s : State} (h : rootLost s = true) (hn : lowestRoot s s.links.root = none) : adopt s = becomeRoot s := by
  obtain ⟨r, hr⟩ := Option.isSome_iff_exists.mp ((rootLost_iff s).mp h).1
  rw [hr] at hn
  simp only [adopt, hr, h, if_true, hn]

theorem adopt_lost_some {s : State} {q : Nat} (h : rootLost s = true) (hq : lowestRoot s s.links.root = some q) : adopt s = newRoot s q := by
  obtain ⟨r, hr⟩ := Option.isSome_iff_exists.mp ((rootLost_iff s).mp h).1
  rw [hr] at hq
  simp only [adopt, hr, h, if_true, hq]

/-- Settles O31, clause by clause: a SYNC sent, one discarded, one heard, and a root lost. -/
theorem timeBaseSynchronises : Obligations.TimeBaseSynchronises := by
  unfold Obligations.TimeBaseSynchronises
  intro p s
  refine ⟨fun hf hd => ?_, fun m hf hm => ?_, fun m hf hspan hres => ?_, fun hroot hlate => ⟨fun hnone => ?_, fun r hr => ?_⟩⟩
  · refine ⟨_, execSyncSend_due hf hd, syncNumbered_rootSeq s, ?_⟩
    obtain ⟨f, hout, htyp, hack, hpay⟩ := syncSent_out p (syncNumbered s)
    obtain ⟨hat, ht1, hold⟩ := syncSent_getPort p (syncNumbered s)
    simp only [syncNumbered_out, syncNumbered_getPort, syncNumbered_time] at hout hack hat ht1 hold
    refine ⟨⟨f, hout, htyp, hack, ?_⟩, hat, ht1, hold, ?_, syncNumbered_now s⟩
    · simp only [syncFields, syncNumbered_time, syncNumbered_getPort, syncNumbered_rootId, syncNumbered_dist] at hpay
      exact hpay
    · exact fun q hq => (syncSent_onlyPort p _ q hq).trans (syncNumbered_getPort s q)
  · refine ⟨s, ?_, rfl⟩
    change execSyncReceive p m s = _
    unfold execSyncReceive when
    rw [if_neg]
    rcases hm with h | h
    · simp [h]
    · simp [Option.isNone_eq_false_iff.mpr h]
  · have hdue : execSyncReceive p m s = .next (syncReceive p m s) := by simp [execSyncReceive, when, hf, hspan, hres]
    obtain ⟨ht2, hr, hseq, honly, hparent⟩ := syncReceive_spec p m s
    obtain ⟨hnow, -⟩ := syncHeard_spec p m s
    refine ⟨_, hdue, ht2, hr, hseq, honly, fun hno => ?_, fun hs hp h2 h1 => syncReceive_corrects ⟨hparent.symm.trans hp, h2, h1⟩ hs⟩
    rw [syncReceive_noSample, hnow]
    rintro ⟨hp, h2, h1⟩
    rcases hno with h | h | h
    · exact h (hparent.trans hp)
    · exact h2 h
    · exact h1 h
  · have hlost := (rootLost_iff s).mpr ⟨hroot, hlate⟩
    refine ⟨becomeRoot s, ?_, ?_⟩
    · exact (execRootLossTimer_lost hlost).trans (by rw [adopt_lost_none hlost hnone])
    · rw [becomeRoot_eq hroot]
      exact ⟨rfl, rfl, rfl, rfl, rfl, rfl, rfl⟩
  · have hlost := (rootLost_iff s).mpr ⟨hroot, hlate⟩
    obtain ⟨hports, hother⟩ := lowestRoot_heard hr
    obtain ⟨q, seq, hfresh, hq, heq⟩ := newRoot_eq hports hother
    refine ⟨newRoot s r, ?_, ?_⟩
    · exact (execRootLossTimer_lost hlost).trans (by rw [adopt_lost_some hlost hr])
    · rw [heq]
      refine ⟨rfl, ?_, rfl, rfl, q, rfl, hfresh, hq, rfl, rfl⟩
      rintro rfl
      obtain ⟨r', hr'⟩ := Option.isSome_iff_exists.mp hroot
      simp [hr'] at hother

end Sys2Proof.Machine
end

section
/-! Quarter clocks, their voltages and the thermal limits (R20, R23, R448, R459, R460): what an operation on one die changes there, that it
leaves the other die, and that a package-fatal cause leaves the power state. -/

namespace Sys2Proof.Machine

/-! ## Tables set over a list of keys, and filtered by key -/

theorem tfind_foldl_tset {α : Type} (f : Nat → α) (l : List Nat) (m : AMap α) (k : Nat) :
    tfind (l.foldl (fun m q => tset m q (f q)) m) k = if k ∈ l then some (f k) else tfind m k := by
  induction l generalizing m with
  | nil => rfl
  | cons q l ih =>
    rw [List.foldl_cons, ih]
    by_cases hk : k = q
    · subst hk; simp
    · simp [hk, tfind_tset_ne _ hk]

theorem tget_foldl_tset {α : Type} (d : α) (f : Nat → α) (l : List Nat) (m : AMap α) (k : Nat) :
    tget d (l.foldl (fun m q => tset m q (f q)) m) k = if k ∈ l then f k else tget d m k := by
  rw [tget, tfind_foldl_tset]
  split <;> rfl

theorem tfind_filter_key {α : Type} (P : Nat → Bool) (k : Nat) : ∀ m : AMap α, tfind (m.filter fun e => P e.1) k = if P k then tfind m k else none
  | [] => by simp [tfind]
  | (j, v) :: m => by
    have ih := tfind_filter_key P k m
    by_cases hk : j = k
    · subst hk
      by_cases hP : P j = true
      · simp [tfind, hP]
      · simpa [tfind, hP] using ih
    · by_cases hP : P j = true <;> simp [tfind, hP, hk, ih]

/-! ## One die -/

theorem mem_dieQuarters {die q : Nat} : q ∈ dieQuarters die ↔ q / 16 = die := by
  simp only [dieQuarters, List.mem_map, List.mem_range]
  constructor
  · rintro ⟨i, hi, rfl⟩
    omega
  · intro h
    exact ⟨q % 16, Nat.mod_lt _ (by decide), by omega⟩

theorem dieTop_congr {die : Nat} {f g : Nat → Nat} (h : ∀ q, q / 16 = die → f q = g q) : dieTop die f = dieTop die g := by
  have hmap : (dieQuarters die).map f = (dieQuarters die).map g := List.map_congr_left fun q hq => h q (mem_dieQuarters.mp hq)
  have htop (k : Nat → Nat) : dieTop die k = ((dieQuarters die).map k).foldl max 0 := List.foldl_map.symm
  rw [htop f, htop g, hmap]

/-- The step from `s` to `t` sets clocks, waiting rises and the voltage of one die; other dies, the rest of the power state, the
districts and the advisories stay. -/
structure OnlyDie (die : Nat) (s t : State) : Prop where
  clocks : ∀ q, q / 16 ≠ die → quarterMhz t.pwr q = quarterMhz s.pwr q
  rises : ∀ q, q / 16 ≠ die → tfind t.pwr.rise q = tfind s.pwr.rise q
  mv : ∀ e < 2, die < 2 → e ≠ die → dieMv t e = dieMv s e
  pwr : t.pwr = { s.pwr with mhz := t.pwr.mhz, rise := t.pwr.rise, mvE := t.pwr.mvE, mvW := t.pwr.mvW }
  dists : t.dists = s.dists
  adv : t.adv = s.adv

theorem dieMv_of_setMv {t : State} {die mv : Nat} {p : Pwr} (h : t.pwr = setMv die mv p) : dieMv t die = mv := by
  rw [dieMv, h, setMv]
  split <;> rfl

theorem dieMv_of_setMv_ne {s t : State} {die e mv : Nat} {p : Pwr} (h : t.pwr = setMv die mv p) (hE : p.mvE = s.pwr.mvE) (hW : p.mvW = s.pwr.mvW)
    (hd : die < 2) (he : e < 2) (hne : e ≠ die) : dieMv t e = dieMv s e := by
  rw [dieMv, dieMv, h, setMv]
  by_cases hdie : die = 0
  · have : e ≠ 0 := by omega
    simp [hdie, this, hW]
  · have : e = 0 := by omega
    simp [hdie, this, hE]

@[simp] theorem setMv_mhz (die mv : Nat) (p : Pwr) : (setMv die mv p).mhz = p.mhz := by unfold setMv; split <;> rfl
@[simp] theorem setMv_rise (die mv : Nat) (p : Pwr) : (setMv die mv p).rise = p.rise := by unfold setMv; split <;> rfl

/-- A voltage set leaves all but the clocks, the rises and the voltages. -/
theorem setMv_frame (die mv : Nat) (p : Pwr) (mhz rise : AMap Nat) :
    let p1 := setMv die mv { p with mhz := mhz, rise := rise }
    p1 = { p with mhz := p1.mhz, rise := p1.rise, mvE := p1.mvE, mvW := p1.mvW } := by
  unfold setMv
  split <;> rfl

theorem setDie_quarterMhz (die : Nat) (f : Nat → Nat) (mv : Nat) (s : State) (q : Nat) :
    quarterMhz (setDie die f mv s).pwr q = if q / 16 = die then f q else quarterMhz s.pwr q := by
  simp only [quarterMhz, setDie, setMv_mhz, tget_foldl_tset, mem_dieQuarters]

theorem setDie_rise (die : Nat) (f : Nat → Nat) (mv : Nat) (s : State) (q : Nat) :
    tfind (setDie die f mv s).pwr.rise q = if q / 16 = die then none else tfind s.pwr.rise q := by
  simp only [setDie, setMv_rise, tfind_filter_key fun k => !(dieQuarters die).contains k]
  by_cases h : q / 16 = die <;> simp [mem_dieQuarters, h]

theorem setDie_dieMv (die : Nat) (f : Nat → Nat) (mv : Nat) (s : State) : dieMv (setDie die f mv s) die = mv :=
  dieMv_of_setMv rfl

theorem setDie_onlyDie (die : Nat) (f : Nat → Nat) (mv : Nat) (s : State) : OnlyDie die s (setDie die f mv s) where
  clocks q h := by rw [setDie_quarterMhz, if_neg h]
  rises q h := by rw [setDie_rise, if_neg h]
  mv _ he hd h := dieMv_of_setMv_ne rfl rfl rfl hd he h
  pwr := setMv_frame die mv s.pwr _ _
  dists := rfl
  adv := rfl

/-! ## Clocks lowered -/

theorem lowerDie_quarterMhz {die : Nat} (to_ : Nat → Nat) (s : State) {q : Nat} (h : q / 16 = die) :
    quarterMhz (lowerDie die to_ s).pwr q = max 800 (min (to_ q) (quarterMhz s.pwr q)) := by
  simp only [lowerDie, setDie_quarterMhz, if_pos h]

/-- The voltage is the one that the highest of the lowered clocks needs. -/
theorem lowerDie_dieMv (die : Nat) (to_ : Nat → Nat) (s : State) :
    dieMv (lowerDie die to_ s) die = voltFor (dieTop die (quarterMhz (lowerDie die to_ s).pwr)) := by
  rw [dieTop_congr fun q hq => lowerDie_quarterMhz to_ s hq]
  exact setDie_dieMv die _ _ s

theorem lowerDie_rise {die : Nat} (to_ : Nat → Nat) (s : State) {q : Nat} (h : q / 16 = die) : thas (lowerDie die to_ s).pwr.rise q = false := by
  simp only [thas, lowerDie, setDie_rise, if_pos h, Option.isSome_none]

theorem lowerDie_onlyDie (die : Nat) (to_ : Nat → Nat) (s : State) : OnlyDie die s (lowerDie die to_ s) := setDie_onlyDie die _ _ s

theorem lowerBy_lt (s : State) (n : Nat) {q : Nat} (h : 800 < quarterMhz s.pwr q) : lowerBy s n q < quarterMhz s.pwr q := by
  simp only [lowerBy]
  omega

/-- A clock above 0.8 GHz falls, and none falls below. -/
def Falls (before after : Nat) : Prop := (800 < before → after < before) ∧ 800 ≤ after

theorem falls_of_lower {before to_ : Nat} (h : 800 < before → to_ < before) : Falls before (max 800 (min to_ before)) := by
  simp only [Falls]
  omega

theorem lowerSome_falls {die : Nat} (s : State) {q : Nat} (h : q / 16 = die) : Falls (quarterMhz s.pwr q) (quarterMhz (lowerSome die s).pwr q) := by
  have hq := lowerDie_quarterMhz (fun q => lowerBy s (Config.freeValue (s.freeCtr + q % 16)) q) { s with freeCtr := s.freeCtr + 16 } h
  rw [show quarterMhz (lowerSome die s).pwr q = _ from hq]
  exact falls_of_lower (lowerBy_lt s (Config.freeValue (s.freeCtr + q % 16)))

theorem lowerSome_dieMv (die : Nat) (s : State) : dieMv (lowerSome die s) die = voltFor (dieTop die (quarterMhz (lowerSome die s).pwr)) :=
  lowerDie_dieMv die _ _

theorem lowerSome_onlyDie (die : Nat) (s : State) : OnlyDie die s (lowerSome die s) := by
  obtain ⟨hclocks, hrises, hmv, hpwr, hdists, hadv⟩ :=
    lowerDie_onlyDie die (fun q => lowerBy s (Config.freeValue (s.freeCtr + q % 16)) q) { s with freeCtr := s.freeCtr + 16 }
  exact ⟨hclocks, hrises, hmv, hpwr, hdists, hadv⟩

/-! ## Clocks raised -/

/-- What a raise by 100 MHz aims at (R460). -/
def raiseAim (s : State) (q : Nat) : Nat := max (quarterMhz s.pwr q) (min 2000 (quarterMhz s.pwr q + 100))

/-- A die raised by 100 MHz: at once where its voltage suffices; else the voltage rises and the clocks wait for it. -/
def Raised (die : Nat) (s t : State) : Prop :=
  (voltFor (dieTop die (raiseAim s)) ≤ dieMv s die → dieMv t die = dieMv s die ∧ ∀ q, q / 16 = die → quarterMhz t.pwr q = raiseAim s q) ∧
  (dieMv s die < voltFor (dieTop die (raiseAim s)) → dieMv t die = voltFor (dieTop die (raiseAim s)) ∧
    ∀ q, q / 16 = die → quarterMhz t.pwr q = quarterMhz s.pwr q ∧ (quarterMhz s.pwr q < raiseAim s q → tget 0 t.pwr.rise q = raiseAim s q))

/-- A die raised by 100 MHz. -/
def raiseOne (die : Nat) (s : State) : State := raiseDie die (fun q => quarterMhz s.pwr q + 100) s

/-- A die whose voltage rises first. -/
def raiseWaits (die : Nat) (s : State) : State :=
  { s with pwr := setMv die (voltFor (dieTop die (raiseAim s))) { s.pwr with
      rise := ((dieQuarters die).filter fun q => quarterMhz s.pwr q < raiseAim s q).foldl (fun m q => tset m q (raiseAim s q)) s.pwr.rise } }

theorem raiseOne_eq (die : Nat) (s : State) : raiseOne die s =
    if voltFor (dieTop die (raiseAim s)) ≤ dieMv s die then setDie die (raiseAim s) (dieMv s die) s else raiseWaits die s := by rfl

theorem raiseWaits_quarterMhz (die : Nat) (s : State) (q : Nat) : quarterMhz (raiseWaits die s).pwr q = quarterMhz s.pwr q := by
  simp only [quarterMhz, raiseWaits, setMv_mhz]

theorem raiseWaits_rise (die : Nat) (s : State) (d q : Nat) : tget d (raiseWaits die s).pwr.rise q =
    if q / 16 = die ∧ quarterMhz s.pwr q < raiseAim s q then raiseAim s q else tget d s.pwr.rise q := by
  simp only [raiseWaits, setMv_rise, tget_foldl_tset, List.mem_filter, mem_dieQuarters, decide_eq_true_eq]

theorem raiseWaits_onlyDie (die : Nat) (s : State) : OnlyDie die s (raiseWaits die s) where
  clocks q _ := raiseWaits_quarterMhz die s q
  rises q h := by
    simp only [raiseWaits, setMv_rise, tfind_foldl_tset, List.mem_filter, mem_dieQuarters, h, false_and, if_false]
  mv _ he hd h := dieMv_of_setMv_ne rfl rfl rfl hd he h
  pwr := setMv_frame die _ s.pwr _ _
  dists := rfl
  adv := rfl

theorem raiseOne_onlyDie (die : Nat) (s : State) : OnlyDie die s (raiseOne die s) := by
  rw [raiseOne_eq]
  split
  · exact setDie_onlyDie die _ _ s
  · exact raiseWaits_onlyDie die s

theorem raiseOne_raised (die : Nat) (s : State) : Raised die s (raiseOne die s) := by
  refine ⟨fun h => ?_, fun h => ?_⟩
  · rw [raiseOne_eq, if_pos h]
    exact ⟨setDie_dieMv die _ _ s, fun q hq => by rw [setDie_quarterMhz, if_pos hq]⟩
  · rw [raiseOne_eq, if_neg (Nat.not_le.mpr h)]
    exact ⟨dieMv_of_setMv rfl, fun q hq => ⟨raiseWaits_quarterMhz die s q, fun hlt => by rw [raiseWaits_rise, if_pos ⟨hq, hlt⟩]⟩⟩

/-! ## Both dies, one after the other -/

/-- One die's clocks, waiting rises and voltage are the same in two states. -/
structure SameDie (die : Nat) (s t : State) : Prop where
  clocks : ∀ q, q / 16 = die → quarterMhz t.pwr q = quarterMhz s.pwr q
  rises : ∀ q, q / 16 = die → tfind t.pwr.rise q = tfind s.pwr.rise q
  mv : dieMv t die = dieMv s die

theorem sameDie_refl (die : Nat) (s : State) : SameDie die s s := ⟨fun _ _ => rfl, fun _ _ => rfl, rfl⟩

theorem OnlyDie.sameDie {d die : Nat} {s t : State} (h : OnlyDie d s t) (hd : d < 2) (hdie : die < 2) (hne : die ≠ d) : SameDie die s t :=
  ⟨fun q hq => h.clocks q (hq ▸ hne), fun q hq => h.rises q (hq ▸ hne), h.mv die hdie hd hne⟩

theorem OnlyDie.trans_pwr {d e : Nat} {s t u : State} (h : OnlyDie d s t) (k : OnlyDie e t u) :
    u.pwr = { s.pwr with mhz := u.pwr.mhz, rise := u.pwr.rise, mvE := u.pwr.mvE, mvW := u.pwr.mvW } := by
  have hk := k.pwr
  rw [h.pwr] at hk
  exact hk

theorem raised_of_sameDie {die : Nat} {s s' t t' : State} (h : SameDie die s s') (h' : SameDie die t t') (hr : Raised die s' t) : Raised die s t' := by
  have haim : ∀ q, q / 16 = die → raiseAim s' q = raiseAim s q := fun q hq => by simp only [raiseAim, h.clocks q hq]
  obtain ⟨hnow, hwait⟩ := hr
  rw [dieTop_congr haim, h.mv] at hnow hwait
  refine ⟨fun hv => ?_, fun hv => ?_⟩
  · obtain ⟨hmv, hclocks⟩ := hnow hv
    exact ⟨h'.mv.trans hmv, fun q hq => by rw [h'.clocks q hq, hclocks q hq, haim q hq]⟩
  · obtain ⟨hmv, hclocks⟩ := hwait hv
    refine ⟨h'.mv.trans hmv, fun q hq => ?_⟩
    obtain ⟨hsame, hrise⟩ := hclocks q hq
    rw [haim q hq, h.clocks q hq] at hrise
    exact ⟨by rw [h'.clocks q hq, hsame, h.clocks q hq], fun hlt => by rw [tget, h'.rises q hq]; exact hrise hlt⟩

section
variable {g : Nat → State → State} (hg : ∀ d s, OnlyDie d s (g d s))
include hg

/-- What both dies' steps do to one die is what its own step does, from a state that is the same there. -/
theorem bothDies_die {die : Nat} (h : die < 2) (s : State) : ∃ u, SameDie die s u ∧ SameDie die (g die u) (bothDies g s) := by
  match die, h with
  | 0, _ => exact ⟨s, sameDie_refl 0 s, (hg 1 (g 0 s)).sameDie (by decide) (by decide) (by decide)⟩
  | 1, _ => exact ⟨g 0 s, (hg 0 s).sameDie (by decide) (by decide) (by decide), sameDie_refl 1 _⟩

theorem bothDies_pwr (s : State) : (bothDies g s).pwr = { s.pwr with
    mhz := (bothDies g s).pwr.mhz, rise := (bothDies g s).pwr.rise, mvE := (bothDies g s).pwr.mvE, mvW := (bothDies g s).pwr.mvW } :=
  (hg 0 s).trans_pwr (hg 1 (g 0 s))

theorem bothDies_dists (s : State) : (bothDies g s).dists = s.dists := (hg 1 (g 0 s)).dists.trans (hg 0 s).dists

theorem bothDies_adv (s : State) : (bothDies g s).adv = s.adv := (hg 1 (g 0 s)).adv.trans (hg 0 s).adv

theorem bothDies_clock {R : Nat → Nat → Prop} (hR : ∀ d s q, q / 16 = d → R (quarterMhz s.pwr q) (quarterMhz (g d s).pwr q)) (s : State) {q : Nat}
    (hq : q < 32) : R (quarterMhz s.pwr q) (quarterMhz (bothDies g s).pwr q) := by
  obtain ⟨u, hu, ht⟩ := bothDies_die hg (die := q / 16) (by omega) s
  rw [ht.clocks q rfl, ← hu.clocks q rfl]
  exact hR _ u q rfl

theorem bothDies_rise (hR : ∀ d s q, q / 16 = d → thas (g d s).pwr.rise q = false) (s : State) {q : Nat} (hq : q < 32) :
    thas (bothDies g s).pwr.rise q = false := by
  obtain ⟨u, -, ht⟩ := bothDies_die hg (die := q / 16) (by omega) s
  rw [thas, ht.rises q rfl]
  exact hR _ u q rfl

theorem bothDies_voltage (hv : ∀ d s, dieMv (g d s) d = voltFor (dieTop d (quarterMhz (g d s).pwr))) (s : State) {die : Nat} (h : die < 2) :
    dieMv (bothDies g s) die = voltFor (dieTop die (quarterMhz (bothDies g s).pwr)) := by
  obtain ⟨u, -, ht⟩ := bothDies_die hg h s
  rw [ht.mv, hv, dieTop_congr ht.clocks]

end

/-! ## PROCHOT_N, the throttle and the raise -/

/-- One die at 0.8 GHz. -/
def holdLowest (die : Nat) (s : State) : State := lowerDie die (fun _ => 800) s

/-- One die 100 MHz lower. -/
def throttleOne (die : Nat) (s : State) : State := lowerDie die (fun q => quarterMhz s.pwr q - 100) s

theorem holdLowest_onlyDie (die : Nat) (s : State) : OnlyDie die s (holdLowest die s) := lowerDie_onlyDie die _ s
theorem throttleOne_onlyDie (die : Nat) (s : State) : OnlyDie die s (throttleOne die s) := lowerDie_onlyDie die _ s

theorem bothDies_holdLowest_quarterMhz {s : State} {q : Nat} (hq : q < 32) : quarterMhz (bothDies holdLowest s).pwr q = 800 :=
  bothDies_clock holdLowest_onlyDie (R := fun _ b => b = 800) (fun _ s _ h => (lowerDie_quarterMhz _ s h).trans (by omega)) s hq

theorem bothDies_throttleOne_quarterMhz {s : State} {q : Nat} (hq : q < 32) :
    quarterMhz (bothDies throttleOne s).pwr q = max 800 (quarterMhz s.pwr q - 100) :=
  bothDies_clock throttleOne_onlyDie (R := fun a b => b = max 800 (a - 100))
    (fun _ s _ h => (lowerDie_quarterMhz _ s h).trans (by rw [Nat.min_eq_left (Nat.sub_le _ _)])) s hq

theorem bothDies_holdLowest_dieMv (s : State) {die : Nat} (h : die < 2) : dieMv (bothDies holdLowest s) die = 600 := by
  rw [bothDies_voltage holdLowest_onlyDie (fun d s => lowerDie_dieMv d _ s) s h,
    dieTop_congr (g := fun _ => 800) fun q hq => bothDies_holdLowest_quarterMhz (by omega)]
  match die, h with
  | 0, _ => rfl
  | 1, _ => rfl

theorem bothDies_raiseOne_raised (s : State) {die : Nat} (h : die < 2) : Raised die s (bothDies raiseOne s) := by
  obtain ⟨u, hu, ht⟩ := bothDies_die raiseOne_onlyDie h s
  exact raised_of_sameDie hu ht (raiseOne_raised die u)

/-! ## The power cap -/

theorem postAdvisory_replaces (s : State) {k : Nat} (value : Nat) (h4 : k ≠ 4) (h5 : k ≠ 5) :
    postAdvisory s k value = { s with adv := tset s.adv k { value := value, unread := true } } :=
  if_neg (by rintro ⟨-, h | h⟩ <;> contradiction)

/-- The state whose clocks a mean above the cap lowers. -/
def overCap (w : Nat) (s : State) : State := { s with pwr := { s.pwr with meanW := w, raising := false } }

theorem capWindow_over {w : Nat} {s : State} (h : 101 * s.pwr.capW < 100 * w) : capWindow w s =
    { bothDies lowerSome (overCap w s) with adv := tset s.adv 2 { value := s.pwr.capW, unread := true } } := by
  refine (if_pos h).trans ((postAdvisory_replaces _ _ (by decide) (by decide)).trans ?_)
  have hadv : (bothDies lowerSome (overCap w s)).adv = s.adv := bothDies_adv lowerSome_onlyDie _
  rw [← hadv]
  rfl

theorem capWindow_within {w : Nat} {s : State} (h : 100 * w ≤ 101 * s.pwr.capW) : capWindow w s =
    { s with pwr := { s.pwr with meanW := w, raising := !s.pwr.prochot && !s.pwr.throttling } } :=
  if_neg (Nat.not_lt.mpr h)

/-! ## A package-fatal cause -/

theorem fatalActed_keeps (cause : Nat) (s : State) :
    (fatalActed cause s).pwr = s.pwr ∧ (fatalActed cause s).health = { s.health with fatalAck := true } := by
  have hlog := vitals_foldl (fun t c => emit t (0x881 + c) 0x008 sevInfo 0xFF (advValues s)) (fun t c => emit_vitals t _ _ _ _ _) (liveCps s) s
  obtain ⟨-, hpwr, hhealth⟩ := (vitals_eq_iff _ _).mp hlog
  obtain ⟨-, hpwr', hhealth'⟩ := (vitals_eq_iff _ (fatalActed cause s)).mp <| (settleAll_vitals _).trans <| (disablePorts_vitals _).trans <|
    vitals_foldl (fun s (e : Nat × Dist) => enterFaulted e.1 (Config.causeCode 0x1E1 cause) 0 s) (fun s (e : Nat × Dist) => enterFaulted_vitals e.1 _ _ s) _ _
  exact ⟨hpwr'.trans hpwr, hhealth'.trans (congrArg (fun h : Health => { h with fatalAck := true }) hhealth)⟩

theorem postAdvisory_keeps (s : State) (k value : Nat) : (postAdvisory s k value).pwr = s.pwr ∧ (postAdvisory s k value).health = s.health := by
  unfold postAdvisory
  dsimp only
  split <;> exact ⟨rfl, rfl⟩

/-- The state in which a package-fatal cause is posted, before the command processors act. -/
def fatalPosted (cause : Nat) (s : State) : State :=
  postAdvisory (emit { s with health := { s.health with fatal := some cause, fatalAt := time s, fatalAck := false } } mgmtSource 0x248 sevFatal 0xFF
    [cause]) 5 cause

theorem fatalPosted_keeps (cause : Nat) (s : State) :
    (fatalPosted cause s).pwr = s.pwr ∧ (fatalPosted cause s).health = { s.health with fatal := some cause, fatalAt := time s, fatalAck := false } := by
  obtain ⟨hpwr, hhealth⟩ := postAdvisory_keeps (emit { s with health := { s.health with fatal := some cause, fatalAt := time s, fatalAck := false } }
    mgmtSource 0x248 sevFatal 0xFF [cause]) 5 cause
  exact ⟨hpwr.trans (emit_pwr _ _ _ _ _ _), hhealth.trans (emit_health _ _ _ _ _ _)⟩

theorem goFatal_eq {s : State} (cause : Nat) (h : ¬ (s.health.fatal.isSome ∨ s.pins.aonRst ∨ s.pins.sysRst)) : goFatal cause s =
    if liveCps (fatalPosted cause s) = [] then fatalPosted cause s else fatalActed cause (fatalPosted cause s) := if_neg h

/-- A package-fatal cause leaves the power state. -/
theorem goFatal_pwr (cause : Nat) (s : State) : (goFatal cause s).pwr = s.pwr := by
  by_cases h : s.health.fatal.isSome ∨ s.pins.aonRst ∨ s.pins.sysRst
  · rw [goFatal, if_pos h]
  · rw [goFatal_eq cause h]
    split
    · exact (fatalPosted_keeps cause s).1
    · exact (fatalActed_keeps cause _).1.trans (fatalPosted_keeps cause s).1

/-- The first cause holds. -/
theorem goFatal_fatal {s : State} (cause : Nat) (hf : s.health.fatal = none) (ha : s.pins.aonRst = false) (hs : s.pins.sysRst = false) :
    (goFatal cause s).health.fatal = some cause := by
  rw [goFatal_eq cause (by simp [hf, ha, hs])]
  split
  · rw [(fatalPosted_keeps cause s).2]
  · rw [(fatalActed_keeps cause _).2, (fatalPosted_keeps cause s).2]

/-! ## The sensors -/

/-- The hottest of four sampled junctions. -/
def hottestOf (e w h k : Int) : Int := max (max (max (clampTemp e) (clampTemp w)) (clampTemp h)) (clampTemp k)

/-- The throttle, from 100 °C until all are below 97 °C. -/
def throttles (s : State) (m : Int) : Bool := decide (100 ≤ m) || (s.pwr.throttling && decide (97 ≤ m))

/-- The power state with new sensor values. -/
def sampledPwr (e w h k : Int) (s : State) : Pwr :=
  { s.pwr with
    tEast := clampTemp e, tWest := clampTemp w, tHub := clampTemp h, tKeeper := clampTemp k
    throttling := throttles s (hottestOf e w h k)
    raising := if throttles s (hottestOf e w h k) then false else s.pwr.raising || (s.pwr.throttling && !s.pwr.prochot) }

/-- The state with new sensor values, before the advisory. -/
def sampledState (e w h k : Int) (s : State) : State :=
  { s with pwr := sampledPwr e w h k s, health := { s.health with hot := s.health.hot ++ [(time s, hottestOf e w h k)] } }

theorem hottestNow_of {p : Pwr} {e w h k : Int} (he : p.tEast = clampTemp e) (hw : p.tWest = clampTemp w) (hh : p.tHub = clampTemp h)
    (hk : p.tKeeper = clampTemp k) : hottestNow p = hottestOf e w h k := by
  simp [hottestNow, temps, he, hw, hh, hk, hottestOf]

/-- The power state of a trip. -/
def tripped (s : State) : State := { s with pwr := { s.pwr with thermTrip := true, pwrOffReq := true } }

theorem sampleTemps_eq (e w h k : Int) (s : State) : sampleTemps e w h k s =
    if 115 ≤ hottestOf e w h k then goFatal pfThermal (tripped (postThermal (sampledState e w h k s))) else postThermal (sampledState e w h k s) := by
  rw [← hottestNow_of (p := { s.pwr with tEast := clampTemp e, tWest := clampTemp w, tHub := clampTemp h, tKeeper := clampTemp k }) rfl rfl rfl rfl]
  simp only [sampleTemps, sampledState, sampledPwr, throttles, tripped,
    ← hottestNow_of (p := { s.pwr with tEast := clampTemp e, tWest := clampTemp w, tHub := clampTemp h, tKeeper := clampTemp k }) rfl rfl rfl rfl]

theorem postThermal_keeps (s : State) : (postThermal s).pwr = s.pwr ∧ (postThermal s).health = s.health ∧ (postThermal s).pins = s.pins := by
  unfold postThermal
  dsimp only
  split <;> exact ⟨rfl, rfl, rfl⟩

/-- The advisory names the hottest junction; one that was not there before is unread. -/
theorem postThermal_adv {s : State} {m : Int} (h : hottestNow s.pwr = m) : (tget {} (postThermal s).adv 3).value = twos 16 m ∧
    (tget {} (postThermal s).adv 3).margin = 100 - m ∧ (thas s.adv 3 = false → (tget {} (postThermal s).adv 3).unread = true) := by
  subst h
  unfold postThermal
  dsimp only
  split
  · next hsame =>
    obtain ⟨hhas, hvalue, hmargin⟩ := hsame
    exact ⟨hvalue, hmargin, fun hno => absurd hhas (by simp [hno])⟩
  · rw [tget_tset_self]
    exact ⟨rfl, rfl, fun _ => rfl⟩

/-- A sample sets the sensors, the throttle and the raise, whether or not the device trips. -/
theorem sampleTemps_pwr (e w h k : Int) (s : State) : (sampleTemps e w h k s).pwr =
    if 115 ≤ hottestOf e w h k then { sampledPwr e w h k s with thermTrip := true, pwrOffReq := true } else sampledPwr e w h k s := by
  obtain ⟨hpwr, -⟩ := postThermal_keeps (sampledState e w h k s)
  rw [sampleTemps_eq]
  split
  · rw [goFatal_pwr]
    exact congrArg (fun p : Pwr => { p with thermTrip := true, pwrOffReq := true }) hpwr
  · exact hpwr

/-! ## The commands while AON_RST_N is deasserted -/

theorem when_due {due : Bool} (g : State → State) (s : State) (h : due = true) : when due g s = g s := if_pos h

theorem when_not_due {due : Bool} (g : State → State) (s : State) (h : due = false) : when due g s = s := if_neg (by simp [h])

/-- PROCHOT_N asserted. -/
def prochotHeld (s : State) : State := { s with pwr := { s.pwr with prochot := true } }

/-- No rise follows by itself. -/
def raisingOff (s : State) : State := { s with pwr := { s.pwr with raising := false } }

/-- A step of the throttle or of a raise is under way. -/
def throttleStamped (s : State) : State := { s with pwr := { s.pwr with lastThrottle := time s } }

section
variable {s : State} (haon : s.pins.aonRst = false)
include haon

theorem execProchotAssert_eq : execProchotAssert s = .next (bothDies holdLowest (prochotHeld s)) := by
  change Host.Outcome.next (when (!s.pins.aonRst) (bothDies holdLowest) (prochotHeld s)) = _
  rw [when_due _ _ (by simp [haon])]

theorem execPowerCapWindow_eq (w : Nat) : execPowerCapWindow w s = .next (capWindow w s) := by
  rw [execPowerCapWindow, when_due _ _ (by simp [haon])]

theorem execRailCurrentLimit_eq {die : Nat} (h : die < 2) :
    execRailCurrentLimit die s = .next (lowerSome die (raisingOff s)) := by
  rw [execRailCurrentLimit, when_due _ _ (by simp [haon, h]), raisingOff]

theorem execAvsAck_eq {die : Nat} (h : die < 2) : execAvsAck die s = .next
    (setDie die (fun q => if s.pwr.prochot then quarterMhz s.pwr q else tget (quarterMhz s.pwr q) s.pwr.rise q) (dieMv s die) s) := by
  rw [execAvsAck, when_due _ _ (by simp [haon, h])]

theorem execThermalThrottleTick_eq (hhot : 100 ≤ hottestNow s.pwr) (hdue : s.pwr.lastThrottle + 50000 ≤ time s) :
    execThermalThrottleTick s = .next (bothDies throttleOne (throttleStamped s)) := by
  rw [execThermalThrottleTick, when_due _ _ (by simp [haon, hhot, hdue])]
  rfl

theorem execThermalRaiseTick_eq (hraise : s.pwr.raising = true) (hpro : s.pwr.prochot = false) (hcool : hottestNow s.pwr < 97)
    (hdue : s.pwr.lastThrottle + 1000000 ≤ time s) :
    execThermalRaiseTick s = .next (bothDies raiseOne (throttleStamped s)) := by
  rw [execThermalRaiseTick, when_due _ _ (by simp [haon, hraise, hpro, hcool, hdue])]
  rfl

theorem execThermalSensorSample_eq (e w h k : Int) : execThermalSensorSample e w h k s = .next (sampleTemps e w h k s) := by
  rw [execThermalSensorSample, when_due _ _ (by simp [haon])]

end

theorem execThermalThrottleTick_cool {s : State} (h : hottestNow s.pwr < 100) : execThermalThrottleTick s = .next s := by
  rw [execThermalThrottleTick, when_not_due _ _ (by simp [Int.not_le.mpr h])]

/-! ## What each command leaves -/

theorem prochotAssert_leaves (s : State) : let t := bothDies holdLowest (prochotHeld s)
    t.pwr.prochot = true ∧ (∀ q < 32, quarterMhz t.pwr q = 800 ∧ thas t.pwr.rise q = false) ∧ t.pwr.mvE = 600 ∧ t.pwr.mvW = 600 ∧
    t.dists = s.dists := by
  refine ⟨?_, fun q hq => ⟨bothDies_holdLowest_quarterMhz hq, bothDies_rise holdLowest_onlyDie (fun _ s _ h => lowerDie_rise _ s h) _ hq⟩, ?_, ?_, ?_⟩
  · rw [bothDies_pwr holdLowest_onlyDie]
    rfl
  · exact bothDies_holdLowest_dieMv _ (die := 0) (by decide)
  · exact bothDies_holdLowest_dieMv _ (die := 1) (by decide)
  · exact bothDies_dists holdLowest_onlyDie _

theorem capWindow_leaves (w : Nat) (s : State) : let t := capWindow w s
    t.pwr.meanW = w ∧ t.dists = s.dists ∧
    (101 * s.pwr.capW < 100 * w → (tget {} t.adv 2).value = s.pwr.capW ∧ (tget {} t.adv 2).unread = true ∧ t.pwr.raising = false ∧
      ∀ q < 32, (800 < quarterMhz s.pwr q → quarterMhz t.pwr q < quarterMhz s.pwr q) ∧ 800 ≤ quarterMhz t.pwr q) ∧
    (100 * w ≤ 101 * s.pwr.capW → t.pwr.mhz = s.pwr.mhz ∧ t.adv = s.adv) := by
  rcases Nat.lt_or_ge (101 * s.pwr.capW) (100 * w) with hover | hwithin
  · rw [capWindow_over hover]
    have hpwr := bothDies_pwr lowerSome_onlyDie (overCap w s)
    have hdists : (bothDies lowerSome (overCap w s)).dists = s.dists := bothDies_dists lowerSome_onlyDie (overCap w s)
    have hmean : (bothDies lowerSome (overCap w s)).pwr.meanW = w := by rw [hpwr]; rfl
    have hraising : (bothDies lowerSome (overCap w s)).pwr.raising = false := by rw [hpwr]; rfl
    refine ⟨hmean, hdists, fun _ => ⟨?_, ?_, hraising, fun q hq => ?_⟩, fun h => absurd h (by omega)⟩
    · exact congrArg Advisory.value (tget_tset_self _ _ _ _)
    · exact congrArg Advisory.unread (tget_tset_self _ _ _ _)
    · exact bothDies_clock lowerSome_onlyDie (R := Falls) (fun _ s _ h => lowerSome_falls s h) (overCap w s) hq
  · rw [capWindow_within hwithin]
    exact ⟨rfl, rfl, fun h => absurd h (by omega), fun _ => ⟨rfl, rfl⟩⟩

theorem railCurrentLimit_leaves (die : Nat) (s : State) : let t := lowerSome die (raisingOff s)
    dieMv t die = voltFor (dieTop die (quarterMhz t.pwr)) ∧
    ∀ q < 32, (q / 16 = die → (800 < quarterMhz s.pwr q → quarterMhz t.pwr q < quarterMhz s.pwr q) ∧ 800 ≤ quarterMhz t.pwr q) ∧
      (q / 16 ≠ die → quarterMhz t.pwr q = quarterMhz s.pwr q) :=
  ⟨lowerSome_dieMv die _, fun q _ => ⟨fun h => lowerSome_falls (raisingOff s) h, fun h => (lowerSome_onlyDie die (raisingOff s)).clocks q h⟩⟩

/-- The acknowledgement leaves both voltages. -/
theorem setDie_voltages (die : Nat) (f : Nat → Nat) (s : State) :
    (setDie die f (dieMv s die) s).pwr.mvE = s.pwr.mvE ∧ (setDie die f (dieMv s die) s).pwr.mvW = s.pwr.mvW := by
  by_cases h : die = 0 <;> simp [setDie, setMv, dieMv, h]

theorem avsAck_leaves (die : Nat) (f : Nat → Nat) (s : State) : let t := setDie die f (dieMv s die) s
    t.pwr.mvE = s.pwr.mvE ∧ t.pwr.mvW = s.pwr.mvW ∧
    ∀ q < 32, (q / 16 = die → thas t.pwr.rise q = false ∧ quarterMhz t.pwr q = f q) ∧ (q / 16 ≠ die → quarterMhz t.pwr q = quarterMhz s.pwr q) := by
  obtain ⟨hE, hW⟩ := setDie_voltages die f s
  refine ⟨hE, hW, fun q _ => ⟨fun h => ⟨?_, ?_⟩, (setDie_onlyDie die f _ s).clocks q⟩⟩
  · rw [thas, setDie_rise, if_pos h]
    rfl
  · rw [setDie_quarterMhz, if_pos h]

theorem throttle_leaves (s : State) : let t := bothDies throttleOne (throttleStamped s)
    (∀ q < 32, quarterMhz t.pwr q = max 800 (quarterMhz s.pwr q - 100)) ∧ t.pwr.lastThrottle = time s ∧
    ∀ die < 2, dieMv t die = voltFor (dieTop die (quarterMhz t.pwr)) := by
  refine ⟨fun q hq => bothDies_throttleOne_quarterMhz hq, ?_, fun die hdie => ?_⟩
  · rw [bothDies_pwr throttleOne_onlyDie]
    rfl
  · exact bothDies_voltage throttleOne_onlyDie (fun d s => lowerDie_dieMv d _ s) _ hdie

theorem raise_leaves (s : State) : let t := bothDies raiseOne (throttleStamped s)
    t.pwr.lastThrottle = time s ∧ ∀ die < 2, Raised die s t := by
  refine ⟨?_, fun die hdie => bothDies_raiseOne_raised (throttleStamped s) hdie⟩
  rw [bothDies_pwr raiseOne_onlyDie]
  rfl

/-- Below the trip a sample leaves the trip and the fatal cause, and posts the hottest junction. -/
theorem sample_below {e w h k : Int} {s : State} (hm : hottestOf e w h k < 115) : let t := sampleTemps e w h k s
    t.pwr.thermTrip = s.pwr.thermTrip ∧ t.health.fatal = s.health.fatal ∧ (tget {} t.adv 3).value = twos 16 (hottestOf e w h k) ∧
    (tget {} t.adv 3).margin = 100 - hottestOf e w h k ∧ (thas s.adv 3 = false → (tget {} t.adv 3).unread = true) := by
  obtain ⟨hpwr, hhealth, -⟩ := postThermal_keeps (sampledState e w h k s)
  rw [sampleTemps_eq, if_neg (Int.not_le.mpr hm)]
  refine ⟨?_, ?_, postThermal_adv (hottestNow_of rfl rfl rfl rfl)⟩
  · rw [hpwr]
    rfl
  · rw [hhealth]
    rfl

/-- At the trip the device asks for its rails to be removed and is package-fatal. -/
theorem sample_trips {e w h k : Int} {s : State} (haon : s.pins.aonRst = false) (hm : 115 ≤ hottestOf e w h k) : let t := sampleTemps e w h k s
    t.pwr.thermTrip = true ∧ t.pwr.pwrOffReq = true ∧ (s.health.fatal = none → s.pins.sysRst = false → t.health.fatal = some 1) := by
  obtain ⟨-, hhealth, hpins⟩ := postThermal_keeps (sampledState e w h k s)
  rw [sampleTemps_eq, if_pos hm]
  refine ⟨?_, ?_, fun hf hs => goFatal_fatal pfThermal ?_ ?_ ?_⟩
  · rw [goFatal_pwr]
    rfl
  · rw [goFatal_pwr]
    rfl
  · exact (congrArg Health.fatal hhealth).trans hf
  · exact (congrArg Pins.aonRst hpins).trans haon
  · exact (congrArg Pins.sysRst hpins).trans hs

/-- Sensors, throttle and raise, at every temperature. -/
theorem sample_throttles (e w h k : Int) (s : State) : let t := sampleTemps e w h k s
    [t.pwr.tEast, t.pwr.tWest, t.pwr.tHub, t.pwr.tKeeper] = [clampTemp e, clampTemp w, clampTemp h, clampTemp k] ∧
    t.pwr.throttling = throttles s (hottestOf e w h k) ∧ (throttles s (hottestOf e w h k) = true → t.pwr.raising = false) := by
  dsimp only
  rw [sampleTemps_pwr]
  split <;> exact ⟨rfl, rfl, fun h => if_pos h⟩

/-- Settles O48, command by command. -/
theorem clocksFollowPowerAndHeat : Obligations.ClocksFollowPowerAndHeat := by
  unfold Obligations.ClocksFollowPowerAndHeat
  intro s haon _
  refine ⟨⟨_, execProchotAssert_eq haon, prochotAssert_leaves s⟩, ⟨_, rfl, rfl, rfl, fun hpro hthr => ?_⟩,
    fun w => ⟨_, execPowerCapWindow_eq haon w, capWindow_leaves w s⟩, fun die hdie => ⟨_, execRailCurrentLimit_eq haon hdie, railCurrentLimit_leaves die s⟩,
    fun die hdie => ⟨_, execAvsAck_eq haon hdie, avsAck_leaves die _ s⟩,
    fun hdue hhot => ⟨_, execThermalThrottleTick_eq haon hhot hdue, throttle_leaves s⟩, execThermalThrottleTick_cool,
    fun hraise hpro hcool hdue => ⟨_, execThermalRaiseTick_eq haon hraise hpro hcool hdue, ?_⟩,
    fun e w h k => ⟨_, execThermalSensorSample_eq haon e w h k, ?_⟩⟩
  · simp [hpro, hthr]
  · obtain ⟨hlast, hraised⟩ := raise_leaves s
    refine ⟨hlast, fun die hdie => ?_⟩
    obtain ⟨hnow, hwait⟩ := hraised die hdie
    exact ⟨fun h => ⟨(hnow h).1, fun q _ => (hnow h).2 q⟩, fun h => ⟨(hwait h).1, fun q _ => (hwait h).2 q⟩⟩
  · obtain ⟨htemps, hthr, hraise⟩ := sample_throttles e w h k s
    refine ⟨htemps, fun hm => ?_, fun hm => ?_, fun hm hm' => ?_, sample_below, sample_trips haon⟩
    · change 100 ≤ hottestOf e w h k at hm
      have hon : throttles s (hottestOf e w h k) = true := by simp [throttles, hm]
      exact ⟨hthr.trans hon, hraise hon⟩
    · change hottestOf e w h k < 97 at hm
      rw [hthr]
      simp [throttles, Int.not_le.mpr hm, show ¬ (100 : Int) ≤ hottestOf e w h k by omega]
    · change 97 ≤ hottestOf e w h k at hm
      change hottestOf e w h k < 100 at hm'
      rw [hthr]
      simp [throttles, hm, Int.not_le.mpr hm']

end Sys2Proof.Machine
end

section
/-! Signal pairs and WAITs (R13, R95, R96, R106): what an increment, a finished descriptor and a hard fault change in a core, and why nothing
else begins there. -/

namespace Sys2Proof.Machine

/-! ## Cores and pairs -/

theorem getCore_modCore (s : State) (d c k : Nat) (g : Core → Core) :
    getCore (modCore s d c g) d k = if k = c then g (getCore s d k) else getCore s d k := by
  rw [getCore, modCore, getDist_modDist_self]
  exact tget_tmod {} _ c k g

theorem getCore_of_cores {s t : State} {d : Nat} (h : (getDist t d).cores = (getDist s d).cores) (k : Nat) : getCore t d k = getCore s d k := by
  simp only [getCore, h]

theorem modProg_cores (s : State) (d : Nat) (g : Prog → Prog) : (getDist (modProg s d g) d).cores = (getDist s d).cores := by
  rw [modProg, getDist_modDist_self]
  split
  · split <;> rfl
  · rfl

theorem modCore_quarters (s : State) (d c : Nat) (g : Core → Core) : (getDist (modCore s d c g) d).quarters = (getDist s d).quarters := by
  rw [modCore, getDist_modDist_self]

theorem coreSource_modCore (s : State) (d c k : Nat) (g : Core → Core) : coreSource (modCore s d c g) d k = coreSource s d k := by
  simp only [coreSource, coreQuarter, modCore_quarters]

/-! ## An increment -/

theorem addInc_issued (d : Nat) (s : State) (b : Bytes) (k : Nat) : (getCore (addInc d s b) d k).issued = (getCore s d k).issued := by
  rw [addInc, getCore_modCore]
  split <;> rfl

theorem addInc_prefetches (d : Nat) (s : State) (b : Bytes) (k : Nat) : (getCore (addInc d s b) d k).prefetches = (getCore s d k).prefetches := by
  rw [addInc, getCore_modCore]
  split <;> rfl

/-- The increment is added to the counter that the SIGNAL names. -/
theorem addInc_pair (d : Nat) (s : State) (b : Bytes) :
    getPair (addInc d s b) d (fld b 138 128) (fld b 150 144) = bumpPair b (getPair s d (fld b 138 128) (fld b 150 144)) := by
  rw [getPair, addInc, getCore_modCore_self]
  exact tget_tmod_self _ _ _ _

/-! ## A descriptor that has no more to do -/

theorem setWork_issued {s : State} {d core : Nat} {i : Issued} (w : Work) (h : (getCore s d core).issued = [i]) :
    (getCore (setWork s d core i.q.idx w) d core).issued = [{ i with work := w }] := by
  simp [setWork, modIssued, h]

theorem setWork_prefetches (s : State) (d core idx : Nat) (w : Work) :
    (getCore (setWork s d core idx w) d core).prefetches = (getCore s d core).prefetches := by
  simp [setWork, modIssued]

theorem setWork_pair (s : State) (d core idx : Nat) (w : Work) (k pair : Nat) :
    getPair (setWork s d core idx w) d k pair = getPair s d k pair := by
  rw [getPair, setWork, getCore_modCore]
  split <;> rfl

/-! ## A hard fault -/

theorem findIssued_single {s : State} {d core : Nat} {i : Issued} (h : (getCore s d core).issued = [i]) : findIssued (getCore s d core) i.q.idx = some i := by
  simp [findIssued, h]

/-- A core without the descriptor that has faulted. -/
def haltedCore (c : Core) (idx : Nat) : Core := { dropIssued c idx with halted := true }

theorem getCore_emit (s : State) (a b c e : Nat) (l : List Nat) (d k : Nat) : getCore (emit s a b c e l) d k = getCore s d k := by
  rw [getCore, getDist_emit]
  rfl

/-- One more hard fault of a program. -/
def countHard (p : Prog) : Prog := { p with hard := (p.hard + 1) % 2 ^ 32 }

/-- A run stopped by a hard fault; the first fault's code and core stay. -/
def runFaulted (code core : Nat) (x : Dist) : Dist :=
  { x with run := x.run.map fun r => { r with stopped := true, causes := nsAdd r.causes code, first := some (r.first.getD (code, core)) } }

/-- The gate takes FAULT. -/
def gateFaulted (g : Gate) : Gate := { g with fault := true }

theorem hardFault_eq {s : State} {d core idx : Nat} {i : Issued} (h : findIssued (getCore s d core) idx = some i) (code : Nat) :
    hardFault s d core idx code = modGate (modDist (modProg (modCore
      (emit s (coreSource s d core) 0x040 sevError d (faultPayload i.q.raw code core idx)) d core fun c => haltedCore c idx) d countHard) d
      (runFaulted code core)) d gateFaulted := by
  simp only [hardFault, h]
  rfl

theorem hardFault_core {s : State} {d core idx : Nat} {i : Issued} (h : findIssued (getCore s d core) idx = some i) (code : Nat) :
    getCore (hardFault s d core idx code) d core = haltedCore (getCore s d core) idx := by
  rw [hardFault_eq h]
  have hcores (t : State) : (getDist (modGate (modDist (modProg t d countHard) d (runFaulted code core)) d gateFaulted) d).cores = (getDist t d).cores := by
    rw [modGate, getDist_modDist_self, getDist_modDist_self]
    exact modProg_cores t d countHard
  rw [getCore_of_cores (hcores _), getCore_modCore_self, getCore_emit]

theorem hardFault_emitted {s : State} {d core idx : Nat} {i : Issued} (h : findIssued (getCore s d core) idx = some i) (code : Nat) :
    (hardFault s d core idx code).emitted = s.emitted ++ [⟨s.now, coreSource s d core, 0x040, 2, d, faultPayload i.q.raw code core idx⟩] := by
  rw [hardFault_eq h]
  exact emit_emitted s _ _ _ _ _

/-- The core's only descriptor takes a hard fault: it leaves a halted core. -/
theorem hardFault_single {s : State} {d core : Nat} {i : Issued} (h : (getCore s d core).issued = [i]) (code : Nat) :
    (getCore (hardFault s d core i.q.idx code) d core).halted = true ∧ (getCore (hardFault s d core i.q.idx code) d core).issued = [] ∧
    (getCore (hardFault s d core i.q.idx code) d core).prefetches = (getCore s d core).prefetches := by
  rw [hardFault_core (findIssued_single h)]
  refine ⟨rfl, ?_, rfl⟩
  simp [haltedCore, dropIssued, h]

/-! ## Nothing else begins -/

/-- Only finished descriptors are left on a core, and no prefetch. -/
def CoreDone (s : State) (d core : Nat) : Prop := (∀ i ∈ (getCore s d core).issued, i.work = .fin) ∧ (getCore s d core).prefetches = []

theorem foldl_of_fixed {α β : Type} {f : α → β → α} {a : α} (h : ∀ b, f a b = a) : ∀ l : List β, l.foldl f a = a
  | [] => rfl
  | b :: l => by rw [List.foldl_cons, h b, foldl_of_fixed h l]

theorem findIssued_done {s : State} {d core idx : Nat} {i : Issued} (h : CoreDone s d core) (hf : findIssued (getCore s d core) idx = some i) :
    i.work = .fin := h.1 i (List.mem_of_find?_eq_some hf)

theorem tryBegin_done {s : State} {d core : Nat} (h : CoreDone s d core) (idx : Nat) : tryBegin d core s idx = s := by
  unfold tryBegin
  split
  · rfl
  · next i hi =>
    have hdone : workDone i = true := by rw [workDone, findIssued_done h hi]
    rw [if_pos (by simp [hdone])]

theorem skipRun_done {s : State} {d core : Nat} (h : CoreDone s d core) (idx : Nat) : skipRun d core idx false s = s := by
  have hnone : findXfer (getCore s d core) idx false = none := by
    simp only [findXfer, Bool.false_eq_true, if_false]
    split
    · next i hi => rw [findIssued_done h hi]
    · rfl
  simp only [skipRun, hnone]

/-- What is finished waits to complete: the pump leaves it. -/
theorem pump_done {s : State} {d core : Nat} (h : CoreDone s d core) : pump d core s = s := by
  have hbegin : ((getCore s d core).issued.map (·.q.idx)).foldl (tryBegin d core) s = s := foldl_of_fixed (tryBegin_done h) _
  have hskip : ((getCore s d core).issued.map (·.q.idx)).foldl (fun s i => skipRun d core i false s) s = s :=
    foldl_of_fixed (skipRun_done h) _
  simp only [pump, hbegin, h.2, List.map_nil, List.foldl_nil, hskip]

theorem after_done {s : State} {d core : Nat} (h : CoreDone s d core) : after d core s = settle d s := by rw [after, pump_done h]

theorem setWork_coreDone {s : State} {d core : Nat} {i : Issued} (hi : (getCore s d core).issued = [i]) (hp : (getCore s d core).prefetches = []) :
    CoreDone (setWork s d core i.q.idx .fin) d core := by
  refine ⟨fun j hj => ?_, (setWork_prefetches s d core _ _).trans hp⟩
  rw [setWork_issued .fin hi] at hj
  rw [List.mem_singleton.mp hj]

theorem hardFault_coreDone {s : State} {d core : Nat} {i : Issued} (hi : (getCore s d core).issued = [i]) (hp : (getCore s d core).prefetches = [])
    (code : Nat) : CoreDone (hardFault s d core i.q.idx code) d core := by
  obtain ⟨-, hissued, hprefetches⟩ := hardFault_single hi code
  refine ⟨fun j hj => ?_, hprefetches.trans hp⟩
  rw [hissued] at hj
  cases hj

/-! ## SIGNAL -/

theorem pendingSignal_of_working {s : State} {d core k : Nat} {i : Issued} (h : Working s d core i) (hk : i.work = .sig k) :
    pendingSignal s d core = some i := by
  obtain ⟨hworks, hissued, -⟩ := h
  simp [pendingSignal, hworks, hissued, hk]

/-- The SIGNAL's end once its increment has landed. -/
def signalEnds (d core : Nat) (i : Issued) (s : State) : State :=
  if pairOk (getPair s d (fld i.q.raw 138 128) (fld i.q.raw 150 144)) then setWork s d core i.q.idx .fin else hardFault s d core i.q.idx 4

/-- One core's SIGNAL lands, or waits for those before it. -/
theorem pairIncrement_single {s : State} {d core : Nat} {i : Issued} (h : pendingSignal s d core = some i) : pairIncrement d [core] s =
    if sigInOrder s d core i [sigOrder i] then after d core (signalEnds d core i (addInc d s i.q.raw)) else s := by
  have hone : [core].eraseDups = [core] := rfl
  simp only [pairIncrement, hone, List.filterMap_cons, h, Option.map_some, List.filterMap_nil, List.map_cons, List.map_nil, List.filter_cons,
    List.filter_nil]
  by_cases hord : sigInOrder s d core i [sigOrder i] = true
  · simp only [hord, if_true, List.map_cons, List.map_nil, List.foldl_cons, List.foldl_nil, signalEnds]
  · simp only [hord, Bool.false_eq_true, if_false, List.map_nil, List.foldl_nil]

section
variable {s : State} {d core k : Nat} {i : Issued} (hw : Working s d core i) (hk : i.work = .sig k)
include hw hk

omit hw in
theorem signal_order : sigOrder i = k := by rw [sigOrder, hk]

theorem signal_waits (hord : sigInOrder s d core i [k] = false) : pairIncrement d [core] s = s := by
  rw [pairIncrement_single (pendingSignal_of_working hw hk), signal_order hk, if_neg (by simp [hord])]

theorem signal_lands (hord : sigInOrder s d core i [k] = true)
    (hok : pairOk (bumpPair i.q.raw (getPair s d (fld i.q.raw 138 128) (fld i.q.raw 150 144))) = true) :
    pairIncrement d [core] s = settle d (setWork (addInc d s i.q.raw) d core i.q.idx .fin) := by
  rw [← addInc_pair] at hok
  rw [pairIncrement_single (pendingSignal_of_working hw hk), signal_order hk, if_pos hord, signalEnds, if_pos hok, after_done]
  exact setWork_coreDone ((addInc_issued d s _ core).trans hw.issued) ((addInc_prefetches d s _ core).trans hw.prefetches)

theorem signal_overruns (hord : sigInOrder s d core i [k] = true)
    (hok : pairOk (bumpPair i.q.raw (getPair s d (fld i.q.raw 138 128) (fld i.q.raw 150 144))) = false) :
    pairIncrement d [core] s = settle d (hardFault (addInc d s i.q.raw) d core i.q.idx 4) := by
  rw [← addInc_pair] at hok
  rw [pairIncrement_single (pendingSignal_of_working hw hk), signal_order hk, if_pos hord, signalEnds, if_neg (by simp [hok]), after_done]
  exact hardFault_coreDone ((addInc_issued d s _ core).trans hw.issued) ((addInc_prefetches d s _ core).trans hw.prefetches) 4

end

/-! ## WAIT -/

theorem pendingWait_of_working {s : State} {d core : Nat} {i : Issued} {k : Option Nat} (h : Working s d core i) (hk : i.work = .wait k) :
    pendingWait s d core = if coresStart s d then some (i.q, k) else none := by
  simp [pendingWait, h.issued, hk]

theorem waitMet_holds {s : State} {d core : Nat} {i : Issued} {k : Option Nat} (h : Working s d core i) (hk : i.work = .wait k)
    (hstart : coresStart s d = true) (hholds : waitHolds s d i.q.raw = true) : waitMet d core s = settle d (setWork s d core i.q.idx .fin) := by
  simp only [waitMet, pendingWait_of_working h hk, hstart, if_true, hholds]
  exact after_done (setWork_coreDone h.issued h.prefetches)

theorem waitMet_waits {s : State} {d core : Nat} {i : Issued} {k : Option Nat} (h : Working s d core i) (hk : i.work = .wait k)
    (hholds : waitHolds s d i.q.raw = false) : waitMet d core s = s := by
  by_cases hstart : coresStart s d = true <;>
    simp only [waitMet, pendingWait_of_working h hk, hstart, hholds, if_true, Bool.false_eq_true, if_false]

theorem waitExpiry_late {s : State} {d core k : Nat} {i : Issued} (h : Working s d core i) (hk : i.work = .wait (some k))
    (hstart : coresStart s d = true) (hlate : k ≤ time s) (hholds : waitHolds s d i.q.raw = false) :
    waitExpiry d core s = settle d (hardFault s d core i.q.idx 3) := by
  simp only [waitExpiry, pendingWait_of_working h hk, hstart, if_true, hholds, Nat.not_lt.mpr hlate, decide_false, Bool.false_eq_true, if_false]
  exact after_done (hardFault_coreDone h.issued h.prefetches 3)

theorem waitExpiry_not_due {s : State} {d core k : Nat} {i : Issued} (h : Working s d core i) (hk : i.work = .wait (some k))
    (hnot : time s < k ∨ coresStart s d = false) : waitExpiry d core s = s := by
  by_cases hstart : coresStart s d = true
  · have hearly : time s < k := hnot.resolve_right (by simp [hstart])
    simp only [waitExpiry, pendingWait_of_working h hk, hstart, if_true, hearly, decide_true]
  · simp only [waitExpiry, pendingWait_of_working h hk, hstart, Bool.false_eq_true, if_false]

/-! ## What each leaves -/

/-- A finished descriptor stays issued, with no more to do. -/
theorem setWork_fin {s : State} {d core : Nat} {i : Issued} (h : (getCore s d core).issued = [i]) :
    (getCore (setWork s d core i.q.idx .fin) d core).issued.map (fun j => (j.q, j.work)) = [(i.q, .fin)] := by
  rw [setWork_issued .fin h]
  rfl

theorem landed_pair (s : State) (d core idx : Nat) (w : Work) (b : Bytes) :
    getPair (setWork (addInc d s b) d core idx w) d (fld b 138 128) (fld b 150 144) = bumpPair b (getPair s d (fld b 138 128) (fld b 150 144)) :=
  (setWork_pair _ _ _ _ _ _ _).trans (addInc_pair d s b)

theorem overrun_emitted {s : State} {d core : Nat} {i : Issued} (h : (getCore s d core).issued = [i]) :
    (hardFault (addInc d s i.q.raw) d core i.q.idx 4).emitted =
      s.emitted ++ [⟨s.now, coreSource s d core, 0x040, 2, d, faultPayload i.q.raw 4 core i.q.idx⟩] := by
  rw [hardFault_emitted (findIssued_single ((addInc_issued d s _ core).trans h)), addInc, coreSource_modCore]
  rfl

/-- Settles O23, clause by clause: a SIGNAL that waits, lands or overruns its pair; a WAIT that is met, not met, timed out or not yet due. -/
theorem signalsAndWaits : Obligations.SignalsAndWaits := by
  unfold Obligations.SignalsAndWaits
  intro s d core i hw
  refine ⟨fun k hk hord => ?_, fun k hk hord hok => ?_, fun k hk hord hok => ?_, fun k hk hstart hholds => ?_, fun k hk hholds => ?_,
    fun k hk hstart hlate hholds => ?_, fun k hk hnot => ?_⟩
  · exact congrArg Host.Outcome.next (signal_waits hw hk hord)
  · exact ⟨_, rfl, _, signal_lands hw hk hord hok, landed_pair s d core _ _ _, setWork_fin ((addInc_issued d s _ core).trans hw.issued), rfl, rfl⟩
  · obtain ⟨hhalted, hgone, -⟩ := hardFault_single ((addInc_issued d s i.q.raw core).trans hw.issued) 4
    exact ⟨_, rfl, _, signal_overruns hw hk hord hok, hhalted, hgone, overrun_emitted hw.issued⟩
  · exact ⟨_, rfl, _, waitMet_holds hw hk hstart hholds, setWork_fin hw.issued, rfl, rfl⟩
  · exact congrArg Host.Outcome.next (waitMet_waits hw hk hholds)
  · obtain ⟨hhalted, hgone, -⟩ := hardFault_single hw.issued 3
    exact ⟨_, rfl, _, waitExpiry_late hw hk hstart hlate hholds, hhalted, hgone, hardFault_emitted (findIssued_single hw.issued) 3⟩
  · exact congrArg Host.Outcome.next (waitExpiry_not_due hw hk hnot)

end Sys2Proof.Machine
end

section
/-! The boot (R38, R419, R424, R427, R435, R457): what the ROM leaves as SYS_RST_N rises, what memory training and the index's
completion change, and which slot runs. -/

namespace Sys2Proof.Machine

/-! ## SYS_RST_N rises -/

/-- A device that was CLOSED and not OFF boots with nothing to record. -/
theorem bootStart_emitted {r : TrainingResult} {s : State} (hr : r.stacksOk = true) (hx : s.sec.session = none) (hp : s.pwr.state ≠ 3) :
    (bootStart r s).emitted = s.emitted := by
  simp [bootStart, hr, hx, hp]

/-- With the near stacks trained, the ROM leaves what the store holds; the end of a debug level adds to its history alone. -/
theorem bootStart_reads {r : TrainingResult} (hr : r.stacksOk = true) (s : State) :
    (bootStart r s).pins = { s.pins with sysRst := false, pwrGood := true } ∧ (bootStart r s).training = some r ∧
    (bootStart r s).board = boardOf (storeRead s.nvm stBoard 0) ∧
    (bootStart r s).pwr = bootPwr s.nvm (boardOf (storeRead s.nvm stBoard 0)) (time s) s.pwr ∧
    ∃ h c k, (bootStart r s).sec =
      { bootSec s.nvm (bootSettings s.nvm s.pwr).bootHost (s.sec.boots + 1) with history := h, histControl := c, histScan := k } := by
  simp only [bootStart, hr, if_true]
  cases s.sec.session with
  | none => split <;> exact ⟨rfl, rfl, rfl, rfl, _, _, _, rfl⟩
  | some x => split <;> exact ⟨rfl, rfl, rfl, rfl, _, _, _, rfl⟩

theorem bootSec_keys_iff (n : Nvm) (host : Bool) (boots : BitVec 32) :
    (bootSec n host boots).keys = true ↔ bootHalts n = false ∧ (bootLifecycle n = 1 ∨ bootLifecycle n = 2) := by
  simp [bootSec, keysIn, and_comm]

theorem sysRstNDeassert_boots {r : TrainingResult} {s : State} (hpin : s.pins.sysPin = true) (haon : s.pins.aonRst = false) :
    exec (.sysRstNDeassert r) s = .next (bootStart r { s with pins := { s.pins with sysPin := false } }) := by
  show execSysRstNDeassert r s = _
  simp [execSysRstNDeassert, when, hpin, haon]

/-! ## Memory training and the index -/

/-- Events that wait for the ring leave the districts and the security processor. -/
theorem foldl_emitLater_keeps (source : Nat → Nat) (payload : Nat → List Nat) (kind sev district : Nat) (l : List Nat) (s : State) :
    (l.foldl (fun s i => emitLater s (source i) kind sev district (payload i)) s).dists = s.dists ∧
    (l.foldl (fun s i => emitLater s (source i) kind sev district (payload i)) s).sec = s.sec := by
  induction l generalizing s with
  | nil => exact ⟨rfl, rfl⟩
  | cons i l ih => exact ih (emitLater s (source i) kind sev district (payload i))

/-- Training changes the board memory and the event log (R218). -/
theorem trainMemory_keeps (r : TrainingResult) (s : State) : (trainMemory r s).dists = s.dists ∧ (trainMemory r s).sec = s.sec := by
  unfold trainMemory
  dsimp only
  split
  · exact foldl_emitLater_keeps _ _ _ _ _ _ _
  · rw [emit_dists, emit_sec]
    exact foldl_emitLater_keeps _ _ _ _ _ _ _

/-- With training's result at hand the index is completed from what training left (R38, R237). -/
theorem indexBuildDone_completes {r : TrainingResult} {s : State} (ht : s.training = some r) (hrst : s.pins.sysRst = false)
    (hidx : s.indexOk = false) (hboot : s.sec.boot ≠ 4) (hfat : s.health.fatal = none) : ∃ e,
    exec .indexBuildDone s =
      .next { trainMemory r s with emitted := e, indexOk := true, index := buildIndex (trainMemory r s), training := none } := by
  show ∃ e, execIndexBuildDone s = _
  simp only [execIndexBuildDone, when, ht, hrst, hidx, hfat, bne_iff_ne.mpr hboot, Bool.not_false, Option.isSome_some,
    Option.isNone_none, Bool.and_self, if_true, Option.getD_some]
  split <;> exact ⟨_, rfl⟩

/-! ## Verification -/

theorem bootVerifyDone_verifies {s : State} (hrst : s.pins.sysRst = false) (hboot : s.sec.boot = 1) (hidx : s.indexOk = true)
    (hfat : s.health.fatal = none) : exec .bootVerifyDone s = .next (verifyBoot s) := by
  show execBootVerifyDone s = _
  simp [execBootVerifyDone, when, hrst, hboot, hidx, hfat]

/-- What the verification of two slots leaves, by the check that each fails (R80, R427). -/
def verifyOutcome (a b : Nat) (s : State) : Option Nat → Option Nat → State
  | none, _ => bootSlot a s
  | some k, none => bootSlot b (emit s secSource 0x281 sevNotice 0xFF [a, k])
  | some _, some _ => { s with sec := { s.sec with boot := 2 } }

/-- The two slots are tried in their order. (The checks of a bundle are generalised before the definition is opened, so that no
check of the proof evaluates one.) -/
theorem verifyBoot_eq {s : State} {a b : Nat} (ho : slotOrder s.nvm = [a, b]) :
    verifyBoot s = verifyOutcome a b s (bundleFail s.sec (slotMem s.nvm a)) (bundleFail s.sec (slotMem s.nvm b)) := by
  have h : ∀ f, f = verifyBoot → f s = verifyOutcome a b s (bundleFail s.sec (slotMem s.nvm a)) (bundleFail s.sec (slotMem s.nvm b)) := by
    delta verifyBoot
    intro f hf
    rw [congrFun hf s, ho]
    generalize bundleFail s.sec = fails, slotMem s.nvm = mem
    dsimp only
    cases fails (mem a) with
    | none => rfl
    | some k => cases fails (mem b) <;> rfl
  exact h _ rfl

/-- A slot that starts is RUNNING, and BOOT_VERIFIED is the one record it adds. -/
theorem bootSlot_eq (i : Nat) (s : State) : bootSlot i s =
    { s with
      sec := { s.sec with boot := 3, running := some (runningOf i (slotMem s.nvm i)) }
      emitted := s.emitted ++ [⟨s.now, 0x886, 0x280, 0, 0xFF,
        [i, (runningOf i (slotMem s.nvm i)).svn, (runningOf i (slotMem s.nvm i)).release]⟩] } := rfl

/-- The ROM serves as soon as the index is complete, in a clocked device that is not OFF. -/
theorem romServes_recovery {s : State} (hrst : s.pins.sysRst = false) (hidx : s.indexOk = true) :
    romServes { s with sec := { s.sec with boot := 2 } } = (s.pwr.state != 3 && !s.pwr.clocksStopped) := by
  simp [romServes, hrst, hidx, Bool.and_comm]

/-- Settles O51, clause by clause: the ROM's read of the store, the index, and the slot that runs. -/
theorem bootFollowsTheChain : Obligations.BootFollowsTheChain := by
  unfold Obligations.BootFollowsTheChain
  intro s
  refine ⟨fun r hpin haon hr => ?_, fun r ht hrst hidx hboot hfat => ?_, fun hidx => ?_, fun a b ho hrst hboot hidx hfat => ⟨?_, ?_, ?_⟩⟩
  · refine ⟨_, sysRstNDeassert_boots hpin haon, ?_⟩
    obtain ⟨hpins, htraining, hboard, hpwr, h, c, k, hsec⟩ := bootStart_reads hr { s with pins := { s.pins with sysPin := false } }
    refine ⟨congrArg Pins.sysRst hpins, congrArg Pins.sysPin hpins, htraining, congrArg Sec.boots hsec, congrArg Pwr.state hpwr, ?_,
      congrArg Sec.lifecycle hsec, congrArg Sec.counters hsec, congrArg Sec.boot hsec, ?_, fun hn => ?_,
      fun hx hp => bootStart_emitted hr hx hp⟩
    · rw [dbgLevel, hsec]
      rfl
    · rw [hsec]
      exact bootSec_keys_iff s.nvm (bootSettings s.nvm s.pwr).bootHost (s.sec.boots + 1)
    · rw [hboard, hpwr]
      simp [hn, boardOf, bootPwr]
  · obtain ⟨e, he⟩ := indexBuildDone_completes ht hrst hidx hboot hfat
    obtain ⟨hdists, hsec⟩ := trainMemory_keeps r s
    exact ⟨_, he, rfl, rfl, rfl, hdists, hsec⟩
  · show execIndexBuildDone s = _
    simp [execIndexBuildDone, when, hidx]
  · intro ha
    exact ⟨_, bootVerifyDone_verifies hrst hboot hidx hfat, by rw [verifyBoot_eq ho, ha, verifyOutcome, bootSlot_eq]; exact ⟨rfl, rfl⟩⟩
  · intro k ha hb
    refine ⟨_, bootVerifyDone_verifies hrst hboot hidx hfat, ?_⟩
    rw [verifyBoot_eq ho, ha, hb, verifyOutcome, bootSlot_eq]
    exact ⟨rfl, List.append_assoc _ _ _⟩
  · intro k l ha hb
    refine ⟨_, bootVerifyDone_verifies hrst hboot hidx hfat, ?_⟩
    rw [verifyBoot_eq ho, ha, hb, verifyOutcome]
    exact ⟨rfl, romServes_recovery hrst hidx⟩

end Sys2Proof.Machine
end

section
/-! The checks that stand before a firmware command's own (R49, R67, R68, R80, R433): their order, and what a refusal leaves. -/

namespace Sys2Proof.Machine

theorem firstErr_cons (b : Bool) (e : Err) (l : List (Bool × Err)) : firstErr ((b, e) :: l) = if b = true then some e else firstErr l := by
  cases b <;> rfl

/-- The order of the shared checks (R49, R67, R80, R433): format, command code, PF0, SCAN, presence, the DISTRICT field, the EMPTY
district, and then the command's own. -/
theorem firstErr_headChecks (k : Spec) (fmt present : Bool) (c : FwReq) (s : State) (own : List (Bool × Err)) :
    firstErr (headChecks k fmt present c s ++ own) =
      if fmt = false ∨ 480 < c.payload.length then some badFormat
      else if romServes s = true ∧ k.romOk = false then some unknownCommand
      else if k.pf0 = true ∧ c.fn ≠ 0 then some denied
      else if dbgLevel s = 3 ∧ k.scanOk = false then some denied
      else if present = false then some notPresent
      else if c.fn ≠ 0 ∧ c.district.toNat ≠ c.fn then some denied
      else if c.fn = 0 ∧ 32 ≤ c.district.toNat ∧ c.district.toNat ≤ 254 then some badArgument
      else if c.fn = 0 ∧ k.wide = false ∧ c.district.toNat = 255 then some badArgument
      else if k.wide = false ∧ k.emptyOk = false ∧ (getDist s (cmdDist c)).state = 0 then some (conflict 1 0)
      else firstErr own := by
  simp only [headChecks, districtChecks, List.cons_append, List.nil_append, firstErr_cons, Bool.and_eq_true, Bool.or_eq_true, Bool.not_eq_true',
    decide_eq_true_eq, beq_iff_eq, bne_iff_ne, and_assoc]

section
variable {k : Spec} {c : FwReq} {s : State} {checks : State → List (Bool × Err)} {eff : State → State}

/-- Without running firmware no command is executed. -/
theorem fwStep_unserved (hf : c.fn < 32) (hs : served s = false) : fwStep k c checks eff s = .next s := by
  simp [fwStep, fwRun, hf, hs]

/-- A command that every check lets through acts, after the serving loop that waited for it is woken (R375). -/
theorem fwStep_passes (hf : c.fn < 32) (hs : served s = true) (hc : firstErr (checks s) = none) :
    fwStep k c checks eff s = .next (eff (if k.wide = true then s else wakeLoop s (cmdDist c))) := by
  simp [fwStep, fwRun, hf, hs, hc]

/-- A refusal is a reply, and nothing else changes. -/
theorem fwStep_refuses_only {e : Err} (hf : c.fn < 32) (hs : served s = true) (hc : firstErr (checks s) = some e) :
    fwStep k c checks eff s = .next (refuse s c k.cmd e) ∧ repliesAdd s (refuse s c k.cmd e) c.fn [errReply c k.cmd e] ∧
      onlyFns s (refuse s c k.cmd e) :=
  ⟨fwStep_refuses hf hs hc, refuse_adds s c k.cmd e, by rw [refuse_eq]; exact modFn_onlyFns _ _ _⟩

end

/-- Settles O56: each clause is one place in the order of the checks. -/
theorem refusedCommandsChangeNothing : Obligations.RefusedCommandsChangeNothing := by
  unfold Obligations.RefusedCommandsChangeNothing
  intro k c rest fmt present eff s hf run refused
  have hrefuse (hs : served s = true) (e : Err) (hc : firstErr (headChecks k fmt present c s ++ rest s) = some e) : refused e :=
    fwStep_refuses_only hf hs hc
  rw [firstErr_headChecks] at hrefuse
  refine ⟨fwStep_unserved hf, fun hs hc => fwStep_passes hf hs hc, fun hs hform => hrefuse hs _ (if_pos hform), fun hs hfmt hlen hrom hrk => ?_,
    fun hs hfmt hlen hrom => ?_⟩
  · exact hrefuse hs _ (by rw [if_neg (by simp [hfmt, hlen]), if_pos ⟨hrom, hrk⟩])
  · rw [if_neg (by simp [hfmt, hlen]), if_neg (by rcases hrom with h | h <;> simp [h])] at hrefuse
    refine ⟨fun hpf0 hfn => hrefuse hs _ (if_pos ⟨hpf0, hfn⟩), fun hpf0 hlevel hscan => ?_, fun hpf0 hscan => ?_⟩
    · exact hrefuse hs _ (by rw [if_neg (by rcases hpf0 with h | h <;> simp [h]), if_pos ⟨hlevel, hscan⟩])
    · rw [if_neg (by rcases hpf0 with h | h <;> simp [h]), if_neg (by rcases hscan with h | h <;> simp [h])] at hrefuse
      refine ⟨fun habsent => hrefuse hs _ (if_pos habsent), fun hpresent => ?_⟩
      rw [if_neg (by simp [hpresent])] at hrefuse
      refine ⟨fun hfn hd => hrefuse hs _ (if_pos ⟨hfn, hd⟩), fun hfn hlow hhigh => ?_, fun hfn hwide hall => ?_,
        fun hown hnamed hwide hempty hstate => ?_⟩
      · exact hrefuse hs _ (by rw [if_neg (by simp [hfn]), if_pos ⟨hfn, hlow, hhigh⟩])
      · exact hrefuse hs _ (by rw [if_neg (by simp [hfn]), if_neg (by simp [hall]), if_pos ⟨hfn, hwide, hall⟩])
      · refine hrefuse hs _ ?_
        rw [if_neg (fun h => h.2 (hown h.1)), if_neg (fun h => absurd (hnamed h.1) (by omega)), if_neg (fun h => absurd (hnamed h.1) (by omega)),
          if_pos ⟨hwide, hempty, hstate⟩]

end Sys2Proof.Machine
end

section
/-! The DEV_ commands (R39, R70): a request that passes the shared checks and its own acts, and what the ring writer leaves when
DEV_RING_OFF has it write the records held. -/

namespace Sys2Proof.Machine

/-! ## A device-wide command that passes its checks -/

/-- A device-wide command of the right form acts on the state as it stands: it wakes no serving loop. -/
theorem fwStep_wide_acts {k : Spec} {c : FwReq} {s : State} {fmt : Bool} {own : State → List (Bool × Err)} {eff : State → State}
    (h : Sendable k c s) (hwide : k.wide = true) (hfmt : fmt = true) (hown : firstErr (own s) = none) :
    fwStep k c (fun s => headChecks k fmt true c s ++ own s) eff s = .next (eff s) := by
  subst hfmt
  rw [fwStep_acts h (by rw [firstErr_append, headChecks_pass h, Option.none_or, hown]), if_pos hwide]

theorem slice_all {b : Bytes} {n : Nat} (h : b.length = n) : slice b 0 n = b := by
  simp [slice, zeros, ← h]

/-! ## What the ring writer leaves -/

/-- The districts and each function's waiting replies. -/
def mail (s : State) : AMap Dist × (Nat → List Reply) := (s.dists, fun f => (getFn s f).replies)

theorem mail_eq_iff (s t : State) : mail t = mail s ↔ t.dists = s.dists ∧ ∀ f, (getFn t f).replies = (getFn s f).replies := by
  simp only [mail, Prod.mk.injEq, funext_iff]

@[simp] theorem mail_ite {p : Prop} [Decidable p] (a b : State) : mail (if p then a else b) = if p then mail a else mail b := by
  split <;> rfl

/-- A change of a function that leaves its replies. -/
@[simp] theorem modFn_mail (s : State) (f : Nat) {g : Fn → Fn} (h : ∀ x, (g x).replies = x.replies) : mail (modFn s f g) = mail s := by
  refine (mail_eq_iff _ _).mpr ⟨rfl, fun i => ?_⟩
  by_cases e : i = f
  · rw [e, getFn_modFn_self, h]
  · rw [getFn_modFn_ne _ _ e]

@[simp] theorem setFlag_mail (s : State) (f i : Nat) : mail (setFlag s f i) = mail s := by simp [mail]
@[simp] theorem raiseVec_mail (s : State) (f vec : Nat) : mail (raiseVec s f vec) = mail s := by simp [mail]
@[simp] theorem send_mail (s : State) (o : Out) : mail (send s o) = mail s := by rfl
@[simp] theorem freshNat_mail (s : State) : mail (freshNat s).2 = mail s := by rfl
@[simp] theorem loseRecord_mail (s : State) (f : Nat) : mail (loseRecord s f) = mail s := by simp [loseRecord]
@[simp] theorem ringCause_mail (s : State) (f : Nat) : mail (ringCause s f) = mail s := by simp [ringCause]
@[simp] theorem readCons_mail (s : State) (f : Nat) (v : BitVec 64) : mail (readCons s f v) = mail s := by simp [readCons]
@[simp] theorem watermarkCheck_mail (s : State) (f before : Nat) : mail (watermarkCheck s f before) = mail s := by simp [watermarkCheck]

@[simp] theorem freshRead_mail (s : State) (f : Nat) (fresh : AMap (BitVec 64)) : mail (freshRead s f fresh) = mail s := by
  unfold freshRead
  split <;> simp

@[simp] theorem ringPut_mail (s : State) (f : Nat) (e : EventRec) (late : Bool) (fresh : AMap (BitVec 64)) :
    mail (ringPut s f e late fresh) = mail s := by
  simp [ringPut]

theorem flushHeld_mail (f : Nat) (l : List HeldRec) (s : State) : mail (flushHeld f l s) = mail s := by
  induction l generalizing s with
  | nil => rfl
  | cons h l ih =>
    rw [flushHeld, ih]
    split
    · exact ringPut_mail _ _ _ _ _
    · rfl

theorem ringDisable_mail (s : State) (f : Nat) : mail (ringDisable s f) = mail s :=
  modFn_mail { s with held := dropDest f s.held } f fun _ => rfl

/-- No record is held any more for a ring that is disabled. -/
theorem not_mem_of_mem_dropDest {f : Nat} {l : List HeldRec} {h : HeldRec} (hh : h ∈ dropDest f l) : f ∉ h.dests := by
  simp only [dropDest, List.mem_filter, List.mem_map] at hh
  obtain ⟨⟨g, -, rfl⟩, -⟩ := hh
  simp

theorem ringDisable_disabled (s : State) (f : Nat) : (getFn (ringDisable s f) f).ring.enabled = false := by
  rw [ringDisable, getFn_modFn_self]

/-! ## The commands -/

theorem devNop_acts {c : FwReq} {s : State} (h : Sendable specDevNop c s) (hp : c.payload = []) :
    exec (.devNop c) s = .next (replyOk s c 0x0100 (leBytes 8 s.now.toNat)) := by
  have hpass : firstErr (headChecks specDevNop (c.payload == []) true c s) = none := by
    rw [hp]
    exact headChecks_pass h
  exact fwStep_acts h hpass

theorem devIndex_acts {c : FwReq} {s : State} (h : Sendable specDevIndex c s) (hlen : c.payload.length = 8) (hres : fld c.payload 63 48 = 0)
    (hoff : fld c.payload 31 0 % 8 = 0) (hn : fld c.payload 47 32 % 8 = 0) (hpos : 0 < fld c.payload 47 32) (hmax : fld c.payload 47 32 ≤ 448)
    (hend : fld c.payload 31 0 + fld c.payload 47 32 ≤ s.index.length) :
    exec (.devIndex c) s =
      .next (replyOk s c 0x0101 (c.payload ++ slice s.index (fld c.payload 31 0) (fld c.payload 47 32))) := by
  refine (fwStep_wide_acts h rfl (by simp [hlen, zeroAt, hres]) ?_).trans (by rw [slice_all hlen, indexBytes])
  simp [firstErr_cons, firstErr, hoff, hn, indexLen, Nat.pos_iff_ne_zero.mp hpos, Nat.not_lt.mpr hmax, Nat.not_lt.mpr hend]

/-- The state with a function's ring set (R70). -/
def ringSet (c : FwReq) (s : State) : State := modFn s c.fn fun x => { x with ring := ringOf c.payload x.ring }

/-- The state with a ring set, and on PF0 the records that wait for one released (R75, R218). -/
def ringOpened (c : FwReq) (s : State) : State := if c.fn = 0 then releaseDeferred (ringSet c s) else ringSet c s

theorem devRingSet_acts {c : FwReq} {s : State} (h : Sendable specDevRingSet c s) (hlen : c.payload.length = 32)
    (hres : zeroAt c.payload [(255, 193)] = true) (hmirror : c.fn ≠ 0 → bit c.payload 192 = false) (hargs : ringArgsOk c.payload = true)
    (hoff : (getFn s c.fn).ring.enabled = false) : exec (.devRingSet c) s = .next (replyOk (ringOpened c s) c 0x0102 []) := by
  have hm : (c.fn != 0 && bit c.payload 192) = false := by
    by_cases hfn : c.fn = 0
    · simp [hfn]
    · simp [hmirror hfn]
  exact fwStep_wide_acts h rfl (by simp [hlen, hres]) (by simp [firstErr_cons, firstErr, hm, hargs, hoff])

theorem devRingOff_acts {c : FwReq} {s : State} (h : Sendable specDevRingOff c s) (hp : c.payload = [])
    (hon : (getFn s c.fn).ring.enabled = true) :
    exec (.devRingOff c) s =
      .next (let u := ringDisable (flushHeld c.fn s.held s) c.fn
        replyOk u c 0x0103 (leBytes 8 (getFn u c.fn).ring.produce.toNat ++ leBytes 8 (getFn u c.fn).ring.lost.toNat)) :=
  fwStep_wide_acts h rfl (by simp [hp]) (by simp [firstErr, hon])

theorem devWindow_acts {c : FwReq} {s : State} (h : Sendable specDevWindow c s) (hlen : c.payload.length = 8)
    (halign : fld c.payload 63 0 % 2 ^ (getFn s c.fn).bar2Log = 0) (hend : fld c.payload 63 0 + 2 ^ (getFn s c.fn).bar2Log ≤ 2 ^ 48) :
    exec (.devWindow c) s = .next (modFn s c.fn fun x =>
      { x with replies := x.replies ++ [{ req := c, cmd := 0x0104, window := some (BitVec.ofNat 64 (fld c.payload 63 0)) }] }) := by
  refine (fwStep_wide_acts h rfl (by simp [hlen]) ?_).trans (congrArg Host.Outcome.next (queueReply_self s _))
  simpa [firstErr_cons, firstErr, halign] using hend

/-! ## What else of the machine changes -/

theorem ringSet_ring (c : FwReq) (s : State) : (getFn (ringSet c s) c.fn).ring = ringOf c.payload (getFn s c.fn).ring := by
  rw [ringSet, getFn_modFn_self]

theorem ringSet_mail (c : FwReq) (s : State) : mail (ringSet c s) = mail s := modFn_mail s c.fn fun _ => rfl

theorem ringOpened_ring (c : FwReq) (s : State) : (getFn (ringOpened c s) c.fn).ring = ringOf c.payload (getFn s c.fn).ring := by
  unfold ringOpened
  split <;> exact ringSet_ring c s

theorem ringOpened_mail (c : FwReq) (s : State) : mail (ringOpened c s) = mail s := by
  unfold ringOpened
  split <;> exact ringSet_mail c s

theorem ringOpened_emitted (c : FwReq) (s : State) :
    (ringOpened c s).emitted = if c.fn = 0 then s.emitted ++ s.deferred else s.emitted := by
  unfold ringOpened
  split <;> rfl

theorem ringOpened_deferred (c : FwReq) (s : State) : (ringOpened c s).deferred = if c.fn = 0 then [] else s.deferred := by
  unfold ringOpened
  split <;> rfl

theorem replyOk_onlyFns (s : State) (c : FwReq) (cmd : Nat) (p : Bytes) : onlyFns s (replyOk s c cmd p) := by
  rw [replyOk_eq]
  exact modFn_onlyFns _ _ _

@[simp] theorem replyOk_fn_ring (s : State) (c : FwReq) (cmd : Nat) (p : Bytes) : (getFn (replyOk s c cmd p) c.fn).ring = (getFn s c.fn).ring := by
  rw [replyOk_eq, getFn_modFn_self]

/-- An OK reply after changes that left the function's replies is the one reply added. -/
theorem replyOk_adds_of_mail {s u : State} (h : mail u = mail s) (c : FwReq) (cmd : Nat) (p : Bytes) :
    repliesAdd s (replyOk u c cmd p) c.fn [okReply c cmd p] := by
  rw [repliesAdd, replyOk_adds, ((mail_eq_iff _ _).mp h).2]

/-- Settles O9, command by command. -/
theorem deviceCommandsComplete : Obligations.DeviceCommandsComplete := by
  unfold Obligations.DeviceCommandsComplete
  intro c s
  refine ⟨fun h hp => ?_, fun h hlen hres hoff hn hpos hmax hend => ?_, fun h hlen hres hmirror hargs hoff => ?_, fun h hp hon => ?_,
    fun h hlen halign hend => ?_⟩
  · exact ⟨_, devNop_acts h hp, replyOk_onlyFns _ _ _ _, replyOk_adds _ _ _ _⟩
  · exact ⟨_, devIndex_acts h hlen hres hoff hn hpos hmax hend, replyOk_onlyFns _ _ _ _, replyOk_adds _ _ _ _⟩
  · refine ⟨_, devRingSet_acts h hlen hres hmirror hargs hoff, ?_, replyOk_adds_of_mail (ringOpened_mail c s) _ _ _, ?_, ?_, ?_⟩
    · rw [replyOk_fn_ring, ringOpened_ring]
    · rw [replyOk_dists]
      exact ((mail_eq_iff _ _).mp (ringOpened_mail c s)).1
    · rw [replyOk_emitted, ringOpened_emitted]
    · rw [replyOk_deferred, ringOpened_deferred]
  · refine ⟨_, devRingOff_acts h hp hon, ?_, fun g hg => ?_, ?_, ?_⟩
    · rw [replyOk_fn_ring, ringDisable_disabled]
    · rw [replyOk_held] at hg
      exact not_mem_of_mem_dropDest hg
    · rw [replyOk_dists]
      exact ((mail_eq_iff _ _).mp ((ringDisable_mail _ _).trans (flushHeld_mail _ _ s))).1
    · rw [replyOk_fn_ring]
      exact replyOk_adds_of_mail ((ringDisable_mail _ _).trans (flushHeld_mail _ _ s)) _ _ _
  · refine ⟨_, devWindow_acts h hlen halign hend, modFn_onlyFns _ _ _, ?_, ?_⟩
    · rw [getFn_modFn_self]
    · rw [repliesAdd, getFn_modFn_self]

end Sys2Proof.Machine
end

section
/-! How the drain path writes non-finite values and blocks of zeros (R115, R118, R120, R121): which of its three ways a wide element or a
narrow block takes. -/

namespace Sys2Proof.Machine

/-! ## Zeros and non-finite values -/

theorem fvIsZero_iff (v : Fv) : fvIsZero v = true ↔ ∃ neg e, v = .fin neg 0 e := by
  cases v <;> simp [fvIsZero]

theorem fvNonfin_of_isZero {v : Fv} (h : fvIsZero v = true) : fvNonfin v = false := by
  obtain ⟨neg, e, rfl⟩ := (fvIsZero_iff v).mp h
  rfl

theorem f32Mag_of_isZero {x : Nat} (h : fvIsZero (f32 x) = true) : (f32Mag x).1 = 0 := by
  obtain ⟨neg, e, hx⟩ := (fvIsZero_iff _).mp h
  rw [f32Mag, hx]

/-! ## A wide element -/

/-- The pattern of an infinity in a wide format: FP32, BF16, FP16. -/
def wideInf (fmt : Nat) (neg : Bool) : Nat :=
  b2n neg * 2 ^ (fmtBits fmt - 1) + if fmt = 1 then 0x7F800000 else if fmt = 2 then 0x7F80 else 0x7C00

theorem decodeElem_wideInf : ∀ fmt ∈ [1, 2, 3], ∀ neg, decodeElem fmt (wideInf fmt neg) = .inf neg := by decide

theorem drainWide_of_nan {x : Nat} (fmt : Nat) (h : f32 x = .nan) :
    drainWide fmt x = (if fmt = 1 then 0x7FC00000 else if fmt = 2 then 0x7FC0 else 0x7E00, { nonfin := 1, elems := 1 }) := by
  rw [drainWide, h]
  rfl

theorem drainWide_of_inf {x : Nat} {neg : Bool} (fmt : Nat) (h : f32 x = .inf neg) :
    drainWide fmt x = (wideInf fmt neg, { nonfin := 1, elems := 1 }) := by
  rw [drainWide, h]
  rfl

/-! ## A narrow block -/

/-- One non-finite value decides for the whole block, whatever the others are (R121). -/
theorem drainBlock_of_nonfin {xs : List Nat} (fmt : Nat) (modeF stoch : Bool) (draw : Nat → Nat) (h : ∃ y ∈ xs, fvNonfin (f32 y) = true) :
    drainBlock fmt modeF stoch draw xs =
      (List.replicate xs.length 0, if modeF then 0x7F else 0xFF, { nonfin := (xs.filter fun y => fvNonfin (f32 y)).length, elems := xs.length }) := by
  have hbad : (xs.filter fun y => fvNonfin (f32 y)).length ≠ 0 := by
    simpa [List.filter_eq_nil_iff] using h
  exact if_pos hbad

/-- Without a non-finite value, a block whose greatest magnitude is 0 is written as zeros (R119, R120). -/
theorem drainBlock_of_amax_zero {xs : List Nat} (fmt : Nat) (modeF stoch : Bool) (draw : Nat → Nat) (hfin : ∀ y ∈ xs, fvNonfin (f32 y) = false)
    (hmax : (xs.foldl (fun a x => maxMag a (f32Mag x)) (0, 0)).1 = 0) :
    drainBlock fmt modeF stoch draw xs = (List.replicate xs.length 0, 0, { zeros := xs.length, elems := xs.length }) := by
  have hbad : (xs.filter fun y => fvNonfin (f32 y)).length = 0 := by
    simpa [List.filter_eq_nil_iff] using hfin
  exact (if_neg (fun hne => hne hbad)).trans (if_pos hmax)

theorem maxMag_zero {a b : Nat × Int} (ha : a.1 = 0) (hb : b.1 = 0) : (maxMag a b).1 = 0 := by
  unfold maxMag
  split
  · exact hb
  · exact ha

/-- The greatest magnitude of a block of zeros is 0. -/
theorem foldl_maxMag_zero : ∀ {xs : List Nat} {a : Nat × Int}, (∀ y ∈ xs, fvIsZero (f32 y) = true) → a.1 = 0 →
    (xs.foldl (fun a x => maxMag a (f32Mag x)) a).1 = 0
  | [], _, _, ha => ha
  | x :: xs, _, hz, ha => by
    obtain ⟨hx, hxs⟩ := List.forall_mem_cons.mp hz
    rw [List.foldl_cons]
    exact foldl_maxMag_zero hxs (maxMag_zero ha (f32Mag_of_isZero hx))

theorem drainBlock_of_zeros {xs : List Nat} (fmt : Nat) (modeF stoch : Bool) (draw : Nat → Nat) (h : ∀ y ∈ xs, fvIsZero (f32 y) = true) :
    drainBlock fmt modeF stoch draw xs = (List.replicate xs.length 0, 0, { zeros := xs.length, elems := xs.length }) :=
  drainBlock_of_amax_zero fmt modeF stoch draw (fun y hy => fvNonfin_of_isZero (h y hy)) (foldl_maxMag_zero h rfl)

/-- Under the all-zero flag every element reads as +0, whatever its bits (R118). -/
theorem scaledValue_flagged_zero (fmt : Nat) (modeF : Bool) (e : Nat) : scaledValue fmt modeF 0 e = .fin false 0 0 := rfl

/-- Settles O52: the three ways a value or a block is written, and how a flagged block reads. -/
theorem nonFiniteAndZeroValuesAreWritten : Obligations.NonFiniteAndZeroValuesAreWritten := by
  unfold Obligations.NonFiniteAndZeroValuesAreWritten
  intro x modeF stoch draw xs
  refine ⟨fun fmt hfmt => ⟨drainWide_of_nan fmt, fun neg hx => ?_⟩, fun fmt _ =>
    ⟨drainBlock_of_nonfin fmt modeF stoch draw, drainBlock_of_zeros fmt modeF stoch draw, fun e => ?_⟩⟩
  · rw [drainWide_of_inf fmt hx]
    exact ⟨decodeElem_wideInf fmt hfmt neg, rfl⟩
  · rw [scaledValue_flagged_zero]
    exact ⟨rfl, rfl⟩

end Sys2Proof.Machine
end

section
/-! Micro-program and table slots (R187–R189, R197–R202): what a command of a district that passes its checks does to the district's slots,
and what the waking of its serving loop leaves of them. -/

namespace Sys2Proof.Machine

/-! ## A district's command that passes its checks -/

/-- A district's command of the right form acts once a serving loop of the district that waited for a command is woken (R375). -/
theorem fwStep_district_acts {k : Spec} {c : FwReq} {s : State} {fmt : Bool} {own : State → List (Bool × Err)} {eff : State → State}
    (h : Sendable k c s) (hwide : k.wide = false) (hfmt : fmt = true) (hown : firstErr (own s) = none) :
    fwStep k c (fun s => headChecks k fmt true c s ++ own s) eff s = .next (eff (wakeLoop s (cmdDist c))) := by
  subst hfmt
  rw [fwStep_acts h (by rw [firstErr_append, headChecks_pass h, Option.none_or, hown]), if_neg (by simp [hwide])]

/-- The legality check lets through a command of a district in one of the states listed (R371). -/
theorem firstErr_legalIn {s : State} {d : Nat} {ok : List Nat} (h : (getDist s d).state ∈ ok) (l : List (Bool × Err)) :
    firstErr (legalIn s d ok :: l) = firstErr l := by
  rw [legalIn, firstErr_cons, List.contains_iff_mem.mpr h]
  rfl

/-- A serving loop woken changes the loop alone. -/
theorem getDist_wakeLoop (s : State) (d i : Nat) : ∃ l, getDist (wakeLoop s d) i = { getDist s i with loop := l } := by
  unfold wakeLoop
  split
  · split
    · by_cases e : i = d
      · rw [e, getDist_modDist_self]
        exact ⟨_, rfl⟩
      · rw [getDist_modDist_ne _ _ e]
        exact ⟨_, rfl⟩
    · exact ⟨_, rfl⟩
  · exact ⟨_, rfl⟩

@[simp] theorem wakeLoop_uslots (s : State) (d i : Nat) : (getDist (wakeLoop s d) i).uslots = (getDist s i).uslots := by
  obtain ⟨l, hl⟩ := getDist_wakeLoop s d i
  rw [hl]

@[simp] theorem wakeLoop_tbls (s : State) (d i : Nat) : (getDist (wakeLoop s d) i).tbls = (getDist s i).tbls := by
  obtain ⟨l, hl⟩ := getDist_wakeLoop s d i
  rw [hl]

@[simp] theorem getTbl_wakeLoop (s : State) (d i slot : Nat) : getTbl (getDist (wakeLoop s d) i) slot = getTbl (getDist s i) slot := by
  rw [getTbl, getTbl, wakeLoop_tbls]

@[simp] theorem tblRefs_wakeLoop (s : State) (d i slot : Nat) : tblRefs (getDist (wakeLoop s d) i) slot = tblRefs (getDist s i) slot := by
  obtain ⟨l, hl⟩ := getDist_wakeLoop s d i
  rw [hl]
  rfl

theorem pendOf_wakeLoop (s : State) (d : Nat) (c : FwReq) (cmd : Nat) : pendOf (wakeLoop s d) c cmd = pendOf s c cmd := by
  rw [pendOf, getFn_wakeLoop, pendOf]

/-- A woken loop adds no reply. -/
theorem repliesAdd_wakeLoop {s t : State} {d f : Nat} {l : List Reply} : repliesAdd (wakeLoop s d) t f l ↔ repliesAdd s t f l := by
  rw [repliesAdd, getFn_wakeLoop, repliesAdd]

/-- An OK reply after a change of a district is the one reply added. -/
theorem replyOk_modDist_adds (s : State) (c : FwReq) (d cmd : Nat) (g : Dist → Dist) (p : Bytes) :
    repliesAdd s (replyOk (modDist s d g) c cmd p) c.fn [okReply c cmd p] := replyOk_adds (modDist s d g) c cmd p

/-! ## Micro-program slots -/

/-- A shipped image named with nothing else is the image loaded (R187, R189). -/
theorem slotImage_shipped {p : Bytes} (s : State) (x : Dist) (hseg : fld p 23 16 = 0) (hoff : fld p 127 64 = 0) (hlen : fld p 159 128 = 0)
    (hpos : 1 ≤ fld p 15 8) (hmax : fld p 15 8 ≤ 8) : slotImage s x p = some (shippedImage (fld p 15 8)) := by
  have hz : zeroAt p [(23, 16), (127, 64), (159, 128)] = true := by simp [zeroAt, hseg, hoff, hlen]
  rw [slotImage, if_pos (Nat.one_le_iff_ne_zero.mp hpos), if_pos ⟨hmax, hz⟩]

/-- A load of a shipped image reads no flash. -/
theorem slotFlash_shipped {p : Bytes} (x : Dist) (hpos : 1 ≤ fld p 15 8) : slotFlash x p = false := by
  unfold slotFlash
  split
  · rw [beq_eq_false_iff_ne.mpr (Nat.one_le_iff_ne_zero.mp hpos), Bool.false_and]
  · rfl

theorem progSlotLoad_shipped_acts {c : FwReq} {s : State} (h : Sendable specSlotLoad c s) (hlen : c.payload.length = 32)
    (hres : zeroAt c.payload [(7, 4), (63, 24), (255, 160)] = true) (hseg : fld c.payload 23 16 = 0) (hoff : fld c.payload 127 64 = 0)
    (hsize : fld c.payload 159 128 = 0) (hpos : 1 ≤ fld c.payload 15 8) (hmax : fld c.payload 15 8 ≤ 8)
    (hstate : (getDist s (cmdDist c)).state ∈ setUpStates) (hfree : slotNamed (getDist s (cmdDist c)) (fld c.payload 3 0) = false) :
    exec (.progSlotLoad c) s =
      .next (replyOk (modDist (wakeLoop s (cmdDist c)) (cmdDist c) fun x =>
          { x with uslots := tset x.uslots (fld c.payload 3 0) (shippedImage (fld c.payload 15 8)) })
        c 0x0310 (slotReply (some (shippedImage (fld c.payload 15 8))))) := by
  show execProgSlotLoad c s = _
  simp only [execProgSlotLoad, slotImage_shipped s _ hseg hoff hsize hpos hmax, List.append_assoc]
  refine fwStep_district_acts h rfl (by simp [hlen, hres]) ?_
  have hship : (fld c.payload 15 8 != 0) = true := bne_iff_ne.mpr (Nat.one_le_iff_ne_zero.mp hpos)
  rw [slotImageChecks, hship, if_pos rfl, List.nil_append, firstErr_legalIn hstate, flashKeys, slotFlash_shipped _ hpos, hfree]
  rfl

theorem progSlotClear_acts {c : FwReq} {s : State} (h : Sendable specSlotClear c s) (hform : slotForm c.payload 4 = true)
    (hstate : (getDist s (cmdDist c)).state ∈ setUpStates) (hfree : slotNamed (getDist s (cmdDist c)) (fld c.payload 3 0) = false) :
    exec (.progSlotClear c) s =
      .next (replyOk (modDist (wakeLoop s (cmdDist c)) (cmdDist c) fun x => { x with uslots := tdel x.uslots (fld c.payload 3 0) })
        c 0x0311 []) := by
  refine fwStep_district_acts h rfl hform ?_
  rw [firstErr_legalIn hstate, hfree]
  rfl

theorem progSlotInfo_acts {c : FwReq} {s : State} (h : Sendable specSlotInfo c s) (hform : slotForm c.payload 4 = true)
    (hstate : (getDist s (cmdDist c)).state ∈ anyState) :
    exec (.progSlotInfo c) s =
      .next (replyOk (wakeLoop s (cmdDist c)) c 0x0312 (slotReply (tfind (getDist s (cmdDist c)).uslots (fld c.payload 3 0)))) := by
  refine (fwStep_district_acts h rfl hform (firstErr_legalIn hstate _)).trans ?_
  rw [wakeLoop_uslots]

/-! ## A table change -/

/-- The generation of a table slot after a change: a load advances it, from 15 to 1, and a clear leaves it (R199). -/
def genAfterChange (gen : Nat) (img : Option Bytes) : Nat := if img.isNone then gen else if gen = 15 then 1 else gen + 1

/-- A table slot with the changes that wait for it changed. -/
theorem getTbl_tmod_self (x : Dist) (slot : Nat) (g : Tbl → Tbl) : getTbl { x with tbls := tmod {} x.tbls slot g } slot = g (getTbl x slot) :=
  tget_tmod_self _ _ _ _

/-- A change installed sets its slot's image and generation. -/
theorem getTbl_installTbl (s : State) (d slot : Nat) (img : Option Bytes) :
    getTbl (getDist (installTbl s d slot img) d) slot =
      { getTbl (getDist s d) slot with image := img, gen := genAfterChange (getTbl (getDist s d) slot).gen img } := by
  unfold installTbl
  dsimp only
  rw [getDist_emit, getDist_modDist_self]
  exact tget_tset_self _ _ _ _

/-- The record of a change raises nothing. -/
theorem getFn_installTbl (s : State) (d slot f : Nat) (img : Option Bytes) : getFn (installTbl s d slot img) f = getFn s f := by
  unfold installTbl
  dsimp only
  rw [emit_plain _ _ _ _ _ _ (by decide)]
  rfl

section
variable {c : FwReq} {slot : Nat} {s : State} (cmd : Nat) (img : Option Bytes)

/-- A change installs at once while no descriptor holds the slot and no other change waits (R201). -/
theorem tblChange_installs (hrefs : tblRefs (getDist s (cmdDist c)) slot = 0) (hnone : (getTbl (getDist s (cmdDist c)) slot).pending = []) :
    getTbl (getDist (tblChange c cmd slot img s) (cmdDist c)) slot =
      { getTbl (getDist s (cmdDist c)) slot with image := img, gen := genAfterChange (getTbl (getDist s (cmdDist c)) slot).gen img } ∧
    repliesAdd s (tblChange c cmd slot img s) c.fn
      [okReply c cmd (tblReply (getDist (installTbl s (cmdDist c) slot img) (cmdDist c)) slot img)] := by
  unfold tblChange
  dsimp only
  rw [if_pos ⟨hrefs, hnone⟩, getDist_replyOk, getTbl_installTbl, repliesAdd, replyOk_adds, getFn_installTbl]
  exact ⟨rfl, rfl⟩

/-- While descriptors hold the slot a change waits behind those before it, and the command is ACCEPTED (R201). -/
theorem tblChange_waits (hrefs : tblRefs (getDist s (cmdDist c)) slot ≠ 0) :
    getTbl (getDist (tblChange c cmd slot img s) (cmdDist c)) slot =
      { getTbl (getDist s (cmdDist c)) slot with pending := (getTbl (getDist s (cmdDist c)) slot).pending ++ [(img, pendOf s c cmd)] } ∧
    repliesAdd s (tblChange c cmd slot img s) c.fn [acceptedReply c cmd] := by
  have hpend : pendOf (replyAccepted s c cmd) c cmd = pendOf s c cmd := by
    rw [pendOf, replyAccepted_eq, getFn_modFn_self, pendOf]
  unfold tblChange
  dsimp only
  rw [if_neg fun h => hrefs h.1, getDist_modDist_self, getDist_replyAccepted, hpend]
  exact ⟨getTbl_tmod_self _ _ _, replyAccepted_adds s c cmd⟩

end

/-! ## Table slots -/

theorem firstErr_tblFull {x : Dist} {slot : Nat} (h : (getTbl x slot).pending.length < 4) : firstErr [tblFull x slot] = none := by
  rw [tblFull, firstErr_cons, if_neg (by simpa using h)]
  rfl

theorem progTblLoad_acts {c : FwReq} {s : State} (h : Sendable specTblLoad c s) (hlen : c.payload.length = 56)
    (hres : fld c.payload 63 2 = 0) (hfmt : tableFormatOk (slice c.payload 8 48) = true) (hargs : tableArgsOk (tableOf (slice c.payload 8 48)) = true)
    (hstate : (getDist s (cmdDist c)).state ∈ setUpStates) (hroom : (getTbl (getDist s (cmdDist c)) (fld c.payload 1 0)).pending.length < 4) :
    exec (.progTblLoad c) s =
      .next (tblChange c 0x0320 (fld c.payload 1 0) (some (slice c.payload 8 48)) (wakeLoop s (cmdDist c))) := by
  refine fwStep_district_acts h rfl (by simp [hlen, zeroAt, hres, hfmt]) ?_
  rw [hargs, firstErr_cons, if_neg (by decide), firstErr_legalIn hstate, firstErr_tblFull hroom]

theorem progTblClear_acts {c : FwReq} {s : State} (h : Sendable specTblClear c s) (hform : slotForm c.payload 2 = true)
    (hstate : (getDist s (cmdDist c)).state ∈ setUpStates) (hroom : (getTbl (getDist s (cmdDist c)) (fld c.payload 1 0)).pending.length < 4) :
    exec (.progTblClear c) s = .next (tblChange c 0x0321 (fld c.payload 1 0) none (wakeLoop s (cmdDist c))) := by
  refine fwStep_district_acts h rfl hform ?_
  rw [firstErr_legalIn hstate, firstErr_tblFull hroom]

/-- PROG_TBL_INFO answers 16 bytes (R202). -/
theorem progTblInfo_acts {c : FwReq} {s : State} (h : Sendable specTblInfo c s) (hform : slotForm c.payload 2 = true)
    (hstate : (getDist s (cmdDist c)).state ∈ anyState) :
    ∃ fs, exec (.progTblInfo c) s = .next (replyOk (wakeLoop s (cmdDist c)) c 0x0322 (pack 16 fs)) :=
  ⟨_, fwStep_district_acts h rfl hform (firstErr_legalIn hstate _)⟩

/-- The oldest change installs once no descriptor holds the slot, except while the district is PAUSED (R201). -/
theorem tableChangeInstall_installs {d slot : Nat} {s : State} {img : Option Bytes} {p : Pend} {rest : List (Option Bytes × Pend)}
    (hnext : (getTbl (getDist s d) slot).pending = (img, p) :: rest) (hrefs : tblRefs (getDist s d) slot = 0) (hstate : (getDist s d).state ≠ 5) :
    exec (.tableChangeInstall d slot) s = .next (tblInstall d slot s) ∧
    getTbl (getDist (tblInstall d slot s) d) slot = ⟨img, genAfterChange (getTbl (getDist s d) slot).gen img, rest⟩ := by
  refine ⟨rfl, ?_⟩
  unfold tblInstall
  dsimp only
  rw [hnext]
  dsimp only
  rw [if_pos ⟨hrefs, hstate⟩, getDist_finishOk, getTbl_installTbl, getDist_modDist_self, getTbl_tmod_self]

/-- Settles O18, command by command. -/
theorem slotCommandsComplete : Obligations.SlotCommandsComplete := by
  unfold Obligations.SlotCommandsComplete
  intro c s d m k
  have hrefsWoken : tblRefs (getDist (wakeLoop s d) d) k = tblRefs (getDist s d) k := tblRefs_wakeLoop s d d k
  have htblWoken : getTbl (getDist (wakeLoop s d) d) k = getTbl (getDist s d) k := getTbl_wakeLoop s d d k
  refine ⟨fun h hlen hres hseg hoff hsize hpos hmax hstate hfree => ?_, fun h hform hstate hfree => ?_, fun h hform hstate => ?_,
    fun h hlen hres hfmt hargs hstate hroom => ⟨fun hrefs hnone => ?_, fun hrefs => ?_⟩, fun h hform hstate hrefs hnone => ?_,
    fun h hform hstate => ?_, fun slot img p rest hnext hrefs hstate => ?_⟩
  · refine ⟨_, progSlotLoad_shipped_acts h hlen hres hseg hoff hsize hpos hmax hstate hfree, ?_, fun i hi => ?_,
      repliesAdd_wakeLoop.mp (replyOk_modDist_adds _ _ _ _ _ _)⟩
    · rw [getDist_replyOk, getDist_modDist_self]
      exact tfind_tset_self _ _ _
    · rw [getDist_replyOk, getDist_modDist_self, ← wakeLoop_uslots s d]
      exact tfind_tset_ne _ hi _
  · refine ⟨_, progSlotClear_acts h hform hstate hfree, ?_, repliesAdd_wakeLoop.mp (replyOk_modDist_adds _ _ _ _ _ _)⟩
    rw [getDist_replyOk, getDist_modDist_self]
    exact tfind_tdel_self _ _
  · refine ⟨_, progSlotInfo_acts h hform hstate, repliesAdd_wakeLoop.mp (replyOk_adds _ _ _ _), ?_⟩
    rw [getDist_replyOk, wakeLoop_uslots]
  · obtain ⟨htbl, hreply⟩ := tblChange_installs 0x0320 (some (slice c.payload 8 48)) (hrefsWoken.trans hrefs)
      ((congrArg Tbl.pending htblWoken).trans hnone)
    rw [htblWoken] at htbl
    exact ⟨_, progTblLoad_acts h hlen hres hfmt hargs hstate hroom, congrArg Tbl.image htbl, congrArg Tbl.gen htbl, _,
      repliesAdd_wakeLoop.mp hreply⟩
  · obtain ⟨htbl, hreply⟩ := tblChange_waits 0x0320 (some (slice c.payload 8 48)) (by rwa [hrefsWoken])
    rw [htblWoken, pendOf_wakeLoop] at htbl
    exact ⟨_, progTblLoad_acts h hlen hres hfmt hargs hstate hroom, (congrArg Tbl.image htbl :), repliesAdd_wakeLoop.mp hreply,
      congrArg Tbl.pending htbl⟩
  · obtain ⟨htbl, hreply⟩ := tblChange_installs 0x0321 none (hrefsWoken.trans hrefs) ((congrArg Tbl.pending htblWoken).trans hnone)
    rw [htblWoken] at htbl
    have hroom : (getTbl (getDist s d) k).pending.length < 4 := by simp [hnone]
    exact ⟨_, progTblClear_acts h hform hstate hroom, congrArg Tbl.image htbl, (congrArg Tbl.gen htbl :), repliesAdd_wakeLoop.mp hreply⟩
  · obtain ⟨fs, hacts⟩ := progTblInfo_acts h hform hstate
    refine ⟨_, hacts, ⟨_, leBytes_length 16 _, repliesAdd_wakeLoop.mp (replyOk_adds _ _ _ _)⟩, ?_⟩
    rw [getDist_replyOk, wakeLoop_tbls]
  · obtain ⟨hacts, htbl⟩ := tableChangeInstall_installs hnext hrefs hstate
    exact ⟨_, hacts, congrArg Tbl.image htbl, congrArg Tbl.pending htbl⟩

end Sys2Proof.Machine
end

section
/-! Atomics and ordered contributions at their slice (R209–R213, R222): a transfer into a segment that a core has under way moves on by one
piece, and stays as its own event has left it. -/

namespace Sys2Proof.Machine

/-! ## What leaves the cores and the backings -/

theorem getCore_of_dists {s t : State} (h : t.dists = s.dists) (d k : Nat) : getCore t d k = getCore s d k := by
  simp only [getCore, getDist, h]

theorem segWrite_dists (s : State) (e : Seg) (off : Nat) (b : Bytes) : (segWrite s e off b).dists = s.dists := by
  unfold segWrite
  split <;> rfl

theorem segMark_dists (s : State) (e : Seg) (gs : List Nat) : (segMark s e gs).dists = s.dists := by
  unfold segMark
  split <;> rfl

@[simp] theorem getCore_segWrite (s : State) (e : Seg) (off : Nat) (b : Bytes) (d k : Nat) : getCore (segWrite s e off b) d k = getCore s d k :=
  getCore_of_dists (segWrite_dists s e off b) d k

@[simp] theorem getCore_segMark (s : State) (e : Seg) (gs : List Nat) (d k : Nat) : getCore (segMark s e gs) d k = getCore s d k :=
  getCore_of_dists (segMark_dists s e gs) d k

/-- What no step of a fold changes, the fold does not change. -/
theorem foldl_keeps {α β γ : Type} {f : α → γ} {g : α → β → α} (h : ∀ a b, f (g a b) = f a) : ∀ (l : List β) (a : α), f (l.foldl g a) = f a
  | [], _ => rfl
  | b :: l, a => (foldl_keeps h l (g a b)).trans (h a b)

/-- Counts change the census and the gate alone: no core, no backing. -/
@[simp] theorem getCore_censusAdd (s : State) (d tag source : Nat) (n : Cnt) (k : Nat) : getCore (censusAdd s d tag source n) d k = getCore s d k := by
  unfold censusAdd
  dsimp only
  rw [foldl_keeps (f := fun t => getCore t d k) fun t i => getCore_emit t _ _ _ _ _ d k]
  exact getCore_of_cores (by rw [getDist_modDist_self]) k

@[simp] theorem censusAdd_backs (s : State) (d tag source : Nat) (n : Cnt) : (censusAdd s d tag source n).backs = s.backs := by
  unfold censusAdd
  dsimp only
  rw [foldl_keeps (f := State.backs) fun t i => emit_backs t _ _ _ _ _]
  rfl

/-! ## A soft fault -/

theorem getCore_modGate (s : State) (d k : Nat) (g : Gate → Gate) : getCore (modGate s d g) d k = getCore s d k :=
  getCore_of_cores (by rw [modGate, getDist_modDist_self]) k

theorem getCore_modProg (s : State) (d k : Nat) (g : Prog → Prog) : getCore (modProg s d g) d k = getCore s d k :=
  getCore_of_cores (modProg_cores s d g) k

/-- The core `c` with its only descriptor `i`, which has taken the soft faults `l`. -/
def withSofts (c : Core) (i : Issued) (l : NSet) : Core := { c with issued := [{ i with softs := l }] }

theorem withSofts_self {c : Core} {i : Issued} (h : c.issued = [i]) : withSofts c i i.softs = c := by
  rw [withSofts, ← h]

section
variable {s : State} {d core : Nat} {i : Issued} (h : (getCore s d core).issued = [i])
include h

/-- A soft fault of a core's only descriptor changes which soft faults that has taken. -/
theorem softFault_core (code : Nat) : ∃ l, getCore (softFault s d core i.q.idx code) d core = withSofts (getCore s d core) i l := by
  rw [softFault, findIssued_single h]
  dsimp only
  split
  · exact ⟨i.softs, (withSofts_self h).symm⟩
  · refine ⟨nsAdd i.softs code, ?_⟩
    split <;> simp [getCore_modGate, getCore_modProg, getCore_emit, modIssued, h, withSofts]

theorem softFault_backs (code : Nat) : (softFault s d core i.q.idx code).backs = s.backs := by
  rw [softFault, findIssued_single h]
  dsimp only
  split
  · rfl
  · split <;> exact emit_backs s _ _ _ _ _

theorem softOnce_core (code tag : Nat) : ∃ l, getCore (softOnce s d core i.q.idx code tag) d core = withSofts (getCore s d core) i l := by
  rw [softOnce, findIssued_single h]
  dsimp only
  split
  · exact ⟨i.softs, (withSofts_self h).symm⟩
  · split
    · simpa using softFault_core ((congrArg Core.issued (getCore_censusAdd s d tag _ _ core)).trans h) code
    · exact softFault_core h code

theorem softOnce_backs (code tag : Nat) : (softOnce s d core i.q.idx code tag).backs = s.backs := by
  rw [softOnce, findIssued_single h]
  dsimp only
  split
  · rfl
  · split
    · exact (softFault_backs ((congrArg Core.issued (getCore_censusAdd s d tag _ _ core)).trans h) code).trans (censusAdd_backs s d tag _ _)
    · exact softFault_backs h code

end

/-! ## A transfer into a segment moves on -/

section
variable {s : State} {d core n : Nat} {i : Issued} {e : Seg} {off : Nat} (hi : (getCore s d core).issued = [i])
include hi

theorem findXfer_single {x : Xfer} (hw : i.work = .xfer x) : findXfer (getCore s d core) i.q.idx false = some x := by
  simp only [findXfer, Bool.false_eq_true, if_false, findIssued_single hi, hw]

/-- A begun transfer into a segment waits for its own events: the pump leaves it. -/
theorem pump_segTransfer {x : Xfer} (hp : (getCore s d core).prefetches = []) (hb : i.begun = true) (hw : i.work = .xfer x) (hd : x.dst = .seg n e off) :
    pump d core s = s := by
  have hbegin : tryBegin d core s i.q.idx = s := by
    rw [tryBegin, findIssued_single hi]
    exact if_pos (by simp [hb])
  have hskip : skipRun d core i.q.idx false s = s := by
    simp only [skipRun, findXfer_single hi hw, hd, ite_self]
  simp only [pump, hi, hp, List.map_cons, List.map_nil, List.foldl_cons, List.foldl_nil, hbegin, hskip]

theorem setXfer_issued (y : Xfer) : (getCore (setXfer s d core i.q.idx false y) d core).issued =
    [{ i with begun := true, work := if xferDone y then .fin else .xfer { y with since := time s } }] := by
  have hdone : xferDone { y with since := time s } = xferDone y := rfl
  simp [setXfer, beginAs, modIssued, hi, hdone]

theorem setXfer_moved (y : Xfer) : (getCore (setXfer s d core i.q.idx false y) d core).issued.map (fun j => (j.q, j.work)) =
    [(i.q, if y.rows * y.rowBytes ≤ y.pos then .fin else .xfer { y with since := time s })] := by
  rw [setXfer_issued hi]
  exact congrArg (fun w => [(i.q, w)]) (ite_congr (propext decide_eq_true_iff) (fun _ => rfl) fun _ => rfl)

omit hi in
theorem setXfer_core (idx : Nat) (y : Xfer) : ∃ l, getCore (setXfer s d core idx false y) d core = { getCore s d core with issued := l } :=
  ⟨_, getCore_modCore_self s d core _⟩

/-- A transfer into a segment that has moved on, or is complete, waits. -/
theorem after_setXfer {y : Xfer} (hp : (getCore s d core).prefetches = []) (hd : y.dst = .seg n e off) :
    after d core (setXfer s d core i.q.idx false y) = settle d (setXfer s d core i.q.idx false y) := by
  obtain ⟨l, hl⟩ := setXfer_core (s := s) (d := d) (core := core) i.q.idx y
  have hp' : (getCore (setXfer s d core i.q.idx false y) d core).prefetches = [] := by rw [hl]; exact hp
  by_cases hdone : xferDone y = true
  · refine after_done ⟨fun j hj => ?_, hp'⟩
    rw [setXfer_issued hi, if_pos hdone] at hj
    rw [List.mem_singleton.mp hj]
  · have hi' := setXfer_issued hi y
    rw [if_neg hdone] at hi'
    exact congrArg (settle d) (pump_segTransfer hi' hp' rfl rfl hd)

end

/-- A core's only descriptor moves bytes into a segment now (R101, R102, R378). -/
structure MovesToSeg (s : State) (d core n : Nat) (i : Issued) (x : Xfer) (e : Seg) (off : Nat) : Prop where
  working : Working s d core i
  begun : i.begun = true
  work : i.work = .xfer x
  dst : x.dst = .seg n e off
  rowPos : 0 < x.rowBytes
  goesOn : xferDone x = false
  may : coresStart s d = true ∨ resumable x = false

/-- A begun descriptor alone on its core stands in its own way in nothing. -/
theorem mayBegin_single {c : Core} {i : Issued} (x : Dist) (hi : c.issued = [i]) (hp : c.prefetches = []) : mayBegin x c i = true := by
  simp [mayBegin, hi, hp]

theorem MovesToSeg.ready {s : State} {d core n : Nat} {i : Issued} {x : Xfer} {e : Seg} {off : Nat} (h : MovesToSeg s d core n i x e off) :
    xferReady s d core i.q.idx false = true := by
  obtain ⟨hworks, hi, hp⟩ := h.working
  have hmay : (coresStart s d || !resumable x) = true := by simpa using h.may
  simp only [xferReady, findXfer_single hi h.work, findIssued_single hi, mayBegin_single _ hi hp, hworks, Bool.false_eq_true, if_false,
    Option.any_some, hmay, Bool.and_true]

/-! ## One granule of an atomic -/

/-- Source bytes of an atomic's next granule: pairs for a compare-and-swap (R209, R211). -/
def atomicLen (x : Xfer) : Nat := min (if 11 ≤ x.aop then 128 else 64) (x.rowBytes - x.pos % x.rowBytes)

/-- Destination bytes of an atomic's next granule. -/
def atomicDstLen (x : Xfer) : Nat := if 11 ≤ x.aop then atomicLen x / 2 else atomicLen x

/-- Offset of an atomic's next granule in the source. -/
def atomicSrc (x : Xfer) : Nat := x.pos / x.rowBytes * x.srcStride + x.pos % x.rowBytes

/-- Offset of an atomic's next granule in the destination segment, whose range begins at `off`. -/
def atomicDst (off : Nat) (x : Xfer) : Nat :=
  off + x.pos / x.rowBytes * x.dstStride + (if 11 ≤ x.aop then x.pos % x.rowBytes / 2 else x.pos % x.rowBytes)

/-- The transfer after an atomic's next granule. -/
def atomicNext (x : Xfer) : Xfer := { x with pos := x.pos + atomicLen x }

/-- One granule of an atomic with no memory error: nothing is written on a poisoned destination, a poisoned source poisons it, else
the operation is performed (R209–R211, R222). -/
theorem sliceAtomic_eq {s : State} {d core n : Nat} {i : Issued} {x : Xfer} {e : Seg} {off : Nat} (h : MovesToSeg s d core n i x e off)
    (hlo : 1 ≤ x.aop) (hhi : x.aop ≤ 12) (hclear : bridgeClear s d core (some (e, atomicDst off x)) = true) :
    sliceAtomic d core i.q.idx .none s =
      if segPoison s e (atomicDst off x) (atomicDstLen x) ≠ [] then setXfer (softOnce s d core i.q.idx 0x80 1023) d core i.q.idx false (atomicNext x)
      else if endPoison s d core x.src (atomicSrc x) (atomicLen x) ≠ [] then
        setXfer (softOnce (segMark s e (granules (atomicDst off x) (atomicDstLen x))) d core i.q.idx 0x80 1023) d core i.q.idx false (atomicNext x)
      else
        let dst := segRead s e (atomicDst off x) (atomicDstLen x)
        let src := endRead s d core x.src (atomicSrc x) (atomicLen x)
        if 11 ≤ x.aop then
          let t := casGranule (if x.aop = 11 then 4 else 8) dst src
          setXfer (endWrite (segWrite s e (atomicDst off x) t.1) d core x.src (atomicSrc x) t.2 []) d core i.q.idx false (atomicNext x)
        else setXfer (segWrite s e (atomicDst off x) (aopGranule x.aop dst src)) d core i.q.idx false (atomicNext x) := by
  have hcas : (x.aop = 11 ∨ x.aop = 12) ↔ 11 ≤ x.aop := by omega
  have h0 : ¬ x.aop = 0 := by omega
  have h13 : ¬ x.aop = 13 := by omega
  have hrow : max 1 x.rowBytes = x.rowBytes := Nat.max_eq_right h.rowPos
  simp only [sliceAtomic, findXfer_single h.working.issued h.work, h.dst, h.ready, h.goesOn, h0, h13, hcas, hrow, errWithin, sliceError]
  rw [if_neg (by simp), if_neg (by simpa [atomicDst] using hclear)]
  simp only [atomicNext, atomicLen, atomicDstLen, atomicSrc, atomicDst, h.dst]

/-! ## What a granule leaves -/

@[simp] theorem sramWrite_issued (c : Core) (a : Nat) (b : Bytes) : (sramWrite c a b).issued = c.issued := by
  unfold sramWrite
  split <;> rfl

@[simp] theorem sramWrite_prefetches (c : Core) (a : Nat) (b : Bytes) : (sramWrite c a b).prefetches = c.prefetches := by
  unfold sramWrite
  split <;> rfl

/-- The state a granule leaves in memory and local SRAM, before its transfer moves on: the core has its one descriptor, and no time passes. -/
structure GranuleDone (s t : State) (d core : Nat) (i : Issued) : Prop where
  issued : ∃ l, (getCore t d core).issued = [{ i with softs := l }]
  prefetches : (getCore t d core).prefetches = []
  now : t.now = s.now

theorem now_of_anchor {s t : State} (h : anchor t = anchor s) : t.now = s.now := by
  obtain ⟨-, -, hnow, -⟩ := (anchor_eq_iff s t).mp h
  exact hnow

section
variable {s t : State} {d core n : Nat} {i : Issued} {x : Xfer} {e : Seg} {off : Nat} (h : MovesToSeg s d core n i x e off)
include h

theorem softOnce_granuleDone (code tag : Nat) : GranuleDone s (softOnce s d core i.q.idx code tag) d core i := by
  obtain ⟨-, hi, hp⟩ := h.working
  obtain ⟨l, hl⟩ := softOnce_core hi code tag
  exact ⟨⟨l, by rw [hl]; rfl⟩, by rw [hl]; exact hp, now_of_anchor (softOnce_anchor s d core _ code tag)⟩

theorem granuleDone_of_core (hc : (getCore t d core).issued = (getCore s d core).issued)
    (hp : (getCore t d core).prefetches = (getCore s d core).prefetches) (hnow : t.now = s.now) : GranuleDone s t d core i :=
  ⟨⟨i.softs, hc.trans h.working.issued⟩, hp.trans h.working.prefetches, hnow⟩

theorem segWrite_granuleDone (g : Seg) (a : Nat) (b : Bytes) : GranuleDone s (segWrite s g a b) d core i :=
  granuleDone_of_core h (by rw [getCore_segWrite]) (by rw [getCore_segWrite]) (now_of_anchor (segWrite_anchor s g a b))

end

/-- The transfer moves on, or is complete, and the rest stays as its granule has left it. -/
theorem granule_settles {s t : State} {d core n : Nat} {i : Issued} {e : Seg} {off : Nat} (ht : GranuleDone s t d core i) {y : Xfer}
    (hy : y.dst = .seg n e off) :
    after d core (setXfer t d core i.q.idx false y) = settle d (setXfer t d core i.q.idx false y) ∧
    (getCore (setXfer t d core i.q.idx false y) d core).issued.map (fun j => (j.q, j.work)) =
      [(i.q, if y.rows * y.rowBytes ≤ y.pos then .fin else .xfer { y with since := time s })] ∧
    (setXfer t d core i.q.idx false y).backs = t.backs ∧ (getCore (setXfer t d core i.q.idx false y) d core).sram = (getCore t d core).sram := by
  obtain ⟨⟨l, hi⟩, hp, hnow⟩ := ht
  obtain ⟨_, hcore⟩ := setXfer_core (s := t) (d := d) (core := core) i.q.idx y
  have hmoved := setXfer_moved hi y
  rw [time, hnow] at hmoved
  exact ⟨after_setXfer hi hp hy, hmoved, rfl, by rw [hcore]⟩

/-! ## One granule of an atomic, case by case -/

/-- What a compare-and-swap's granule writes: the destination words, and the source pairs with the words read. -/
def casOf (s : State) (d core : Nat) (e : Seg) (off : Nat) (x : Xfer) : Bytes × Bytes :=
  casGranule (if x.aop = 11 then 4 else 8) (segRead s e (atomicDst off x) (atomicDstLen x)) (endRead s d core x.src (atomicSrc x) (atomicLen x))

section
variable {s : State} {d core n : Nat} {i : Issued} {x : Xfer} {e : Seg} {off : Nat} (h : MovesToSeg s d core n i x e off)
  (hlo : 1 ≤ x.aop) (hhi : x.aop ≤ 12) (hclear : bridgeClear s d core (some (e, atomicDst off x)) = true)
include h hlo hhi hclear

theorem sliceAtomic_poisoned (hpois : segPoison s e (atomicDst off x) (atomicDstLen x) ≠ []) :
    sliceAtomic d core i.q.idx .none s = setXfer (softOnce s d core i.q.idx 0x80 1023) d core i.q.idx false (atomicNext x) := by
  rw [sliceAtomic_eq h hlo hhi hclear, if_pos hpois]

theorem sliceAtomic_element (hdst : segPoison s e (atomicDst off x) (atomicDstLen x) = [])
    (hsrc : endPoison s d core x.src (atomicSrc x) (atomicLen x) = []) (hcas : ¬ 11 ≤ x.aop) :
    sliceAtomic d core i.q.idx .none s = setXfer (segWrite s e (atomicDst off x) (aopGranule x.aop (segRead s e (atomicDst off x) (atomicDstLen x))
      (endRead s d core x.src (atomicSrc x) (atomicLen x)))) d core i.q.idx false (atomicNext x) := by
  rw [sliceAtomic_eq h hlo hhi hclear, if_neg (absurd hdst), if_neg (absurd hsrc)]
  exact if_neg hcas

theorem sliceAtomic_cas {a : Nat} (hdst : segPoison s e (atomicDst off x) (atomicDstLen x) = [])
    (hsrc : endPoison s d core x.src (atomicSrc x) (atomicLen x) = []) (hcas : 11 ≤ x.aop) (hlocal : x.src = .lcl a) :
    sliceAtomic d core i.q.idx .none s = setXfer (modCore (segWrite s e (atomicDst off x) (casOf s d core e off x).1) d core
      fun c => sramWrite c (a + atomicSrc x) (casOf s d core e off x).2) d core i.q.idx false (atomicNext x) := by
  rw [sliceAtomic_eq h hlo hhi hclear, if_neg (absurd hdst), if_neg (absurd hsrc)]
  refine (if_pos hcas).trans ?_
  simp only [casOf, hlocal]
  rfl

omit hlo hhi hclear in
theorem casWrite_granuleDone (at_ a : Nat) (w b : Bytes) :
    GranuleDone s (modCore (segWrite s e at_ w) d core fun c => sramWrite c a b) d core i :=
  granuleDone_of_core h (by simp) (by simp) (now_of_anchor (by simp))

end

/-! ## One contribution -/

@[simp] theorem getCore_ordsumStray (d source : Nat) (e : Seg) (off rank : Nat) (s : State) (k : Nat) :
    getCore (ordsumStray d source e off rank s) d k = getCore s d k := by
  rw [ordsumStray, getCore_censusAdd, getCore_emit]

/-- A contribution changes its record's segment, the log and the counts: no core. -/
@[simp] theorem getCore_ordsum (d source : Nat) (e : Seg) (off rank : Nat) (b : Bytes) (poison : Bool) (s : State) (k : Nat) :
    getCore (ordsum d source e off rank b poison s) d k = getCore s d k := by
  have hmark (c : Bool) (t : State) (gs : List Nat) : getCore (if c then segMark t e gs else t) d k = getCore t d k := by
    split
    · exact getCore_segMark t e gs d k
    · rfl
  unfold ordsum
  dsimp only
  split
  · exact getCore_ordsumStray d source e off rank s k
  · split <;> simp only [getCore_segWrite, hmark]

/-- The offset of a transfer's next record in the segment, whose range begins at `off`. -/
def recordAt (off : Nat) (x : Xfer) : Nat := off + x.pos / x.rowBytes * x.dstStride

/-- The transfer's next row in the source. -/
def rowAt (x : Xfer) : Nat := x.pos / x.rowBytes * x.srcStride

/-- The transfer after its next contribution. -/
def rowNext (x : Xfer) : Xfer := { x with pos := (x.pos / x.rowBytes + 1) * x.rowBytes }

/-- One contribution with no memory error, of the right form and at a record within its segment, neither of them poisoned (R212, R213). -/
theorem ordsumRow_adds {s : State} {d core n : Nat} {i : Issued} {x : Xfer} {e : Seg} {off : Nat} (h : MovesToSeg s d core n i x e off)
    (haop : x.aop = 13) (hclear : bridgeClear s d core (some (e, recordAt off x)) = true)
    (hsrc : endPoison s d core x.src (rowAt x) x.rowBytes = []) (hrec : segPoison s e (recordAt off x) 64 = [])
    (hroom : recordAt off x + 64 + (((setBits 16 (fld (segRead s e (recordAt off x) 64) 15 0)).getLast?.map (· + 1)).getD 0 + 1) *
      (64 * fld (segRead s e (recordAt off x) 64) 40 32) ≤ e.size)
    (hok : contributionOk (endRead s d core x.src (rowAt x) x.rowBytes) (segRead s e (recordAt off x) 64) x.rowBytes = true) :
    ordsumRow d core i.q.idx .none s =
      setXfer (ordsum d (coreSource s d core) e (recordAt off x) (fld (endRead s d core x.src (rowAt x) x.rowBytes) 3 0)
        ((endRead s d core x.src (rowAt x) x.rowBytes).drop 64) false s) d core i.q.idx false (rowNext x) := by
  have hrow : max 1 x.rowBytes = x.rowBytes := Nat.max_eq_right h.rowPos
  rw [recordAt, rowAt] at *
  simp only [ordsumRow, findXfer_single h.working.issued h.work, h.dst, h.ready, h.goesOn, haop, hrow, errWithin, sliceError]
  rw [if_neg (by simp), if_neg (by simp [hclear]), if_neg (absurd hrec), if_neg (Nat.not_lt.mpr hroom)]
  simp only [hok, hsrc, rowNext, h.dst, haop, bne_self_eq_false, Bool.false_eq_true, if_false, if_true]

/-- Settles O22: an element operation, a compare-and-swap, a poisoned destination, and a contribution. -/
theorem atomicsAndContributionsAct : Obligations.AtomicsAndContributionsAct := by
  unfold Obligations.AtomicsAndContributionsAct
  refine ⟨fun s d core n i x e off hw hb hwork hdst hlo hhi hpos hgo hmay => ?_,
    fun s d core n i x e off hw hb hwork hdst haop hpos hgo hrowStart hstarts => ?_⟩
  · have h : MovesToSeg s d core n i x e off := ⟨hw, hb, hwork, hdst, hpos, hgo, hmay⟩
    intro cas o r k kd at_ hclear src moved
    refine ⟨fun hpd hps => ⟨fun hcas => ?_, fun a hcas hlocal => ?_⟩, fun hpd => ?_⟩
    · obtain ⟨hafter, hmoved, hbacks, -⟩ := granule_settles (segWrite_granuleDone h e (atomicDst off x) _) (y := atomicNext x) hdst
      exact ⟨_, rfl, _, (congrArg (after d core) (sliceAtomic_element h hlo hhi hclear hpd hps hcas)).trans hafter, hmoved, hbacks⟩
    · obtain ⟨hafter, hmoved, hbacks, hsram⟩ := granule_settles (casWrite_granuleDone h (atomicDst off x) (a + atomicSrc x)
        (casOf s d core e off x).1 (casOf s d core e off x).2) (y := atomicNext x) hdst
      rw [getCore_modCore_self, getCore_segWrite] at hsram
      exact ⟨_, rfl, _, (congrArg (after d core) (sliceAtomic_cas h hlo hhi hclear hpd hps hcas hlocal)).trans hafter, hmoved, hbacks, hsram⟩
    · obtain ⟨hafter, hmoved, hbacks, hsram⟩ := granule_settles (softOnce_granuleDone h 0x80 1023) (y := atomicNext x) hdst
      obtain ⟨l, hl⟩ := softOnce_core hw.issued 0x80 1023
      exact ⟨_, rfl, _, (congrArg (after d core) (sliceAtomic_poisoned h hlo hhi hclear hpd)).trans hafter, hmoved,
        hbacks.trans (softOnce_backs hw.issued 0x80 1023), hsram.trans (by rw [hl, withSofts])⟩
  · have h : MovesToSeg s d core n i x e off := ⟨hw, hb, hwork, hdst, hpos, hgo, .inl hstarts⟩
    intro r rec_ row hdr hclear hps hpr hroom hok
    obtain ⟨hafter, hmoved, hbacks, -⟩ := granule_settles (granuleDone_of_core h
      (congrArg Core.issued (getCore_ordsum d (coreSource s d core) e rec_ (fld row 3 0) (row.drop 64) false s core))
      (congrArg Core.prefetches (getCore_ordsum d _ e _ _ _ _ s core)) (now_of_anchor (ordsum_anchor d _ e _ _ _ _ s))) (y := rowNext x) hdst
    exact ⟨_, rfl, _, (congrArg (after d core) (ordsumRow_adds h haop hclear hps hpr hroom hok)).trans hafter, hbacks, hmoved⟩

end Sys2Proof.Machine
end

section
/-! Segments (R222, R224–R227, R238): what a write leaves of a backing's bytes and poison, and what the MEM_SEG_ commands change of a district. -/

namespace Sys2Proof.Machine

/-! ## A write to a segment that is not flash -/

theorem segWrite_nil (s : State) (e : Seg) (off : Nat) : segWrite s e off [] = s := if_pos (.inr rfl)

theorem segByte_of_backing {s : State} {e : Seg} (h : e.tier ≠ 3) (a : Nat) : segByte s e a = memGet (getBack s e.bid).data a := if_neg h

theorem segPoisoned_of_backing {s : State} {e : Seg} (h : e.tier ≠ 3) (g : Nat) : segPoisoned s e g = (getBack s e.bid).poison.contains g := if_neg h

theorem contains_clearPoison (p : NSet) (a n g : Nat) :
    (clearPoison p a n).contains g = (p.contains g && !(decide (a ≤ g * 64) && decide (g * 64 + 64 ≤ a + n))) := by
  rw [clearPoison, Bool.eq_iff_iff]
  simp only [List.contains_iff_mem, List.mem_filter, Bool.and_eq_true]

theorem getBack_modBack_ne (s : State) {b k : Nat} (g : Backing → Backing) (h : k ≠ b) : getBack (modBack s b g) k = getBack s k :=
  tget_tset_ne _ _ _ h

/-- A write goes to its segment's backing alone. -/
theorem getBack_segWrite_ne (s : State) (e : Seg) (off : Nat) (d : Bytes) {b : Nat} (h : b ≠ e.bid) : getBack (segWrite s e off d) b = getBack s b := by
  unfold segWrite
  split
  · rfl
  · exact getBack_modBack_ne s _ h

section
variable {s : State} {e : Seg} (htier : e.tier ≠ 3)
include htier

theorem segWrite_data (off : Nat) (d : Bytes) : (getBack (segWrite s e off d) e.bid).data = memWrite (getBack s e.bid).data off d := by
  by_cases hd : d = []
  · subst hd
    rw [segWrite_nil, memWrite]
  · rw [segWrite, if_neg (not_or.mpr ⟨htier, hd⟩), getBack_modBack_self, backWrite]

theorem segWrite_poison (off : Nat) {d : Bytes} (hd : d ≠ []) :
    (getBack (segWrite s e off d) e.bid).poison = clearPoison (getBack s e.bid).poison off d.length := by
  rw [segWrite, if_neg (not_or.mpr ⟨htier, hd⟩), getBack_modBack_self, backWrite]

theorem segByte_segWrite_in (hwf : memWf (getBack s e.bid).data = true) (off : Nat) {d : Bytes} {i : Nat} (hi : i < d.length) :
    segByte (segWrite s e off d) e (off + i) = d.getD i 0 := by
  rw [segByte_of_backing htier, segWrite_data htier, memGet_memWrite_in d off i hwf hi]

theorem segByte_segWrite_out {off a : Nat} {d : Bytes} (ha : a < off ∨ off + d.length ≤ a) :
    segByte (segWrite s e off d) e a = segByte s e a := by
  rw [segByte_of_backing htier, segByte_of_backing htier, segWrite_data htier, memGet_memWrite_out d _ off a ha]

/-- Only a write of a whole granule clears its poison, and a write adds none (R222). -/
theorem segPoisoned_segWrite (off : Nat) (d : Bytes) (g : Nat) : segPoisoned (segWrite s e off d) e g =
    (segPoisoned s e g && !(decide (d ≠ []) && decide (off ≤ g * 64) && decide (g * 64 + 64 ≤ off + d.length))) := by
  by_cases hd : d = []
  · subst hd
    simp [segWrite_nil]
  · rw [segPoisoned_of_backing htier, segPoisoned_of_backing htier, segWrite_poison htier off hd, contains_clearPoison, decide_eq_true hd, Bool.true_and]

end

/-- A fresh backing reads as zero (R226). -/
theorem memGet_alloc (s : State) (tier : Nat) (units : List Nat) (size a : Nat) :
    memGet (getBack (alloc s tier units size).2 (alloc s tier units size).1).data a = 0 := by
  rw [getBack, alloc, tget_tset_self]
  rfl

/-! ## What a woken serving loop leaves of a district's segments -/

@[simp] theorem wakeLoop_segs (s : State) (d i : Nat) : (getDist (wakeLoop s d) i).segs = (getDist s i).segs := by
  obtain ⟨l, hl⟩ := getDist_wakeLoop s d i
  rw [hl]

@[simp] theorem wakeLoop_filling (s : State) (d i : Nat) : (getDist (wakeLoop s d) i).filling = (getDist s i).filling := by
  obtain ⟨l, hl⟩ := getDist_wakeLoop s d i
  rw [hl]

@[simp] theorem wakeLoop_gen (s : State) (d i : Nat) : (getDist (wakeLoop s d) i).gen = (getDist s i).gen := by
  obtain ⟨l, hl⟩ := getDist_wakeLoop s d i
  rw [hl]

/-! ## MEM_SEG_SET -/

/-- The segment number that a MEM_SEG_ command names (R224, R238). -/
def segNumber (c : FwReq) : Nat := fld c.payload 7 0

/-- The entry that a MEM_SEG_SET carries. -/
def newEntry (c : FwReq) : Seg := segOf (c.payload.drop 8) 0

/-- A MEM_SEG_SET's arguments are in order: a valid number keeps what R227 fixes, and a free one takes a new entry (R225). -/
def entryArgsOk (c : FwReq) (s : State) : Bool :=
  match tfind (getDist s (cmdDist c)).segs (segNumber c) with
  | some o => sameFixed { newEntry c with bid := o.bid } o && hintOk (getDist s (cmdDist c)) (newEntry c)
  | none => newSegOk s (getDist s (cmdDist c)) (cmdDist c) c.fn (segNumber c) (newEntry c)

/-- The backing that a MEM_SEG_SET needs is free: none on a valid number, none for a flash or shared-cache segment (R226). -/
def entryFits (c : FwReq) (s : State) : Prop :=
  (tfind (getDist s (cmdDist c)).segs (segNumber c)).isSome = true ∨ 3 ≤ (newEntry c).tier ∨
    fits s (newEntry c).tier (placeUnits s (newEntry c).tier (newEntry c).place) (newEntry c).size = true

section
variable {c : FwReq} {s : State}

theorem entryArgsOk_new (hfree : tfind (getDist s (cmdDist c)).segs (segNumber c) = none)
    (hok : newSegOk s (getDist s (cmdDist c)) (cmdDist c) c.fn (segNumber c) (newEntry c) = true) : entryArgsOk c s = true := by
  rw [entryArgsOk, hfree]
  exact hok

theorem entryArgsOk_hint {o : Seg} (hold : tfind (getDist s (cmdDist c)).segs (segNumber c) = some o)
    (hsame : sameFixed { newEntry c with bid := o.bid } o = true) (hhint : hintOk (getDist s (cmdDist c)) (newEntry c) = true) :
    entryArgsOk c s = true := by
  rw [entryArgsOk, hold]
  exact (Bool.and_eq_true _ _).mpr ⟨hsame, hhint⟩

/-- MEM_SEG_SET's own checks, in their order (R224–R227, R244). -/
def entryChecks (c : FwReq) (s : State) : List (Bool × Err) :=
  [(!entryArgsOk c s, badArgument), legalIn s (cmdDist c) setUpStates,
    ((newEntry c).fallback != 0 && !(getDist s (cmdDist c)).serving && !(getDist s (cmdDist c)).approx, conflict 1 (getDist s (cmdDist c)).state),
    flashKeys s ((newEntry c).tier == 3),
    ((tfind (getDist s (cmdDist c)).segs (segNumber c)).isNone && ((newEntry c).tier == 1 || (newEntry c).tier == 2)
      && !fits s (newEntry c).tier (placeUnits s (newEntry c).tier (newEntry c).place) (newEntry c).size, exhausted)]

theorem firstErr_entryChecks (hargs : entryArgsOk c s = true) (hstate : (getDist s (cmdDist c)).state ∈ setUpStates)
    (hfall : (newEntry c).fallback = 0 ∨ (getDist s (cmdDist c)).serving = true ∨ (getDist s (cmdDist c)).approx = true)
    (hkeys : (newEntry c).tier = 3 → (keyErr s).1 = false) (hfits : entryFits c s) : firstErr (entryChecks c s) = none := by
  rw [entryChecks, flashKeys, firstErr_cons, if_neg (by simp [hargs]), firstErr_legalIn hstate, firstErr_cons, if_neg ?fallback, firstErr_cons,
    if_neg ?keys, firstErr_cons, if_neg ?room]
  · rfl
  case fallback => rcases hfall with h | h | h <;> simp [h]
  case keys => simpa using hkeys
  case room =>
    rcases hfits with h | h | h
    · simp [Option.isNone_eq_false_iff.mpr h]
    · have h1 : (newEntry c).tier ≠ 1 := by omega
      have h2 : (newEntry c).tier ≠ 2 := by omega
      simp [h1, h2]
    · simp [h]

theorem memSegSet_acts (h : Sendable specSegSet c s) (hlen : c.payload.length = 40) (hres : zeroAt c.payload segRsvd = true)
    (hpresent : segPresent s (newEntry c) = true) (hargs : entryArgsOk c s = true) (hstate : (getDist s (cmdDist c)).state ∈ setUpStates)
    (hfall : (newEntry c).fallback = 0 ∨ (getDist s (cmdDist c)).serving = true ∨ (getDist s (cmdDist c)).approx = true)
    (hkeys : (newEntry c).tier = 3 → (keyErr s).1 = false) (hfits : entryFits c s) :
    exec (.memSegSet c) s = .next (segSet c (segNumber c) (newEntry c) (wakeLoop s (cmdDist c))) := by
  refine fwStep_acts h ?_
  have hform : (c.payload.length == 40 && zeroAt c.payload segRsvd) = true := by simp [hlen, hres]
  rw [hform, show segPresent s (segOf (c.payload.drop 8) 0) = true from hpresent, firstErr_append, headChecks_pass h, Option.none_or]
  exact firstErr_entryChecks hargs hstate hfall hkeys hfits

/-! What it leaves, from the state in which a serving loop has been woken. -/

theorem pendOf_replyAccepted (cmd : Nat) : pendOf (replyAccepted s c cmd) c cmd = pendOf s c cmd := by
  rw [pendOf, replyAccepted_eq, getFn_modFn_self, pendOf]

/-- A free number of near, board or shared-cache memory: backing is allocated and its zero fill begins (R226, R238). -/
theorem segSet_fills {n : Nat} {e : Seg} (hfree : tfind (getDist s (cmdDist c)).segs n = none) (htier : e.tier ≠ 3) :
    let t := segSet c n e s
    repliesAdd s t c.fn [acceptedReply c 0x0400] ∧ (getDist t (cmdDist c)).segs = (getDist s (cmdDist c)).segs ∧
    (getDist t (cmdDist c)).gen = (getDist s (cmdDist c)).gen ∧
    tfind (getDist t (cmdDist c)).filling n = some ({ e with bid := s.nextBid }, pendOf s c 0x0400) ∧
    (tfind t.backs s.nextBid).map (fun b => (b.size, b.data)) = some (e.size, []) := by
  have hbid : (replyAccepted s c 0x0400).nextBid = s.nextBid := replyAccepted_nextBid s c _
  have hdist := getDist_replyAccepted s c 0x0400 (cmdDist c)
  simp only [segSet, hfree, if_neg htier, alloc, hbid, pendOf_replyAccepted, getDist_modDist_self]
  refine ⟨replyAccepted_adds s c _, congrArg Dist.segs hdist, congrArg Dist.gen hdist, tfind_tset_self _ _ _, ?_⟩
  rw [modDist_backs, tfind_tset_self]
  rfl

/-- A free number of flash: the entry is installed at once (R227). -/
theorem segSet_maps {n : Nat} {e : Seg} (hfree : tfind (getDist s (cmdDist c)).segs n = none) (htier : e.tier = 3) :
    segSet c n e s = replyOk (installSeg s (cmdDist c) n e) c 0x0400 [] := by
  simp only [segSet, hfree, htier, if_true]

/-- A hint changed: the entry is installed and keeps its backing (R227). -/
theorem segSet_changes {n : Nat} {e o : Seg} (hold : tfind (getDist s (cmdDist c)).segs n = some o) (hne : { e with bid := o.bid } ≠ o) :
    segSet c n e s = replyOk (installSeg s (cmdDist c) n { e with bid := o.bid }) c 0x0400 [] := by
  simp only [segSet, hold, if_neg hne]

end

theorem getDist_installSeg (s : State) (d n : Nat) (e : Seg) :
    getDist (installSeg s d n e) d = { getDist s d with segs := tset (getDist s d).segs n e, gen := (getDist s d).gen + 1 } :=
  getDist_modDist_self s d _

/-! ## MEM_SEG_ZERO_FILL_DONE -/

/-- The zero fill's end installs the entry and answers its command (R238). -/
theorem fillDone_installs {s : State} {d n : Nat} {e : Seg} {p : Pend} (h : tfind (getDist s d).filling n = some (e, p))
    (hepoch : (getFn s p.req.fn).epoch = p.epoch) :
    let t := fillDone d n s
    tfind (getDist t d).segs n = some e ∧ tfind (getDist t d).filling n = none ∧ (getDist t d).gen = (getDist s d).gen + 1 ∧
    repliesAdd s t p.req.fn [doneReply p 0 0 []] ∧ t.backs = s.backs := by
  rw [fillDone, h]
  dsimp only
  rw [getDist_finishOk, getDist_installSeg, getDist_modDist_self]
  exact ⟨tfind_tset_self _ _ _, tfind_tdel_self _ _, rfl, finish_adds (installSeg (modDist s d _) d n e) p 0 0 [] hepoch, finishOk_backs _ p []⟩

/-! ## MEM_SEG_CLEAR -/

/-- A release changes the backings alone. -/
theorem release_eq (s : State) (b : Nat) : release s b = { s with backs := (release s b).backs } := by
  unfold release
  split <;> rfl

/-- The district without a segment: an entry of the shared cache leaves its written pages counted (R377). -/
def withoutSeg (s : State) (n : Nat) (e : Seg) (x : Dist) : Dist :=
  { x with segs := tdel x.segs n, gen := x.gen + 1, gone := x.gone + if e.tier = 4 then (getBack s e.bid).live.length else 0 }

theorem segClear_listed {s : State} {d n : Nat} {e : Seg} (h : tfind (getDist s d).segs n = some e) :
    segClear s d n = if e.tier = 3 then modDist s d (withoutSeg s n e) else release (modDist s d (withoutSeg s n e)) e.bid := by
  simp only [segClear, h]
  rfl

theorem segClear_absent {s : State} {d n : Nat} (h : tfind (getDist s d).segs n = none) : segClear s d n = s := by
  simp only [segClear, h]

/-- A segment's clear changes its own district and the backings: no function, no volume. -/
theorem segClear_keeps (s : State) (d n : Nat) : (segClear s d n).fns = s.fns ∧ (segClear s d n).flash = s.flash := by
  unfold segClear
  split
  · dsimp only
    split
    · exact ⟨rfl, rfl⟩
    · rw [release_eq]
      exact ⟨rfl, rfl⟩
  · exact ⟨rfl, rfl⟩

theorem getDist_segClear {s : State} {d n : Nat} {e : Seg} (h : tfind (getDist s d).segs n = some e) :
    getDist (segClear s d n) d = withoutSeg s n e (getDist s d) := by
  rw [segClear_listed h]
  split
  · exact getDist_modDist_self s d _
  · rw [release_eq]
    exact getDist_modDist_self s d _

/-- A clear releases its number alone; only a clear of a valid entry advances the generation (R227). -/
theorem segClear_clears (s : State) (d n : Nat) :
    tfind (getDist (segClear s d n) d).segs n = none ∧
    (∀ i, i ≠ n → tfind (getDist (segClear s d n) d).segs i = tfind (getDist s d).segs i) ∧
    ((tfind (getDist s d).segs n).isSome = true → (getDist (segClear s d n) d).gen = (getDist s d).gen + 1) := by
  cases h : tfind (getDist s d).segs n with
  | none => rw [segClear_absent h]; exact ⟨h, fun _ _ => rfl, fun hsome => by simp at hsome⟩
  | some e => rw [getDist_segClear h]; exact ⟨tfind_tdel_self _ _, fun i hi => tfind_tdel_ne hi _, fun _ => rfl⟩

theorem memSegClear_acts {c : FwReq} {s : State} (h : Sendable specSegClear c s) (hform : segForm c.payload = true)
    (hstate : (getDist s (cmdDist c)).state ∈ setUpStates)
    (hsubst : ∀ x ∈ (getDist s (cmdDist c)).segs, x.1 ≠ segNumber c → x.2.fallback = 1 → x.2.subst ≠ segNumber c) :
    exec (.memSegClear c) s = .next (replyOk (segClear (wakeLoop s (cmdDist c)) (cmdDist c) (segNumber c)) c 0x0401 []) := by
  refine fwStep_district_acts h rfl hform ?_
  have hnone : ((getDist s (cmdDist c)).segs.any fun e => e.1 != segNumber c && e.2.fallback == 1 && e.2.subst == segNumber c) = false := by
    simpa [and_assoc] using hsubst
  rw [segNumber] at hnone
  rw [hnone, Bool.false_and, firstErr_cons, if_neg (by decide), firstErr_legalIn hstate]
  rfl

/-- A clear answers OK, and a flash volume stays (R226, R227). -/
theorem replyOk_clears (s : State) (c : FwReq) (d n : Nat) :
    let t := replyOk (segClear (wakeLoop s d) d n) c 0x0401 []
    tfind (getDist t d).segs n = none ∧ (∀ i, i ≠ n → tfind (getDist t d).segs i = tfind (getDist s d).segs i) ∧
    repliesAdd s t c.fn [okReply c 0x0401 []] ∧ t.flash = s.flash ∧
    ((tfind (getDist s d).segs n).isSome = true → (getDist t d).gen = (getDist s d).gen + 1) := by
  obtain ⟨hfns, hflash⟩ := segClear_keeps (wakeLoop s d) d n
  obtain ⟨hgone, hothers, hgen⟩ := segClear_clears (wakeLoop s d) d n
  have hadds := replyOk_adds (segClear (wakeLoop s d) d n) c 0x0401 []
  rw [repliesAdd, getFn_congr hfns] at hadds
  rw [wakeLoop_segs, wakeLoop_gen] at hgen
  rw [wakeLoop_segs] at hothers
  dsimp only
  rw [getDist_replyOk]
  exact ⟨hgone, hothers, repliesAdd_wakeLoop.mp hadds, (replyOk_flash _ _ _ _).trans (hflash.trans (wakeLoop_flash s d)), hgen⟩

/-! ## MEM_SEG_INFO -/

/-- What MEM_SEG_INFO reports: the entry, or zeros for a free number (R238). -/
def entryReport : Option Seg → Bytes
  | some e => segBytes e
  | none => zeros 32

theorem memSegInfo_acts {c : FwReq} {s : State} (h : Sendable specSegInfo c s) (hform : segForm c.payload = true)
    (hstate : (getDist s (cmdDist c)).state ∈ anyState) :
    exec (.memSegInfo c) s =
      .next (replyOk (wakeLoop s (cmdDist c)) c 0x0402 (entryReport (tfind (getDist s (cmdDist c)).segs (segNumber c)))) := by
  refine (fwStep_district_acts h rfl hform (firstErr_legalIn hstate _)).trans ?_
  rw [wakeLoop_segs, segNumber]
  cases tfind (getDist s (cmdDist c)).segs (fld c.payload 7 0) <;> rfl

/-- A new entry installed answers OK and advances the entry generation (R227). -/
theorem replyOk_installs (s : State) (c : FwReq) (d n : Nat) (e : Seg) (p : Bytes) :
    let t := replyOk (installSeg (wakeLoop s d) d n e) c 0x0400 p
    repliesAdd s t c.fn [okReply c 0x0400 p] ∧ tfind (getDist t d).segs n = some e ∧ (getDist t d).gen = (getDist s d).gen + 1 ∧
    t.backs = s.backs := by
  dsimp only
  rw [getDist_replyOk, getDist_installSeg, wakeLoop_gen]
  exact ⟨repliesAdd_wakeLoop.mp (replyOk_modDist_adds _ _ _ _ _ _), tfind_tset_self _ _ _, rfl, (replyOk_backs _ _ _ _).trans (wakeLoop_backs s d)⟩

/-- Settles O25: what a write leaves, then command by command. -/
theorem segmentsHoldBytes : Obligations.SegmentsHoldBytes := by
  unfold Obligations.SegmentsHoldBytes
  refine ⟨fun s e off b htier hwf => ⟨fun i hi => segByte_segWrite_in htier hwf off hi, fun a ha => segByte_segWrite_out htier ha, ?_,
    segPoisoned_segWrite htier off b, fun k hk => getBack_segWrite_ne s e off b hk, memGet_alloc s⟩, fun c s => ?_⟩
  · rw [segWrite_data htier]
    exact memWrite_wf b off hwf
  intro d n e
  have hfreeWoken : tfind (getDist (wakeLoop s d) d).segs n = tfind (getDist s d).segs n := by rw [wakeLoop_segs]
  refine ⟨fun h hlen hres hpresent hstate hfall hkeys => ⟨fun hfree hok htier hroom => ?_, fun hfree hok htier => ?_, fun o hold hsame hhint hne => ?_⟩,
    fun k m g p hfill hepoch => ⟨_, rfl, fillDone_installs hfill hepoch⟩, fun h hform hstate hsubst => ?_, fun h hform hstate => ?_⟩
  · have hfits : entryFits c s := .inr (hroom.imp (fun h4 => by rw [newEntry, h4]; decide) id)
    obtain ⟨hreply, hsegs, hgen, hfill, hback⟩ := segSet_fills (hfreeWoken.trans hfree) htier
    rw [pendOf_wakeLoop, wakeLoop_nextBid] at hfill
    rw [wakeLoop_nextBid] at hback
    exact ⟨_, memSegSet_acts h hlen hres hpresent (entryArgsOk_new hfree hok) hstate hfall hkeys hfits, repliesAdd_wakeLoop.mp hreply,
      hsegs.trans (wakeLoop_segs s d d), hgen.trans (wakeLoop_gen s d d), hfill, hback⟩
  · have hfits : entryFits c s := .inr (.inl (Nat.le_of_eq htier.symm))
    obtain ⟨hreply, hseg, hgen, -⟩ := replyOk_installs s c d n e []
    refine ⟨_, memSegSet_acts h hlen hres hpresent (entryArgsOk_new hfree hok) hstate hfall hkeys hfits, ?_⟩
    rw [show segSet c (segNumber c) (newEntry c) _ = _ from segSet_maps (hfreeWoken.trans hfree) htier]
    exact ⟨hreply, hseg, hgen⟩
  · have hfits : entryFits c s := .inl (Option.isSome_iff_exists.mpr ⟨o, hold⟩)
    refine ⟨_, memSegSet_acts h hlen hres hpresent (entryArgsOk_hint hold hsame hhint) hstate hfall hkeys hfits, ?_⟩
    rw [show segSet c (segNumber c) (newEntry c) _ = _ from segSet_changes (hfreeWoken.trans hold) hne]
    exact replyOk_installs s c d n { e with bid := o.bid } []
  · exact ⟨_, memSegClear_acts h hform hstate hsubst, replyOk_clears s c d n⟩
  · refine ⟨_, memSegInfo_acts h hform hstate, ?_, ?_, ?_⟩
    · exact repliesAdd_wakeLoop.mp (replyOk_adds _ _ _ _)
    · rw [getDist_replyOk, wakeLoop_segs]
    · exact (replyOk_backs _ _ _ _).trans (wakeLoop_backs s d)

end Sys2Proof.Machine
end

section
/-! Moves between segments and flash volumes (R235, R238, R240, R244): what a wake from RETAIN and a pass through staging leave of the
memory, and what the MEM_MOVE and MEM_VOL_ commands and the tier-move engine change. -/

namespace Sys2Proof.Machine

/-! ## What a wake from RETAIN leaves -/

/-- The memory, the districts, the time and each function's count of resets. -/
def standing (s : State) : AMap Backing × AMap Dist × BitVec 64 × (Nat → Nat) := (s.backs, s.dists, s.now, fun f => (getFn s f).epoch)

theorem standing_congr {s t : State} (hb : t.backs = s.backs) (hd : t.dists = s.dists) (hn : t.now = s.now) (hf : t.fns = s.fns) :
    standing t = standing s := by
  simp only [standing, getFn, hb, hd, hn, hf]

theorem sendFree_standing (s : State) (p typ : Nat) (b : Bytes) : standing (sendFree s p typ b) = standing s := by
  unfold sendFree
  exact standing_congr rfl rfl rfl rfl

/-- Link training goes on at the ports alone (R260). -/
theorem startTraining_standing (s : State) (p : Nat) : standing (startTraining s p) = standing s := by
  unfold startTraining attempt sendIdent losePort
  exact (sendFree_standing _ _ _ _).trans (standing_congr rfl rfl rfl rfl)

theorem queueReply_standing (s : State) (e : Nat) (r : Reply) : standing (queueReply s e r) = standing s := by
  have hepoch (f : Nat) : (getFn (queueReply s e r) f).epoch = (getFn s f).epoch := by
    unfold queueReply
    split
    · by_cases h : f = r.req.fn
      · rw [h, getFn_modFn_self]
      · rw [getFn_modFn_ne _ _ h]
    · rfl
  simp only [standing, queueReply_backs, queueReply_dists, queueReply_now, hepoch]

theorem emit_standing (s : State) (a b c d : Nat) (l : List Nat) : standing (emit s a b c d l) = standing s := by
  simp only [standing, emit_backs, emit_dists, emit_now, emit_fn_epoch]

theorem retainExit_standing (since : Nat) (s : State) : standing (retainExit since s) = standing s := by
  unfold retainExit
  dsimp only
  rw [emit_standing, foldl_keeps startTraining_standing]
  split
  · rw [finishOk, finish, queueReply_standing]
    exact standing_congr rfl rfl rfl rfl
  · exact standing_congr rfl rfl rfl rfl

theorem autoWake_standing (s : State) : standing (autoWake s) = standing s := by
  unfold autoWake
  split
  · exact retainExit_standing _ s
  · rfl

/-! ## MEM_MOVE -/

@[simp] theorem wakeLoop_moves (s : State) (d i : Nat) : (getDist (wakeLoop s d) i).moves = (getDist s i).moves := by
  obtain ⟨l, hl⟩ := getDist_wakeLoop s d i
  rw [hl]

/-- The move that a MEM_MOVE between two segments asks for (R235, R238). -/
def askedMove (c : FwReq) (a b : Seg) (s : State) : MemMove :=
  { pend := pendOf s c 0x0403, src := a, dst := b, srcOff := fld c.payload 127 64, dstOff := fld c.payload 191 128, len := fld c.payload 255 192,
    at_ := time s }

/-- A move uses flash, the shared cache or a cached segment, which RETAIN powers off (R440). -/
def reachesAway (a b : Seg) : Bool := (decide (3 ≤ a.tier) || a.cached) || (decide (3 ≤ b.tier) || b.cached)

theorem reachesAway_iff (a b : Seg) : reachesAway a b = true ↔ 3 ≤ a.tier ∨ 3 ≤ b.tier ∨ a.cached = true ∨ b.cached = true := by
  simp only [reachesAway, Bool.or_eq_true, decide_eq_true_eq, or_assoc]
  exact or_congr Iff.rfl or_left_comm

/-- The effect of a MEM_MOVE that passes its checks: ACCEPTED, and the move waits for the engine (R238). -/
def moveQueued (c : FwReq) (a b : Seg) (s : State) : State :=
  let s := replyAccepted (if reachesAway a b then autoWake s else s) c 0x0403
  modDist s (cmdDist c) fun x => { x with moves := x.moves ++ [askedMove c a b s] }

section
variable {c : FwReq} {s : State} {a b : Seg}

/-- MEM_MOVE's arguments are in order: whole granules within both segments, and whole extents into flash (R235, R238). -/
structure MoveArgs (c : FwReq) (s : State) (a b : Seg) : Prop where
  src : tfind (getDist s (cmdDist c)).segs (fld c.payload 7 0) = some a
  dst : tfind (getDist s (cmdDist c)).segs (fld c.payload 15 8) = some b
  lenPos : 0 < fld c.payload 255 192
  lenWhole : fld c.payload 255 192 % 64 = 0
  srcFits : fld c.payload 127 64 + fld c.payload 255 192 ≤ a.size
  dstFits : fld c.payload 191 128 + fld c.payload 255 192 ≤ b.size
  aligned : b.tier = 3 → fld c.payload 191 128 % 65536 = 0 ∧ fld c.payload 255 192 % 65536 = 0

theorem memMove_acts (h : Sendable specMemMove c s) (hlen : c.payload.length = 40) (hres : zeroAt c.payload [(63, 16), (319, 256)] = true)
    (hargs : MoveArgs c s a b) (hkeys : a.tier = 3 ∨ b.tier = 3 → (keyErr s).1 = false)
    (hretain : reachesAway a b = true → (retainBlocks s).1 = false) (hroom : b.tier = 3 → s.flash.readOnly = false)
    (hstate : (getDist s (cmdDist c)).state ∈ setUpStates) : exec (.memMove c) s = .next (moveQueued c a b (wakeLoop s (cmdDist c))) := by
  obtain ⟨hsrc, hdst, hpos, hwhole, hsf, hdf, haligned⟩ := hargs
  have hform : (c.payload.length == 40 && zeroAt c.payload [(63, 16), (319, 256)]) = true := by simp [hlen, hres]
  refine (fwStep_district_acts h rfl hform ?_).trans ?_
  · rw [hsrc, hdst, firstErr_cons, if_neg ?args, firstErr_legalIn hstate, flashKeys, firstErr_cons, if_neg ?keys, firstErr_cons, if_neg ?retain,
      firstErr_cons, if_neg ?room]
    · rfl
    case args => simpa [Nat.pos_iff_ne_zero.mp hpos, hwhole, hsf, hdf] using haligned
    case keys => simpa using hkeys
    case retain =>
      intro hblocks
      obtain ⟨haway, hheld⟩ := (Bool.and_eq_true _ _).mp hblocks
      rw [hretain haway] at hheld
      exact absurd hheld Bool.false_ne_true
    case room => simpa using hroom
  · simp only [hsrc, hdst]
    rfl

end

theorem getDist_of_standing {s t : State} (h : standing t = standing s) (d : Nat) : getDist t d = getDist s d :=
  getDist_congr (congrArg (·.2.1) h) d

theorem askedMove_of_standing {s t : State} (h : standing t = standing s) (c : FwReq) (a b : Seg) : askedMove c a b t = askedMove c a b s := by
  have hepoch : (getFn t c.fn).epoch = (getFn s c.fn).epoch := congrFun (congrArg (·.2.2.2) h) c.fn
  have hnow : t.now = s.now := congrArg (·.2.2.1) h
  simp only [askedMove, pendOf, time, hepoch, hnow]

theorem askedMove_wakeLoop (c : FwReq) (a b : Seg) (s : State) (d : Nat) : askedMove c a b (wakeLoop s d) = askedMove c a b s := by
  rw [askedMove, pendOf_wakeLoop, time, wakeLoop_now, askedMove, time]

/-- The move waits behind the others of its district, and no memory changes yet (R238). -/
theorem moveQueued_waits (c : FwReq) (a b : Seg) (s : State) : let t := moveQueued c a b s
    acceptedReply c 0x0403 ∈ (getFn t c.fn).replies ∧ t.backs = s.backs ∧
    (getDist t (cmdDist c)).moves = (getDist s (cmdDist c)).moves ++ [askedMove c a b s] := by
  have hstand : standing (if reachesAway a b then autoWake s else s) = standing s := by
    split
    · exact autoWake_standing s
    · rfl
  unfold moveQueued
  generalize (if reachesAway a b then autoWake s else s) = u at hstand ⊢
  have haccepted : standing (replyAccepted u c 0x0403) = standing s := (queueReply_standing u _ _).trans hstand
  refine ⟨?_, congrArg (·.1) haccepted, ?_⟩
  · rw [getFn_modDist, replyAccepted_adds u c 0x0403]
    exact List.mem_append_right _ (List.mem_singleton_self _)
  · rw [getDist_modDist_self, getDist_of_standing haccepted, askedMove_of_standing haccepted]

/-! ## The tier-move engine carries an extent -/

/-- What a pass through staging leaves: the backings, the keys, the districts, the volumes, the writes in flight, and whom the engine
served last. -/
def medium (s : State) : AMap Backing × Sec × AMap Dist × AMap Vol × List FlashOp × Nat :=
  (s.backs, s.sec, s.dists, s.flash.vols, s.flash.inflight, s.flash.rr)

/-- An extent that enters staging changes staging alone (R236). -/
theorem stageIn_eq (s : State) (v e : Nat) : ∃ l, stageIn s v e = { s with flash := { s.flash with staging := l } } := ⟨_, rfl⟩

theorem stageIn_medium (s : State) (v e : Nat) : medium (stageIn s v e) = medium s := by
  obtain ⟨l, hl⟩ := stageIn_eq s v e
  rw [hl]
  rfl

theorem useStaged_medium (s : State) (e : Seg) (off n : Nat) : medium (useStaged s e off n) = medium s := by
  unfold useStaged
  split
  · exact foldl_keeps (fun u x => stageIn_medium u e.volume x) _ s
  · rfl

/-! What reads a segment sees the backings, the volumes and, of flash, the keys alone. -/

section
variable {s t : State}

theorem getBack_congr (hbacks : t.backs = s.backs) (b : Nat) : getBack t b = getBack s b := by rw [getBack, hbacks, getBack]

theorem getVol_congr (hvols : t.flash.vols = s.flash.vols) (v : Nat) : getVol t v = getVol s v := by rw [getVol, hvols, getVol]

theorem getExtent_congr (hvols : t.flash.vols = s.flash.vols) (v e : Nat) : getExtent t v e = getExtent s v e := by
  unfold getExtent sealOf
  rw [getVol_congr hvols]

variable (hbacks : t.backs = s.backs) (hvols : t.flash.vols = s.flash.vols)
include hbacks hvols

theorem segByte_congr (e : Seg) (off : Nat) : segByte t e off = segByte s e off := by
  unfold segByte
  rw [getExtent_congr hvols, getBack_congr hbacks]

theorem segRead_congr (e : Seg) (off n : Nat) : segRead t e off n = segRead s e off n := by
  simp only [segRead, segByte_congr hbacks hvols, getBack_congr hbacks]

theorem segPoisoned_congr (hsec : t.sec = s.sec) (e : Seg) (g : Nat) : segPoisoned t e g = segPoisoned s e g := by
  unfold segPoisoned flashReadable
  rw [getExtent_congr hvols, getBack_congr hbacks, hvols, hsec]

end

theorem segWrite_backs_congr {s t : State} (h : t.backs = s.backs) (e : Seg) (off : Nat) (b : Bytes) :
    (segWrite t e off b).backs = (segWrite s e off b).backs := by
  unfold segWrite
  split
  · exact h
  · simp only [modBack, getBack, h]

theorem segWrite_flash (s : State) (e : Seg) (off : Nat) (b : Bytes) : (segWrite s e off b).flash = s.flash := by
  unfold segWrite
  split <;> rfl

theorem segMark_nil (s : State) (e : Seg) : segMark s e [] = s := if_pos (.inr rfl)

/-- A move between two different segments keeps no copy of its source; one that does differs in the copy alone (R238). -/
theorem moveSnapshot_of_ne {s : State} {m : MemMove} (h : m.src.dbase ≠ m.dst.dbase) : moveSnapshot s m = m := if_neg fun hc => h hc.2.1

theorem moveSnapshot_eq (s : State) (m : MemMove) : ∃ q, moveSnapshot s m = { m with snapshot := q } := by
  unfold moveSnapshot
  split
  · exact ⟨_, rfl⟩
  · exact ⟨m.snapshot, rfl⟩

/-- Bytes that the engine carries of a move at a time: an extent, or what remains of the move (R235). -/
def pieceLen (m : MemMove) : Nat := min 65536 (m.len - m.done)

/-- The state from which the engine writes a piece of a move: the district served, the move moved on, its source used in staging. -/
def carrying (s : State) (d : Nat) (old m : MemMove) : State :=
  useStaged (setMove (servedDist s d) d old { m with done := m.done + pieceLen m }) m.src (m.srcOff + m.done) (pieceLen m)

theorem carrying_keeps (s : State) (d : Nat) (old m : MemMove) : let u := carrying s d old m
    u.backs = s.backs ∧ u.sec = s.sec ∧ u.dists = (setMove s d old { m with done := m.done + pieceLen m }).dists ∧
    u.flash.vols = s.flash.vols ∧ u.flash.inflight = s.flash.inflight ∧ u.flash.rr = d := by
  have hkept : medium (carrying s d old m) = medium (setMove (servedDist s d) d old { m with done := m.done + pieceLen m }) :=
    useStaged_medium _ m.src (m.srcOff + m.done) (pieceLen m)
  simp only [medium, Prod.mk.injEq] at hkept
  exact hkept

/-- A write into flash starts: it waits for its program, and no backing changes (R241). -/
theorem writeTo_flash_starts {s : State} {e : Seg} (htier : e.tier = 3) (hready : volReady s e.volume = true) (off : Nat) (b : Bytes)
    (gs : List Nat) :
    let t := writeTo s e off b gs
    (∃ w, t.flash.inflight = s.flash.inflight ++ [⟨e.volume, e.firstExt + off / 65536, some w⟩]) ∧ t.backs = s.backs := by
  simp only [writeTo, if_pos htier, if_pos hready]
  split
  · obtain ⟨l, hl⟩ := stageIn_eq _ e.volume (e.firstExt + off / 65536)
    rw [hl]
    exact ⟨⟨_, rfl⟩, rfl⟩
  · exact ⟨⟨_, rfl⟩, rfl⟩

section
variable {s : State} {d : Nat} {m : MemMove} (hpick : pickMove s d = some m)
include hpick

/-- The engine carries the next piece of the move that it serves for the district (R235). -/
theorem extentTransfer_carries (hopen : m.dst.tier = 3 → s.flash.readOnly = false) :
    extentTransfer d s = moveExtent (carrying s d m (moveSnapshot (servedDist s d) m)) (moveSnapshot (servedDist s d) m)
      (pieceLen (moveSnapshot (servedDist s d) m)) := by
  obtain ⟨q, hq⟩ := moveSnapshot_eq (servedDist s d) m
  have hwritable : ¬((moveSnapshot (servedDist s d) m).dst.tier = 3 ∧ (servedDist s d).flash.readOnly = true) := by
    rw [hq]
    exact fun ⟨htier, hread⟩ => Bool.false_ne_true ((hopen htier).symm.trans hread)
  simp only [extentTransfer, hpick]
  exact if_neg hwritable

/-- A piece of a move into near, board or shared-cache memory is written there at once (R235, R238). -/
theorem extentTransfer_writes (htier : m.dst.tier ≠ 3) (hne : m.src.dbase ≠ m.dst.dbase) (hsnap : m.snapshot = none)
    (hclean : ∀ g, segPoisoned s m.src g = false) :
    extentTransfer d s =
      segWrite (carrying s d m m) m.dst (m.dstOff + m.done) (segRead s m.src (m.srcOff + m.done) (pieceLen m)) := by
  obtain ⟨hbacks, hsec, -, hvols, -, -⟩ := carrying_keeps s d m m
  have hpois : segPoison (carrying s d m m) m.src (m.srcOff + m.done) (pieceLen m) = [] :=
    List.filter_eq_nil_iff.mpr fun g _ => by rw [segPoisoned_congr hbacks hvols hsec, hclean]; exact Bool.false_ne_true
  rw [extentTransfer_carries hpick (absurd · htier), moveSnapshot_of_ne hne]
  simp only [moveExtent, hsnap, hpois, List.flatMap_nil, writeTo, if_neg htier, segMark_nil, segRead_congr hbacks hvols]

/-- A piece of a move into flash is an extent write that starts (R238, R241). -/
theorem extentTransfer_starts_write (htier : m.dst.tier = 3) (hopen : s.flash.readOnly = false) (hready : volReady s m.dst.volume = true) :
    let t := extentTransfer d s
    (∃ w, t.flash.inflight = s.flash.inflight ++ [⟨m.dst.volume, m.dst.firstExt + (m.dstOff + m.done) / 65536, some w⟩]) ∧
    t.backs = s.backs := by
  obtain ⟨q, hq⟩ := moveSnapshot_eq (servedDist s d) m
  rw [extentTransfer_carries hpick fun _ => hopen, hq]
  obtain ⟨hbacks, -, -, hvols, hinflight, -⟩ := carrying_keeps s d m { m with snapshot := q }
  have hready' : volReady (carrying s d m { m with snapshot := q }) m.dst.volume = true := by rw [volReady, hvols]; exact hready
  obtain ⟨⟨w, hw⟩, hkept⟩ := writeTo_flash_starts htier hready' (m.dstOff + m.done) _ _
  exact ⟨⟨w, hw.trans (congrArg (· ++ _) hinflight)⟩, hkept.trans hbacks⟩

end

/-- The only move of a district, moved on by a piece that is written at once. -/
theorem extentTransfer_advances {s : State} {d : Nat} {m : MemMove} (hmoves : (getDist s d).moves = [m]) (hpick : pickMove s d = some m)
    (htier : m.dst.tier ≠ 3) (hne : m.src.dbase ≠ m.dst.dbase) (hsnap : m.snapshot = none) (hclean : ∀ g, segPoisoned s m.src g = false) :
    let t := extentTransfer d s
    (getDist t d).moves = [{ m with done := m.done + pieceLen m }] ∧
    t.backs = (segWrite s m.dst (m.dstOff + m.done) (segRead s m.src (m.srcOff + m.done) (pieceLen m))).backs ∧ t.flash.rr = d := by
  obtain ⟨hbacks, -, hdists, -, -, hrr⟩ := carrying_keeps s d m m
  rw [extentTransfer_writes hpick htier hne hsnap hclean]
  refine ⟨?_, segWrite_backs_congr hbacks _ _ _, ?_⟩
  · rw [getDist_congr (segWrite_dists _ _ _ _), getDist_congr hdists, setMove, getDist_modDist_self, hmoves]
    simp
  · rw [segWrite_flash]
    exact hrr

/-! ## MEM_MOVE_DONE -/

/-- A move whose last byte is in place is gone and answered (R238). -/
theorem moveDone_ends {s : State} {d : Nat} {m : MemMove} (hmoves : (getDist s d).moves = [m]) (hdone : m.len ≤ m.done) (htier : m.dst.tier ≠ 3)
    (hepoch : (getFn s m.pend.req.fn).epoch = m.pend.epoch) : let t := moveDone d s
    (getDist t d).moves = [] ∧ repliesAdd s t m.pend.req.fn [doneReply m.pend 0 0 []] := by
  have hfind : (getDist s d).moves.find? (fun m => m.len ≤ m.done && moveAcked s m) = some m := by simp [hmoves, hdone, moveAcked, htier]
  have hgone : (getDist (finishOk (modDist s d fun x => { x with moves := x.moves.erase m }) m.pend []) d).moves = [] := by
    rw [getDist_finishOk, getDist_modDist_self, hmoves]
    simp
  simp only [moveDone, hfind]
  exact ⟨hgone, finish_adds (modDist s d _) m.pend 0 0 [] hepoch⟩

/-! ## Volumes -/

theorem getVol_modVol_self {s : State} {v : Nat} (h : thas s.flash.vols v = true) (g : Vol → Vol) : getVol (modVol s v g) v = g (getVol s v) := by
  rw [modVol, if_pos h]
  exact tget_tset_self _ _ _ _

theorem getFn_modVol (s : State) (v : Nat) (g : Vol → Vol) (f : Nat) : getFn (modVol s v g) f = getFn s f := by
  unfold modVol
  split <;> rfl

theorem thas_of_volReady {s : State} {v : Nat} (h : volReady s v = true) : thas s.flash.vols v = true := by
  rw [volReady] at h
  cases hv : tfind s.flash.vols v with
  | none => rw [hv] at h; exact absurd h Bool.false_ne_true
  | some x => rw [thas, hv]; rfl

/-- A volume that does not exist has no extent (R240). -/
theorem getExtent_absent {s : State} {v : Nat} (h : tfind s.flash.vols v = none) (e : Nat) : getExtent s v e = {} := by
  simp [getExtent, getVol, tget, h, tfind]

section
variable {c : FwReq} {s : State}

/-- The effect of a MEM_VOL_CREATE that passes its checks: ACCEPTED, and a volume whose zero contents are not yet acknowledged, under a
nonce left open (R240, R244). -/
def volBegun (c : FwReq) (s : State) : State :=
  let s := replyAccepted s c 0x0404
  let r := freshNat s
  { r.2 with flash := { r.2.flash with
    vols := tset r.2.flash.vols (fld c.payload 31 0)
      { owner := fld c.payload 39 32, extents := fld c.payload 95 64, creating := some (pendOf s c 0x0404), nonce := r.1 % 2 ^ 64 } } }

theorem memVolCreate_acts (h : Sendable specVolCreate c s) (hflash : flashPresent s = true) (hlen : c.payload.length = 16)
    (hres : zeroAt c.payload [(63, 40), (127, 96)] = true) (hvol : fld c.payload 31 0 ≠ 0) (howner : fld c.payload 39 32 < 32)
    (hext : 0 < fld c.payload 95 64) (hfree : tfind s.flash.vols (fld c.payload 31 0) = none) (hkeys : (keyErr s).1 = false)
    (hopen : s.flash.readOnly = false) (hroom : usedExtents s + fld c.payload 95 64 ≤ flashExtents s) :
    exec (.memVolCreate c) s = .next (volBegun c s) := by
  refine fwStep_acts h ?_
  have hform : (c.payload.length == 16 && zeroAt c.payload [(63, 40), (127, 96)]) = true := by simp [hlen, hres]
  rw [hform, hflash, firstErr_append, headChecks_pass h, Option.none_or, firstErr_cons, if_neg ?args, flashKeys, firstErr_cons, if_neg ?keys,
    firstErr_cons, if_neg ?room]
  · rfl
  case args => simp [hvol, howner, Nat.pos_iff_ne_zero.mp hext, thas, hfree]
  case keys => simp [hkeys]
  case room => simp [hopen, hroom]

theorem volBegun_creates (c : FwReq) (s : State) : let t := volBegun c s; let v := fld c.payload 31 0
    repliesAdd s t c.fn [acceptedReply c 0x0404] ∧ (getVol t v).creating = some (pendOf s c 0x0404) ∧
    (getVol t v).owner = fld c.payload 39 32 ∧ (getVol t v).extents = fld c.payload 95 64 ∧ (getVol t v).data = [] := by
  have hvol : getVol (volBegun c s) (fld c.payload 31 0) = _ := tget_tset_self _ _ _ _
  dsimp only
  rw [hvol, pendOf_replyAccepted]
  exact ⟨replyAccepted_adds s c _, rfl, rfl, rfl, rfl⟩

/-- A volume's creation ends: it exists, and its command is answered (R238, R240). -/
theorem volCreated_answers {v : Nat} {x : Vol} {p : Pend} (hvol : tfind s.flash.vols v = some x) (hp : x.creating = some p)
    (hepoch : (getFn s p.req.fn).epoch = p.epoch) : let t := volCreated v s
    (getVol t v).creating = none ∧ repliesAdd s t p.req.fn [doneReply p 0 0 []] := by
  have hadds := finish_adds (modVol s v fun x => { x with creating := none }) p 0 0 [] (by rw [getFn_modVol, hepoch])
  rw [repliesAdd, getFn_modVol] at hadds
  simp only [volCreated, hvol, hp]
  refine ⟨?_, hadds⟩
  rw [getVol_congr (congrArg Flash.vols (finishOk_flash _ _ _)), getVol_modVol_self (by rw [thas, hvol]; rfl)]

theorem memVolDelete_acts (h : Sendable specVolDelete c s) (hflash : flashPresent s = true) (hlen : c.payload.length = 8)
    (hres : fld c.payload 63 32 = 0) (hready : volReady s (fld c.payload 31 0) = true) (hkeys : (keyErr s).1 = false) :
    exec (.memVolDelete c) s = .next (replyOk (volDelete (fld c.payload 31 0) s) c 0x0405 []) := by
  refine fwStep_acts h ?_
  have hform : (c.payload.length == 8 && zeroAt c.payload [(63, 32)]) = true := by simp [hlen, hres, zeroAt]
  rw [hform, hflash, firstErr_append, headChecks_pass h, Option.none_or, hready, flashKeys, hkeys]
  rfl

/-- A deleted volume is gone with everything staged or in flight for it, and none of its bytes reads any more (R244). -/
theorem volDelete_gone {s t : State} {v : Nat} (h : t.flash = (volDelete v s).flash) :
    tfind t.flash.vols v = none ∧ (∀ x ∈ t.flash.staging, x.1 ≠ v) ∧ (∀ o ∈ t.flash.inflight, o.vol ≠ v) ∧
    ∀ e off, flashReadable t v = false ∧ (getExtent t v e).data = [] ∧ memGet (getExtent t v e).data off = 0 := by
  have hnone : tfind t.flash.vols v = none := by rw [h]; exact tfind_tdel_self v _
  rw [h]
  refine ⟨tfind_tdel_self v _, fun x hx => by simpa using (List.mem_filter.mp hx).2, fun o ho => by simpa using (List.mem_filter.mp ho).2,
    fun e off => ?_⟩
  rw [getExtent_absent hnone, flashReadable, thas, hnone]
  exact ⟨Bool.and_false _, rfl, rfl⟩

theorem memVolOwner_acts (h : Sendable specVolOwner c s) (hflash : flashPresent s = true) (hlen : c.payload.length = 8)
    (hres : fld c.payload 63 40 = 0) (hready : volReady s (fld c.payload 31 0) = true) (howner : fld c.payload 39 32 < 32)
    (hkeys : (keyErr s).1 = false) :
    exec (.memVolOwner c) s =
      .next (replyOk (modVol s (fld c.payload 31 0) fun x => { x with owner := fld c.payload 39 32 }) c 0x0406 []) := by
  refine fwStep_acts h ?_
  have hform : (c.payload.length == 8 && zeroAt c.payload [(63, 40)]) = true := by simp [hlen, hres, zeroAt]
  rw [hform, hflash, firstErr_append, headChecks_pass h, Option.none_or, hready, flashKeys, hkeys, decide_eq_false (by omega)]
  rfl

end

/-- A new owner is set at once, and the volume keeps its data (R240). -/
theorem volOwned_answers {c : FwReq} {s : State} {v : Nat} (hready : volReady s v = true) (owner : Nat) :
    let t := replyOk (modVol s v fun x => { x with owner := owner }) c 0x0406 []
    (getVol t v).owner = owner ∧ (getVol t v).data = (getVol s v).data ∧ repliesAdd s t c.fn [okReply c 0x0406 []] := by
  have hadds := replyOk_adds (modVol s v fun x => { x with owner := owner }) c 0x0406 []
  rw [repliesAdd, getFn_modVol] at hadds
  dsimp only
  rw [getVol_congr (congrArg Flash.vols (replyOk_flash _ _ _ _)), getVol_modVol_self (thas_of_volReady hready)]
  exact ⟨rfl, rfl, hadds⟩

/-! ## MEM_FLASH_INFO -/

theorem take_leBytes : ∀ (n k v : Nat), (leBytes (n + k) v).take n = leBytes n v
  | 0, _, _ => List.take_zero
  | n + 1, k, v => by
    rw [Nat.succ_add, leBytes, List.take_succ_cons, take_leBytes n k, leBytes]

theorem leNat_leBytes : ∀ n v : Nat, leNat (leBytes n v) = v % 256 ^ n
  | 0, v => (Nat.mod_one v).symm
  | n + 1, v => by
    rw [leBytes, leNat, leNat_leBytes n, BitVec.toNat_ofNat]
    exact ((congrArg (v % ·) Nat.pow_succ').trans Nat.mod_mul).symm

/-- The first field of a packed payload reads as packed, when it fills whole bytes. -/
theorem fld_pack_first (n v : Nat) (l : List (Nat × Nat)) : fld (pack (4 + n) ((32, v) :: l)) 31 0 = v % 2 ^ 32 := by
  have hbytes : fld (pack (4 + n) ((32, v) :: l)) 31 0 = leNat ((pack (4 + n) ((32, v) :: l)).take 4) / 1 % 2 ^ 32 := rfl
  rw [hbytes, pack, take_leBytes, leNat_leBytes, packNat]
  omega

/-- The number of extents that MEM_FLASH_INFO reports: the tier's, or a volume's (R238). -/
def reportedExtents (s : State) (v : Nat) : Nat := if v = 0 then flashExtents s else (getVol s v).extents

theorem flashExtents_wakeLoop (s : State) (d : Nat) : flashExtents (wakeLoop s d) = flashExtents s := by
  simp only [flashExtents, flashChannels, fittedChannels, wakeLoop_lpSites, wakeLoop_population, wakeLoop_board]

theorem reportedExtents_wakeLoop (s : State) (d v : Nat) : reportedExtents (wakeLoop s d) v = reportedExtents s v := by
  rw [reportedExtents, flashExtents_wakeLoop, getVol_congr (congrArg Flash.vols (wakeLoop_flash s d)), reportedExtents]

/-- The effect of MEM_FLASH_INFO (R238, R243): what it reports of the tier, or of a volume, whose FREE is left open. -/
def flashInfo (c : FwReq) (s : State) : State :=
  let v := fld c.payload 31 0
  let free := if v = 0 then flashExtents s - usedExtents s else (freshNat s).1
  let u := if v = 0 then s else (freshNat s).2
  replyOk u c 0x0407 (pack 32 [(32, reportedExtents u v), (32, free), (16, sparePct u), (16, 0), (32, (eraseCounts u).max?.getD 0),
    (32, (eraseCounts u).sum / max 1 (flashBlocks u)), (96, 0)])

theorem memFlashInfo_acts {c : FwReq} {s : State} (h : Sendable specFlashInfo c s) (hflash : flashPresent s = true)
    (hlen : c.payload.length = 8) (hres : fld c.payload 63 32 = 0) (hvol : fld c.payload 31 0 = 0 ∨ volReady s (fld c.payload 31 0) = true)
    (hstate : (getDist s (cmdDist c)).state ∈ anyState) (hkeys : (keyErr s).1 = false) :
    exec (.memFlashInfo c) s = .next (flashInfo c (wakeLoop s (cmdDist c))) := by
  have hform : (c.payload.length == 8 && zeroAt c.payload [(63, 32)]) = true := by simp [hlen, hres, zeroAt]
  have hvol' : (fld c.payload 31 0 != 0 && !volReady s (fld c.payload 31 0)) = false := by
    rcases hvol with hzero | hready
    · rw [hzero]; rfl
    · rw [hready]; exact Bool.and_false _
  refine fwStep_acts h ?_
  rw [hform, hflash, firstErr_append, headChecks_pass h, Option.none_or, hvol', firstErr_cons, if_neg Bool.false_ne_true,
    firstErr_legalIn hstate, flashKeys, hkeys]
  rfl

/-- MEM_FLASH_INFO answers with 32 bytes whose first field is the number of extents, and leaves the tier as it is. -/
theorem flashInfo_reports (c : FwReq) (s : State) : ∃ b, b.length = 32 ∧ repliesAdd s (flashInfo c s) c.fn [okReply c 0x0407 b] ∧
    (flashInfo c s).flash = s.flash ∧ fld b 31 0 = reportedExtents s (fld c.payload 31 0) % 2 ^ 32 := by
  by_cases hv : fld c.payload 31 0 = 0
  · simp only [flashInfo, if_pos hv]
    exact ⟨_, leBytes_length 32 _, replyOk_adds s c _ _, replyOk_flash _ _ _ _, fld_pack_first 28 _ _⟩
  · simp only [flashInfo, if_neg hv]
    refine ⟨_, leBytes_length 32 _, replyOk_adds (freshNat s).2 c _ _, replyOk_flash _ _ _ _, (fld_pack_first 28 _ _).trans ?_⟩
    rw [reportedExtents, if_neg hv, reportedExtents, if_neg hv]
    rfl

/-- Settles O26: the moves, then the volumes, command by command. -/
theorem volumesAndMovesComplete : Obligations.VolumesAndMovesComplete := by
  unfold Obligations.VolumesAndMovesComplete
  refine ⟨fun c s => ?_, fun c s => ?_⟩
  · refine ⟨fun a b h hlen hres hsrc hdst hflash hkeys hretain hpos hwhole hsf hdf hstate => ?_,
      fun k m hmoves hpick htier hne hsnap hclean => ⟨_, rfl, extentTransfer_advances hmoves hpick htier hne hsnap hclean⟩,
      fun k m hpick htier hopen hready => ⟨_, rfl, extentTransfer_starts_write hpick htier hopen hready⟩, fun k hpick => ?_,
      fun k m hmoves hdone htier hepoch => ⟨_, rfl, moveDone_ends hmoves hdone htier hepoch⟩⟩
    · have hargs : MoveArgs c s a b := ⟨hsrc, hdst, hpos, hwhole, hsf, hdf, fun ht => ⟨(hflash ht).1, (hflash ht).2.1⟩⟩
      refine ⟨_, memMove_acts h hlen hres hargs hkeys (fun ha => hretain ((reachesAway_iff a b).mp ha)) (fun ht => (hflash ht).2.2) hstate, ?_⟩
      obtain ⟨haccepted, hbacks, hmoves⟩ := moveQueued_waits c a b (wakeLoop s (cmdDist c))
      rw [wakeLoop_moves, askedMove_wakeLoop] at hmoves
      exact ⟨haccepted, hbacks.trans (wakeLoop_backs s _), hmoves⟩
    · show Host.Outcome.next (extentTransfer k s) = _
      rw [extentTransfer, hpick]
  · refine ⟨fun h hflash hlen hres hvol howner hext hfree hkeys hopen hroom =>
        ⟨_, memVolCreate_acts h hflash hlen hres hvol howner hext hfree hkeys hopen hroom, volBegun_creates c s⟩,
      fun v x p hvol hp hepoch => ⟨_, rfl, volCreated_answers hvol hp hepoch⟩,
      fun h hflash hlen hres hready hkeys => ⟨_, memVolDelete_acts h hflash hlen hres hready hkeys, ?_⟩,
      fun h hflash hlen hres hready howner hkeys => ⟨_, memVolOwner_acts h hflash hlen hres hready howner hkeys, ?_⟩,
      fun h hflash hlen hres hvol hstate hkeys => ⟨_, memFlashInfo_acts h hflash hlen hres hvol hstate hkeys, ?_⟩⟩
    · obtain ⟨hvols, hstaging, hinflight, hread⟩ := volDelete_gone (replyOk_flash (volDelete _ s) c 0x0405 [])
      exact ⟨hvols, hstaging, hinflight, hread, replyOk_adds (volDelete _ s) c 0x0405 []⟩
    · exact volOwned_answers hready _
    · obtain ⟨b, hlen', hadds, hkept, hfirst⟩ := flashInfo_reports c (wakeLoop s (cmdDist c))
      rw [reportedExtents_wakeLoop] at hfirst
      exact ⟨b, hlen', repliesAdd_wakeLoop.mp hadds, hkept.trans (wakeLoop_flash s _), hfirst⟩

end Sys2Proof.Machine
end

section
/-! The end of a NAND program (R241, R243): an extent write whose volume does not exist leaves nothing to read. -/

namespace Sys2Proof.Machine

/-- A write of a byte to extent 1 of volume 3 that waits for its program. -/
def orphanOp : FlashOp := { vol := 3, ext := 1, write := some { data := [(0, 1)] } }

/-- That write in flight, with the keys available and a fresh block to take it, on a device without any volume. -/
def orphanWrite : State := { State.reset with flash := { inflight := [orphanOp] }, sec := { keys := true } }

/-- The program ends well, and no volume is there to hold the extent (R240). -/
theorem orphanWrite_programmed : tfind (programDone 3 1 0 true orphanWrite).flash.vols 3 = none := by decide

/-- Refutes O27: nothing asks that the write's volume exist, and without its volume a programmed extent reads as unwritten. A volume
alone would not mend the clause: a write sealed under another nonce or place than the volume's extent reads as poison (R244). -/
theorem not_memoryControllerEventsComplete : ¬ Obligations.MemoryControllerEventsComplete := by
  unfold Obligations.MemoryControllerEventsComplete
  rintro ⟨hflash, -⟩
  obtain ⟨-, hprogram, -⟩ := hflash orphanWrite 3 1 0
  obtain ⟨⟨t, ht, hvisible, -⟩, -⟩ := hprogram orphanOp { data := [(0, 1)] } rfl rfl rfl rfl rfl (by decide)
  obtain rfl : programDone 3 1 0 true orphanWrite = t := Host.Outcome.next.inj ht
  rw [getExtent_absent orphanWrite_programmed] at hvisible
  exact absurd hvisible (by decide)

end Sys2Proof.Machine
end

section
/-! What the shared operations on link ports change (R249, R260, R264, R265): a flit sent, a retrain forced, an attempt begun, a
port lost, an ENABLE answered. -/

namespace Sys2Proof.Machine

theorem tfind_tmap {α β : Type} (f : Nat → α → β) (k : Nat) : ∀ m : AMap α, tfind (tmap m f) k = (tfind m k).map (f k)
  | [] => rfl
  | (j, v) :: m => by
    have ih := tfind_tmap f k m
    simp only [tmap] at ih ⊢
    by_cases h : j = k
    · subst h; simp [tfind]
    · simp [tfind, h, ih]

/-- A change of every listed entry that leaves the default reads as a change of every entry. -/
theorem tget_tmap {α : Type} {d : α} {f : Nat → α → α} {k : Nat} (h : f k d = d) (m : AMap α) : tget d (tmap m f) k = f k (tget d m k) := by
  rw [tget, tfind_tmap, tget]
  cases tfind m k with
  | none => exact h.symm
  | some v => rfl

/-- Events log one after another. -/
theorem logs_trans {s t u : State} {k l : List (Nat × Nat × Nat × Nat × List Nat)} (h : logs s t k) (hnow : t.now = s.now) (h' : logs t u l) :
    logs s u (k ++ l) := by
  simp only [logs] at h h' ⊢
  simp [h, h', hnow]

theorem logs_of_emitted {s t : State} (h : t.emitted = s.emitted) : logs s t [] := h.trans (List.append_nil _).symm

theorem linkEvent_links (s : State) (p kind sev : Nat) (l : List Nat) : (linkEvent s p kind sev l).links = s.links := emit_links s _ _ _ _ _

/-- A link event that is not FATAL is logged. -/
theorem linkEvent_logs (s : State) (p kind sev : Nat) (l : List Nat) (h : sev ≠ 3) :
    logs s (linkEvent s p kind sev l) [(0x840 + p, kind, sev, 0xFF, l)] := by
  rw [linkEvent_plain s p kind sev l h]
  rfl

/-! ## A flit sent -/

theorem getPort_sendFree_self (s : State) (p typ : Nat) (b : Bytes) : getPort (sendFree s p typ b) p = reported (getPort s p) (time s) :=
  getPort_modPort_self s p _

theorem sendFree_onlyPort (s : State) (p typ : Nat) (b : Bytes) : onlyPort s (sendFree s p typ b) p := modPort_onlyPort s p _

theorem sendIdent_onlyPort (s : State) (p : Nat) : onlyPort s (sendIdent s p) p := sendFree_onlyPort s p 4 _

/-- The own IDENT leaves on the port (R261). -/
theorem sendIdent_out (s : State) (p : Nat) :
    ∃ f, (sendIdent s p).out = flitOut p f :: s.out ∧ f.typ = 4 ∧ f.payload = identBytes (getPort s p) p := ⟨_, rfl, rfl, rfl⟩

/-! ## A retrain -/

/-- A port in a retrain that a cause has forced (R264). -/
def retraining (x : Port) (cause : Nat) : Port := { x with retrain := some cause, retrains := x.retrains + 1 }

/-- A forced retrain sends the own IDENT, is counted for the risk level and is logged; the port keeps what it carries (R264, R403). -/
theorem retrain_spec (s : State) (p cause : Nat) : let t := retrain s p cause
    getPort t p = reported (retraining (getPort s p) cause) (time s) ∧ onlyPort s t p ∧
    (∃ f, t.out = flitOut p f :: s.out ∧ f.typ = 4 ∧ f.payload = identBytes (getPort s p) p) ∧
    t.health.retrains = s.health.retrains ++ [time s] ∧ logs s t [(0x840 + p, 0x102, 1, 0xFF, [p, cause])] := by
  have heq : retrain s p cause =
      let u := sendIdent (modPort s p fun x => retraining x cause) p
      { u with
        health := { u.health with retrains := u.health.retrains ++ [time s] }
        emitted := u.emitted ++ [⟨s.now, 0x840 + p, 0x102, 1, 0xFF, [p, cause]⟩] } := linkEvent_plain _ _ _ _ _ (by decide)
  have hport : getPort (sendIdent (modPort s p fun x => retraining x cause) p) p = reported (retraining (getPort s p) cause) (time s) := by
    rw [sendIdent, getPort_sendFree_self, getPort_modPort_self]
    rfl
  rw [heq]
  refine ⟨hport, onlyPort_trans (modPort_onlyPort s p _) (sendIdent_onlyPort _ p), ?_, rfl, rfl⟩
  obtain ⟨f, hout, htyp, hpay⟩ := sendIdent_out (modPort s p fun x => retraining x cause) p
  rw [getPort_modPort_self] at hpay
  exact ⟨f, hout, htyp, hpay⟩

/-! ## An attempt -/

/-- A port as an attempt begins: its counters at 0 and the pools of the system channels (R251, R260). -/
def attempting (x : Port) : Port :=
  { clearPort x 1 with
    attempts := x.attempts
    txPools := sysPoolKeys.map fun k => (k, { size := 32 })
    rxPools := sysPoolKeys.map fun k => (k, { size := 32 }) }

theorem attempt_eq (s : State) (p : Nat) : attempt s p = sendIdent (modPort s p attempting) p := rfl

theorem attempt_getPort_self (s : State) (p : Nat) : getPort (attempt s p) p = reported (attempting (getPort s p)) (time s) := by
  rw [attempt_eq, sendIdent, getPort_sendFree_self, getPort_modPort_self]
  rfl

theorem attempt_onlyPort (s : State) (p : Nat) : onlyPort s (attempt s p) p :=
  onlyPort_trans (modPort_onlyPort s p attempting) (sendIdent_onlyPort _ p)

/-- The IDENT of an attempt is the port's own as it stood before (R261). -/
theorem attempt_out (s : State) (p : Nat) :
    ∃ f, (attempt s p).out = flitOut p f :: s.out ∧ f.typ = 4 ∧ f.payload = identBytes (getPort s p) p := by
  obtain ⟨f, hout, htyp, hpay⟩ := sendIdent_out (modPort s p attempting) p
  rw [getPort_modPort_self] at hpay
  exact ⟨f, hout, htyp, hpay⟩

/-! ## A port lost -/

theorem getPort_losePort (s : State) (p st q : Nat) :
    getPort (losePort s p st) q = dropForwards p (getPort (modPort s p fun x => clearPort x st) q) :=
  tget_tmap (f := fun _ x => dropForwards p x) rfl _

/-- The port that is lost carries nothing any more. -/
@[simp] theorem getPort_losePort_self (s : State) (p st : Nat) : getPort (losePort s p st) p = clearPort (getPort s p) st := by
  rw [getPort_losePort, getPort_modPort_self]
  rfl

/-- The other ports lose only what they forward of its messages. -/
theorem getPort_losePort_ne (s : State) {p q : Nat} (st : Nat) (h : q ≠ p) : getPort (losePort s p st) q = dropForwards p (getPort s q) := by
  rw [getPort_losePort, getPort_modPort_ne s _ h]

/-- What the ports have received and not yet given on goes at the lost port alone. -/
theorem losePort_rx (s : State) (p st q : Nat) : (getPort (losePort s p st) q).rx = if q = p then [] else (getPort s q).rx := by
  split
  · next h => subst h; rw [getPort_losePort_self]; rfl
  · next h => rw [getPort_losePort_ne s st h]; rfl

/-! ## ENABLEs answered -/

/-- Nothing but replies is added. -/
def answersOnly (s t : State) : Prop := onlyFns s t ∧ ∀ f, ∃ l, repliesAdd s t f l

theorem answersOnly_refl (s : State) : answersOnly s s := ⟨rfl, fun _ => ⟨[], (List.append_nil _).symm⟩⟩

theorem answersOnly_trans {s t u : State} (h : answersOnly s t) (k : answersOnly t u) : answersOnly s u := by
  obtain ⟨hst, hadds⟩ := h
  obtain ⟨htu, kadds⟩ := k
  refine ⟨?_, fun f => ?_⟩
  · rw [onlyFns] at hst htu ⊢
    rw [htu, hst]
  · obtain ⟨l, hl⟩ := hadds f
    obtain ⟨m, hm⟩ := kadds f
    exact ⟨l ++ m, by rw [repliesAdd, hm, hl, List.append_assoc]⟩

theorem queueReply_answersOnly (s : State) (e : Nat) (r : Reply) : answersOnly s (queueReply s e r) := by
  unfold queueReply
  split
  · refine ⟨rfl, fun f => ?_⟩
    by_cases h : f = r.req.fn
    · exact ⟨[r], by rw [repliesAdd, h, getFn_modFn_self]⟩
    · exact ⟨[], by rw [repliesAdd, getFn_modFn_ne _ _ h, List.append_nil]⟩
  · exact answersOnly_refl s

theorem foldl_answersOnly {β : Type} {g : State → β → State} (h : ∀ s b, answersOnly s (g s b)) : ∀ (l : List β) (s : State),
    answersOnly s (l.foldl g s)
  | [], s => answersOnly_refl s
  | b :: l, s => answersOnly_trans (h s b) (foldl_answersOnly h l (g s b))

/-- The state with the ENABLEs whose ports train no more taken off the list. -/
def enablesSettled (s : State) : State := { s with links := { s.links with enables := s.links.enables.filter (stillTraining s) } }

theorem finishEnables_answersOnly (s : State) : answersOnly (enablesSettled s) (finishEnables s) :=
  foldl_answersOnly (fun _ _ => queueReply_answersOnly _ _ _) _ _

theorem finishEnables_eq (s : State) : finishEnables s = { enablesSettled s with fns := (finishEnables s).fns } := (finishEnables_answersOnly s).1

@[simp] theorem finishEnables_ports (s : State) : (finishEnables s).links.ports = s.links.ports := by rw [finishEnables_eq]; rfl
@[simp] theorem finishEnables_now (s : State) : (finishEnables s).now = s.now := by rw [finishEnables_eq]; rfl
@[simp] theorem finishEnables_emitted (s : State) : (finishEnables s).emitted = s.emitted := by rw [finishEnables_eq]; rfl

theorem finishEnables_getPort (s : State) (p : Nat) : getPort (finishEnables s) p = getPort s p := getPort_congr (finishEnables_ports s) p

theorem finishEnables_replies (s : State) (f : Nat) : ∃ l, repliesAdd s (finishEnables s) f l := (finishEnables_answersOnly s).2 f

end Sys2Proof.Machine
end

section
/-! The link commands (R257, R258, R260, R265): the configuration they leave, the ports they train or empty, and what they answer. -/

namespace Sys2Proof.Machine

/-- The shared checks let a `Sendable` request of the right form, for units that are present, on to the command's own. -/
theorem firstErr_shared {k : Spec} {c : FwReq} {s : State} {fmt present : Bool} (h : Sendable k c s) (hfmt : fmt = true)
    (hpresent : present = true) (own : List (Bool × Err)) : firstErr (headChecks k fmt present c s ++ own) = firstErr own := by
  rw [hfmt, hpresent, firstErr_append, headChecks_pass h, Option.none_or]

theorem firstErr_passed {x : Bool × Err} (h : x.1 = false) : firstErr [x] = none := by
  obtain ⟨b, e⟩ := x
  cases b with
  | false => rfl
  | true => exact absurd h.symm Bool.false_ne_true

theorem repliesAdd_trans {s t u : State} {f : Nat} {k l : List Reply} (h : repliesAdd s t f k) (h' : repliesAdd t u f l) :
    repliesAdd s u f (k ++ l) := by
  simp only [repliesAdd] at h h' ⊢
  rw [h', h, List.append_assoc]

theorem repliesAdd_of_fns {s t u : State} {f : Nat} {l : List Reply} (h : repliesAdd s t f l) (hfns : u.fns = t.fns) : repliesAdd s u f l := by
  rw [repliesAdd, getFn_congr hfns, h]

/-! ## Configuration and routes -/

/-- The state with a LINKS record in force and queued for the two-bank store (R421). -/
def linksStored (cfg : LinksRec) (s : State) : State := storeLinks { s with links := { s.links with cfg := cfg } }

/-- A record stored and the command answered: ports stay, and the store has the record to write. -/
theorem linksStored_answers (cfg : LinksRec) (s : State) (c : FwReq) (cmd : Nat) : let t := replyOk (linksStored cfg s) c cmd []
    repliesAdd s t c.fn [okReply c cmd []] ∧ t.links = { s.links with cfg := cfg } ∧
    t.nvm.writes = s.nvm.writes ++ [{ typ := stLinks, payload := [], links := some cfg }] := by
  dsimp only
  rw [replyOk_links, replyOk_nvm]
  exact ⟨replyOk_adds (linksStored cfg s) c cmd [], rfl, rfl⟩

/-- The LINKS record that COLL_LINK_CONFIG leaves (R257). -/
def configuredLinks (p : Bytes) (cfg : LinksRec) : LinksRec :=
  { cfg with deviceId := fld p 11 0, ward := bit p 12, tag := BitVec.ofNat 64 (fld p 127 64), peers := peersOf p }

theorem collLinkConfig_acts {c : FwReq} {s : State} (h : Sendable specLinkConfig c s) (hlen : c.payload.length = 112)
    (hres : zeroAt c.payload ((63, 13) :: (List.range 24).map fun i => (128 + 32 * i + 31, 128 + 32 * i + 18)) = true) :
    exec (.collLinkConfig c) s = .next (replyOk (linksStored (configuredLinks c.payload s.links.cfg) s) c 0x0580 []) := by
  have hform : (c.payload.length == 112 &&
      zeroAt c.payload ((63, 13) :: (List.range 24).map fun i => (128 + 32 * i + 31, 128 + 32 * i + 18))) = true := by
    rw [hlen, hres]
    rfl
  refine fwStep_acts h ?_
  rw [hform]
  exact headChecks_pass h

theorem tget_peersOf (p : Bytes) {i : Nat} (h : i < 24) : tget {} (peersOf p) i =
    { id := fld (slice p (16 + 4 * i) 4) 11 0, port := fld (slice p (16 + 4 * i) 4) 16 12, expect := bit (slice p (16 + 4 * i) 4) 17 } := by
  rw [tget, peersOf, tfind_map_key, if_pos (List.mem_range.mpr h)]
  rfl

/-- A route table with one entry written: an entry of 0 is not listed (R257). -/
def writeRoute (m : AMap Nat) (w : Nat × Nat) : AMap Nat := if w.2 = 0 then tdel m w.1 else tset m w.1 w.2

theorem tget_writeRoute (m : AMap Nat) (w : Nat × Nat) (i : Nat) : tget 0 (writeRoute m w) i = if i = w.1 then w.2 else tget 0 m i := by
  unfold writeRoute
  split
  · next hzero =>
    split
    · next hi => rw [hi, tget_tdel_self, hzero]
    · next hi => rw [tget, tfind_tdel_ne hi, tget]
  · split
    · next hi => rw [hi, tget_tset_self]
    · next hi => exact tget_tset_ne _ _ _ hi

/-- A run of entries written reads as written, and the others stay. -/
theorem tget_foldl_writeRoute (v : Nat → Nat) (base : Nat) (m : AMap Nat) (i : Nat) : ∀ n,
    tget 0 (((List.range n).map fun k => (base + k, v k)).foldl writeRoute m) i =
      if base ≤ i ∧ i < base + n then v (i - base) else tget 0 m i
  | 0 => by rw [if_neg (by omega)]; rfl
  | n + 1 => by
    rw [List.range_succ, List.map_append, List.foldl_append, List.map_singleton, List.foldl_cons, List.foldl_nil, tget_writeRoute,
      tget_foldl_writeRoute v base m i n]
    dsimp only
    by_cases hlast : i = base + n
    · rw [if_pos hlast, if_pos (by omega), hlast, Nat.add_sub_cancel_left]
    · rw [if_neg hlast]
      by_cases hin : base ≤ i ∧ i < base + n
      · rw [if_pos hin, if_pos (by omega)]
      · rw [if_neg hin, if_neg (by omega)]

/-- The LINKS record that COLL_LINK_ROUTE leaves (R257). -/
def routedLinks (p : Bytes) (cfg : LinksRec) : LinksRec := { cfg with routes := (routeWords p).foldl writeRoute cfg.routes }

theorem collLinkRoute_acts {c : FwReq} {s : State} (h : Sendable specLinkRoute c s) (hmin : 8 ≤ c.payload.length)
    (hlen : c.payload.length = 8 + 4 * fld c.payload 23 12) (hres : zeroAt c.payload [(63, 24)] = true) (hsome : 1 ≤ fld c.payload 23 12)
    (hmax : fld c.payload 23 12 ≤ 110) (hend : fld c.payload 11 0 + fld c.payload 23 12 ≤ 4096)
    (hwords : ∀ w ∈ routeWords c.payload,
      w.2 < 2 ^ 24 ∧ (∀ q ∈ setBits 24 w.2, portPresent s q = true) ∧ routeOk s.links.cfg w.1 w.2 = true) :
    exec (.collLinkRoute c) s = .next (replyOk (linksStored (routedLinks c.payload s.links.cfg) s) c 0x0581 []) := by
  have hsmall : (routeWords c.payload).all (fun w => w.2 < 2 ^ 24) = true :=
    List.all_eq_true.mpr fun w hw => decide_eq_true (hwords w hw).1
  have hpresent : (routeWords c.payload).all (fun w => (setBits 24 w.2).all (portPresent s)) = true :=
    List.all_eq_true.mpr fun w hw => List.all_eq_true.mpr (hwords w hw).2.1
  have hok : (routeWords c.payload).all (fun w => routeOk s.links.cfg w.1 w.2) = true :=
    List.all_eq_true.mpr fun w hw => (hwords w hw).2.2
  refine fwStep_acts h ?_
  rw [firstErr_shared h (by rw [hsmall, hres, ← hlen]; simp [hmin]) hpresent, hok, firstErr_cons, if_neg]
  · rfl
  · simp [Nat.pos_iff_ne_zero.mp hsome, Nat.not_lt.mpr hmax, Nat.not_lt.mpr hend]

/-! ## Work on a list of ports -/

/-- A port without its message queues: what the loss of another port leaves of it (R264). -/
def unqueued (x : Port) : Port := { x with fwd := [], queue := [] }

/-- What happens to a port while other ports are lost: only messages queued or forwarded go. -/
structure PortKept (x y : Port) : Prop where
  rest : unqueued y = unqueued x
  empty : x.queue = [] → y.queue = []

theorem portKept_refl (x : Port) : PortKept x x := ⟨rfl, id⟩

theorem portKept_trans {x y z : Port} (h : PortKept x y) (k : PortKept y z) : PortKept x z :=
  ⟨k.rest.trans h.rest, fun he => k.empty (h.empty he)⟩

theorem dropForwards_portKept (p : Nat) (x : Port) : PortKept x (dropForwards p x) := ⟨rfl, fun h => by rw [dropForwards, h]; rfl⟩

/-- What does not depend on the message queues stays. -/
theorem portKept_field {α : Type} {x y : Port} (h : PortKept x y) (f : Port → α) (hf : ∀ x, f (unqueued x) = f x) : f y = f x := by
  rw [← hf y, h.rest, hf]

theorem portKept_state {x y : Port} (h : PortKept x y) : y.state = x.state := portKept_field h Port.state fun _ => rfl

/-- Work on one port at a time, under a configuration: a port whose state needs none is passed over, the others lose at most queued
messages, and a port worked on becomes what `made` says and needs no more. -/
structure PortWork (cfg : LinksRec) (work : State → Nat → State) (idle : Nat → Prop) (made : Nat → Port → Prop) : Prop where
  passes : ∀ s i, idle (getPort s i).state → work s i = s
  others : ∀ s i j, j ≠ i → PortKept (getPort s j) (getPort (work s i) j)
  makes : ∀ s i, s.links.cfg = cfg → ¬ idle (getPort s i).state → made i (getPort (work s i) i)
  config : ∀ s i, (work s i).links.cfg = s.links.cfg
  stays : ∀ i x y, PortKept x y → made i x → made i y
  rests : ∀ i x, made i x → idle x.state

section
variable {cfg : LinksRec} {work : State → Nat → State} {idle : Nat → Prop} {made : Nat → Port → Prop} (h : PortWork cfg work idle made)
include h

theorem PortWork.keeps_one (s : State) (i j : Nat) (hj : j ≠ i ∨ idle (getPort s j).state) : PortKept (getPort s j) (getPort (work s i) j) := by
  by_cases hij : j = i
  · subst hij
    rw [h.passes s j (hj.resolve_left fun hne => hne rfl)]
    exact portKept_refl _
  · exact h.others s i j hij

/-- A port that is not listed, or needs no work, keeps all but queued messages. -/
theorem PortWork.keeps (l : List Nat) (s : State) (j : Nat) (hj : j ∉ l ∨ idle (getPort s j).state) :
    PortKept (getPort s j) (getPort (l.foldl work s) j) := by
  induction l generalizing s with
  | nil => exact portKept_refl _
  | cons i l ih =>
    have hone := h.keeps_one s i j (hj.imp_left fun hn he => hn (he ▸ List.mem_cons_self))
    refine portKept_trans hone (ih (work s i) ?_)
    rw [portKept_state hone]
    exact hj.imp_left fun hn hm => hn (List.mem_cons_of_mem _ hm)

/-- A listed port that needs work has it done. -/
theorem PortWork.done (l : List Nat) (s : State) (j : Nat) (hcfg : s.links.cfg = cfg) (hj : j ∈ l) (hneeds : ¬ idle (getPort s j).state) :
    made j (getPort (l.foldl work s) j) := by
  induction l generalizing s with
  | nil => exact absurd hj List.not_mem_nil
  | cons i l ih =>
    by_cases hij : j = i
    · subst hij
      have hmade := h.makes s j hcfg hneeds
      exact h.stays j _ _ (h.keeps l (work s j) j (.inr (h.rests j _ hmade))) hmade
    · refine ih (work s i) ((h.config s i).trans hcfg) ((List.mem_cons.mp hj).resolve_left hij) ?_
      rw [portKept_state (h.others s i j hij)]
      exact hneeds

theorem PortWork.none (l : List Nat) (s : State) (hidle : ∀ i ∈ l, idle (getPort s i).state) : l.foldl work s = s := by
  induction l with
  | nil => rfl
  | cons i l ih =>
    rw [List.foldl_cons, h.passes s i (hidle i List.mem_cons_self)]
    exact ih fun j hj => hidle j (List.mem_cons_of_mem _ hj)

end

/-! ## Training -/

/-- The ports listed that are neither UP nor in training begin training (R265). -/
def trainOne (s : State) (i : Nat) : State := if [1, 2].contains (getPort s i).state then s else startTraining s i

/-- A port in the first attempt of a training under a configuration (R260, R265). -/
structure FirstAttempt (cfg : LinksRec) (i : Nat) (x : Port) : Prop where
  state : x.state = 1
  attempts : x.attempts = 0
  identOk : x.identOk = false
  replay : x.replay = []
  ownId : x.ownId = cfg.deviceId
  peer : x.peer = tget {} cfg.peers i

theorem firstAttempt_of_portKept {cfg : LinksRec} {i : Nat} {x y : Port} (hk : PortKept x y) (h : FirstAttempt cfg i x) : FirstAttempt cfg i y where
  state := (portKept_state hk).trans h.state
  attempts := (portKept_field hk Port.attempts fun _ => rfl).trans h.attempts
  identOk := (portKept_field hk Port.identOk fun _ => rfl).trans h.identOk
  replay := (portKept_field hk Port.replay fun _ => rfl).trans h.replay
  ownId := (portKept_field hk Port.ownId fun _ => rfl).trans h.ownId
  peer := (portKept_field hk Port.peer fun _ => rfl).trans h.peer

theorem startTraining_others (s : State) {i j : Nat} (h : j ≠ i) : getPort (startTraining s i) j = dropForwards i (getPort s j) := by
  rw [startTraining, attempt_onlyPort _ i j h, getPort_modPort_ne _ _ h, getPort_losePort_ne s 1 h]

theorem startTraining_self (s : State) (i : Nat) : FirstAttempt s.links.cfg i (getPort (startTraining s i) i) := by
  rw [startTraining, attempt_getPort_self, getPort_modPort_self, getPort_losePort_self]
  exact ⟨rfl, rfl, rfl, rfl, rfl, rfl⟩

/-- The functions, the LINKS record and the ENABLEs that wait: what work on the ports leaves. -/
def offPorts (s : State) : AMap Fn × LinksRec × List LinkEnable := (s.fns, s.links.cfg, s.links.enables)

@[simp] theorem modPort_offPorts (s : State) (p : Nat) (g : Port → Port) : offPorts (modPort s p g) = offPorts s := rfl

@[simp] theorem sendFlit_offPorts (s : State) (p : Nat) (f : Flit) : offPorts (sendFlit s p f) = offPorts s := rfl

@[simp] theorem losePort_offPorts (s : State) (p st : Nat) : offPorts (losePort s p st) = offPorts s :=
  modPort_offPorts s p fun x => clearPort x st

@[simp] theorem startTraining_offPorts (s : State) (i : Nat) : offPorts (startTraining s i) = offPorts s := by
  simp [startTraining, attempt, sendIdent, sendFree]

@[simp] theorem trainOne_offPorts (s : State) (i : Nat) : offPorts (trainOne s i) = offPorts s := by
  unfold trainOne
  split <;> simp

theorem trainWork (cfg : LinksRec) : PortWork cfg trainOne (fun st => st = 1 ∨ st = 2) (FirstAttempt cfg) where
  passes s i hidle := if_pos (by simpa using hidle)
  others s i j hj := by
    unfold trainOne
    split
    · exact portKept_refl _
    · rw [startTraining_others s hj]
      exact dropForwards_portKept i _
  makes s i hcfg hneeds := by
    rw [trainOne, if_neg (by simpa using hneeds), ← hcfg]
    exact startTraining_self s i
  config s i := congrArg (·.2.1) (trainOne_offPorts s i)
  stays i x y hk hx := firstAttempt_of_portKept hk hx
  rests i x hx := .inl hx.state

theorem trainAll_keeps (l : List Nat) (s : State) : let t := l.foldl trainOne s
    t.fns = s.fns ∧ t.links.cfg = s.links.cfg ∧ t.links.enables = s.links.enables := by
  have hall := foldl_keeps trainOne_offPorts l s
  simpa only [offPorts, Prod.mk.injEq] using hall

/-! ## ENABLE -/

/-- An ENABLE accepted, its ports in training and the command on the list of those that wait for their ports. -/
def enableBegun (c : FwReq) (s : State) : State :=
  let u := (portsOf c.payload).foldl trainOne (replyAccepted s c 0x0582)
  { u with links := { u.links with enables := u.links.enables ++ [⟨pendOf u c 0x0582, portsOf c.payload⟩] } }

theorem collLinkEnable_acts {c : FwReq} {s : State} (h : Sendable specLinkEnable c s) (hform : portsForm c.payload = true)
    (hports : ∀ i ∈ portsOf c.payload, portPresent s i = true ∧ (tget {} s.links.cfg.peers i).expect = true) (hawake : s.pwr.state ≠ 2)
    (hretain : (retainBlocks s).1 = false) : exec (.collLinkEnable c) s = .next (finishEnables (enableBegun c s)) := by
  have hwake : autoWake s = s := if_neg fun hc => hawake hc.1
  have hpresent : (portsOf c.payload).all (portPresent s) = true := List.all_eq_true.mpr fun i hi => (hports i hi).1
  have hexpect : (portsOf c.payload).any (fun i => !(tget {} s.links.cfg.peers i).expect) = false := by
    rw [List.any_eq_false]
    intro i hi
    rw [(hports i hi).2]
    exact Bool.false_ne_true
  refine (fwStep_acts h ?_).trans ?_
  · rw [firstErr_shared h hform hpresent, hexpect, firstErr_cons, if_neg Bool.false_ne_true]
    exact firstErr_passed hretain
  · rw [if_pos (show specLinkEnable.wide = true from rfl), hwake]
    rfl

theorem stillTraining_iff (s : State) (e : LinkEnable) : stillTraining s e = true ↔ ∃ i ∈ e.ports, (getPort s i).state = 1 := by
  simp [stillTraining]

/-- While every ENABLE waits for a port, none is answered. -/
theorem finishEnables_none {s : State} (h : ∀ e ∈ s.links.enables, stillTraining s e = true) : finishEnables s = s := by
  have hdone : s.links.enables.filter (fun e => !stillTraining s e) = [] :=
    List.filter_eq_nil_iff.mpr fun e he => by rw [h e he]; exact Bool.false_ne_true
  have hkept : s.links.enables.filter (stillTraining s) = s.links.enables := List.filter_eq_self.mpr h
  rw [finishEnables, hdone, hkept]
  rfl

/-- Of ENABLEs that wait and a last one that does not, the last alone is answered. -/
theorem finishEnables_last {s : State} {es : List LinkEnable} {e : LinkEnable} (hes : s.links.enables = es ++ [e])
    (hwait : ∀ e ∈ es, stillTraining s e = true) (he : stillTraining s e = false) :
    finishEnables s = finishOk { s with links := { s.links with enables := es } } e.pend (enableReply s e) := by
  have hdone : (es ++ [e]).filter (fun e => !stillTraining s e) = [e] := by
    rw [List.filter_append, List.filter_eq_nil_iff.mpr fun x hx => by rw [hwait x hx]; exact Bool.false_ne_true]
    simp [he]
  have hkept : (es ++ [e]).filter (stillTraining s) = es := by
    rw [List.filter_append, List.filter_eq_self.mpr hwait]
    simp [he]
  rw [finishEnables, hes, hdone, hkept]
  rfl

section
variable {c : FwReq} {s : State}

theorem replyAccepted_getPort (j : Nat) : getPort (replyAccepted s c 0x0582) j = getPort s j :=
  getPort_congr (congrArg Links.ports (replyAccepted_links s c 0x0582)) j

/-- The replies and the waiting commands of an ENABLE that has been accepted. -/
theorem enableBegun_waits : repliesAdd s (enableBegun c s) c.fn [acceptedReply c 0x0582] ∧
    (enableBegun c s).links.enables = s.links.enables ++ [⟨pendOf s c 0x0582, portsOf c.payload⟩] := by
  obtain ⟨hfns, -, henables⟩ := trainAll_keeps (portsOf c.payload) (replyAccepted s c 0x0582)
  have hpend : pendOf ((portsOf c.payload).foldl trainOne (replyAccepted s c 0x0582)) c 0x0582 = pendOf s c 0x0582 := by
    rw [pendOf, getFn_congr hfns, ← pendOf_replyAccepted (s := s) 0x0582, pendOf]
  refine ⟨repliesAdd_of_fns (replyAccepted_adds s c 0x0582) hfns, ?_⟩
  rw [replyAccepted_links] at henables
  simp only [enableBegun, henables, hpend]

theorem enableBegun_kept (j : Nat) (hj : j ∉ portsOf c.payload ∨ (getPort s j).state = 1 ∨ (getPort s j).state = 2) :
    PortKept (getPort s j) (getPort (enableBegun c s) j) := by
  have hkept := (trainWork s.links.cfg).keeps (portsOf c.payload) (replyAccepted s c 0x0582) j
  rw [replyAccepted_getPort] at hkept
  exact hkept hj

theorem enableBegun_trains (j : Nat) (hj : j ∈ portsOf c.payload) (hneeds : ¬((getPort s j).state = 1 ∨ (getPort s j).state = 2)) :
    FirstAttempt s.links.cfg j (getPort (enableBegun c s) j) := by
  have hdone := (trainWork s.links.cfg).done (portsOf c.payload) (replyAccepted s c 0x0582) j
  rw [replyAccepted_getPort, replyAccepted_links] at hdone
  exact hdone rfl hj hneeds

/-- An ENABLE that waited for a port still does. -/
theorem enableBegun_stillTraining {e : LinkEnable} (h : stillTraining s e = true) : stillTraining (enableBegun c s) e = true := by
  obtain ⟨i, hi, htrains⟩ := (stillTraining_iff s e).mp h
  exact (stillTraining_iff _ e).mpr ⟨i, hi, (portKept_state (enableBegun_kept i (.inr (.inl htrains)))).trans htrains⟩

/-- With a listed port that is not UP, the command waits for its final reply. -/
theorem enableBegun_all_wait (hwait : ∀ e ∈ s.links.enables, stillTraining s e = true)
    (hneeds : ∃ i ∈ portsOf c.payload, (getPort s i).state ≠ 2) : finishEnables (enableBegun c s) = enableBegun c s := by
  refine finishEnables_none fun e he => ?_
  rw [enableBegun_waits.2, List.mem_append, List.mem_singleton] at he
  rcases he with hold | rfl
  · exact enableBegun_stillTraining (hwait e hold)
  · obtain ⟨i, hi, hdown⟩ := hneeds
    refine (stillTraining_iff _ _).mpr ⟨i, hi, ?_⟩
    by_cases htrains : (getPort s i).state = 1
    · exact (portKept_state (enableBegun_kept i (.inr (.inl htrains)))).trans htrains
    · exact (enableBegun_trains i hi (by simp [htrains, hdown])).state

/-- With every listed port UP no port changes. -/
theorem enableBegun_idle (hup : ∀ i ∈ portsOf c.payload, (getPort s i).state = 2) : enableBegun c s =
    { replyAccepted s c 0x0582 with
      links := { s.links with enables := s.links.enables ++ [⟨pendOf s c 0x0582, portsOf c.payload⟩] } } := by
  have hnone : (portsOf c.payload).foldl trainOne (replyAccepted s c 0x0582) = replyAccepted s c 0x0582 :=
    (trainWork s.links.cfg).none _ _ fun i hi => by rw [replyAccepted_getPort]; exact .inr (hup i hi)
  simp only [enableBegun, hnone, pendOf_replyAccepted, replyAccepted_links]

/-- The final reply of an ENABLE whose ports are all UP lists them, and no other (R265). -/
theorem enableReply_up {e : LinkEnable} (hup : ∀ i ∈ e.ports, (getPort s i).state = 2) :
    enableReply s e = leBytes 4 (maskOf e.ports) ++ leBytes 4 0 := by
  have hgood : e.ports.filter (fun i => (getPort s i).state == 2) = e.ports := List.filter_eq_self.mpr fun i hi => beq_iff_eq.mpr (hup i hi)
  have hbad : e.ports.filter (fun i => (getPort s i).state != 2) = [] := List.filter_eq_nil_iff.mpr fun i hi => by simp [hup i hi]
  rw [enableReply, hgood, hbad]
  rfl

/-- With every listed port UP the final reply follows at once (R265). -/
theorem enableBegun_finishes (hwait : ∀ e ∈ s.links.enables, stillTraining s e = true)
    (hup : ∀ i ∈ portsOf c.payload, (getPort s i).state = 2) : let t := finishEnables (enableBegun c s)
    repliesAdd s t c.fn [acceptedReply c 0x0582,
      doneReply (pendOf s c 0x0582) 0 0 (leBytes 4 (maskOf (portsOf c.payload)) ++ leBytes 4 0)] ∧
    t.links.ports = s.links.ports ∧ t.links.enables = s.links.enables := by
  have hidle := enableBegun_idle hup
  have hstate (i : Nat) : getPort (enableBegun c s) i = getPort s i := by rw [hidle]; rfl
  have hnew : stillTraining (enableBegun c s) ⟨pendOf s c 0x0582, portsOf c.payload⟩ = false := by
    rw [Bool.eq_false_iff, Ne, stillTraining_iff]
    rintro ⟨i, hi, htrains⟩
    rw [hstate, hup i hi] at htrains
    exact absurd htrains (by decide)
  have hepoch : (getFn (replyAccepted s c 0x0582) c.fn).epoch = (pendOf s c 0x0582).epoch :=
    congrArg Pend.epoch (pendOf_replyAccepted (s := s) 0x0582)
  dsimp only
  rw [finishEnables_last enableBegun_waits.2 (fun e he => enableBegun_stillTraining (hwait e he)) hnew,
    enableReply_up fun i hi => by rw [hstate]; exact hup i hi, finishOk_links, hidle]
  refine ⟨?_, rfl, rfl⟩
  exact repliesAdd_trans (replyAccepted_adds s c 0x0582)
    (finish_adds { replyAccepted s c 0x0582 with links := s.links } (pendOf s c 0x0582) 0 0 _ hepoch)

end

/-! ## DISABLE -/

/-- A listed port that is not DOWN already is emptied (R265). -/
def emptyOne (s : State) (i : Nat) : State := if (getPort s i).state = 0 then s else losePort s i 0

/-- A port that is off and carries nothing (R265). -/
structure Emptied (x : Port) : Prop where
  state : x.state = 0
  queue : x.queue = []
  replay : x.replay = []
  rx : x.rx = []

theorem emptyWork (cfg : LinksRec) : PortWork cfg emptyOne (fun st => st = 0) (fun _ => Emptied) where
  passes s i hidle := if_pos hidle
  others s i j hj := by
    unfold emptyOne
    split
    · exact portKept_refl _
    · rw [getPort_losePort_ne s 0 hj]
      exact dropForwards_portKept i _
  makes s i _ hneeds := by
    rw [emptyOne, if_neg hneeds, getPort_losePort_self]
    exact ⟨rfl, rfl, rfl, rfl⟩
  config s i := by
    unfold emptyOne
    split <;> rfl
  stays i x y hk hx := ⟨(portKept_state hk).trans hx.state, hk.empty hx.queue, (portKept_field hk Port.replay fun _ => rfl).trans hx.replay,
    (portKept_field hk Port.rx fun _ => rfl).trans hx.rx⟩
  rests i x hx := hx.state

theorem emptyAll_fns (l : List Nat) (s : State) : (l.foldl emptyOne s).fns = s.fns :=
  foldl_keeps (f := State.fns) (fun s i => by unfold emptyOne; split <;> rfl) l s

theorem linkEvent_fns (s : State) (p kind sev : Nat) (l : List Nat) (h : sev ≠ 3) : (linkEvent s p kind sev l).fns = s.fns := by
  rw [linkEvent_plain s p kind sev l h]

theorem follow_fns (s : State) (r seq at_ : Nat) : (follow s r seq at_).fns = s.fns := by
  unfold follow
  split
  · dsimp only
    split
    · rfl
    · exact linkEvent_fns _ _ _ _ _ (by decide)
  · rfl

theorem newRoot_fns (s : State) (r : Nat) : (newRoot s r).fns = s.fns := by
  unfold newRoot
  split
  · exact follow_fns s r _ _
  · rfl

theorem becomeRoot_fns (s : State) : (becomeRoot s).fns = s.fns := by
  unfold becomeRoot
  dsimp only
  split
  · rfl
  · exact linkEvent_fns _ _ _ _ _ (by decide)

/-- The choice of root and parent adds no reply. -/
theorem adopt_fns (s : State) : (adopt s).fns = s.fns := by
  unfold adopt
  split
  · split
    · split
      · exact newRoot_fns s _
      · exact becomeRoot_fns s
    · split
      · split
        · exact newRoot_fns s _
        · exact follow_fns s _ _ _
      · exact follow_fns s _ _ _
  · split
    · exact newRoot_fns s _
    · rfl

/-- The listed ports emptied, the ENABLEs that waited for them alone answered, and root and parent chosen anew. -/
def disabled (c : FwReq) (s : State) : State := adopt (finishEnables ((portsOf c.payload).foldl emptyOne s))

theorem collLinkDisable_acts {c : FwReq} {s : State} (h : Sendable specLinkDisable c s) (hform : portsForm c.payload = true)
    (hports : ∀ i ∈ portsOf c.payload, portPresent s i = true) :
    exec (.collLinkDisable c) s = .next (replyOk (disabled c s) c 0x0583 []) := by
  have hpresent : (portsOf c.payload).all (portPresent s) = true := List.all_eq_true.mpr hports
  refine fwStep_acts h ?_
  rw [hform, hpresent]
  exact headChecks_pass h

theorem disabled_getPort (c : FwReq) (s : State) (j : Nat) :
    getPort (replyOk (disabled c s) c 0x0583 []) j = getPort ((portsOf c.payload).foldl emptyOne s) j := by
  rw [getPort_congr (congrArg Links.ports (replyOk_links _ _ _ _)), disabled, getPort_congr (adopt_rootMoves _).ports, finishEnables_getPort]

theorem disabled_replies (c : FwReq) (s : State) : ∃ l, repliesAdd s (replyOk (disabled c s) c 0x0583 []) c.fn (l ++ [okReply c 0x0583 []]) := by
  obtain ⟨l, hl⟩ := finishEnables_replies ((portsOf c.payload).foldl emptyOne s) c.fn
  rw [repliesAdd, getFn_congr (emptyAll_fns _ s)] at hl
  exact ⟨l, repliesAdd_trans (repliesAdd_of_fns hl (adopt_fns _)) (replyOk_adds (disabled c s) c 0x0583 [])⟩

/-! ## INFO -/

/-- What COLL_LINK_INFO reports of a port (R265). -/
def linkInfo (s : State) (i : Nat) : Bytes :=
  let x := getPort s i
  pack 32 [(8, x.state), (5, x.peer.port), (3, 0), (12, x.peer.id), (1, if s.links.parent = some i then 1 else 0), (3, 0), (32, x.retrains),
    (32, x.replays), (32, x.fec), (32, twos 32 x.offsetPs)]

theorem collLinkInfo_acts {c : FwReq} {s : State} (h : Sendable specLinkInfo c s) (hlen : c.payload.length = 8)
    (hres : zeroAt c.payload [(63, 5)] = true) (hport : portPresent s (fld c.payload 4 0) = true) :
    exec (.collLinkInfo c) s = .next (replyOk s c 0x0584 (linkInfo s (fld c.payload 4 0))) := by
  have hform : (c.payload.length == 8 && zeroAt c.payload [(63, 5)]) = true := by rw [hlen, hres]; rfl
  have hparent : b2n (s.links.parent == some (fld c.payload 4 0)) = if s.links.parent = some (fld c.payload 4 0) then 1 else 0 := by
    simp only [b2n, beq_iff_eq]
  rw [linkInfo, ← hparent]
  refine fwStep_acts h ?_
  rw [hform, hport]
  exact headChecks_pass h

/-- Settles O28, command by command. -/
theorem linkCommandsComplete : Obligations.LinkCommandsComplete := by
  unfold Obligations.LinkCommandsComplete
  intro c s
  dsimp only
  refine ⟨fun h hlen hres => ?_, fun h hmin hlen hres hsome hmax hend hwords => ?_,
    fun h hform hports hawake hretain hwait => ⟨fun hneeds => ?_, fun hup => ?_⟩,
    fun h hform hports => ?_, fun h hlen hres hport => ?_⟩
  · obtain ⟨hadds, hlinks, hnvm⟩ := linksStored_answers (configuredLinks c.payload s.links.cfg) s c 0x0580
    refine ⟨_, collLinkConfig_acts h hlen hres, hadds, ?_⟩
    rw [hlinks]
    exact ⟨rfl, rfl, rfl, rfl, rfl, fun i hi => tget_peersOf c.payload hi, hnvm⟩
  · obtain ⟨hadds, hlinks, hnvm⟩ := linksStored_answers (routedLinks c.payload s.links.cfg) s c 0x0581
    refine ⟨_, collLinkRoute_acts h hmin hlen hres hsome hmax hend hwords, hadds, ?_⟩
    rw [hlinks]
    have hroutes (i : Nat) := tget_foldl_writeRoute (fun k => leNat (slice c.payload (8 + 4 * k) 4)) (fld c.payload 11 0) s.links.cfg.routes i
      (fld c.payload 23 12)
    refine ⟨rfl, fun i hi => (hroutes _).trans ?_, fun i hi => (hroutes i).trans (if_neg (by omega)), hnvm⟩
    rw [if_pos (by omega), Nat.add_sub_cancel_left]
  · refine ⟨_, (collLinkEnable_acts h hform hports hawake hretain).trans (by rw [enableBegun_all_wait hwait hneeds]), enableBegun_waits.1,
      enableBegun_waits.2, fun i hi => (enableBegun_kept i hi).rest, fun i hi htrain hup => ?_⟩
    obtain ⟨hstate, hattempts, hident, hreplay, hown, hpeer⟩ := enableBegun_trains (s := s) i hi (by simp [htrain, hup])
    exact ⟨hstate, hattempts, hident, hreplay, hown, hpeer⟩
  · exact ⟨_, collLinkEnable_acts h hform hports hawake hretain, enableBegun_finishes hwait hup⟩
  · refine ⟨_, collLinkDisable_acts h hform hports, ?_⟩
    have hkept := (emptyWork s.links.cfg).keeps (portsOf c.payload) s
    have hdone (i : Nat) := (emptyWork s.links.cfg).done (portsOf c.payload) s i rfl
    simp only [disabled_getPort]
    refine ⟨fun i hi => ?_, fun i hi => (hkept i (.inl hi)).rest, fun i hi hneeds => ?_, disabled_replies c s⟩
    · by_cases hoff : (getPort s i).state = 0
      · exact (portKept_state (hkept i (.inr hoff))).trans hoff
      · exact (hdone i hi hoff).state
    · obtain ⟨-, hqueue, hreplay, hrx⟩ := hdone i hi hneeds
      exact ⟨hqueue, hreplay, hrx⟩
  · exact ⟨_, collLinkInfo_acts h hlen hres hport, replyOk_adds s c _ _, replyOk_onlyFns s c _ _⟩

end Sys2Proof.Machine
end

section
/-! Training and retraining of a link port (R260, R261, R264, R265): how an attempt ends, what forces a retrain and how it ends, and the
report of corrected errors. -/

namespace Sys2Proof.Machine

/-! ## What an IDENT or the end of an attempt brings -/

/-- A port that has come UP (R260). -/
def cameUp (now : Nat) (x : Port) : Port := { x with state := 2, lastRx := now, lastTx := now }

/-- The port UP, with the event of R265. -/
def linkUp (s : State) (p : Nat) : State :=
  linkEvent (modPort s p (cameUp (time s))) p 0x100 sevInfo
    [p, (getPort s p).peer.id, (getPort s p).peer.port]

/-- The port counts the attempt that has failed. -/
def attemptFailed (s : State) (p : Nat) : State := modPort s p fun x => { x with attempts := x.attempts + 1 }

/-- The port DOWN, with the event of R265. -/
def linkDown (s : State) (p : Nat) : State := linkEvent (losePort s p 3) p 0x101 sevError [p, Config.causeCode 0x101 0]

section
variable {p : Nat} {s : State} (hruns : portRuns s p = true) (hstate : (getPort s p).state = 1)
include hruns hstate

/-- The expected peer's IDENT confirms the identity and has the pools' sizes announced (R261). -/
theorem identReceive_confirms {b : Bytes} (hrsvd : (identRead b).rsvd = false) (hmatch : identMatches (getPort s p) (identRead b) = true) :
    exec (.identReceive p b) s = .next (modPort s p fun x => setSizes { x with identOk := true } (sysSizes ++ allPoolSizes s p)) :=
  congrArg Host.Outcome.next ((when_due _ s (by simp [hruns, hstate, hrsvd])).trans (if_pos hmatch))

/-- Any other IDENT makes the port MISWIRED (R261). -/
theorem identReceive_miswires {b : Bytes} (hrsvd : (identRead b).rsvd = false) (hmatch : identMatches (getPort s p) (identRead b) = false) :
    exec (.identReceive p b) s = .next (finishEnables (miswire s p (identRead b))) :=
  congrArg Host.Outcome.next ((when_due _ s (by simp [hruns, hstate, hrsvd])).trans (if_neg (by simp [hmatch])))

theorem trainingAttemptEnd_up (htrained : trained (getPort s p) = true) :
    exec (.linkTrainingAttemptEnd p true) s = .next (adopt (finishEnables (linkUp s p))) :=
  congrArg Host.Outcome.next ((when_due _ s (by simp [hruns, hstate])).trans (if_pos (by simp [htrained])))

theorem trainingAttemptEnd_again {ok : Bool} (hfail : ok = false ∨ trained (getPort s p) = false) (hearly : (getPort s p).attempts < 2) :
    exec (.linkTrainingAttemptEnd p ok) s = .next (attempt (attemptFailed s p) p) :=
  congrArg Host.Outcome.next ((when_due _ s (by simp [hruns, hstate])).trans ((if_neg (by rcases hfail with h | h <;> simp [h])).trans
    (if_pos (by omega))))

theorem trainingAttemptEnd_down {ok : Bool} (hfail : ok = false ∨ trained (getPort s p) = false) (hthird : (getPort s p).attempts = 2) :
    exec (.linkTrainingAttemptEnd p ok) s = .next (finishEnables (linkDown s p)) :=
  congrArg Host.Outcome.next ((when_due _ s (by simp [hruns, hstate])).trans ((if_neg (by rcases hfail with h | h <;> simp [h])).trans
    (if_neg (by omega))))

end

theorem linkUp_spec (s : State) (p : Nat) : let t := adopt (finishEnables (linkUp s p))
    getPort t p = cameUp (time s) (getPort s p) ∧ onlyPort s t p ∧
    ∃ l, logs s t ((0x840 + p, 0x100, 0, 0xFF, [p, (getPort s p).peer.id, (getPort s p).peer.port]) :: l) := by
  obtain ⟨-, hports, -, l, hlog⟩ := adopt_rootMoves (finishEnables (linkUp s p))
  have hnow : (finishEnables (linkUp s p)).now = s.now := (finishEnables_now _).trans (emit_now _ _ _ _ _ _)
  have hup : logs s (finishEnables (linkUp s p)) [(0x840 + p, 0x100, 0, 0xFF, [p, (getPort s p).peer.id, (getPort s p).peer.port])] :=
    (finishEnables_emitted _).trans (linkEvent_logs (modPort s p _) p 0x100 0 _ (by decide))
  have hkept : (adopt (finishEnables (linkUp s p))).links.ports = (modPort s p (cameUp (time s))).links.ports := by
    rw [hports, finishEnables_ports, linkUp, linkEvent_links]
  refine ⟨?_, onlyPort_trans (modPort_onlyPort s p _) (onlyPort_of_ports hkept p), l, logs_trans hup hnow hlog⟩
  rw [getPort_congr hkept, getPort_modPort_self]

/-- A new attempt begins on the port, with the own IDENT (R260, R261). -/
theorem attempt_spec (s : State) (p : Nat) : let t := attempt s p
    (getPort t p).state = 1 ∧ (getPort t p).attempts = (getPort s p).attempts ∧ (getPort t p).identOk = false ∧
    (getPort t p).credited = false ∧ (getPort t p).replay = [] ∧ onlyPort s t p ∧ logs s t [] ∧
    ∃ f, t.out = flitOut p f :: s.out ∧ f.typ = 4 ∧ f.payload = identBytes (getPort s p) p := by
  dsimp only
  rw [attempt_getPort_self]
  exact ⟨rfl, rfl, rfl, rfl, rfl, attempt_onlyPort s p, logs_of_emitted rfl, attempt_out s p⟩

/-- A port that is lost with an event: what it carried is gone, and the other ports keep what they have received (R264, R265). -/
theorem lostWithEvent_spec (s : State) (p st kind sev : Nat) (l : List Nat) (h : sev ≠ 3) :
    let t := finishEnables (linkEvent (losePort s p st) p kind sev l)
    getPort t p = clearPort (getPort s p) st ∧ (∀ q, (getPort t q).rx = if q = p then [] else (getPort s q).rx) ∧
    logs s t [(0x840 + p, kind, sev, 0xFF, l)] := by
  have hport (q : Nat) : getPort (finishEnables (linkEvent (losePort s p st) p kind sev l)) q = getPort (losePort s p st) q := by
    rw [finishEnables_getPort]
    exact getPort_congr (congrArg Links.ports (linkEvent_links _ _ _ _ _)) q
  refine ⟨by rw [hport, getPort_losePort_self], fun q => by rw [hport, losePort_rx], ?_⟩
  exact (finishEnables_emitted _).trans (linkEvent_logs (losePort s p st) p kind sev l h)

/-! ## A NAK -/

/-- What a port that is live is: it runs, is UP and does not retrain. -/
theorem portLive_iff (s : State) (p : Nat) :
    portLive s p = true ↔ portRuns s p = true ∧ (getPort s p).state = 2 ∧ (getPort s p).retrain = none := by
  simp [portLive, and_assoc]

/-- The port once a NAK is taken (R250). -/
def nakTaken (x : Port) (n now : Nat) : Port :=
  { x with
    lastRx := now, replay := ackDrop n x.replay, resend := if ackDrop n x.replay = [] then none else some 0
    replayOf := n, replayCount := if x.replayOf = n then x.replayCount + 1 else 1, replays := x.replays + 1, ceReplays := x.ceReplays + 1 }

theorem nakTake_eq (p n : Nat) (s : State) : nakTake p n s =
    let u := modPort s p fun x => nakTaken x n (time s)
    if 8 ≤ (getPort u p).replayCount ∧ (getPort u p).state = 2 then retrain (modPort u p fun x => { x with replayCount := 0 }) p 2 else u := rfl

/-- The eighth replay of one FSEQ retrains an UP port, and no earlier one does (R264). -/
theorem nakTake_spec {p : Nat} {s : State} (n : Nat) (hup : (getPort s p).state = 2) (hretrain : (getPort s p).retrain = none) :
    let t := nakTake p n s; let x := getPort s p
    (getPort t p).replay = ackDrop n x.replay ∧ (getPort t p).replays = x.replays + 1 ∧ (getPort t p).queue = x.queue ∧
    (getPort t p).resend = (if ackDrop n x.replay = [] then none else some 0) ∧ onlyPort s t p ∧
    ((getPort t p).retrain = some 2 ↔ x.replayOf = n ∧ 7 ≤ x.replayCount) := by
  have hcount : 8 ≤ (nakTaken (getPort s p) n (time s)).replayCount ↔ (getPort s p).replayOf = n ∧ 7 ≤ (getPort s p).replayCount := by
    unfold nakTaken
    dsimp only
    split <;> omega
  have hfirst := modPort_onlyPort s p fun x => nakTaken x n (time s)
  simp only [nakTake_eq, getPort_modPort_self]
  split
  · next h =>
    obtain ⟨hport, honly, -⟩ := retrain_spec (modPort (modPort s p fun x => nakTaken x n (time s)) p fun x => { x with replayCount := 0 }) p 2
    rw [getPort_modPort_self, getPort_modPort_self] at hport
    rw [hport]
    exact ⟨rfl, rfl, rfl, rfl, onlyPort_trans (onlyPort_trans hfirst (modPort_onlyPort _ p _)) honly, iff_of_true rfl (hcount.mp h.1)⟩
  · next h =>
    rw [getPort_modPort_self]
    refine ⟨rfl, rfl, rfl, rfl, hfirst, iff_of_false ?_ fun hc => h ⟨hcount.mpr hc, hup⟩⟩
    exact fun hsome => absurd (hretrain.symm.trans hsome) (Option.some_ne_none 2).symm

/-! ## The end of a retrain -/

section
variable {p : Nat} {s : State} {b : Bytes}

theorem retrainComplete_settles (hruns : portRuns s p = true) (hretrain : (getPort s p).retrain.isSome = true) (ok : Bool) (n : Nat) :
    exec (.retrainComplete p ok b n) s = .next (settleAll (retrainEnd p ok (identRead b) n s)) :=
  congrArg Host.Outcome.next (when_due _ s (by simp [hruns, hretrain]))

/-- With the earlier peer's IDENT sending resumes at the acknowledged FSEQ (R264). -/
theorem retrainEnd_resumes (hrsvd : (identRead b).rsvd = false) (hmatch : identMatches (getPort s p) (identRead b) = true) (n : Nat) :
    let t := retrainEnd p true (identRead b) n s; let x := getPort s p
    (getPort t p).retrain = none ∧ (getPort t p).replay = ackDrop n x.replay ∧ (getPort t p).queue = x.queue ∧
    (getPort t p).state = x.state ∧ onlyPort s t p ∧ logs s t [] := by
  dsimp only
  rw [retrainEnd, if_neg (by simp [hrsvd]), if_pos hmatch, getPort_modPort_self]
  exact ⟨rfl, rfl, rfl, rfl, modPort_onlyPort s p _, logs_of_emitted rfl⟩

theorem adopt_lost_getPort (u : State) (p st kind sev : Nat) (l : List Nat) :
    getPort (adopt (linkEvent (losePort u p st) p kind sev l)) p = clearPort (getPort u p) st := by
  rw [getPort_congr (adopt_rootMoves _).ports, getPort_congr (congrArg Links.ports (linkEvent_links _ _ _ _ _)), getPort_losePort_self]

/-- A retrain that fails leaves the port DOWN and empty (R264). -/
theorem retrainEnd_down {ok : Bool} (hfail : ok = false ∨ (identRead b).rsvd = true) (n : Nat) :
    let t := retrainEnd p ok (identRead b) n s
    (getPort t p).state = 3 ∧ (getPort t p).queue = [] ∧ (getPort t p).replay = [] := by
  dsimp only
  rw [retrainEnd, if_pos (by simpa using hfail), adopt_lost_getPort]
  exact ⟨rfl, rfl, rfl⟩

/-- Another peer's IDENT leaves the port MISWIRED and empty (R264). -/
theorem retrainEnd_miswired (hrsvd : (identRead b).rsvd = false) (hmatch : identMatches (getPort s p) (identRead b) = false) (n : Nat) :
    let t := retrainEnd p true (identRead b) n s
    (getPort t p).state = 4 ∧ (getPort t p).queue = [] ∧ (getPort t p).replay = [] := by
  dsimp only
  rw [retrainEnd, if_neg (by simp [hrsvd]), if_neg (by simp [hmatch]), miswire, adopt_lost_getPort]
  exact ⟨rfl, rfl, rfl⟩

end

/-! ## Corrected errors -/

/-- LINK_CE is due: no report within the last second (R265). -/
def ceDue (x : Port) (now : Nat) : Bool := match x.ceAt with
  | some t => t + 1000000000 ≤ now
  | none => true

theorem ceDue_iff (x : Port) (now : Nat) : ceDue x now = true ↔ ∀ k, x.ceAt = some k → k + 1000000000 ≤ now := by
  unfold ceDue
  split
  · next k h => simp [h]
  · next h => simp [h]

theorem linkReport_eq (p : Nat) (s : State) : linkReport p s =
    if ceDue (getPort s p) (time s) && ((getPort s p).ceFec != 0 || (getPort s p).ceReplays != 0) then
      linkEvent (modPort s p fun x => { x with ceFec := 0, ceReplays := 0, ceAt := some (time s) }) p 0x105 sevInfo
        [(getPort s p).ceFec, (getPort s p).ceReplays]
    else s := rfl

/-- The counts since the last report are logged and start again (R265). -/
theorem linkReport_due {p : Nat} {s : State} (hcount : (getPort s p).ceFec ≠ 0 ∨ (getPort s p).ceReplays ≠ 0)
    (hdue : ∀ k, (getPort s p).ceAt = some k → k + 1000000000 ≤ time s) : let t := linkReport p s
    getPort t p = { getPort s p with ceFec := 0, ceReplays := 0, ceAt := some (time s) } ∧ onlyPort s t p ∧
    logs s t [(0x840 + p, 0x105, 0, 0xFF, [(getPort s p).ceFec, (getPort s p).ceReplays])] := by
  dsimp only
  rw [linkReport_eq, if_pos (by simpa [(ceDue_iff _ _).mpr hdue] using hcount), linkEvent_plain _ _ _ _ _ (by decide)]
  exact ⟨getPort_modPort_self s p _, modPort_onlyPort s p _, rfl⟩

theorem linkReport_not_due {p : Nat} {s : State} (h : (getPort s p).ceFec = 0 ∧ (getPort s p).ceReplays = 0 ∨
    ∃ k, (getPort s p).ceAt = some k ∧ time s < k + 1000000000) : linkReport p s = s := by
  rw [linkReport_eq, if_neg]
  rcases h with ⟨hfec, hreplays⟩ | ⟨k, hat, hearly⟩
  · simp [hfec, hreplays]
  · simp [ceDue, hat, Nat.not_le.mpr hearly]

/-! ## Pool sizes that the peer announces -/

/-- Some flit of a pool's channel awaits ACK. -/
def awaitsAck (x : Port) (z : PoolSize) : Bool := x.replay.any fun f => f.typ == 1 && f.chan == z.chan

theorem awaitsAck_iff (x : Port) (z : PoolSize) : awaitsAck x z = true ↔ ∃ f ∈ x.replay, f.typ = 1 ∧ f.chan = z.chan := by
  simp [awaitsAck]

/-- A pool once its size is taken (R255): an increase at once, a reduction once no flit of the channel awaits ACK. -/
def sizedPool (z : PoolSize) (busy : Bool) (q : TxPool) : TxPool :=
  if q.size ≤ z.size ∨ (!busy) = true then { q with size := z.size, reduce := none } else { q with reduce := some z.size }

theorem applySize_pool (x : Port) (z : PoolSize) : tget {} (applySize x z).txPools (poolKey z.chan z.transit) =
    sizedPool z (awaitsAck x z) (tget {} x.txPools (poolKey z.chan z.transit)) :=
  tget_tmod_self {} x.txPools (poolKey z.chan z.transit) (sizedPool z (awaitsAck x z))

theorem applySize_spec (x : Port) (z : PoolSize) :
    let q := tget {} x.txPools (poolKey z.chan z.transit); let q' := tget {} (applySize x z).txPools (poolKey z.chan z.transit)
    (q.size ≤ z.size → q'.size = z.size) ∧
    (z.size < q.size → (∀ f ∈ x.replay, f.typ = 1 → f.chan ≠ z.chan) → q'.size = z.size) ∧
    (z.size < q.size → (∃ f ∈ x.replay, f.typ = 1 ∧ f.chan = z.chan) → q'.size = q.size ∧ q'.reduce = some z.size) := by
  dsimp only
  rw [applySize_pool, sizedPool]
  refine ⟨fun hgrow => ?_, fun hcut hidle => ?_, fun hcut hbusy => ?_⟩
  · rw [if_pos (.inl hgrow)]
  · have hfree : awaitsAck x z = false := by
      rw [Bool.eq_false_iff, Ne, awaitsAck_iff]
      rintro ⟨f, hf, htyp, hchan⟩
      exact hidle f hf htyp hchan
    rw [if_pos (.inr (by rw [hfree]; rfl))]
  · rw [if_neg (by simp [(awaitsAck_iff x z).mpr hbusy, hcut])]
    exact ⟨rfl, rfl⟩

theorem creditSetReceive_takes {p : Nat} {s : State} (hruns : portRuns s p = true) (hstate : (getPort s p).state = 2 ∨ (getPort s p).state = 1)
    (l : List PoolSize) : exec (.creditSetReceive p l) s = .next (modPort s p fun x => takeSizes x l) :=
  congrArg Host.Outcome.next (when_due _ s (by simpa [hruns] using hstate))

/-- Settles O29, event by event. -/
theorem linksTrainAndRetrain : Obligations.LinksTrainAndRetrain := by
  unfold Obligations.LinksTrainAndRetrain
  intro p b s
  dsimp only
  refine ⟨fun hruns hstate => ⟨fun hrsvd => ?_, fun hrsvd hmatch => ?_, fun hrsvd hmatch => ?_, fun htrained => ?_, fun ok hfail hearly => ?_,
      fun ok hfail hthird => ?_⟩,
    fun hlive => ⟨fun lane hlane => ?_, fun hwaits hlate => ?_, fun n => ?_⟩,
    fun hruns hretrain => ⟨fun hrsvd hmatch n => ?_, fun ok n hfail => ?_, fun hrsvd hmatch n => ?_⟩,
    fun hruns => ⟨fun hcount hdue => ?_, fun hnot => ?_⟩, fun hruns hstate z => ?_⟩
  · exact congrArg Host.Outcome.next (when_not_due _ s (by simp [hrsvd]))
  · exact ⟨_, identReceive_confirms hruns hstate hrsvd hmatch, getPort_modPort_self s p _, modPort_onlyPort s p _, logs_of_emitted rfl⟩
  · obtain ⟨hport, hrx, hlog⟩ := lostWithEvent_spec s p 4 0x103 2
      [p, (getPort s p).peer.id, (getPort s p).peer.port, (identRead b).deviceId, (identRead b).port] (by decide)
    refine ⟨_, identReceive_miswires hruns hstate hrsvd hmatch, ?_, ?_, ?_, hrx, hlog⟩ <;> exact congrArg _ hport
  · exact ⟨_, trainingAttemptEnd_up hruns hstate htrained, linkUp_spec s p⟩
  · obtain ⟨hst, hatt, hident, hcred, hreplay, honly, hlog, f, hout, htyp, hpay⟩ := attempt_spec (attemptFailed s p) p
    rw [attemptFailed, getPort_modPort_self] at hatt hpay
    exact ⟨_, trainingAttemptEnd_again hruns hstate hfail hearly, hst, hatt, hident, hcred, hreplay,
      onlyPort_trans (modPort_onlyPort s p _) honly, hlog, f, hout, htyp, hpay⟩
  · obtain ⟨hport, hrx, hlog⟩ := lostWithEvent_spec s p 3 0x101 2 [p, Config.causeCode 0x101 0] (by decide)
    exact ⟨_, trainingAttemptEnd_down hruns hstate hfail hthird, congrArg Port.state hport, congrArg Port.queue hport, hrx, _, hlog⟩
  · obtain ⟨hport, honly, hout, hhealth, hlog⟩ := retrain_spec s p 3
    exact ⟨_, congrArg Host.Outcome.next (when_due _ s (by simp [hlive, hlane])), hport, honly, hout, hhealth, hlog⟩
  · obtain ⟨hport, honly, -, hhealth, hlog⟩ := retrain_spec s p 1
    exact ⟨_, congrArg Host.Outcome.next (when_due _ s (by simp [hlive, hwaits, hlate])), hport, honly, hhealth, hlog⟩
  · obtain ⟨-, hup, hretrain⟩ := (portLive_iff s p).mp hlive
    exact ⟨_, congrArg Host.Outcome.next (when_due _ s (by simp [portFlits, hlive])), nakTake_spec n hup hretrain⟩
  · exact ⟨_, retrainComplete_settles hruns hretrain true n, _, rfl, retrainEnd_resumes hrsvd hmatch n⟩
  · exact ⟨_, retrainComplete_settles hruns hretrain ok n, _, rfl, retrainEnd_down hfail n⟩
  · exact ⟨_, retrainComplete_settles hruns hretrain true n, _, rfl, retrainEnd_miswired hrsvd hmatch n⟩
  · exact ⟨_, congrArg Host.Outcome.next (when_due _ s hruns), linkReport_due hcount hdue⟩
  · exact congrArg Host.Outcome.next ((when_due _ s hruns).trans (linkReport_not_due hnot))
  · refine ⟨_, creditSetReceive_takes hruns hstate [z], ?_⟩
    dsimp only
    rw [getPort_modPort_self]
    exact ⟨modPort_onlyPort s p _, rfl, rfl, applySize_spec (getPort s p) z⟩

end Sys2Proof.Machine
end

section
/-! The flit in order (R248–R255): its CRC, and a pool that the flit's own report leaves without room. -/

namespace Sys2Proof.Machine

/-! ## The CRC of a flit's bytes -/

theorem crcBit_lt {p c : Nat} (hp : p < 2 ^ 32) (hc : c < 2 ^ 32) : crcBit p c < 2 ^ 32 := by
  unfold crcBit
  split
  · exact Nat.xor_lt_two_pow (by omega) hp
  · omega

theorem crcByte_lt {p c : Nat} (hp : p < 2 ^ 32) (hc : c < 2 ^ 32) (b : Byte) : crcByte p c b < 2 ^ 32 := by
  have hx : c.xor b.toNat < 2 ^ 32 := Nat.xor_lt_two_pow hc (by omega)
  unfold crcByte
  iterate 8 refine crcBit_lt hp ?_
  exact hx

theorem crc32With_lt {p : Nat} (hp : p < 2 ^ 32) (b : Bytes) : crc32With p b < 2 ^ 32 := by
  have hfold : ∀ (b : Bytes) (c : Nat), c < 2 ^ 32 → b.foldl (crcByte p) c < 2 ^ 32 := by
    intro b
    induction b with
    | nil => exact fun _ hc => hc
    | cons x b ih => exact fun c hc => ih _ (crcByte_lt hp hc x)
  exact Nat.xor_lt_two_pow (hfold b _ (by decide)) (by decide)

theorem slice_append {a b : Bytes} {off n : Nat} (ha : a.length = off) (hb : b.length = n) : slice (a ++ b) off n = b := by
  rw [slice, List.drop_left' ha, List.take_of_length_le (Nat.le_of_eq hb), hb, Nat.sub_self]
  exact List.append_nil b

theorem flitBody_length (f : Flit) : (flitBody f).length = 252 := by
  rw [flitBody, List.length_append, pack, leBytes_length, slice_length]

/-- The bytes of a flit pass its CRC (R249). -/
theorem flitCrcOk_flitBytes (f : Flit) : flitCrcOk (flitBytes f) = true := by
  have hlen := flitBody_length f
  have hcrc : crc32 (flitBody f) < 2 ^ 32 := crc32With_lt (by decide) _
  have htail : slice (flitBytes f) 252 4 = leBytes 4 (crc32 (flitBody f)) := slice_append hlen (leBytes_length 4 _)
  have hbody : (flitBytes f).take 252 = flitBody f := List.take_left' hlen
  have hsum : leNat (leBytes 4 (crc32 (flitBody f))) = crc32 (flitBody f) := (leNat_leBytes 4 _).trans (Nat.mod_eq_of_lt hcrc)
  have htotal : (flitBytes f).length = 256 := by rw [flitBytes, List.length_append, hlen, leBytes_length]
  rw [flitCrcOk, htail, hbody, hsum, htotal, beq_self_eq_true, beq_self_eq_true, Bool.and_self]

/-! ## A pool that shrinks as its flit arrives -/

/-- An UP port whose only pool has room for one flit, with a size of 0 waiting to be given to it. -/
def shrinkingPort : Port := { state := 2, rxPools := [(0, { size := 1 })], grow := [⟨0, false, 0⟩] }

def shrinking : State := { State.reset with pins := { sysRst := false }, links := { ports := [(0, shrinkingPort)] } }

/-- The first DATA flit of channel 0. -/
def firstData : Bytes := flitBytes { typ := 1 }

/-- The flit's report has the waiting size take effect first, and the flit is a stray for the pool of size 0 (R255). -/
theorem shrinking_discards : (getPort (flitReceive 0 (flitOf firstData) true (countFec shrinking 0 0)) 0).rx = [] := by decide

/-- A flit that comes while flits flow is taken, as one that fails its CRC when its codewords cannot be corrected (R248). -/
theorem flitReceive_flows {p : Nat} {s : State} (h : portFlits s p = true) (b : Bytes) (errs : List Nat) :
    exec (.flitReceive p b errs) s = .next (flitReceive p (flitOf b) (fecOk errs && flitCrcOk b) (countFec s p (fecCount errs))) :=
  congrArg Host.Outcome.next (when_due _ s h)

/-- Refutes O30: the clause of the flit delivered in order does not ask that no pool size wait to grow, as the clause of the stray does. A
size that waits takes effect as the flit's report is taken, before its place in the pool is looked for; a waiting size of 0 makes the flit
a stray. `announce`, which alone has sizes wait, has none of 0 wait; the clause speaks of every state all the same. -/
theorem not_flitsMoveInOrder : ¬ Obligations.FlitsMoveInOrder := by
  unfold Obligations.FlitsMoveInOrder
  intro h
  have hflits : portFlits shrinking 0 = true := by decide
  obtain ⟨-, -, -, -, -, -, -, hlocal, -⟩ := h 0 shrinking hflits
  obtain ⟨t, ht, -, -, hrx, -⟩ :=
    hlocal firstData [] (by decide) (flitCrcOk_flitBytes _) (by decide) (by decide) (by decide) (by decide) (by decide) (by decide)
  rw [flitReceive_flows hflits, firstData, flitCrcOk_flitBytes] at ht
  obtain rfl := Host.Outcome.next.inj ht
  have hnil : tget [] (getPort (flitReceive 0 (flitOf firstData) true (countFec shrinking 0 0)) 0).rx 0 = [] := by rw [shrinking_discards]; rfl
  exact List.append_ne_nil_of_right_ne_nil _ (List.cons_ne_nil _ _) (hrx.symm.trans hnil)

end Sys2Proof.Machine
end

section
/-! The groups of a part (R267, R276, R290): what the shared operations leave of them, and when the work of a group acts. -/

namespace Sys2Proof.Machine

/-! ## Access -/

/-- What reads only the groups does not see a change elsewhere. -/
theorem getGroup_congr {s t : State} (h : t.groups = s.groups) (g : Nat) : getGroup t g = getGroup s g := by rw [getGroup, h, getGroup]

@[simp] theorem getGroup_setGroup_self (s : State) (g : Nat) (x : Group) : getGroup (setGroup s g x) g = some x := tfind_tset_self x g s.groups

@[simp] theorem getGroup_modGroup_self (s : State) (g : Nat) (f : Group → Group) : getGroup (modGroup s g f) g = (getGroup s g).map f := by
  unfold modGroup
  split
  · next h => rw [getGroup_setGroup_self, h, Option.map_some]
  · next h => rw [h, Option.map_none]

theorem getGroup_modCur_of_open {s : State} {g : Nat} {x : Group} {i : Inst} (hx : getGroup s g = some x) (hcur : x.cur = some i)
    (f : Inst → Inst) : getGroup (modCur s g f) g = some { x with cur := some (f i), progress := time s } := by
  rw [modCur, getGroup_modGroup_self, hx, Option.map_some, hcur]

theorem getGroup_modDisp {s : State} {g : Nat} {x : Group} (hx : getGroup s g = some x) (f : DInst → DInst) :
    getGroup (modDisp s g f) g = some { x with disp := f x.disp } := by
  rw [modDisp, getGroup_modGroup_self, hx, Option.map_some]

/-! ## Work of a group -/

/-- The work of a group acts unless its district is PAUSED (R290). -/
theorem groupWork_settles {s : State} {g : Nat} {x : Group} (hx : getGroup s g = some x) (hrun : (getDist s x.dist).state ≠ 5)
    {f : State → State} {P : State → Prop} (h : P (f s)) : goesToAllSettled (groupWork g f s) P := by
  have hfree : (!frozen s g) = true := by simp [frozen, hx, hrun]
  exact ⟨settleAll (f s), by rw [groupWork, when_due f s hfree], f s, rfl, h⟩

/-- The messages in staging stay there while no plan says what to do with them. -/
theorem actHeld_unplanned {s : State} {g : Nat} {x : Group} (hx : getGroup s g = some x) (hplan : x.plan = none) : actHeld g s = s := by
  simp [actHeld, hx, hplan]

theorem verified_unplanned {x : Group} (hplan : x.plan = none) : verified x = true := by rw [verified, hplan]

/-- A binding with whose signature every held message agrees leaves the messages held (R276). -/
theorem planTaken_agrees {s : State} {g : Nat} {x : Group} (hx : getGroup s g = some x) (hplan : x.plan = none)
    (hsig : ∀ m ∈ x.inbox, m.sig = x.sig) : planTaken g s = s := by
  have hany : (x.inbox.any fun m => m.sig != x.sig) = false := by simpa using hsig
  rw [planTaken, hx]
  dsimp only
  rw [if_neg (by simp [hany]), if_pos (verified_unplanned hplan), actHeld_unplanned hx hplan]

/-- The check of R291 lets through a command of a group of the district in one of the states listed. -/
theorem firstErr_groupIn {s : State} {d g : Nat} {ok : List Nat} {x : Group} (hx : getGroup s g = some x) (hd : x.dist = d) (hok : x.state ∈ ok)
    (l : List (Bool × Err)) : firstErr (groupIn s d g ok :: l) = firstErr l := by
  simp [groupIn, hx, hd, hok, firstErr_cons]

end Sys2Proof.Machine
end

section
/-! The expert directory and the dispatch binding (R311–R313, R327): what entries written leave of a directory, and what each command does
once its checks pass. -/

namespace Sys2Proof.Machine

/-! ## Entries written -/

theorem dirPut_cons (m : AMap Bytes) (first : Nat) (e : Bytes) (es : List Bytes) :
    dirPut m first (e :: es) = dirPut (tset m first e) (first + 1) es := by
  have hstep : (fun (m : AMap Bytes) (q : Bytes × Nat) => tset m (first + (q.2 + 1)) q.1) = fun m q => tset m (first + 1 + q.2) q.1 := by
    funext m q
    rw [Nat.add_assoc, Nat.add_comm 1]
  simp only [dirPut, List.zipIdx_cons, List.foldl_cons, List.zipIdx_succ, List.foldl_map, Nat.add_zero, hstep]

/-- Entries are written at their own indices alone. -/
theorem tget_dirPut_out (d : Bytes) {i : Nat} : ∀ (es : List Bytes) (m : AMap Bytes) (first : Nat), i < first ∨ first + es.length ≤ i →
    tget d (dirPut m first es) i = tget d m i
  | [], _, _, _ => rfl
  | e :: es, m, first, h => by
    rw [List.length_cons] at h
    rw [dirPut_cons, tget_dirPut_out d es _ _ (by omega), tget_tset_ne d e m (by omega)]

/-- An entry stands where it was written. -/
theorem tget_dirPut_in (d : Bytes) {e : Bytes} : ∀ (es : List Bytes) (m : AMap Bytes) (first i : Nat), es[i]? = some e →
    tget d (dirPut m first es) (first + i) = e
  | [], _, _, _, h => by cases h
  | a :: es, m, first, 0, h => by
    cases h
    show tget d (dirPut m first (e :: es)) first = e
    rw [dirPut_cons, tget_dirPut_out d es _ _ (.inl (Nat.lt_succ_self first)), tget_tset_self]
  | a :: es, m, first, i + 1, h => by
    rw [dirPut_cons, Nat.add_comm i 1, ← Nat.add_assoc]
    exact tget_dirPut_in d es _ (first + 1) i h

/-- An index within the district's range reads the directory as it stands. -/
theorem dirEntry_of_lt {x : Dist} {i : Nat} (h : i < x.dirCount) : dirEntry x i = tget dirReset x.dir i := if_pos h

theorem flatMap_dirEntry {x : Dist} {first n : Nat} (h : first + n ≤ x.dirCount) :
    ((List.range n).flatMap fun i => dirEntry x (first + i)) = (List.range n).flatMap fun i => tget dirReset x.dir (first + i) := by
  refine List.flatMap_congr fun i hi => dirEntry_of_lt ?_
  have := List.mem_range.mp hi
  omega

/-! ## What a woken loop leaves -/

@[simp] theorem wakeLoop_dir (s : State) (d i : Nat) : (getDist (wakeLoop s d) i).dir = (getDist s i).dir := by
  obtain ⟨l, hl⟩ := getDist_wakeLoop s d i
  rw [hl]

@[simp] theorem wakeLoop_dirWrites (s : State) (d i : Nat) : (getDist (wakeLoop s d) i).dirWrites = (getDist s i).dirWrites := by
  obtain ⟨l, hl⟩ := getDist_wakeLoop s d i
  rw [hl]

@[simp] theorem dirEntry_wakeLoop (s : State) (d i n : Nat) : dirEntry (getDist (wakeLoop s d) i) n = dirEntry (getDist s i) n := by
  obtain ⟨l, hl⟩ := getDist_wakeLoop s d i
  rw [hl, dirEntry, dirEntry]

@[simp] theorem dispOpen_wakeLoop (s : State) (d k : Nat) : dispOpen (wakeLoop s d) k = dispOpen s k := by
  rw [dispOpen, wakeLoop_groups, dispOpen]

/-! ## COLL_DIR_WRITE -/

/-- The number of the first entry that a directory command names. -/
def firstEntry (c : FwReq) : Nat := fld c.payload 15 0

/-- The entries of a COLL_DIR_WRITE written at once. -/
def dirWritten (c : FwReq) (s : State) : State :=
  replyOk (modDist s (cmdDist c) fun x => { x with dir := dirPut x.dir (firstEntry c) (dirEntries c.payload) }) c 0x0540 []

/-- The entries of a COLL_DIR_WRITE held (R312). -/
def dirHeld (c : FwReq) (s : State) : State :=
  modDist (replyAccepted s c 0x0540) (cmdDist c) fun x =>
    { x with dirWrites := x.dirWrites ++ [⟨pendOf (replyAccepted s c 0x0540) c 0x0540, firstEntry c, dirEntries c.payload⟩] }

section
variable {c : FwReq} {s : State}

theorem collDirWrite_acts (h : Sendable specDirWrite c s) (hmin : 8 ≤ c.payload.length)
    (hlen : c.payload.length = 8 + 32 * fld c.payload 19 16) (hres : zeroAt c.payload [(63, 20)] = true)
    (hes : ∀ e ∈ dirEntries c.payload, dirRsvdOk e = true) (hpos : 1 ≤ fld c.payload 19 16) (hmax : fld c.payload 19 16 ≤ 14)
    (hok : dirWriteOk (getDist s (cmdDist c)) (firstEntry c) (dirEntries c.payload) = true)
    (hstate : (getDist s (cmdDist c)).state ∈ setUpStates) :
    exec (.collDirWrite c) s = .next (if dispOpen s (cmdDist c) = false ∧ (getDist s (cmdDist c)).dirWrites = []
      then dirWritten c (wakeLoop s (cmdDist c)) else dirHeld c (wakeLoop s (cmdDist c))) := by
  have hform : (decide (8 ≤ c.payload.length) && c.payload.length == 8 + 32 * fld c.payload 19 16 && zeroAt c.payload [(63, 20)]
      && (dirEntries c.payload).all dirRsvdOk) = true := by
    rw [Bool.and_eq_true, List.all_eq_true]
    exact ⟨by rw [hres, decide_eq_true hmin, beq_iff_eq.mpr hlen]; rfl, hes⟩
  refine (fwStep_district_acts h rfl hform ?_).trans ?_
  · rw [firstErr_cons, if_neg, firstErr_legalIn hstate]
    · rfl
    · rw [firstEntry] at hok
      rw [hok, beq_eq_false_iff_ne.mpr (by omega), decide_eq_false (by omega)]
      exact Bool.false_ne_true
  · simp only [dispOpen_wakeLoop, wakeLoop_dirWrites, Bool.not_eq_true', dirWritten, dirHeld, firstEntry]

theorem dirWritten_entries (c : FwReq) (s : State) :
    getDist (dirWritten c s) (cmdDist c) =
      { getDist s (cmdDist c) with dir := dirPut (getDist s (cmdDist c)).dir (firstEntry c) (dirEntries c.payload) } := by
  rw [dirWritten, getDist_replyOk, getDist_modDist_self]

theorem dirHeld_holds (c : FwReq) (s : State) :
    getDist (dirHeld c s) (cmdDist c) =
      { getDist s (cmdDist c) with
        dirWrites := (getDist s (cmdDist c)).dirWrites ++ [⟨pendOf s c 0x0540, firstEntry c, dirEntries c.payload⟩] } := by
  rw [dirHeld, getDist_modDist_self, getDist_replyAccepted, pendOf_replyAccepted]

theorem dirHeld_adds (c : FwReq) (s : State) : repliesAdd s (dirHeld c s) c.fn [acceptedReply c 0x0540] := replyAccepted_adds s c 0x0540

/-! ## The writes held -/

/-- The one write held installs while dispatch stands open in no group, and its command is answered (R312). -/
theorem dirWriteInstall_installs {k : Nat} {w : DirWrite} (hopen : dispOpen s k = false) (hheld : (getDist s k).dirWrites = [w]) :
    exec (.dirWriteInstall k) s =
      .next (finishOk (modDist s k fun x => { x with dir := dirPut x.dir w.first w.entries, dirWrites := [] }) w.pend []) := by
  have hdir : dirAfterHeld (getDist s k) = dirPut (getDist s k).dir w.first w.entries := by rw [dirAfterHeld, hheld]; rfl
  show Host.Outcome.next (dirInstall k s) = _
  rw [dirInstall, if_neg (by simp [hopen]), hheld]
  simp only [modDist, tmod, ← getDist.eq_1, hdir, List.foldl_cons, List.foldl_nil]

/-! ## COLL_DIR_READ -/

theorem collDirRead_acts (h : Sendable specDirRead c s) (hlen : c.payload.length = 8) (hres : zeroAt c.payload [(63, 20)] = true)
    (hpos : 1 ≤ fld c.payload 19 16) (hmax : fld c.payload 19 16 ≤ 14)
    (hrange : firstEntry c + fld c.payload 19 16 ≤ (getDist s (cmdDist c)).dirCount) (hstate : (getDist s (cmdDist c)).state ∈ anyState) :
    exec (.collDirRead c) s = .next (replyOk (wakeLoop s (cmdDist c)) c 0x0541
      ((List.range (fld c.payload 19 16)).flatMap fun i => tget dirReset (getDist s (cmdDist c)).dir (firstEntry c + i))) := by
  rw [firstEntry] at *
  refine (fwStep_district_acts h rfl (by simp [hlen, hres]) ?_).trans ?_
  · rw [firstErr_cons, if_neg, firstErr_legalIn hstate]
    · rfl
    · simp only [Bool.or_eq_true, beq_iff_eq, decide_eq_true_eq]
      omega
  · simp only [dirEntry_wakeLoop, flatMap_dirEntry hrange]

/-! ## COLL_DISP_BIND -/

/-- The group that a COLL_DISP_BIND leaves (R313): bound, without a plan, READY. -/
def boundGroup (c : FwReq) (x : Group) : Group :=
  { x with plan := none, bind := some c.payload, sig := planSig c.payload x.tag, state := 1 }

theorem collDispBind_acts {x : Group} (h : Sendable specDispBind c s) (hlen : c.payload.length = 96) (hres : zeroAt c.payload bindRsvd = true)
    (hx : getGroup s (cmdGroup c) = some x) (hd : x.dist = cmdDist c) (hok : bindOk (getDist s (cmdDist c)) c.payload x.members.length = true)
    (hstate : (getDist s (cmdDist c)).state ∈ setUpStates)
    (hfall : anyFallback c.payload = false ∨ (getDist s (cmdDist c)).serving = true ∨ (getDist s (cmdDist c)).approx = true)
    (hready : x.state ∈ [0, 1]) (hsig : ∀ m ∈ x.inbox, m.sig = planSig c.payload x.tag) :
    exec (.collDispBind c) s =
      .next (settleAll (replyOk (setGroup (wakeLoop s (cmdDist c)) (cmdGroup c) (boundGroup c x)) c 0x0542
        (leBytes 8 (planSig c.payload x.tag)))) := by
  refine (fwStep_district_acts h rfl (by simp [hlen, hres]) ?_).trans ?_
  · have hn : ((getGroup s (cmdGroup c)).map gP).getD 0 = x.members.length := by rw [hx]; rfl
    rw [hn, firstErr_cons, if_neg (by simp [hok]), firstErr_legalIn hstate, firstErr_cons, if_neg, firstErr_groupIn hx hd hready]
    · rfl
    · rcases hfall with hf | hf | hf <;> simp [hf]
  · have hy : getGroup (wakeLoop s (cmdDist c)) (cmdGroup c) = some x := by rw [getGroup_congr (wakeLoop_groups s _), hx]
    rw [hy]
    exact congrArg (fun t => Host.Outcome.next (settleAll (replyOk t c 0x0542 (leBytes 8 (planSig c.payload x.tag)))))
      (planTaken_agrees (x := boundGroup c x) (getGroup_setGroup_self _ _ _) rfl hsig)

/-! ## COLL_DISP_INFO -/

theorem collDispInfo_acts {x : Group} (h : Sendable specDispInfo c s) (hform : groupForm c.payload = true)
    (hstate : (getDist s (cmdDist c)).state ∈ anyState) (hx : getGroup s (cmdGroup c) = some x) (hd : x.dist = cmdDist c) (hmax : x.state ≤ 3) :
    exec (.collDispInfo c) s = .next (replyOk (wakeLoop s (cmdDist c)) c 0x0543 (leBytes 8 (b2n x.bind.isSome) ++ x.totals.flatMap (leBytes 8))) := by
  have hstates : x.state ∈ [0, 1, 2, 3] := by simp only [List.mem_cons, List.not_mem_nil, or_false]; omega
  refine (fwStep_district_acts h rfl hform ?_).trans ?_
  · rw [firstErr_legalIn hstate, firstErr_groupIn hx hd hstates]
    rfl
  · rw [getGroup_congr (wakeLoop_groups s _), hx]

end

/-- Settles O34: each command past its checks, and what it leaves read off the state it goes to. -/
theorem directoryCommandsComplete : Obligations.DirectoryCommandsComplete := by
  unfold Obligations.DirectoryCommandsComplete
  intro c s p d g es
  refine ⟨fun h hmin hlen hres hes hpos hmax hok hstate => ?_, fun k w hopen hheld hepoch => ?_, fun h hlen hres hpos hmax hrange hstate => ?_,
    fun x h hlen hres hx hd hok hstate hfall hready => ?_, fun x h hform hstate hx hd hmax => ?_⟩
  · have hacts := collDirWrite_acts h hmin hlen hres hes hpos hmax hok hstate
    refine ⟨fun hopen hnone => ?_, fun hwait => ?_⟩
    · rw [if_pos ⟨hopen, hnone⟩] at hacts
      refine ⟨_, hacts, repliesAdd_wakeLoop.mp (replyOk_modDist_adds _ c _ _ _ _), ?_⟩
      rw [dirWritten_entries, wakeLoop_dirWrites, wakeLoop_dir]
      exact ⟨hnone, fun i e he => tget_dirPut_in _ es _ _ i he, fun i hi => tget_dirPut_out _ es _ _ hi⟩
    · rw [if_neg (by rintro ⟨hopen, hnone⟩; rcases hwait with hw | hw; exacts [Bool.false_ne_true (hopen.symm.trans hw), hw hnone])] at hacts
      refine ⟨_, hacts, repliesAdd_wakeLoop.mp (dirHeld_adds c _), ?_⟩
      rw [dirHeld_holds, wakeLoop_dirWrites, wakeLoop_dir, pendOf_wakeLoop]
      exact ⟨rfl, rfl⟩
  · refine ⟨_, dirWriteInstall_installs hopen hheld, ?_⟩
    dsimp only
    rw [getDist_finishOk, getDist_modDist_self]
    exact ⟨rfl, finish_adds (modDist s k _) w.pend 0 0 [] hepoch, fun i e he => tget_dirPut_in _ w.entries _ _ i he⟩
  · refine ⟨_, collDirRead_acts h hlen hres hpos hmax hrange hstate, repliesAdd_wakeLoop.mp (replyOk_adds _ c _ _), ?_⟩
    rw [getDist_replyOk, wakeLoop_dir]
  · intro sig hsig
    refine ⟨_, collDispBind_acts h hlen hres hx hd hok hstate hfall hready hsig, _, rfl, repliesAdd_wakeLoop.mp (replyOk_adds _ c _ _), ?_⟩
    rw [getGroup_congr (replyOk_groups _ c _ _), getGroup_setGroup_self]
    rfl
  · refine ⟨_, collDispInfo_acts h hform hstate hx hd hmax, repliesAdd_wakeLoop.mp (replyOk_adds _ c _ _), ?_⟩
    rw [replyOk_groups, wakeLoop_groups]

end Sys2Proof.Machine
end

section
/-! What the operations on memory, counts and descriptors leave of the groups: all of it. -/

namespace Sys2Proof.Machine

/-! ## Memory -/

@[simp] theorem segWrite_groups (s : State) (e : Seg) (off : Nat) (b : Bytes) : (segWrite s e off b).groups = s.groups := by
  unfold segWrite
  split <;> rfl

@[simp] theorem segMark_groups (s : State) (e : Seg) (gs : List Nat) : (segMark s e gs).groups = s.groups := by
  unfold segMark
  split <;> rfl

/-- A mark leaves the bytes. -/
theorem segMark_data (s : State) (e : Seg) (gs : List Nat) : (getBack (segMark s e gs) e.bid).data = (getBack s e.bid).data := by
  unfold segMark
  split
  · rfl
  · rw [getBack_modBack_self]

/-- Bytes written read as they were written. -/
theorem memRead_memWrite : ∀ (d : Bytes) {m : Mem} (a : Nat), memWf m = true → memRead (memWrite m a d) a d.length = d
  | [], _, _, _ => rfl
  | b :: d, m, a, h => by
    rw [List.length_cons, memRead, memWrite, memRead_memWrite d (a + 1) (memSet_wf h), memGet_memWrite_out d _ _ _ (.inl (Nat.lt_succ_self a)),
      memGet_memSet_self h]

/-! ## Counts and faults -/

@[simp] theorem censusAdd_groups (s : State) (d tag source : Nat) (n : Cnt) : (censusAdd s d tag source n).groups = s.groups := by
  unfold censusAdd
  dsimp only
  rw [foldl_keeps (f := State.groups) fun t i => emit_groups t _ _ _ _ _]
  rfl

@[simp] theorem collEvent_groups (s : State) (x : Group) (kind sev : Nat) (l : List Nat) : (collEvent s x kind sev l).groups = s.groups :=
  emit_groups s _ _ _ _ _

@[simp] theorem countSoft_groups (s : State) (d core : Nat) : (countSoft s d core).groups = s.groups := censusAdd_groups s _ _ _ _

@[simp] theorem softFault_groups (s : State) (d core idx code : Nat) : (softFault s d core idx code).groups = s.groups := by
  unfold softFault
  split
  · rfl
  · dsimp only
    split
    · rfl
    · split <;> exact emit_groups s _ _ _ _ _

@[simp] theorem setWork_groups (s : State) (d core idx : Nat) (w : Work) : (setWork s d core idx w).groups = s.groups := rfl

/-! ## Contributions -/

theorem ordsum_groups (d source : Nat) (e : Seg) (off rank : Nat) (b : Bytes) (poison : Bool) (s : State) :
    (ordsum d source e off rank b poison s).groups = s.groups := by
  have hmark (c : Bool) (t : State) (gs : List Nat) : (if c then segMark t e gs else t).groups = t.groups := by
    split
    · exact segMark_groups t e gs
    · rfl
  unfold ordsum
  dsimp only
  split
  · rw [ordsumStray, censusAdd_groups, emit_groups]
  · split <;> simp only [segWrite_groups, hmark]

theorem contribute_groups (x : Group) (b : Bytes) (t r : Nat) (part : Nat → Bytes) (poison : Bool) (s : State) :
    (contribute x b t r part poison s).groups = s.groups := by
  refine foldl_keeps (f := State.groups) (fun u p => ?_) _ s
  split
  · exact ordsum_groups _ _ _ _ _ _ _ u
  · rfl

theorem zeroContribution_groups (x : Group) (b : Bytes) (t r : Nat) (s : State) : (zeroContribution x b t r s).groups = s.groups :=
  contribute_groups x b t r _ _ s

/-- The headers of the combine records are bytes of a segment: groups and districts stay. -/
theorem writeHeaders_keeps (x : Group) (b : Bytes) (s : State) :
    (writeHeaders x b s).groups = s.groups ∧ (writeHeaders x b s).dists = s.dists := by
  unfold writeHeaders
  split
  · exact ⟨rfl, rfl⟩
  · exact ⟨foldl_keeps (f := State.groups) (fun u i => segWrite_groups u _ _ _) _ s,
      foldl_keeps (f := State.dists) (fun u i => segWrite_dists u _ _ _) _ s⟩

/-! ## Takes -/

theorem takeWrite_groups (s : State) (coded : Bool) (r : CollReq) (v : ChunkVal) : (takeWrite s coded r v).groups = s.groups := by
  unfold takeWrite
  dsimp only
  split
  · rfl
  · split
    · rw [segMark_groups]
      exact foldl_keeps (f := State.groups) (fun u q => segWrite_groups u _ _ _) _ s
    · exact foldl_keeps (f := State.groups) (fun u q => segWrite_groups u _ _ _) _ s

/-! ## Pools -/

theorem freeHeld_groups (g : Nat) (s : State) (p : Nat) : (freeHeld g s p).groups = s.groups :=
  foldl_keeps (f := State.groups) (g := fun u _ => freeRx u p (poolKey g false)) (fun _ _ => rfl) _ s

/-- A message taken from its pool leaves the groups and the time. -/
theorem takeMsg_keeps {g p : Nat} {s u : State} {fs : List Flit} (h : takeMsg g p s = some (fs, u)) : u.groups = s.groups ∧ time u = time s := by
  refine ⟨?_, congrArg BitVec.toNat (now_of_anchor (takeMsg_anchor h))⟩
  unfold takeMsg at h
  split at h
  · cases h
  · cases h
    exact freeHeld_groups g s p

end Sys2Proof.Machine
end

section
/-! A block routed (R315–R318): what it leaves of a bound group while blocks are still to come. -/

namespace Sys2Proof.Machine

theorem mem_nsAdd (l : NSet) (a k : Nat) : k ∈ nsAdd l a ↔ k = a ∨ k ∈ l := by
  unfold nsAdd
  split
  · next h => exact ⟨.inr, fun hk => hk.elim (fun e => e ▸ List.contains_iff_mem.mp h) id⟩
  · rw [List.mem_append, List.mem_singleton, or_comm]

/-- The routing of a bound group's next block, from the counts and quotas as they stand. -/
def blockRouted (s : State) (x : Group) (b : Bytes) (routes rows : ChunkVal) : Rt :=
  routeBlock x (dirEntry (getDist s x.dist)) b x.disp.routed routes rows { cnt := x.disp.cnt, counts := x.disp.counts }

/-- The dispatch part of a group after a block, which may be the last. -/
def afterBlock (blk : Nat) (last : Bool) (a : Rt) (q : DInst) : DInst :=
  { q with headers := true, routed := blk + 1, cnt := a.cnt, counts := a.counts, toks := q.toks ++ a.toks
           unrLogged := q.unrLogged || a.bad != [], sent := last }

/-- The put half after a block: its two chunks are done with (R269). -/
def blockDone (blk : Nat) (i : Inst) : Inst := { i with done0 := nsAdd (nsAdd i.done0 (2 * blk)) (2 * blk + 1) }

/-- What routing a block leaves outside its group: the zero contributions, the counts of failed lookups, and the first of them logged
(R315, R316). -/
def routingNoted (g : Nat) (x : Group) (b : Bytes) (a : Rt) (s : State) : State :=
  let t := a.bad.foldl (fun s _ => censusAdd s x.dist 1023 dispSource { nonfin := 1 })
    (a.zero.foldl (fun s z => zeroContribution x b z.1 z.2 s) s)
  match x.disp.unrLogged, a.bad with
  | false, u :: _ => emit t dispSource 0x151 sevNotice x.dist [g, x.seq, u.1, u.2.1, u.2.2]
  | _, _ => t

theorem routingNoted_groups (g : Nat) (x : Group) (b : Bytes) (a : Rt) (s : State) : (routingNoted g x b a s).groups = s.groups := by
  have hcounts : (a.bad.foldl (fun s _ => censusAdd s x.dist 1023 dispSource { nonfin := 1 })
      (a.zero.foldl (fun s z => zeroContribution x b z.1 z.2 s) s)).groups = s.groups := by
    rw [foldl_keeps (f := State.groups) fun u (_ : Nat × Nat × Nat) => censusAdd_groups u _ _ _ _,
      foldl_keeps (f := State.groups) fun u (z : Nat × Nat) => zeroContribution_groups x b z.1 z.2 u]
  unfold routingNoted
  dsimp only
  split
  · exact (emit_groups _ _ _ _ _ _).trans hcounts
  · exact hcounts

/-- A block that is not the last writes to memory, the counts and the log, and in its group to the put half and the dispatch part. -/
theorem blockRoute_routes {s : State} {g : Nat} {x : Group} {b : Bytes} {i : Inst} {routes rows : ChunkVal} (hx : getGroup s g = some x)
    (hb : x.bind = some b) (hcur : x.cur = some i) (hroutes : tfind i.puts (2 * x.disp.routed) = some routes)
    (hrows : tfind i.puts (2 * x.disp.routed + 1) = some rows) (hmore : x.disp.routed + 1 < bNBlk b) :
    ∃ n, getGroup (blockRoute g s) g =
      some { x with
        cur := some (blockDone x.disp.routed i), progress := n
        disp := afterBlock x.disp.routed false (blockRouted s x b routes rows) x.disp } := by
  obtain ⟨w, hw, hgroups, hdists⟩ : ∃ w, (if x.disp.headers = true then s else writeHeaders x b s) = w ∧ w.groups = s.groups ∧
      w.dists = s.dists := by
    refine ⟨_, rfl, ?_⟩
    split
    · exact ⟨rfl, rfl⟩
    · exact writeHeaders_keeps x b s
  have hlast : (!decide (x.disp.routed + 1 = bNBlk b)) = true := by simp [Nat.ne_of_lt hmore]
  have hroom : ¬ bNBlk b ≤ x.disp.routed := Nat.not_le.mpr (Nat.lt_of_succ_lt hmore)
  have hacts : blockRoute g s = modDisp (modCur (routingNoted g x b (blockRouted s x b routes rows) w) g (blockDone x.disp.routed)) g
      (afterBlock x.disp.routed (decide (x.disp.routed + 1 = bNBlk b)) (blockRouted s x b routes rows)) := by
    simp only [blockRoute, hx, hb, hcur, hroutes, hrows, if_neg hroom, hw, getDist_congr hdists]
    rw [if_pos hlast]
    rfl
  have hnoted : getGroup (routingNoted g x b (blockRouted s x b routes rows) w) g = some x := by
    rw [getGroup_congr ((routingNoted_groups g x b _ w).trans hgroups), hx]
  refine ⟨time (routingNoted g x b (blockRouted s x b routes rows) w), ?_⟩
  rw [hacts, getGroup_modDisp (getGroup_modCur_of_open hnoted hcur _), decide_eq_false (Nat.ne_of_lt hmore)]

end Sys2Proof.Machine
end

section
/-! Messages of a bound group (R318, R321, R323): they enter staging, and the tokens that they bring start the warming of cold experts. -/

namespace Sys2Proof.Machine

/-- What the warming of cold experts leaves of a group, and the links: the messages in staging, the puts and takes under way and the state code. -/
def stagingView (g : Nat) (s : State) : Option (List Msg × Option Inst × Nat) × Links :=
  ((getGroup s g).map fun x => (x.inbox, x.cur, x.state), s.links)

theorem stagingView_congr {s t : State} (hg : t.groups = s.groups) (hl : t.links = s.links) (g : Nat) : stagingView g t = stagingView g s := by
  rw [stagingView, getGroup_congr hg, hl, stagingView]

theorem modDisp_stagingView (s : State) (g : Nat) (f : DInst → DInst) : stagingView g (modDisp s g f) = stagingView g s := by
  rw [stagingView, modDisp, getGroup_modGroup_self, Option.map_map, modGroup_links]
  rfl

theorem emit_stagingView (s : State) (a b c d : Nat) (l : List Nat) (g : Nat) : stagingView g (emit s a b c d l) = stagingView g s :=
  stagingView_congr (emit_groups s a b c d l) (emit_links s a b c d l) g

/-- The warming that a token starts is noted in the dispatch part, and the log may show that staging has no room (R321). -/
theorem warmToken_stagingView (g : Nat) (t : DTok) (s : State) : stagingView g (warmToken g t s) = stagingView g s := by
  unfold warmToken
  split
  · rfl
  · split
    · rfl
    · dsimp only
      split
      · rfl
      · split
        · exact modDisp_stagingView s g _
        · exact (modDisp_stagingView _ g _).trans ((emit_stagingView _ _ _ _ _ _ g).trans (modDisp_stagingView s g _))

theorem warmHeld_stagingView (g : Nat) (s : State) : stagingView g (warmHeld g s) = stagingView g s := by
  unfold warmHeld
  split
  · rfl
  · split
    · rfl
    · exact foldl_keeps (f := stagingView g) (fun u m => foldl_keeps (f := stagingView g) (fun v t => warmToken_stagingView g t v) _ u) _ s

/-- A message of the epoch, numbered `seq` or the one after, with the group's signature, enters a bound group's staging (R269, R276). -/
theorem chunkReceive_stages {s : State} {g p src : Nat} {fs : List Flit} {x : Group} {m : Msg} (hx : getGroup s g = some x)
    (hplan : x.plan = none) (hsrc : posOf x (fs.headD { typ := 1 }).src = some src)
    (hm : { msgOf src (fs.any fun f => f.poison) (msgBytes fs) (time s) with port := p } = m) (hepoch : m.epoch = x.epoch)
    (hlive : x.state ∈ [1, 2]) (hsig : m.sig = x.sig) (hseq : m.gseq = x.seq ∨ m.gseq = (x.seq + 1) % 2 ^ 64) :
    getGroup (chunkReceive g p fs s) g = some { x with progress := time s, inbox := x.inbox ++ [m] } ∧ (chunkReceive g p fs s).links = s.links := by
  have hopen : x.state ≠ 3 ∧ x.state ≠ 0 := by
    rcases List.mem_pair.mp hlive with h | h <;> rw [h] <;> decide
  have hstages : chunkReceive g p fs s =
      modGroup (modGroup s g fun x => { x with progress := time s }) g fun x => { x with inbox := x.inbox ++ [m] } := by
    unfold chunkReceive
    dsimp only
    rw [hx]
    dsimp only
    rw [hsrc]
    subst hm
    refine (if_neg (not_not_intro hepoch)).trans ((if_neg hopen.1).trans ((if_neg ?_).trans (if_pos ?_)))
    · rintro (⟨hcur, hnext⟩ | ⟨-, hother⟩)
      · exact hseq.elim hcur hnext
      · exact hother hsig
    · exact verified_unplanned hplan
  rw [hstages]
  simp only [getGroup_modGroup_self, hx, Option.map_some, modGroup_links, and_self]

section
variable {s : State} {g : Nat} {x : Group} (hx : getGroup s g = some x)
include hx

/-- A message of the kind wanted that comes for a bound group enters staging, on the links as its pool leaves them. -/
theorem receiveKind_stages {want : Nat → Bool} {port src : Nat} {fs : List Flit} {u : State} {m : Msg} (htake : takeMsg g port s = some (fs, u))
    (hwant : want (fld (msgBytes fs) 75 64) = true) (hplan : x.plan = none) (hsrc : posOf x (fs.headD { typ := 1 }).src = some src)
    (hm : { msgOf src (fs.any fun f => f.poison) (msgBytes fs) (time s) with port := port } = m) (hepoch : m.epoch = x.epoch)
    (hlive : x.state ∈ [1, 2]) (hsig : m.sig = x.sig) (hseq : m.gseq = x.seq ∨ m.gseq = (x.seq + 1) % 2 ^ 64) :
    getGroup (receiveKind want g port s) g = some { x with progress := time s, inbox := x.inbox ++ [m] } ∧
      (receiveKind want g port s).links = u.links := by
  obtain ⟨hgroups, htime⟩ := takeMsg_keeps htake
  have hreceive : receiveKind want g port s = chunkReceive g port fs u := by
    rw [receiveKind, htake]
    exact if_pos hwant
  rw [← htime] at hm ⊢
  rw [hreceive]
  exact chunkReceive_stages ((getGroup_congr hgroups g).trans hx) hplan hsrc hm hepoch hlive hsig hseq

theorem stagingView_some {t : State} (h : stagingView g t = stagingView g s) :
    ∃ y, getGroup t g = some y ∧ y.inbox = x.inbox ∧ y.cur = x.cur ∧ y.state = x.state ∧ t.links = s.links := by
  simp only [stagingView, Prod.mk.injEq, hx, Option.map_some, Option.map_eq_some_iff] at h
  obtain ⟨⟨y, hy, hinbox, hcur, hstate⟩, hlinks⟩ := h
  exact ⟨y, hy, hinbox, hcur, hstate, hlinks⟩

end

end Sys2Proof.Machine
end

section
/-! The inbox of a slot written (R319, R320, R322): the bytes in its segment, and the slot as it is kept. -/

namespace Sys2Proof.Machine

/-- The bytes of a slot's inbox. -/
def placedBytes (s : State) (x : Group) (b : Bytes) (slot : Nat) : Bytes := inboxBytes b x.members.length (inboxOf s x b slot).1

/-- A slot's inbox in its segment, the rows of poisoned tokens poisoned (R222, R319). -/
def inboxPlaced (s : State) (x : Group) (b : Bytes) (slot : Nat) (e : Seg) : State :=
  ((inboxOf s x b slot).1.zipIdx).foldl
    (fun u t => if t.1.poison then segMark u e (granules (bInboxOff b + slot * bStride b + t.2 * bRowB b) (bRowB b)) else u)
    (segWrite s e (bInboxOff b + slot * bStride b) (placedBytes s x b slot))

/-- The dispatch part of a group after a slot's inbox is written. -/
def afterInbox (s : State) (x : Group) (b : Bytes) (slot : Nat) (q : DInst) : DInst :=
  { q with
    counts := slotCounts s x b slot (inboxOf s x b slot).2.length x.disp.counts
    slots := tset q.slots slot { tget {} q.slots slot with written := true, inbox := (inboxOf s x b slot).1 }
    moved := tset q.moved slot (inboxOf s x b slot).2 }

section
variable {s : State} {g slot : Nat} {x : Group} {b : Bytes} {i : Inst}

theorem inboxPlaced_groups (s : State) (x : Group) (b : Bytes) (slot : Nat) (e : Seg) : (inboxPlaced s x b slot e).groups = s.groups := by
  rw [inboxPlaced, foldl_keeps (f := State.groups) fun u (t : DTok × Nat) => ?_, segWrite_groups]
  split
  · exact segMark_groups u e _
  · rfl

/-- The inbox reads as it was written: a poisoned row is marked, and its bytes stay. -/
theorem segRead_inboxPlaced {e : Seg} (htier : e.tier ≠ 3) (hwf : memWf (getBack s e.bid).data = true) :
    segRead (inboxPlaced s x b slot e) e (bInboxOff b + slot * bStride b) (placedBytes s x b slot).length = placedBytes s x b slot := by
  have hdata : (getBack (inboxPlaced s x b slot e) e.bid).data =
      memWrite (getBack s e.bid).data (bInboxOff b + slot * bStride b) (placedBytes s x b slot) := by
    rw [inboxPlaced, foldl_keeps (f := fun u => (getBack u e.bid).data) fun u (t : DTok × Nat) => ?_, segWrite_data htier]
    split
    · exact segMark_data u e _
    · rfl
  rw [segRead, if_neg htier, hdata, memRead_memWrite _ _ hwf]

/-- The bytes of a segment that is not flash do not depend on the groups. -/
theorem segRead_modDisp {e : Seg} (htier : e.tier ≠ 3) (s : State) (g : Nat) (f : DInst → DInst) (off n : Nat) :
    segRead (modDisp s g f) e off n = segRead s e off n := by
  rw [segRead, if_neg htier, segRead, if_neg htier, modDisp, getBack_congr (modGroup_backs s g _)]

theorem inboxWrite_writes {e : Seg} (hx : getGroup s g = some x) (hb : x.bind = some b) (hcur : x.cur = some i) (hall : allMsgs x b = true)
    (hready : (List.range (bNLocal b)).find? (slotReady s x b) = some slot) (hseg : groupSeg s x (bInboxSeg b) = some e) :
    inboxWrite g s = modDisp (inboxPlaced s x b slot e) g (afterInbox s x b slot) := by
  have hgo : ¬ (x.cur.isNone = true ∨ (!allMsgs x b) = true) := by simp [hcur, hall]
  simp only [inboxWrite, hx, hb, if_neg hgo, hready, hseg]
  rfl

/-- Nothing goes back while the put of a local slot is missing (R323). -/
theorem tryReturn_waits {k : Nat} (hx : getGroup s g = some x) (hb : x.bind = some b) (hcur : x.cur = some i) (hk : k < bNLocal b)
    (hput : tfind i.puts (0x800 + k) = none) : tryReturn g s = s := by
  have hmissing : (!(List.range (bNLocal b)).all fun k => thas i.puts (0x800 + k)) = true := by
    rw [Bool.not_eq_true', List.all_eq_false]
    exact ⟨k, List.mem_range.mpr hk, by simp [thas, hput]⟩
  simp only [tryReturn, hx, hb, hcur]
  exact if_pos (.inr (.inr hmissing))

end

end Sys2Proof.Machine
end

section
/-! Cold experts (R321, R322): a slot warms in time, or its deadline passes and its class's fallback is taken. -/

namespace Sys2Proof.Machine

section
variable {s : State} {g slot : Nat} {x : Group} {b : Bytes} {q : DSlot} (hx : getGroup s g = some x) (hb : x.bind = some b)
  (hslot : tfind x.disp.slots slot = some q) (hwarm : q.warm = false) (hstate : q.state = 0)
include hx hb hslot hwarm hstate

theorem coldWarm_warms (hcold : q.cold.isSome = true) (hpin : q.pinned = true) (hread : coldRead s q = true)
    (htime : ∀ k, coldDeadline s x b q = some k → time s ≤ k) :
    coldWarm g slot s = modDisp s g fun p => { p with slots := tset p.slots slot { q with warm := true } } := by
  have hlate : (match coldDeadline s x b q with
      | some t => decide (t < time s)
      | none => false) = false := by
    split
    · next k hk => exact decide_eq_false (Nat.not_lt.mpr (htime k hk))
    · rfl
  simp only [coldWarm, hx, hb, hslot]
  rw [if_neg]
  rintro (h | h | h | h | h | h)
  · simp [Option.isNone_iff_eq_none.mp h] at hcold
  · simp [hpin] at h
  · simp [hwarm] at h
  · exact h hstate
  · exact Bool.false_ne_true (hlate.symm.trans h)
  · simp [hread] at h

/-- The state of a slot whose deadline has passed: 1 when its tokens go to a substitute, 2 when they are skipped (R322). -/
def fallbackTaken (s : State) (x : Group) (b : Bytes) (q : DSlot) : Nat := if (substSlot s x b q).isSome then 1 else 2

theorem coldExpire_falls {k entry : Nat} (hcold : q.cold = some entry) (hdead : coldDeadline s x b q = some k) (hpast : k < time s) :
    coldExpire g slot s =
      modDisp (modGate (emit s dispSource 0x0D0 sevNotice x.dist [x.dist, eSeg (dirEntry (getDist s x.dist) entry),
          eOffset (dirEntry (getDist s x.dist) entry), fallbackTaken s x b q, entry]) x.dist fun a => { a with approx := true }) g
        fun p => { p with slots := tset p.slots slot { q with state := fallbackTaken s x b q } } := by
  have hgo : ¬ (q.warm = true ∨ q.state ≠ 0 ∨ time s ≤ k) := by
    rintro (h | h | h)
    · simp [hwarm] at h
    · exact h hstate
    · omega
  simp only [coldExpire, hx, hb, hslot, hdead, if_neg hgo, hcold]
  rfl

end

end Sys2Proof.Machine
end

section
/-! The two takes of a bound group (R320, R324): the value that is given, which stays as the takes complete. -/

namespace Sys2Proof.Machine

/-- What a take that completes leaves of its group: the values as they stand, the dispatch part and the totals. -/
def valuesView (x : Group) : Option (AMap ChunkVal) × DInst × List Nat := (x.cur.map (·.vals), x.disp, x.totals)

theorem serveTake_keeps (g : Nat) (r : CollReq) (s : State) : (getGroup (serveTake g r s) g).map valuesView = (getGroup s g).map valuesView := by
  unfold serveTake
  split
  · rfl
  · next x hx =>
    split
    · rfl
    · next i hcur =>
      split
      · rfl
      · next v hv =>
        split
        · rfl
        · dsimp only
          have hevent (u : State) : (if v.poison then collEvent u x 0x114 sevError [g, i.gseq, r.chunk] else u).groups = u.groups := by
            split <;> simp
          have hfault (u : State) : (if v.poison then softFault (countSoft u r.d r.core) r.d r.core r.idx 0x80 else u).groups = u.groups := by
            split <;> simp
          rw [getGroup_congr (setWork_groups _ _ _ _ _), getGroup_congr (takeWrite_groups _ _ _ _), getGroup_congr (hfault _),
            getGroup_congr (hevent _), getGroup_setGroup_self, hx, Option.map_some, Option.map_some, valuesView, valuesView, hcur]
          rfl

theorem serveTakes_keeps (g : Nat) (s : State) : (getGroup (serveTakes g s) g).map valuesView = (getGroup s g).map valuesView := by
  unfold serveTakes
  split
  · rfl
  · exact foldl_keeps (f := fun u => (getGroup u g).map valuesView) (fun u r => serveTake_keeps g r u) _ s

/-- A value given for a take is among the values, as given. -/
theorem giveTake_gives {s : State} {g c : Nat} {x : Group} {i : Inst} {d : Bytes} (hx : getGroup s g = some x) (hcur : x.cur = some i) :
    ∃ y j, getGroup (giveTake g c d s) g = some y ∧ y.cur = some j ∧ (tfind j.vals c).map (·.data) = some d ∧ y.disp = x.disp ∧
      y.totals = x.totals := by
  have h := serveTakes_keeps g (modCur s g fun i =>
    { i with vals := tset i.vals c { data := d, latePos := 0, lateReady := time s, earlyReady := time s } })
  rw [getGroup_modCur_of_open hx hcur] at h
  obtain ⟨y, hy, hview⟩ := Option.map_eq_some_iff.mp h
  simp only [valuesView, Option.map_some, Prod.mk.injEq, Option.map_eq_some_iff] at hview
  obtain ⟨⟨j, hj, hvals⟩, hdisp, htotals⟩ := hview
  exact ⟨y, j, hy, hj, by rw [hvals, tfind_tset_self]; rfl, hdisp, htotals⟩

theorem open_of_takeWaits {x : Group} {c : Nat} (h : takeWaits x c = true) : ∃ i, x.cur = some i := by
  unfold takeWaits at h
  split at h
  · next i hi => exact ⟨i, hi⟩
  · cases h

end Sys2Proof.Machine
end

section
/-! The close of a bound group with nothing waiting (R274, R285, R327): the records logged, and the group as it waits for its next work. -/

namespace Sys2Proof.Machine

/-- A group with nothing waiting, once it has closed (R274). -/
def closedGroup (now : Nat) (x : Group) : Group :=
  { x with seq := seqNext x, cur := none, nxt := none, pre := none, relays := [], state := 1, progress := now, disp := {}, inbox := []
           fails := x.fails.filter fun f => f.1 != x.seq }

section
variable {s : State} {g : Nat} {x : Group} (hx : getGroup s g = some x)
include hx

theorem bindReqs_of_idle (hreqs : x.reqs = []) : bindReqs g s = s := by simp [bindReqs, hx, hreqs]

theorem serveTakes_of_idle (hreqs : x.reqs = []) : serveTakes g s = s := by simp [serveTakes, hx, hreqs]

theorem warmHeld_of_empty (hinbox : x.inbox = []) : warmHeld g s = s := by
  unfold warmHeld
  rw [hx]
  dsimp only
  split
  · rfl
  · rw [hinbox]
    rfl

theorem applyReturns_of_empty (hinbox : x.inbox = []) :
    getGroup (applyReturns g s) g = some x ∧ (applyReturns g s).emitted = s.emitted := by
  unfold applyReturns
  rw [hx]
  dsimp only
  split
  · exact ⟨hx, rfl⟩
  · have hnone (p : Msg → Bool) : x.inbox.filter p = [] := by rw [hinbox]; rfl
    simp only [hnone, List.foldl_nil, getGroup_modGroup_self, hx, Option.map_some, modGroup_emitted, and_true]
    rw [← hinbox]

theorem nextInst_of_idle (hplan : x.plan = none) (hnxt : x.nxt = none) (hreqs : x.reqs = []) (hinbox : x.inbox = []) :
    nextInst g s = setGroup s g (closedGroup (time s) x) := by
  have hnew := getGroup_setGroup_self s g (closedGroup (time s) x)
  have hset : setGroup s g { x with
      seq := seqNext x, cur := x.nxt, nxt := none, pre := none, relays := [], state := if x.nxt.isSome then 2 else 1, progress := time s, disp := {}
      inbox := x.inbox.filter fun m => m.gseq != x.seq, fails := x.fails.filter fun f => f.1 != x.seq } = setGroup s g (closedGroup (time s) x) := by
    rw [hnxt, hinbox]
    rfl
  simp only [nextInst, hx, hset, bindReqs_of_idle hnew hreqs, hnew]
  show serveTakes g (actHeld g (setGroup s g (closedGroup (time s) x))) = _
  rw [actHeld_unplanned hnew hplan, serveTakes_of_idle hnew hreqs]

end

/-- The records that the close of a bound group logs (R285, R327): COLL_DONE and DISP_DONE where they are asked for. -/
def closeRecords (g : Nat) (s : State) (x : Group) (i : Inst) (b : Bytes) : List (Nat × Nat × Nat × Nat × List Nat) :=
  (if x.evt then [(0x888, 0x110, 0, x.dist, [g, i.gseq, (complOf s x i).laggardId, (complOf s x i).lagNs])] else []) ++
    (if bEvt b then [(0x889, 0x150, 0, x.dist, [g, i.gseq, x.disp.counts.getD 0 0, x.disp.counts.getD 1 0, x.disp.counts.getD 2 0])] else [])

/-- A group whose completion record stands, with the close logged. -/
def closeLogged (g : Nat) (s : State) (x : Group) (i : Inst) : State :=
  let r := complOf s x i
  let u := setGroup s g { x with record := r }
  let u := if x.evt then collEvent u x 0x110 sevInfo [g, i.gseq, r.laggardId, r.lagNs] else u
  let n := x.disp.counts
  if x.bind.any bEvt then emit u 0x889 0x150 sevInfo x.dist [g, i.gseq, n.getD 0 0, n.getD 1 0, n.getD 2 0] else u

theorem closeLogged_keeps (g : Nat) (s : State) (x : Group) (i : Inst) :
    getGroup (closeLogged g s x i) g = some { x with record := complOf s x i } ∧ time (closeLogged g s x i) = time s := by
  have hgroups : (closeLogged g s x i).groups = (setGroup s g { x with record := complOf s x i }).groups := by
    unfold closeLogged
    dsimp only
    split <;> split <;> simp
  refine ⟨by rw [getGroup_congr hgroups, getGroup_setGroup_self], congrArg BitVec.toNat (now_of_anchor ?_)⟩
  unfold closeLogged
  dsimp only
  split <;> split <;> simp

theorem closeLogged_logs (g : Nat) (s : State) {x : Group} {b : Bytes} (i : Inst) (hb : x.bind = some b) :
    logs s (closeLogged g s x i) (closeRecords g s x i b) := by
  unfold closeLogged closeRecords
  rw [hb, Option.any_some, logs]
  dsimp only
  cases x.evt <;> cases bEvt b <;> simp [collEvent, setGroup, sevInfo]

theorem closeInst_closes {s : State} {g : Nat} {x : Group} {i : Inst} (hx : getGroup s g = some x) (hplan : x.plan = none)
    (hcur : x.cur = some i) (hclose : closable x = true) (hnxt : x.nxt = none) (hreqs : x.reqs = []) (hinbox : x.inbox = []) :
    closeInst g s = setGroup (closeLogged g s x i) g (closedGroup (time s) { x with record := complOf s x i }) := by
  obtain ⟨hlogged, htime⟩ := closeLogged_keeps g s x i
  have hnext : closeInst g s = nextInst g (closeLogged g s x i) := by
    simp only [closeInst, closeLogged, hx, hcur]
    exact if_neg (by simp [hclose])
  rw [hnext, nextInst_of_idle hlogged hplan hnxt hreqs hinbox, htime]

end Sys2Proof.Machine
end

section
/-! The dispatch unit's events (R315–R324), each from what its own operation does. -/

namespace Sys2Proof.Machine

/-- Settles O35: each event's own work, from a group whose district runs, and what it leaves of the group. -/
theorem dispatchEventsComplete : Obligations.DispatchEventsComplete := by
  unfold Obligations.DispatchEventsComplete
  intro g x b s hx hb hplan hrun
  refine ⟨fun i routes rows hcur hroutes hrows hmore => groupWork_settles hx hrun ?_, fun port fs u src htake hsrc => ?_,
    fun i slot e k hcur hall hready hseg htier hwf hk hput => groupWork_settles hx hrun ?_, fun slot q entry hslot hcold hstate hwarm => ?_,
    fun hwaits hall => groupWork_settles hx hrun ?_, fun hwaits hdone => groupWork_settles hx hrun ?_,
    fun i hcur hclose hnxt hreqs hinbox => groupWork_settles hx hrun ?_⟩
  · obtain ⟨n, hy⟩ := blockRoute_routes hx hb hcur hroutes hrows hmore
    exact ⟨_, hy, rfl, rfl, rfl, rfl, rfl, rfl, _, rfl, rfl, rfl, by simp [blockDone, mem_nsAdd], by simp [blockDone, mem_nsAdd]⟩
  · intro m hepoch hlive hsig hseq
    refine ⟨fun hkind => groupWork_settles hx hrun ?_, fun hkind => groupWork_settles hx hrun ?_⟩
    · obtain ⟨hstaged, hlinks⟩ := receiveKind_stages hx (want := (· == 0xFFC)) htake (by simp [hkind]) hplan hsrc rfl hepoch hlive hsig hseq
      obtain ⟨y, hy, hinbox, hcur, hstate, hkept⟩ := stagingView_some hstaged (warmHeld_stagingView g _)
      exact ⟨y, hy, hinbox, hcur, hstate, hkept.trans hlinks⟩
    · obtain ⟨hstaged, hlinks⟩ := receiveKind_stages hx (want := (· == 0xFFD)) htake (by simp [hkind]) hplan hsrc rfl hepoch hlive hsig hseq
      exact ⟨_, hstaged, rfl, rfl, rfl, hlinks⟩
  · have hplaced : getGroup (inboxPlaced s x b slot e) g = some x := (getGroup_congr (inboxPlaced_groups s x b slot e) g).trans hx
    have hwritten := getGroup_modDisp hplaced (afterInbox s x b slot)
    rw [inboxWrite_writes hx hb hcur hall hready hseg, tryReturn_waits hwritten hb hcur hk hput]
    refine ⟨_, hwritten, by rw [afterInbox, tget_tset_self], by rw [afterInbox, tget_tset_self], rfl, ?_⟩
    exact (segRead_modDisp htier _ g _ _ _).trans (segRead_inboxPlaced htier hwf)
  · refine ⟨fun hpin hread htime => groupWork_settles hx hrun ?_, fun k hdead hpast => groupWork_settles hx hrun ?_⟩
    · rw [coldWarm_warms hx hb hslot hwarm hstate (by rw [hcold]; rfl) hpin hread htime]
      exact ⟨getGroup_modDisp hx _, logs_of_emitted (modGroup_emitted s g _)⟩
    · rw [coldExpire_falls hx hb hslot hwarm hstate hcold hdead hpast]
      refine ⟨getGroup_modDisp ?_ _, ?_, ?_⟩
      · rw [getGroup_congr (modGate_groups _ _ _), getGroup_congr (emit_groups _ _ _ _ _ _), hx]
      · rw [modDisp, getDist_congr (modGroup_dists _ _ _), modGate, getDist_modDist_self]
      · rw [modDisp, logs, modGroup_emitted, modGate_emitted, emit_emitted]
        rfl
  · obtain ⟨i, hcur⟩ := open_of_takeWaits hwaits
    obtain ⟨y, j, hy, hj, hval, hdisp, -⟩ := giveTake_gives (c := 0xFFE) (d := slotCountBytes x b) hx hcur
    simp only [slotCountsTake, hx, hb]
    rw [if_neg (by simp [hwaits, hall])]
    exact ⟨y, j, hy, hj, hval, hdisp⟩
  · obtain ⟨i, hcur⟩ := open_of_takeWaits hwaits
    have hcounted : getGroup (modGroup s g fun y => { y with totals := (y.totals.zip x.disp.counts).map fun e => (e.1 + e.2) % 2 ^ 64 }) g =
        some { x with totals := (x.totals.zip x.disp.counts).map fun e => (e.1 + e.2) % 2 ^ 64 } := by
      rw [getGroup_modGroup_self, hx, Option.map_some]
    obtain ⟨y, j, hy, hj, hval, -, htotals⟩ := giveTake_gives (c := 0xFFF) (d := instCountBytes x.seq x.disp.counts) hcounted hcur
    simp only [instanceCounts, hx, hb]
    rw [if_neg (by simp [hwaits, hdone])]
    exact ⟨y, j, hy, hj, hval, htotals⟩
  · obtain ⟨hlogged, -⟩ := closeLogged_keeps g s x i
    have hclosed := getGroup_setGroup_self (closeLogged g s x i) g (closedGroup (time s) { x with record := complOf s x i })
    obtain ⟨hgroup, hemitted⟩ := applyReturns_of_empty hclosed rfl
    rw [closeInst_closes hx hplan hcur hclose hnxt hreqs hinbox, warmHeld_of_empty hclosed rfl]
    refine ⟨_, hgroup, rfl, rfl, rfl, rfl, ?_⟩
    rw [logs, hemitted]
    exact closeLogged_logs g s i hb

end Sys2Proof.Machine
end

section
/-! The state of the machine from reset on (R453, R454): what every step keeps of its pins and its queue, and the state right after reset. -/

namespace Sys2Proof.Machine

/-- The reset of the SYS_RST_N domain holds while AON_RST_N or the SYS_RST_N pin is asserted (R454). -/
def PinsCoupled (p : Pins) : Prop := (p.aonRst = true → p.sysRst = true) ∧ (p.sysPin = true → p.sysRst = true)

theorem pins_of_anchor {s t : State} (h : anchor t = anchor s) : t.pins = s.pins := ((anchor_eq_iff s t).1 h).2.2.2

theorem sysReset_pins (s : State) : (sysReset s).pins = { s.pins with sysRst := true } := pins_of_anchor (sysReset_anchor s)

theorem aonReset_pins (s : State) : (aonReset s).pins = { s.pins with sysRst := true, aonRst := true } := pins_of_anchor (aonReset_anchor s)

theorem bootStart_pins (r : TrainingResult) (s : State) : (bootStart r s).pins = { s.pins with sysRst := false, pwrGood := true } :=
  pins_of_anchor (bootStart_anchor r s)

theorem aonStart_pins (s : State) : (aonStart s).pins =
    if s.pins.sysPin then { s.pins with aonRst := false } else { s.pins with aonRst := false, sysRst := false, pwrGood := true } :=
  pins_of_anchor (aonStart_anchor s)

theorem sysRstNDeassert_keepsPinsCoupled {r : TrainingResult} {s t : State} (h : execSysRstNDeassert r s = .next t) (hs : PinsCoupled s.pins) :
    PinsCoupled t.pins := by
  cases h
  by_cases hpin : s.pins.sysPin = true
  · rw [when_due _ _ hpin]
    by_cases haon : s.pins.aonRst = true
    · simp [haon, PinsCoupled, hs.1 haon]
    · simp [haon, PinsCoupled, bootStart_pins]
  · rw [when_not_due _ _ (Bool.eq_false_iff.mpr hpin)]
    exact hs

theorem aonRstNDeassert_keepsPinsCoupled {s t : State} (h : execAonRstNDeassert s = .next t) (hs : PinsCoupled s.pins) : PinsCoupled t.pins := by
  cases h
  unfold when
  split
  · rw [aonStart_pins]
    split
    · next hpin => exact ⟨fun h => (Bool.false_ne_true h).elim, fun _ => hs.2 hpin⟩
    · next hpin => exact ⟨fun h => (Bool.false_ne_true h).elim, fun h => (hpin h).elim⟩
  · exact hs

/-- Only the pins' own commands and PWR_GOOD's fall change pins, and a SYNC message leaves them. -/
theorem exec_keepsPinsCoupled {i : Instr} {s t : State} (h : exec i s = .next t) (hs : PinsCoupled s.pins) : PinsCoupled t.pins := by
  cases i
  case pwrGoodFall =>
    cases h
    rw [pins_of_anchor (goFatal_anchor _ _)]
    exact hs
  case aonRstNAssert =>
    cases h
    unfold when
    split
    · rw [aonReset_pins]
      exact ⟨fun _ => rfl, fun _ => rfl⟩
    · exact hs
  case sysRstNAssert =>
    cases h
    rw [sysReset_pins]
    exact ⟨fun _ => rfl, fun _ => rfl⟩
  case sysRstNDeassert r => exact sysRstNDeassert_keepsPinsCoupled h hs
  case aonRstNDeassert => exact aonRstNDeassert_keepsPinsCoupled h hs
  case perstNAssert =>
    cases h
    unfold when
    split
    · exact hs
    · exact hs
  case perstNDeassert =>
    cases h
    exact hs
  case syncReceive p m =>
    cases h
    unfold when
    split
    · rw [pins_of_anchor (syncReceive_anchor p m s)]
      exact hs
    · exact hs
  all_goals
    rw [pins_of_anchor (exec_anchored rfl s t h)]
    exact hs

theorem queueWf_tail {s : State} {c : Instr} {q : List Instr} (hp : s.pending = c :: q) (h : queueWf s = true) :
    queueWf { s with pending := q } = true := by
  simp only [queueWf, hp, List.all_cons, Bool.and_eq_true] at h
  exact h.2

theorem exec_keepsQueueWf {i : Instr} {s t : State} (h : exec i s = .next t) (hs : queueWf s = true) : queueWf t = true := by
  rw [queueWf, (commandsKeepQueuePopulationAndTime i s t h).1]
  exact hs

/-- Settles O59: a nanosecond leaves queue and pins, and a command keeps each part of the invariant. -/
theorem everyStepKeepsTheInvariant : Obligations.EveryStepKeepsTheInvariant := by
  unfold Obligations.EveryStepKeepsTheInvariant
  intro s t hq haon hpin h
  cases hp : s.pending with
  | nil =>
    rw [step_nil hp] at h
    cases h
    rw [tick_frame s]
    exact ⟨hq, haon, hpin⟩
  | cons c q =>
    rw [step_cons hp] at h
    exact ⟨exec_keepsQueueWf h (queueWf_tail hp hq), exec_keepsPinsCoupled h ⟨haon, hpin⟩⟩

/-- Settles O60: every part of the reset state is at its default. -/
theorem resetIsClean : Obligations.ResetIsClean := by
  unfold Obligations.ResetIsClean
  exact ⟨rfl, rfl, rfl, rfl, rfl, rfl, rfl, rfl, rfl, rfl, rfl, rfl, rfl, fun _ => rfl, fun _ => rfl, fun _ => rfl, fun _ => rfl⟩

end Sys2Proof.Machine
end

section
/-! Fields of packed bytes (R7), and the OWNER record as the store keeps it (R429). -/

namespace Sys2Proof.Machine

theorem leNat_drop : ∀ (k : Nat) (b : Bytes), leNat (b.drop k) = leNat b / 256 ^ k
  | 0, b => by simp
  | k + 1, [] => by simp [leNat]
  | k + 1, x :: b => by
    have hx : x.toNat < 256 := x.isLt
    rw [List.drop_succ_cons, leNat_drop k b, Nat.pow_succ', ← Nat.div_div_eq_div_mul, leNat]
    congr 1
    omega

theorem leNat_take : ∀ (k : Nat) (b : Bytes), leNat (b.take k) = leNat b % 256 ^ k
  | 0, b => by simp [leNat, Nat.mod_one]
  | k + 1, [] => by simp [leNat]
  | k + 1, x :: b => by
    have hx : x.toNat < 256 := x.isLt
    rw [List.take_succ_cons, leNat, leNat, leNat_take k b, Nat.pow_succ', Nat.mod_mul]
    congr 1
    · omega
    · congr 2
      omega

/-- A field of a byte string is those bits of its number. -/
theorem fld_eq (b : Bytes) {hi lo : Nat} (h : lo ≤ hi) : fld b hi lo = leNat b / 2 ^ lo % 2 ^ (hi + 1 - lo) := by
  have h256 (m : Nat) : (256 : Nat) ^ m = 2 ^ (8 * m) := by rw [Nat.pow_mul]
  rw [fld, leNat_take, leNat_drop, h256, h256]
  apply Nat.eq_of_testBit_eq
  intro i
  simp only [Nat.testBit_mod_two_pow, Nat.testBit_div_two_pow]
  by_cases hi' : i < hi + 1 - lo
  · have hin : lo % 8 + i < 8 * (hi / 8 + 1 - lo / 8) := by omega
    have hat : 8 * (lo / 8) + (lo % 8 + i) = lo + i := by omega
    rw [Nat.add_comm i (lo % 8), Nat.add_comm (lo % 8 + i), hat, Nat.add_comm i lo]
    simp [hi', hin]
  · simp [hi']

/-- A field within a field of zero is zero. -/
theorem fld_zero_within {b : Bytes} {hi lo i j : Nat} (h : fld b hi lo = 0) (hlo : lo ≤ j) (hji : j ≤ i) (hhi : i ≤ hi) : fld b i j = 0 := by
  rw [fld_eq b (by omega)] at h
  rw [fld_eq b hji]
  apply Nat.eq_of_testBit_eq
  intro k
  have hbit := congrArg (fun n => n.testBit (k + j - lo)) h
  simp only [Nat.testBit_mod_two_pow, Nat.testBit_div_two_pow, Nat.zero_testBit, Nat.sub_add_cancel (show lo ≤ k + j by omega)] at hbit ⊢
  by_cases hk : k < i + 1 - j
  · simpa [hk, show k + j - lo < hi + 1 - lo by omega] using hbit
  · simp [hk]

/-- A field inside a number's bytes is those bits of the number. -/
theorem fld_leBytes {n hi lo : Nat} (v : Nat) (hlo : lo ≤ hi) (hhi : hi < 8 * n) : fld (leBytes n v) hi lo = v / 2 ^ lo % 2 ^ (hi + 1 - lo) := by
  have h256 : (256 : Nat) ^ n = 2 ^ (8 * n) := by rw [Nat.pow_mul]
  rw [fld_eq _ hlo, leNat_leBytes, h256]
  apply Nat.eq_of_testBit_eq
  intro i
  simp only [Nat.testBit_mod_two_pow, Nat.testBit_div_two_pow]
  by_cases hi' : i < hi + 1 - lo
  · simp [hi', show i + lo < 8 * n by omega]
  · simp [hi']

/-- A field of a packed number reads as packed. -/
theorem packNat_field (w v : Nat) (post : List (Nat × Nat)) : ∀ pre : List (Nat × Nat),
    packNat (pre ++ (w, v) :: post) / 2 ^ (pre.map (·.1)).sum % 2 ^ w = v % 2 ^ w
  | [] => by
    rw [List.nil_append, packNat, List.map_nil, List.sum_nil, Nat.pow_zero, Nat.div_one, Nat.add_mul_mod_self_left, Nat.mod_mod]
  | (u, x) :: pre => by
    rw [List.cons_append, packNat, List.map_cons, List.sum_cons, Nat.pow_add, ← Nat.div_div_eq_div_mul,
      Nat.add_mul_div_left _ _ (Nat.two_pow_pos u), Nat.div_eq_of_lt (Nat.mod_lt _ (Nat.two_pow_pos u)), Nat.zero_add, packNat_field w v post pre]

theorem packNat_lt : ∀ fs : List (Nat × Nat), packNat fs < 2 ^ (fs.map (·.1)).sum
  | [] => Nat.one_pos
  | (w, v) :: fs => by
    have hv := Nat.mod_lt v (Nat.two_pow_pos w)
    have hm : 2 ^ w * (packNat fs + 1) ≤ 2 ^ w * 2 ^ (fs.map (·.1)).sum := Nat.mul_le_mul_left _ (packNat_lt fs)
    calc v % 2 ^ w + 2 ^ w * packNat fs < 2 ^ w + 2 ^ w * packNat fs := Nat.add_lt_add_right hv _
      _ = 2 ^ w * (packNat fs + 1) := by rw [Nat.mul_add, Nat.mul_one, Nat.add_comm]
      _ ≤ 2 ^ w * 2 ^ (fs.map (·.1)).sum := hm
      _ = 2 ^ (((w, v) :: fs).map (·.1)).sum := by rw [List.map_cons, List.sum_cons, Nat.pow_add]

/-- A field of a packed payload reads as packed; `pre` is what stands below it. -/
theorem fld_pack_field {n hi lo w v : Nat} {fs post : List (Nat × Nat)} (pre : List (Nat × Nat)) (hfs : fs = pre ++ (w, v) :: post)
    (hlo : (pre.map (·.1)).sum = lo) (hw : hi + 1 = lo + w) (hpos : 0 < w) (hn : hi < 8 * n) : fld (pack n fs) hi lo = v % 2 ^ w := by
  rw [pack, fld_leBytes _ (by omega) hn, hfs, ← hlo, show hi + 1 - (pre.map (·.1)).sum = w by omega, packNat_field]

@[simp] theorem pack_length (n : Nat) (fs : List (Nat × Nat)) : (pack n fs).length = n := leBytes_length n _

theorem fld_append_left {a : Bytes} {hi lo : Nat} (b : Bytes) (h : hi < 8 * a.length) (hlo : lo ≤ hi) : fld (a ++ b) hi lo = fld a hi lo := by
  rw [fld, fld, List.drop_append_of_le_length (by omega), List.take_append_of_le_length (by rw [List.length_drop]; omega)]

theorem fld_append_right {a b : Bytes} {hi lo m : Nat} (ha : 8 * a.length = m) (h : m ≤ lo) (hlo : lo ≤ hi) :
    fld (a ++ b) hi lo = fld b (hi - m) (lo - m) := by
  subst ha
  have hd : lo / 8 = a.length + (lo - 8 * a.length) / 8 := by omega
  have hn : hi / 8 + 1 - lo / 8 = (hi - 8 * a.length) / 8 + 1 - (lo - 8 * a.length) / 8 := by omega
  have hm : lo % 8 = (lo - 8 * a.length) % 8 := by omega
  have hw : hi + 1 - lo = hi - 8 * a.length + 1 - (lo - 8 * a.length) := by omega
  rw [fld, fld, hn, hd, List.drop_append, List.drop_eq_nil_of_le (by omega), List.nil_append, Nat.add_sub_cancel_left, hm, hw]

theorem slice_append_left {a b : Bytes} {n : Nat} (h : a.length = n) : slice (a ++ b) 0 n = a := by
  simp [slice, h, zeros]

/-! ## The OWNER record -/

theorem ownerPayload_parts {o : Owner} (h : o.key.length = 136) :
    ownerPayload o = o.key ++ (leBytes 4 (packNat [(1, b2n o.require), (1, b2n o.vendorDebug)]) ++ leBytes 4 o.gen) := by
  rw [ownerPayload, slice_all h, pack, List.append_assoc]

theorem packNat_flags (r v : Bool) : packNat [(1, b2n r), (1, b2n v)] = b2n r + 2 * b2n v := by
  cases r <;> cases v <;> rfl

theorem b2n_beq_one (b : Bool) : (b2n b == 1) = b := by cases b <;> rfl

theorem ownerPayload_require {o : Owner} (h : o.key.length = 136) : bit (ownerPayload o) 1088 = o.require := by
  have hf : fld (ownerPayload o) 1088 1088 = b2n o.require := by
    rw [ownerPayload_parts h, fld_append_right (m := 1088) (by rw [h]) (by omega) (by omega), fld_append_left _ (by simp) (by omega),
      fld_leBytes _ (by omega) (by omega), packNat_flags]
    cases o.require <;> cases o.vendorDebug <;> rfl
  rw [bit, hf, b2n_beq_one]

theorem ownerPayload_vendorDebug {o : Owner} (h : o.key.length = 136) : bit (ownerPayload o) 1089 = o.vendorDebug := by
  have hf : fld (ownerPayload o) 1089 1089 = b2n o.vendorDebug := by
    rw [ownerPayload_parts h, fld_append_right (m := 1088) (by rw [h]) (by omega) (by omega), fld_append_left _ (by simp) (by omega),
      fld_leBytes _ (by omega) (by omega), packNat_flags]
    cases o.require <;> cases o.vendorDebug <;> rfl
  rw [bit, hf, b2n_beq_one]

theorem ownerPayload_gen {o : Owner} (h : o.key.length = 136) (hg : o.gen < 2 ^ 32) : fld (ownerPayload o) 1151 1120 = o.gen := by
  rw [ownerPayload_parts h, fld_append_right (m := 1088) (by rw [h]) (by omega) (by omega),
    fld_append_right (m := 32) (by rw [leBytes_length]) (by omega) (by omega), fld_leBytes _ (by omega) (by omega)]
  omega

theorem ownerPayload_length {o : Owner} (h : o.key.length = 136) : (ownerPayload o).length = 144 := by
  simp [ownerPayload_parts h, h]

theorem ownerPayload_key {o : Owner} (h : o.key.length = 136) : slice (ownerPayload o) 0 136 = o.key := by
  rw [ownerPayload_parts h, slice_append_left h]

theorem ownerOf_ownerPayload {o : Owner} (h : o.key.length = 136) (hg : o.gen < 2 ^ 32) (g : Nat) :
    ownerOf g (some (ownerPayload o)) = if o.gen < g then none else some o := by
  simp only [ownerOf, ownerPayload_length h, ownerPayload_gen h hg, ownerPayload_key h, ownerPayload_require h, ownerPayload_vendorDebug h,
    Nat.lt_irrefl, false_or]

/-- A bundle that fails the owner's check of R427 fails. -/
theorem bundleFail_of_unsigned {sec : Sec} {m : Mem} {o : Owner} (ho : sec.owner = some o) (hreq : o.require = true)
    (hsig : fld (memRead m 0 8) 42 42 = 0 ∨
      Config.ecdsaOk o.key (Config.sha512 (memRead m 0 (bundleLen m - 136))) (memRead m (bundleLen m - 136) 136) = false) :
    (bundleFail sec m).isSome = true := by
  unfold bundleFail
  simp only [ho, Option.isSome_map, List.find?_isSome]
  refine ⟨_, List.mem_cons_of_mem _ (List.mem_cons_of_mem _ (List.mem_cons_of_mem _ (List.mem_cons_of_mem _ (List.mem_cons_of_mem _
    List.mem_cons_self)))), ?_⟩
  rcases hsig with h | h
  · simp [h, hreq]
  · simp [h, hreq]

/-- Settles O54: the payload gives each field back, and REQUIRE and VENDOR_DEBUG enter the checks of R427 and R436. -/
theorem ownerRecordIsRead : Obligations.OwnerRecordIsRead := by
  unfold Obligations.OwnerRecordIsRead
  intro o g hkey hgen
  refine ⟨⟨ownerPayload_key hkey, ownerPayload_require hkey, ownerPayload_vendorDebug hkey, ownerPayload_gen hkey hgen,
    fun h => ?_, fun h => ?_⟩, fun sec m => bundleFail_of_unsigned, fun s t purpose level ho hlc hsigner => ?_⟩
  · rw [ownerOf_ownerPayload hkey hgen, if_pos h]
  · rw [ownerOf_ownerPayload hkey hgen, if_neg (Nat.not_lt.mpr h)]
  · simp [tokenChecks, ho, hlc, hsigner]

end Sys2Proof.Machine
end

section
/-! What the resets clear and keep (R453, R454, R457). -/

namespace Sys2Proof.Machine

theorem tfind_filter_of_tfind {α : Type} (P : Nat × α → Bool) {k : Nat} {e : α} (hP : P (k, e) = true) :
    ∀ {m : AMap α}, tfind m k = some e → tfind (m.filter P) k = some e
  | (j, v) :: m, h => by
    rw [tfind] at h
    split at h
    · next hj =>
      cases h
      rw [hj, List.filter_cons_of_pos hP, tfind, if_pos rfl]
    · next hj =>
      have ih := tfind_filter_of_tfind P hP h
      rw [List.filter_cons]
      split
      · rw [tfind, if_neg hj, ih]
      · exact ih

/-! ## The store through a reset -/

theorem winner_congr {n m : Nvm} {typ : Nat} (hA : tfind m.bankA typ = tfind n.bankA typ) (hB : tfind m.bankB typ = tfind n.bankB typ) (gen : Nat) :
    winner m typ gen = winner n typ gen := by
  simp only [winner, validCopy, presentCopy, hA, hB]

theorem winner_makeWrite_other {w : StoreWrite} {typ : Nat} (h : w.typ ≠ typ) (n : Nvm) (g gen : Nat) (torn : Bool) :
    winner (makeWrite n g w torn) typ gen = winner n typ gen := by
  unfold makeWrite putCopy
  dsimp only
  split
  · exact winner_congr (n := n) (m := { n with bankA := tset n.bankA w.typ _ }) (tfind_tset_ne _ (Ne.symm h) n.bankA) rfl gen
  · exact winner_congr (n := n) (m := { n with bankB := tset n.bankB w.typ _ }) rfl (tfind_tset_ne _ (Ne.symm h) n.bankB) gen

/-- A reset leaves the winning record of every type but the one it cuts. -/
theorem winner_cutWrites {s : State} {typ : Nat} (h : ∀ w ∈ s.nvm.writes, w.typ ≠ typ) (gen : Nat) :
    winner (cutWrites s).nvm typ gen = winner s.nvm typ gen := by
  unfold cutWrites
  split
  · rfl
  · next w ws hw =>
    exact (winner_congr rfl rfl gen).trans (winner_makeWrite_other (h w (by rw [hw]; exact List.mem_cons_self)) s.nvm _ gen true)

theorem winner_cutSlot (w : Pend × Nat × Mem) (s : State) (typ gen : Nat) : winner (cutSlot w s).nvm typ gen = winner s.nvm typ gen := by
  unfold cutSlot writeSlot
  dsimp only
  split
  · rfl
  · split <;> exact winner_congr rfl rfl gen

theorem storeRead_cutAll {s : State} {typ : Nat} (h : ∀ w ∈ s.nvm.writes, w.typ ≠ typ) (gen : Nat) :
    storeRead (cutAll s).nvm typ gen = storeRead s.nvm typ gen := by
  unfold storeRead
  congr 1
  unfold cutAll
  dsimp only
  split
  · exact winner_cutWrites h gen
  · exact (winner_cutSlot _ _ typ gen).trans (winner_cutWrites h gen)

theorem cutWrites_frame (s : State) : cutWrites s = { s with nvm := (cutWrites s).nvm } := by
  unfold cutWrites
  split <;> rfl

theorem cutSlot_frame (w : Pend × Nat × Mem) (s : State) : cutSlot w s = { s with nvm := (cutSlot w s).nvm, freeCtr := (cutSlot w s).freeCtr } := by
  unfold cutSlot
  dsimp only
  split <;> rfl

/-- The writes that a reset cuts change the store, and use a free value for a boot slot. -/
theorem cutAll_frame (s : State) : cutAll s = { s with nvm := (cutAll s).nvm, freeCtr := (cutAll s).freeCtr } := by
  unfold cutAll
  dsimp only
  obtain ⟨n, hn⟩ : ∃ n, cutWrites s = { s with nvm := n } := ⟨_, cutWrites_frame s⟩
  rw [hn]
  split
  · rfl
  · exact cutSlot_frame _ _

theorem sysReset_of_released {s : State} (h : s.pins.sysRst = false) : sysReset s =
    { s with
      nvm := (cutAll s).nvm, freeCtr := (cutAll s).freeCtr
      pins := { s.pins with sysRst := true }, indexOk := false, index := [], training := none, lpSites := [], lpRate := 0, lpMib := 0
      pcie := {}, fns := [], emitted := [], deferred := [], held := []
      sec := { session := s.sec.session, boots := s.sec.boots }
      pwr := { s.pwr with going := none, offAt := none, waking := false, retainPorts := [], clocksStopped := false, cmpEn := true }
      health := { s.health with fatal := none, fatalAck := false, wdog := [], ueLog := [] }
      adv := tdel s.adv 5, planned := [], lastRel := none, dists := [], backs := [], flash := flashKept s.flash, sites := [], chans := []
      links := { cfg := s.links.cfg }, groups := [], pipes := [], work := [], cyc := [] } := by
  unfold sysReset
  rw [if_neg (by simp [h])]
  dsimp only
  rw [cutAll_frame s]
  rfl

/-- AON_RST_N's rise with the SYS_RST_N pin low leaves the security processor and drives CMP_EN. -/
theorem aonStart_held {s : State} (hpin : s.pins.sysPin = true) :
    (aonStart s).pwr.cmpEn = true ∧ (aonStart s).sec = s.sec := by
  unfold aonStart
  extract_lets pins pwr s1 s2
  have h2 : s2.pins.sysPin = true ∧ s2.pwr.cmpEn = true ∧ s2.sec = s.sec := by
    simp only [s2]
    split
    · refine ⟨hpin, ?_, rfl⟩
      show (bothDies holdLowest s1).pwr.cmpEn = true
      rw [bothDies_pwr holdLowest_onlyDie]
    · exact ⟨hpin, rfl, rfl⟩
  rw [if_pos h2.1]
  exact h2.2

theorem getFn_resetPort (s : State) (f : Nat) : ∃ n, getFn (resetPort s) f = ({ epoch := n } : Fn) := by
  have h : tfind (resetPort s).fns f = (tfind s.fns f).map fun x => ({ epoch := x.epoch + 1 } : Fn) :=
    tfind_tmap (fun _ (x : Fn) => ({ epoch := x.epoch + 1 } : Fn)) f s.fns
  rw [getFn, tget, h]
  cases tfind s.fns f with
  | none => exact ⟨_, rfl⟩
  | some x => exact ⟨_, rfl⟩

/-- Settles O50: each reset's own state, read off field by field; the store through `storeRead_cutAll`. -/
theorem resetsClearTheirScope : Obligations.ResetsClearTheirScope := by
  unfold Obligations.ResetsClearTheirScope
  intro s
  refine ⟨fun hsys => ⟨sysReset { s with pins := { s.pins with sysPin := true } }, rfl, ?_⟩, fun haon => ⟨aonReset s, ?_, ?_⟩, fun haon hpin => ⟨aonStart s, ?_, ?_⟩,
    fun r haon hpin => ⟨_, ?_, rfl⟩, fun hperst => ⟨{ resetPort s with pins := { s.pins with perst := true } }, ?_, ?_⟩, ⟨_, rfl, rfl⟩⟩
  · rw [sysReset_of_released (s := { s with pins := { s.pins with sysPin := true } }) hsys]
    exact ⟨rfl, rfl, rfl, rfl, rfl, rfl, rfl, rfl, rfl, fun _ => rfl, rfl, rfl, rfl, rfl, rfl, rfl, rfl,
      fun v e hv _ hc => tfind_filter_of_tfind _ (by simp [hc]) hv, fun typ hw => storeRead_cutAll (s := { s with pins := { s.pins with sysPin := true } }) hw 0⟩
  · show Host.Outcome.next _ = _
    rw [when_due _ _ (by simp [haon])]
  · refine ⟨rfl, rfl, rfl, fun hsys => ⟨?_, by rw [aonReset_pins]⟩, by rw [aonReset_pins]⟩
    show (sysReset s).dists = []
    rw [sysReset_of_released hsys]
  · show Host.Outcome.next _ = _
    rw [when_due _ _ haon]
  · obtain ⟨hcmp, hsec⟩ := aonStart_held hpin
    obtain ⟨-, -, hnow, hpins⟩ := (anchor_eq_iff _ _).1 (aonStart_anchor s)
    rw [hpins, if_pos hpin]
    exact ⟨rfl, hnow, hcmp, rfl, hsec⟩
  · show Host.Outcome.next _ = _
    simp [when, hpin, haon]
  · show Host.Outcome.next _ = _
    rw [when_due _ _ (by simp [hperst])]
  · refine ⟨rfl, rfl, rfl, rfl, rfl, rfl, fun f => ?_, rfl⟩
    obtain ⟨n, hn⟩ := getFn_resetPort s f
    have hf : getFn { resetPort s with pins := { s.pins with perst := true } } f = ({ epoch := n } : Fn) := hn
    rw [hf]
    exact ⟨rfl, rfl, rfl, rfl⟩

theorem setBits_zero (n : Nat) : setBits n 0 = [] := by
  simp [setBits]

/-- Settles O53: the ROM reads the BOARD record, and an absent one gives the default board. -/
theorem absentBoardRecordGivesTheDefaults : Obligations.AbsentBoardRecordGivesTheDefaults := by
  unfold Obligations.AbsentBoardRecordGivesTheDefaults
  intro r s hpin haon hok habsent
  refine ⟨_, sysRstNDeassert_boots hpin haon, ?_⟩
  obtain ⟨-, -, hboard, hpwr, -⟩ := bootStart_reads hok { s with pins := { s.pins with sysPin := false } }
  generalize bootStart r { s with pins := { s.pins with sysPin := false } } = t at hboard hpwr
  have hb : boardOf (storeRead s.nvm stBoard 0) = {} := by rw [habsent]; rfl
  have hb' : t.board = {} := hboard.trans hb
  refine ⟨by rw [hb'], by rw [hb'], by rw [hb'], by rw [hb'], by rw [hb'], ?_, by rw [hb'], by rw [hb']; exact setBits_zero 16, ?_, fun p => ?_, ?_⟩
  · rw [hpwr]
    show (boardOf (storeRead s.nvm stBoard 0)).capW = 900
    rw [hb]
  · rw [fittedChannels, hb', setBits_zero, setBits_zero]
    simp
  · rw [portPresent, hb', Nat.zero_testBit, Bool.and_false]
  · rw [passingSites, hb']
    show (setBits 16 0).filter _ = []
    rw [setBits_zero, List.filter_nil]

end Sys2Proof.Machine
end

section
/-! Reads of 64-bit registers and the flags of a function (R465, R466, R470, R471). -/

namespace Sys2Proof.Machine

/-! ## What a BAR0 access of a function leaves of the read latches (R466) -/

theorem hostReq_reached {f : Nat} {s : State} (hf : f < 32) (hr : reaches s f = true) (g : State → State) : hostReq f g s = .next (g s) := by
  rw [hostReq, hostStep, if_pos hf, when_due _ _ hr]

/-- The function's own latch is gone, and the others are as before. -/
def EndsLatch (f : Nat) (s t : State) : Prop := (getFn t f).latch = none ∧ ∀ g, g ≠ f → (getFn t g).latch = (getFn s g).latch

theorem endsLatch_modFn (s : State) (f : Nat) {h : Fn → Fn} (hl : ∀ x, (h x).latch = none) : EndsLatch f s (modFn s f h) :=
  ⟨by rw [getFn_modFn_self, hl], fun _ hg => by rw [getFn_modFn_ne _ _ hg]⟩

theorem violation_latch (f slot off : Nat) (s : State) (g : Nat) : (getFn (violation f slot off s) g).latch = (getFn s g).latch := by
  simp [violation]

theorem slotWrite_endsLatch (f : Nat) (out : Bool) (slot off : Nat) (d : Bytes) (s : State) : EndsLatch f s (slotWrite f out slot off d s) := by
  have hrefused (u : State) (hu : EndsLatch f s u) : EndsLatch f s (violation f slot off u) :=
    ⟨by rw [violation_latch, hu.1], fun g hg => by rw [violation_latch, hu.2 g hg]⟩
  have hkept := endsLatch_modFn s f (h := fun x => { x with latch := none }) fun _ => rfl
  cases out
  · simp only [slotWrite, Bool.false_eq_true, if_false]
    split
    · exact endsLatch_modFn s f fun _ => rfl
    · exact hrefused _ hkept
  · simp only [slotWrite, if_true]
    split
    · exact endsLatch_modFn s f fun _ => rfl
    · exact hrefused _ hkept

theorem flagsWrite_endsLatch (f : Nat) (v : BitVec 64) (s : State) : EndsLatch f s (flagsWrite f v s) := endsLatch_modFn s f fun _ => rfl

theorem bar0Write_endsLatch (f off : Nat) (d : Bytes) (s : State) : EndsLatch f s (bar0Write f off d s) := by
  unfold bar0Write
  split
  · exact slotWrite_endsLatch f _ _ _ d s
  split
  · exact slotWrite_endsLatch f _ _ _ d s
  split
  · exact flagsWrite_endsLatch f _ s
  · exact endsLatch_modFn s f fun _ => rfl

/-- Each BAR0 access but a low-word read ends its function's latch and no other. -/
theorem access_endsLatch {f : Nat} {s : State} (hf : f < 32) (hr : reaches s f = true) (a slot o : Nat) (out : Bool) (d : Bytes) (v : BitVec 64) :
    ∀ i ∈ [Instr.hostFlagsRead f .whole, .hostFlagsClear f v, .bar0PlainWrite f a d, .mailboxSlotWrite f out slot o d, .inboundOwnerPost f slot d,
      .outboundSlotReturn f slot], goesTo (exec i s) (EndsLatch f s) := by
  intro i hi
  simp only [List.mem_cons, List.not_mem_nil, or_false] at hi
  rcases hi with rfl | rfl | rfl | rfl | rfl | rfl
  · exact ⟨_, hostReq_reached hf hr _,
      endsLatch_modFn s f (h := fun x => snapFlags { x with latch := none } [0, 1, 2, 3, 4, 5] (hostFlags (getFn s f))) fun _ => rfl⟩
  · exact ⟨_, hostReq_reached hf hr _, flagsWrite_endsLatch f v s⟩
  · exact ⟨_, hostReq_reached hf hr _, bar0Write_endsLatch f a d s⟩
  · exact ⟨_, hostReq_reached hf hr _, slotWrite_endsLatch f out slot o d s⟩
  · exact ⟨_, hostReq_reached hf hr _, slotWrite_endsLatch f false slot 0 _ s⟩
  · exact ⟨_, hostReq_reached hf hr _, slotWrite_endsLatch f true slot 0 _ s⟩

/-! ## Reads of a 64-bit register -/

/-- A 64-bit register stands on an 8-byte boundary outside the mailbox regions (R468, R477). -/
theorem isReg64_place {f off : Nat} (h : isReg64 f off = true) : off % 8 = 0 ∧ ¬(0x10000 ≤ off ∧ off < 0x18000) := by
  simp only [isReg64, Bool.or_eq_true, Bool.and_eq_true, beq_iff_eq, decide_eq_true_eq, List.contains_eq_mem, List.mem_cons,
    List.not_mem_nil, or_false] at h
  omega

/-- The high half of a 64-bit register is no register of its own. -/
theorem isReg64_high {f off : Nat} (h : isReg64 f off = true) : isReg64 f (off + 4) = false := by
  by_contra hc
  have h0 := (isReg64_place h).1
  have h4 := (isReg64_place (Bool.eq_true_of_not_eq_false hc)).1
  omega

theorem wholeBytes_reg64 {s : State} {f off : Nat} (h : isReg64 f off = true) : wholeBytes s f off = leBytes 8 (reg64 s f off).toNat := by
  obtain ⟨halign, hplace⟩ := isReg64_place h
  rw [wholeBytes, if_neg hplace, if_neg (by simp [halign])]

theorem wordBytes_high {s : State} {f off : Nat} (h : isReg64 f off = true) : wordBytes s f (off + 4) = leBytes 4 (highWord s f (off + 4)).toNat := by
  obtain ⟨halign, hplace⟩ := isReg64_place h
  rw [wordBytes, if_neg (by omega), if_neg (by omega), if_pos (by omega)]

theorem highWord_latched {s : State} {f off : Nat} {h : BitVec 32} (hl : (getFn s f).latch = some (off, h)) : highWord s f (off + 4) = h := by
  simp [highWord, hl]

theorem highWord_current {s : State} {f off : Nat} (hl : ∀ h, (getFn s f).latch ≠ some (off, h)) :
    highWord s f (off + 4) = half (reg64 s f off) true := by
  unfold highWord
  split
  · next o h e =>
    rw [if_neg fun ho => hl h (by rw [e, Nat.add_right_cancel ho]), Nat.add_sub_cancel]
  · rw [Nat.add_sub_cancel]

theorem regRead_high {f off : Nat} {s : State} (hf : f < 32) (hr : reaches s f = true) (h : isReg64 f off = true) :
    goesTo (exec (.regLowWordRead f (off + 4) false) s) fun t =>
      t.out = .readData f (leBytes 4 (highWord s f (off + 4)).toNat) false :: s.out ∧ (getFn t f).latch = none := by
  refine ⟨_, hostReq_reached hf hr _, ?_⟩
  rw [if_neg Bool.false_ne_true, if_neg (by rw [isReg64_high h]; exact Bool.false_ne_true), wordBytes_high h]
  refine ⟨rfl, ?_⟩
  rw [getFn_send, getFn_modFn_self]
  dsimp only
  split <;> rfl

/-- A read of the low word latches the other half and changes nothing else of the device but, of HOST_FLAGS, the reader's snapshots. -/
theorem regRead_low {f off : Nat} {s : State} (hf : f < 32) (hr : reaches s f = true) (h : isReg64 f off = true) :
    goesTo (exec (.regLowWordRead f off false) s) fun t =>
      t.out = .readData f (leBytes 4 (half (reg64 s f off) false).toNat) false :: s.out ∧
      (getFn t f).latch = some (off, half (reg64 s f off) true) ∧ t.dists = s.dists ∧ t.emitted = s.emitted ∧
      (off ≠ 0x18 → (getFn t f).flags = (getFn s f).flags) ∧ ∀ g, g ≠ f → getFn t g = getFn s g := by
  refine ⟨_, hostReq_reached hf hr _, ?_⟩
  rw [if_neg Bool.false_ne_true, if_pos h]
  dsimp only
  refine ⟨rfl, ?_, rfl, rfl, fun hoff => ?_, fun g hg => by rw [getFn_send, getFn_modFn_ne _ _ hg]⟩
  · rw [getFn_send, getFn_modFn_self]
    split <;> rfl
  · rw [getFn_send, getFn_modFn_self, if_neg hoff]

theorem regRead_whole {f off : Nat} {s : State} (hf : f < 32) (hr : reaches s f = true) (h : isReg64 f off = true) :
    goesTo (exec (.regLowWordRead f off true) s) fun t =>
      t.out = .readData f (leBytes 8 (reg64 s f off).toNat) false :: s.out ∧ (getFn t f).latch = none ∧ t.dists = s.dists ∧
      t.emitted = s.emitted ∧ ∀ g, g ≠ f → getFn t g = getFn s g := by
  refine ⟨_, hostReq_reached hf hr _, ?_⟩
  rw [if_pos rfl, wholeBytes_reg64 h]
  dsimp only
  refine ⟨rfl, ?_, rfl, rfl, fun g hg => by rw [getFn_send, getFn_modFn_ne _ _ hg]⟩
  rw [getFn_send, getFn_modFn_self]
  split <;> rfl

/-- Settles O1: each read by its own rule, and every other access by `access_endsLatch`. -/
theorem lowWordReadsAreLatched : Obligations.LowWordReadsAreLatched := by
  unfold Obligations.LowWordReadsAreLatched
  intro f s hf hr
  refine ⟨⟨_, hostReq_reached hf hr _, rfl⟩, fun off h => ⟨regRead_low hf hr h, fun w hl => ?_, fun hl => ?_⟩, fun off h => regRead_whole hf hr h,
    fun a slot o out d v => access_endsLatch hf hr a slot o out d v⟩
  · have hread := regRead_high hf hr h
    rwa [highWord_latched hl] at hread
  · have hread := regRead_high hf hr h
    rwa [highWord_current hl] at hread

/-! ## HOST_FLAGS (R470, R471) -/

theorem sum_range_six (g : Nat → Nat) : ((List.range 6).map g).sum = g 0 + (g 1 + (g 2 + (g 3 + (g 4 + (g 5 + 0))))) := rfl

/-- Six one-bit numbers from bit 0 and six of one byte each from bit 16, added into one number, are its fields. -/
theorem flagFields (b c : Nat → Nat) (hb : ∀ k, b k < 2) (hc : ∀ k, c k < 256) :
    let n := ((List.range 6).map fun k => b k * 2 ^ k + c k * 2 ^ (16 + 8 * k)).sum
    n < 2 ^ 64 ∧ ∀ i < 6, n / 2 ^ i % 2 = b i ∧ n / 2 ^ (16 + 8 * i) % 256 = c i := by
  have hb0 := hb 0; have hb1 := hb 1; have hb2 := hb 2; have hb3 := hb 3; have hb4 := hb 4; have hb5 := hb 5
  have hc0 := hc 0; have hc1 := hc 1; have hc2 := hc 2; have hc3 := hc 3; have hc4 := hc 4; have hc5 := hc 5
  rw [sum_range_six]
  refine ⟨by omega, fun i hi => ?_⟩
  interval_cases i <;> exact ⟨by omega, by omega⟩

/-- A flag's bit and its count field stand alone in HOST_FLAGS. -/
theorem hostFlags_flag (x : Fn) {i : Nat} (hi : i < 6) :
    (hostFlags x).toNat.testBit i = (tget {} x.flags i).set ∧ (hostFlags x).toNat / 2 ^ (16 + 8 * i) % 256 = min (tget {} x.flags i).count 255 := by
  have hcount (k : Nat) : flagField (tget {} x.flags k) < 256 := by unfold flagField; omega
  have hbit (k : Nat) : b2n (tget {} x.flags k).set < 2 := by cases (tget {} x.flags k).set <;> decide
  obtain ⟨hlt, hfields⟩ := flagFields (fun k => b2n (tget {} x.flags k).set) (fun k => flagField (tget {} x.flags k)) hbit hcount
  obtain ⟨hset, hfield⟩ := hfields i hi
  rw [hostFlags, BitVec.toNat_ofNat, Nat.mod_eq_of_lt hlt, Nat.testBit_eq_decide_div_mod_eq, hset]
  exact ⟨by cases (tget {} x.flags i).set <;> rfl, hfield⟩

/-- One entry of a table through changes of entries that are named once each. -/
theorem tget_foldl_tmod {α : Type} (d : α) (g : Nat → α → α) (i : Nat) : ∀ (l : List Nat) (m : AMap α), l.Nodup →
    tget d (l.foldl (fun m k => tmod d m k (g k)) m) i = if i ∈ l then g i (tget d m i) else tget d m i
  | [], _, _ => by simp
  | k :: l, m, h => by
    obtain ⟨hk, hl⟩ := List.nodup_cons.mp h
    rw [List.foldl_cons, tget_foldl_tmod d g i l _ hl, tget_tmod]
    by_cases e : i = k
    · subst e
      simp [hk]
    · simp [e]

theorem snapFlags_flag (x : Fn) {i : Nat} (hi : i < 6) (v : BitVec 64) :
    tget {} (snapFlags x [0, 1, 2, 3, 4, 5] v).flags i = { tget {} x.flags i with snap := some (v.toNat / 2 ^ (16 + 8 * i) % 256) } := by
  have hmem : i ∈ [0, 1, 2, 3, 4, 5] := List.mem_range.mpr hi
  refine (tget_foldl_tmod {} (fun k (g : Flag) => { g with snap := some (v.toNat / 2 ^ (16 + 8 * k) % 256) }) i [0, 1, 2, 3, 4, 5] x.flags
    (by decide)).trans ?_
  rw [if_pos hmem]

theorem flagsWrite_flag (f : Nat) (v : BitVec 64) (s : State) {i : Nat} (hi : i < 6) :
    tget {} (getFn (flagsWrite f v s) f).flags i =
      if v.toNat.testBit i then flagClear (tget {} (getFn s f).flags i) else tget {} (getFn s f).flags i := by
  rw [flagsWrite, getFn_modFn_self]
  refine (tget_foldl_tmod {} (fun _ => flagClear) i _ _ (List.nodup_range.filter _)).trans ?_
  simp [hi]

theorem setFlag_flag {f i : Nat} (h5 : i = 5 → f = 0) (s : State) :
    tget {} (getFn (setFlag s f i) f).flags i = flagSet (tget {} (getFn s f).flags i) := by
  rw [getFn_setFlag, if_pos ⟨rfl, fun h => h.2 (h5 h.1)⟩]
  exact tget_tmod_self _ _ _ _

theorem flagClear_spec (x : Flag) : (flagClear x).count = x.count - x.snap.getD x.count ∧ (flagClear x).set = ((flagClear x).count != 0) ∧
    (flagClear x).snap = none := by
  refine ⟨?_, rfl, rfl⟩
  unfold flagClear
  cases x.snap with
  | none => simp
  | some k => rfl

/-- Settles O2: a set, a read and a write of one flag by their own rules. -/
theorem flagsFollowSetWins : Obligations.FlagsFollowSetWins := by
  unfold Obligations.FlagsFollowSetWins
  intro f i v s hf hr hi h5
  dsimp only
  obtain ⟨hbit, hfield⟩ := hostFlags_flag (getFn s f) hi
  refine ⟨?_, hbit, hfield, ⟨_, hostReq_reached hf hr _, ?_, rfl⟩, ⟨flagsWrite f v s, hostReq_reached hf hr _, rfl, fun hv => ?_, fun hv => ?_⟩⟩
  · rw [setFlag_flag h5]
    exact ⟨rfl, rfl, rfl⟩
  · rw [getFn_send, getFn_modFn_self]
    exact (snapFlags_flag _ hi _).trans (by rw [hfield])
  · have hflag := flagsWrite_flag f v s hi
    rw [if_pos hv] at hflag
    obtain ⟨hcount, hset, hsnap⟩ := flagClear_spec (tget {} (getFn s f).flags i)
    rw [setFlag_flag h5, hflag]
    refine ⟨hcount, hset, hsnap, rfl, ?_⟩
    show 1 ≤ min 65535 (_ + 1)
    omega
  · rw [flagsWrite_flag f v s hi, if_neg (by simp [hv])]

end Sys2Proof.Machine
end

section
/-! Districts (R366–R383): a change of state, DIST_CREATE, and the DIST_ commands on a district that exists. -/

namespace Sys2Proof.Machine

/-! ## A change of state (R370) -/

theorem setDistState_self {s : State} {d st : Nat} (h : (getDist s d).state ≠ st) :
    getDist (setDistState s d st) d = { getDist s d with state := st, gen := (getDist s d).gen + 1 } := by
  rw [setDistState, if_neg h, getDist_emit, getDist_modDist_self]

theorem setDistState_ne {s : State} {d e : Nat} (st : Nat) (h : e ≠ d) : getDist (setDistState s d st) e = getDist s e := by
  unfold setDistState
  dsimp only
  split
  · rfl
  · rw [getDist_emit, getDist_modDist_ne _ _ h]

@[simp] theorem setDistState_fns (s : State) (d st : Nat) : (setDistState s d st).fns = s.fns := by
  unfold setDistState
  dsimp only
  split
  · rfl
  · rw [emit_plain _ _ _ _ _ _ (by decide), modDist_fns]

@[simp] theorem setDistState_backs (s : State) (d st : Nat) : (setDistState s d st).backs = s.backs := by
  unfold setDistState
  dsimp only
  split
  · rfl
  · rw [emit_backs, modDist_backs]

theorem setDistState_logs {s : State} {d st : Nat} (h : (getDist s d).state ≠ st) : ∃ src, (setDistState s d st).emitted =
    s.emitted ++ [⟨s.now, src, 0x1E0, 0, d, [(getDist s d).state, st, ((getDist s d).gen + 1).toNat]⟩] := by
  rw [setDistState, if_neg h]
  dsimp only
  rw [emit_emitted]
  exact ⟨_, rfl⟩

theorem repliesAdd_of_fns_left {s t u : State} {f : Nat} {l : List Reply} (h : repliesAdd t u f l) (hfns : t.fns = s.fns) : repliesAdd s u f l := by
  rw [repliesAdd, getFn_congr hfns] at h
  exact h

/-- What a serving loop's waking leaves of its district: every field but the loop. -/
theorem wakeLoop_field {α : Type} (f : Dist → α) (hf : ∀ x l, f { x with loop := l } = f x) (s : State) (d i : Nat) :
    f (getDist (wakeLoop s d) i) = f (getDist s i) := by
  obtain ⟨l, hl⟩ := getDist_wakeLoop s d i
  rw [hl, hf]

/-- A district's command whose checks all pass acts on the state with its serving loop woken. -/
theorem fwStep_onDistrict {k : Spec} {c : FwReq} {s : State} {checks : State → List (Bool × Err)} {eff : State → State} (h : Sendable k c s)
    (hwide : k.wide = false) (hc : firstErr (checks s) = none) : fwStep k c checks eff s = .next (eff (wakeLoop s (cmdDist c))) := by
  rw [fwStep_acts h hc, if_neg (by simp [hwide])]

theorem wakeLoop_none {s : State} {d : Nat} (h : (getDist s d).loop = none) : wakeLoop s d = s := by
  rw [wakeLoop, h]

/-! ## DIST_CREATE -/

/-- The save area that a preemptible district takes (R369, R377). -/
def saveTaken (c : FwReq) (s : State) : Option Nat × State :=
  if bit c.payload 10 then ((alloc s 1 (List.range 8) (saveBytes (fld c.payload 21 16))).1, (alloc s 1 (List.range 8) (saveBytes (fld c.payload 21 16))).2)
  else (none, s)

/-- The district as DIST_CREATE sets it up. -/
def createdDist (c : FwReq) (s : State) : Dist :=
  let p := c.payload
  { gen := (getDist s (cmdDist c)).gen, alloc := { segTable := Config.segTable (cmdDist c) }, serving := bit p 8, approx := bit p 9, preempt := bit p 10
    q := fld p 21 16, quarters := (pickQuarters s (fld p 21 16) (fld p 63 32)).getD [], sharedMib := fld p 27 24
    channels := setBits 64 (fld p 127 64), dirBase := (pickDir s (fld p 144 128)).getD 0, dirCount := fld p 144 128, shares := sharesOf p
    cp := pickCp s, saveBid := (saveTaken c s).1 }

def created (c : FwReq) (s : State) : State := setDistState (modDist (saveTaken c s).2 (cmdDist c) fun _ => createdDist c s) (cmdDist c) 1

theorem saveTaken_keeps (c : FwReq) (s : State) : (saveTaken c s).2.dists = s.dists ∧ (saveTaken c s).2.fns = s.fns := by
  unfold saveTaken
  split
  · exact ⟨rfl, rfl⟩
  · exact ⟨rfl, rfl⟩

theorem created_dist (c : FwReq) (s : State) :
    getDist (created c s) (cmdDist c) = { createdDist c s with state := 1, gen := (getDist s (cmdDist c)).gen + 1 } := by
  rw [created, setDistState_self (by rw [getDist_modDist_self]; exact Nat.zero_ne_one), getDist_modDist_self]
  rfl

theorem created_others {c : FwReq} {s : State} {e : Nat} (h : e ≠ cmdDist c) : getDist (created c s) e = getDist s e := by
  rw [created, setDistState_ne _ h, getDist_modDist_ne _ _ h, getDist_congr (saveTaken_keeps c s).1]

theorem created_fns (c : FwReq) (s : State) : (created c s).fns = s.fns := by
  rw [created, setDistState_fns, modDist_fns, (saveTaken_keeps c s).2]

theorem distCreate_acts {c : FwReq} {s : State} (h : Sendable specDistCreate c s) (hlen : c.payload.length = 48)
    (hres : zeroAt c.payload createRsvd = true) (hports : ((sharesOf c.payload).all fun e => portPresent s e.1) = true)
    (hok : createOk c.payload = true) (hempty : (getDist s (cmdDist c)).state = 0) (hloop : (getDist s (cmdDist c)).loop = none)
    (hfree : createFree s c.payload = true) : exec (.distCreate c) s =
      .next (replyOk (created c s) c 0x0200 (pack 8 [(32, maskOf (createdDist c s).quarters), (2, pickCp s), (14, 0), (16, (createdDist c s).dirBase)])) := by
  show execDistCreate c s = _
  unfold execDistCreate
  dsimp only
  rw [fwStep_onDistrict h rfl ((firstErr_shared h (by simp [hlen, hres]) hports _).trans
    (by rw [firstErr_cons, hok]; exact (firstErr_legalIn (by simp [hempty]) _).trans (firstErr_passed (by simp [hfree])))), wakeLoop_none hloop]
  rfl

/-- Settles O14: a change of state by its own rules; DIST_CREATE sets the district up and moves it to CONFIGURED. -/
theorem districtsAreCreatedAndLogged : Obligations.DistrictsAreCreatedAndLogged := by
  unfold Obligations.DistrictsAreCreatedAndLogged
  refine ⟨fun s d st h => ⟨setDistState_self h, setDistState_logs h, setDistState_fns s d st, fun e he => setDistState_ne st he⟩,
    fun c s h hlen hres hports hok hempty hloop hfree => ⟨_, distCreate_acts h hlen hres hports hok hempty hloop hfree, ?_⟩⟩
  have hfree' := hfree
  simp only [createFree, Bool.and_eq_true] at hfree'
  obtain ⟨⟨⟨⟨hq, -⟩, -⟩, hdir⟩, -⟩ := hfree'
  dsimp only
  rw [getDist_replyOk, created_dist]
  refine ⟨rfl, rfl, rfl, ?_, rfl, rfl, rfl, rfl, rfl, rfl, rfl, rfl, ?_, rfl, ?_, fun e he => by rw [getDist_replyOk, created_others he]⟩
  · show some (Option.getD _ _) = _
    obtain ⟨q, hq⟩ := Option.isSome_iff_exists.mp hq
    rw [hq, Option.getD_some]
  · show some (Option.getD _ _) = _
    obtain ⟨b, hb⟩ := Option.isSome_iff_exists.mp hdir
    rw [hb, Option.getD_some]
  · exact repliesAdd_of_fns_left (replyOk_adds _ c _ _) (created_fns c s)

end Sys2Proof.Machine
end

section
/-! The DIST_ commands on a district that exists, and the ends of a pause, a resume and a recovery (R372, R377–R383). -/

namespace Sys2Proof.Machine

/-! ## DIST_DESTROY (R381, R383) -/

theorem distDestroy_acts {c : FwReq} {s : State} (h : Sendable specDistDestroy c s) (hp : c.payload = [])
    (hst : (getDist s (cmdDist c)).state ∈ [1, 2, 5, 6]) :
    exec (.distDestroy c) s = .next (replyOk (removeFn (cmdDist c) (removeDist (cmdDist c) (wakeLoop s (cmdDist c)))) c 0x0201 []) :=
  fwStep_onDistrict h rfl ((firstErr_shared h (by simp [hp]) rfl _).trans (firstErr_legalIn hst _))

theorem removeFn_dists (d : Nat) (s : State) : (removeFn d s).dists = s.dists := by
  unfold removeFn
  split
  · rfl
  · rfl

theorem getDist_removeDist (d : Nat) (s : State) : ∃ g, getDist (removeDist d s) d = { gen := g } := by
  unfold removeDist
  dsimp only
  rw [getDist_modDist_self]
  exact ⟨_, rfl⟩

theorem okReply_mem (s : State) (c : FwReq) (cmd : Nat) (p : Bytes) : okReply c cmd p ∈ (getFn (replyOk s c cmd p) c.fn).replies := by
  rw [replyOk_adds s c cmd p]
  exact List.mem_append_right _ (List.mem_singleton_self _)

theorem acceptedReply_mem (s : State) (c : FwReq) (cmd : Nat) : acceptedReply c cmd ∈ (getFn (replyAccepted s c cmd) c.fn).replies := by
  rw [replyAccepted_adds s c cmd]
  exact List.mem_append_right _ (List.mem_singleton_self _)

/-- A reply adds to a function's replies and changes nothing else of it. -/
theorem getFn_replyOk (s : State) (c : FwReq) (cmd : Nat) (p : Bytes) (f : Nat) : ∃ l, getFn (replyOk s c cmd p) f = { getFn s f with replies := l } := by
  rw [replyOk_eq]
  by_cases h : f = c.fn
  · rw [h, getFn_modFn_self]
    exact ⟨_, rfl⟩
  · rw [getFn_modFn_ne _ _ h]
    exact ⟨_, rfl⟩

theorem getFn_replyOk_ne (s : State) (c : FwReq) (cmd : Nat) (p : Bytes) {f : Nat} (h : f ≠ c.fn) : getFn (replyOk s c cmd p) f = getFn s f := by
  rw [replyOk_eq, getFn_modFn_ne _ _ h]

/-- The function of a district other than district 0 is reset with it. -/
theorem removeFn_virtual {d : Nat} (h : d ≠ 0) (s : State) : ∃ n b,
    getFn (removeFn d s) d = { epoch := n, bar2Log := b, flr := true } := by
  rw [removeFn, if_neg h, getFn_modFn_self, resetFn, getFn_modFn_self]
  exact ⟨_, _, rfl⟩

theorem removeFn_physical (s : State) : (getFn (removeFn 0 s) 0).winBase = 0 ∧ (getFn (removeFn 0 s) 0).binds = [] := by
  rw [removeFn, if_pos rfl, getFn_modFn_self]
  exact ⟨rfl, rfl⟩

/-! ## DIST_PAUSE (R378) -/

/-- A pause accepted, before the drain begins. -/
def pauseTaken (c : FwReq) (s : State) : State :=
  let u := replyAccepted s c 0x0202
  modDist u (cmdDist c) fun x => { x with pause := some { pend := pendOf u c 0x0202, atBoundary := false, start := time u } }

theorem distPause_acts {c : FwReq} {s : State} (h : Sendable specDistPause c s) (hlen : c.payload.length = 8) (hzero : fld c.payload 63 0 = 0)
    (hpre : (getDist s (cmdDist c)).preempt = true) (hst : (getDist s (cmdDist c)).state ∈ [1, 2, 3]) (hnone : (getDist s (cmdDist c)).pause = none) :
    exec (.distPause c) s = .next (beginPause (pauseTaken c (wakeLoop s (cmdDist c))) (cmdDist c) none) := by
  have hbit : bit c.payload 0 = false := by rw [bit, fld_zero_within hzero (by omega) (by omega) (by omega)]; rfl
  have hres : fld c.payload 63 1 = 0 := fld_zero_within hzero (by omega) (by omega) (by omega)
  have hacts := fwStep_onDistrict (checks := fun s' => headChecks specDistPause (c.payload.length == 8 && zeroAt c.payload [(63, 1)]) true c s' ++
      [((getDist s (cmdDist c)).state != 0 && !(getDist s (cmdDist c)).preempt, denied),
       (bit c.payload 0 && !loopActive (getDist s (cmdDist c)), badArgument), legalIn s' (cmdDist c) [1, 2, 3],
       ((getDist s (cmdDist c)).pause.isSome, conflict 1 (getDist s (cmdDist c)).state)])
    (eff := fun s =>
      let s := replyAccepted s c 0x0202
      let s := modDist s (cmdDist c) fun x => { x with pause := some { pend := pendOf s c 0x0202, atBoundary := bit c.payload 0, start := time s } }
      if bit c.payload 0 then loopEdge (cmdDist c) s else beginPause s (cmdDist c) none)
    h rfl ((firstErr_shared h (by simp [hlen, zeroAt, hres]) rfl _).trans (by
      rw [firstErr_cons, firstErr_cons, hpre, hbit, if_neg (by simp), if_neg (by simp)]
      exact (firstErr_legalIn hst _).trans (firstErr_passed (by simp [hnone]))))
  refine Eq.trans hacts ?_
  rw [hbit]
  rfl

theorem beginPause_dist (s : State) (d : Nat) (drained : Option Nat) (h : (getDist s d).state ≠ 4) : ∃ p,
    getDist (beginPause s d drained) d = { getDist s d with
      prior := (getDist s d).state, pausedAt := time s, pause := p, state := 4, gen := (getDist s d).gen + 1 } := by
  rw [beginPause, setDistState_self (by rw [getDist_modDist_self]; exact h), getDist_modDist_self]
  exact ⟨_, rfl⟩

@[simp] theorem beginPause_fns (s : State) (d : Nat) (drained : Option Nat) : (beginPause s d drained).fns = s.fns := by
  rw [beginPause, setDistState_fns, modDist_fns]

@[simp] theorem beginPause_backs (s : State) (d : Nat) (drained : Option Nat) : (beginPause s d drained).backs = s.backs := by
  rw [beginPause, setDistState_backs, modDist_backs]

theorem distPause_drains {c : FwReq} {s : State} (hst : (getDist s (cmdDist c)).state ∈ [1, 2, 3]) :
    let t := beginPause (pauseTaken c (wakeLoop s (cmdDist c))) (cmdDist c) none
    (getDist t (cmdDist c)).state = 4 ∧ (getDist t (cmdDist c)).prior = (getDist s (cmdDist c)).state ∧
    (getDist t (cmdDist c)).quarters = (getDist s (cmdDist c)).quarters ∧ (getDist t (cmdDist c)).cores = (getDist s (cmdDist c)).cores ∧
    repliesAdd s t c.fn [acceptedReply c 0x0202] ∧ t.backs = s.backs := by
  obtain ⟨l, hl⟩ := getDist_wakeLoop s (cmdDist c) (cmdDist c)
  have htaken : ∃ p, getDist (pauseTaken c (wakeLoop s (cmdDist c))) (cmdDist c) = { getDist s (cmdDist c) with loop := l, pause := p } := by
    rw [pauseTaken, getDist_modDist_self, getDist_replyAccepted, hl]
    exact ⟨_, rfl⟩
  obtain ⟨p, hp⟩ := htaken
  obtain ⟨q, hq⟩ := beginPause_dist (pauseTaken c (wakeLoop s (cmdDist c))) (cmdDist c) none (by rw [hp]; intro h; rw [h] at hst; simp at hst)
  dsimp only
  rw [hq, hp]
  refine ⟨rfl, rfl, rfl, rfl, ?_, ?_⟩
  · exact repliesAdd_of_fns (repliesAdd_wakeLoop.mp (replyAccepted_adds _ c 0x0202)) (beginPause_fns _ _ _)
  · rw [beginPause_backs]
    exact (replyAccepted_backs _ _ _).trans (wakeLoop_backs _ _)

/-! ## DIST_RESUME (R379) -/

theorem idleLeave_dists (micros : Nat) (s : State) : (idleLeave micros s).dists = s.dists := by
  unfold idleLeave
  split
  · rw [emit_dists]
  · rfl

theorem wakeQuarters_dists (s : State) : (wakeQuarters s).dists = s.dists :=
  (idleLeave_dists 0 _).trans (congrArg (·.2.1) (autoWake_standing s))

/-- The quarters that a district holds or has taken. -/
def quartersOf (x : Dist) : List Nat := if x.state = 0 then [] else x.quarters ++ (match x.resume with
  | some r => r.quarters
  | none => [])

theorem mem_heldQuarters {s : State} {i : Nat} : i ∈ heldQuarters s ↔ ∃ e ∈ s.dists, i ∈ quartersOf e.2 := List.mem_flatMap

theorem pickQuarters_congr {s t : State} (h : ∀ i, i ∈ heldQuarters t ↔ i ∈ heldQuarters s) (q mask : Nat) :
    pickQuarters t q mask = pickQuarters s q mask := by
  have hc (i : Nat) : (heldQuarters t).contains i = (heldQuarters s).contains i :=
    Bool.eq_iff_iff.mpr (List.contains_iff_mem.trans ((h i).trans List.contains_iff_mem.symm))
  simp only [pickQuarters, hc]

theorem mem_of_mem_tset {α : Type} {k : Nat} {v : α} {e : Nat × α} : ∀ {m : AMap α}, e ∈ tset m k v → e = (k, v) ∨ e ∈ m
  | [], h => .inl (List.mem_singleton.mp h)
  | (j, u) :: m, h => by
    unfold tset at h
    split at h
    · exact List.mem_cons.mp h
    split at h
    · exact (List.mem_cons.mp h).imp_right (List.mem_cons_of_mem _)
    · rcases List.mem_cons.mp h with rfl | h
      · exact .inr List.mem_cons_self
      · exact (mem_of_mem_tset h).imp_right (List.mem_cons_of_mem _)

theorem mem_tset_self {α : Type} {k : Nat} {v : α} : ∀ m : AMap α, (k, v) ∈ tset m k v
  | [] => List.mem_singleton_self _
  | (j, u) :: m => by
    unfold tset
    split
    · exact List.mem_cons_self
    split
    · exact List.mem_cons_self
    · exact List.mem_cons_of_mem _ (mem_tset_self m)

/-- An entry set takes the place of the entry that was found there, and of no other. -/
theorem mem_tset_of_mem {α : Type} {k : Nat} {v : α} {e : Nat × α} : ∀ {m : AMap α}, e ∈ m → e ∈ tset m k v ∨ tfind m k = some e.2
  | (j, u) :: m, h => by
    unfold tset tfind
    by_cases hkj : k < j
    · rw [if_pos hkj]
      exact .inl (List.mem_cons_of_mem _ h)
    by_cases he : k = j
    · rw [if_neg hkj, if_pos he, if_pos he.symm]
      exact (List.mem_cons.mp h).elim (fun h => .inr (by rw [h])) fun h => .inl (List.mem_cons_of_mem _ h)
    · rw [if_neg hkj, if_neg he, if_neg (Ne.symm he)]
      rcases List.mem_cons.mp h with rfl | h
      · exact .inl List.mem_cons_self
      · exact (mem_tset_of_mem h).imp_left (List.mem_cons_of_mem _)

/-- A district changed in neither state nor quarters leaves the quarters held. -/
theorem mem_heldQuarters_modDist {s : State} {d i : Nat} {g : Dist → Dist} {x : Dist} (hx : tfind s.dists d = some x)
    (hg : quartersOf (g x) = quartersOf x) : i ∈ heldQuarters (modDist s d g) ↔ i ∈ heldQuarters s := by
  have hset : (modDist s d g).dists = tset s.dists d (g x) := by
    show tset s.dists d (g (tget {} s.dists d)) = _
    rw [tget, hx, Option.getD_some]
  have hin : (d, x) ∈ s.dists := by
    clear hset
    generalize s.dists = m at hx
    induction m with
    | nil => cases hx
    | cons e m ih =>
      rw [tfind] at hx
      split at hx
      · next h => cases hx; exact h ▸ List.mem_cons_self
      · exact List.mem_cons_of_mem _ (ih hx)
  rw [mem_heldQuarters, mem_heldQuarters, hset]
  constructor
  · rintro ⟨e, he, hi⟩
    rcases mem_of_mem_tset he with rfl | he
    · exact ⟨_, hin, hg ▸ hi⟩
    · exact ⟨e, he, hi⟩
  · rintro ⟨e, he, hi⟩
    rcases mem_tset_of_mem (k := d) (v := g x) he with he | he
    · exact ⟨e, he, hi⟩
    · rw [hx] at he
      cases he
      exact ⟨_, mem_tset_self _, hg.symm ▸ hi⟩

theorem pickQuarters_wakeLoop (s : State) (d q mask : Nat) : pickQuarters (wakeLoop s d) q mask = pickQuarters s q mask := by
  refine pickQuarters_congr (fun i => ?_) q mask
  unfold wakeLoop
  split
  · next l hl =>
    split
    · have hfound : ∃ x, tfind s.dists d = some x := by
        rw [getDist, tget] at hl
        cases h : tfind s.dists d with
        | none => rw [h] at hl; cases hl
        | some x => exact ⟨x, rfl⟩
      obtain ⟨x, hx⟩ := hfound
      exact mem_heldQuarters_modDist hx rfl
    · rfl
  · rfl

/-- The state in which a resume has its answer: the device awake and the request accepted. -/
def resumeTaken (c : FwReq) (s : State) : State := replyAccepted (wakeQuarters (wakeLoop s (cmdDist c))) c 0x0203

theorem resumeTaken_dists (c : FwReq) (s : State) : (resumeTaken c s).dists = (wakeLoop s (cmdDist c)).dists := by
  rw [resumeTaken, replyAccepted_dists, wakeQuarters_dists]

theorem distResume_acts {c : FwReq} {s : State} {qs : List Nat} (h : Sendable specDistResume c s) (hlen : c.payload.length = 8)
    (hzero : fld c.payload 63 0 = 0) (hst : (getDist s (cmdDist c)).state = 5) (hnone : (getDist s (cmdDist c)).resume = none)
    (hblock : (retainBlocks s).1 = false) (hqs : pickQuarters s (getDist s (cmdDist c)).q 0 = some qs) : exec (.distResume c) s =
      .next (modDist (resumeTaken c s) (cmdDist c) fun y => { y with
        resume := some ⟨pendOf (resumeTaken c s) c 0x0203, time (resumeTaken c s), qs⟩ }) := by
  have hm : fld c.payload 31 0 = 0 := fld_zero_within hzero (by omega) (by omega) (by omega)
  have hres : fld c.payload 63 32 = 0 := fld_zero_within hzero (by omega) (by omega) (by omega)
  have hpick : pickQuarters (resumeTaken c s) (getDist s (cmdDist c)).q 0 = some qs := by
    have hheld : ∀ i, i ∈ heldQuarters (resumeTaken c s) ↔ i ∈ heldQuarters (wakeLoop s (cmdDist c)) := fun i => by
      rw [mem_heldQuarters, mem_heldQuarters, resumeTaken_dists]
    rw [pickQuarters_congr hheld, pickQuarters_wakeLoop, hqs]
  show execDistResume c s = _
  unfold execDistResume
  dsimp only
  rw [fwStep_onDistrict h rfl ((firstErr_shared h (by simp [hlen, zeroAt, hres]) rfl _).trans (by
    rw [firstErr_cons, if_neg (by simp [hm])]
    refine (firstErr_legalIn (by simp [hst]) _).trans ?_
    rw [firstErr_cons, if_neg (by simp [hnone])]
    have hb : retainBlocks s = (false, conflict 8 0xC2) := Prod.ext hblock rfl
    rw [hb, firstErr_cons, if_neg (by simp), hm]
    exact firstErr_passed (by simp [hqs])))]
  show Host.Outcome.next (modDist (resumeTaken c s) _ _) = _
  rw [hm]
  show Host.Outcome.next (modDist (resumeTaken c s) _ fun y => { y with
    resume := some ⟨pendOf (resumeTaken c s) c 0x0203, time (resumeTaken c s), (pickQuarters (resumeTaken c s) (getDist s (cmdDist c)).q 0).getD []⟩ }) = _
  rw [hpick]
  rfl

/-! ## DIST_RECOVER and the end of a recovery (R372) -/

theorem finishOk_dists_foldl (l : List Pend) (s : State) : (l.foldl (fun s p => finishOk s p []) s).dists = s.dists :=
  foldl_keeps (fun s p => finishOk_dists s p []) l s

/-- The commands that waited for an abort are answered, and nothing else of the district changes but its run. -/
theorem answerAbort_dist (s : State) (d : Nat) : ∃ r, getDist (answerAbort s d) d = { getDist s d with run := r } := by
  rw [answerAbort, getDist_congr (finishOk_dists_foldl _ _), getDist_modDist_self]
  exact ⟨_, rfl⟩

theorem unbind_dists (s : State) (d purpose : Nat) : (unbind s d purpose).dists = s.dists := rfl

theorem raiseBound_dists (s : State) (d purpose : Nat) : (raiseBound s d purpose).dists = s.dists := by
  unfold raiseBound
  split
  · rw [raiseVec_dists]
  · rfl

/-- A district that is neither RUNNING nor paused or pausing stays in its state as a run ends. -/
theorem leaveRunning_idle {s : State} {d : Nat} (h : (getDist s d).state ∉ [3, 4, 5]) : leaveRunning s d = s := by
  simp only [List.mem_cons, List.not_mem_nil, or_false, not_or] at h
  obtain ⟨h3, h4, h5⟩ := h
  simp [leaveRunning, h3, h4, h5]

/-- The end of a stopped run, in a district outside RUNNING and the pause, changes its run and its cores alone. -/
theorem endRunHalted_dist {s : State} {d : Nat} (h : (getDist s d).state ∉ [3, 4, 5]) : ∃ r c,
    getDist (endRunHalted s d) d = { getDist s d with run := r, cores := c } := by
  unfold endRunHalted
  split
  · next r p hr =>
    split
    · exact ⟨_, _, rfl⟩
    · have hclear (u : State) (hu : u.dists = s.dists) : getDist (clearRun u d) d =
          { getDist s d with run := none, cores := tmap (getDist s d).cores fun _ c => { c with queue := [], halted := false } } := by
        rw [clearRun, getDist_modDist_self, getDist_congr hu]
      have hraised := hclear (raiseBound (emit s (seqSource s d) 0x044 sevNotice d (r.handle :: r.causes)) d vbProg)
        ((raiseBound_dists _ _ _).trans (emit_dists _ _ _ _ _ _))
      dsimp only
      split
      · rw [leaveRunning_idle (by rw [getDist_congr (unbind_dists _ _ _), hraised]; exact h), getDist_congr (unbind_dists _ _ _), hraised]
        exact ⟨_, _, rfl⟩
      · rw [hraised]
        exact ⟨_, _, rfl⟩
  · exact ⟨_, _, rfl⟩

/-- A FAULTED district recovered: CONFIGURED or LOADED by its programs, with no run. -/
theorem recovered_dist {s : State} {d : Nat} (h : (getDist s d).state = 6) : ∃ c g, getDist (recovered d s) d =
    { getDist s d with run := none, cores := c, state := if (getDist s d).progs = [] then 1 else 2, gen := g } := by
  obtain ⟨r, hr⟩ := answerAbort_dist s d
  obtain ⟨r', c, hc⟩ := endRunHalted_dist (s := answerAbort s d) (d := d) (by rw [hr]; simp [h])
  have hclear : ∃ c, getDist (clearRun (endRunHalted (answerAbort s d) d) d) d = { getDist s d with run := none, cores := c } := by
    rw [clearRun, getDist_modDist_self, hc, hr]
    exact ⟨_, rfl⟩
  obtain ⟨c', hc'⟩ := hclear
  have hne : (getDist (clearRun (endRunHalted (answerAbort s d) d) d) d).state ≠
      loadedState (getDist (clearRun (endRunHalted (answerAbort s d) d) d) d) := by
    rw [hc']
    show (getDist s d).state ≠ _
    rw [h, loadedState]
    split <;> decide
  rw [recovered, setDistState_self hne, hc']
  exact ⟨_, _, rfl⟩

/-- With no run, a recovery answers nobody and raises nothing. -/
theorem recovered_fns {s : State} {d : Nat} (h : (getDist s d).run = none) : (recovered d s).fns = s.fns := by
  have habort : abortsOf (getDist s d) = [] := by rw [abortsOf, h]
  have hanswer : (answerAbort s d).fns = s.fns := by rw [answerAbort, habort]; rfl
  have hrun : runProg (getDist (answerAbort s d) d) = none := by
    rw [answerAbort, habort]
    show runProg (getDist (modDist s d _) d) = none
    rw [getDist_modDist_self, runProg, h]
    rfl
  have hend : endRunHalted (answerAbort s d) d = answerAbort s d := by rw [endRunHalted, hrun]
  rw [recovered, setDistState_fns, hend]
  exact hanswer

theorem distRecoverDone_recovers {d : Nat} {s : State} {p : Pend} (hst : (getDist s d).state = 6) (hrec : (getDist s d).recover = some p)
    (hidle : allIdle (getDist s d) = true) :
    exec (.distRecoverDone d) s = .next (finishOk (recovered d (modDist s d fun x => { x with recover := none })) p []) := by
  show Host.Outcome.next (recoverDone d s) = _
  simp only [recoverDone, hrec, hst, hidle, true_and, if_true]

theorem distRecoverDone_waits {d : Nat} {s : State} {p : Pend} (hrec : (getDist s d).recover = some p) (hbusy : allIdle (getDist s d) = false) :
    exec (.distRecoverDone d) s = .next s := by
  show Host.Outcome.next (recoverDone d s) = _
  simp only [recoverDone, hrec, hbusy, Bool.false_eq_true, and_false, if_false]

/-- A recovery asked for: no WAIT goes on, and a run is stopped. -/
def recoveryBegun (d : Nat) (s : State) : State :=
  modDist s d fun x => cancelWaits { x with run := x.run.map fun r => { r with stopped := true } }

theorem allIdle_recoveryBegun {s : State} {d : Nat} (h : ∀ e ∈ (getDist s d).cores, e.2.issued = [] ∧ e.2.prefetches = []) :
    allIdle (getDist (recoveryBegun d s) d) = true := by
  rw [recoveryBegun, getDist_modDist_self, allIdle, List.all_eq_true]
  intro e he
  obtain ⟨k, hk, rfl⟩ := List.mem_map.mp he
  obtain ⟨hi, hp⟩ := h k hk
  simp [coreIdle, hi, hp]

theorem distRecover_acts {c : FwReq} {s : State} (h : Sendable specDistRecover c s) (hp : c.payload = []) (hst : (getDist s (cmdDist c)).state = 6)
    (hrec : (getDist s (cmdDist c)).recover = none)
    (hcores : ∀ e ∈ (getDist s (cmdDist c)).cores, e.2.issued = [] ∧ e.2.prefetches = []) : exec (.distRecover c) s =
      .next (replyOk (recovered (cmdDist c) (recoveryBegun (cmdDist c) (wakeLoop s (cmdDist c)))) c 0x0204 []) := by
  have hidle := allIdle_recoveryBegun (s := wakeLoop s (cmdDist c)) (d := cmdDist c)
    (by rw [wakeLoop_field (·.cores) (fun _ _ => rfl)]; exact hcores)
  show execDistRecover c s = _
  unfold execDistRecover
  dsimp only
  rw [fwStep_onDistrict h rfl ((firstErr_shared h (by simp [hp]) rfl _).trans
    ((firstErr_legalIn (by simp [hst]) _).trans (firstErr_passed (by simp [hrec]))))]
  show Host.Outcome.next (if allIdle (getDist (recoveryBegun (cmdDist c) (wakeLoop s (cmdDist c))) (cmdDist c)) = true then _ else _) = _
  rw [if_pos hidle]
  rfl

/-- The recovery of an idle district that has no run. -/
theorem recovery_answers {c : FwReq} {s : State} (hst : (getDist s (cmdDist c)).state = 6) (hrun : (getDist s (cmdDist c)).run = none) :
    let t := replyOk (recovered (cmdDist c) (recoveryBegun (cmdDist c) (wakeLoop s (cmdDist c)))) c 0x0204 []
    (getDist t (cmdDist c)).state = (if (getDist s (cmdDist c)).progs = [] then 1 else 2) ∧
    (getDist t (cmdDist c)).progs = (getDist s (cmdDist c)).progs ∧ (getDist t (cmdDist c)).segs = (getDist s (cmdDist c)).segs ∧
    repliesAdd s t c.fn [okReply c 0x0204 []] := by
  have hbegun : ∃ l k, getDist (recoveryBegun (cmdDist c) (wakeLoop s (cmdDist c))) (cmdDist c) =
      { getDist s (cmdDist c) with loop := l, cores := k, run := none } := by
    obtain ⟨l, hl⟩ := getDist_wakeLoop s (cmdDist c) (cmdDist c)
    rw [recoveryBegun, getDist_modDist_self, hl]
    show ∃ _ _, cancelWaits { getDist s (cmdDist c) with loop := l, run := (getDist s (cmdDist c)).run.map _ } = _
    rw [hrun]
    exact ⟨_, _, rfl⟩
  obtain ⟨l, k, hk⟩ := hbegun
  obtain ⟨k', g, hg⟩ := recovered_dist (s := recoveryBegun (cmdDist c) (wakeLoop s (cmdDist c))) (d := cmdDist c) (by rw [hk]; exact hst)
  dsimp only
  rw [getDist_replyOk, hg, hk]
  refine ⟨rfl, rfl, rfl, repliesAdd_of_fns_left (replyOk_adds _ c _ _) ?_⟩
  rw [recovered_fns (by rw [hk]), recoveryBegun, modDist_fns, wakeLoop_fns]

/-! ## DIST_INFO (R383) -/

/-- What DIST_INFO answers. -/
def distReport (x : Dist) : Bytes :=
  pack 40 [(8, x.state), (8, x.prior), (2, x.cp), (1, b2n x.serving), (1, b2n x.approx), (1, b2n x.preempt), (11, 0),
    (32, maskOf x.quarters), (16, x.gen.toNat), (16, 0), (16, x.dirBase), (17, x.dirCount), (63, 0), (64, x.sLive), (64, x.bstep)]

theorem distInfo_acts {c : FwReq} {s : State} (h : Sendable specDistInfo c s) (hp : c.payload = []) :
    exec (.distInfo c) s = .next (replyOk (wakeLoop s (cmdDist c)) c 0x0205 (distReport (getDist s (cmdDist c)))) := by
  have hshared := firstErr_shared h (fmt := c.payload == []) (by simp [hp]) rfl []
  rw [List.append_nil] at hshared
  have hreport : distReport (getDist (wakeLoop s (cmdDist c)) (cmdDist c)) = distReport (getDist s (cmdDist c)) :=
    wakeLoop_field distReport (fun _ _ => rfl) s _ _
  rw [← hreport]
  exact fwStep_onDistrict h rfl hshared

theorem distReport_fields (x : Dist) : (distReport x).length = 40 ∧ fld (distReport x) 7 0 = x.state % 256 ∧
    fld (distReport x) 63 32 = maskOf x.quarters % 2 ^ 32 ∧ fld (distReport x) 79 64 = x.gen.toNat := by
  refine ⟨pack_length _ _, ?_, ?_, ?_⟩
  · exact fld_pack_field [] rfl rfl rfl (by decide) (by decide)
  · exact fld_pack_field [_, _, _, _, _, _, _] rfl rfl rfl (by decide) (by decide)
  · refine Eq.trans ?_ (Nat.mod_eq_of_lt x.gen.isLt)
    exact fld_pack_field [_, _, _, _, _, _, _, _] rfl rfl rfl (by decide) (by decide)

/-- Settles O15: each command by its own rule. -/
theorem districtCommandsComplete : Obligations.DistrictCommandsComplete := by
  unfold Obligations.DistrictCommandsComplete
  intro c s
  refine ⟨fun h hp hst => ⟨_, distDestroy_acts h hp hst, ?_, okReply_mem _ c _ _, fun hd => ?_, fun hd => ?_⟩,
    fun h hlen hzero hpre hst hnone => ⟨_, distPause_acts h hlen hzero hpre hst hnone, distPause_drains hst⟩,
    fun qs h hlen hzero hst hnone hblock hqs => ⟨_, distResume_acts h hlen hzero hst hnone hblock hqs, ?_, ?_, ?_⟩,
    fun h hp hst hrec hrun hcores => ⟨_, distRecover_acts h hp hst hrec hcores, recovery_answers hst hrun⟩,
    fun h hp => ⟨_, distInfo_acts h hp, distReport (getDist s (cmdDist c)), ?_⟩⟩
  · rw [getDist_replyOk, getDist_congr (removeFn_dists _ _)]
    exact getDist_removeDist _ _
  · obtain ⟨n, b, hf⟩ := removeFn_virtual hd (removeDist (cmdDist c) (wakeLoop s (cmdDist c)))
    have hfn : cmdDist c ≠ c.fn := by rw [h.pf0 rfl]; exact hd
    rw [getFn_replyOk_ne _ _ _ _ hfn, hf]
    exact ⟨rfl, rfl, rfl⟩
  · obtain ⟨hw, hb⟩ := removeFn_physical (removeDist 0 (wakeLoop s 0))
    rw [hd]
    obtain ⟨l, hl⟩ := getFn_replyOk (removeFn 0 (removeDist 0 (wakeLoop s 0))) c 0x0201 [] 0
    rw [hl]
    dsimp only
    exact ⟨hw, hb⟩
  · rw [getDist_modDist_self, getDist_congr (resumeTaken_dists c s)]
    exact (wakeLoop_field (·.state) (fun _ _ => rfl) s _ _).trans hst
  · rw [getDist_modDist_self]
    rfl
  · rw [getFn_modDist]
    exact acceptedReply_mem _ c _
  · obtain ⟨hlen, hstate, hmask, hgen⟩ := distReport_fields (getDist s (cmdDist c))
    refine ⟨hlen, repliesAdd_wakeLoop.mp (replyOk_adds _ c _ _), hstate, hmask, hgen, ?_⟩
    rw [replyOk_emitted, wakeLoop_emitted]

end Sys2Proof.Machine
end

section
/-! The ends of a pause and of a resume (R377–R379, R381). -/

namespace Sys2Proof.Machine

theorem distDrainDone_drains {d : Nat} {s : State} {p : Pausing} (hst : (getDist s d).state = 4) (hp : (getDist s d).pause = some p)
    (hdr : p.drained = none) (hrest : atRest s (getDist s d) = true) : exec (.distDrainDone d) s =
      .next (modDist s d fun x => { x with pause := some { p with drained := some (time s - (p.start + 4000)) } }) := by
  show Host.Outcome.next (drainDone d s) = _
  simp [drainDone, hp, hst, hdr, hrest]

theorem distDrainDone_waits {d : Nat} {s : State} {p : Pausing} (hp : (getDist s d).pause = some p) (hbusy : atRest s (getDist s d) = false) :
    exec (.distDrainDone d) s = .next s := by
  show Host.Outcome.next (drainDone d s) = _
  simp [drainDone, hp, hbusy]

/-! ## The save (R377, R378) -/

theorem engineBytes_keeps (s : State) (x : Dist) : (engineBytes s x).2.dists = s.dists ∧ (engineBytes s x).2.fns = s.fns ∧
    (engineBytes s x).2.backs = s.backs := by
  have h {α : Type} (f : State → α) (hf : ∀ u, f (freshNat u).2 = f u) : f (engineBytes s x).2 = f s :=
    foldl_keeps (f := fun a : Nat × State => f a.2)
      (g := fun a (_ : Nat × Core) => (a.1 + (freshNat a.2).1 % 40961, (freshNat a.2).2)) (fun a _ => hf a.2) _ (0, s)
  exact ⟨h State.dists fun _ => rfl, h State.fns fun _ => rfl, h State.backs fun _ => rfl⟩

/-- A segment's dirty lines are clean (R377); flash holds none. -/
def cleanSeg (s : State) (g : Nat × Seg) : State := if g.2.tier = 3 then s else modBack s g.2.bid fun b => { b with dirty := [] }

theorem cleanSeg_keeps (s : State) (g : Nat × Seg) : (cleanSeg s g).dists = s.dists ∧ (cleanSeg s g).fns = s.fns := by
  unfold cleanSeg
  split
  · exact ⟨rfl, rfl⟩
  · exact ⟨rfl, rfl⟩

theorem cleanSeg_clean {s : State} {b : Nat} (h : (getBack s b).dirty = []) (g : Nat × Seg) : (getBack (cleanSeg s g) b).dirty = [] := by
  unfold cleanSeg
  split
  · exact h
  · by_cases hb : b = g.2.bid
    · rw [hb, getBack_modBack_self]
    · rw [getBack_modBack_ne _ _ hb, h]

theorem foldl_cleanSeg_clean {b : Nat} : ∀ (l : List (Nat × Seg)) {s : State}, (getBack s b).dirty = [] → (getBack (l.foldl cleanSeg s) b).dirty = []
  | [], _, h => h
  | g :: l, _, h => foldl_cleanSeg_clean l (cleanSeg_clean h g)

theorem foldl_cleanSeg_cleans (l : List (Nat × Seg)) (s : State) {g : Nat × Seg} (hg : g ∈ l) (h : g.2.tier ≠ 3) :
    (getBack (l.foldl cleanSeg s) g.2.bid).dirty = [] := by
  induction l generalizing s with
  | nil => cases hg
  | cons k l ih =>
    rcases List.mem_cons.mp hg with rfl | hg
    · refine foldl_cleanSeg_clean l ?_
      rw [cleanSeg, if_neg h, getBack_modBack_self]
    · exact ih (cleanSeg s k) hg

theorem foldl_cleanSeg_keeps (l : List (Nat × Seg)) (s : State) : (l.foldl cleanSeg s).dists = s.dists ∧ (l.foldl cleanSeg s).fns = s.fns :=
  ⟨foldl_keeps (f := State.dists) (fun s g => (cleanSeg_keeps s g).1) l s, foldl_keeps (f := State.fns) (fun s g => (cleanSeg_keeps s g).2) l s⟩

/-- The bytes that a save writes (R377). -/
def savedBytes (s : State) (x : Dist) : Nat := liveBytes s x + dirtyBytes s x + (engineBytes s x).1

/-- The district with its memory clean and its quarters given back, not yet PAUSED. -/
def saved (d : Nat) (s : State) : State :=
  modDist ((getDist s d).segs.foldl cleanSeg (engineBytes s (getDist s d)).2) d fun x => { x with
    pause := none, sLive := savedBytes s (getDist s d), quarters := [] }

theorem saved_dist (d : Nat) (s : State) :
    getDist (saved d s) d = { getDist s d with pause := none, sLive := savedBytes s (getDist s d), quarters := [] } := by
  rw [saved, getDist_modDist_self, getDist_congr (foldl_cleanSeg_keeps _ _).1, getDist_congr (engineBytes_keeps s _).1]

theorem saved_fns (d : Nat) (s : State) : (saved d s).fns = s.fns := by
  rw [saved, modDist_fns, (foldl_cleanSeg_keeps _ _).2, (engineBytes_keeps s _).2.1]

theorem distSaveDone_saves {d k : Nat} {s : State} {p : Pausing} (hst : (getDist s d).state = 4) (hp : (getDist s d).pause = some p)
    (hdr : p.drained = some k) : ∃ src l m, exec (.distSaveDone d) s =
      .next (finishOk (emit (setDistState (saved d s) d 5) src 0x1E2 sevInfo d l) p.pend (pack 16 m)) := by
  refine ⟨cpSource (setDistState (saved d s) d 5) d, [savedBytes s (getDist s d), k, time s - (p.start + 4000 + k)],
    [(64, savedBytes s (getDist s d)), (32, k), (32, time s - (p.start + 4000 + k))], ?_⟩
  show Host.Outcome.next (saveDone d s) = _
  simp only [saveDone, hp, hdr, hst, ne_eq, not_true_eq_false, if_false]
  rfl

/-- What a save leaves (R378). -/
theorem save_pauses {d : Nat} {s : State} {p : Pausing} (hst : (getDist s d).state = 4) (src : Nat) (l : List Nat) (m : List (Nat × Nat)) :
    let t := finishOk (emit (setDistState (saved d s) d 5) src 0x1E2 sevInfo d l) p.pend (pack 16 m)
    (getDist t d).state = 5 ∧ (getDist t d).quarters = [] ∧ (getDist t d).pause = none ∧ (getDist t d).gen = (getDist s d).gen + 1 ∧
    (getDist t d).cores = (getDist s d).cores ∧ (∀ n : Nat × Seg, n ∈ (getDist s d).segs → n.2.tier ≠ 3 → (getBack t n.2.bid).dirty = []) ∧
    ((getFn s p.pend.req.fn).epoch = p.pend.epoch → ∃ b, b.length = 16 ∧ repliesAdd s t p.pend.req.fn [doneReply p.pend 0 0 b]) := by
  have hfns : (emit (setDistState (saved d s) d 5) src 0x1E2 sevInfo d l).fns = s.fns := by
    rw [emit_plain _ _ _ _ _ _ (by decide)]
    exact (setDistState_fns _ _ _).trans (saved_fns d s)
  dsimp only
  rw [getDist_finishOk, getDist_emit, setDistState_self (by rw [saved_dist]; simp [hst]), saved_dist]
  refine ⟨rfl, rfl, rfl, rfl, rfl, fun n hn h3 => ?_, fun he => ⟨_, pack_length 16 m, ?_⟩⟩
  · have hback : (finishOk (emit (setDistState (saved d s) d 5) src 0x1E2 sevInfo d l) p.pend (pack 16 m)).backs = (saved d s).backs := by
      rw [finishOk_backs, emit_backs, setDistState_backs]
    rw [getBack, hback]
    exact foldl_cleanSeg_cleans _ _ hn h3
  · exact repliesAdd_of_fns_left (finish_adds _ p.pend 0 0 _ (by rw [getFn_congr hfns, he])) hfns

/-! ## The restore (R379) -/

theorem freeHeld_dists (g : Nat) (s : State) (p : Nat) : (freeHeld g s p).dists = s.dists := by
  rw [freeHeld, modPort_dists]
  exact foldl_keeps (f := State.dists) (g := fun s _ => freeRx s p (poolKey g false)) (fun _ _ => rfl) _ s

/-- A district's timers moved on by the length of a pause (R378). -/
def thawedDist (dt : Nat) (x : Dist) : Dist :=
  { x with
    gate := { x.gate with evalFrom := x.gate.evalFrom + dt }
    cores := tmap x.cores fun _ c => { c with issued := c.issued.map fun i => match i.work with
      | .wait (some t) => { i with work := .wait (some (t + dt)) }
      | _ => i } }

theorem thaw_dists (s : State) (d : Nat) : (thaw s d).dists = (modDist s d (thawedDist (time s - (getDist s d).pausedAt))).dists :=
  foldl_keeps (f := State.dists) (fun v (e : Nat × Group) => foldl_keeps (f := State.dists) (freeHeld_dists e.1) (List.range 24) v) _ _

/-- A thaw moves the district's timers and nothing else of it. -/
theorem thaw_dist (s : State) (d : Nat) : getDist (thaw s d) d = thawedDist (time s - (getDist s d).pausedAt) (getDist s d) := by
  rw [getDist_congr (thaw_dists s d), getDist_modDist_self]

theorem modGate_gate (s : State) (d : Nat) (g : Gate → Gate) : getDist (modGate s d g) d = { getDist s d with gate := g (getDist s d).gate } := by
  rw [modGate, getDist_modDist_self]

/-- A gate on which nothing waits and whose loop does not end thaws as it is. -/
theorem gateThaw_dist {s : State} {d : Nat} (hw : (getDist s d).gate.waiting = [])
    (hstop : ¬((getDist s d).gate.code = 4 ∧ (getDist s d).gate.stop = true)) : getDist (gateThaw d s) d = getDist s d := by
  have hsame : getDist (modGate s d fun g => { g with waiting := [] }) d = getDist s d := by
    rw [modGate_gate, ← hw]
  have heq : gateThaw d s = modGate s d fun g => { g with waiting := [] } := by
    have hc : ¬((getDist (modGate s d fun g => { g with waiting := [] }) d).gate.code = 4 ∧
        (getDist (modGate s d fun g => { g with waiting := [] }) d).gate.stop = true) := by rw [hsame]; exact hstop
    rw [gateThaw, hw]
    exact if_neg hc
  rw [heq, hsame]

theorem restored_dist {d : Nat} {s : State} {r : Resuming} (hst : (getDist s d).state = 5) (hr : (getDist s d).resume = some r)
    (hprior : (getDist s d).prior ∉ [1, 2, 5]) (hw : (getDist s d).gate.waiting = [])
    (hstop : ¬((getDist s d).gate.code = 4 ∧ (getDist s d).gate.stop = true)) :
    (getDist (restored d s) d).state = (getDist s d).prior ∧ (getDist (restored d s) d).quarters = r.quarters ∧
    (getDist (restored d s) d).resume = none := by
  simp only [List.mem_cons, List.not_mem_nil, or_false, not_or] at hprior
  obtain ⟨h1, h2, h5⟩ := hprior
  have hthaw := thaw_dist s d
  have hset : getDist (setDistState (modDist (thaw s d) d fun x => { x with resume := none, quarters := r.quarters }) d (getDist s d).prior) d =
      { thawedDist (time s - (getDist s d).pausedAt) (getDist s d) with
        resume := none, quarters := r.quarters, state := (getDist s d).prior, gen := (getDist s d).gen + 1 } := by
    rw [setDistState_self (by rw [getDist_modDist_self, hthaw]; exact fun h => h5 (h.symm.trans hst)), getDist_modDist_self, hthaw]
    rfl
  have hgate := gateThaw_dist (s := setDistState (modDist (thaw s d) d fun x => { x with resume := none, quarters := r.quarters }) d (getDist s d).prior)
    (d := d) (by rw [hset]; exact hw) (by rw [hset]; exact hstop)
  simp only [restored, hr, hst, h1, h2, ne_eq, not_true_eq_false, or_self, if_false, getDist_finishOk, getDist_emit, hgate, hset, and_self]

/-- Settles O16: each end by its own rule. -/
theorem pauseAndResumeComplete : Obligations.PauseAndResumeComplete := by
  unfold Obligations.PauseAndResumeComplete
  intro d s
  refine ⟨fun p hst hp hdr => ⟨fun hrest => ⟨_, distDrainDone_drains hst hp hdr hrest, rfl⟩, distDrainDone_waits hp⟩,
    fun p k hst hp hdr => ?_, fun r hst hr hprior hw hstop => ⟨_, rfl, restored d s, rfl, restored_dist hst hr hprior hw hstop⟩,
    fun p hst hrec hidle => ⟨_, distRecoverDone_recovers hst hrec hidle, ?_⟩, fun p hrec hbusy => distRecoverDone_waits hrec hbusy⟩
  · obtain ⟨src, l, m, hsave⟩ := distSaveDone_saves hst hp hdr
    exact ⟨_, hsave, save_pauses hst src l m⟩
  · obtain ⟨c, g, hg⟩ := recovered_dist (s := modDist s d fun x => { x with recover := none }) (d := d) (by rw [getDist_modDist_self]; exact hst)
    rw [getDist_finishOk, hg, getDist_modDist_self]
    exact ⟨rfl, rfl⟩

end Sys2Proof.Machine
end

section
/-! The health monitor's second (R403, R404). -/

namespace Sys2Proof.Machine

/-- A level that rises to the threshold while armed. -/
def riskRises (n : Nat) (s : State) : Bool :=
  let lvl := min 7 (riskPoints (pruneHealth (time s) s.health) n).sum
  armedNow (pruneHealth (time s) s.health) lvl s.pwr.riskThreshold (time s) && decide (s.health.level < s.pwr.riskThreshold) &&
    decide (s.pwr.riskThreshold ≤ lvl)

/-- The monitor's record with its new level. -/
def riskNoted (n : Nat) (s : State) : State :=
  let h := pruneHealth (time s) s.health
  let lvl := min 7 (riskPoints h n).sum
  let thr := s.pwr.riskThreshold
  { s with health := { h with
      level := lvl, armed := armedNow h lvl thr (time s) && !riskRises n s, belowSince := belowFrom h lvl thr (time s), lastAt := some (time s) } }

/-- A change of level posted and logged. -/
def riskPosted (n : Nat) (s : State) : State :=
  let pts := riskPoints (pruneHealth (time s) s.health) n
  if min 7 pts.sum = s.health.level then riskNoted n s
  else emit (postAdvisory (riskNoted n s) 1 (min 7 pts.sum)) 0x8A1 0x240 sevInfo 0xFF ([s.health.level, min 7 pts.sum] ++ pts)

theorem recompute_eq (n : Nat) (s : State) : recompute n s =
    if riskRises n s then
      emit (postAdvisory (riskPosted n s) 4 (min 7 (riskPoints (pruneHealth (time s) s.health) n).sum)) 0x8A1 0x241 sevNotice 0xFF
        [min 7 (riskPoints (pruneHealth (time s) s.health) n).sum, s.pwr.riskThreshold]
    else riskPosted n s := by
  have hlevel : (pruneHealth (time s) s.health).level = s.health.level := rfl
  simp only [recompute, riskRises, riskPosted, riskNoted, healthSource, hlevel]
  rfl

theorem healthRecompute_due {n : Nat} {s : State} (haon : s.pins.aonRst = false) (hdue : ∀ u, s.health.lastAt = some u → u + 1000000000 ≤ time s) :
    exec (.healthRecompute n) s = .next (recompute n s) := by
  show execHealthRecompute n s = _
  unfold execHealthRecompute
  rw [when_due]
  rw [haon]
  split
  · next u hu =>
    rw [second, Bool.not_false, Bool.true_and]
    exact decide_eq_true (hdue u hu)
  · rfl

theorem healthRecompute_early {n u : Nat} {s : State} (hlast : s.health.lastAt = some u) (h : time s < u + 1000000000) :
    exec (.healthRecompute n) s = .next s := by
  show execHealthRecompute n s = _
  unfold execHealthRecompute
  rw [when_not_due]
  rw [hlast]
  have hlate : decide (u + second ≤ time s) = false := by
    rw [second]
    exact decide_eq_false (Nat.not_le.mpr h)
  dsimp only
  rw [hlate, Bool.and_false]

theorem riskPoints_bounded (h : Health) (n : Nat) : ∃ a b c e, riskPoints h n = [a, b, c, e] ∧ a ≤ 3 ∧ b ≤ 3 ∧ c ≤ 3 ∧ e ≤ 3 := by
  refine ⟨_, _, _, _, rfl, Nat.min_le_left _ _, Nat.min_le_left _ _, ?_, Nat.min_le_left _ _⟩
  unfold hotPoints
  split
  · exact Nat.le_refl 3
  split
  · exact Nat.le_succ 2
  split
  · exact Nat.le_of_ble_eq_true rfl
  · exact Nat.zero_le 3

/-! ## What posting an advisory leaves -/

theorem postAdvisory_emitted (s : State) (k v : Nat) : (postAdvisory s k v).emitted = s.emitted := by
  unfold postAdvisory
  dsimp only
  split <;> rfl

theorem postAdvisory_dists_fns (s : State) (k v : Nat) : (postAdvisory s k v).dists = s.dists ∧ (postAdvisory s k v).fns = s.fns ∧
    (postAdvisory s k v).now = s.now := by
  unfold postAdvisory
  dsimp only
  split <;> exact ⟨rfl, rfl, rfl⟩

theorem postAdvisory_adv_ne (s : State) {k j : Nat} (v : Nat) (h : j ≠ k) : tget {} (postAdvisory s k v).adv j = tget {} s.adv j := by
  unfold postAdvisory
  dsimp only
  split
  · rfl
  · exact tget_tset_ne _ _ _ h

theorem postAdvisory_unread (s : State) (k v : Nat) : (tget {} (postAdvisory s k v).adv k).unread = true := by
  unfold postAdvisory
  dsimp only
  split
  · next h => exact h.1
  · rw [tget_tset_self]

/-- A latched advisory stays until it is read (R19). -/
theorem postAdvisory_latched {s : State} (v : Nat) (h : (tget {} s.adv 4).unread = true) : postAdvisory s 4 v = s := by
  rw [postAdvisory]
  exact if_pos ⟨h, .inl rfl⟩

/-! ## What a second's recomputation leaves -/

theorem riskPosted_health (n : Nat) (s : State) : (riskPosted n s).health = (riskNoted n s).health := by
  unfold riskPosted
  dsimp only
  split
  · rfl
  · rw [emit_health, (postAdvisory_keeps _ _ _).2]

theorem recompute_health (n : Nat) (s : State) : (recompute n s).health = (riskNoted n s).health := by
  rw [recompute_eq]
  split
  · rw [emit_health, (postAdvisory_keeps _ _ _).2, riskPosted_health]
  · exact riskPosted_health n s

theorem riskPosted_keeps (n : Nat) (s : State) : (riskPosted n s).dists = s.dists ∧ (riskPosted n s).fns = s.fns ∧ (riskPosted n s).now = s.now := by
  unfold riskPosted
  dsimp only
  split
  · exact ⟨rfl, rfl, rfl⟩
  · rw [emit_plain _ _ _ _ _ _ (by decide)]
    exact postAdvisory_dists_fns _ _ _

theorem recompute_keeps (n : Nat) (s : State) : (recompute n s).dists = s.dists ∧ (recompute n s).fns = s.fns := by
  obtain ⟨hd, hf, -⟩ := riskPosted_keeps n s
  rw [recompute_eq]
  split
  · rw [emit_plain _ _ _ _ _ _ (by decide)]
    obtain ⟨hd', hf', -⟩ := postAdvisory_dists_fns (riskPosted n s) 4 (min 7 (riskPoints (pruneHealth (time s) s.health) n).sum)
    exact ⟨hd'.trans hd, hf'.trans hf⟩
  · exact ⟨hd, hf⟩

theorem riskPosted_adv_four (n : Nat) (s : State) : tget {} (riskPosted n s).adv 4 = tget {} s.adv 4 := by
  unfold riskPosted
  dsimp only
  split
  · rfl
  · rw [emit_adv, postAdvisory_adv_ne _ _ (by decide)]
    rfl

theorem recompute_still {n : Nat} {s : State} (h : riskRises n s = false) : recompute n s = riskPosted n s := by
  rw [recompute_eq, if_neg (by simp [h])]

/-- With no rise the advisory is as before. -/
theorem recompute_adv_four_still {n : Nat} {s : State} (h : riskRises n s = false) : tget {} (recompute n s).adv 4 = tget {} s.adv 4 := by
  rw [recompute_still h, riskPosted_adv_four]

theorem recompute_rise {n : Nat} {s : State} (h : riskRises n s = true) : (tget {} (recompute n s).adv 4).unread = true ∧
    (⟨s.now, 0x8A1, 0x241, 1, 0xFF, [min 7 (riskPoints (pruneHealth (time s) s.health) n).sum, s.pwr.riskThreshold]⟩ : EventRec) ∈
      (recompute n s).emitted := by
  rw [recompute_eq, if_pos h, emit_adv, emit_emitted, (postAdvisory_dists_fns _ _ _).2.2, (riskPosted_keeps n s).2.2]
  exact ⟨postAdvisory_unread _ _ _, List.mem_append_right _ (List.mem_singleton_self _)⟩

theorem recompute_latched {n : Nat} {s : State} (h : (tget {} s.adv 4).unread = true) : tget {} (recompute n s).adv 4 = tget {} s.adv 4 := by
  rw [recompute_eq]
  split
  · rw [emit_adv, postAdvisory_latched _ (by rw [riskPosted_adv_four]; exact h), riskPosted_adv_four]
  · exact riskPosted_adv_four n s

/-- A change of level is posted in slot 1 and logged with the points. -/
theorem recompute_change {n : Nat} {s : State} (h : min 7 (riskPoints (pruneHealth (time s) s.health) n).sum ≠ s.health.level) :
    let pts := riskPoints (pruneHealth (time s) s.health) n
    (tget {} (recompute n s).adv 1).value = min 7 pts.sum ∧ (tget {} (recompute n s).adv 1).unread = true ∧
    (⟨s.now, 0x8A1, 0x240, 0, 0xFF, [s.health.level, min 7 pts.sum] ++ pts⟩ : EventRec) ∈ (recompute n s).emitted := by
  dsimp only
  have hposted : riskPosted n s = emit (postAdvisory (riskNoted n s) 1 (min 7 (riskPoints (pruneHealth (time s) s.health) n).sum)) 0x8A1 0x240 sevInfo
      0xFF ([s.health.level, min 7 (riskPoints (pruneHealth (time s) s.health) n).sum] ++ riskPoints (pruneHealth (time s) s.health) n) := if_neg h
  have hadv : tget {} (riskPosted n s).adv 1 =
      { value := min 7 (riskPoints (pruneHealth (time s) s.health) n).sum, unread := true } := by
    rw [hposted, emit_adv, postAdvisory_replaces _ _ (by decide) (by decide)]
    exact tget_tset_self _ _ _ _
  have hlogged : (⟨s.now, 0x8A1, 0x240, 0, 0xFF, [s.health.level, min 7 (riskPoints (pruneHealth (time s) s.health) n).sum] ++
      riskPoints (pruneHealth (time s) s.health) n⟩ : EventRec) ∈ (riskPosted n s).emitted := by
    rw [hposted, emit_emitted, (postAdvisory_dists_fns _ _ _).2.2]
    exact List.mem_append_right _ (List.mem_singleton_self _)
  rw [recompute_eq]
  split
  · rw [emit_adv, emit_emitted, postAdvisory_adv_ne _ _ (by decide), postAdvisory_emitted, hadv]
    exact ⟨rfl, rfl, List.mem_append_left _ hlogged⟩
  · rw [hadv]
    exact ⟨rfl, rfl, hlogged⟩

/-! ## When the advisory is armed (R404) -/

theorem riskRises_iff (n : Nat) (s : State) : riskRises n s = true ↔
    armedNow (pruneHealth (time s) s.health) (min 7 (riskPoints (pruneHealth (time s) s.health) n).sum) s.pwr.riskThreshold (time s) = true ∧
    s.health.level < s.pwr.riskThreshold ∧ s.pwr.riskThreshold ≤ min 7 (riskPoints (pruneHealth (time s) s.health) n).sum := by
  simp only [riskRises, Bool.and_eq_true, decide_eq_true_eq, and_assoc]

theorem riskRises_false {n : Nat} {s : State}
    (h : ¬(s.health.level < s.pwr.riskThreshold ∧ s.pwr.riskThreshold ≤ min 7 (riskPoints (pruneHealth (time s) s.health) n).sum)) :
    riskRises n s = false := Bool.eq_false_iff.mpr fun hr => h ((riskRises_iff n s).mp hr).2

theorem armedNow_armed {h : Health} (ha : h.armed = true) (lvl thr now : Nat) : armedNow h lvl thr now = true := by
  rw [armedNow, ha, Bool.true_or]

/-- A level that has not been below the threshold for 60 s leaves the advisory disarmed. -/
theorem armedNow_disarmed {h : Health} {now : Nat} (ha : h.armed = false) (hb : ∀ u, h.belowSince = some u → now < u + 60000000000) (lvl thr : Nat) :
    armedNow h lvl thr now = false := by
  unfold armedNow belowFrom
  rw [ha, Bool.false_or]
  by_cases hl : lvl < thr
  · rw [if_pos hl]
    cases hs : h.belowSince with
    | none => exact decide_eq_false (by have : second = 1000000000 := rfl; omega)
    | some u => exact decide_eq_false (Nat.not_le.mpr (hb u hs))
  · rw [if_neg hl]

theorem armedNow_below {h : Health} {now u lvl thr : Nat} (hs : h.belowSince = some u) (hu : u + 60000000000 ≤ now) (hl : lvl < thr) :
    armedNow h lvl thr now = true := by
  unfold armedNow belowFrom
  rw [if_pos hl, hs]
  have hlong : decide (u + 60 * second ≤ now) = true := decide_eq_true hu
  dsimp only
  rw [hlong, Bool.or_true]

/-- Settles O43: the record by `riskNoted`, the advisories and the log by what was posted. -/
theorem riskLevelIsRecomputed : Obligations.RiskLevelIsRecomputed := by
  unfold Obligations.RiskLevelIsRecomputed
  intro n s h pts lvl old thr haon
  refine ⟨fun hdue => ⟨_, healthRecompute_due haon hdue, ?_⟩, fun u => healthRecompute_early⟩
  obtain ⟨hdists, hfns⟩ := recompute_keeps n s
  rw [recompute_health]
  refine ⟨rfl, rfl, hdists, hfns, riskPoints_bounded h n, fun he => ?_, recompute_change, fun ha hold hthr => ?_, fun hno ha => ?_, fun ha hb => ?_,
    fun u hs hu hl => ?_, fun hl hs => ?_, fun hl => ?_, recompute_latched⟩
  · have hstill : riskRises n s = false := riskRises_false (by change ¬(old < thr ∧ thr ≤ lvl); omega)
    have hposted : riskPosted n s = riskNoted n s := if_pos he
    rw [recompute_still hstill, hposted]
    exact ⟨rfl, rfl⟩
  · have hrise : riskRises n s = true := (riskRises_iff n s).mpr ⟨armedNow_armed ha _ _ _, hold, hthr⟩
    obtain ⟨hunread, hlogged⟩ := recompute_rise hrise
    refine ⟨?_, hunread, hlogged⟩
    show (armedNow _ _ _ _ && !riskRises n s) = false
    rw [hrise, Bool.not_true, Bool.and_false]
  · have hstill : riskRises n s = false := riskRises_false (by change ¬(old < thr ∧ thr ≤ lvl); omega)
    refine ⟨?_, recompute_adv_four_still hstill⟩
    show (armedNow _ _ _ _ && !riskRises n s) = true
    rw [hstill, armedNow_armed (h := pruneHealth (time s) s.health) ha]
    rfl
  · have hdis := armedNow_disarmed (h := h) (now := time s) ha hb lvl thr
    have hstill : riskRises n s = false := Bool.eq_false_iff.mpr fun hr => by
      have harmed := ((riskRises_iff n s).mp hr).1
      exact Bool.false_ne_true (hdis.symm.trans harmed)
    refine ⟨?_, recompute_adv_four_still hstill⟩
    show (armedNow h lvl thr (time s) && !riskRises n s) = false
    rw [hdis, Bool.false_and]
  · have hstill : riskRises n s = false := riskRises_false (by change ¬(old < thr ∧ thr ≤ lvl); omega)
    show (armedNow h lvl thr (time s) && !riskRises n s) = true
    rw [hstill, armedNow_below (h := h) hs hu hl]
    rfl
  · show belowFrom h lvl thr (time s) = some (time s)
    have hb : h.belowSince = none := hs
    rw [belowFrom, if_pos hl, hb]
  · exact if_neg (Nat.not_lt.mpr hl)

end Sys2Proof.Machine
end

section
/-! What the operations of a fault, an abort, a removal and a port's loss leave of the rest of the package: the security state and the
advisories, the log so far, EMPTY and FAULTED districts, DISABLED ports, and the replies so far. -/

namespace Sys2Proof.Machine

/-! ## The relation -/

/-- How a district's state code may move under these operations: EMPTY and FAULTED hold, and no other becomes EMPTY. -/
def StateGoes (o n : Nat) : Prop := n = o ∨ (1 ≤ o ∧ o ≤ 5 ∧ 1 ≤ n ∧ n ≤ 6)

theorem StateGoes.step {o m n : Nat} (h : StateGoes o m) (hm : 1 ≤ m ∧ m ≤ 5) (hn : 1 ≤ n ∧ n ≤ 6) : StateGoes o n := by
  unfold StateGoes at *
  omega

theorem StateGoes.empty {n : Nat} (h : StateGoes 0 n) : n = 0 := by
  unfold StateGoes at h
  omega

theorem StateGoes.faulted {n : Nat} (h : StateGoes 6 n) : n = 6 := by
  unfold StateGoes at h
  omega

/-- A district that exists stays one. -/
theorem StateGoes.alive {o n : Nat} (h : StateGoes o n) (ho : 1 ≤ o ∧ o ≤ 6) : 1 ≤ n ∧ n ≤ 6 := by
  unfold StateGoes at h
  omega

/-- What holds of a state `t` that such operations reach from a state `b`. -/
structure Calm (b t : State) : Prop where
  sec : t.sec = b.sec
  pwr : t.pwr = b.pwr
  adv : t.adv = b.adv
  emitted : b.emitted <+: t.emitted
  states : ∀ d, StateGoes (getDist b d).state (getDist t d).state
  ports : ∀ p, (getPort b p).state = 0 → (getPort t p).state = 0
  answers : ∀ f, (getFn t f).epoch = (getFn b f).epoch ∧ (getFn b f).replies <+: (getFn t f).replies

theorem Calm.refl (s : State) : Calm s s :=
  ⟨rfl, rfl, rfl, List.prefix_rfl, fun _ => .inl rfl, fun _ => id, fun _ => ⟨rfl, List.prefix_rfl⟩⟩

section
variable {b s : State}

/-- What touches none of these fields is calm. -/
theorem Calm.congr {t : State} (h : Calm b s) (hsec : t.sec = s.sec) (hpwr : t.pwr = s.pwr) (hadv : t.adv = s.adv) (hlog : t.emitted = s.emitted)
    (hdists : t.dists = s.dists) (hports : t.links.ports = s.links.ports) (hfns : t.fns = s.fns) : Calm b t where
  sec := hsec.trans h.sec
  pwr := hpwr.trans h.pwr
  adv := hadv.trans h.adv
  emitted := hlog ▸ h.emitted
  states d := getDist_congr hdists d ▸ h.states d
  ports p := getPort_congr hports p ▸ h.ports p
  answers f := getFn_congr hfns f ▸ h.answers f

theorem Calm.ite {c : Prop} [Decidable c] {t u : State} (ht : Calm b t) (hu : Calm b u) : Calm b (if c then t else u) := by
  split
  · exact ht
  · exact hu

theorem Calm.foldl {α : Type} {g : State → α → State} (hg : ∀ s a, Calm b s → Calm b (g s a)) : ∀ (l : List α) {s : State}, Calm b s → Calm b (l.foldl g s)
  | [], _, h => h
  | a :: l, _, h => Calm.foldl hg l (hg _ a h)

theorem modDist_calm {d : Nat} {g : Dist → Dist} (hg : ∀ x, (g x).state = x.state) (h : Calm b s) : Calm b (modDist s d g) where
  sec := h.sec
  pwr := h.pwr
  adv := h.adv
  emitted := h.emitted
  states i := by
    by_cases hi : i = d
    · rw [hi, getDist_modDist_self, hg]
      exact h.states d
    · rw [getDist_modDist_ne _ _ hi]
      exact h.states i
  ports := h.ports
  answers := h.answers

theorem modCore_calm (d core : Nat) (g : Core → Core) (h : Calm b s) : Calm b (modCore s d core g) := modDist_calm (fun _ => rfl) h

theorem modPort_calm {p : Nat} {g : Port → Port} (hg : ∀ x, (g x).state = x.state) (h : Calm b s) : Calm b (modPort s p g) where
  sec := h.sec
  pwr := h.pwr
  adv := h.adv
  emitted := h.emitted
  states := h.states
  ports q hq := by
    by_cases hp : q = p
    · subst hp
      rw [getPort_modPort_self, hg]
      exact h.ports q hq
    · rw [getPort_modPort_ne _ _ hp]
      exact h.ports q hq
  answers := h.answers

/-- A function changed: its epoch stays, and it loses no reply. -/
theorem modFn_calm {f : Nat} {g : Fn → Fn} (hg : ∀ x, (g x).epoch = x.epoch ∧ x.replies <+: (g x).replies) (h : Calm b s) : Calm b (modFn s f g) where
  sec := h.sec
  pwr := h.pwr
  adv := h.adv
  emitted := h.emitted
  states := h.states
  ports := h.ports
  answers i := by
    by_cases hi : i = f
    · rw [hi, getFn_modFn_self]
      exact ⟨(hg _).1.trans (h.answers f).1, (h.answers f).2.trans (hg _).2⟩
    · rw [getFn_modFn_ne _ _ hi]
      exact h.answers i

theorem modFn_mute_calm {f : Nat} {g : Fn → Fn} (he : ∀ x, (g x).epoch = x.epoch) (hr : ∀ x, (g x).replies = x.replies) (h : Calm b s) :
    Calm b (modFn s f g) := modFn_calm (fun x => ⟨he x, hr x ▸ List.prefix_rfl⟩) h

/-! ## Vectors, events and replies -/

theorem setFlag_calm (f i : Nat) (h : Calm b s) : Calm b (setFlag s f i) := .ite h (modFn_mute_calm (fun _ => rfl) (fun _ => rfl) h)

theorem msix_calm (f vec : Nat) (h : Calm b s) : Calm b (msix s f vec) :=
  .ite h (.ite (modFn_mute_calm (fun _ => rfl) (fun _ => rfl) h) (h.congr rfl rfl rfl rfl rfl rfl rfl))

theorem raiseVec_calm (f vec : Nat) (h : Calm b s) : Calm b (raiseVec s f vec) :=
  .ite (.ite (modFn_mute_calm (fun _ => rfl) (fun _ => rfl) h) (modFn_mute_calm (fun _ => rfl) (fun _ => rfl) (msix_calm f vec h))) (msix_calm f vec h)

theorem raiseBound_calm (d purpose : Nat) (h : Calm b s) : Calm b (raiseBound s d purpose) := by
  unfold raiseBound
  split
  · exact raiseVec_calm d _ h
  · exact h

theorem emit_calm (source kind sev district : Nat) (l : List Nat) (h : Calm b s) : Calm b (emit s source kind sev district l) := by
  have hlogged : Calm b { s with emitted := s.emitted ++ [⟨s.now, source, kind, sev, district, l⟩] } :=
    { h with emitted := h.emitted.trans (List.prefix_append _ _) }
  exact .ite (raiseVec_calm _ 2 (setFlag_calm _ 2 hlogged)) hlogged

theorem queueReply_calm (epoch : Nat) (r : Reply) (h : Calm b s) : Calm b (queueReply s epoch r) :=
  .ite (modFn_calm (fun _ => ⟨rfl, List.prefix_append _ _⟩) h) h

theorem finish_calm (p : Pend) (st x : Nat) (l : Bytes) (h : Calm b s) : Calm b (finish s p st x l) := queueReply_calm _ _ h

theorem unbind_calm (d purpose : Nat) (h : Calm b s) : Calm b (unbind s d purpose) := modFn_mute_calm (fun _ => rfl) (fun _ => rfl) h

theorem setDistState_calm {d st : Nat} (ho : 1 ≤ (getDist s d).state ∧ (getDist s d).state ≤ 5) (hn : 1 ≤ st ∧ st ≤ 6) (h : Calm b s) :
    Calm b (setDistState s d st) := by
  have hmoved : Calm b (modDist s d fun x => { x with state := st, gen := (getDist s d).gen + 1 }) :=
    { h with
      states := fun i => by
        by_cases hi : i = d
        · rw [hi, getDist_modDist_self]
          exact (h.states d).step ho hn
        · rw [getDist_modDist_ne _ _ hi]
          exact h.states i }
  exact .ite h (emit_calm _ _ _ _ _ hmoved)

/-! ## Ports and messages -/

theorem freeRx_calm (p k : Nat) (h : Calm b s) : Calm b (freeRx s p k) := modPort_calm (fun _ => rfl) h

theorem freeHeld_calm (g p : Nat) (h : Calm b s) : Calm b (freeHeld g s p) :=
  modPort_calm (fun _ => rfl) (.foldl (fun _ _ h => freeRx_calm _ _ h) _ h)

theorem sendMsg_calm (p chan dest src : Nat) (poison : Bool) (l : Bytes) (h : Calm b s) : Calm b (sendMsg s p chan dest src poison l) := by
  have hkey : Calm b { s with links := { s.links with nextKey := s.links.nextKey + 1 } } := h.congr rfl rfl rfl rfl rfl rfl rfl
  exact modPort_calm (fun _ => rfl) hkey

theorem sysSend_calm (chan mask dest kind : Nat) (args : List Nat) (l : Bytes) (h : Calm b s) : Calm b (sysSend s chan mask dest kind args l) := by
  unfold sysSend
  split
  · exact sendMsg_calm _ _ _ _ _ _ h
  · exact h

theorem settleGrow_state (x : Port) : (settleGrow x).state = x.state := by
  unfold settleGrow
  split
  · rfl
  · rfl

theorem announce_calm (p : Nat) (l : List PoolSize) (h : Calm b s) : Calm b (announce s p l) := by
  refine modPort_calm (fun x => ?_) h
  dsimp only
  split
  · rfl
  · exact settleGrow_state _

theorem losePort_calm (p : Nat) (h : Calm b s) : Calm b (losePort s p 0) where
  sec := h.sec
  pwr := h.pwr
  adv := h.adv
  emitted := h.emitted
  states := h.states
  ports q hq := by
    by_cases hp : q = p
    · rw [hp, getPort_losePort_self]
      rfl
    · rw [getPort_losePort_ne s 0 hp]
      exact h.ports q hq
  answers := h.answers

theorem linkEvent_calm (p kind sev : Nat) (l : List Nat) (h : Calm b s) : Calm b (linkEvent s p kind sev l) := emit_calm _ _ _ _ _ h

theorem follow_calm (r seq at_ : Nat) (h : Calm b s) : Calm b (follow s r seq at_) := by
  unfold follow
  dsimp only
  split
  · exact .ite (h.congr rfl rfl rfl rfl rfl rfl rfl) (linkEvent_calm _ _ _ _ (h.congr rfl rfl rfl rfl rfl rfl rfl))
  · exact h.congr rfl rfl rfl rfl rfl rfl rfl

theorem newRoot_calm (r : Nat) (h : Calm b s) : Calm b (newRoot s r) := by
  unfold newRoot
  split
  · exact follow_calm _ _ _ h
  · exact h

theorem becomeRoot_calm (h : Calm b s) : Calm b (becomeRoot s) := .ite h (linkEvent_calm _ _ _ _ (h.congr rfl rfl rfl rfl rfl rfl rfl))

theorem adopt_calm (h : Calm b s) : Calm b (adopt s) := by
  unfold adopt
  split
  · split
    · split
      · exact newRoot_calm _ h
      · exact becomeRoot_calm h
    · split
      · exact .ite (newRoot_calm _ h) (follow_calm _ _ _ h)
      · exact follow_calm _ _ _ h
  · split
    · exact newRoot_calm _ h
    · exact h

theorem finishEnables_calm (h : Calm b s) : Calm b (finishEnables s) :=
  .foldl (fun _ _ h => finish_calm _ _ _ _ h) _ (h.congr rfl rfl rfl rfl rfl rfl rfl)

theorem disablePort_calm (p : Nat) (h : Calm b s) : Calm b (disablePort s p) := .ite h (losePort_calm p h)

theorem disablePorts_calm (h : Calm b s) : Calm b (disablePorts s) :=
  adopt_calm (finishEnables_calm (.foldl (fun _ p h => disablePort_calm p h) _ h))

/-! ## Groups -/

theorem modGate_calm (d : Nat) (g : Gate → Gate) (h : Calm b s) : Calm b (modGate s d g) := modDist_calm (fun _ => rfl) h

theorem modProg_calm (d : Nat) (g : Prog → Prog) (h : Calm b s) : Calm b (modProg s d g) := by
  refine modDist_calm (fun x => ?_) h
  split
  · split
    · rfl
    · rfl
  · rfl

theorem hardFault_calm (d core idx code : Nat) (h : Calm b s) : Calm b (hardFault s d core idx code) := by
  unfold hardFault
  split
  · exact h
  · exact modGate_calm _ _ (modDist_calm (fun _ => rfl) (modProg_calm _ _ (modDist_calm (fun _ => rfl) (emit_calm _ _ _ _ _ h))))

theorem errorMsg_calm (x : Group) (pos kind : Nat) (args : List Nat) (h : Calm b s) : Calm b (errorMsg s x pos kind args) := by
  unfold errorMsg
  dsimp only
  split
  · exact sysSend_calm _ _ _ _ _ _ h
  · exact h

theorem abortGroup_calm (g cause detector : Nat) (h : Calm b s) : Calm b (abortGroup g cause detector s) := by
  unfold abortGroup
  split
  · exact h
  · refine .ite h (modGate_calm _ _ (.foldl (fun _ _ h => hardFault_calm _ _ _ _ h) _ ?_))
    exact .ite (emit_calm _ _ _ _ _ (h.congr rfl rfl rfl rfl rfl rfl rfl))
      (.foldl (fun _ _ h => errorMsg_calm _ _ _ _ h) _ (emit_calm _ _ _ _ _ (h.congr rfl rfl rfl rfl rfl rfl rfl)))

theorem abortGroups_calm (d : Nat) (h : Calm b s) : Calm b (abortGroups s d) := .foldl (fun _ _ h => abortGroup_calm _ _ _ h) _ h

theorem closePools_calm (g d p : Nat) (h : Calm b s) : Calm b (closePools g d s p) :=
  announce_calm _ _ (modPort_calm (fun _ => rfl) (freeHeld_calm g p h))

theorem removeGroup_calm (g : Nat) (h : Calm b s) : Calm b (removeGroup s g) := by
  unfold removeGroup
  split
  · exact h
  · exact .foldl (fun _ p h => closePools_calm _ _ p h) _ (h.congr rfl rfl rfl rfl rfl rfl rfl)

/-! ## Snapshots -/

theorem modSnap_calm (d : Nat) (f : Snap → Snap) (h : Calm b s) : Calm b (modSnap s d f) := modDist_calm (fun _ => rfl) h

theorem modVol_calm (v : Nat) (g : Vol → Vol) (h : Calm b s) : Calm b (modVol s v g) := .ite (h.congr rfl rfl rfl rfl rfl rfl rfl) h

theorem writeRegion_calm (p : Policy) (r i : Nat) (l : Bytes) (h : Calm b s) : Calm b (writeRegion s p r i l) := by
  have hwritten : ∀ {t : State} (k v e : Nat), Calm b t → Calm b (holdIn t k v e) := fun _ _ _ h => h.congr rfl rfl rfl rfl rfl rfl rfl
  exact .ite (hwritten _ _ _ (modVol_calm _ _ h)) h

theorem rewriteChecks_calm (d own mir kind loss : Nat) (h : Calm b s) : Calm b (rewriteChecks s d own mir kind loss) := by
  unfold rewriteChecks
  dsimp only
  split
  · next p c _ _ =>
    have hown : Calm b (if c.ownDone = true then writeRegion s p own 0 (withCheck c.head kind loss false) else s) := .ite (writeRegion_calm _ _ _ _ h) h
    exact .ite (writeRegion_calm _ _ _ _ hown) hown
  · exact h

theorem closeSnap_calm (d : Nat) (h : Calm b s) : Calm b (closeSnap s d) := by
  unfold closeSnap
  dsimp only
  split
  · exact h
  · refine .ite h ?_
    split
    · exact modSnap_calm _ _ h
    · exact emit_calm _ _ _ _ _ (modSnap_calm _ _ (rewriteChecks_calm _ _ _ _ _ h))

theorem snapCheck_calm (d step kind loss : Nat) (h : Calm b s) : Calm b (snapCheck s d step kind loss) := by
  unfold snapCheck
  split
  · exact .ite (closeSnap_calm _ (modSnap_calm _ _ h)) h
  · exact h

theorem snapRunEnds_calm (d : Nat) (h : Calm b s) : Calm b (snapRunEnds s d) := by
  unfold snapRunEnds
  split
  · exact snapCheck_calm _ _ _ _ h
  · exact h

theorem snapStart_calm (d cause : Nat) (h : Calm b s) : Calm b (snapStart s d cause) := .ite h (emit_calm _ _ _ _ _ (modSnap_calm _ _ h))

theorem snapFail_calm (d seq cause : Nat) (h : Calm b s) : Calm b (snapFail s d seq cause) := by
  unfold snapFail
  exact emit_calm _ _ _ _ _ (modSnap_calm _ _ h)

theorem internalFault_calm (d : Nat) (p : Pend) (why : Nat) (h : Calm b s) : Calm b (internalFault s d p why) :=
  finish_calm _ _ _ _ (emit_calm _ _ _ _ _ h)

theorem fillFail_calm (d cause : Nat) (h : Calm b s) : Calm b (fillFail s d cause) := by
  unfold fillFail
  split
  · exact h
  · exact .foldl (fun _ _ h => internalFault_calm _ _ _ h) _ (emit_calm _ _ _ _ _ (modSnap_calm _ _ h))

/-! ## Runs and loops -/

theorem loadedState_range (x : Dist) : 1 ≤ loadedState x ∧ loadedState x ≤ 2 := by
  unfold loadedState
  split <;> omega

/-- A pause begins in a district that is CONFIGURED, LOADED or RUNNING. -/
theorem beginPause_calm {d : Nat} (drained : Option Nat) (ho : 1 ≤ (getDist s d).state ∧ (getDist s d).state ≤ 5) (h : Calm b s) :
    Calm b (beginPause s d drained) := by
  refine setDistState_calm ?_ ⟨by decide, by decide⟩ (modDist_calm (fun _ => rfl) h)
  rw [getDist_modDist_self]
  exact ho

theorem leaveRunning_calm (d : Nat) (h : Calm b s) : Calm b (leaveRunning s d) := by
  unfold leaveRunning
  dsimp only
  obtain ⟨hlow, hhigh⟩ := loadedState_range (getDist s d)
  split
  · next hrun =>
    have hleft : Calm b (setDistState s d (loadedState (getDist s d))) := setDistState_calm (by omega) (by omega) h
    refine .ite (beginPause_calm _ ?_ hleft) hleft
    rw [setDistState_self (by omega)]
    exact ⟨hlow, Nat.le_trans hhigh (by decide)⟩
  · exact .ite (modDist_calm (fun _ => rfl) h) h

theorem startRun_calm (d handle : Nat) (by_ : RunBy) (tStart : Nat) (h : Calm b s) : Calm b (startRun s d handle by_ tStart) := by
  refine modDist_calm (fun x => ?_) h
  split
  · rfl
  · rfl

theorem abortRun_calm (d : Nat) (p : Option Pend) (h : Calm b s) : Calm b (abortRun s d p) := modDist_calm (fun _ => rfl) h

theorem clearRun_calm (d : Nat) (h : Calm b s) : Calm b (clearRun s d) := modDist_calm (fun _ => rfl) h

theorem endServe_calm (d e : Nat) (h : Calm b s) : Calm b (endServe s d e) := by
  unfold endServe
  split
  · exact h
  · exact leaveRunning_calm _ (finish_calm _ _ _ _ (unbind_calm _ _ (modDist_calm (fun _ => rfl) h)))

theorem serveFaulted_calm (d : Nat) (h : Calm b s) : Calm b (serveFaulted s d) := endServe_calm _ _ (modDist_calm (fun _ => rfl) h)

theorem endRunDone_calm (d : Nat) (h : Calm b s) : Calm b (endRunDone s d) := by
  unfold endRunDone
  split
  · have hcleared := fun l => clearRun_calm d (raiseBound_calm d vbProg (emit_calm (seqSource s d) 0x043 sevInfo d l h))
    exact .ite h (.ite (leaveRunning_calm _ (unbind_calm _ _ (hcleared _))) (hcleared _))
  · exact h

theorem endRunHalted_calm (d : Nat) (h : Calm b s) : Calm b (endRunHalted s d) := by
  unfold endRunHalted
  split
  · have hcleared := fun l => clearRun_calm d (raiseBound_calm d vbProg (emit_calm (seqSource s d) 0x044 sevNotice d l h))
    exact .ite h (.ite (leaveRunning_calm _ (unbind_calm _ _ (hcleared _))) (hcleared _))
  · exact h

/-! ## The step gate -/

theorem gateEvent_calm (d kind sev : Nat) (l : List Nat) (h : Calm b s) : Calm b (gateEvent s d kind sev l) := raiseBound_calm _ _ (emit_calm _ _ _ _ _ h)

theorem gateSend_calm (j : Job) (ps : List Nat) (m : GateMsg) (h : Calm b s) : Calm b (gateSend s j ps m) := .foldl (fun _ _ h => sysSend_calm _ _ _ _ _ _ h) _ h

theorem gateSpread_calm (j : Job) (m : GateMsg) (h : Calm b s) : Calm b (gateSpread s j m) := gateSend_calm _ _ _ h

theorem writeOutcome_calm (d verdict causes : Nat) (m : GateMsg) (h : Calm b s) : Calm b (writeOutcome s d verdict causes m) := modGate_calm _ _ h

theorem endLoop_calm (d e code : Nat) (h : Calm b s) : Calm b (endLoop d e code s) := by
  unfold endLoop
  dsimp only
  split
  · exact leaveRunning_calm _ (finish_calm _ _ _ _ (modGate_calm _ _ (snapRunEnds_calm _ h)))
  · exact modGate_calm _ _ (snapRunEnds_calm _ h)

theorem advanceStep_calm (d : Nat) (h : Calm b s) : Calm b (advanceStep s d) := modGate_calm _ _ h

theorem nextOpening_calm (d : Nat) (h : Calm b s) : Calm b (nextOpening d s) := by
  unfold nextOpening
  dsimp only
  split
  · exact modGate_calm _ _ h
  · exact .ite (endLoop_calm _ _ _ h) (.ite (endLoop_calm _ _ _ h) (.ite (endLoop_calm _ _ _ h) (modGate_calm _ _ h)))

theorem logVerify_calm (d seq result loss : Nat) (h : Calm b s) : Calm b (logVerify s d seq result loss) := emit_calm _ _ _ _ _ (modSnap_calm _ _ h)

theorem afterRefusal_calm (d causes : Nat) (h : Calm b s) : Calm b (afterRefusal d causes s) := by
  unfold afterRefusal
  dsimp only
  split
  · exact h
  · exact .ite (nextOpening_calm _ (modGate_calm _ _ h)) (.ite (nextOpening_calm _ (advanceStep_calm _ h)) (.ite (endLoop_calm _ _ _ h) (modGate_calm _ _ h)))

/-- A verify that a verdict decides: logged at position 0, spent elsewhere. -/
theorem verified_calm {c : Prop} [Decidable c] (d seq result loss : Nat) (f : Snap → Snap) (h : Calm b s) :
    Calm b (if c then logVerify s d seq result loss else modSnap s d f) := .ite (logVerify_calm _ _ _ _ h) (modSnap_calm _ _ h)

theorem refuseStep_calm (d causes : Nat) (m : GateMsg) (h : Calm b s) : Calm b (refuseStep d causes m s) := by
  unfold refuseStep
  refine afterRefusal_calm _ _ ?_
  have hlogged := gateEvent_calm d 0x181 sevNotice [(getDist (writeOutcome s d 2 causes m) d).gate.step, causes, m.nf,
    min (getDist (writeOutcome s d 2 causes m) d).gate.replay 15] (modGate_calm d (fun g => { g with code := 4, held := none, commit := none, acc := none, mine := false, sent := false, early := none })
      (writeOutcome_calm d 2 causes m h))
  split
  · exact verified_calm _ _ _ _ _ (.ite (snapCheck_calm _ _ _ _ hlogged) hlogged)
  · exact .ite (snapCheck_calm _ _ _ _ hlogged) hlogged

theorem startUpdate_calm (d : Nat) (h : Calm b s) : Calm b (startUpdate d s) := by
  unfold startUpdate
  dsimp only
  refine .ite (modGate_calm _ _ h) ?_
  split
  · exact startRun_calm _ _ _ _ (modGate_calm _ _ h)
  · exact h

theorem commitStep_calm (d : Nat) (m : GateMsg) (h : Calm b s) : Calm b (commitStep d m s) :=
  startUpdate_calm _ (snapCheck_calm _ _ _ _ (modSnap_calm _ _ (modGate_calm _ _ (writeOutcome_calm _ _ _ _ h))))

theorem applyDecision_calm (d action : Nat) (h : Calm b s) : Calm b (applyDecision d action s) := by
  unfold applyDecision
  dsimp only
  split
  · exact h
  · exact .ite (refuseStep_calm _ _ _ h) (commitStep_calm _ _ h)

theorem decide0_calm (d action : Nat) (h : Calm b s) : Calm b (decide0 d action s) := by
  unfold decide0
  split
  · exact h
  · exact applyDecision_calm _ _ (gateSpread_calm _ _ h)

theorem takeVerdict_calm (d : Nat) (v : GateMsg) (h : Calm b s) : Calm b (takeVerdict d v s) := by
  unfold takeVerdict
  dsimp only
  split
  · exact h
  · refine .ite h (.ite (refuseStep_calm _ _ _ h) (.ite (commitStep_calm _ _ ?_) ?_))
    · split
      · exact verified_calm _ _ _ _ _ h
      · exact h
    · have hheld := writeOutcome_calm d 0 0 v (modGate_calm d (fun g => { g with held := some v }) h)
      refine .ite hheld ?_
      split
      · exact decide0_calm _ _ (logVerify_calm _ _ _ _ hheld)
      · split
        · exact decide0_calm _ _ hheld
        · exact gateEvent_calm _ _ _ _ hheld

theorem finishCommit_calm (d : Nat) (v : GateMsg) (h : Calm b s) : Calm b (finishCommit d v s) := by
  unfold finishCommit
  dsimp only
  split
  · exact h
  · refine .ite h (.ite (nextOpening_calm _ ?_) (endLoop_calm _ _ _ (gateEvent_calm _ _ _ _ (modGate_calm _ _ h))))
    split
    · exact snapStart_calm _ _ (advanceStep_calm _ (.ite (gateEvent_calm _ _ _ _ (modGate_calm _ _ h)) (modGate_calm _ _ h)))
    · exact advanceStep_calm _ (.ite (gateEvent_calm _ _ _ _ (modGate_calm _ _ h)) (modGate_calm _ _ h))

theorem roundDone_calm (d : Nat) (j : Job) (a : GateMsg) (h : Calm b s) : Calm b (roundDone d j a s) :=
  .ite (finishCommit_calm _ _ (gateSpread_calm _ _ h)) (takeVerdict_calm _ _ (gateSpread_calm _ _ h))

theorem gateProgress_calm (d : Nat) (commit : Bool) (h : Calm b s) : Calm b (gateProgress d commit s) := by
  unfold gateProgress
  dsimp only
  split
  · refine .ite h ?_
    split
    · exact gateSend_calm _ _ _ (modGate_calm _ _ h)
    · exact roundDone_calm _ _ _ (modGate_calm _ _ h)
  · exact h

theorem addMsg_calm (d : Nat) (j : Job) (m : GateMsg) (h : Calm b s) : Calm b (addMsg s d j m) := modGate_calm _ _ h

theorem applyResume_calm (d action : Nat) (h : Calm b s) : Calm b (applyResume d action s) :=
  .ite h (.ite (endLoop_calm _ _ _ h) (.ite (nextOpening_calm _ (advanceStep_calm _ h)) (nextOpening_calm _ (modGate_calm _ _ h))))

theorem gateReceive_calm (d : Nat) (m : GateMsg) (h : Calm b s) : Calm b (gateReceive d m s) := by
  unfold gateReceive
  split
  · exact h
  · next j _ =>
    dsimp only
    have hmarked : Calm b (if m.sig ≠ j.sig then modGate s d fun g => { g with fault := true } else s) := .ite (modGate_calm _ _ h) h
    split
    · refine .ite (applyDecision_calm _ _ (gateSpread_calm _ _ hmarked)) ?_
      split
      · exact refuseStep_calm _ _ _ (gateSpread_calm _ _ hmarked)
      · exact gateSpread_calm _ _ hmarked
    · exact .ite (applyResume_calm _ _ (gateSpread_calm _ _ hmarked)) (gateSpread_calm _ _ hmarked)
    · exact .ite (takeVerdict_calm _ _ (gateSpread_calm _ _ hmarked)) (gateProgress_calm _ _ (addMsg_calm _ _ _ hmarked))
    · exact .ite (finishCommit_calm _ _ (gateSpread_calm _ _ hmarked)) (gateProgress_calm _ _ (addMsg_calm _ _ _ hmarked))

theorem gateThaw_calm (d : Nat) (h : Calm b s) : Calm b (gateThaw d s) := by
  have htaken := Calm.foldl (b := b) (g := fun s m => gateReceive d m s) (fun _ m h => gateReceive_calm d m h) (getDist s d).gate.waiting
    (modGate_calm d (fun g => { g with waiting := [] }) h)
  exact .ite (endLoop_calm _ _ _ htaken) htaken

theorem stepFaulted_calm (d : Nat) (h : Calm b s) : Calm b (stepFaulted s d) := .ite (.ite (endLoop_calm _ _ _ h) (modGate_calm _ _ h)) h

theorem dropColls_calm (g : Nat) (x : Group) (h : Calm b s) : Calm b (dropColls s g x) :=
  .foldl (fun _ _ h => modCore_calm _ _ _ h) _ (h.congr rfl rfl rfl rfl rfl rfl rfl)

theorem earlyStart_calm (d pos causes : Nat) (h : Calm b s) : Calm b (earlyStart d pos causes s) := by
  unfold earlyStart
  dsimp only
  refine .ite h ?_
  split
  · exact modGate_calm _ _ h
  · exact .foldl (fun _ _ h => abortGroup_calm _ _ _ (dropColls_calm _ _ h)) _ (abortRun_calm _ _ (gateEvent_calm _ _ _ _ (modGate_calm _ _ h)))

theorem earlyCheck_calm (d : Nat) (h : Calm b s) : Calm b (earlyCheck d s) := by
  unfold earlyCheck
  dsimp only
  split
  · exact h
  · exact .ite h (earlyStart_calm _ _ _ (.foldl (fun _ _ h => sysSend_calm _ _ _ _ _ _ h) _ h))

/-! ## FAULTED and what follows from a step -/

theorem thaw_calm (d : Nat) (h : Calm b s) : Calm b (thaw s d) := by
  unfold thaw
  refine Calm.congr (s := List.foldl _ _ _) (.foldl (fun _ e h => .foldl (fun _ p h => freeHeld_calm e.1 p h) _ h) _ ?_) rfl rfl rfl rfl rfl rfl rfl
  exact modDist_calm (fun _ => rfl) h

theorem snapAborts_calm (d : Nat) (h : Calm b s) : Calm b (snapAborts s d) := by
  unfold snapAborts
  dsimp only
  split
  · exact h
  · split
    · exact h
    · refine .ite h ?_
      have hcap : Calm b (match (getDist s d).snap.cap with
          | some c => if !c.mirDone ∧ (getDist s d).snap.code ≠ 1 then snapFail s d c.seq 3 else s
          | none => s) := by
        split
        · exact .ite (snapFail_calm _ _ _ h) h
        · exact h
      exact .ite (fillFail_calm _ _ hcap) hcap

/-- The entry to FAULTED up to the change of state: frozen timers run on, and a pause under way is given up. -/
def faultStop (d : Nat) (s : State) : State :=
  let u := if (getDist s d).state = 4 ∨ (getDist s d).state = 5 then thaw s d else s
  match (getDist s d).pause with
  | some p => finish u p.pend 0x20 0x0106 []
  | none => u

/-- The change of state and its record. -/
def faultTurn (d code core : Nat) (s : State) : State :=
  let u := setDistState (modDist (faultStop d s) d fun x => { x with pause := none }) d 6
  emit u (cpSource u d) 0x1E1 sevError d [code, core]

theorem faultStop_calm (d : Nat) (h : Calm b s) : Calm b (faultStop d s) := by
  unfold faultStop
  dsimp only
  split
  · exact finish_calm _ _ _ _ (.ite (thaw_calm _ h) h)
  · exact .ite (thaw_calm _ h) h

theorem faultStop_state (d : Nat) (s : State) : (getDist (faultStop d s) d).state = (getDist s d).state := by
  have hu : (getDist (if (getDist s d).state = 4 ∨ (getDist s d).state = 5 then thaw s d else s) d).state = (getDist s d).state := by
    split
    · rw [thaw_dist]
      rfl
    · rfl
  unfold faultStop
  dsimp only
  split
  · exact (congrArg (·.state) (getDist_congr (finish_dists _ _ _ _ _) d)).trans hu
  · exact hu

/-- A district that exists and is not FAULTED turns to it. -/
theorem enterFaulted_eq {d : Nat} (code core : Nat) (h : 1 ≤ (getDist s d).state ∧ (getDist s d).state ≤ 5) : enterFaulted d code core s =
    gateThaw d (stepFaulted (serveFaulted (modGate (abortGroups (faultTurn d code core s) d) d fun g => { g with fault := true }) d) d) := by
  have hlive : ¬((!([1, 2, 3, 4, 5].contains (getDist s d).state)) = true) := by
    obtain ⟨hlow, hhigh⟩ := h
    generalize (getDist s d).state = n at hlow hhigh
    simp only [Bool.not_eq_true, Bool.not_eq_false', List.contains_iff_mem, List.mem_cons, List.not_mem_nil, or_false]
    omega
  exact if_neg hlive

theorem enterFaulted_other {d : Nat} (code core : Nat) (h : ¬(1 ≤ (getDist s d).state ∧ (getDist s d).state ≤ 5)) : enterFaulted d code core s = s := by
  refine if_pos ?_
  have hout : (getDist s d).state ∉ [1, 2, 3, 4, 5] := by
    simp only [List.mem_cons, List.not_mem_nil, or_false]
    omega
  simpa using hout

theorem faultTurn_calm {d : Nat} (code core : Nat) (ho : 1 ≤ (getDist s d).state ∧ (getDist s d).state ≤ 5) (h : Calm b s) :
    Calm b (faultTurn d code core s) := by
  have hgone : Calm b (modDist (faultStop d s) d fun x => { x with pause := none }) := modDist_calm (fun _ => rfl) (faultStop_calm d h)
  unfold faultTurn
  refine emit_calm _ _ _ _ _ (setDistState_calm (st := 6) ?_ ⟨by decide, by decide⟩ hgone)
  rw [getDist_modDist_self]
  exact (faultStop_state d s).symm ▸ ho

theorem faultTurn_state {d : Nat} (code core : Nat) (ho : (getDist s d).state ≤ 5) : (getDist (faultTurn d code core s) d).state = 6 := by
  have hne : (getDist (modDist (faultStop d s) d fun x => { x with pause := none }) d).state ≠ 6 := by
    rw [getDist_modDist_self]
    show (getDist (faultStop d s) d).state ≠ 6
    rw [faultStop_state]
    omega
  unfold faultTurn
  rw [getDist_emit, setDistState_self hne]

/-- What follows the change of state. -/
theorem faultRest_calm (d : Nat) (h : Calm b s) :
    Calm b (gateThaw d (stepFaulted (serveFaulted (modGate (abortGroups s d) d fun g => { g with fault := true }) d) d)) :=
  gateThaw_calm _ (stepFaulted_calm _ (serveFaulted_calm _ (modGate_calm _ _ (abortGroups_calm _ h))))

theorem enterFaulted_calm (d code core : Nat) (h : Calm b s) : Calm b (enterFaulted d code core s) := by
  by_cases hlive : 1 ≤ (getDist s d).state ∧ (getDist s d).state ≤ 5
  · rw [enterFaulted_eq code core hlive]
    exact faultRest_calm d (faultTurn_calm code core hlive h)
  · rw [enterFaulted_other code core hlive]
    exact h

/-- A district that exists is FAULTED after its entry (R372). -/
theorem enterFaulted_state (s : State) {d : Nat} (code core : Nat) (h : 1 ≤ (getDist s d).state ∧ (getDist s d).state ≤ 6) :
    (getDist (enterFaulted d code core s) d).state = 6 := by
  by_cases hlive : (getDist s d).state ≤ 5
  · rw [enterFaulted_eq code core ⟨h.1, hlive⟩]
    have hrest := (faultRest_calm d (.refl (faultTurn d code core s))).states d
    rw [faultTurn_state code core hlive] at hrest
    exact hrest.faulted
  · rw [enterFaulted_other code core (by omega)]
    omega

theorem settle_calm (d : Nat) (h : Calm b s) : Calm b (settle d s) := by
  unfold settle
  refine endRunHalted_calm _ (endRunDone_calm _ (earlyCheck_calm _ (snapAborts_calm _ ?_)))
  split
  · exact .ite (enterFaulted_calm _ _ _ h) h
  · exact h

theorem settleAll_calm (h : Calm b s) : Calm b (settleAll s) := .foldl (fun _ e h => settle_calm e.1 h) _ h

/-! ## Every port disabled -/

/-- No port below `n` is left that is not DISABLED. -/
theorem disabled_foldl (n : Nat) (s : State) : ∀ p < n, (getPort ((List.range n).foldl disablePort s) p).state = 0 := by
  induction n with
  | zero => exact fun p hp => absurd hp (Nat.not_lt_zero p)
  | succ n ih =>
    intro p hp
    rw [List.range_succ, List.foldl_append]
    by_cases hpn : p = n
    · subst hpn
      show (getPort (disablePort ((List.range p).foldl disablePort s) p) p).state = 0
      unfold disablePort
      split
      · assumption
      · rw [getPort_losePort_self]
        rfl
    · exact (disablePort_calm n (.refl _)).ports p (ih p (by omega))

theorem disablePorts_state (s : State) {p : Nat} (hp : p < 24) : (getPort (disablePorts s) p).state = 0 :=
  (adopt_calm (finishEnables_calm (.refl ((List.range 24).foldl disablePort s)))).ports p (disabled_foldl 24 s p hp)

/-! ## A district removed -/

theorem modPipe_calm (k : Nat) (g : Pipe → Pipe) (h : Calm b s) : Calm b (modPipe s k g) := h.congr rfl rfl rfl rfl rfl rfl rfl

theorem mediaEvent_calm (k kind sev : Nat) (l : List Nat) (h : Calm b s) : Calm b (mediaEvent s k kind sev l) := raiseBound_calm _ _ (emit_calm _ _ _ _ _ h)

/-- A media job's last event and reply. -/
def jobAnswered (k e : Nat) (s : State) : State :=
  let u := modPipe s k fun p => { p with dropped := p.dropped + b2n (p.group != []) }
  let p := getPipe u k
  let v := mediaEvent u k 0x201 sevInfo [e, p.frames, p.damaged]
  match p.pend with
  | some w => finishOk v w (jobRecord p e)
  | none => v

theorem jobAnswered_calm (k e : Nat) (h : Calm b s) : Calm b (jobAnswered k e s) := by
  unfold jobAnswered
  dsimp only
  split
  · exact finish_calm _ _ _ _ (mediaEvent_calm _ _ _ _ (modPipe_calm _ _ h))
  · exact mediaEvent_calm _ _ _ _ (modPipe_calm _ _ h)

theorem endJob_calm (k e : Nat) (h : Calm b s) : Calm b (endJob k e s) := by
  have hreleased := fun p : Pipe => unbind_calm p.dist (vbMedia k)
    ((jobAnswered_calm k e h).congr (t := { jobAnswered k e s with backs := tdel (jobAnswered k e s).backs p.storeBid }) rfl rfl rfl rfl rfl rfl rfl)
  exact (hreleased _).congr (t := endJob k e s) rfl rfl rfl rfl rfl rfl rfl

/-- A district's removal up to its change of state: its groups, jobs, commands and memory go. -/
def stripped (d : Nat) (s : State) : State :=
  let s := abortGroups s d
  let s := ((s.pipes.filter fun e => e.2.state != 0 && e.2.dist == d).map (·.1)).foldl (fun s k => endJob k 3 s) s
  let x := getDist s d
  let s := (pendsOf x).foldl (fun s p => finish s p 0x20 0x0100 []) s
  let s := (editsOf x).foldl (fun s p => queueReply s p.epoch { req := p.req, cmd := p.cmd, status := 0x20, state := 0x0100 }) s
  let s := ((s.groups.filter fun e => e.2.dist == d).map (·.1)).foldl removeGroup s
  { s with backs := s.backs.filter fun e => !(backsOf x).contains e.1 }

theorem removeDist_eq (d : Nat) (s : State) : removeDist d s = modDist (setDistState (stripped d s) d 0) d fun y => { gen := y.gen } := rfl

theorem stripped_calm (d : Nat) (h : Calm b s) : Calm b (stripped d s) := by
  unfold stripped
  refine Calm.congr (.foldl (fun _ g h => removeGroup_calm g h) _ (.foldl (fun _ _ h => queueReply_calm _ _ h) _
    (.foldl (fun _ _ h => finish_calm _ _ _ _ h) _ (.foldl (fun _ k h => endJob_calm k 3 h) _ (abortGroups_calm d h))))) rfl rfl rfl rfl rfl rfl rfl

/-- A removed district is EMPTY, and nothing else but its own state changes beyond what `Calm` allows. -/
theorem removeDist_state (d : Nat) (s : State) : (getDist (removeDist d s) d).state = 0 := by
  obtain ⟨n, hn⟩ := getDist_removeDist d s
  rw [hn]

theorem setDistState_keeps (s : State) (d st : Nat) : (setDistState s d st).sec = s.sec ∧ (setDistState s d st).pwr = s.pwr := by
  unfold setDistState
  dsimp only
  split
  · exact ⟨rfl, rfl⟩
  · rw [emit_sec, emit_pwr]
    exact ⟨rfl, rfl⟩

theorem removeDist_sec (d : Nat) (s : State) : (removeDist d s).sec = s.sec := by
  rw [removeDist_eq, modDist_sec, (setDistState_keeps _ _ _).1, (stripped_calm d (.refl s)).sec]

theorem removeDist_pwr (d : Nat) (s : State) : (removeDist d s).pwr = s.pwr := by
  rw [removeDist_eq, modDist_pwr, (setDistState_keeps _ _ _).2, (stripped_calm d (.refl s)).pwr]

/-- The other districts move only as these operations allow. -/
theorem removeDist_states {d i : Nat} (hi : i ≠ d) (s : State) : StateGoes (getDist s i).state (getDist (removeDist d s) i).state := by
  rw [removeDist_eq, getDist_modDist_ne _ _ hi, setDistState_ne _ hi]
  exact (stripped_calm d (.refl s)).states i

theorem getFn_removeDist (d : Nat) (s : State) (f : Nat) : getFn (removeDist d s) f = getFn (stripped d s) f := by
  rw [removeDist_eq, getFn_modDist, getFn_congr (setDistState_fns (stripped d s) d 0)]

theorem removeDist_epoch (d : Nat) (s : State) (f : Nat) : (getFn (removeDist d s) f).epoch = (getFn s f).epoch := by
  rw [getFn_removeDist]
  exact ((stripped_calm d (.refl s)).answers f).1

/-! ## Every district destroyed (R437) -/

theorem removeFn_keeps (d : Nat) (s : State) : (removeFn d s).sec = s.sec ∧ (removeFn d s).pwr = s.pwr := by
  unfold removeFn
  split
  · exact ⟨rfl, rfl⟩
  · exact ⟨rfl, rfl⟩

/-- PF0 is not reset with a district. -/
theorem removeFn_epoch_zero (d : Nat) (s : State) : (getFn (removeFn d s) 0).epoch = (getFn s 0).epoch := by
  unfold removeFn
  split
  · rw [getFn_modFn_self]
  · next hd =>
    rw [getFn_modFn_ne _ _ (Ne.symm hd), resetFn, getFn_modFn_ne _ _ (Ne.symm hd)]
    rfl

/-- One district of the walk of `destroyAll`. -/
def destroyed (s : State) (e : Nat × Dist) : State := if e.2.state = 0 then s else removeFn e.1 (removeDist e.1 s)

theorem destroyAll_eq (s : State) : destroyAll s = s.dists.foldl destroyed s := rfl

theorem destroyed_sec (s : State) (e : Nat × Dist) : (destroyed s e).sec = s.sec := by
  unfold destroyed
  split
  · rfl
  · rw [(removeFn_keeps _ _).1, removeDist_sec]

theorem destroyed_pwr (s : State) (e : Nat × Dist) : (destroyed s e).pwr = s.pwr := by
  unfold destroyed
  split
  · rfl
  · rw [(removeFn_keeps _ _).2, removeDist_pwr]

theorem destroyed_epoch (s : State) (e : Nat × Dist) : (getFn (destroyed s e) 0).epoch = (getFn s 0).epoch := by
  unfold destroyed
  split
  · rfl
  · rw [removeFn_epoch_zero, removeDist_epoch]

/-- A district EMPTY before one is destroyed is EMPTY after. -/
theorem destroyed_empty {s : State} {d : Nat} (e : Nat × Dist) (h : (getDist s d).state = 0) : (getDist (destroyed s e) d).state = 0 := by
  unfold destroyed
  split
  · exact h
  · rw [getDist_congr (removeFn_dists _ _)]
    by_cases hd : d = e.1
    · rw [hd, removeDist_state]
    · have hgoes := removeDist_states hd s
      rw [h] at hgoes
      exact hgoes.empty

theorem destroyed_self {s : State} (e : Nat × Dist) (h : e.2.state ≠ 0) : (getDist (destroyed s e) e.1).state = 0 := by
  rw [destroyed, if_neg h, getDist_congr (removeFn_dists _ _), removeDist_state]

theorem destroyed_foldl_empty {d : Nat} : ∀ (l : List (Nat × Dist)) {s : State}, (getDist s d).state = 0 → (getDist (l.foldl destroyed s) d).state = 0
  | [], _, h => h
  | e :: l, _, h => destroyed_foldl_empty l (destroyed_empty e h)

theorem destroyed_foldl_mem {d : Nat} {x : Dist} : ∀ (l : List (Nat × Dist)) (s : State), (d, x) ∈ l → x.state ≠ 0 → (getDist (l.foldl destroyed s) d).state = 0
  | [], _, h, _ => absurd h List.not_mem_nil
  | e :: l, s, h, hx => by
    rcases List.mem_cons.mp h with he | hl
    · subst he
      exact destroyed_foldl_empty l (destroyed_self (d, x) hx)
    · exact destroyed_foldl_mem l _ hl hx

theorem mem_of_tfind {α : Type} {k : Nat} {v : α} : ∀ {m : AMap α}, tfind m k = some v → (k, v) ∈ m
  | [], h => absurd h.symm (Option.some_ne_none v)
  | (j, w) :: m, h => by
    by_cases hj : j = k
    · subst hj
      simp only [tfind, if_true, Option.some.injEq] at h
      exact h ▸ List.mem_cons_self
    · simp only [tfind, hj, if_false] at h
      exact List.mem_cons_of_mem _ (mem_of_tfind h)

/-- No district is left (R437). -/
theorem destroyAll_empty (s : State) (d : Nat) : (getDist (destroyAll s) d).state = 0 := by
  rw [destroyAll_eq]
  by_cases h : (getDist s d).state = 0
  · exact destroyed_foldl_empty _ h
  · refine destroyed_foldl_mem (x := getDist s d) _ _ ?_ h
    unfold getDist tget at h ⊢
    cases hfind : tfind s.dists d with
    | none => exact absurd rfl (by rw [hfind] at h; exact h)
    | some x => exact mem_of_tfind hfind

theorem destroyAll_sec (s : State) : (destroyAll s).sec = s.sec := by
  rw [destroyAll_eq]
  exact foldl_keeps (f := State.sec) destroyed_sec _ _

theorem destroyAll_pwr (s : State) : (destroyAll s).pwr = s.pwr := by
  rw [destroyAll_eq]
  exact foldl_keeps (f := State.pwr) destroyed_pwr _ _

theorem destroyAll_epoch (s : State) : (getFn (destroyAll s) 0).epoch = (getFn s 0).epoch := by
  rw [destroyAll_eq]
  exact foldl_keeps (f := fun s => (getFn s 0).epoch) destroyed_epoch _ _

end

end Sys2Proof.Machine
end

section
/-! Package-fatal causes (R402). -/

namespace Sys2Proof.Machine

/-! ## Every district FAULTED -/

/-- The walk by which every district becomes FAULTED. -/
def faultedAll (code : Nat) (l : List (Nat × Dist)) (s : State) : State := l.foldl (fun s e => enterFaulted e.1 code 0 s) s

theorem faultedAll_calm {b : State} (code : Nat) (l : List (Nat × Dist)) {s : State} (h : Calm b s) : Calm b (faultedAll code l s) :=
  .foldl (fun _ e h => enterFaulted_calm e.1 code 0 h) l h

/-- A district of the walk that exists is FAULTED after it. -/
theorem faultedAll_state (code d : Nat) : ∀ (l : List (Nat × Dist)) (s : State), d ∈ l.map (·.1) → 1 ≤ (getDist s d).state ∧ (getDist s d).state ≤ 6 →
    (getDist (faultedAll code l s) d).state = 6
  | [], _, hmem, _ => absurd hmem List.not_mem_nil
  | e :: l, s, hmem, hs => by
    by_cases hd : e.1 = d
    · have hrest := (faultedAll_calm code l (.refl (enterFaulted d code 0 s))).states d
      rw [enterFaulted_state s code 0 hs] at hrest
      show (getDist (faultedAll code l (enterFaulted e.1 code 0 s)) d).state = 6
      rw [hd]
      exact hrest.faulted
    · have hlater : d ∈ l.map (·.1) := (List.mem_cons.mp hmem).resolve_left (Ne.symm hd)
      exact faultedAll_state code d l _ hlater (((enterFaulted_calm e.1 code 0 (.refl s)).states d).alive hs)

theorem mem_keys_of_state {s : State} {d : Nat} (h : (getDist s d).state ≠ 0) : d ∈ s.dists.map (·.1) := by
  unfold getDist tget at h
  cases hfind : tfind s.dists d with
  | none => exact absurd rfl (by rw [hfind] at h; exact h)
  | some x => exact List.mem_map_of_mem (mem_of_tfind hfind)

/-! ## What the command processors do (R19, R402) -/

/-- The state in which the command processors have read the advisory. -/
def fatalRead (s : State) : State :=
  let u := (liveCps s).foldl (fun u c => emit u (0x881 + c) 0x008 sevInfo 0xFF (advValues s)) s
  { u with adv := tmap u.adv fun _ a => { a with unread := false }, health := { u.health with fatalAck := true } }

theorem fatalActed_eq (cause : Nat) (s : State) :
    fatalActed cause s = settleAll (disablePorts (faultedAll (Config.causeCode 0x1E1 cause) (fatalRead s).dists (fatalRead s))) := rfl

theorem fatalRead_emitted (s : State) : s.emitted <+: (fatalRead s).emitted :=
  (Calm.foldl (g := fun u c => emit u (0x881 + c) 0x008 sevInfo 0xFF (advValues s)) (fun _ _ h => emit_calm _ _ _ _ _ h) (liveCps s) (.refl s)).emitted

theorem fatalRead_dists (s : State) : (fatalRead s).dists = s.dists :=
  foldl_keeps (f := State.dists) (g := fun u c => emit u (0x881 + c) 0x008 sevInfo 0xFF (advValues s)) (fun u _ => emit_dists u _ _ _ _ _) (liveCps s) s

/-- Reading the advisories leaves their values. -/
theorem fatalRead_advValue (s : State) (k : Nat) : (tget {} (fatalRead s).adv k).value = (tget {} s.adv k).value := by
  have hadv : ((liveCps s).foldl (fun u c => emit u (0x881 + c) 0x008 sevInfo 0xFF (advValues s)) s).adv = s.adv :=
    foldl_keeps (f := State.adv) (g := fun u c => emit u (0x881 + c) 0x008 sevInfo 0xFF (advValues s)) (fun u _ => emit_adv u _ _ _ _ _) (liveCps s) s
  have hread : (fatalRead s).adv = tmap ((liveCps s).foldl (fun u c => emit u (0x881 + c) 0x008 sevInfo 0xFF (advValues s)) s).adv
    fun _ a => { a with unread := false } := rfl
  rw [hread, tget_tmap (d := ({} : Advisory)) (f := fun _ a => { a with unread := false }) rfl, hadv]

/-- The whole package is stopped: what was logged stays, every district that exists is FAULTED, every port DISABLED. -/
theorem fatalActed_stops (cause : Nat) (s : State) : s.emitted <+: (fatalActed cause s).emitted ∧
    (∀ k, (tget {} (fatalActed cause s).adv k).value = (tget {} s.adv k).value) ∧
    (∀ d, 1 ≤ (getDist s d).state ∧ (getDist s d).state ≤ 6 → (getDist (fatalActed cause s) d).state = 6) ∧
    ∀ p < 24, (getPort (fatalActed cause s) p).state = 0 := by
  rw [fatalActed_eq]
  have hfaulted := faultedAll_calm (Config.causeCode 0x1E1 cause) (fatalRead s).dists (.refl (fatalRead s))
  have hall := settleAll_calm (disablePorts_calm hfaulted)
  refine ⟨(fatalRead_emitted s).trans hall.emitted, fun k => ?_, fun d hd => ?_, fun p hp => ?_⟩
  · rw [hall.adv, fatalRead_advValue]
  · have hread : (getDist (fatalRead s) d).state = (getDist s d).state := congrArg (·.state) (getDist_congr (fatalRead_dists s) d)
    have hmem : d ∈ (fatalRead s).dists.map (·.1) := mem_keys_of_state (by omega)
    have hgoes := (settleAll_calm (disablePorts_calm (.refl (faultedAll (Config.causeCode 0x1E1 cause) (fatalRead s).dists (fatalRead s))))).states d
    rw [faultedAll_state _ d _ _ hmem (by omega)] at hgoes
    exact hgoes.faulted
  · exact (settleAll_calm (.refl (disablePorts _))).ports p (disablePorts_state _ hp)

/-! ## A cause posted -/

theorem fatalPosted_emitted (cause : Nat) (s : State) : (fatalPosted cause s).emitted = s.emitted ++ [⟨s.now, 0x885, 0x248, 3, 0xFF, [cause]⟩] := by
  unfold fatalPosted
  rw [postAdvisory_emitted, emit_emitted]
  rfl

theorem postAdvisory_sec_pins (s : State) (k v : Nat) : (postAdvisory s k v).sec = s.sec ∧ (postAdvisory s k v).pins = s.pins := by
  unfold postAdvisory
  dsimp only
  split
  · exact ⟨rfl, rfl⟩
  · exact ⟨rfl, rfl⟩

theorem fatalPosted_dists (cause : Nat) (s : State) : (fatalPosted cause s).dists = s.dists := by
  unfold fatalPosted
  rw [(postAdvisory_dists_fns _ _ _).1, emit_dists]

/-- The advisory's value is what posting it gives: the fatal record does not matter to it. -/
theorem fatalPosted_adv (cause : Nat) (s : State) : (fatalPosted cause s).adv = (postAdvisory s 5 cause).adv := by
  unfold fatalPosted postAdvisory
  rw [emit_adv]
  dsimp only
  split
  · exact emit_adv _ _ _ _ _ _
  · rfl

theorem postAdvisory_adv_congr {s t : State} (h : t.adv = s.adv) (k v : Nat) : (postAdvisory t k v).adv = (postAdvisory s k v).adv := by
  unfold postAdvisory
  rw [h]
  dsimp only
  split
  · exact h
  · rfl

/-- The command processors that run are told by the boot state, the pins, the power state and the watchdogs alone. -/
theorem liveCps_congr {s t : State} (hsec : t.sec = s.sec) (hpins : t.pins = s.pins) (hpwr : t.pwr = s.pwr) (hwdog : t.health.wdog = s.health.wdog) :
    liveCps t = liveCps s := by
  unfold liveCps voxubRuns
  rw [hsec, hpins, hpwr, hwdog]

theorem liveCps_fatalPosted (cause : Nat) (s : State) : liveCps (fatalPosted cause s) = liveCps s := by
  obtain ⟨hpwr, hhealth⟩ := fatalPosted_keeps cause s
  refine liveCps_congr ?_ ?_ hpwr (by rw [hhealth])
  · unfold fatalPosted
    rw [(postAdvisory_sec_pins _ _ _).1, emit_sec]
  · unfold fatalPosted
    rw [(postAdvisory_sec_pins _ _ _).2, emit_pins]

section
variable {s : State} (haon : s.pins.aonRst = false) (hsys : s.pins.sysRst = false) (hnone : s.health.fatal = none)
include haon hsys hnone

/-- With a command processor alive the cause stops the package. -/
theorem goFatal_live (cause : Nat) (hlive : liveCps s ≠ []) : goFatal cause s = fatalActed cause (fatalPosted cause s) := by
  rw [goFatal_eq cause (by simp [haon, hsys, hnone]), if_neg (by rw [liveCps_fatalPosted]; exact hlive)]

theorem goFatal_dead (cause : Nat) (hdead : liveCps s = []) : goFatal cause s = fatalPosted cause s := by
  rw [goFatal_eq cause (by simp [haon, hsys, hnone]), if_pos (by rw [liveCps_fatalPosted]; exact hdead)]

theorem goFatal_stops (cause : Nat) (hlive : liveCps s ≠ []) : let t := goFatal cause s
    t.health.fatal = some cause ∧ t.health.fatalAck = true ∧ (⟨s.now, 0x885, 0x248, 3, 0xFF, [cause]⟩ : EventRec) ∈ t.emitted ∧
    (tget {} t.adv 5).value = (tget {} (postAdvisory s 5 cause).adv 5).value ∧
    (∀ d, (getDist s d).state ∈ [1, 2, 3, 4, 5, 6] → (getDist t d).state = 6) ∧ ∀ p < 24, (getPort t p).state = 0 := by
  dsimp only
  rw [goFatal_live haon hsys hnone cause hlive]
  obtain ⟨hlog, hadv, hstates, hports⟩ := fatalActed_stops cause (fatalPosted cause s)
  have hhealth := (fatalActed_keeps cause (fatalPosted cause s)).2
  rw [(fatalPosted_keeps cause s).2] at hhealth
  refine ⟨by rw [hhealth], by rw [hhealth], ?_, ?_, fun d hd => hstates d ?_, hports⟩
  · exact hlog.subset (by rw [fatalPosted_emitted]; exact List.mem_append_right _ (List.mem_singleton_self _))
  · rw [hadv, fatalPosted_adv]
  · rw [getDist_congr (fatalPosted_dists cause s)]
    simp only [List.mem_cons, List.not_mem_nil, or_false] at hd
    omega

end

/-- In reset, or once a cause holds, a further cause does nothing. -/
theorem goFatal_held {s : State} (cause : Nat) (h : s.health.fatal.isSome = true ∨ s.pins.aonRst = true ∨ s.pins.sysRst = true) : goFatal cause s = s :=
  if_pos h

/-! ## The watchdogs -/

theorem mem_liveCps {s : State} (hrun : voxubRuns s = true) (k : Nat) : k ∈ liveCps s ↔ k < 4 ∧ k ∉ s.health.wdog := by
  simp [liveCps, hrun]

/-- A watchdog's expiry marked. -/
def watched (c : Nat) (s : State) : State := { s with health := { s.health with wdog := nsAdd s.health.wdog c } }

theorem watchdog_eq {c : Nat} {s : State} (hc : c < 4) (hrun : voxubRuns s = true) :
    watchdog c s = if liveCps (watched c s) = [] then goFatal pfWatchdog (watched c s) else watched c s :=
  if_neg (by simp [hrun, hc])

/-- Another processor that still runs keeps the device alive. -/
theorem watchdog_other {c k : Nat} {s : State} (hc : c < 4) (hrun : voxubRuns s = true) (hk : k < 4) (hkc : k ≠ c) (hlive : k ∉ s.health.wdog) :
    watchdog c s = watched c s := by
  rw [watchdog_eq hc hrun, if_neg]
  have hmem : k ∈ liveCps (watched c s) := (mem_liveCps (s := watched c s) hrun k).mpr ⟨hk, fun h => ((mem_nsAdd _ _ _).mp h).elim hkc hlive⟩
  exact List.ne_nil_of_mem hmem

theorem watched_last {c : Nat} {s : State} (hrun : voxubRuns s = true) (hall : ∀ k < 4, k ≠ c → k ∈ s.health.wdog) : liveCps (watched c s) = [] := by
  refine List.eq_nil_iff_forall_not_mem.mpr fun k hk => ?_
  obtain ⟨hlt, hout⟩ := (mem_liveCps (s := watched c s) hrun k).mp hk
  refine hout ((mem_nsAdd _ _ _).mpr ?_)
  by_cases hkc : k = c
  · exact .inl hkc
  · exact .inr (hall k hlt hkc)

theorem sysRst_of_voxubRuns {s : State} (h : voxubRuns s = true) : s.pins.sysRst = false := by
  simp only [voxubRuns, Bool.and_eq_true, Bool.not_eq_true'] at h
  exact h.1.1.2

/-- The last processor's watchdog is a package-fatal cause that nobody acts on. -/
theorem watchdog_last {c : Nat} {s : State} (hc : c < 4) (hrun : voxubRuns s = true) (hall : ∀ k < 4, k ≠ c → k ∈ s.health.wdog)
    (haon : s.pins.aonRst = false) (hnone : s.health.fatal = none) : watchdog c s = fatalPosted 6 (watched c s) := by
  rw [watchdog_eq hc hrun, if_pos (watched_last hrun hall)]
  exact goFatal_dead (s := watched c s) haon (sysRst_of_voxubRuns hrun) hnone 6 (watched_last hrun hall)

/-! ## The acknowledgement -/

theorem fatalTimeout_due {k : Nat} {s : State} (hk : s.health.fatal = some k) (hack : s.health.fatalAck = false) (hdue : s.health.fatalAt + 100000 ≤ time s) :
    fatalTimeout s = { s with pwr := { s.pwr with clocksStopped := true, cmpEn := false } } :=
  if_pos ⟨by simp [hk], by simp [hack], hdue⟩

theorem fatalTimeout_early {s : State} (h : time s < s.health.fatalAt + 100000) : fatalTimeout s = s :=
  if_neg fun ⟨_, _, hdue⟩ => absurd hdue (Nat.not_le.mpr h)

/-- Settles O44: a cause by `goFatal_stops`, the watchdogs by `watchdog_other` and `watchdog_last`. -/
theorem packageFatalStopsThePackage : Obligations.PackageFatalStopsThePackage := by
  unfold Obligations.PackageFatalStopsThePackage
  intro s
  refine ⟨fun haon hsys hnone hlive _ e he => ?_, fun c hc hrun => ⟨fun k hk hkc hout => ?_, fun hall haon hnone => ?_⟩,
    fun k hk hack => ⟨fun hdue => ?_, fun hearly => ?_⟩, fun h => ?_⟩
  · simp only [List.mem_cons, List.not_mem_nil, or_false] at he
    rcases he with rfl | rfl | rfl | rfl
    · exact ⟨_, rfl, goFatal_stops haon hsys hnone pfBridge hlive⟩
    · exact ⟨_, rfl, goFatal_stops haon hsys hnone pfTime hlive⟩
    · obtain ⟨hfatal, hack, hlog, hadv, hrest⟩ :=
        goFatal_stops (s := { s with pins := { s.pins with pwrGood := false } }) haon hsys hnone pfRail hlive
      have hsame := postAdvisory_adv_congr (s := s) (t := { s with pins := { s.pins with pwrGood := false } }) rfl 5 pfRail
      exact ⟨_, rfl, hfatal, hack, hlog, hadv.trans (congrArg (fun m : AMap Advisory => (tget {} m 5).value) hsame), hrest⟩
    · exact ⟨_, rfl, goFatal_stops haon hsys hnone pfRail hlive⟩
  · exact ⟨_, rfl, watchdog_other hc hrun hk hkc hout⟩
  · refine ⟨_, rfl, ?_⟩
    rw [watchdog_last hc hrun hall haon hnone]
    obtain ⟨-, hhealth⟩ := fatalPosted_keeps 6 (watched c s)
    exact ⟨by rw [hhealth], by rw [hhealth], fatalPosted_dists 6 (watched c s), fatalPosted_emitted 6 (watched c s)⟩
  · refine ⟨_, rfl, fatalTimeout_due hk hack hdue, ?_⟩
    rw [fatalTimeout_due hk hack hdue]
    exact ⟨by simp [voxubRuns], by simp [romServes]⟩
  · exact congrArg Host.Outcome.next (fatalTimeout_early hearly)
  · refine ⟨congrArg Host.Outcome.next (goFatal_held pfBridge h), congrArg Host.Outcome.next (goFatal_held pfTime h), fun r => congrArg Host.Outcome.next ?_⟩
    unfold when
    split
    · exact goFatal_held pfRail h
    · rfl

end Sys2Proof.Machine
end

section
/-! Debug levels, the DBG_ commands, zeroising and the test access port (R433–R438, R462). -/

namespace Sys2Proof.Machine

/-- A list of checks that all pass yields no error. -/
theorem firstErr_all : ∀ {l : List (Bool × Err)}, l.all (fun e => !e.1) = true → firstErr l = none
  | [], _ => rfl
  | (b, e) :: l, h => by
    simp only [List.all_cons, Bool.and_eq_true, Bool.not_eq_true'] at h
    obtain ⟨hb, hl⟩ := h
    rw [firstErr_cons, hb, if_neg Bool.false_ne_true, firstErr_all hl]

/-- A device-wide command whose checks are the shared ones and its own. -/
theorem fwStep_onDevice {k : Spec} {c : FwReq} {s : State} {checks : State → List (Bool × Err)} {eff : State → State} (h : Sendable k c s)
    (hwide : k.wide = true) (hc : firstErr (checks s) = none) : fwStep k c checks eff s = .next (eff s) := by
  rw [fwStep_acts h hc, if_pos hwide]

/-- The shared checks alone. -/
theorem firstErr_head {k : Spec} {c : FwReq} {s : State} {fmt : Bool} (h : Sendable k c s) (hfmt : fmt = true) :
    firstErr (headChecks k fmt true c s) = none := by
  rw [hfmt, headChecks_pass h]

/-- An event that is not fatal sets no flag. -/
theorem emit_fns_plain (s : State) (a b c d : Nat) (l : List Nat) (h : c ≠ 3) : (emit s a b c d l).fns = s.fns := by
  rw [emit_plain s a b c d l h]

/-! ## Changes of level (R435) -/

/-- The DEBUG_HISTORY entry of a change of level. -/
def levelEntry (s : State) (new : Nat) (by_ : Session) (cause : Nat) : HistEntry :=
  { boots := s.sec.boots.toNat, level := new, jtag := by_.jtag, signer := by_.signer, lifecycle := s.sec.lifecycle, cause := cause }

section
variable (old new cause : Nat) (by_ : Session) (s : State)

theorem recordLevel_sec : (recordLevel old new by_ cause s).sec = { s.sec with
    history := (s.sec.history ++ [levelEntry s new by_ cause]).drop ((s.sec.history ++ [levelEntry s new by_ cause]).length - 4096)
    histControl := s.sec.histControl + b2n (cause == 0 && new == 2)
    histScan := s.sec.histScan + b2n (cause == 0 && new == 3) } := by
  unfold recordLevel
  rw [emit_sec]
  rfl

theorem recordLevel_emitted : (recordLevel old new by_ cause s).emitted =
    s.emitted ++ [⟨s.now, 0x886, 0x283, 1, 0xFF, [old, new, b2n by_.jtag, by_.signer, cause]⟩] := by
  unfold recordLevel
  rw [emit_emitted]
  rfl

/-- A recorded change leaves everything but the security state, the store and the log. -/
theorem recordLevel_keeps : let t := recordLevel old new by_ cause s
    t.dists = s.dists ∧ t.fns = s.fns ∧ t.backs = s.backs ∧ t.out = s.out ∧ t.pwr = s.pwr ∧ t.links = s.links := by
  unfold recordLevel
  dsimp only
  rw [emit_plain _ _ _ _ _ _ (by decide)]
  exact ⟨rfl, rfl, rfl, rfl, rfl, rfl⟩

end

theorem dbgLevel_of_session {s : State} {x : Session} (h : s.sec.session = some x) : dbgLevel s = x.level := by
  rw [dbgLevel, h]

/-- The latest entry is the one appended. -/
theorem history_last (l : List HistEntry) (e : HistEntry) : ((l ++ [e]).drop ((l ++ [e]).length - 4096)).getLast? = some e := by
  rw [List.getLast?_drop, if_neg (by simp only [List.length_append, List.length_singleton]; omega), List.getLast?_concat]

/-! ## A session that takes effect -/

theorem openSession_eq (x : Session) (s : State) : openSession x s =
    recordLevel (dbgLevel s) x.level x 0 { s with sec := { s.sec with session := some x, scanned := s.sec.scanned || x.level == 3 } } := rfl

theorem openSession_session (x : Session) (s : State) : (openSession x s).sec.session = some x := by
  rw [openSession_eq, recordLevel_sec]

theorem openSession_sec (x : Session) (s : State) : (openSession x s).sec.nonce = s.sec.nonce ∧ (openSession x s).sec.keys = s.sec.keys ∧
    (openSession x s).sec.zeroising = s.sec.zeroising := by
  rw [openSession_eq, recordLevel_sec]
  exact ⟨rfl, rfl, rfl⟩

theorem openSession_history (x : Session) (s : State) :
    (openSession x s).sec.history.getLast? = some ⟨s.sec.boots.toNat, x.level, x.jtag, x.signer, s.sec.lifecycle, 0⟩ := by
  rw [openSession_eq, recordLevel_sec]
  dsimp only
  rw [history_last]
  rfl

theorem openSession_logs (x : Session) (s : State) :
    logs s (openSession x s) [(0x886, 0x283, 1, 0xFF, [dbgLevel s, x.level, b2n x.jtag, x.signer, 0])] := by
  rw [openSession_eq, logs, recordLevel_emitted]
  rfl

theorem openSession_dists (x : Session) (s : State) : (openSession x s).dists = s.dists := by
  rw [openSession_eq, (recordLevel_keeps _ _ _ _ _).1]

theorem openSession_backs_fns (x : Session) (s : State) : (openSession x s).backs = s.backs ∧ (openSession x s).fns = s.fns ∧ (openSession x s).out = s.out := by
  obtain ⟨-, hfns, hbacks, hout, -⟩ :=
    recordLevel_keeps (dbgLevel s) x.level 0 x { s with sec := { s.sec with session := some x, scanned := s.sec.scanned || x.level == 3 } }
  exact ⟨hbacks, hfns, hout⟩

/-! ## A session that ends (R437) -/

theorem dropHalts_keeps (s : State) : (dropHalts s).sec = s.sec ∧ (dropHalts s).emitted = s.emitted ∧ (dropHalts s).fns = s.fns ∧ (dropHalts s).pwr = s.pwr ∧
    (dropHalts s).links = s.links := by
  unfold dropHalts
  split
  · exact ⟨rfl, rfl, rfl, rfl, rfl⟩
  · exact ⟨rfl, rfl, rfl, rfl, rfl⟩

/-- The session that stays as another ends: none at CLOSED. -/
def sessionAfter (new : Nat) (x : Session) : Option Session :=
  if new = 0 then none else some { level := new, jtag := x.jtag, signer := 0, expires := none }

/-- The change of level of a session that ends, before the halts that it granted. -/
def sessionLeft (cause new : Nat) (x : Session) (s : State) : State :=
  recordLevel x.level new x cause { s with sec := { s.sec with session := sessionAfter new x } }

theorem endSession_eq {cause new : Nat} {x : Session} {s : State} (hx : s.sec.session = some x) (hne : x.level ≠ new) :
    endSession cause new s = dropHalts (sessionLeft cause new x s) := by
  rw [endSession, hx]
  exact if_neg hne

section
variable {cause new : Nat} {x : Session} {s : State} (hx : s.sec.session = some x) (hne : x.level ≠ new)
include hx hne

theorem endSession_session : (endSession cause new s).sec.session = sessionAfter new x := by
  rw [endSession_eq hx hne, (dropHalts_keeps _).1, sessionLeft, recordLevel_sec]

theorem endSession_logs : logs s (endSession cause new s) [(0x886, 0x283, 1, 0xFF, [x.level, new, b2n x.jtag, x.signer, cause])] := by
  rw [endSession_eq hx hne, logs, (dropHalts_keeps _).2.1, sessionLeft, recordLevel_emitted]
  rfl

theorem endSession_fns : (endSession cause new s).fns = s.fns := by
  rw [endSession_eq hx hne, (dropHalts_keeps _).2.2.1, sessionLeft, (recordLevel_keeps _ _ _ _ _).2.1]

theorem endSession_level : dbgLevel (endSession cause new s) = new := by
  have hafter := endSession_session (cause := cause) hx hne
  unfold sessionAfter at hafter
  split at hafter
  · next h0 => rw [dbgLevel, hafter, h0]
  · rw [dbgLevel, hafter]

end

/-! ## Zeroising (R437) -/

theorem zeroiseBegin_frame (s : State) : (zeroiseBegin s).sec = { (disablePorts (destroyAll s)).sec with keys := false } ∧
    (zeroiseBegin s).dists = (disablePorts (destroyAll s)).dists ∧ (zeroiseBegin s).links = (disablePorts (destroyAll s)).links ∧
    (zeroiseBegin s).fns = (disablePorts (destroyAll s)).fns ∧ (zeroiseBegin s).now = (disablePorts (destroyAll s)).now := by
  unfold zeroiseBegin
  generalize disablePorts (destroyAll s) = u
  exact ⟨rfl, rfl, rfl, rfl, rfl⟩

theorem zeroMemories_frame (s : State) : (zeroMemories s).sec = (zeroiseBegin s).sec ∧ (zeroMemories s).dists = (zeroiseBegin s).dists ∧
    (zeroMemories s).fns = (zeroiseBegin s).fns ∧ (zeroMemories s).now = (zeroiseBegin s).now ∧ (zeroMemories s).backs = [] := by
  unfold zeroMemories
  generalize zeroiseBegin s = u
  exact ⟨rfl, rfl, rfl, rfl, rfl⟩

theorem zeroiseBegin_sec (s : State) : (zeroiseBegin s).sec = { s.sec with keys := false } := by
  rw [(zeroiseBegin_frame s).1, (disablePorts_calm (.refl (destroyAll s))).sec, destroyAll_sec]

theorem zeroiseBegin_empty (s : State) (d : Nat) : (getDist (zeroiseBegin s) d).state = 0 := by
  have hgoes := (disablePorts_calm (.refl (destroyAll s))).states d
  rw [destroyAll_empty] at hgoes
  rw [getDist_congr (zeroiseBegin_frame s).2.1]
  exact hgoes.empty

theorem zeroiseBegin_ports (s : State) {p : Nat} (hp : p < 24) : (getPort (zeroiseBegin s) p).state = 0 := by
  rw [getPort_congr (congrArg (·.ports) (zeroiseBegin_frame s).2.2.1)]
  exact disablePorts_state (destroyAll s) hp

theorem zeroiseBegin_epoch (s : State) : (getFn (zeroiseBegin s) 0).epoch = (getFn s 0).epoch := by
  rw [getFn_congr (zeroiseBegin_frame s).2.2.2.1, ((disablePorts_calm (.refl (destroyAll s))).answers 0).1, destroyAll_epoch]

theorem zeroMemories_sec (s : State) : (zeroMemories s).sec = { s.sec with keys := false } := (zeroMemories_frame s).1.trans (zeroiseBegin_sec s)

theorem zeroMemories_empty (s : State) (d : Nat) : (getDist (zeroMemories s) d).state = 0 := by
  rw [getDist_congr (zeroMemories_frame s).2.1, zeroiseBegin_empty]

theorem zeroMemories_epoch (s : State) : (getFn (zeroMemories s) 0).epoch = (getFn s 0).epoch := by
  rw [getFn_congr (zeroMemories_frame s).2.2.1, zeroiseBegin_epoch]

theorem removeFn_now (d : Nat) (s : State) : (removeFn d s).now = s.now := ((anchor_eq_iff _ _).mp (removeFn_anchor d s)).2.2.1

theorem destroyAll_now (s : State) : (destroyAll s).now = s.now := by
  rw [destroyAll_eq]
  refine foldl_keeps (f := State.now) (fun u e => ?_) _ _
  unfold destroyed
  split
  · rfl
  · rw [removeFn_now]
    exact ((anchor_eq_iff _ _).mp (removeDist_anchor e.1 u)).2.2.1

theorem zeroMemories_now (s : State) : (zeroMemories s).now = s.now := by
  rw [(zeroMemories_frame s).2.2.2.1, (zeroiseBegin_frame s).2.2.2.2, ((anchor_eq_iff _ _).mp (disablePorts_anchor (destroyAll s))).2.2.1, destroyAll_now]


/-! ## DBG_NONCE -/

theorem dbgNonce_acts {c : FwReq} {s : State} (h : Sendable specDbgNonce c s) (hp : c.payload = []) :
    exec (.dbgNonce c) s = .next (replyOk (newNonce s) c 0x0C00 (nonceBytes (newNonce s))) :=
  fwStep_onDevice h rfl (firstErr_head h (by simp [hp]))

theorem nonceBytes_congr {s t : State} (h : t.sec = s.sec) : nonceBytes t = nonceBytes s := by rw [nonceBytes, nonceBytes, h]

/-! ## DBG_OPEN -/

/-- The nonce that a token uses up (R436). -/
def nonceSpent (p : Bytes) (s : State) : State := if needsToken s.sec.lifecycle (fld p 1 0) = true then useNonce s else s

theorem nonceSpent_keeps (p : Bytes) (s : State) : (nonceSpent p s).emitted = s.emitted ∧ (nonceSpent p s).dists = s.dists ∧ (nonceSpent p s).fns = s.fns ∧
    (nonceSpent p s).now = s.now ∧ (nonceSpent p s).out = s.out ∧ (nonceSpent p s).pwr = s.pwr := by
  unfold nonceSpent
  split
  · exact ⟨rfl, rfl, rfl, rfl, rfl, rfl⟩
  · exact ⟨rfl, rfl, rfl, rfl, rfl, rfl⟩

theorem nonceSpent_sec (p : Bytes) (s : State) : (nonceSpent p s).sec.session = s.sec.session ∧ (nonceSpent p s).sec.boots = s.sec.boots ∧
    (nonceSpent p s).sec.lifecycle = s.sec.lifecycle ∧ (needsToken s.sec.lifecycle (fld p 1 0) = true → (nonceSpent p s).sec.nonce = none) := by
  unfold nonceSpent
  split
  · exact ⟨rfl, rfl, rfl, fun _ => rfl⟩
  · next h => exact ⟨rfl, rfl, rfl, fun hn => absurd hn h⟩

/-- A level below SCAN changes at once. -/
theorem openAct_below {p : Bytes} (h3 : fld p 1 0 ≠ 3) (jtag : Bool) (pend : Option Pend) (s : State) :
    openAct p jtag pend s = openSession (openedBy s p jtag) (nonceSpent p s) := by
  have hone : ∀ u : State, openTwoStage u p = false := fun u => by simp [openTwoStage, h3]
  unfold openAct
  dsimp only
  rw [if_neg h3, if_neg h3, if_neg (by rw [hone]; exact Bool.false_ne_true)]
  rfl

theorem openedBy_level (s : State) (p : Bytes) (jtag : Bool) : (openedBy s p jtag).level = fld p 1 0 := by
  unfold openedBy
  dsimp only
  split
  · rfl
  · rfl

theorem openedBy_jtag (s : State) (p : Bytes) (jtag : Bool) : (openedBy s p jtag).jtag = jtag := by
  unfold openedBy
  dsimp only
  split
  · rfl
  · rfl

/-- What a DBG_OPEN below SCAN does, whoever issues it (R435). -/
theorem openAct_level {p : Bytes} (h3 : fld p 1 0 ≠ 3) (jtag : Bool) (pend : Option Pend) (s : State) : let t := openAct p jtag pend s
    let x := openedBy s p jtag
    t.sec.session = some x ∧ t.sec.history.getLast? = some ⟨s.sec.boots.toNat, fld p 1 0, jtag, x.signer, s.sec.lifecycle, 0⟩ ∧
    logs s t [(0x886, 0x283, 1, 0xFF, [dbgLevel s, fld p 1 0, b2n jtag, x.signer, 0])] ∧ t.dists = s.dists ∧ t.out = s.out ∧
    (needsToken s.sec.lifecycle (fld p 1 0) = true → t.sec.nonce = none) := by
  dsimp only
  rw [openAct_below h3]
  obtain ⟨hlog, hdists, -, hnow, hout, -⟩ := nonceSpent_keeps p s
  obtain ⟨hsession, hboots, hlife, hnonce⟩ := nonceSpent_sec p s
  have hlevel : dbgLevel (nonceSpent p s) = dbgLevel s := by rw [dbgLevel, dbgLevel, hsession]
  have hlogs := openSession_logs (openedBy s p jtag) (nonceSpent p s)
  have hhist := openSession_history (openedBy s p jtag) (nonceSpent p s)
  rw [logs, hlog, hnow, hlevel, openedBy_level, openedBy_jtag] at hlogs
  rw [hboots, hlife, openedBy_level, openedBy_jtag] at hhist
  refine ⟨openSession_session _ _, hhist, hlogs, (openSession_dists _ _).trans hdists, (openSession_backs_fns _ _).2.2.trans hout, fun hn => ?_⟩
  rw [(openSession_sec _ _).1, hnonce hn]

section
variable {c : FwReq} {s : State} (h : Sendable specDbgOpen c s) (hform : openForm s c.payload = true)
  (hchecks : (openChecks s c.payload).all (fun e => !e.1) = true)
include h hform hchecks

theorem dbgOpen_acts : exec (.dbgOpen c) s = .next (match openToken s c.payload with
    | some n => refuse (rejectToken n s) c 0x0C01 denied
    | none =>
      if openTwoStage s c.payload then openAct c.payload false (some (pendOf s c 0x0C01)) (replyAccepted s c 0x0C01)
      else replyOk (openAct c.payload false none s) c 0x0C01 []) :=
  fwStep_onDevice h rfl ((firstErr_shared h hform rfl _).trans (firstErr_all hchecks))

theorem dbgOpen_rejects {n : Nat} (hn : openToken s c.payload = some n) : exec (.dbgOpen c) s = .next (refuse (rejectToken n s) c 0x0C01 denied) := by
  rw [dbgOpen_acts h hform hchecks, hn]

theorem dbgOpen_opens (hnone : openToken s c.payload = none) (hone : openTwoStage s c.payload = false) :
    exec (.dbgOpen c) s = .next (replyOk (openAct c.payload false none s) c 0x0C01 []) := by
  rw [dbgOpen_acts h hform hchecks, hnone, hone]
  rfl

theorem dbgOpen_begins (hnone : openToken s c.payload = none) (htwo : openTwoStage s c.payload = true) :
    exec (.dbgOpen c) s = .next (openAct c.payload false (some (pendOf s c 0x0C01)) (replyAccepted s c 0x0C01)) := by
  rw [dbgOpen_acts h hform hchecks, hnone, htwo]
  rfl

end

theorem rejectToken_emitted (n : Nat) (s : State) : (rejectToken n s).emitted = s.emitted ++ [⟨s.now, 0x886, 0x284, 1, 0xFF, [n]⟩] := by
  unfold rejectToken
  rw [emit_emitted]
  rfl

theorem rejectToken_sec (n : Nat) (s : State) : (rejectToken n s).sec = { s.sec with nonce := none } := by
  unfold rejectToken
  rw [emit_sec]
  rfl

theorem rejectToken_keeps (n : Nat) (s : State) : (rejectToken n s).fns = s.fns ∧ (rejectToken n s).dists = s.dists ∧ (rejectToken n s).out = s.out ∧
    (rejectToken n s).nvm = s.nvm := by
  unfold rejectToken
  rw [emit_plain _ _ _ _ _ _ (by decide)]
  exact ⟨rfl, rfl, rfl, rfl⟩

/-! ## The way to SCAN -/

theorem openTwoStage_scan {s : State} {p : Bytes} (h : openTwoStage s p = true) : fld p 1 0 = 3 ∧ needsToken s.sec.lifecycle (fld p 1 0) = true := by
  simp only [openTwoStage, Bool.and_eq_true, Bool.or_eq_true, beq_iff_eq] at h
  obtain ⟨h3, hlife⟩ := h
  refine ⟨h3, ?_⟩
  rcases hlife with hlife | hlife <;> simp [needsToken, h3, hlife]

/-- The state in which the entry to SCAN zeroises: its nonce is used up, and IDLE is left. -/
def scanBegun (p : Bytes) (s : State) : State := idleLeave 0 (nonceSpent p s)

theorem idleLeave_sec (us : Nat) (s : State) : (idleLeave us s).sec = s.sec := by
  unfold idleLeave
  split
  · rw [emit_sec]
  · rfl

/-- The zeroising under way on the way to SCAN. -/
def scanSet (pend : Option Pend) (x : Session) (u : State) : State := { u with sec := { u.sec with zeroising := some (pend, .scan x), scanned := true } }

theorem openAct_scan {p : Bytes} {s : State} (htwo : openTwoStage s p = true) (jtag : Bool) (pend : Option Pend) :
    openAct p jtag pend s = scanSet pend (openedBy s p jtag) (zeroiseBegin (scanBegun p s)) := by
  have h3 := (openTwoStage_scan htwo).1
  have hbegun : openTwoStage (idleLeave 0 (nonceSpent p s)) p = true := by
    rw [← htwo, openTwoStage, openTwoStage, idleLeave_sec, (nonceSpent_sec p s).2.2.1]
  unfold nonceSpent at hbegun
  unfold openAct
  dsimp only
  rw [if_pos h3, if_pos hbegun]
  unfold scanSet scanBegun nonceSpent
  rfl

theorem scanSet_frame (pend : Option Pend) (x : Session) (u : State) : (scanSet pend x u).dists = u.dists ∧ (scanSet pend x u).links = u.links ∧
    (scanSet pend x u).sec = { u.sec with zeroising := some (pend, .scan x), scanned := true } := ⟨rfl, rfl, rfl⟩

/-- The first stage of the entry to SCAN (R437). -/
theorem openAct_zeroises {p : Bytes} {s : State} (htwo : openTwoStage s p = true) (jtag : Bool) (pend : Option Pend) : let t := openAct p jtag pend s
    t.sec.keys = false ∧ t.sec.nonce = none ∧ t.sec.zeroising = some (pend, .scan (openedBy s p jtag)) ∧ t.sec.session = s.sec.session ∧
    (∀ d, (getDist t d).state = 0) ∧ ∀ q < 24, (getPort t q).state = 0 := by
  dsimp only
  obtain ⟨hsession, -, -, hnonce⟩ := nonceSpent_sec p s
  have hsec : (zeroiseBegin (scanBegun p s)).sec = { (nonceSpent p s).sec with keys := false } := by
    rw [zeroiseBegin_sec, scanBegun, idleLeave_sec]
  obtain ⟨hdists, hlinks, hset⟩ := scanSet_frame pend (openedBy s p jtag) (zeroiseBegin (scanBegun p s))
  rw [openAct_scan htwo, hset, hsec]
  refine ⟨rfl, hnonce (openTwoStage_scan htwo).2, rfl, hsession, fun d => ?_, fun q hq => ?_⟩
  · rw [getDist_congr hdists, zeroiseBegin_empty]
  · rw [getPort_congr (congrArg (·.ports) hlinks), zeroiseBegin_ports _ hq]

theorem openedBy_congr {s t : State} (hsec : t.sec = s.sec) (hnow : t.now = s.now) (p : Bytes) (jtag : Bool) : openedBy t p jtag = openedBy s p jtag := by
  unfold openedBy time
  rw [hsec, hnow]

/-! ## ZEROISE_DONE -/

section
variable {s : State} (us : Nat)

/-- The state in which zeroising is over and memories hold zeros. -/
def zeroised (s : State) : State := zeroMemories { s with sec := { s.sec with zeroising := none } }

theorem zeroised_sec (s : State) : (zeroised s).sec = { s.sec with zeroising := none, keys := false } := by
  unfold zeroised
  rw [zeroMemories_sec]

/-- The last step on the way to SCAN. -/
def scanEntered (x : Session) (us : Nat) (s : State) : State := emit (openSession x (zeroised s)) secSource 0x285 sevNotice 0xFF [us]

theorem zeroiseDone_scan {w : Pend} {x : Session} (h : s.sec.zeroising = some (some w, .scan x)) :
    exec (.zeroiseDone us) s = .next (finishOk (scanEntered x us s) w []) := by
  show execZeroiseDone us s = _
  rw [execZeroiseDone, h]
  rfl

theorem zeroiseDone_toReturn {w : Option Pend} (h : s.sec.zeroising = some (w, .toReturn)) : exec (.zeroiseDone us) s =
    .next (emit (zeroMemories { s with sec := { s.sec with zeroising := none, returning := w } }) secSource 0x285 sevNotice 0xFF [us]) := by
  show execZeroiseDone us s = _
  rw [execZeroiseDone, h]

theorem scanEntered_state (x : Session) (s : State) : let t := scanEntered x us s
    dbgLevel t = x.level ∧ t.sec.keys = false ∧ t.sec.zeroising = none ∧ t.backs = [] ∧ (∀ d, (getDist t d).state = 0) ∧
    (⟨s.now, 0x886, 0x285, 1, 0xFF, [us]⟩ : EventRec) ∈ t.emitted ∧ (getFn t 0).epoch = (getFn s 0).epoch := by
  obtain ⟨hbacks, hfns, -⟩ := openSession_backs_fns x (zeroised s)
  obtain ⟨-, hkeys, hzero⟩ := openSession_sec x (zeroised s)
  have hnow : (openSession x (zeroised s)).now = s.now := by
    rw [((anchor_eq_iff _ _).mp (openSession_anchor x (zeroised s))).2.2.1, zeroised, zeroMemories_now]
  rw [zeroised_sec] at hkeys hzero
  dsimp only
  unfold scanEntered
  refine ⟨?_, ?_, ?_, ?_, fun d => ?_, ?_, ?_⟩
  · rw [dbgLevel, emit_sec, openSession_session]
  · rw [emit_sec, hkeys]
  · rw [emit_sec, hzero]
  · rw [emit_backs, hbacks, zeroised, (zeroMemories_frame _).2.2.2.2]
  · rw [getDist_emit, getDist_congr (openSession_dists _ _), zeroised, zeroMemories_empty]
  · rw [emit_emitted, hnow]
    exact List.mem_append_right _ (List.mem_singleton_self _)
  · rw [getFn_congr (emit_fns_plain _ _ _ _ _ _ (by decide)), getFn_congr hfns, zeroised, zeroMemories_epoch]
    rfl

end

/-! ## DBG_CLOSE and expiries -/

theorem dbgClose_acts {c : FwReq} {s : State} (h : Sendable specDbgClose c s) (hp : c.payload = []) (hopen : dbgLevel s ≠ 0) :
    exec (.dbgClose c) s = .next (replyOk (endSession dcClose 0 s) c 0x0C02 []) :=
  fwStep_onDevice h rfl ((firstErr_shared h (by simp [hp]) rfl _).trans (firstErr_passed (by simpa using hopen)))

theorem sessionOver_iff {s : State} {x : Session} {u : Nat} (hx : s.sec.session = some x) (hu : x.expires = some u) :
    sessionOver s = decide (u ≤ time s) := by
  simp [sessionOver, hx, hu]

/-! ## DBG_ACCESS -/

theorem dbgAccess_acts {c : FwReq} {s : State} (h : Sendable specDbgAccess c s) (hform : accessForm c.payload = true)
    (hchecks : (accessChecks s (accessOf c.payload)).all (fun e => !e.1) = true) : exec (.dbgAccess c) s =
      .next (replyOk (accessAct (accessOf c.payload) s).2 c 0x0C03 (accessAct (accessOf c.payload) s).1) :=
  fwStep_onDevice h rfl ((firstErr_shared h hform rfl _).trans (firstErr_all hchecks))

theorem idleLeave_active {s : State} (h : s.pwr.state = 0) (us : Nat) : idleLeave us s = s := if_neg (by rw [h]; decide)

/-- The data of a write has the length that its field says (R444). -/
theorem accessForm_data {p : Bytes} (h : accessForm p = true) (hop : (accessOf p).op = 1) : (accessOf p).data.length = (accessOf p).len := by
  simp only [accessForm, Bool.and_eq_true, beq_iff_eq, opHasData, hop] at h
  have hlen : p.length = 24 + (accessOf p).len := h.2
  rw [accessOf, List.length_drop, ← accessOf]
  omega

section
variable {s : State} {a : Access} (hactive : s.pwr.state = 0)
include hactive

theorem accessAct_read (hop : a.op = 0) : accessAct a s = accessRead a s := by
  unfold accessAct
  rw [idleLeave_active hactive]
  exact if_pos hop

theorem accessAct_write (hop : a.op = 1) : accessAct a s = ([], accessWrite a s) := by
  unfold accessAct
  rw [idleLeave_active hactive, if_neg (by rw [hop]; decide), if_pos hop]

theorem accessAct_halt (hop : a.op = 2) : accessAct a s = ([], modDist s a.dist fun x => { x with dbgHalt := true, dbgSteps := 0 }) := by
  unfold accessAct
  rw [idleLeave_active hactive, if_neg (by rw [hop]; decide), if_neg (by rw [hop]; decide), if_pos hop]

theorem accessAct_resume (hop : a.op = 3) : accessAct a s = ([], modDist s a.dist fun x => { x with dbgHalt := false, dbgSteps := 0 }) := by
  unfold accessAct
  rw [idleLeave_active hactive, if_neg (by rw [hop]; decide), if_neg (by rw [hop]; decide), if_neg (by rw [hop]; decide), if_pos hop]

theorem accessAct_step (hop : a.op = 4) : accessAct a s = ([], modDist s a.dist fun x => { x with dbgSteps := x.dbgSteps + b2n x.dbgHalt }) := by
  unfold accessAct
  rw [idleLeave_active hactive, if_neg (by rw [hop]; decide), if_neg (by rw [hop]; decide), if_neg (by rw [hop]; decide), if_neg (by rw [hop]; decide),
    if_pos hop]

end

/-- A core's local SRAM as a read returns it. -/
theorem accessRead_sram {s : State} {a : Access} (h : a.space = 1) : accessRead a s = (memRead (getCore s a.dist a.core).sram a.addr a.len, s) := if_pos h

theorem accessRead_segment {s : State} {a : Access} {k : Nat} {e : Seg} (h : a.space = 3) (he : segAt s a.dist a.addr = some (k, e)) :
    accessRead a s = (segRead s e (a.addr - e.dbase) a.len, s) := by
  unfold accessRead
  rw [if_neg (by rw [h]; decide), if_neg (by rw [h]; decide), if_pos h, he]

theorem accessWrite_sram {s : State} {a : Access} (h : a.space = 1) :
    accessWrite a s = modCore s a.dist a.core fun c => sramWrite c a.addr a.data := if_pos h

theorem accessWrite_segment {s : State} {a : Access} {k : Nat} {e : Seg} (h : a.space = 3) (he : segAt s a.dist a.addr = some (k, e)) :
    accessWrite a s = segWrite s e (a.addr - e.dbase) a.data := by
  unfold accessWrite
  rw [if_neg (by rw [h]; decide), if_neg (by rw [h]; decide), he]

theorem sramWrite_data (c : Core) (a : Nat) (d : Bytes) : (sramWrite c a d).sram = memWrite c.sram a d := by
  unfold sramWrite
  split
  · next h => rw [h, memWrite]
  · rfl

theorem getBack_replyOk (s : State) (c : FwReq) (cmd : Nat) (p : Bytes) (b : Nat) : getBack (replyOk s c cmd p) b = getBack s b := by
  rw [getBack, getBack, replyOk_backs]

/-- What a segment write stores a segment read returns. -/
theorem segRead_segWrite {s : State} {e : Seg} (htier : e.tier ≠ 3) (hwf : memWf (getBack s e.bid).data = true) (off : Nat) (d : Bytes) :
    segRead (segWrite s e off d) e off d.length = d := by
  rw [segRead, if_neg htier, segWrite_data htier, memRead_memWrite d off hwf]

theorem segWrite_fns (s : State) (e : Seg) (off : Nat) (d : Bytes) : (segWrite s e off d).fns = s.fns := by
  unfold segWrite
  split
  · rfl
  · rfl

/-! ## DBG_INFO -/

/-- The reply data of DBG_INFO. -/
def sessionReport (s : State) : Bytes :=
  pack 16 [(2, dbgLevel s), (1, match s.sec.session with
    | some x => b2n x.jtag
    | none => 0), (2, match s.sec.session with
    | some x => x.signer
    | none => 0), (1, b2n s.sec.keys), (58, 0), (64, (s.sec.session.bind (·.expires)).getD 0)]

theorem dbgInfo_acts {c : FwReq} {s : State} (h : Sendable specDbgInfo c s) (hp : c.payload = []) :
    exec (.dbgInfo c) s = .next (replyOk s c 0x0C04 (sessionReport s)) :=
  fwStep_onDevice h rfl (firstErr_head h (by simp [hp]))

/-! ## The DBG_ commands (O46) -/

/-- A DBG_ACCESS that changes its district leaves what the change gives. -/
theorem replyOk_modDist_getDist (s : State) (c : FwReq) (d cmd : Nat) (g : Dist → Dist) (p : Bytes) :
    getDist (replyOk (modDist s d g) c cmd p) d = g (getDist s d) := by
  rw [getDist_congr (replyOk_dists _ _ _ _), getDist_modDist_self]

/-- The clauses on DBG_OPEN. -/
theorem dbgOpen_clauses {c : FwReq} {s : State} (h : Sendable specDbgOpen c s) (hform : openForm s c.payload = true)
    (hchecks : (openChecks s c.payload).all (fun e => !e.1) = true) : let p := c.payload; let l := fld p 1 0
    (openToken s p = none → openTwoStage s p = false → l ≠ 3 → goesTo (exec (.dbgOpen c) s) fun t =>
      dbgLevel t = l ∧ okReply c 0x0C01 [] ∈ (getFn t c.fn).replies ∧ t.sec.session = some (openedBy s p false) ∧
      t.sec.history.getLast? = some ⟨s.sec.boots.toNat, l, false, (openedBy s p false).signer, s.sec.lifecycle, 0⟩ ∧
      logs s t [(0x886, 0x283, 1, 0xFF, [dbgLevel s, l, 0, (openedBy s p false).signer, 0])] ∧ t.dists = s.dists ∧
      (needsToken s.sec.lifecycle l = true → t.sec.nonce = none)) ∧
    (openToken s p = none → openTwoStage s p = true → (s.dists.map (·.1)).Nodup → goesTo (exec (.dbgOpen c) s) fun t =>
      t.sec.keys = false ∧ t.sec.nonce = none ∧ t.sec.zeroising = some (some (pendOf s c 0x0C01), .scan (openedBy s p false)) ∧
      t.sec.session = s.sec.session ∧ (∀ d, (getDist t d).state = 0) ∧ ∀ q < 24, (getPort t q).state = 0) ∧
    (∀ n, openToken s p = some n → goesTo (exec (.dbgOpen c) s) fun t =>
      repliesAdd s t c.fn [errReply c 0x0C01 denied] ∧ t.sec = { s.sec with nonce := none } ∧ logs s t [(0x886, 0x284, 1, 0xFF, [n])]) := by
  dsimp only
  refine ⟨fun hnone hone h3 => ⟨_, dbgOpen_opens h hform hchecks hnone hone, ?_⟩, fun hnone htwo _ => ⟨_, dbgOpen_begins h hform hchecks hnone htwo, ?_⟩,
    fun n hn => ⟨_, dbgOpen_rejects h hform hchecks hn, ?_⟩⟩
  · obtain ⟨hsession, hhist, hlogs, hdists, -, hnonce⟩ := openAct_level h3 false none s
    have hlevel : dbgLevel (replyOk (openAct c.payload false none s) c 0x0C01 []) = fld c.payload 1 0 := by
      rw [dbgLevel, replyOk_sec, hsession]
      exact openedBy_level s c.payload false
    refine ⟨hlevel, okReply_mem _ _ _ _, ?_, ?_, ?_, ?_, ?_⟩
    · rw [replyOk_sec, hsession]
    · rw [replyOk_sec, hhist]
    · rw [logs, replyOk_emitted]
      exact hlogs
    · rw [replyOk_dists, hdists]
    · rw [replyOk_sec]
      exact hnonce
  · have hsec : (replyAccepted s c 0x0C01).sec = s.sec := replyAccepted_sec _ _ _
    have htwo' : openTwoStage (replyAccepted s c 0x0C01) c.payload = true := by
      rw [openTwoStage, hsec]
      exact htwo
    have hresult := openAct_zeroises htwo' false (some (pendOf s c 0x0C01))
    rw [openedBy_congr hsec (replyAccepted_now _ _ _), hsec] at hresult
    exact hresult
  · refine ⟨?_, ?_, ?_⟩
    · exact repliesAdd_of_fns_left (refuse_adds (rejectToken n s) c 0x0C01 denied) (rejectToken_keeps n s).1
    · rw [refuse_sec, rejectToken_sec]
    · rw [logs, refuse_emitted, rejectToken_emitted]
      rfl

/-- The clauses on DBG_ACCESS in ACTIVE. -/
theorem dbgAccess_clauses {c : FwReq} {s : State} (h : Sendable specDbgAccess c s) (hform : accessForm c.payload = true)
    (hchecks : (accessChecks s (accessOf c.payload)).all (fun e => !e.1) = true) (hactive : s.pwr.state = 0) : let a := accessOf c.payload
    (a.op = 0 → a.space = 1 → goesTo (exec (.dbgAccess c) s) fun t =>
      repliesAdd s t c.fn [okReply c 0x0C03 (memRead (getCore s a.dist a.core).sram a.addr a.len)] ∧ t.dists = s.dists) ∧
    (∀ k e, a.op = 0 → a.space = 3 → segAt s a.dist a.addr = some (k, e) → goesTo (exec (.dbgAccess c) s) fun t =>
      repliesAdd s t c.fn [okReply c 0x0C03 (segRead s e (a.addr - e.dbase) a.len)] ∧ t.backs = s.backs) ∧
    (a.op = 1 → a.space = 1 → memWf (getCore s a.dist a.core).sram = true → goesTo (exec (.dbgAccess c) s) fun t =>
      repliesAdd s t c.fn [okReply c 0x0C03 []] ∧ memRead (getCore t a.dist a.core).sram a.addr a.len = c.payload.drop 24) ∧
    (∀ k e, a.op = 1 → a.space = 3 → segAt s a.dist a.addr = some (k, e) → e.tier ≠ 3 → memWf (getBack s e.bid).data = true →
      goesTo (exec (.dbgAccess c) s) fun t =>
        repliesAdd s t c.fn [okReply c 0x0C03 []] ∧ segRead t e (a.addr - e.dbase) a.len = c.payload.drop 24) ∧
    (a.op = 2 → goesTo (exec (.dbgAccess c) s) fun t => repliesAdd s t c.fn [okReply c 0x0C03 []] ∧
      getDist t a.dist = { getDist s a.dist with dbgHalt := true, dbgSteps := 0 }) ∧
    (a.op = 3 → goesTo (exec (.dbgAccess c) s) fun t => repliesAdd s t c.fn [okReply c 0x0C03 []] ∧
      getDist t a.dist = { getDist s a.dist with dbgHalt := false, dbgSteps := 0 }) ∧
    (a.op = 4 → (getDist s a.dist).dbgHalt = true → goesTo (exec (.dbgAccess c) s) fun t => repliesAdd s t c.fn [okReply c 0x0C03 []] ∧
      getDist t a.dist = { getDist s a.dist with dbgSteps := (getDist s a.dist).dbgSteps + 1 }) := by
  dsimp only
  have hact := dbgAccess_acts h hform hchecks
  refine ⟨fun hop hspace => ?_, fun k e hop hspace he => ?_, fun hop hspace hwf => ?_, fun k e hop hspace he htier hwf => ?_, fun hop => ?_,
    fun hop => ?_, fun hop hhalt => ?_⟩
  · rw [accessAct_read hactive hop, accessRead_sram hspace] at hact
    exact ⟨_, hact, replyOk_adds _ _ _ _, replyOk_dists _ _ _ _⟩
  · rw [accessAct_read hactive hop, accessRead_segment hspace he] at hact
    exact ⟨_, hact, replyOk_adds _ _ _ _, replyOk_backs _ _ _ _⟩
  · rw [accessAct_write hactive hop, accessWrite_sram hspace] at hact
    refine ⟨_, hact, replyOk_adds (modCore _ _ _ _) _ _ _, ?_⟩
    rw [getCore_of_dists (replyOk_dists _ _ _ _), getCore_modCore_self, sramWrite_data, ← accessForm_data hform hop, memRead_memWrite _ _ hwf]
    rfl
  · rw [accessAct_write hactive hop, accessWrite_segment hspace he] at hact
    refine ⟨_, hact, repliesAdd_of_fns_left (replyOk_adds _ _ _ _) (segWrite_fns _ _ _ _), ?_⟩
    rw [segRead, if_neg htier, getBack_replyOk, segWrite_data htier, ← accessForm_data hform hop, memRead_memWrite _ _ hwf]
    rfl
  · rw [accessAct_halt hactive hop] at hact
    exact ⟨_, hact, replyOk_modDist_adds _ _ _ _ _ _, replyOk_modDist_getDist _ _ _ _ _ _⟩
  · rw [accessAct_resume hactive hop] at hact
    exact ⟨_, hact, replyOk_modDist_adds _ _ _ _ _ _, replyOk_modDist_getDist _ _ _ _ _ _⟩
  · rw [accessAct_step hactive hop] at hact
    refine ⟨_, hact, replyOk_modDist_adds _ _ _ _ _ _, (replyOk_modDist_getDist _ _ _ _ _ _).trans ?_⟩
    rw [hhalt]
    rfl

/-- Settles O46: each command by its `_acts` lemma, the entry to SCAN by `openAct_zeroises` and `scanEntered_state`. -/
theorem debugCommandsComplete : Obligations.DebugCommandsComplete := by
  unfold Obligations.DebugCommandsComplete
  intro c s
  refine ⟨fun h hp => ⟨_, dbgNonce_acts h hp, ?_⟩, fun h hform hchecks => dbgOpen_clauses h hform hchecks, fun x hx hne h hp => ?_,
    fun h hform hchecks hactive => dbgAccess_clauses h hform hchecks hactive, fun h hp => ⟨_, dbgInfo_acts h hp, ?_⟩, fun w x us hz hfn he hlevel _ => ?_,
    fun w us hz => ⟨_, zeroiseDone_toReturn us hz, ?_⟩, fun n u hn => ⟨fun hdue => ?_, fun hearly => ?_⟩, fun x u hx hne hu hrst => ⟨fun hdue => ?_, fun hearly => ?_⟩⟩
  · refine ⟨?_, ?_, ?_, replyOk_dists _ _ _ _⟩
    · rw [replyOk_sec]
      rfl
    · rw [nonceBytes_congr (replyOk_sec _ _ _ _)]
      exact replyOk_adds (newNonce s) c 0x0C00 _
    · rw [replyOk_sec]
      rfl
  · have hlevel : dbgLevel s ≠ 0 := by rw [dbgLevel_of_session hx]; exact hne
    refine ⟨_, dbgClose_acts h hp hlevel, ?_, ?_, ?_, ?_⟩
    · rw [dbgLevel, replyOk_sec, ← dbgLevel, endSession_level hx hne]
    · rw [replyOk_sec, endSession_session hx hne]
      rfl
    · exact repliesAdd_of_fns_left (replyOk_adds _ _ _ _) (endSession_fns hx hne)
    · rw [logs, replyOk_emitted]
      exact endSession_logs hx hne
  · refine ⟨_, replyOk_adds _ _ _ _, ?_, ?_, ?_, replyOk_sec _ _ _ _⟩
    · exact fld_pack_field [] rfl rfl rfl (by decide) (by decide)
    · refine (fld_pack_field (hi := 5) (lo := 5) [_, _, _] rfl rfl rfl (by decide) (by decide)).trans ?_
      cases s.sec.keys <;> rfl
    · exact fld_pack_field [_, _, _, _, _] rfl rfl rfl (by decide) (by decide)
  · obtain ⟨hlev, hkeys, hzero, hbacks, hempty, hlog, hepoch⟩ := scanEntered_state us x s
    refine ⟨_, zeroiseDone_scan us hz, ?_, ?_, ?_, ?_, fun d => ?_, ?_, ?_⟩
    · rw [dbgLevel, finishOk_sec, ← dbgLevel, hlev, hlevel]
    · rw [finishOk_sec, hkeys]
    · rw [finishOk_sec, hzero]
    · rw [finishOk_backs, hbacks]
    · rw [getDist_finishOk, hempty]
    · rw [finishOk_emitted]
      exact hlog
    · have hadds := finish_adds (scanEntered x us s) w 0 0 [] (by rw [hfn, hepoch, he])
      rw [finishOk, hadds]
      exact List.mem_append_right _ (List.mem_singleton_self _)
  · refine ⟨?_, ?_, ?_, ?_, ?_⟩
    · rw [emit_sec, zeroMemories_sec]
    · rw [emit_sec, zeroMemories_sec]
    · rw [emit_backs, (zeroMemories_frame _).2.2.2.2]
    · rw [emit_sec, zeroMemories_sec]
    · rw [emit_emitted, zeroMemories_now]
      exact List.mem_append_right _ (List.mem_singleton_self _)
  · exact ⟨_, congrArg Host.Outcome.next (when_due useNonce s (by rw [hn]; exact decide_eq_true hdue)), rfl⟩
  · exact congrArg Host.Outcome.next (when_not_due useNonce s (by rw [hn]; exact decide_eq_false (Nat.not_le.mpr hearly)))
  · have hdo : (!s.pins.sysRst && sessionOver s) = true := by rw [hrst, sessionOver_iff hx hu, decide_eq_true hdue]; rfl
    exact ⟨_, congrArg Host.Outcome.next (when_due (endSession dcExpiry 0) s hdo), endSession_level hx hne, endSession_logs hx hne⟩
  · have hdo : (!s.pins.sysRst && sessionOver s) = false := by rw [hrst, sessionOver_iff hx hu, decide_eq_false (Nat.not_le.mpr hearly)]; rfl
    exact congrArg Host.Outcome.next (when_not_due (endSession dcExpiry 0) s hdo)

end Sys2Proof.Machine
end

section
/-! The test access port (R433, R438, R462). -/

namespace Sys2Proof.Machine

/-! ## IDCODE (R462) -/

theorem idcode_fields : idcode % 2 = 1 ∧ idcode / 2 ^ 12 % 2 ^ 16 = 0x3000 ∧ idcode / 2 ^ 28 = 1 := by
  have hjep : Config.jepId % 2 ^ 11 < 2048 := Nat.mod_lt _ (by decide)
  unfold idcode
  omega

/-! ## The debug registers -/

section
variable {s : State} (hup : jtagDebugUp s = true)
include hup

theorem jtagDbgNonce_acts : exec .jtagDbgNonce s = .next (jtagOut 0x10 (nonceBytes (newNonce s)) (newNonce s)) :=
  congrArg Host.Outcome.next (when_due _ s hup)

theorem jtagDbgToken_rejects {p : Bytes} {n : Nat} (hform : openForm s p = true) (hchecks : (openChecks s p).all (fun e => !e.1) = true)
    (hn : openToken s p = some n) : exec (.jtagDbgToken p) s = .next (jtagOut 0x11 (jtagStatus denied) (rejectToken n s)) := by
  have hpass : firstErr ((!openForm s p, badFormat) :: openChecks s p) = none := by
    rw [firstErr_cons, hform, if_neg (by decide), firstErr_all hchecks]
  show execJtagDbgToken p s = _
  unfold execJtagDbgToken
  rw [when_due _ s hup, hpass]
  dsimp only
  rw [hn]

theorem jtagDbgToken_opens {p : Bytes} (hform : openForm s p = true) (hchecks : (openChecks s p).all (fun e => !e.1) = true)
    (hnone : openToken s p = none) (hone : openTwoStage s p = false) :
    exec (.jtagDbgToken p) s = .next (jtagOut 0x11 (jtagStatus jtagOk) (openAct p true none s)) := by
  have hpass : firstErr ((!openForm s p, badFormat) :: openChecks s p) = none := by
    rw [firstErr_cons, hform, if_neg (by decide), firstErr_all hchecks]
  show execJtagDbgToken p s = _
  unfold execJtagDbgToken
  rw [when_due _ s hup, hpass]
  dsimp only
  rw [hnone, hone, if_neg Bool.false_ne_true]

theorem jtagDbgAccess_acts {p : Bytes} (hform : accessForm p = true) (hchecks : (accessChecks s (accessOf p)).all (fun e => !e.1) = true) :
    exec (.jtagDbgAccess p) s = .next (jtagOut 0x12 (jtagStatus jtagOk ++ (accessAct (accessOf p) s).1) (accessAct (accessOf p) s).2) := by
  have hpass : firstErr ((!accessForm p, badFormat) :: accessChecks s (accessOf p)) = none := by
    rw [firstErr_cons, hform, if_neg (by decide), firstErr_all hchecks]
  show execJtagDbgAccess p s = _
  unfold execJtagDbgAccess
  rw [when_due _ s hup, hpass]

theorem jtagScanChain_acts {k : Nat} (hk : k < 16) (hlevel : dbgLevel s = 3) : exec (.jtagScanChain k) s = .next (jtagFree (0x20 + k) s) :=
  congrArg Host.Outcome.next (when_due (jtagFree (0x20 + k)) s (by simp [hlevel, hk, hup]))

end

/-- The clauses on the debug registers. -/
theorem jtag_debug_clauses {s : State} (hup : jtagDebugUp s = true) :
    (goesTo (exec .jtagDbgNonce s) fun t => t.sec.nonce = some (Config.nonce s.freeCtr, time s + 60000000000) ∧
      t.out = .jtag 0x10 (nonceBytes t) :: s.out ∧ t.sec.session = s.sec.session) ∧
    (∀ p, openForm s p = true → (openChecks s p).all (fun e => !e.1) = true →
      (openToken s p = none → openTwoStage s p = false → fld p 1 0 ≠ 3 → goesTo (exec (.jtagDbgToken p) s) fun t =>
        t.sec.session = some (openedBy s p true) ∧ t.out = .jtag 0x11 (jtagStatus jtagOk) :: s.out ∧
        logs s t [(0x886, 0x283, 1, 0xFF, [dbgLevel s, fld p 1 0, 1, (openedBy s p true).signer, 0])]) ∧
      (∀ n, openToken s p = some n → goesTo (exec (.jtagDbgToken p) s) fun t =>
        t.sec = { s.sec with nonce := none } ∧ t.out = .jtag 0x11 (jtagStatus denied) :: s.out ∧ logs s t [(0x886, 0x284, 1, 0xFF, [n])])) ∧
    (∀ p, accessForm p = true → (accessChecks s (accessOf p)).all (fun e => !e.1) = true → s.pwr.state = 0 →
      (accessOf p).op = 0 → (accessOf p).space = 1 → goesTo (exec (.jtagDbgAccess p) s) fun t =>
        t.out = .jtag 0x12 (jtagStatus jtagOk ++ memRead (getCore s (accessOf p).dist (accessOf p).core).sram (accessOf p).addr (accessOf p).len) :: s.out ∧
        t.dists = s.dists) ∧
    (∀ k < 16, dbgLevel s = 3 → goesTo (exec (.jtagScanChain k) s) fun t =>
      t.out = .jtag (0x20 + k) (Config.jtagBits (0x20 + k) s.freeCtr) :: s.out ∧ t.sec = s.sec ∧ t.dists = s.dists) := by
  refine ⟨⟨_, jtagDbgNonce_acts hup, rfl, rfl, rfl⟩, fun p hform hchecks => ⟨fun hnone hone h3 => ?_, fun n hn => ?_⟩,
    fun p hform hchecks hactive hop hspace => ?_, fun k hk hlevel => ⟨_, jtagScanChain_acts hup hk hlevel, rfl, rfl, rfl⟩⟩
  · obtain ⟨hsession, -, hlogs, -, hout, -⟩ := openAct_level h3 true none s
    refine ⟨_, jtagDbgToken_opens hup hform hchecks hnone hone, hsession, ?_, hlogs⟩
    exact congrArg (List.cons _) hout
  · refine ⟨_, jtagDbgToken_rejects hup hform hchecks hn, rejectToken_sec n s, ?_, rejectToken_emitted n s⟩
    exact congrArg (List.cons _) (rejectToken_keeps n s).2.2.1
  · have hact := jtagDbgAccess_acts hup hform hchecks
    rw [accessAct_read hactive hop, accessRead_sram hspace] at hact
    exact ⟨_, hact, rfl, rfl⟩

/-- A boundary instruction is accepted only while SYS_RST_N is asserted (R438). -/
theorem boundary_held {s : State} (h : s.pins.sysRst = false) (mode : Nat) (g : State → State) : boundary mode g s = .next s :=
  congrArg Host.Outcome.next (when_not_due _ s h)

theorem boundary_acts {s : State} (h : s.pins.sysRst = true) (mode : Nat) (g : State → State) : boundary mode g s = .next (g (setJtagMode mode s)) :=
  congrArg Host.Outcome.next (when_due _ s h)

/-- Settles O49: the pin instructions by their registers, the debug registers by `jtag_debug_clauses`. -/
theorem jtagCompletes : Obligations.JtagCompletes := by
  unfold Obligations.JtagCompletes
  intro s
  refine ⟨⟨_, rfl, rfl, idcode_fields⟩, fun code => ⟨_, rfl, rfl⟩, fun l => ⟨_, rfl, rfl, rfl, rfl, rfl⟩, fun hrst => ⟨fun e he => ?_, fun e he => ?_⟩,
    fun hrst i hi => ?_, jtag_debug_clauses, fun k hlevel => ?_⟩
  · simp only [List.mem_cons, List.not_mem_nil, or_false] at he
    rcases he with rfl | rfl | rfl
    · exact ⟨_, boundary_acts hrst 1 (jtagFree 0x00), rfl, rfl, rfl, rfl⟩
    · exact ⟨_, boundary_acts hrst 4 (jtagFree 0x05), rfl, rfl, rfl, rfl⟩
    · exact ⟨_, boundary_acts hrst 5 (jtagFree 0x06), rfl, rfl, rfl, rfl⟩
  · simp only [List.mem_cons, List.not_mem_nil, or_false] at he
    rcases he with rfl | rfl
    · exact ⟨_, boundary_acts hrst 2 (jtagOut 0x03 [0]), rfl⟩
    · exact ⟨_, boundary_acts hrst 3 (jtagOut 0x04 [0]), rfl⟩
  · simp only [List.mem_cons, List.not_mem_nil, or_false] at hi
    rcases hi with rfl | rfl | rfl | rfl | rfl
    · exact boundary_held hrst 1 (jtagFree 0x00)
    · exact boundary_held hrst 2 (jtagOut 0x03 [0])
    · exact boundary_held hrst 3 (jtagOut 0x04 [0])
    · exact boundary_held hrst 4 (jtagFree 0x05)
    · exact boundary_held hrst 5 (jtagFree 0x06)
  · exact congrArg Host.Outcome.next (when_not_due (jtagFree (0x20 + k)) s (by simp [hlevel]))

end Sys2Proof.Machine
end

section
/-! A BOARD record with a reserved bit set (R9, R456): the checks of R456 do not look at its reserved fields, the format check of
SEC_STORE_WRITE does. -/

namespace Sys2Proof.Machine

/-- A BOARD record that R456 accepts, but for a reserved bit in its last byte: LPDDR rate 8,533, 400 A, 900 W. -/
def rsvdBoard : Bytes := [0, 0, 0, 0, 0x55, 0x21] ++ zeros 22 ++ [0x90, 0x01, 0x84, 0x03] ++ zeros 31 ++ [1]

/-- The SEC_STORE_WRITE that writes that record whole, with FINAL. -/
def rsvdWrite : FwReq := { fn := 0, payload := [2, 1, 0, 0, 0, 0, 0, 0] ++ rsvdBoard }

/-- A device whose firmware serves, and whose store is empty. -/
def servingDevice : State := { sec := { boot := 3 }, pins := { aonRst := false, sysRst := false, perst := false, sysPin := false } }

theorem rsvdBoard_passes : boardOk rsvdBoard = true := by decide

theorem rsvdWrite_record : storeRecord servingDevice rsvdWrite.payload = rsvdBoard := by decide

theorem rsvdWrite_sendable : Sendable specSecStore rsvdWrite servingDevice where
  fn := by decide
  served := by decide
  rom := by decide
  scan := by decide
  fits := by decide
  pf0 := by decide
  own := by decide
  named := by decide
  lives := by decide

/-- The reserved bit makes the write a BAD_FORMAT. -/
theorem rsvdWrite_refused : exec (.secStoreWrite rsvdWrite) servingDevice = .next (refuse servingDevice rsvdWrite 0x0A06 badFormat) := by
  show execSecStoreWrite rsvdWrite servingDevice = _
  unfold execSecStoreWrite
  exact fwStep_refuses (by decide) (by decide) (by decide)

/-- Refutes O45: the clause on SEC_STORE_WRITE lets through a BOARD record that `boardOk` accepts, whose reserved bits are not 0. -/
theorem not_securityCommandsComplete : ¬ Obligations.SecurityCommandsComplete := by
  unfold Obligations.SecurityCommandsComplete
  intro h
  obtain ⟨-, -, -, -, -, -, -, -, hstore, -⟩ := h rsvdWrite servingDevice
  have hboard : boardOk (storeRecord servingDevice rsvdWrite.payload) = true := by rw [rsvdWrite_record]; exact rsvdBoard_passes
  obtain ⟨-, hfinal⟩ := hstore rsvdWrite_sendable (by decide) (by decide) (by decide) (by decide) (by decide) (by decide) fun _ _ => hboard
  obtain ⟨t, ht, hreply, -⟩ := hfinal (by decide) (by decide)
  obtain rfl := Host.Outcome.next.inj (rsvdWrite_refused.symm.trans ht)
  have hsame := (refuse_adds servingDevice rsvdWrite 0x0A06 badFormat).symm.trans hreply
  have hstatus := congrArg Reply.status (List.cons.inj (List.append_cancel_left hsame)).1
  exact absurd hstatus (by decide)

end Sys2Proof.Machine
end

section
/-! The PWR_ commands and the power states' own events (R439–R441, R444). -/

namespace Sys2Proof.Machine

/-! ## The checks of PWR_STATE -/

section
variable {c : FwReq} {s : State} (h : Sendable specPwrState c s) (hlen : c.payload.length = 8) (hzero : zeroAt c.payload [(7, 2), (31, 10)] = true)
include h hlen hzero

theorem pwrState_acts (hchecks : firstErr (pwrChecks s c.payload) = none) : exec (.pwrState c) s = .next (pwrAct c s) :=
  fwStep_onDevice h rfl ((firstErr_shared h (by simp [hlen, hzero]) rfl _).trans hchecks)

theorem pwrState_refuses {e : Err} (hchecks : firstErr (pwrChecks s c.payload) = some e) : exec (.pwrState c) s = .next (refuse s c 0x0B00 e) :=
  fwStep_refuses h.fn h.served ((firstErr_shared h (by simp [hlen, hzero]) rfl _).trans hchecks)

end

/-- The state checks of PWR_STATE while no other change of power is under way: what is left is the blocker's. -/
theorem pwrChecks_quiet {s : State} {p : Bytes} (hforce : bit p 9 = false ∨ fld p 1 0 = 3) (hscan : fld p 1 0 = 1 → dbgLevel s ≠ 3 ∧ s.pwr.state ≠ 2)
    (hz : s.sec.zeroising = none) (hr : s.sec.returning = none) (hg : s.pwr.going = none) (ho : s.pwr.offAt = none) :
    firstErr (pwrChecks s p) =
      if (fld p 1 0 = 2 ∧ s.pwr.state ≠ 2) ∨ (fld p 1 0 = 3 ∧ bit p 9 = false) then retainBlocker s else none := by
  have h1 : (bit p 9 && fld p 1 0 != 3) = false := by rcases hforce with hb | h3 <;> simp [*]
  have h2 : (fld p 1 0 == 1 && dbgLevel s == 3) = false := by
    by_cases hl : fld p 1 0 = 1
    · simp [(hscan hl).1]
    · simp [hl]
  have h4 : (s.pwr.going.isSome || s.pwr.offAt.isSome || (fld p 1 0 == 1 && s.pwr.state == 2)) = false := by
    by_cases hl : fld p 1 0 = 1
    · simp [hg, ho, (hscan hl).2]
    · simp [hg, ho, hl]
  have hheld : ((fld p 1 0 = 2 ∧ s.pwr.state ≠ 2) ∨ (fld p 1 0 = 3 ∧ (!bit p 9) = true)) ↔
      (fld p 1 0 = 2 ∧ s.pwr.state ≠ 2) ∨ (fld p 1 0 = 3 ∧ bit p 9 = false) := by simp
  unfold pwrChecks
  simp only [h1, h2, hz, hr, h4, List.cons_append, List.nil_append, firstErr_cons, Bool.false_eq_true, if_false, Option.isSome_none, Bool.or_self]
  by_cases hasks : (fld p 1 0 = 2 ∧ s.pwr.state ≠ 2) ∨ (fld p 1 0 = 3 ∧ bit p 9 = false)
  · rw [if_pos hasks, if_pos (hheld.mpr hasks)]
    cases retainBlocker s with
    | none => rfl
    | some e => rfl
  · rw [if_neg hasks, if_neg (mt hheld.mp hasks)]
    rfl

/-! ## Where PWR_STATE goes -/

section
variable {c : FwReq} {s : State}

theorem pwrAct_off (hg : fld c.payload 1 0 = 3) : pwrAct c s = offBegin c (bit c.payload 9) (setFlags c.payload s) := if_pos hg

theorem pwrAct_idle (hg : fld c.payload 1 0 = 1) (hs : s.pwr.state = 0) : pwrAct c s = replyOk (enterIdle (setFlags c.payload s)) c 0x0B00 [] := by
  have hne : fld c.payload 1 0 ≠ (setFlags c.payload s).pwr.state := by rw [hg]; exact fun h => absurd (h.trans hs) (by decide)
  unfold pwrAct
  dsimp only
  rw [if_neg (by rw [hg]; decide), if_neg hne, if_pos hg]

theorem pwrAct_active (hg : fld c.payload 1 0 = 0) (hs : s.pwr.state = 1) : pwrAct c s = replyOk (idleLeave 0 (setFlags c.payload s)) c 0x0B00 [] := by
  have hne : fld c.payload 1 0 ≠ (setFlags c.payload s).pwr.state := by rw [hg]; exact fun h => absurd (h.trans hs) (by decide)
  have hidle : (setFlags c.payload s).pwr.state = 1 := hs
  unfold pwrAct
  dsimp only
  rw [if_neg (by rw [hg]; decide), if_neg hne, if_neg (by rw [hg]; decide), if_neg (by rw [hg]; decide), if_pos hidle]

/-- A change of power under way to a state. -/
def goingTo (g : Nat) (c : FwReq) (s : State) : State := { s with pwr := { s.pwr with going := some (g, some (pendOf s c 0x0B00)) } }

theorem pwrAct_retain (hg : fld c.payload 1 0 = 2) (hs : s.pwr.state ≠ 2) :
    pwrAct c s = goingTo 2 c (retainBegin (replyAccepted (setFlags c.payload s) c 0x0B00)) := by
  have hne : fld c.payload 1 0 ≠ (setFlags c.payload s).pwr.state := by rw [hg]; exact fun h => hs h.symm
  unfold pwrAct
  dsimp only
  rw [if_neg (by rw [hg]; decide), if_neg hne, if_neg (by rw [hg]; decide), if_pos hg]
  rfl

theorem pwrAct_wake (hg : fld c.payload 1 0 = 0) (hs : s.pwr.state = 2) : pwrAct c s = goingTo 0 c (replyAccepted (setFlags c.payload s) c 0x0B00) := by
  have hne : fld c.payload 1 0 ≠ (setFlags c.payload s).pwr.state := by rw [hg]; exact fun h => absurd (h.trans hs) (by decide)
  have hidle : ¬(setFlags c.payload s).pwr.state = 1 := fun h => absurd (hs.symm.trans h) (by decide)
  unfold pwrAct
  dsimp only
  rw [if_neg (by rw [hg]; decide), if_neg hne, if_neg (by rw [hg]; decide), if_neg (by rw [hg]; decide), if_neg hidle]
  rfl

end

/-! ## The entry to RETAIN (R440) -/

/-- The state after steps 1 and 2 of the entry to RETAIN: the dirty lines are written back and the ports disabled. -/
def retainPrepared (s : State) : State :=
  let up := (List.range 24).filter fun p => (getPort s p).state == 2
  disablePorts { s with backs := tmap s.backs fun _ b => { b with dirty := [] }, pwr := { s.pwr with retainPorts := up } }

theorem retainBegin_eq (s : State) : retainBegin s = if sessionOver (retainPrepared s) then endSession dcExpiry 0 (retainPrepared s)
    else if 2 ≤ dbgLevel (retainPrepared s) then endSession dcPower 1 (retainPrepared s) else retainPrepared s := rfl

theorem retainPrepared_keeps (s : State) : (retainPrepared s).sec = s.sec ∧ (retainPrepared s).now = s.now ∧
    (retainPrepared s).pwr = { s.pwr with retainPorts := (List.range 24).filter fun p => (getPort s p).state == 2 } ∧
    (∀ p < 24, (getPort (retainPrepared s) p).state = 0) ∧
    ∀ f, (getFn (retainPrepared s) f).epoch = (getFn s f).epoch ∧ (getFn s f).replies <+: (getFn (retainPrepared s) f).replies := by
  have hdis : ∀ u : State, (disablePorts u).sec = u.sec ∧ (disablePorts u).now = u.now ∧ (disablePorts u).pwr = u.pwr ∧
      (∀ p < 24, (getPort (disablePorts u) p).state = 0) ∧
      ∀ f, (getFn (disablePorts u) f).epoch = (getFn u f).epoch ∧ (getFn u f).replies <+: (getFn (disablePorts u) f).replies := fun u =>
    have hcalm := disablePorts_calm (.refl u)
    ⟨hcalm.sec, ((anchor_eq_iff _ _).mp (disablePorts_anchor u)).2.2.1, hcalm.pwr, fun p hp => disablePorts_state _ hp, hcalm.answers⟩
  obtain ⟨hsec, hnow, hpwr, hports, hfns⟩ := hdis { s with
    backs := tmap s.backs fun _ b => { b with dirty := [] }
    pwr := { s.pwr with retainPorts := (List.range 24).filter fun p => (getPort s p).state == 2 } }
  exact ⟨hsec, hnow, hpwr, hports, hfns⟩

/-- A session's end leaves the ports, the power state and the functions, and its level is the one asked for, or the lower one it had. -/
theorem endSession_keeps (cause new : Nat) (s : State) : (endSession cause new s).links = s.links ∧ (endSession cause new s).pwr = s.pwr ∧
    (endSession cause new s).fns = s.fns := by
  cases hx : s.sec.session with
  | none => rw [endSession, hx]; exact ⟨rfl, rfl, rfl⟩
  | some x =>
    by_cases hne : x.level = new
    · have hsame : endSession cause new s = s := by
        rw [endSession, hx]
        exact if_pos hne
      rw [hsame]
      exact ⟨rfl, rfl, rfl⟩
    · obtain ⟨-, -, hfns, hpwr, hlinks⟩ := dropHalts_keeps (sessionLeft cause new x s)
      obtain ⟨-, hfns', -, -, hpwr', hlinks'⟩ :=
        recordLevel_keeps x.level new cause x { s with sec := { s.sec with session := sessionAfter new x } }
      rw [endSession_eq hx hne]
      exact ⟨hlinks.trans hlinks', hpwr.trans hpwr', hfns.trans hfns'⟩

/-- A session above a level ends at it. -/
theorem endSession_dbgLevel {cause new : Nat} {s : State} (h : s.sec.session.isSome = true) : dbgLevel (endSession cause new s) = new := by
  obtain ⟨x, hx⟩ := Option.isSome_iff_exists.mp h
  by_cases hne : x.level = new
  · have hsame : endSession cause new s = s := by
      rw [endSession, hx]
      exact if_pos hne
    rw [hsame, dbgLevel_of_session hx, hne]
  · exact endSession_level hx hne

theorem endSession_closed (cause : Nat) (s : State) : dbgLevel (endSession cause 0 s) = 0 := by
  cases hx : s.sec.session with
  | none =>
    have hsame : endSession cause 0 s = s := by rw [endSession, hx]
    rw [hsame, dbgLevel, hx]
  | some x => exact endSession_dbgLevel (by rw [hx]; rfl)

theorem session_of_level {s : State} (h : dbgLevel s ≠ 0) : s.sec.session.isSome = true := by
  unfold dbgLevel at h
  cases hx : s.sec.session with
  | none => rw [hx] at h; exact absurd rfl h
  | some x => rfl

theorem retainBegin_state (s : State) : let t := retainBegin s
    t.pwr = { s.pwr with retainPorts := (List.range 24).filter fun p => (getPort s p).state == 2 } ∧ (∀ p < 24, (getPort t p).state = 0) ∧
    (∀ f, (getFn t f).epoch = (getFn s f).epoch ∧ (getFn s f).replies <+: (getFn t f).replies) ∧
    dbgLevel t = if sessionOver s then 0 else min 1 (dbgLevel s) := by
  obtain ⟨hsec, hnow, hpwr, hports, hfns⟩ := retainPrepared_keeps s
  have hover : sessionOver (retainPrepared s) = sessionOver s := by rw [sessionOver, sessionOver, time, time, hsec, hnow]
  have hlevel : dbgLevel (retainPrepared s) = dbgLevel s := by rw [dbgLevel, dbgLevel, hsec]
  have hended : ∀ cause new, (endSession cause new (retainPrepared s)).pwr = { s.pwr with retainPorts := (List.range 24).filter fun p => (getPort s p).state == 2 } ∧
      (∀ p < 24, (getPort (endSession cause new (retainPrepared s)) p).state = 0) ∧
      ∀ f, (getFn (endSession cause new (retainPrepared s)) f).epoch = (getFn s f).epoch ∧
        (getFn s f).replies <+: (getFn (endSession cause new (retainPrepared s)) f).replies := by
    intro cause new
    obtain ⟨hlinks', hpwr', hfns'⟩ := endSession_keeps cause new (retainPrepared s)
    refine ⟨hpwr'.trans hpwr, fun p hp => ?_, fun f => ?_⟩
    · rw [getPort_congr (congrArg (·.ports) hlinks'), hports p hp]
    · rw [getFn_congr hfns']
      exact hfns f
  dsimp only
  rw [retainBegin_eq, hover, hlevel]
  by_cases hexp : sessionOver s = true
  · obtain ⟨h1, h2, h3⟩ := hended dcExpiry 0
    rw [if_pos hexp, if_pos hexp]
    exact ⟨h1, h2, h3, endSession_closed _ _⟩
  · rw [if_neg hexp, if_neg hexp]
    by_cases hhigh : 2 ≤ dbgLevel s
    · obtain ⟨h1, h2, h3⟩ := hended dcPower 1
      rw [if_pos hhigh, Nat.min_eq_left (by omega)]
      exact ⟨h1, h2, h3, endSession_dbgLevel (session_of_level (by rw [hlevel]; omega))⟩
    · rw [if_neg hhigh, Nat.min_eq_right (by omega)]
      exact ⟨hpwr, hports, hfns, hlevel⟩

/-! ## PWR_STATE's clauses (R439–R443) -/

theorem powerEvent_keeps (old new micros : Nat) (s : State) : powerEvent old new micros s =
    { s with emitted := s.emitted ++ [⟨s.now, 0x885, 0x286, 0, 0xFF, [old, new, micros]⟩] } := emit_plain s _ _ _ _ _ (by decide)

/-- The device in ACTIVE again, and the log of it. -/
theorem idleLeave_idle {s : State} (h : s.pwr.state = 1) (us : Nat) : idleLeave us s =
    { s with
      pwr := { s.pwr with state := 0, waking := false, lastIssue := time s }
      emitted := s.emitted ++ [⟨s.now, 0x885, 0x286, 0, 0xFF, [1, 0, us]⟩] } :=
  (if_pos h).trans (emit_plain _ _ _ _ _ _ (by decide))

theorem sessionOver_congr {s t : State} (hsec : t.sec = s.sec) (hnow : t.now = s.now) : sessionOver t = sessionOver s := by
  rw [sessionOver, sessionOver, time, time, hsec, hnow]

/-- The final reply of a command joins the answers of its function, whatever came before. -/
theorem finishOk_mem {s : State} {p : Pend} (h : (getFn s p.req.fn).epoch = p.epoch) (b : Bytes) : doneReply p 0 0 b ∈ (getFn (finishOk s p b) p.req.fn).replies := by
  have hadds := finish_adds s p 0 0 b h
  rw [finishOk, hadds]
  exact List.mem_append_right _ (List.mem_singleton_self _)

/-- OFF with everything before it done: what is left is the reply and the wait of 1 ms. -/
def offWaits (w : Pend) (s : State) : State :=
  let t := finishOk s w []
  { t with pwr := { t.pwr with offAt := some (time t + 1000000) } }

theorem offWaits_state {w : Pend} {s : State} (h : (getFn s w.req.fn).epoch = w.epoch) :
    doneReply w 0 0 [] ∈ (getFn (offWaits w s) w.req.fn).replies ∧ (offWaits w s).pwr = { s.pwr with offAt := some (time s + 1000000) } ∧
    (offWaits w s).dists = s.dists := by
  refine ⟨finishOk_mem h [], ?_, finishOk_dists s w []⟩
  unfold offWaits
  dsimp only
  rw [finishOk_pwr, time, time, finishOk_now]

theorem offBegin_eq (c : FwReq) (force : Bool) (s : State) : offBegin c force s =
    let t := if force then destroyAll (replyAccepted s c 0x0B00) else replyAccepted s c 0x0B00
    offWaits (pendOf t c 0x0B00) t := rfl

section
variable {c : FwReq} {s : State} (h : Sendable specPwrState c s) (hlen : c.payload.length = 8) (hzero : zeroAt c.payload [(7, 2), (31, 10)] = true)
  (hz : s.sec.zeroising = none) (hr : s.sec.returning = none) (hg : s.pwr.going = none) (ho : s.pwr.offAt = none)
include h hlen hzero hz hr hg ho

/-- A state asked for with nothing that refuses it is entered. -/
theorem pwrState_free {g : Nat} (hgo : fld c.payload 1 0 = g) (hforce : bit c.payload 9 = false ∨ g = 3) (hscan : g = 1 → dbgLevel s ≠ 3 ∧ s.pwr.state ≠ 2)
    (hfree : (g = 2 ∨ (g = 3 ∧ bit c.payload 9 = false)) → retainBlocker s = none) : exec (.pwrState c) s = .next (pwrAct c s) := by
  subst hgo
  refine pwrState_acts h hlen hzero ((pwrChecks_quiet hforce hscan hz hr hg ho).trans ?_)
  by_cases hasks : (fld c.payload 1 0 = 2 ∧ s.pwr.state ≠ 2) ∨ (fld c.payload 1 0 = 3 ∧ bit c.payload 9 = false)
  · rw [if_pos hasks, hfree (hasks.imp_left (·.1))]
  · rw [if_neg hasks]

theorem pwrState_idle (hgo : fld c.payload 1 0 = 1) (hforce : bit c.payload 9 = false) (hs : s.pwr.state = 0) (hscan : dbgLevel s ≠ 3) :
    goesTo (exec (.pwrState c) s) fun t => repliesAdd s t c.fn [okReply c 0x0B00 []] ∧ t.pwr.state = 1 ∧ t.pwr.autoWake = bit c.payload 8 ∧
      t.pwr.idleUs = fld c.payload 63 32 ∧ logs s t [(0x885, 0x286, 0, 0xFF, [0, 1, 0])] ∧ t.dists = s.dists := by
  have hact := pwrState_free h hlen hzero hz hr hg ho hgo (.inl hforce) (fun _ => ⟨hscan, by rw [hs]; decide⟩)
    fun hasks => absurd hgo (by rcases hasks with h2 | ⟨h3, -⟩ <;> omega)
  rw [pwrAct_idle hgo hs, enterIdle, powerEvent_keeps] at hact
  refine ⟨_, hact, repliesAdd_of_fns_left (replyOk_adds _ _ _ _) rfl, ?_, ?_, ?_, ?_, replyOk_dists _ _ _ _⟩
  · rw [replyOk_pwr]
  · rw [replyOk_pwr]; rfl
  · rw [replyOk_pwr]; rfl
  · rw [logs, replyOk_emitted]; rfl

theorem pwrState_active (hgo : fld c.payload 1 0 = 0) (hforce : bit c.payload 9 = false) (hs : s.pwr.state = 1) :
    goesTo (exec (.pwrState c) s) fun t => repliesAdd s t c.fn [okReply c 0x0B00 []] ∧ t.pwr.state = 0 ∧
      logs s t [(0x885, 0x286, 0, 0xFF, [1, 0, 0])] ∧ t.dists = s.dists := by
  have hact := pwrState_free h hlen hzero hz hr hg ho hgo (.inl hforce) (fun h1 => absurd h1 (by decide))
    fun hasks => by rcases hasks with h2 | ⟨h3, -⟩ <;> contradiction
  rw [pwrAct_active hgo hs, idleLeave_idle (s := setFlags c.payload s) hs] at hact
  refine ⟨_, hact, repliesAdd_of_fns_left (replyOk_adds _ _ _ _) rfl, ?_, ?_, replyOk_dists _ _ _ _⟩
  · rw [replyOk_pwr]
  · rw [logs, replyOk_emitted]; rfl

theorem pwrState_retain (hgo : fld c.payload 1 0 = 2) (hforce : bit c.payload 9 = false) (hs : s.pwr.state ∈ [0, 1]) (hfree : retainBlocker s = none) :
    goesTo (exec (.pwrState c) s) fun t => acceptedReply c 0x0B00 ∈ (getFn t c.fn).replies ∧ t.pwr.state = s.pwr.state ∧
      t.pwr.going = some (2, some (pendOf s c 0x0B00)) ∧ dbgLevel t = (if sessionOver s then 0 else min 1 (dbgLevel s)) ∧
      (∀ q < 24, (getPort t q).state = 0) ∧ ∀ q < 24, q ∈ t.pwr.retainPorts ↔ (getPort s q).state = 2 := by
  have hne : s.pwr.state ≠ 2 := fun h2 => absurd hs (by rw [h2]; decide)
  have hact := pwrState_free h hlen hzero hz hr hg ho hgo (.inl hforce) (fun h1 => absurd h1 (by decide)) fun _ => hfree
  rw [pwrAct_retain hgo hne] at hact
  have hu : (replyAccepted (setFlags c.payload s) c 0x0B00).sec = s.sec ∧ (replyAccepted (setFlags c.payload s) c 0x0B00).now = s.now ∧
      (replyAccepted (setFlags c.payload s) c 0x0B00).pwr.state = s.pwr.state ∧ (replyAccepted (setFlags c.payload s) c 0x0B00).links = s.links := by
    rw [replyAccepted_sec, replyAccepted_now, replyAccepted_pwr, replyAccepted_links]
    exact ⟨rfl, rfl, rfl, rfl⟩
  have hin : acceptedReply c 0x0B00 ∈ (getFn (replyAccepted (setFlags c.payload s) c 0x0B00) c.fn).replies := by
    rw [replyAccepted_adds]
    exact List.mem_append_right _ (List.mem_singleton_self _)
  have hep : (getFn (replyAccepted (setFlags c.payload s) c 0x0B00) c.fn).epoch = (getFn s c.fn).epoch := by
    rw [replyAccepted_eq, getFn_modFn_self]
    rfl
  generalize replyAccepted (setFlags c.payload s) c 0x0B00 = u at hu hin hep hact
  obtain ⟨hsec, hnow, hstate, hlinks⟩ := hu
  obtain ⟨hpwr, hports, hfns, hlevel⟩ := retainBegin_state u
  generalize retainBegin u = v at hpwr hports hfns hlevel hact
  refine ⟨_, hact, (hfns c.fn).2.subset hin, (congrArg Pwr.state hpwr).trans hstate, ?_, ?_, hports, fun q hq => ?_⟩
  · show some (2, some (pendOf v c 0x0B00)) = _
    rw [pendOf, (hfns c.fn).1, hep]
    rfl
  · refine Eq.trans (b := dbgLevel v) rfl (hlevel.trans ?_)
    rw [sessionOver_congr hsec hnow, dbgLevel, hsec]
    rfl
  · show q ∈ v.pwr.retainPorts ↔ _
    rw [hpwr]
    simp [hq, getPort_congr (congrArg (·.ports) hlinks)]

theorem pwrState_blocked {e : Err} (hgo : fld c.payload 1 0 = 2) (hforce : bit c.payload 9 = false) (hs : s.pwr.state ∈ [0, 1])
    (hheld : retainBlocker s = some e) : exec (.pwrState c) s = .next (refuse s c 0x0B00 e) := by
  have hne : s.pwr.state ≠ 2 := fun h2 => absurd hs (by rw [h2]; decide)
  refine pwrState_refuses h hlen hzero ((pwrChecks_quiet (.inl hforce) (fun h1 => absurd (h1.symm.trans hgo) (by decide)) hz hr hg ho).trans ?_)
  rw [if_pos (.inl ⟨hgo, hne⟩), hheld]

theorem pwrState_wakes (hgo : fld c.payload 1 0 = 0) (hforce : bit c.payload 9 = false) (hs : s.pwr.state = 2) :
    goesTo (exec (.pwrState c) s) fun t => repliesAdd s t c.fn [acceptedReply c 0x0B00] ∧ t.pwr.going = some (0, some (pendOf s c 0x0B00)) ∧
      t.pwr.state = 2 := by
  have hact := pwrState_free h hlen hzero hz hr hg ho hgo (.inl hforce) (fun h1 => absurd h1 (by decide))
    fun hasks => by rcases hasks with h2 | ⟨h3, -⟩ <;> contradiction
  rw [pwrAct_wake hgo hs] at hact
  refine ⟨_, hact, repliesAdd_of_fns (repliesAdd_of_fns_left (replyAccepted_adds (setFlags c.payload s) c 0x0B00) rfl) rfl, ?_, ?_⟩
  · show some (0, some (pendOf (replyAccepted (setFlags c.payload s) c 0x0B00) c 0x0B00)) = _
    rw [pendOf, replyAccepted_eq, getFn_modFn_self]
    rfl
  · show (replyAccepted (setFlags c.payload s) c 0x0B00).pwr.state = 2
    rw [replyAccepted_pwr]
    exact hs

theorem pwrState_off (hgo : fld c.payload 1 0 = 3) (hfree : bit c.payload 9 = true ∨ retainBlocker s = none) :
    goesTo (exec (.pwrState c) s) fun t => doneReply (pendOf s c 0x0B00) 0 0 [] ∈ (getFn t c.fn).replies ∧
      t.pwr.offAt = some (time s + 1000000) ∧ t.pwr.state = s.pwr.state ∧ (bit c.payload 9 = true → ∀ d, (getDist t d).state = 0) := by
  have hact := pwrState_free h hlen hzero hz hr hg ho hgo (.inr rfl) (fun h1 => absurd h1 (by decide))
    fun hasks => hfree.resolve_left fun hb => by
      rcases hasks with h2 | ⟨-, hb'⟩
      · exact absurd h2 (by decide)
      · exact absurd (hb.symm.trans hb') (by decide)
  rw [pwrAct_off hgo, offBegin_eq] at hact
  have hu : ∀ u : State, u = (if bit c.payload 9 then destroyAll (replyAccepted (setFlags c.payload s) c 0x0B00)
      else replyAccepted (setFlags c.payload s) c 0x0B00) → u.pwr.state = s.pwr.state ∧ u.now = s.now ∧
      (bit c.payload 9 = true → ∀ d, (getDist u d).state = 0) := by
    intro u hu
    cases hb : bit c.payload 9 with
    | true =>
      rw [hb, if_pos rfl] at hu
      rw [hu, destroyAll_pwr, destroyAll_now, replyAccepted_pwr, replyAccepted_now]
      exact ⟨rfl, rfl, fun _ d => destroyAll_empty _ d⟩
    | false =>
      rw [hb, if_neg (by decide)] at hu
      rw [hu, replyAccepted_pwr, replyAccepted_now]
      exact ⟨rfl, rfl, fun hf => absurd hf (by decide)⟩
  dsimp only at hact
  generalize hgen : (if bit c.payload 9 then destroyAll (replyAccepted (setFlags c.payload s) c 0x0B00)
      else replyAccepted (setFlags c.payload s) c 0x0B00) = u at hact
  obtain ⟨hstate, hnow, hempty⟩ := hu u hgen.symm
  obtain ⟨hmem, hpwr, hdists⟩ := offWaits_state (w := pendOf u c 0x0B00) (s := u) rfl
  refine ⟨_, hact, hmem, ?_, ?_, fun hb d => ?_⟩
  · rw [hpwr, time, hnow]
    rfl
  · rw [hpwr]
    exact hstate
  · rw [getDist, hdists]
    exact hempty hb d

end

/-! ## PWR_CAP and PWR_INFO -/

theorem pwrCap_acts {c : FwReq} {s : State} (h : Sendable specPwrCap c s) (hlen : c.payload.length = 8) (hzero : zeroAt c.payload [(63, 16)] = true)
    (hlow : 900 ≤ fld c.payload 15 0) (hhigh : fld c.payload 15 0 ≤ 1800) :
    exec (.pwrCap c) s = .next (replyOk (setCap (fld c.payload 15 0) s) c 0x0B01 []) := by
  have hok : effecterOk 100 (fld c.payload 15 0) = true := by simp [effecterOk, hlow, hhigh]
  exact fwStep_onDevice h rfl ((firstErr_shared h (by simp [hlen, hzero]) rfl _).trans (by rw [hok]; rfl))

theorem setCap_eq (w : Nat) (s : State) :
    setCap w s = { s with pwr := { s.pwr with capW := w }, adv := tset s.adv 2 { value := w, unread := true } } :=
  postAdvisory_replaces _ _ (by decide) (by decide)

theorem setCap_state (w : Nat) (s : State) : (setCap w s).fns = s.fns ∧ (setCap w s).pwr = { s.pwr with capW := w } ∧
    (tget {} (setCap w s).adv 2).value = w ∧ (tget {} (setCap w s).adv 2).unread = true := by
  rw [setCap_eq]
  refine ⟨rfl, rfl, ?_, ?_⟩
  · exact congrArg Advisory.value (tget_tset_self _ _ _ _)
  · exact congrArg Advisory.unread (tget_tset_self _ _ _ _)

theorem setCap_reply (w : Nat) (c : FwReq) (s : State) : let t := replyOk (setCap w s) c 0x0B01 []
    repliesAdd s t c.fn [okReply c 0x0B01 []] ∧ t.pwr = { s.pwr with capW := w } ∧ (tget {} t.adv 2).value = w ∧ (tget {} t.adv 2).unread = true := by
  obtain ⟨hfns, hpwr, hvalue, hunread⟩ := setCap_state w s
  dsimp only
  generalize setCap w s = u at hfns hpwr hvalue hunread
  rw [replyOk_pwr, replyOk_adv]
  exact ⟨repliesAdd_of_fns_left (replyOk_adds _ _ _ _) hfns, hpwr, hvalue, hunread⟩

theorem pwrInfo_acts {c : FwReq} {s : State} (h : Sendable specPwrInfo c s) (hp : c.payload = []) : exec (.pwrInfo c) s =
    .next (replyOk s c 0x0B02 (pack 16 [(2, s.pwr.state), (6, 0), (1, b2n s.pwr.autoWake), (23, 0), (32, s.pwr.idleUs), (16, s.pwr.capW),
      (16, s.pwr.meanW), (16, lowestMhz s.pwr), (16, 0)])) :=
  fwStep_onDevice h rfl (firstErr_head h (by rw [hp]; rfl))

/-! ## RETAIN entered (R440) -/

theorem retainEntryDone_acts {w : Pend} {s : State} (h : s.pwr.going = some (2, some w)) : exec .retainEntryDone s = .next (finishOk (retainEnter s) w []) := by
  show execRetainEntryDone s = _
  unfold execRetainEntryDone
  rw [h]
  rfl

theorem retainEnter_keeps (s : State) : (retainEnter s).fns = s.fns ∧ (retainEnter s).pwr = { s.pwr with state := 2, going := none, cmpEn := false, waking := false } ∧
    logs s (retainEnter s) [(0x885, 0x286, 0, 0xFF, [s.pwr.state, 2, 0])] := by
  unfold retainEnter
  dsimp only
  rw [powerEvent_keeps]
  exact ⟨rfl, rfl, rfl⟩

/-- A district as the entry to RETAIN leaves it (R440). -/
def distDark (x : Dist) : Dist := if x.state = 5 then x else { x with cores := tmap x.cores fun _ c => coreDark c }

theorem getDist_retainEnter (s : State) (d : Nat) : getDist (retainEnter s) d = distDark (getDist s d) := by
  have hdists : (retainEnter s).dists = tmap s.dists fun _ x => distDark x := by
    unfold retainEnter
    dsimp only
    rw [powerEvent_keeps]
    rfl
  rw [getDist, hdists]
  exact tget_tmap (f := fun _ x => distDark x) rfl s.dists

theorem distDark_core {x : Dist} (h : x.state ≠ 5) (k : Nat) : tget {} (distDark x).cores k = coreDark (tget {} x.cores k) := by
  rw [distDark, if_neg h]
  exact tget_tmap (f := fun _ c => coreDark c) rfl x.cores

theorem getCore_retainEnter {s : State} {d : Nat} (h : (getDist s d).state ≠ 5) (k : Nat) : getCore (retainEnter s) d k = coreDark (getCore s d k) := by
  rw [getCore, getDist_retainEnter]
  exact distDark_core h k

theorem retainEntry_state {s : State} {w : Pend} (he : (getFn s w.req.fn).epoch = w.epoch) : let t := finishOk (retainEnter s) w []
    t.pwr.state = 2 ∧ t.pwr.cmpEn = false ∧ t.pwr.going = none ∧ repliesAdd s t w.req.fn [doneReply w 0 0 []] ∧
      logs s t [(0x885, 0x286, 0, 0xFF, [s.pwr.state, 2, 0])] ∧
      (∀ d k, (getDist s d).state ≠ 5 → (getCore t d k).sram = [] ∧ (getCore t d k).pairs = []) ∧
      ∀ d, (getDist s d).state = 5 → getDist t d = getDist s d := by
  obtain ⟨hfns, hpwr, hlog⟩ := retainEnter_keeps s
  have hepoch : (getFn (retainEnter s) w.req.fn).epoch = w.epoch := by rw [getFn_congr hfns, he]
  have hcore := fun d k (hd : (getDist s d).state ≠ 5) => getCore_retainEnter hd k
  have hdist := getDist_retainEnter s
  dsimp only
  generalize retainEnter s = u at hfns hpwr hlog hepoch hcore hdist
  rw [finishOk_pwr, hpwr]
  refine ⟨rfl, rfl, rfl, repliesAdd_of_fns_left (finish_adds u w 0 0 [] hepoch) hfns, ?_, fun d k hd => ?_, fun d hd => ?_⟩
  · rw [logs, finishOk_emitted]
    exact hlog
  · rw [getCore_of_dists (finishOk_dists u w []), hcore d k hd]
    exact ⟨rfl, rfl⟩
  · rw [getDist_finishOk, hdist, distDark, if_pos hd]

/-! ## RETAIN left (R439, R440) -/

/-- The functions, the power state, the work counters and the time: what training leaves. -/
def offLanes (s : State) : AMap Fn × Pwr × AMap WorkCnt × AMap Nat × BitVec 64 := (s.fns, s.pwr, s.work, s.cyc, s.now)

theorem losePort_offLanes (s : State) (p st : Nat) : offLanes (losePort s p st) = offLanes s := rfl

theorem sendFree_offLanes (s : State) (p typ : Nat) (b : Bytes) : offLanes (sendFree s p typ b) = offLanes s := rfl

theorem attempt_offLanes (s : State) (p : Nat) : offLanes (attempt s p) = offLanes s := sendFree_offLanes _ p 4 _

theorem modPort_offLanes (s : State) (p : Nat) (g : Port → Port) : offLanes (modPort s p g) = offLanes s := rfl

theorem startTraining_offLanes (s : State) (p : Nat) : offLanes (startTraining s p) = offLanes s :=
  (attempt_offLanes _ p).trans ((modPort_offLanes _ p _).trans (losePort_offLanes s p 1))

theorem startTraining_foldl (l : List Nat) (s : State) : offLanes (l.foldl startTraining s) = offLanes s := foldl_keeps startTraining_offLanes l s

/-- The state of the device that has left RETAIN, before its ports train (R440). -/
def retainLeft (s : State) : State := { s with
  work := [], cyc := []
  pwr := { s.pwr with state := 0, going := none, retainPorts := [], cmpEn := true, lastIssue := time s } }

theorem retainExit_eq {s : State} {w : Pend} (since : Nat) (h : s.pwr.going = some (0, some w)) : retainExit since s =
    powerEvent 2 0 ((time s - since) / 1000) (s.pwr.retainPorts.foldl startTraining (finishOk (retainLeft s) w [])) := by
  unfold retainExit
  rw [h]
  rfl

theorem retainExitDone_acts {w : Pend} {s : State} (h : s.pwr.going = some (0, some w)) :
    exec .retainExitDone s = .next (retainExit w.req.takenAt.toNat s) := by
  show execRetainExitDone s = _
  unfold execRetainExitDone
  rw [h]
  rfl

theorem retainExit_state {w : Pend} {s : State} (since : Nat) (h : s.pwr.going = some (0, some w)) (he : (getFn s w.req.fn).epoch = w.epoch) :
    let t := retainExit since s
    t.pwr.state = 0 ∧ t.pwr.going = none ∧ t.pwr.cmpEn = true ∧ doneReply w 0 0 [] ∈ (getFn t w.req.fn).replies ∧ t.work = [] ∧ t.cyc = [] ∧
      (⟨s.now, 0x885, 0x286, 0, 0xFF, [2, 0, (time s - since) / 1000]⟩ : EventRec) ∈ t.emitted := by
  have hdone : doneReply w 0 0 [] ∈ (getFn (finishOk (retainLeft s) w []) w.req.fn).replies := finishOk_mem (s := retainLeft s) he []
  have hu : (finishOk (retainLeft s) w []).pwr = (retainLeft s).pwr ∧ (finishOk (retainLeft s) w []).work = [] ∧
      (finishOk (retainLeft s) w []).cyc = [] ∧ (finishOk (retainLeft s) w []).now = s.now :=
    ⟨finishOk_pwr _ _ _, finishOk_work _ _ _, finishOk_cyc _ _ _, finishOk_now _ _ _⟩
  dsimp only
  rw [retainExit_eq since h, powerEvent_keeps]
  generalize finishOk (retainLeft s) w [] = u at hu hdone
  have hkeeps := startTraining_foldl s.pwr.retainPorts u
  generalize s.pwr.retainPorts.foldl startTraining u = v at hkeeps
  simp only [offLanes, Prod.mk.injEq] at hkeeps
  obtain ⟨hfns, hpwr, hwork, hcyc, hnow⟩ := hkeeps
  obtain ⟨hupwr, huwork, hucyc, hunow⟩ := hu
  have hvpwr : v.pwr = (retainLeft s).pwr := hpwr.trans hupwr
  refine ⟨congrArg Pwr.state hvpwr, congrArg Pwr.going hvpwr, congrArg Pwr.cmpEn hvpwr, ?_, hwork.trans huwork, hcyc.trans hucyc, ?_⟩
  · exact (congrArg (fun l => doneReply w 0 0 [] ∈ (tget {} l w.req.fn).replies) hfns).mpr hdone
  · refine List.mem_append_right _ (List.mem_singleton.mpr ?_)
    rw [hnow, hunow]

/-! ## OFF, and the waits (R439, R441) -/

theorem offEnter_state (s : State) : let t := offEnter s
    t.pwr.state = 3 ∧ t.pwr.pwrOffReq = true ∧ t.pwr.offAt = none ∧ dbgLevel t = 0 ∧ t.pcie.linkUp = false ∧
      (⟨s.now, 0x885, 0x286, 0, 0xFF, [s.pwr.state, 3, 0]⟩ : EventRec) ∈ t.emitted := by
  have hlevel := endSession_closed dcPower s
  have hnow := ((anchor_eq_iff _ _).mp (endSession_anchor dcPower 0 s)).2.2.1
  dsimp only
  unfold offEnter
  dsimp only
  rw [powerEvent_keeps]
  generalize endSession dcPower 0 s = u at hlevel hnow
  exact ⟨rfl, rfl, rfl, hlevel, rfl, List.mem_append_right _ (List.mem_singleton.mpr (by rw [hnow]))⟩

theorem offWaitExpiry_due {s : State} {u : Nat} (h : s.pwr.offAt = some u) (hdue : u ≤ time s) : exec .offWaitExpiry s = .next (offEnter s) := by
  show execOffWaitExpiry s = _
  unfold execOffWaitExpiry
  rw [h, when_due offEnter s (decide_eq_true hdue)]

theorem offWaitExpiry_early {s : State} {u : Nat} (h : s.pwr.offAt = some u) (hearly : time s < u) : exec .offWaitExpiry s = .next s := by
  show execOffWaitExpiry s = _
  unfold execOffWaitExpiry
  rw [h, when_not_due offEnter s (decide_eq_false (Nat.not_le.mpr hearly))]

/-- What AUTO_IDLE_EXPIRY looks at in an ACTIVE device. -/
theorem autoIdle_due {s : State} (hrst : s.pins.sysRst = false) (hs : s.pwr.state = 0) (hg : s.pwr.going = none) (ho : s.pwr.offAt = none)
    (hus : s.pwr.idleUs ≠ 0) : exec .autoIdleExpiry s =
      .next (when (dbgLevel s != 3 && !debugHalted s && decide (s.pwr.lastIssue + 1000 * s.pwr.idleUs ≤ time s)) enterIdle s) := by
  have hne : (s.pwr.idleUs != 0) = true := by simpa using hus
  show execAutoIdleExpiry s = _
  unfold execAutoIdleExpiry
  rw [hrst, hs, hg, ho, hne]
  rfl

theorem enterIdle_state (s : State) : (enterIdle s).pwr = { s.pwr with state := 1, waking := false } ∧
    logs s (enterIdle s) [(0x885, 0x286, 0, 0xFF, [0, 1, 0])] := by
  unfold enterIdle
  rw [powerEvent_keeps]
  exact ⟨rfl, rfl⟩

theorem idleExit_acts {s : State} (hs : s.pwr.state = 1) (hw : s.pwr.waking = true) :
    exec .idleExit s = .next (idleLeave ((freshNat s).1 % 26) (freshNat s).2) := by
  show execIdleExit s = _
  unfold execIdleExit
  exact congrArg Host.Outcome.next (when_due _ s (by rw [hs, hw]; rfl))

/-- Settles O47: PWR_STATE clause by clause, the entries and exits by their `_state` lemmas. -/
theorem powerCommandsComplete : Obligations.PowerCommandsComplete := by
  unfold Obligations.PowerCommandsComplete
  intro c s
  refine ⟨fun h hlen hzero hz hr hg ho => ⟨pwrState_idle h hlen hzero hz hr hg ho, pwrState_active h hlen hzero hz hr hg ho,
    pwrState_retain h hlen hzero hz hr hg ho, fun e hgo hforce hs hheld => ⟨_, pwrState_blocked h hlen hzero hz hr hg ho hgo hforce hs hheld, refuse_adds _ _ _ _,
      refuse_pwr _ _ _ _, refuse_dists _ _ _ _⟩, pwrState_wakes h hlen hzero hz hr hg ho, fun hgo hfree _ => pwrState_off h hlen hzero hz hr hg ho hgo hfree⟩,
    fun h hlen hzero hlow hhigh => ⟨_, pwrCap_acts h hlen hzero hlow hhigh, ?_⟩, fun h hp => ⟨_, pwrInfo_acts h hp, ?_⟩,
    fun w hw he => ⟨_, retainEntryDone_acts hw, retainEntry_state he⟩, fun w hw he => ⟨_, retainExitDone_acts hw, retainExit_state _ hw he⟩,
    fun u hu => ⟨fun hdue => ⟨_, offWaitExpiry_due hu hdue, offEnter_state s⟩, offWaitExpiry_early hu⟩, fun hrst hs hg ho hus => ⟨fun hl hh ht => ?_, fun hno => ?_⟩,
    fun hs hw => ⟨_, idleExit_acts hs hw, ?_⟩⟩
  · exact setCap_reply _ c s
  · refine ⟨_, replyOk_adds _ _ _ _, ?_, ?_, ?_, ?_, replyOk_pwr _ _ _ _⟩
    · exact fld_pack_field (hi := 1) (lo := 0) [] rfl rfl rfl (by decide) (by decide)
    · exact fld_pack_field (hi := 63) (lo := 32) [_, _, _, _] rfl rfl rfl (by decide) (by decide)
    · exact fld_pack_field (hi := 79) (lo := 64) [_, _, _, _, _] rfl rfl rfl (by decide) (by decide)
    · exact fld_pack_field (hi := 111) (lo := 96) (w := 16) (v := lowestMhz s.pwr) [_, _, _, _, _, _, _] rfl rfl rfl (by decide) (by decide)
  · have hdue : (dbgLevel s != 3 && !debugHalted s && decide (s.pwr.lastIssue + 1000 * s.pwr.idleUs ≤ time s)) = true := by
      simpa [hl, hh] using ht
    rw [autoIdle_due hrst hs hg ho hus, when_due enterIdle s hdue]
    exact ⟨_, rfl, enterIdle_state s⟩
  · have hnot : (dbgLevel s != 3 && !debugHalted s && decide (s.pwr.lastIssue + 1000 * s.pwr.idleUs ≤ time s)) = false := by
      rcases hno with h3 | hh | ht
      · rw [h3]; rfl
      · rw [hh, Bool.not_true, Bool.and_false, Bool.false_and]
      · rw [decide_eq_false (Nat.not_le.mpr ht), Bool.and_false]
    rw [autoIdle_due hrst hs hg ho hus, when_not_due enterIdle s hnot]
  · rw [idleLeave_idle (s := (freshNat s).2) hs]
    exact ⟨rfl, _, Nat.le_of_lt_succ (Nat.mod_lt _ (by decide)), rfl⟩

end Sys2Proof.Machine
end

section
/-! A fill of a spare whose segment is not one that R410 would restore it to: the saved tier differs, the model leaves the segment as it is
(R410, R412), and the obligation has no premise that leaves this case out. -/

namespace Sys2Proof.Machine

/-- Extent 0 of a snapshot of one segment: number 1, saved tier 2, 1 byte, at extent 1; no metadata, two data extents. -/
def savedHead : Bytes := zeros 56 ++ [1, 0] ++ zeros 6 ++ [2] ++ zeros 191 ++ [1, 2] ++ zeros 6 ++ [1] ++ zeros 7 ++ [1] ++ zeros 15

/-- The spare's segment 1: one byte of near memory, tier 1. -/
def spareSeg : Seg :=
  { tier := 1, coded := false, cached := false, ro := false, fallback := 0, prio := 0, deadlineUs := 0, subst := 0, place := 0, dbase := 0, size := 1,
    firstExt := 0, volume := 0, bid := 0 }

def sparePolicy : Policy := { volume := 0, intervalS := 0, regions := [], regionExt := 0, ms := 0, group := 0, bufSeg := 0, bufOff := 0 }

def spareJob : Job :=
  { compute := 0, update := 0, early := false, hold := false, evt := false, skip := false, replayMax := 0, infoSeg := 0, infoOff := 0, members := [],
    memberBytes := [], layerBytes := [], myPos := 0, lossPos := 0, feedSeg := 0, feedOff := 0, bufSeg := 0, bufOff := 0, recBytes := 0, recs := 0,
    feedRecs := 0, evalMs := 0, protect := 0, sig := 0 }

/-- The fill under way, its extent 0 received. -/
def spareFill : Fill := { seq := 0, src := 0, verify := false, head := some savedHead }

/-- A spare in its fill. -/
def spareDevice : State :=
  { sec := { keys := true }, flash := { vols := [(0, { owner := 0, extents := 0 })] }
    dists := [(0, { segs := [(1, spareSeg)], gate := { job := some spareJob }, snap := { code := 5, policy := some sparePolicy, fill := some spareFill } })] }

/-- The data extent comes intact, and the segment keeps its zero. -/
theorem spareFill_keepsSegment :
    ∃ t, exec (.fillExtentReceive 0 1 [1] true) spareDevice = .next t ∧ segRead t spareSeg 0 1 = [0] := ⟨_, rfl, by decide⟩

/-- Refutes O42: an intact extent for a segment of another tier than the saved one is not written. -/
theorem not_snapshotsAreWrittenAndRead : ¬ Obligations.SnapshotsAreWrittenAndRead := by
  unfold Obligations.SnapshotsAreWrittenAndRead
  intro h
  obtain ⟨-, -, -, -, -, -, hfill⟩ := h 0 sparePolicy spareJob spareDevice rfl rfl rfl rfl
  obtain ⟨hmore, -⟩ := (hfill spareFill 1 [1] rfl rfl).2 savedHead 1 0 1 spareSeg rfl (by decide) (by decide) (by decide) rfl (by decide) rfl
  obtain ⟨t, hexec, hread, -⟩ := hmore (by decide)
  obtain ⟨u, hexec', hkept⟩ := spareFill_keepsSegment
  have htu : t = u := Host.Outcome.next.inj (hexec.symm.trans hexec')
  rw [htu, hkept] at hread
  exact absurd hread (by decide)

end Sys2Proof.Machine
end

section
/-! The SNAP_ commands (R405, R406, R410, R412, R416), and what a message of own content leaves on the port it takes (R249, R257). -/

namespace Sys2Proof.Machine

/-! ## Messages of own content -/

/-- The state with other links. -/
def onLinks (s : State) (l : Links) : State := { s with links := l }

theorem sysSend_onLinks (s : State) (chan mask dest kind : Nat) (args : List Nat) (data : Bytes) :
    sysSend s chan mask dest kind args data = onLinks s (sysSend s chan mask dest kind args data).links := by
  unfold sysSend
  cases routePort s chan dest mask with
  | none => rfl
  | some p => rfl

/-- A message of own content changes the links alone. -/
theorem snapMsg_onLinks (s : State) (p : Policy) (j : Job) (pos kind : Nat) (args : List Nat) (data : Bytes) :
    ∃ l, snapMsg s p j pos kind args data = onLinks s l := ⟨_, sysSend_onLinks _ _ _ _ _ _ _⟩

/-- The payloads of a message's flits are those of its bytes, whatever the flits' headers say. -/
theorem flitsOf_payloads (chan dest src : Nat) (transit poison : Bool) (b : Bytes) :
    (flitsOf chan dest src transit poison b).map (·.f.payload) = (flitsOf chan 0 0 false false b).map (·.f.payload) := by
  simp only [flitsOf, List.map_map]
  rfl

theorem queueMsg_queue (s : State) (port chan : Nat) (flits : List TxFlit) (key : Nat) (open_ : Bool) :
    tget [] (getPort (queueMsg s port chan flits key open_) port).queue chan = tget [] (getPort s port).queue chan ++ [⟨key, flits, open_⟩] := by
  rw [queueMsg, getPort_modPort_self]
  exact tget_tmod_self [] _ chan fun l : List TxMsg => l ++ [⟨key, flits, open_⟩]

theorem sendMsg_queued (s : State) (port chan dest src : Nat) (poison : Bool) (b : Bytes) :
    ∃ w, tget [] (getPort (sendMsg s port chan dest src poison b) port).queue chan = tget [] (getPort s port).queue chan ++ [w] ∧
      w.flits.map (·.f.payload) = (flitsOf chan 0 0 false false b).map (·.f.payload) :=
  ⟨_, queueMsg_queue _ _ _ _ _ _, flitsOf_payloads _ _ _ _ _ _⟩

theorem routePort_congr {s t : State} (h : t.links = s.links) (chan dest mask : Nat) : routePort t chan dest mask = routePort s chan dest mask := by
  simp only [routePort, upPorts, getPort, h]

/-- A message of own content waits at the port its route names. -/
theorem sysSend_queued {s t : State} {chan mask dest port : Nat} (kind : Nat) (args : List Nat) (data : Bytes) (hlinks : t.links = s.links)
    (hroute : routePort s chan dest mask = some port) :
    ∃ w, tget [] (getPort (sysSend t chan mask dest kind args data) port).queue chan = tget [] (getPort s port).queue chan ++ [w] ∧
      w.flits.map (·.f.payload) = (flitsOf chan 0 0 false false (sysBytes chan kind args data)).map (·.f.payload) := by
  rw [sysSend, routePort_congr hlinks, hroute, ← getPort_congr (congrArg (·.ports) hlinks)]
  exact sendMsg_queued _ _ _ _ _ _ _

/-! ## The checks of a SNAP_ command (R416) -/

theorem snapChecks_pass {k : Spec} {c : FwReq} {s : State} {form : Bool} {args : List (Bool × Err)} (h : Sendable k c s) (hform : form = true)
    (hflash : flashPresent s = true) (hkeys : s.sec.keys = true) (hserving : (getDist s (cmdDist c)).serving = false)
    (hstate : (getDist s (cmdDist c)).state ∈ [1, 2, 3, 5, 6]) (hargs : args.all (fun e => !e.1) = true) :
    firstErr (snapChecks k form c args s) = none := by
  unfold snapChecks
  rw [List.append_assoc, List.append_assoc, firstErr_shared h hform hflash, List.singleton_append, firstErr_cons, notTraining, hserving,
    if_neg Bool.false_ne_true, firstErr_append, firstErr_all hargs, Option.none_or, firstErr_cons, keyErr, hkeys, Bool.not_true, if_neg Bool.false_ne_true, firstErr_legalIn hstate]
  rfl

theorem snapIn_passed {x : Dist} {ok : List Nat} (h : x.snap.code ∈ ok) : firstErr [snapIn x ok] = none :=
  firstErr_passed (by rw [snapIn, List.contains_iff_mem.mpr h]; rfl)

/-- A SNAP_ command's reply after a change of the engine alone. -/
theorem snapped_reply (s : State) (c : FwReq) (d cmd : Nat) (g : Snap → Snap) (b : Bytes) :
    repliesAdd s (replyOk (modSnap s d g) c cmd b) c.fn [okReply c cmd b] ∧
      (getDist (replyOk (modSnap s d g) c cmd b) d).snap = g (getDist s d).snap :=
  ⟨replyOk_modDist_adds _ _ _ _ _ _, congrArg Dist.snap (replyOk_modDist_getDist _ _ _ _ _ _)⟩

/-! ## SNAP_RESTORE -/

theorem findRegion_modFn (s : State) (f : Nat) (g : Fn → Fn) (p : Policy) (mirror : Bool) (seq : Nat) :
    findRegion (modFn s f g) p mirror seq = findRegion s p mirror seq := rfl

theorem remapTable_modFn (s : State) (f : Nat) (g : Fn → Fn) (x : Dist) (p : Bytes) : remapTable (modFn s f g) x p = remapTable s x p := rfl

theorem findRegion_some {s : State} {p : Policy} {mirror : Bool} {seq r : Nat} (h : findRegion s p mirror seq = some r) :
    headValid (regionHead s p r) = true ∧ fld (regionHead s p r) 127 64 = seq := by
  have hr := List.find?_some h
  simpa using hr

/-- The restore that a SNAP_RESTORE asks for of a region. -/
def restoreAsked (s : State) (c : FwReq) (r : Nat) : Restore :=
  { pend := pendOf s c 0x0903, region := r, mirror := bit c.payload 64, verify := bit c.payload 65, remap := remapTable s (getDist s (cmdDist c)) c.payload }

/-- The restore begun. -/
def restoreBegun (c : FwReq) (r : Nat) (s : State) : State :=
  modSnap (replyAccepted s c 0x0903) (cmdDist c) fun n => { n with code := 4, restore := some (restoreAsked (replyAccepted s c 0x0903) c r) }

theorem restoreAsked_accepted (c : FwReq) (r : Nat) (s : State) : restoreAsked (replyAccepted s c 0x0903) c r = restoreAsked s c r := by
  rw [restoreAsked, pendOf_replyAccepted, getDist_replyAccepted, replyAccepted_eq, remapTable_modFn, restoreAsked]

theorem restoreBegun_dist (c : FwReq) (r : Nat) (s : State) : getDist (restoreBegun c r s) (cmdDist c) =
    { getDist s (cmdDist c) with snap := { (getDist s (cmdDist c)).snap with code := 4, restore := some (restoreAsked s c r) } } := by
  rw [restoreBegun, restoreAsked_accepted, modSnap, getDist_modDist_self, getDist_replyAccepted]

theorem restoreOk_region {s : State} {x : Dist} {p : Bytes} {q : Policy} (hq : x.snap.policy = some q) (h : restoreOk s x p = true) :
    ∃ r, findRegion s q (bit p 64) (fld p 63 0) = some r := by
  rw [restoreOk, hq] at h
  dsimp only at h
  cases hr : findRegion s q (bit p 64) (fld p 63 0) with
  | none => rw [hr] at h; simp at h
  | some r => exact ⟨r, rfl⟩

/-! ## SNAP_FILL -/

/-- The fill that a SNAP_FILL with none before it starts. -/
def fillAsked (s : State) (c : FwReq) : Fill :=
  { pend := [pendOf s c 0x0904], seq := fld c.payload 63 0, src := fld c.payload 76 64, verify := bit c.payload 78 }

/-- The fill under way, before its request. -/
def fillBegun (c : FwReq) (s : State) : State :=
  modSnap (replyAccepted s c 0x0904) (cmdDist c) fun n => { n with code := 5, fill := some (fillOf n.fill c.payload (pendOf (replyAccepted s c 0x0904) c 0x0904)) }

/-- A fill of which nothing has come yet asks for extent 0 (R412). -/
theorem fillRequests_first {d : Nat} {t : State} {q : Policy} {j : Job} {f : Fill} (hq : (getDist t d).snap.policy = some q)
    (hj : (getDist t d).gate.job = some j) (hf : (getDist t d).snap.fill = some f) (hhead : f.head = none) :
    fillRequests t d = snapMsg t q j f.src 5 [f.seq, 0] [] := by
  unfold fillRequests
  dsimp only
  rw [hq, hj, hf]
  dsimp only
  rw [hhead]

theorem fillBegun_dist {c : FwReq} {s : State} (hnone : (getDist s (cmdDist c)).snap.fill = none) : getDist (fillBegun c s) (cmdDist c) =
    { getDist s (cmdDist c) with snap := { (getDist s (cmdDist c)).snap with code := 5, fill := some (fillAsked s c) } } := by
  rw [fillBegun, modSnap, getDist_modDist_self, getDist_replyAccepted, hnone, pendOf_replyAccepted]
  rfl

/-! ## The obligation -/

section
variable {c : FwReq} {s : State} (hflash : flashPresent s = true) (hkeys : s.sec.keys = true)
  (hserving : (getDist s (cmdDist c)).serving = false) (hloop : (getDist s (cmdDist c)).loop = none)
  (hstate : (getDist s (cmdDist c)).state ∈ [1, 2, 3, 5, 6])
include hflash hkeys hserving hloop hstate

/-- A SNAP_ command with no check of its own, or one that passes, acts. -/
theorem snapStep_acts {k : Spec} {form : Bool} {args own : List (Bool × Err)} {eff : State → State} (h : Sendable k c s) (hwide : k.wide = false)
    (hform : form = true) (hargs : args.all (fun e => !e.1) = true) (hown : firstErr own = none) (checks : State → List (Bool × Err))
    (hchecks : checks s = snapChecks k form c args s ++ own) : fwStep k c checks eff s = .next (eff s) := by
  have hpass := snapChecks_pass h hform hflash hkeys hserving hstate hargs
  rw [fwStep_onDistrict h hwide (by rw [hchecks, firstErr_append, hpass, Option.none_or, hown]), wakeLoop_none hloop]

theorem snapPolicy_acts (h : Sendable specSnapPolicy c s) (hlen : c.payload.length = 48)
    (hzero : zeroAt c.payload [(239, 237), (247, 246), (383, 320)] = true) (hok : policyOk s (cmdDist c) (policyOf c.payload) = true)
    (hidle : (getDist s (cmdDist c)).snap.code = 0) : exec (.snapPolicy c) s =
      .next (replyOk (modSnap s (cmdDist c) fun n => { n with policy := some (policyOf c.payload), lastAt := time s }) c 0x0900 []) :=
  snapStep_acts hflash hkeys hserving hloop hstate h rfl (by simp [hlen, hzero]) (by simp [hok]) (snapIn_passed (by rw [hidle]; decide)) _ rfl

theorem snapTake_acts (h : Sendable specSnapTake c s) (hp : c.payload = []) :
    exec (.snapTake c) s = .next (replyOk (modSnap s (cmdDist c) fun n => { n with asked := n.asked ||| 4 }) c 0x0901 []) :=
  snapStep_acts hflash hkeys hserving hloop hstate h rfl (by rw [hp]; rfl) rfl rfl _ (List.append_nil _).symm

/-- The regions as SNAP_INFO gives them (R416). -/
theorem snapInfo_acts (h : Sendable specSnapInfo c s) (hp : c.payload = []) : exec (.snapInfo c) s = .next (replyOk s c 0x0902 (pack 64
    ((64, (getDist s (cmdDist c)).snap.code) :: (((getDist s (cmdDist c)).snap.policy.map fun q => (List.range 4).flatMap (regionInfo s q)).getD [])))) := by
  refine (snapStep_acts hflash hkeys hserving hloop hstate h rfl (by rw [hp]; rfl) rfl rfl _ (List.append_nil _).symm).trans ?_
  dsimp only
  cases (getDist s (cmdDist c)).snap.policy with
  | none => rfl
  | some q => rfl

theorem snapFillInfo_acts (h : Sendable specSnapFillInfo c s) (hp : c.payload = []) : exec (.snapFillInfo c) s =
    .next (replyOk s c 0x0905 (((getDist s (cmdDist c)).snap.fill.map fun f => pack 16 [(32, f.have_.length), (32, fillTotal f), (64, f.seq)]).getD (zeros 16))) := by
  refine (snapStep_acts hflash hkeys hserving hloop hstate h rfl (by rw [hp]; rfl) rfl rfl _ (List.append_nil _).symm).trans ?_
  dsimp only
  cases (getDist s (cmdDist c)).snap.fill with
  | none => rfl
  | some f => rfl

theorem snapServe_acts {q : Policy} (hq : (getDist s (cmdDist c)).snap.policy = some q) (h : Sendable specSnapServe c s) (hlen : c.payload.length = 16)
    (hzero : zeroAt c.payload [(127, 65)] = true) (hcode : (getDist s (cmdDist c)).snap.code ∈ [0, 6])
    (hfound : bit c.payload 64 = true ∨ (findRegion s q true (fld c.payload 63 0)).isSome = true) : exec (.snapServe c) s =
      .next (replyOk (modSnap s (cmdDist c) fun n =>
        if bit c.payload 64 then { n with code := 0, serving := none } else { n with code := 6, serving := some (fld c.payload 63 0) }) c 0x0906 []) := by
  have hok : serveOk s (getDist s (cmdDist c)) c.payload = true := by
    rw [serveOk, hq]
    exact Bool.or_eq_true_iff.mpr hfound
  exact snapStep_acts hflash hkeys hserving hloop hstate h rfl (by simp [hlen, hzero]) (by simp [hok]) (snapIn_passed hcode) _ rfl

theorem snapRestore_acts {q : Policy} {r : Nat} (hq : (getDist s (cmdDist c)).snap.policy = some q)
    (hr : findRegion s q (bit c.payload 64) (fld c.payload 63 0) = some r) (h : Sendable specSnapRestore c s) (hlen : c.payload.length = 32)
    (hzero : zeroAt c.payload [(71, 66), (127, 80), (255, 192)] = true) (hok : restoreOk s (getDist s (cmdDist c)) c.payload = true)
    (hrun : (getDist s (cmdDist c)).state ≠ 3) (hcode : (getDist s (cmdDist c)).snap.code = 0) (hgate : (getDist s (cmdDist c)).gate.code ∈ [0, 5]) :
    exec (.snapRestore c) s = .next (restoreBegun c r s) := by
  have hgateIn : (gateIn (getDist s (cmdDist c)) [0, 5]).1 = false := by rw [gateIn, List.contains_iff_mem.mpr hgate]; rfl
  have hown : firstErr [((getDist s (cmdDist c)).state == 3, conflict 1 3), snapIn (getDist s (cmdDist c)) [0], gateIn (getDist s (cmdDist c)) [0, 5]] = none := by
    rw [firstErr_cons, if_neg (by simpa using hrun), ← List.singleton_append, firstErr_append, snapIn_passed (by rw [hcode]; decide), Option.none_or,
      firstErr_passed hgateIn]
  refine (snapStep_acts hflash hkeys hserving hloop hstate h rfl (by simp [hlen, hzero]) (by simp [hok]) hown _ rfl).trans ?_
  have hfound : findRegion (replyAccepted s c 0x0903) q (bit c.payload 64) (fld c.payload 63 0) = some r := by
    rw [replyAccepted_eq, findRegion_modFn, hr]
  dsimp only
  rw [hq, Option.bind_some, hfound, restoreBegun, restoreAsked, getDist_replyAccepted]

theorem snapFill_acts {q : Policy} {j : Job} (hq : (getDist s (cmdDist c)).snap.policy = some q) (hj : (getDist s (cmdDist c)).gate.job = some j)
    (hsrc : fld c.payload 76 64 < j.members.length) (h : Sendable specSnapFill c s) (hlen : c.payload.length = 16)
    (hzero : zeroAt c.payload [(127, 79)] = true) (hcode : (getDist s (cmdDist c)).snap.code = 0) (hnone : (getDist s (cmdDist c)).snap.fill = none) :
    exec (.snapFill c) s = .next (snapMsg (fillBegun c s) q j (fld c.payload 76 64) 5 [fld c.payload 63 0, 0] []) := by
  have hin : (0 : Nat) ∈ (if bit c.payload 77 then [0, 5] else [0]) := by split <;> simp
  refine (snapStep_acts hflash hkeys hserving hloop hstate h rfl (by simp [hlen, hzero]) (by simp [hq, hj, hsrc]) (snapIn_passed (by rw [hcode]; exact hin))
    _ rfl).trans ?_
  have hdist := fillBegun_dist hnone
  have hfirst := fillRequests_first (t := fillBegun c s) (d := cmdDist c) (q := q) (j := j) (f := fillAsked s c) (by rw [hdist]; exact hq) (by rw [hdist]; exact hj)
    (by rw [hdist]) rfl
  exact congrArg Host.Outcome.next hfirst

end

/-- Settles O41: every command by its `_acts` lemma; the request of a fill by `sysSend_queued`. -/
theorem snapshotCommandsComplete : Obligations.SnapshotCommandsComplete := by
  unfold Obligations.SnapshotCommandsComplete
  intro c s
  refine fun hflash hkeys hserving hloop hstate => ⟨fun h hlen hzero hok hidle => ⟨_, snapPolicy_acts hflash hkeys hserving hloop hstate h hlen hzero hok hidle,
      snapped_reply _ _ _ _ _ _⟩, fun h hp => ⟨_, snapTake_acts hflash hkeys hserving hloop hstate h hp, snapped_reply _ _ _ _ _ _⟩,
    fun h hp => ⟨_, snapInfo_acts hflash hkeys hserving hloop hstate h hp, replyOk_adds _ _ _ _, by rw [getDist_replyOk]⟩,
    fun q hq h hlen hzero hok hrun hcode hgate => ?_, fun q j hq hj hsrc h hlen hzero hcode hnone => ?_,
    fun h hp => ⟨_, snapFillInfo_acts hflash hkeys hserving hloop hstate h hp, fun hf => ?_, fun f hf => ?_⟩,
    fun q hq h hlen hzero hcode => ⟨fun hb hfound => ?_, fun hb => ?_⟩⟩
  · obtain ⟨r, hr⟩ : ∃ r, findRegion s q (bit c.payload 64) (fld c.payload 63 0) = some r := restoreOk_region hq hok
    refine ⟨_, snapRestore_acts hflash hkeys hserving hloop hstate hq hr h hlen hzero hok hrun hcode hgate, ?_⟩
    dsimp only
    rw [restoreBegun_dist]
    exact ⟨replyAccepted_adds s c 0x0903, rfl, rfl, _, rfl, rfl, rfl, rfl, findRegion_some hr⟩
  · refine ⟨_, snapFill_acts hflash hkeys hserving hloop hstate hq hj hsrc h hlen hzero hcode hnone, ?_⟩
    obtain ⟨l, hl⟩ := snapMsg_onLinks (fillBegun c s) q j (fld c.payload 76 64) 5 [fld c.payload 63 0, 0] []
    have hdist : getDist (onLinks (fillBegun c s) l) (cmdDist c) = getDist (fillBegun c s) (cmdDist c) := rfl
    refine ⟨?_, ?_, ?_, fun y port hy hport => ?_⟩
    · rw [hl]
      exact replyAccepted_adds s c 0x0904
    · rw [hl, hdist, fillBegun_dist hnone]
    · rw [hl, hdist, fillBegun_dist hnone]
      rfl
    · have hgroup : getGroup (fillBegun c s) q.group = some y := (congrArg (fun m => tfind m q.group) (replyAccepted_groups s c 0x0904)).trans hy
      rw [snapMsg, hgroup]
      exact sysSend_queued 5 _ _ (replyAccepted_links s c 0x0904) hport
  · rw [hf]
    exact replyOk_adds _ _ _ _
  · rw [hf]
    exact replyOk_adds _ _ _ _
  · have hact := snapServe_acts hflash hkeys hserving hloop hstate hq h hlen hzero hcode (.inr hfound)
    rw [hb] at hact
    exact ⟨_, hact, snapped_reply _ _ _ _ _ _⟩
  · have hact := snapServe_acts hflash hkeys hserving hloop hstate hq h hlen hzero hcode (.inl hb)
    rw [hb] at hact
    exact ⟨_, hact, snapped_reply _ _ _ _ _ _⟩

end Sys2Proof.Machine
end

section
/-! What the operations of the step gate and of the snapshot engine leave of a district's gate, and what they make of it (R340–R348). -/

namespace Sys2Proof.Machine

/-! ## The relation -/

/-- The gate of a district after an operation, which leaves the groups and the time. -/
structure Gated (d : Nat) (b t : State) (g : Gate) : Prop where
  gate : (getDist t d).gate = g
  groups : t.groups = b.groups
  now : t.now = b.now

theorem Gated.refl (d : Nat) (s : State) : Gated d s s (getDist s d).gate := ⟨rfl, rfl, rfl⟩

section
variable {d : Nat} {b s : State} {g : Gate}

theorem Gated.congr {t : State} (h : Gated d b s g) (hdists : t.dists = s.dists) (hgroups : t.groups = s.groups) (hnow : t.now = s.now) : Gated d b t g :=
  ⟨(congrArg Dist.gate (getDist_congr hdists d)).trans h.gate, hgroups.trans h.groups, hnow.trans h.now⟩

theorem Gated.ite {c : Prop} [Decidable c] {t u : State} (ht : Gated d b t g) (hu : Gated d b u g) : Gated d b (if c then t else u) g := by
  split
  · exact ht
  · exact hu

theorem Gated.foldl {α : Type} {f : State → α → State} (hf : ∀ s a, Gated d b s g → Gated d b (f s a) g) :
    ∀ (l : List α) {s : State}, Gated d b s g → Gated d b (l.foldl f s) g
  | [], _, h => h
  | a :: l, _, h => Gated.foldl hf l (hf _ a h)

/-! ## What leaves the gate -/

theorem modDist_gated (i : Nat) {f : Dist → Dist} (hf : ∀ x, (f x).gate = x.gate) (h : Gated d b s g) : Gated d b (modDist s i f) g := by
  refine ⟨?_, h.groups, h.now⟩
  by_cases hi : d = i
  · rw [← hi, getDist_modDist_self, hf]
    exact h.gate
  · rw [getDist_modDist_ne _ _ hi]
    exact h.gate

theorem emit_gated (source kind sev district : Nat) (l : List Nat) (h : Gated d b s g) : Gated d b (emit s source kind sev district l) g :=
  h.congr (emit_dists _ _ _ _ _ _) (emit_groups _ _ _ _ _ _) (emit_now _ _ _ _ _ _)

theorem msix_gated (f vec : Nat) (h : Gated d b s g) : Gated d b (msix s f vec) g := .ite h (.ite (h.congr rfl rfl rfl) (h.congr rfl rfl rfl))

theorem raiseVec_gated (f vec : Nat) (h : Gated d b s g) : Gated d b (raiseVec s f vec) g :=
  .ite (.ite (h.congr rfl rfl rfl) ((msix_gated f vec h).congr rfl rfl rfl)) (msix_gated f vec h)

theorem raiseBound_gated (i purpose : Nat) (h : Gated d b s g) : Gated d b (raiseBound s i purpose) g := by
  unfold raiseBound
  split
  · exact raiseVec_gated _ _ h
  · exact h

theorem gateEvent_gated (i kind sev : Nat) (l : List Nat) (h : Gated d b s g) : Gated d b (gateEvent s i kind sev l) g :=
  raiseBound_gated _ _ (emit_gated _ _ _ _ _ h)

theorem modSnap_gated (i : Nat) (f : Snap → Snap) (h : Gated d b s g) : Gated d b (modSnap s i f) g := modDist_gated i (fun _ => rfl) h

theorem onLinks_gated (l : Links) (h : Gated d b s g) : Gated d b (onLinks s l) g := h.congr rfl rfl rfl

theorem setDistState_gated (i st : Nat) (h : Gated d b s g) : Gated d b (setDistState s i st) g :=
  .ite h (emit_gated _ _ _ _ _ (modDist_gated i (fun _ => rfl) h))

theorem beginPause_gated (i : Nat) (drained : Option Nat) (h : Gated d b s g) : Gated d b (beginPause s i drained) g :=
  setDistState_gated _ _ (modDist_gated i (fun _ => rfl) h)

theorem leaveRunning_gated (i : Nat) (h : Gated d b s g) : Gated d b (leaveRunning s i) g :=
  .ite (.ite (beginPause_gated _ _ (setDistState_gated _ _ h)) (setDistState_gated _ _ h)) (.ite (modDist_gated i (fun _ => rfl) h) h)

theorem finishOk_gated (p : Pend) (l : Bytes) (h : Gated d b s g) : Gated d b (finishOk s p l) g :=
  h.congr (finishOk_dists _ _ _) (finishOk_groups _ _ _) (finishOk_now _ _ _)

theorem writeRegion_gated (p : Policy) (r i : Nat) (l : Bytes) (h : Gated d b s g) : Gated d b (writeRegion s p r i l) g := by
  have hwritten : ∀ {t : State} (k v e : Nat), Gated d b t g → Gated d b (holdIn t k v e) g := fun _ _ _ h => h.congr rfl rfl rfl
  exact .ite (hwritten _ _ _ (.ite (h.congr rfl rfl rfl) h)) h

theorem rewriteChecks_gated (i own mir kind loss : Nat) (h : Gated d b s g) : Gated d b (rewriteChecks s i own mir kind loss) g := by
  unfold rewriteChecks
  dsimp only
  split
  · next p c _ _ =>
    have hown : Gated d b (if c.ownDone = true then writeRegion s p own 0 (withCheck c.head kind loss false) else s) g :=
      .ite (writeRegion_gated _ _ _ _ h) h
    exact .ite (writeRegion_gated _ _ _ _ hown) hown
  · exact h

theorem closeSnap_gated (i : Nat) (h : Gated d b s g) : Gated d b (closeSnap s i) g := by
  unfold closeSnap
  dsimp only
  split
  · exact h
  · refine .ite h ?_
    split
    · exact modSnap_gated _ _ h
    · exact emit_gated _ _ _ _ _ (modSnap_gated _ _ (rewriteChecks_gated _ _ _ _ _ h))

theorem snapCheck_gated (i step kind loss : Nat) (h : Gated d b s g) : Gated d b (snapCheck s i step kind loss) g := by
  unfold snapCheck
  split
  · exact .ite (closeSnap_gated _ (modSnap_gated _ _ h)) h
  · exact h

theorem snapRunEnds_gated (i : Nat) (h : Gated d b s g) : Gated d b (snapRunEnds s i) g := by
  unfold snapRunEnds
  split
  · exact snapCheck_gated _ _ _ _ h
  · exact h

theorem snapStart_gated (i cause : Nat) (h : Gated d b s g) : Gated d b (snapStart s i cause) g := .ite h (emit_gated _ _ _ _ _ (modSnap_gated _ _ h))

theorem logVerify_gated (i seq result loss : Nat) (h : Gated d b s g) : Gated d b (logVerify s i seq result loss) g :=
  emit_gated _ _ _ _ _ (modSnap_gated _ _ h)

theorem startRun_gated (i handle : Nat) (by_ : RunBy) (tStart : Nat) (h : Gated d b s g) : Gated d b (startRun s i handle by_ tStart) g := by
  refine modDist_gated i (fun x => ?_) h
  split <;> rfl

/-! ## What changes it -/

theorem modGate_gated (f : Gate → Gate) (h : Gated d b s g) : Gated d b (modGate s d f) (f g) :=
  ⟨by rw [modGate_gate, h.gate], h.groups, h.now⟩

end

/-- A message of the gate changes the links alone. -/
theorem gateSend_onLinks (j : Job) (m : GateMsg) : ∀ (ps : List Nat) (s : State), ∃ l, gateSend s j ps m = onLinks s l
  | [], s => ⟨s.links, rfl⟩
  | p :: ps, s => by
    obtain ⟨l, hl⟩ := gateSend_onLinks j m ps (sysSend s 65 0xFFFFFF ((j.members.getD p ⟨0, none⟩).id) 0 (gateArgs m) [])
    refine ⟨l, hl.trans ?_⟩
    rw [sysSend_onLinks]
    rfl

theorem gateSpread_onLinks (s : State) (j : Job) (m : GateMsg) : ∃ l, gateSpread s j m = onLinks s l := gateSend_onLinks j m _ s

theorem gateSpread_gated {d : Nat} {b s : State} {g : Gate} (j : Job) (m : GateMsg) (h : Gated d b s g) : Gated d b (gateSpread s j m) g := by
  obtain ⟨l, hl⟩ := gateSpread_onLinks s j m
  rw [hl]
  exact onLinks_gated l h

/-! ## The end of a loop, the next step and the next opening (R332, R345, R348) -/

/-- The gate as the end of a STEP_RUN leaves it. -/
def loopEnded (code : Nat) (g : Gate) : Gate := { g with
  code := code, run := none, opening := false, stop := false, acc := none, accC := none, mine := false, sent := false, held := none
  commit := none, updWait := false, early := none, ends := false }

/-- The gate one step on. -/
def stepAdvanced (g : Gate) : Gate := { g with
  step := (g.step + 1) % 2 ^ 64
  cursor := (g.cursor + ((g.job.map (·.recs)).getD 0)) % 2 ^ 64
  replay := 0, run := g.run.map fun r => { r with done := r.done + 1 } }

section
variable {d : Nat} {b s : State} {g : Gate}

theorem endLoop_gated (e code : Nat) (h : Gated d b s g) : Gated d b (endLoop d e code s) (loopEnded code g) := by
  have hended := modGate_gated (loopEnded code) (snapRunEnds_gated d h)
  unfold endLoop
  dsimp only
  split
  · exact leaveRunning_gated d (finishOk_gated _ _ hended)
  · exact hended

theorem advanceStep_gated (h : Gated d b s g) : Gated d b (advanceStep s d) (stepAdvanced g) := modGate_gated stepAdvanced h

/-- What the next opening makes of the gate: an opening, the end of the loop, or without a loop IDLE. -/
theorem nextOpening_gated (h : Gated d b s g) : ∃ t, Gated d b (nextOpening d s) t ∧ t.record = g.record ∧ t.step = g.step ∧ t.cursor = g.cursor ∧
    t.replay = g.replay ∧ (g.code = 0 → t.code = 0) := by
  unfold nextOpening
  dsimp only
  rw [h.gate]
  split
  · refine ⟨_, modGate_gated _ h, rfl, rfl, rfl, rfl, fun h0 => ?_⟩
    rw [h0]
    rfl
  · split
    · exact ⟨_, endLoop_gated _ _ h, rfl, rfl, rfl, rfl, fun _ => rfl⟩
    · split
      · exact ⟨_, endLoop_gated _ _ h, rfl, rfl, rfl, rfl, fun _ => rfl⟩
      · split
        · exact ⟨_, endLoop_gated _ _ h, rfl, rfl, rfl, rfl, id⟩
        · exact ⟨_, modGate_gated _ h, rfl, rfl, rfl, rfl, id⟩

end

/-- The loop goes on: the next attempt opens. -/
theorem nextOpening_opens {d : Nat} {s : State} {r : StepRun} (hr : (getDist s d).gate.run = some r) (hstop : (getDist s d).gate.stop = false)
    (hends : (getDist s d).gate.ends = false) (hcount : r.count = 0 ∨ r.done < r.count) :
    nextOpening d s = modGate s d fun g => { g with opening := true } := by
  have hmore : ¬(r.count ≠ 0 ∧ r.count ≤ r.done) := by omega
  unfold nextOpening
  dsimp only
  rw [hr]
  dsimp only
  rw [hstop, hends, if_neg Bool.false_ne_true, if_neg hmore, if_neg Bool.false_ne_true]

/-! ## Verdicts (R340, R342, R346) -/

/-- The outcome record of a gate at a time (R346). -/
def outcomeOf (g : Gate) (verdict causes : Nat) (m : GateMsg) (now : Nat) : Outcome :=
  { step := g.step, cursor := g.cursor, verdict := verdict, causes := causes, replays := min g.replay 15, approx := m.approx
    loss := m.loss, nf := m.nf, poison := m.poison, tOpen := g.tOpen, tEval := g.tEval, tDone := now }

/-- The gate of a step that commits, its inputs at zero again for the update (R344). -/
def stepCommitted (m : GateMsg) (now : Nat) (g : Gate) : Gate := { g with
  record := outcomeOf g 1 0 m now, code := 3, held := none, commit := none, acc := none, mine := false, sent := false, nf := 0, poison := 0
  taint := false, fault := false, broken := false }

/-- The gate of a step that is refused, before the next attempt is settled. -/
def stepRefused (causes : Nat) (m : GateMsg) (now : Nat) (g : Gate) : Gate := { g with
  record := outcomeOf g 2 causes m now, code := 4, held := none, commit := none, acc := none, mine := false, sent := false, early := none }

section
variable {d : Nat} {b s : State} {g : Gate}

theorem writeOutcome_gated (verdict causes : Nat) (m : GateMsg) (h : Gated d b s g) :
    Gated d b (writeOutcome s d verdict causes m) { g with record := outcomeOf g verdict causes m (time b) } := by
  have hnow : time s = time b := by rw [time, time, h.now]
  have hw := modGate_gated (fun g => { g with record := outcomeOf g verdict causes m (time s) }) h
  rw [hnow] at hw
  unfold writeOutcome
  rw [hnow]
  exact hw

/-- After a refusal the record stands, whatever becomes of the loop. -/
theorem afterRefusal_gated (causes : Nat) (h : Gated d b s g) : ∃ t, Gated d b (afterRefusal d causes s) t ∧ t.record = g.record := by
  unfold afterRefusal
  dsimp only
  rw [h.gate]
  split
  · exact ⟨g, h, rfl⟩
  · split
    · obtain ⟨t, ht, hrec, -⟩ := nextOpening_gated (modGate_gated (fun g => { g with replay := g.replay + 1 }) h)
      exact ⟨t, ht, hrec⟩
    · split
      · obtain ⟨t, ht, hrec, -⟩ := nextOpening_gated (advanceStep_gated h)
        exact ⟨t, ht, hrec⟩
      · split
        · exact ⟨_, endLoop_gated _ _ h, rfl⟩
        · exact ⟨_, modGate_gated _ h, rfl⟩

/-- The verify of a verdict is logged at position 0 and dropped at the others: the gate does not see it (R411). -/
theorem verified_gated {c : Prop} [Decidable c] (i seq result loss : Nat) (f : Snap → Snap) (h : Gated d b s g) :
    Gated d b (if c then logVerify s i seq result loss else modSnap s i f) g := .ite (logVerify_gated _ _ _ _ h) (modSnap_gated _ _ h)

theorem refuseStep_gated (causes : Nat) (m : GateMsg) (h : Gated d b s g) :
    ∃ t, Gated d b (refuseStep d causes m s) t ∧ t.record = outcomeOf g 2 causes m (time b) := by
  have hwritten := writeOutcome_gated 2 causes m h
  have hrefused := gateEvent_gated d 0x181 sevNotice [g.step, causes, m.nf, min g.replay 15] (modGate_gated (fun g => { g with
    code := 4, held := none, commit := none, acc := none, mine := false, sent := false, early := none }) hwritten)
  unfold refuseStep
  dsimp only
  rw [hwritten.gate]
  split
  · refine afterRefusal_gated (g := stepRefused causes m (time b) g) causes (verified_gated d _ _ _ _ (.ite ?_ hrefused))
    exact snapCheck_gated _ _ _ _ hrefused
  · refine afterRefusal_gated (g := stepRefused causes m (time b) g) causes (.ite ?_ hrefused)
    exact snapCheck_gated _ _ _ _ hrefused

theorem startUpdate_gated (h : Gated d b s g) : ∃ w, Gated d b (startUpdate d s) { g with updWait := w } := by
  unfold startUpdate
  dsimp only
  split
  · exact ⟨_, modGate_gated _ h⟩
  · split
    · exact ⟨_, startRun_gated _ _ _ _ (modGate_gated _ h)⟩
    · exact ⟨g.updWait, h⟩

theorem commitStep_gated (m : GateMsg) (h : Gated d b s g) : ∃ w, Gated d b (commitStep d m s) { stepCommitted m (time b) g with updWait := w } := by
  have hwritten := writeOutcome_gated 1 0 m h
  have hcommitted := modGate_gated (fun g => { g with
    code := 3, held := none, commit := none, acc := none, mine := false, sent := false, nf := 0, poison := 0, taint := false, fault := false
    broken := false }) hwritten
  unfold commitStep
  dsimp only
  exact startUpdate_gated (snapCheck_gated _ _ _ _ (modSnap_gated _ _ hcommitted))

end

end Sys2Proof.Machine
end

section
/-! The STEP_ commands (R330, R342, R345, R346, R348). -/

namespace Sys2Proof.Machine

/-! ## Bindings, and the state that a district's command acts on -/

/-- A change of a function's bindings leaves the replies and the count of resets. -/
theorem binds_keep (s : State) (i : Nat) (k : Fn → List VecBind) (f : Nat) : let t := modFn s i fun x => { x with binds := k x }
    (getFn t f).replies = (getFn s f).replies ∧ (getFn t f).epoch = (getFn s f).epoch := by
  dsimp only
  by_cases hf : f = i
  · rw [hf, getFn_modFn_self]
    exact ⟨rfl, rfl⟩
  · rw [getFn_modFn_ne _ _ hf]
    exact ⟨rfl, rfl⟩

theorem unbind_replies (s : State) (d purpose f : Nat) : (getFn (unbind s d purpose) f).replies = (getFn s f).replies :=
  (binds_keep s d (fun x => x.binds.filter fun b => b.purpose != purpose) f).1

/-- A vector bound changes the district's function alone, and adds no reply. -/
theorem bindVec_keeps {s t : State} {d vec purpose v : Nat} (h : bindVec s d vec purpose = some (v, t)) :
    t.dists = s.dists ∧ t.pipes = s.pipes ∧ ∀ f, (getFn t f).replies = (getFn s f).replies ∧ (getFn t f).epoch = (getFn s f).epoch := by
  have hadded : ∀ w, t = modFn s d (fun x => { x with binds := x.binds ++ [⟨purpose, w⟩] }) →
      t.dists = s.dists ∧ t.pipes = s.pipes ∧ ∀ f, (getFn t f).replies = (getFn s f).replies ∧ (getFn t f).epoch = (getFn s f).epoch := by
    rintro w rfl
    exact ⟨rfl, rfl, binds_keep s d fun x => x.binds ++ [⟨purpose, w⟩]⟩
  unfold bindVec at h
  dsimp only at h
  split at h
  · exact hadded _ (Prod.mk.inj (Option.some.inj h)).2.symm
  · split at h
    · split at h
      · exact hadded _ (Prod.mk.inj (Option.some.inj h)).2.symm
      · exact absurd h (by simp)
    · exact absurd h (by simp)

theorem legalIn_ok {s : State} {d : Nat} {ok : List Nat} (h : (getDist s d).state ∈ ok) : (legalIn s d ok).1 = false := by
  rw [legalIn, List.contains_iff_mem.mpr h]
  rfl

theorem gateIn_ok {x : Dist} {ok : List Nat} (h : x.gate.code ∈ ok) : (gateIn x ok).1 = false := by
  rw [gateIn, List.contains_iff_mem.mpr h]
  rfl

/-- A command of a training district whose checks pass acts on the state with the district's loop woken. -/
theorem stepCommand_acts {k : Spec} {c : FwReq} {s : State} {fmt : Bool} {own : State → List (Bool × Err)} {eff : State → State} (h : Sendable k c s)
    (hwide : k.wide = false) (hfmt : fmt = true) (hown : (own s).all (fun e => !e.1) = true) :
    fwStep k c (fun s => headChecks k fmt true c s ++ own s) eff s = .next (eff (wakeLoop s (cmdDist c))) :=
  fwStep_district_acts h hwide hfmt (firstErr_all hown)

theorem wakeLoop_gate (s : State) (d : Nat) : (getDist (wakeLoop s d) d).gate = (getDist s d).gate := wakeLoop_field Dist.gate (fun _ _ => rfl) s d d

/-- A reply after a change of the gate alone. -/
theorem gated_reply (s : State) (c : FwReq) (d cmd : Nat) (f : Gate → Gate) (b : Bytes) : let t := replyOk (modGate (wakeLoop s d) d f) c cmd b
    repliesAdd s t c.fn [okReply c cmd b] ∧ (getDist t d).gate = f (getDist s d).gate := by
  refine ⟨repliesAdd_wakeLoop.mp (replyOk_modDist_adds _ _ _ _ _ _), ?_⟩
  rw [getDist_replyOk, modGate_gate, wakeLoop_gate]

/-! ## STEP_CONFIG (R330) -/

/-- The gate of a job as STEP_CONFIG defines it. -/
def jobGate (p : Bytes) (j : Job) (g : Gate) : Gate := { g with
  code := 0, job := some j, step := fld p 127 64, cursor := fld p 191 128, replay := 0, opening := false, feeding := none
  acc := none, accC := none, mine := false, sent := false }

/-- The vector of a job bound, where one is free. -/
def stepBound (d vec : Nat) (s : State) : State := match bindVec (unbind s d vbStep) d vec vbStep with
  | some (_, t) => t
  | none => s

theorem stepBound_keeps (d vec : Nat) (s : State) : (stepBound d vec s).dists = s.dists ∧ ∀ f, (getFn (stepBound d vec s) f).replies = (getFn s f).replies := by
  unfold stepBound
  split
  · next v t hbind =>
    obtain ⟨hdists, -, hfns⟩ := bindVec_keeps hbind
    exact ⟨hdists, fun f => (hfns f).1.trans (unbind_replies _ _ _ _)⟩
  · exact ⟨rfl, fun _ => rfl⟩

/-- The state of a district whose job STEP_CONFIG has defined, before the reply. -/
def jobDefined (d : Nat) (p : Bytes) (j : Job) (s : State) : State := unlinkFeeds (stepBound d (fld p 47 40) (modGate s d (jobGate p j))) d j

theorem jobDefined_keeps (d : Nat) (p : Bytes) (j : Job) (s : State) : getDist (jobDefined d p j s) d = { getDist s d with gate := jobGate p j (getDist s d).gate } ∧
    ∀ f, (getFn (jobDefined d p j s) f).replies = (getFn s f).replies := by
  obtain ⟨hdists, hfns⟩ := stepBound_keeps d (fld p 47 40) (modGate s d (jobGate p j))
  refine ⟨?_, hfns⟩
  rw [← modGate_gate s d (jobGate p j)]
  exact getDist_congr hdists d

theorem jobDefined_reply (c : FwReq) (p : Bytes) (j : Job) {s : State} {d : Nat} (hstate : (getDist s d).state = 2) :
    let t := replyOk (jobDefined d p j (wakeLoop s d)) c 0x0600 []; let h := (getDist t d).gate
    repliesAdd s t c.fn [okReply c 0x0600 []] ∧ h.code = 0 ∧ h.job = some j ∧ h.step = fld p 127 64 ∧ h.cursor = fld p 191 128 ∧ h.replay = 0 ∧
      h.record = (getDist s d).gate.record ∧ (getDist t d).state = 2 := by
  obtain ⟨hdist, hfns⟩ := jobDefined_keeps d p j (wakeLoop s d)
  generalize jobDefined d p j (wakeLoop s d) = u at hdist hfns
  have hadds : repliesAdd s (replyOk u c 0x0600 []) c.fn [okReply c 0x0600 []] := by
    rw [repliesAdd, replyOk_adds, hfns, getFn_congr (wakeLoop_fns s d)]
  dsimp only
  rw [getDist_replyOk, hdist, wakeLoop_gate]
  exact ⟨hadds, rfl, rfl, rfl, rfl, rfl, rfl, (wakeLoop_state s d d).trans hstate⟩

theorem stepConfig_acts {c : FwReq} {s : State} {ms ls : Bytes} (hserving : (getDist s (cmdDist c)).serving = false)
    (hms : tableBytes s (getDist s (cmdDist c)) (fld c.payload 207 200) (fld c.payload 383 320) (4 * min 4096 (fld c.payload 396 384)) = ms)
    (hls : tableBytes s (getDist s (cmdDist c)) (fld c.payload 215 208) (fld c.payload 511 448) (32 * min 4096 (fld c.payload 447 432)) = ls)
    (h : Sendable specStepConfig c s) (hlen : c.payload.length = 136) (hzero : zeroAt c.payload stepRsvd = true) (hlist : memberListOk ms = true)
    (hlayers : ∀ r ∈ chunksOf 32 4097 ls, zeroAt r [(31, 30), (63, 48), (255, 192)] = true)
    (hjob : jobOk s (getDist s (cmdDist c)) c.payload (jobOf c.payload ms ls) = true) (hstate : (getDist s (cmdDist c)).state = 2)
    (hcode : (getDist s (cmdDist c)).gate.code ∈ [0, 5]) (hvec : vecFree (unbind s (cmdDist c) vbStep) (cmdDist c) (fld c.payload 47 40) = true) :
    exec (.stepConfig c) s = .next (replyOk (jobDefined (cmdDist c) c.payload (jobOf c.payload ms ls) (wakeLoop s (cmdDist c))) c 0x0600 []) := by
  subst hms hls
  exact stepCommand_acts h rfl (by simpa [hlen, hzero, hlist] using hlayers)
    (by simp [notTraining, hserving, hjob, legalIn_ok (List.mem_singleton.mpr hstate), gateIn_ok hcode, hvec])

/-! ## STEP_RUN (R348) -/

/-- The loop of a STEP_RUN begun, before the district's state changes. -/
def runBegun (c : FwReq) (s : State) : State :=
  modGate (replyAccepted s c 0x0601) (cmdDist c) fun g =>
    { g with run := some ⟨pendOf (replyAccepted s c 0x0601) c 0x0601, fld c.payload 31 0, 0⟩, opening := true, stop := false }

theorem stepRun_acts {c : FwReq} {s : State} (hserving : (getDist s (cmdDist c)).serving = false) (h : Sendable specStepRun c s) (hlen : c.payload.length = 8)
    (hzero : zeroAt c.payload [(63, 32)] = true) (hstate : (getDist s (cmdDist c)).state = 2) (hready : jobReady (getDist s (cmdDist c)) = true)
    (hcode : (getDist s (cmdDist c)).gate.code = 0) (hfill : (getDist s (cmdDist c)).snap.code ≠ 5) (hretain : (retainBlocks s).1 = false) (hpwr : s.pwr.state ≠ 2) :
    exec (.stepRun c) s = .next (setDistState (runBegun c (wakeLoop s (cmdDist c))) (cmdDist c) 3) := by
  have hawake : autoWake (wakeLoop s (cmdDist c)) = wakeLoop s (cmdDist c) := by
    rw [autoWake, if_neg]
    rintro ⟨h2, -⟩
    exact hpwr ((congrArg Pwr.state (wakeLoop_pwr s (cmdDist c))).symm.trans h2)
  refine (stepCommand_acts h rfl (by simp [hlen, hzero]) (by simp [notTraining, hserving, legalIn_ok (List.mem_singleton.mpr hstate), hready,
    gateIn_ok (ok := [0]) (List.mem_singleton.mpr hcode), hfill, hretain])).trans ?_
  dsimp only
  rw [hawake]
  rfl

theorem runBegun_state {c : FwReq} {s u : State} (hu : u.fns = s.fns) (hstate : (getDist u (cmdDist c)).state = 2) :
    let t := setDistState (runBegun c u) (cmdDist c) 3; let h := (getDist t (cmdDist c)).gate; let g := (getDist u (cmdDist c)).gate
    repliesAdd s t c.fn [acceptedReply c 0x0601] ∧ (getDist t (cmdDist c)).state = 3 ∧ h.run = some ⟨pendOf s c 0x0601, fld c.payload 31 0, 0⟩ ∧
      h.opening = true ∧ h.stop = false ∧ h.step = g.step ∧ h.cursor = g.cursor := by
  have hpend : pendOf (replyAccepted u c 0x0601) c 0x0601 = pendOf s c 0x0601 := by rw [pendOf_replyAccepted, pendOf, getFn_congr hu, pendOf]
  have hdist : getDist (runBegun c u) (cmdDist c) = { getDist u (cmdDist c) with gate := { (getDist u (cmdDist c)).gate with
      run := some ⟨pendOf s c 0x0601, fld c.payload 31 0, 0⟩, opening := true, stop := false } } := by
    rw [runBegun, modGate_gate, getDist_replyAccepted, hpend]
  have hfns : repliesAdd s (runBegun c u) c.fn [acceptedReply c 0x0601] := repliesAdd_of_fns_left (replyAccepted_adds u c 0x0601) hu
  dsimp only
  rw [setDistState_self (by rw [hdist]; exact fun h3 => absurd (hstate.symm.trans h3) (by decide)), hdist]
  exact ⟨repliesAdd_of_fns hfns (setDistState_fns _ _ _), rfl, rfl, rfl, rfl, rfl, rfl⟩

/-! ## STEP_STOP (R345, R348) -/

theorem stepStop_acts {c : FwReq} {s : State} (hserving : (getDist s (cmdDist c)).serving = false) (h : Sendable specStepStop c s) (hp : c.payload = [])
    (hstate : (getDist s (cmdDist c)).state ∈ [1, 2, 3, 4, 5, 6]) (hcode : (getDist s (cmdDist c)).gate.code ∈ [1, 2, 3, 4]) :
    exec (.stepStop c) s = .next (replyOk (if (getDist s (cmdDist c)).gate.code = 4 ∧ (getDist s (cmdDist c)).state ≠ 5
      then endLoop (cmdDist c) 1 0 (wakeLoop s (cmdDist c)) else modGate (wakeLoop s (cmdDist c)) (cmdDist c) fun g => { g with stop := true }) c 0x0602 []) :=
  stepCommand_acts h rfl (by rw [hp]; rfl) (by simp [notTraining, hserving, legalIn_ok (ok := anyState) hstate, gateIn_ok hcode])

/-- The loop that ends answers its STEP_RUN (R348). -/
theorem endLoop_answers {d e code : Nat} {s : State} {r : StepRun} (hr : (getDist s d).gate.run = some r)
    (he : (getFn s r.pend.req.fn).epoch = r.pend.epoch) :
    doneReply r.pend 0 0 (pack 16 [(64, (getDist s d).gate.step), (8, e)]) ∈ (getFn (endLoop d e code s) r.pend.req.fn).replies := by
  have hgate := (snapRunEnds_gated d (.refl d s)).gate
  have hepoch := ((snapRunEnds_calm d (.refl s)).answers r.pend.req.fn).1
  unfold endLoop
  dsimp only
  rw [hgate, hr]
  dsimp only
  refine ((leaveRunning_calm d (.refl _)).answers _).2.subset (finishOk_mem ?_ _)
  exact hepoch.trans he

/-! ## STEP_COMMIT and STEP_RESUME (R340, R342, R345) -/

section
variable {c : FwReq} {s : State} {j : Job} (hserving : (getDist s (cmdDist c)).serving = false) (hj : (getDist s (cmdDist c)).gate.job = some j)
  (hpos : j.myPos = 0) (hlen : c.payload.length = 8) (hstate : (getDist s (cmdDist c)).state ∈ [1, 2, 3, 4, 5, 6])
include hserving hj hpos hlen hstate

theorem stepCommit_acts (hhold : j.hold = true) (h : Sendable specStepCommit c s) (hzero : zeroAt c.payload [(63, 1)] = true)
    (hcode : (getDist s (cmdDist c)).gate.code ∈ [1, 2]) : exec (.stepCommit c) s = .next (replyOk (if (getDist s (cmdDist c)).gate.held.isSome
      then gateChoose (cmdDist c) .decision (b2n (bit c.payload 0)) (wakeLoop s (cmdDist c))
      else modGate (wakeLoop s (cmdDist c)) (cmdDist c) fun g => { g with commit := some (bit c.payload 0) }) c 0x0603 []) :=
  stepCommand_acts h rfl (by simp [hlen, hzero])
    (by simp [notTraining, notZero, hserving, hj, hpos, legalIn_ok (ok := anyState) hstate, hhold, gateIn_ok hcode])

theorem stepResume_acts (h : Sendable specStepResume c s) (hzero : zeroAt c.payload [(63, 2)] = true) (hcode : (getDist s (cmdDist c)).gate.code = 4)
    (hchoice : fld c.payload 1 0 ≠ 3) : exec (.stepResume c) s =
      .next (replyOk (gateChoose (cmdDist c) .resume (fld c.payload 1 0) (wakeLoop s (cmdDist c))) c 0x0604 []) :=
  stepCommand_acts h rfl (by simp [hlen, hzero])
    (by simp [notTraining, notZero, hserving, hj, hpos, legalIn_ok (ok := anyState) hstate, hchoice, gateIn_ok (ok := [4]) (List.mem_singleton.mpr hcode)])

end

/-- The message of position 0's decision or choice. -/
def choiceOf (j : Job) (round : GateRound) (action : Nat) : GateMsg := { round := round, sig := j.sig, action := action }

section
variable {d : Nat} {s : State} {j : Job} (hj : (getDist s d).gate.job = some j)
include hj

/-- In a PAUSED district the choice waits (R371). -/
theorem gateChoose_waits (round : GateRound) (action : Nat) (hstate : (getDist s d).state = 5) :
    gateChoose d round action s = modGate s d fun g => { g with waiting := g.waiting ++ [choiceOf j round action] } := by
  unfold gateChoose gateTake
  rw [hj]
  exact if_pos hstate

theorem gateChoose_decides (action : Nat) (hstate : (getDist s d).state ≠ 5) :
    gateChoose d .decision action s = applyDecision d action (gateSpread s j (choiceOf j .decision action)) := by
  unfold gateChoose gateTake gateReceive signed
  rw [hj]
  simp [hstate, choiceOf]

theorem gateChoose_resumes (action : Nat) (hstate : (getDist s d).state ≠ 5) :
    gateChoose d .resume action s = applyResume d action (gateSpread s j (choiceOf j .resume action)) := by
  unfold gateChoose gateTake gateReceive signed
  rw [hj]
  simp [hstate, choiceOf]

end

/-- Position 0's decision on a held verdict: refused with the cause HOST, or committed (R340). -/
theorem applyDecision_gated {d : Nat} {b s : State} {g : Gate} {v : GateMsg} (refuse : Bool) (hv : g.held = some v) (h : Gated d b s g) :
    ∃ t, Gated d b (applyDecision d (b2n refuse) s) t ∧ t.record = (if refuse then outcomeOf g 2 cHost v (time b) else outcomeOf g 1 0 v (time b)) ∧
      (refuse = false → t.code = 3) := by
  unfold applyDecision
  dsimp only
  rw [h.gate, hv]
  dsimp only
  cases refuse with
  | true =>
    obtain ⟨t, ht, hrec⟩ := refuseStep_gated cHost v h
    exact ⟨t, ht, hrec, fun hf => absurd hf (by decide)⟩
  | false =>
    obtain ⟨w, ht⟩ := commitStep_gated v h
    exact ⟨_, ht, rfl, fun _ => rfl⟩

/-! ## Position 0's choice after a refusal (R342) -/

section
variable {d : Nat} {s : State} {r : StepRun} (hcode : (getDist s d).gate.code = 4) (hr : (getDist s d).gate.run = some r)
  (hstop : (getDist s d).gate.stop = false) (hends : (getDist s d).gate.ends = false)
include hcode hr hstop hends

theorem applyResume_replays (hcount : r.count = 0 ∨ r.done < r.count) : applyResume d 0 s =
    modGate (modGate s d fun g => { g with replay := g.replay + 1 }) d fun g => { g with opening := true } := by
  have hgate := modGate_gate s d fun g => { g with replay := g.replay + 1 }
  rw [applyResume, if_neg (not_not.mpr hcode), if_neg (by decide), if_neg (by decide)]
  exact nextOpening_opens (r := r) (by rw [hgate]; exact hr) (by rw [hgate]; exact hstop) (by rw [hgate]; exact hends) hcount

theorem applyResume_skips (hcount : r.count = 0 ∨ r.done + 1 < r.count) : applyResume d 1 s =
    modGate (advanceStep s d) d fun g => { g with opening := true } := by
  have hgate : (getDist (advanceStep s d) d).gate = stepAdvanced (getDist s d).gate := (advanceStep_gated (.refl d s)).gate
  rw [applyResume, if_neg (not_not.mpr hcode), if_neg (by decide), if_pos rfl]
  refine nextOpening_opens (r := { r with done := r.done + 1 }) ?_ (by rw [hgate]; exact hstop) (by rw [hgate]; exact hends) hcount
  rw [hgate, stepAdvanced, hr]
  rfl

end

theorem applyResume_ends {d : Nat} {s : State} (hcode : (getDist s d).gate.code = 4) : applyResume d 2 s = endLoop d 2 0 s := by
  rw [applyResume, if_neg (not_not.mpr hcode), if_pos rfl]

/-- What a choice spread to the members leaves of the gate, the functions and the time. -/
theorem spread_keeps (s : State) (d : Nat) (j : Job) (m : GateMsg) : let u := gateSpread (wakeLoop s d) j m
    (getDist u d).gate = (getDist s d).gate ∧ u.fns = s.fns ∧ u.now = s.now := by
  obtain ⟨l, hl⟩ := gateSpread_onLinks (wakeLoop s d) j m
  dsimp only
  rw [hl]
  exact ⟨wakeLoop_gate s d, wakeLoop_fns s d, wakeLoop_now s d⟩

theorem setStep_gate (s : State) (d step cursor : Nat) : setStep s d step cursor = modGate s d fun g =>
    { g with code := 0, step := step, cursor := cursor, replay := 0, opening := false } := rfl

/-! ## STEP_INFO and STEP_SET (R346, R348) -/

theorem stepInfo_acts {c : FwReq} {s : State} (hserving : (getDist s (cmdDist c)).serving = false) (h : Sendable specStepInfo c s) (hp : c.payload = [])
    (hstate : (getDist s (cmdDist c)).state ∈ [1, 2, 3, 4, 5, 6]) : exec (.stepInfo c) s = .next (replyOk (wakeLoop s (cmdDist c)) c 0x0605
      (pack 16 [(8, (getDist s (cmdDist c)).gate.code), (56, 0), (64, (getDist s (cmdDist c)).gate.step)] ++ outcomeBytes (getDist s (cmdDist c)).gate.record)) :=
  stepCommand_acts h rfl (by rw [hp]; rfl) (by simp [notTraining, hserving, legalIn_ok (ok := anyState) hstate])

theorem stepSet_acts {c : FwReq} {s : State} (hserving : (getDist s (cmdDist c)).serving = false) (h : Sendable specStepSet c s)
    (hlen : c.payload.length = 16) (hstate : (getDist s (cmdDist c)).state ∈ [2, 6]) (hcode : (getDist s (cmdDist c)).gate.code ∈ [0, 5]) :
    exec (.stepSet c) s =
      .next (replyOk (setStep (wakeLoop s (cmdDist c)) (cmdDist c) (fld c.payload 63 0) (fld c.payload 127 64)) c 0x0606 []) :=
  stepCommand_acts h rfl (by rw [hlen]; rfl) (by simp [notTraining, hserving, legalIn_ok hstate, gateIn_ok hcode])

/-! ## What the ends of a loop and of a verdict leave -/

theorem stopped_reply {c : FwReq} {s : State} {d : Nat} {r : StepRun} (hr : (getDist s d).gate.run = some r)
    (he : (getFn s r.pend.req.fn).epoch = r.pend.epoch) : let t := replyOk (endLoop d 1 0 (wakeLoop s d)) c 0x0602 []
    okReply c 0x0602 [] ∈ (getFn t c.fn).replies ∧
      doneReply r.pend 0 0 (pack 16 [(64, (getDist s d).gate.step), (8, 1)]) ∈ (getFn t r.pend.req.fn).replies ∧
      (getDist t d).gate.code = 0 ∧ (getDist t d).gate.run = none ∧ (getDist t d).gate.step = (getDist s d).gate.step := by
  have hdone := endLoop_answers (d := d) (e := 1) (code := 0) (s := wakeLoop s d) (by rw [wakeLoop_gate, hr]) (by rw [getFn_congr (wakeLoop_fns s d), he])
  have hgate := (endLoop_gated 1 0 (.refl d (wakeLoop s d))).gate
  rw [wakeLoop_gate] at hdone hgate
  generalize endLoop d 1 0 (wakeLoop s d) = u at hdone hgate
  dsimp only
  rw [getDist_replyOk, hgate]
  exact ⟨okReply_mem _ _ _ _, ((queueReply_calm _ _ (.refl u)).answers _).2.subset hdone, rfl, rfl, rfl⟩

theorem decided_reply {s : State} {d : Nat} {v : GateMsg} (j : Job) (c : FwReq) (hv : (getDist s d).gate.held = some v) : let g := (getDist s d).gate
    let t := replyOk (applyDecision d (b2n (bit c.payload 0)) (gateSpread (wakeLoop s d) j (choiceOf j .decision (b2n (bit c.payload 0))))) c 0x0603 []
    let o := (getDist t d).gate.record
    okReply c 0x0603 [] ∈ (getFn t c.fn).replies ∧ o.step = g.step ∧ o.loss = v.loss ∧ (bit c.payload 0 = true → o.verdict = 2 ∧ o.causes = 32) ∧
      (bit c.payload 0 = false → o.verdict = 1 ∧ o.causes = 0 ∧ (getDist t d).gate.code = 3) := by
  have hspread := gateSpread_gated j (choiceOf j .decision (b2n (bit c.payload 0))) (.refl d (wakeLoop s d))
  rw [wakeLoop_gate] at hspread
  obtain ⟨t, ht, hrec, hcode⟩ := applyDecision_gated (bit c.payload 0) hv hspread
  dsimp only
  rw [getDist_replyOk, ht.gate, hrec]
  refine ⟨okReply_mem _ _ _ _, ?_, ?_, fun hb => ?_, fun hb => ?_⟩
  · split <;> rfl
  · split <;> rfl
  · rw [if_pos hb]
    exact ⟨rfl, rfl⟩
  · rw [if_neg (by rw [hb]; decide)]
    exact ⟨rfl, rfl, hcode hb⟩

/-! ## The obligation -/

/-- Settles O36: every command by its `_acts` lemma, its gate by the `_gated` lemmas. -/
theorem stepCommandsComplete : Obligations.StepCommandsComplete := by
  unfold Obligations.StepCommandsComplete
  intro c s
  refine fun hserving => ⟨fun h hlen hzero hlist hlayers hjob hstate hcode hvec =>
      ⟨_, stepConfig_acts hserving rfl rfl h hlen hzero hlist hlayers hjob hstate hcode hvec, ?_⟩,
    fun h hlen hzero hstate hready hcode hfill hretain hpwr => ⟨_, stepRun_acts hserving h hlen hzero hstate hready hcode hfill hretain hpwr, ?_⟩,
    fun h hp hstate => ⟨fun hcode => ?_, fun r hcode hlive hr he => ?_⟩,
    fun j hj hpos hhold h hlen hzero hstate hcode => ⟨fun hheld => ?_, fun hheld hpaused => ?_, fun v hv hlive => ?_⟩,
    fun j r hj hpos h hlen hzero hstate hcode hchoice hr hstop hends hcount =>
      have hact := stepResume_acts hserving hj hpos hlen hstate h hzero hcode hchoice
      ⟨fun hpaused => ?_, fun hlive h0 => ?_, fun hlive h1 => ?_, fun hlive h2 => ?_⟩,
    fun h hp hstate => ⟨_, stepInfo_acts hserving h hp hstate, ?_⟩, fun h hlen hstate hcode => ⟨_, stepSet_acts hserving h hlen hstate hcode, ?_⟩⟩
  · exact jobDefined_reply c _ _ hstate
  · have hrun := runBegun_state (c := c) (wakeLoop_fns s (cmdDist c)) ((wakeLoop_state s _ _).trans hstate)
    dsimp only at hrun
    rw [wakeLoop_gate] at hrun
    exact hrun
  · have hact := stepStop_acts hserving h hp hstate (by simp only [List.mem_cons, List.not_mem_nil, or_false] at hcode ⊢; omega)
    rw [if_neg (by simp only [List.mem_cons, List.not_mem_nil, or_false] at hcode; omega)] at hact
    exact ⟨_, hact, gated_reply s c _ _ _ _⟩
  · have hact := stepStop_acts hserving h hp hstate (by rw [hcode]; decide)
    rw [if_pos ⟨hcode, hlive⟩] at hact
    exact ⟨_, hact, stopped_reply hr he⟩
  · have hact := stepCommit_acts hserving hj hpos hlen hstate hhold h hzero hcode
    rw [hheld, if_neg (by decide)] at hact
    exact ⟨_, hact, gated_reply s c _ _ _ _⟩
  · have hact := stepCommit_acts hserving hj hpos hlen hstate hhold h hzero hcode
    rw [if_pos hheld, gateChoose_waits (by rw [wakeLoop_gate, hj]) _ _ ((wakeLoop_state s _ _).trans hpaused)] at hact
    exact ⟨_, hact, gated_reply s c _ _ _ _⟩
  · have hact := stepCommit_acts hserving hj hpos hlen hstate hhold h hzero hcode
    rw [if_pos (by rw [hv]; rfl), gateChoose_decides (by rw [wakeLoop_gate, hj]) _ (by rw [wakeLoop_state]; exact hlive)] at hact
    exact ⟨_, hact, decided_reply _ c hv⟩
  · rw [gateChoose_waits (by rw [wakeLoop_gate, hj]) _ _ ((wakeLoop_state s _ _).trans hpaused)] at hact
    exact ⟨_, hact, gated_reply s c _ _ _ _⟩
  · rw [h0, gateChoose_resumes (by rw [wakeLoop_gate, hj]) _ (by rw [wakeLoop_state]; exact hlive)] at hact
    obtain ⟨hgate, hfns, -⟩ := spread_keeps s (cmdDist c) j (choiceOf j .resume 0)
    generalize gateSpread (wakeLoop s (cmdDist c)) j (choiceOf j .resume 0) = u at hgate hfns hact
    rw [← hgate] at hcode hr hstop hends
    rw [applyResume_replays hcode hr hstop hends (by omega)] at hact
    refine ⟨_, hact, ?_⟩
    dsimp only
    rw [getDist_replyOk, modGate_gate, modGate_gate, hgate]
    exact ⟨repliesAdd_of_fns_left (replyOk_adds _ _ _ _) hfns, rfl, rfl, rfl, rfl⟩
  · rw [h1, gateChoose_resumes (by rw [wakeLoop_gate, hj]) _ (by rw [wakeLoop_state]; exact hlive)] at hact
    obtain ⟨hgate, hfns, -⟩ := spread_keeps s (cmdDist c) j (choiceOf j .resume 1)
    generalize gateSpread (wakeLoop s (cmdDist c)) j (choiceOf j .resume 1) = u at hgate hfns hact
    have hrecs : ((getDist s (cmdDist c)).gate.job.map (·.recs)).getD 0 = j.recs := by rw [hj]; rfl
    rw [← hgate] at hcode hr hstop hends
    rw [applyResume_skips hcode hr hstop hends hcount] at hact
    refine ⟨_, hact, ?_⟩
    dsimp only
    rw [getDist_replyOk, modGate_gate, (advanceStep_gated (.refl _ u)).gate, hgate]
    exact ⟨repliesAdd_of_fns_left (replyOk_adds _ _ _ _) hfns, rfl, rfl, rfl, by rw [stepAdvanced, hrecs]⟩
  · rw [h2, gateChoose_resumes (by rw [wakeLoop_gate, hj]) _ (by rw [wakeLoop_state]; exact hlive)] at hact
    obtain ⟨hgate, -, -⟩ := spread_keeps s (cmdDist c) j (choiceOf j .resume 2)
    generalize gateSpread (wakeLoop s (cmdDist c)) j (choiceOf j .resume 2) = u at hgate hact
    rw [applyResume_ends (by rw [hgate, hcode])] at hact
    refine ⟨_, hact, okReply_mem _ _ _ _, ?_⟩
    rw [getDist_replyOk, (endLoop_gated 2 0 (.refl _ u)).gate, hgate]
    exact ⟨rfl, rfl, rfl, rfl⟩
  · exact ⟨repliesAdd_wakeLoop.mp (replyOk_adds _ _ _ _), by rw [getDist_replyOk, wakeLoop_gate]⟩
  · rw [setStep_gate]
    exact gated_reply s c _ _ _ _

end Sys2Proof.Machine
end

section
/-! A step's attempt (R331, R332, R339, R340, R343, R344): its opening, its feed, its rounds and its early refusal. -/

namespace Sys2Proof.Machine

/-! ## The advisories and the segments -/

/-- A district as an advisory read leaves it: with the checkpoint advised, a configured idle engine is asked for one (R406). -/
def askedOf (advised : Bool) (x : Dist) : Dist :=
  if advised && x.snap.policy.isSome && x.snap.code == 0 then { x with snap := { x.snap with asked := x.snap.asked ||| 2 } } else x

theorem askedOf_empty (advised : Bool) : askedOf advised {} = {} := by cases advised <;> rfl

theorem readAdvisories_dist (s : State) (d i : Nat) : ∃ n, getDist (readAdvisories s d) i = { getDist s i with snap := n } := by
  have hdist : getDist (readAdvisories s d) i = askedOf (tget {} (emit s (cpSource s d) 0x008 sevInfo 0xFF (advValues s)).adv 4).unread (getDist s i) := by
    rw [← getDist_emit s (cpSource s d) 0x008 sevInfo 0xFF (advValues s)]
    exact tget_tmap (f := fun _ x => askedOf (tget {} (emit s (cpSource s d) 0x008 sevInfo 0xFF (advValues s)).adv 4).unread x) (askedOf_empty _) _
  rw [hdist]
  unfold askedOf
  split
  · exact ⟨_, rfl⟩
  · exact ⟨_, rfl⟩

theorem readAdvisories_keeps (s : State) (d : Nat) : (readAdvisories s d).groups = s.groups ∧ (readAdvisories s d).now = s.now ∧
    (readAdvisories s d).backs = s.backs := ⟨emit_groups _ _ _ _ _ _, emit_now _ _ _ _ _ _, emit_backs _ _ _ _ _ _⟩

theorem readAdvisories_gated {d : Nat} {b s : State} {g : Gate} (i : Nat) (h : Gated d b s g) : Gated d b (readAdvisories s i) g := by
  obtain ⟨n, hn⟩ := readAdvisories_dist s i d
  obtain ⟨hgroups, hnow, -⟩ := readAdvisories_keeps s i
  exact ⟨(congrArg Dist.gate hn).trans h.gate, hgroups.trans h.groups, hnow.trans h.now⟩

theorem segWrite_now (s : State) (e : Seg) (off : Nat) (b : Bytes) : (segWrite s e off b).now = s.now := by
  unfold segWrite
  split <;> rfl

theorem segWrite_gated {d : Nat} {b s : State} {g : Gate} (e : Seg) (off : Nat) (l : Bytes) (h : Gated d b s g) : Gated d b (segWrite s e off l) g :=
  h.congr (segWrite_dists _ _ _ _) (segWrite_groups _ _ _ _) (segWrite_now _ _ _ _)

/-- What a segment outside flash holds depends on its backing alone. -/
theorem segRead_of_backs {s t : State} {e : Seg} (htier : e.tier ≠ 3) (h : t.backs = s.backs) (off n : Nat) : segRead t e off n = segRead s e off n := by
  rw [segRead, segRead, if_neg htier, if_neg htier, getBack_congr h]

theorem segRead_length (s : State) (e : Seg) (off n : Nat) : (segRead s e off n).length = n := by
  unfold segRead
  split
  · simp
  · exact memRead_length _ _ _

/-! ## The opening (R331, R332) -/

/-- The state in which the advisories are read and the step's information record is written. -/
def infoWritten (d : Nat) (j : Job) (s : State) : State := match tfind (getDist s d).segs j.infoSeg with
  | some e => segWrite (readAdvisories s d) e j.infoOff (infoBytes (getDist s d).gate (time (readAdvisories s d)))
  | none => readAdvisories s d

/-- The gate as a step opens. -/
def stepOpened (j : Job) (now : Nat) (seqs : AMap Nat) (first step : Nat) (g : Gate) : Gate := { g with
  code := 1, opening := false, nf := 0, poison := 0, taint := false, fault := false, approx := false, tOpen := now, tEval := now
  feeding := if j.feedSeg = 0 then none else some (first + j.recs, step + 1), seqs := seqs, early := none, mine := false, sent := false, held := none
  commit := none }

theorem infoWritten_gated (d : Nat) (j : Job) (s : State) : Gated d s (infoWritten d j s) (getDist s d).gate := by
  have hread := readAdvisories_gated d (.refl d s)
  unfold infoWritten
  split
  · exact segWrite_gated _ _ _ hread
  · exact hread

theorem infoWritten_progs (d : Nat) (j : Job) (s : State) : (getDist (infoWritten d j s) d).progs = (getDist s d).progs := by
  obtain ⟨n, hn⟩ := readAdvisories_dist s d d
  unfold infoWritten
  split
  · rw [getDist_congr (segWrite_dists _ _ _ _), hn]
  · rw [hn]

/-- The record that a step opens with stands in its segment (R331). -/
theorem infoWritten_record {d : Nat} {j : Job} {s : State} {e : Seg} (he : tfind (getDist s d).segs j.infoSeg = some e) (htier : e.tier ≠ 3)
    (hwf : memWf (getBack s e.bid).data = true) : segRead (infoWritten d j s) e j.infoOff 64 = infoBytes (getDist s d).gate (time s) := by
  obtain ⟨-, hnow, hbacks⟩ := readAdvisories_keeps s d
  have htime : time (readAdvisories s d) = time s := by rw [time, hnow, time]
  have hlen : (infoBytes (getDist s d).gate (time s)).length = 64 := pack_length _ _
  unfold infoWritten
  rw [he]
  dsimp only
  rw [htime, ← hlen]
  exact segRead_segWrite htier (by rw [getBack_congr hbacks]; exact hwf) _ _

theorem stepOpen_eq {d : Nat} {j : Job} {s : State} (hj : (getDist s d).gate.job = some j) (hopen : (getDist s d).gate.opening = true)
    (hrun : (getDist s d).gate.run.isSome = true) (hfeed : (getDist s d).gate.feeding = none) (hstate : (getDist s d).state = 3)
    (hpause : (getDist s d).pause = none) : ∃ seqs, stepOpen d s = startRun (modGate (infoWritten d j s) d
      (stepOpened j (time s) seqs (getDist s d).gate.cursor (getDist s d).gate.step)) d j.compute .compute (time s) := by
  have hgo : ¬((!(getDist s d).gate.opening) = true ∨ (getDist s d).gate.run.isNone = true ∨ (getDist s d).gate.feeding.isSome = true ∨ (getDist s d).state ≠ 3) := by
    obtain ⟨r, hr⟩ := Option.isSome_iff_exists.mp hrun
    simp [hopen, hr, hfeed, hstate]
  have hnow := (infoWritten_gated d j s).now
  have hno : pauseAtBoundary s d = none := by rw [pauseAtBoundary, hpause]
  have htime : time (infoWritten d j s) = time s := by rw [time, hnow, time]
  refine ⟨((infoWritten d j s).groups.filter fun e => e.2.dist == d).map fun e => (e.1, e.2.seq), ?_⟩
  rw [← htime]
  unfold stepOpen
  dsimp only
  rw [hj]
  dsimp only
  rw [if_neg hgo, hno]
  rfl

/-- A program that is loaded runs once it is started (R87). -/
theorem startRun_runs {s : State} {d handle : Nat} {by_ : RunBy} {tStart : Nat} (h : thas (getDist s d).progs handle = true) :
    (getDist (startRun s d handle by_ tStart) d).run = some { handle := handle, by_ := by_, tStart := tStart } := by
  obtain ⟨p, hp⟩ := Option.isSome_iff_exists.mp h
  rw [startRun, getDist_modDist_self, hp]

theorem stepOpen_state {d : Nat} {j : Job} {s : State} (hj : (getDist s d).gate.job = some j) (hopen : (getDist s d).gate.opening = true)
    (hrun : (getDist s d).gate.run.isSome = true) (hfeed : (getDist s d).gate.feeding = none) (hstate : (getDist s d).state = 3)
    (hpause : (getDist s d).pause = none) : let t := stepOpen d s
    (∃ seqs, (getDist t d).gate = stepOpened j (time s) seqs (getDist s d).gate.cursor (getDist s d).gate.step (getDist s d).gate) ∧
      t.backs = (infoWritten d j s).backs ∧ (thas (getDist s d).progs j.compute = true → (getDist t d).run.map (·.handle) = some j.compute) := by
  obtain ⟨seqs, hs⟩ := stepOpen_eq hj hopen hrun hfeed hstate hpause
  have hprogs := infoWritten_progs d j s
  have hgated := infoWritten_gated d j s
  dsimp only
  rw [hs]
  generalize infoWritten d j s = u at hprogs hgated
  refine ⟨⟨seqs, (startRun_gated d _ _ _ (modGate_gated _ hgated)).gate⟩, rfl, fun hp => ?_⟩
  rw [startRun_runs (by rw [modGate_gate]; exact (congrArg (fun m => thas m j.compute) hprogs).trans hp)]
  rfl

/-! ## The feed (R332) -/

theorem copySeg_keeps (s : State) (src dst : Seg) (so o n : Nat) : (copySeg s src dst so o n).dists = s.dists := by
  rw [copySeg, segMark_dists, segWrite_dists]

/-- What is copied stands at its destination. -/
theorem copySeg_read {s : State} {src dst : Seg} (htier : dst.tier ≠ 3) (hwf : memWf (getBack s dst.bid).data = true) (so o n : Nat) :
    segRead (copySeg s src dst so o n) dst o n = segRead s src so n := by
  have hlen := segRead_length s src so n
  rw [copySeg, segRead, if_neg htier, segMark_data, segWrite_data htier]
  have hwritten := memRead_memWrite (segRead s src so n) o hwf
  rw [hlen] at hwritten
  exact hwritten

/-- A pipe that feeds a district, its records moved on. -/
def fedPipe (d upto : Nat) (p : Pipe) : Pipe := if p.state != 0 && p.dist == d && bit p.job 10 then { p with moved := max p.moved upto } else p

/-- The pipes that feed a district, their records moved on. -/
def feedMoved (d upto : Nat) (s : State) : State := { s with pipes := tmap s.pipes fun _ p => fedPipe d upto p }

theorem feedDone_one {d first step : Nat} {j : Job} {s : State} {src dst : Seg} (hj : (getDist s d).gate.job = some j)
    (hfeed : (getDist s d).gate.feeding = some (first, step)) (hready : feedReady s d j first = true)
    (hsrc : tfind (getDist s d).segs j.feedSeg = some src) (hdst : tfind (getDist s d).segs j.bufSeg = some dst) (hrecs : j.recs = 1) :
    feedDone d s = feedMoved d (first + j.recs) (copySeg (modGate s d fun g => { g with feeding := none }) src dst
      (j.feedOff + first % max 1 j.feedRecs * j.recBytes) (j.bufOff + step % 2 * j.recBytes) j.recBytes) := by
  unfold feedDone
  dsimp only
  rw [hj, hfeed]
  dsimp only
  rw [hready, hsrc, hdst]
  rw [Bool.not_true, if_neg Bool.false_ne_true, hrecs]
  simp only [List.range_one, List.foldl_cons, List.foldl_nil, Nat.add_zero, Nat.mul_one]
  rfl

theorem feedDone_state {d first step : Nat} {j : Job} {s : State} {src dst : Seg} (hj : (getDist s d).gate.job = some j)
    (hfeed : (getDist s d).gate.feeding = some (first, step)) (hready : feedReady s d j first = true)
    (hsrc : tfind (getDist s d).segs j.feedSeg = some src) (hdst : tfind (getDist s d).segs j.bufSeg = some dst) (htier : dst.tier ≠ 3)
    (hwf : memWf (getBack s dst.bid).data = true) (hrecs : j.recs = 1) : let t := feedDone d s
    (getDist t d).gate = { (getDist s d).gate with feeding := none } ∧ segRead t dst (j.bufOff + step % 2 * j.recBytes) j.recBytes =
      segRead s src (j.feedOff + first % max 1 j.feedRecs * j.recBytes) j.recBytes := by
  have hcopy := copySeg_read (s := modGate s d fun g => { g with feeding := none }) (src := src) htier hwf
    (j.feedOff + first % max 1 j.feedRecs * j.recBytes) (j.bufOff + step % 2 * j.recBytes) j.recBytes
  have hdists := copySeg_keeps (modGate s d fun g => { g with feeding := none }) src dst
    (j.feedOff + first % max 1 j.feedRecs * j.recBytes) (j.bufOff + step % 2 * j.recBytes) j.recBytes
  dsimp only
  rw [feedDone_one hj hfeed hready hsrc hdst hrecs]
  generalize copySeg (modGate s d fun g => { g with feeding := none }) src dst
    (j.feedOff + first % max 1 j.feedRecs * j.recBytes) (j.bufOff + step % 2 * j.recBytes) j.recBytes = u at hcopy hdists
  refine ⟨?_, hcopy⟩
  have hgate : getDist (feedMoved d (first + j.recs) u) d = getDist (modGate s d fun g => { g with feeding := none }) d := getDist_congr hdists d
  rw [hgate, modGate_gate]

end Sys2Proof.Machine
end

section
/-! The rounds of the gate (R339, R340, R344): a member's own contribution, the verdict and the commit round. -/

namespace Sys2Proof.Machine

/-! ## A round's progress -/

theorem gateShape_congr {s t : State} (h : t.links = s.links) (ms : List Member) : gateShape t ms = gateShape s ms := by
  simp only [gateShape, h]

section
variable {d : Nat} {s : State} {j : Job} {a : GateMsg} {commit : Bool} (hj : (getDist s d).gate.job = some j)
  (ha : (if commit then (getDist s d).gate.accC else (getDist s d).gate.acc) = some a)
include hj ha

theorem gateProgress_waits (hneeds : (ringNeeds (gateShape s j.members).1 (gateShape s j.members).2 j.myPos).all a.members.contains = false) :
    gateProgress d commit s = s := by
  unfold gateProgress
  dsimp only
  rw [hj, ha]
  exact if_pos (.inr (.inr (.inr (by rw [hneeds]; rfl))))

theorem gateProgress_sends {q : Nat} (hmine : (getDist s d).gate.mine = true) (hsent : (getDist s d).gate.sent = false)
    (hcode : ((getDist s d).gate.code == 3) = commit)
    (hneeds : (ringNeeds (gateShape s j.members).1 (gateShape s j.members).2 j.myPos).all a.members.contains = true)
    (hnext : ringNext (gateShape s j.members).1 (gateShape s j.members).2 j.myPos = some q) :
    gateProgress d commit s = gateSend (modGate s d fun g => { g with sent := true }) j [q] a := by
  unfold gateProgress
  dsimp only
  rw [hj, ha]
  dsimp only
  rw [if_neg (by simp [hmine, hsent, hcode, hneeds]), hnext]

end

/-- A position that needs others than itself does not send on with its own contribution alone. -/
theorem needs_others {l : List Nat} {i : Nat} (h : ∃ q ∈ l, q ≠ i) : l.all [i].contains = false := by
  obtain ⟨q, hq, hne⟩ := h
  refine List.all_eq_false.mpr ⟨q, hq, ?_⟩
  simp [hne]

theorem needs_own {l : List Nat} {i : Nat} (h : ∀ q ∈ l, q = i) : l.all [i].contains = true :=
  List.all_eq_true.mpr fun q hq => by simp [h q hq]

/-! ## A member's own contribution (R339, R344) -/

/-- The gate of a member that is ready, with its contribution. -/
def memberGate (now : Nat) (m : GateMsg) (g : Gate) : Gate := { g with code := 2, tEval := now, evalFrom := now, mine := true, sent := false, acc := some m }

theorem memberReady_eq {d : Nat} {j : Job} {s : State} (hj : (getDist s d).gate.job = some j) (hcode : (getDist s d).gate.code = 1)
    (hearly : (getDist s d).gate.early = none) (hstate : (getDist s d).state ≠ 5) (hover : runOver (getDist s d) = true) (hfinal : groupsFinal s d = true)
    (hacc : (getDist s d).gate.acc = none) : ∃ u, memberReady d s = gateProgress d false u ∧ u.links = s.links ∧ u.out = s.out ∧
      (getDist u d).gate = memberGate (time s) (ownMsg s d j .contribution true) (getDist s d).gate := by
  refine ⟨addMsg (modGate s d fun g => { g with code := 2, tEval := time s, evalFrom := time s, mine := true, sent := false }) d j
    (ownMsg s d j .contribution true), ?_, rfl, rfl, ?_⟩
  · unfold memberReady
    dsimp only
    rw [hj]
    exact if_neg (by simp [hcode, hearly, hstate, hover, hfinal])
  · have hround : (ownMsg s d j .contribution true).round ≠ .commit := fun h => GateRound.noConfusion h
    rw [addMsg, modGate_gate, modGate_gate, if_neg hround, hacc]
    rfl

theorem ownMsg_members (s : State) (d : Nat) (j : Job) (round : GateRound) (clean : Bool) : (ownMsg s d j round clean).members = [j.myPos] := rfl

section
variable {d : Nat} {j : Job} {s : State} (hj : (getDist s d).gate.job = some j)
include hj

theorem memberReady_waits (hcode : (getDist s d).gate.code = 1) (hearly : (getDist s d).gate.early = none) (hstate : (getDist s d).state ≠ 5)
    (hover : runOver (getDist s d) = true) (hfinal : groupsFinal s d = true) (hacc : (getDist s d).gate.acc = none)
    (hneeds : ∃ q ∈ ringNeeds (gateShape s j.members).1 (gateShape s j.members).2 j.myPos, q ≠ j.myPos) :
    (getDist (memberReady d s) d).gate = memberGate (time s) (ownMsg s d j .contribution true) (getDist s d).gate ∧ (memberReady d s).out = s.out := by
  obtain ⟨u, hu, hlinks, hout, hgate⟩ := memberReady_eq hj hcode hearly hstate hover hfinal hacc
  have hwait := gateProgress_waits (commit := false) (s := u) (d := d) (by rw [hgate]; exact hj) (a := ownMsg s d j .contribution true) (by rw [hgate]; rfl)
    (by rw [gateShape_congr hlinks, ownMsg_members]; exact needs_others hneeds)
  rw [hu, hwait]
  exact ⟨hgate, hout⟩

theorem memberReady_sends {q : Nat} (hcode : (getDist s d).gate.code = 1) (hearly : (getDist s d).gate.early = none) (hstate : (getDist s d).state ≠ 5)
    (hover : runOver (getDist s d) = true) (hfinal : groupsFinal s d = true) (hacc : (getDist s d).gate.acc = none)
    (hneeds : ∀ i ∈ ringNeeds (gateShape s j.members).1 (gateShape s j.members).2 j.myPos, i = j.myPos)
    (hnext : ringNext (gateShape s j.members).1 (gateShape s j.members).2 j.myPos = some q) : let t := memberReady d s
    let m := ownMsg s d j .contribution true
    (getDist t d).gate = { memberGate (time s) m (getDist s d).gate with sent := true } ∧ t.out = s.out ∧
      ∀ port, routePort s 65 (j.members.getD q ⟨0, none⟩).id 0xFFFFFF = some port →
        ∃ w, tget [] (getPort t port).queue 65 = tget [] (getPort s port).queue 65 ++ [w] ∧
          w.flits.map (·.f.payload) = (flitsOf 65 0 0 false false (sysBytes 65 0 (gateArgs m) [])).map (·.f.payload) := by
  obtain ⟨u, hu, hlinks, hout, hgate⟩ := memberReady_eq hj hcode hearly hstate hover hfinal hacc
  have hsend := gateProgress_sends (commit := false) (s := u) (d := d) (q := q) (by rw [hgate]; exact hj) (a := ownMsg s d j .contribution true)
    (by rw [hgate]; rfl) (by rw [hgate]; rfl) (by rw [hgate]; rfl) (by rw [hgate]; rfl)
    (by rw [gateShape_congr hlinks, ownMsg_members]; exact needs_own hneeds) (by rw [gateShape_congr hlinks]; exact hnext)
  dsimp only
  rw [hu, hsend]
  obtain ⟨l, hl⟩ := gateSend_onLinks j (ownMsg s d j .contribution true) [q] (modGate u d fun g => { g with sent := true })
  refine ⟨?_, ?_, fun port hport => ?_⟩
  · rw [hl]
    exact (congrArg Dist.gate (modGate_gate u d fun g => { g with sent := true })).trans (congrArg (fun g : Gate => { g with sent := true }) hgate)
  · rw [hl]
    exact hout
  · exact sysSend_queued (s := s) (t := modGate u d fun g => { g with sent := true }) 0 _ [] hlinks hport

/-- A member whose update program is over contributes to the commit round, and waits for those before it (R344). -/
theorem updateComplete_waits (hcode : (getDist s d).gate.code = 3) (hmine : (getDist s d).gate.mine = false) (hwait : (getDist s d).gate.updWait = false)
    (hstate : (getDist s d).state ≠ 5) (hover : runOver (getDist s d) = true) (hacc : (getDist s d).gate.accC = none)
    (hneeds : ∃ q ∈ ringNeeds (gateShape s j.members).1 (gateShape s j.members).2 j.myPos, q ≠ j.myPos) : let g := (getDist s d).gate
    let m := ownMsg s d j .commit (g.nf == 0 && g.poison == 0 && !g.fault && !g.broken)
    (getDist (updateComplete d s) d).gate = { g with mine := true, sent := false, accC := some m } ∧ (updateComplete d s).out = s.out := by
  have hclean : decide ((getDist s d).gate.nf = 0 ∧ (getDist s d).gate.poison = 0 ∧ (!(getDist s d).gate.fault) = true ∧ (!(getDist s d).gate.broken) = true) =
      ((getDist s d).gate.nf == 0 && (getDist s d).gate.poison == 0 && !(getDist s d).gate.fault && !(getDist s d).gate.broken) := by
    rw [Bool.eq_iff_iff]
    simp [and_assoc]
  have hbegun : updateComplete d s = gateProgress d true (addMsg (modGate s d fun g => { g with mine := true, sent := false }) d j (ownMsg s d j .commit
      ((getDist s d).gate.nf == 0 && (getDist s d).gate.poison == 0 && !(getDist s d).gate.fault && !(getDist s d).gate.broken))) := by
    unfold updateComplete
    dsimp only
    rw [hj, ← hclean]
    exact if_neg (by simp [hcode, hmine, hwait, hstate, hover])
  dsimp only
  rw [hbegun]
  generalize hm : ownMsg s d j .commit ((getDist s d).gate.nf == 0 && (getDist s d).gate.poison == 0 && !(getDist s d).gate.fault && !(getDist s d).gate.broken) = m
  have hround : m.round = .commit := by rw [← hm]; rfl
  have hmembers : m.members = [j.myPos] := by rw [← hm]; rfl
  have hgate : (getDist (addMsg (modGate s d fun g => { g with mine := true, sent := false }) d j m) d).gate =
      { (getDist s d).gate with mine := true, sent := false, accC := some m } := by
    rw [addMsg, modGate_gate, modGate_gate, if_pos hround, hacc]
  rw [gateProgress_waits (a := m) (by rw [hgate]; exact hj) (by rw [hgate]; rfl) (by rw [hmembers]; exact needs_others hneeds)]
  exact ⟨hgate, rfl⟩

end

end Sys2Proof.Machine
end

section
/-! Verdicts, commits and time-outs of a step (R340, R344, R346), and the events they log. -/

namespace Sys2Proof.Machine

/-! ## A message that completes its round -/

section
variable {d : Nat} {j : Job} {s : State} {m : GateMsg} (hj : (getDist s d).gate.job = some j) (hstate : (getDist s d).state ≠ 5) (hsig : m.sig = j.sig)
include hj hstate hsig

theorem gateTake_verdict (hround : m.round = .contribution) (hfull : isFull j m = true) : gateTake d m s = takeVerdict d m (gateSpread s j m) := by
  unfold gateTake gateReceive signed
  rw [if_neg hstate, hj]
  dsimp only
  rw [if_pos hsig, if_neg (not_not.mpr hsig), hround]
  exact if_pos hfull

theorem gateTake_commit (hround : m.round = .commit) (hfull : isFull j m = true) : gateTake d m s = finishCommit d m (gateSpread s j m) := by
  unfold gateTake gateReceive signed
  rw [if_neg hstate, hj]
  dsimp only
  rw [if_pos hsig, if_neg (not_not.mpr hsig), hround]
  exact if_pos hfull

end

/-! ## A refusal (R342, R346) -/

/-- The event of a gate is logged. -/
theorem gateEvent_logged (s : State) (d kind sev : Nat) (l : List Nat) : (⟨s.now, gateSource, kind, sev, d, l⟩ : EventRec) ∈ (gateEvent s d kind sev l).emitted := by
  refine (raiseBound_calm d vbStep (.refl _)).emitted.subset ?_
  rw [emit_emitted]
  exact List.mem_append_right _ (List.mem_singleton_self _)

theorem refuseStep_logged (d causes : Nat) (m : GateMsg) (s : State) : let g := (getDist s d).gate
    (⟨s.now, gateSource, 0x181, sevNotice, d, [g.step, causes, m.nf, min g.replay 15]⟩ : EventRec) ∈ (refuseStep d causes m s).emitted := by
  have hgate : (getDist (writeOutcome s d 2 causes m) d).gate.step = (getDist s d).gate.step ∧
      (getDist (writeOutcome s d 2 causes m) d).gate.replay = (getDist s d).gate.replay := by
    rw [(writeOutcome_gated 2 causes m (.refl d s)).gate]
    exact ⟨rfl, rfl⟩
  dsimp only
  rw [← hgate.1, ← hgate.2]
  refine Calm.emitted ?_ |>.subset (gateEvent_logged (modGate (writeOutcome s d 2 causes m) d fun g => { g with
    code := 4, held := none, commit := none, acc := none, mine := false, sent := false, early := none }) d 0x181 sevNotice _)
  unfold refuseStep
  refine afterRefusal_calm _ _ ?_
  split
  · exact verified_calm _ _ _ _ _ (.ite (snapCheck_calm _ _ _ _ (.refl _)) (.refl _))
  · exact .ite (snapCheck_calm _ _ _ _ (.refl _)) (.refl _)

/-! ## The verdict as a member takes it (R340) -/

section
variable {d : Nat} {j : Job} {s : State} {m : GateMsg} (hj : (getDist s d).gate.job = some j) (hcode : (getDist s d).gate.code = 2)
include hj hcode

theorem takeVerdict_refuses (hcauses : msgCauses m ≠ 0) : takeVerdict d m s = refuseStep d (msgCauses m) m s := by
  unfold takeVerdict
  dsimp only
  rw [hj]
  dsimp only
  rw [if_neg (not_not.mpr hcode), if_pos hcauses]

theorem takeVerdict_commits (hcauses : msgCauses m = 0) (hheld : m.held = false) :
    ∃ w, Gated d s (takeVerdict d m s) { stepCommitted m (time s) (getDist s d).gate with updWait := w } := by
  unfold takeVerdict
  dsimp only
  rw [hj]
  dsimp only
  rw [if_neg (not_not.mpr hcode), if_neg (not_not.mpr hcauses), hheld, if_pos (by rfl)]
  split
  · exact commitStep_gated m (verified_gated _ _ _ _ _ (.refl d s))
  · exact commitStep_gated m (.refl d s)

end

/-! ## The commit round (R344, R347) -/

/-- The gate as a clean commit round leaves it, before the next step is settled. -/
def commitClean (now : Nat) (g : Gate) : Gate :=
  { g with record := { g.record with verdict := 1, tDone := now }, accC := none, mine := false, sent := false, code := 0 }

/-- The gate of a torn step. -/
def commitTorn (v : GateMsg) (now : Nat) (g : Gate) : Gate :=
  { g with record := { g.record with verdict := 3, causes := cUpdate + causesOf v.nf v.poison false v.fault, nf := v.nf, poison := v.poison, tDone := now } }

section
variable {d : Nat} {j : Job} {s : State} {m : GateMsg} (hj : (getDist s d).gate.job = some j) (hcode : (getDist s d).gate.code = 3)
include hj hcode

theorem finishCommit_clean (hclean : m.clean = true) : ∃ t, Gated d s (finishCommit d m s) t ∧ t.record = { (getDist s d).gate.record with verdict := 1, tDone := time s } ∧
    t.step = ((getDist s d).gate.step + 1) % 2 ^ 64 ∧ t.cursor = ((getDist s d).gate.cursor + j.recs) % 2 ^ 64 ∧ t.replay = 0 ∧ t.code = 0 := by
  have hrecs : (stepAdvanced (commitClean (time s) (getDist s d).gate)).cursor = ((getDist s d).gate.cursor + j.recs) % 2 ^ 64 := by
    have hjob : ((commitClean (time s) (getDist s d).gate).job.map (·.recs)).getD 0 = j.recs := by rw [commitClean, hj]; rfl
    rw [stepAdvanced, hjob]
    rfl
  have hdone := modGate_gated (commitClean (time s)) (.refl d s)
  unfold finishCommit
  dsimp only
  rw [hj]
  dsimp only
  rw [if_neg (not_not.mpr hcode), if_pos hclean]
  have hnext : ∀ {u : State}, Gated d s u (stepAdvanced (commitClean (time s) (getDist s d).gate)) → ∃ t, Gated d s (nextOpening d u) t ∧
      t.record = { (getDist s d).gate.record with verdict := 1, tDone := time s } ∧ t.step = ((getDist s d).gate.step + 1) % 2 ^ 64 ∧
      t.cursor = ((getDist s d).gate.cursor + j.recs) % 2 ^ 64 ∧ t.replay = 0 ∧ t.code = 0 := by
    intro u hu
    obtain ⟨t, ht, hrec, hstep, hcursor, hreplay, hzero⟩ := nextOpening_gated hu
    exact ⟨t, ht, hrec, hstep, hcursor.trans hrecs, hreplay, hzero rfl⟩
  apply hnext
  split
  · exact snapStart_gated _ _ (advanceStep_gated (.ite (gateEvent_gated _ _ _ _ hdone) hdone))
  · exact advanceStep_gated (.ite (gateEvent_gated _ _ _ _ hdone) hdone)

theorem finishCommit_torn (hclean : m.clean = false) : Gated d s (finishCommit d m s) (loopEnded 5 (commitTorn m (time s) (getDist s d).gate)) := by
  have htorn := modGate_gated (commitTorn m (time s)) (.refl d s)
  unfold finishCommit
  dsimp only
  rw [hj]
  dsimp only
  rw [if_neg (not_not.mpr hcode), if_neg (by rw [hclean]; decide)]
  exact endLoop_gated _ _ (gateEvent_gated _ _ _ _ htorn)

theorem finishCommit_logged (hclean : m.clean = true) (hevt : j.evt = true) : let o := (getDist s d).gate.record
    (⟨s.now, gateSource, 0x180, sevInfo, d, [o.step, o.loss, b2n o.approx]⟩ : EventRec) ∈ (finishCommit d m s).emitted := by
  dsimp only
  refine Calm.emitted ?_ |>.subset (gateEvent_logged (modGate s d fun g => { g with
    record := { (getDist s d).gate.record with verdict := 1, tDone := time s }, accC := none, mine := false, sent := false, code := 0 }) d 0x180 sevInfo _)
  unfold finishCommit
  dsimp only
  rw [hj]
  dsimp only
  rw [if_neg (not_not.mpr hcode), if_pos hclean, if_pos hevt]
  refine nextOpening_calm _ ?_
  split
  · exact snapStart_calm _ _ (advanceStep_calm _ (.refl _))
  · exact advanceStep_calm _ (.refl _)

end

/-! ## No verdict in time (R344) -/

section
variable {d : Nat} {j : Job} {s : State} (hj : (getDist s d).gate.job = some j) (hcode : (getDist s d).gate.code = 2)
  (hheld : (getDist s d).gate.held = none) (hearly : (getDist s d).gate.early = none) (hstate : (getDist s d).state ≠ 5)
  (hlate : (getDist s d).gate.evalFrom + j.evalMs * 1000000 ≤ time s)
include hj hcode hheld hearly hstate hlate

theorem evalTimeout_eq : evalTimeout d s = endLoop d 3 5 (gateEvent (writeOutcome s d 3 cTimeout (ownMsg s d j .contribution true)) d 0x182 sevError
    [(getDist s d).gate.step, cTimeout]) := by
  unfold evalTimeout
  dsimp only
  rw [hj]
  exact if_neg (by simp [hcode, hheld, hearly, hstate, hlate])

theorem evalTimeout_state : let t := evalTimeout d s
    (getDist t d).gate.code = 5 ∧ (getDist t d).gate.record.verdict = 3 ∧ (getDist t d).gate.record.causes = 16 ∧
      (getDist t d).gate.step = (getDist s d).gate.step ∧ (⟨s.now, 0x887, 0x182, 2, d, [(getDist s d).gate.step, 16]⟩ : EventRec) ∈ t.emitted := by
  have hended := endLoop_gated 3 5 (gateEvent_gated d 0x182 sevError [(getDist s d).gate.step, cTimeout]
    (writeOutcome_gated 3 cTimeout (ownMsg s d j .contribution true) (.refl d s)))
  have hlogged := (endLoop_calm d 3 5 (.refl (gateEvent (writeOutcome s d 3 cTimeout (ownMsg s d j .contribution true)) d 0x182 sevError
    [(getDist s d).gate.step, cTimeout]))).emitted.subset (gateEvent_logged _ d 0x182 sevError [(getDist s d).gate.step, cTimeout])
  dsimp only
  rw [evalTimeout_eq hj hcode hheld hearly hstate hlate, hended.gate]
  exact ⟨rfl, rfl, rfl, rfl, hlogged⟩

end

end Sys2Proof.Machine
end

section
/-! Early refusal (R330, R343), and the obligation on a step's attempt. -/

namespace Sys2Proof.Machine

/-! ## A notice (R343) -/

theorem earlyNotice_unsigned {d sig pos causes : Nat} {j : Job} {s : State} (hj : (getDist s d).gate.job = some j) (hsig : sig ≠ j.sig)
    (hno : j.early = false ∨ (getDist s d).gate.code ≠ 1) : earlyNotice d pos causes sig s = modGate s d fun g => { g with fault := true } := by
  have hgate := modGate_gate s d fun g => { g with fault := true }
  have hskip : (!j.early) = true ∨ (getDist s d).gate.code ≠ 1 := hno.imp_left fun h => by rw [h]; rfl
  unfold earlyNotice
  rw [hj]
  dsimp only
  rw [if_neg hsig]
  unfold earlyCheck
  dsimp only
  rw [hgate]
  dsimp only
  rw [hj]
  exact if_pos (hskip.imp_right .inl)

theorem earlyNotice_signed {d pos causes : Nat} {j : Job} {s : State} (hj : (getDist s d).gate.job = some j) :
    earlyNotice d pos causes j.sig s = earlyStart d pos causes s := by
  unfold earlyNotice
  rw [hj]
  exact if_pos rfl

theorem earlyStart_again {d pos causes k : Nat} {s : State} (hcode : (getDist s d).gate.code = 1 ∨ (getDist s d).gate.code = 2)
    (hk : (getDist s d).gate.early = some k) : earlyStart d pos causes s = modGate s d fun g => { g with early := some (k ||| causes) } := by
  unfold earlyStart
  dsimp only
  rw [if_neg (by omega), hk]

/-! ## The abort of the attempt (R343) -/

/-- A district whose attempt is being aborted early: the causes are kept, the gate stays in its state, the run is stopped. -/
def Halting (causes code : Nat) (x : Dist) : Prop := x.gate.early = some causes ∧ x.gate.code = code ∧ (x.run.all fun r => r.stopped) = true

section
variable {causes code d : Nat} {s : State}

theorem Halting.congr {t : State} (h : Halting causes code (getDist s d)) (hdists : t.dists = s.dists) : Halting causes code (getDist t d) := by
  rw [getDist_congr hdists]
  exact h

theorem modDist_halting (i : Nat) {f : Dist → Dist} (hf : ∀ x, Halting causes code x → Halting causes code (f x))
    (h : Halting causes code (getDist s d)) : Halting causes code (getDist (modDist s i f) d) := by
  by_cases hi : d = i
  · rw [← hi, getDist_modDist_self]
    exact hf _ h
  · rw [getDist_modDist_ne _ _ hi]
    exact h

theorem foldl_halting {α : Type} {f : State → α → State} (hf : ∀ s a, Halting causes code (getDist s d) → Halting causes code (getDist (f s a) d)) :
    ∀ (l : List α) {s : State}, Halting causes code (getDist s d) → Halting causes code (getDist (l.foldl f s) d)
  | [], _, h => h
  | a :: l, _, h => foldl_halting hf l (hf _ a h)

theorem emit_halting (source kind sev district : Nat) (l : List Nat) (h : Halting causes code (getDist s d)) :
    Halting causes code (getDist (emit s source kind sev district l) d) := h.congr (emit_dists _ _ _ _ _ _)

theorem errorMsg_halting (x : Group) (pos kind : Nat) (args : List Nat) (h : Halting causes code (getDist s d)) :
    Halting causes code (getDist (errorMsg s x pos kind args) d) := by
  unfold errorMsg
  dsimp only
  split
  · rw [sysSend_onLinks]
    exact h
  · exact h

theorem modProg_halting (i : Nat) (f : Prog → Prog) (h : Halting causes code (getDist s d)) : Halting causes code (getDist (modProg s i f) d) := by
  refine modDist_halting i (fun x hx => ?_) h
  split
  · split <;> exact hx
  · exact hx

/-- A hard fault stops the run for good and raises FAULT; the causes and the state stand. -/
theorem hardFault_halting (i core idx fault : Nat) (h : Halting causes code (getDist s d)) : Halting causes code (getDist (hardFault s i core idx fault) d) := by
  unfold hardFault
  split
  · exact h
  · refine modDist_halting i (fun x hx => hx) (modDist_halting i (fun x hx => ?_) (modProg_halting i _ (modDist_halting i (fun x hx => hx) (emit_halting _ _ _ _ _ h))))
    obtain ⟨he, hc, hr⟩ := hx
    refine ⟨he, hc, ?_⟩
    cases hrun : x.run with
    | none => rw [Option.map_none]; rfl
    | some r => rw [Option.map_some]; rfl

theorem abortGroup_halting (n cause detector : Nat) (h : Halting causes code (getDist s d)) : Halting causes code (getDist (abortGroup n cause detector s) d) := by
  unfold abortGroup
  split
  · exact h
  · split
    · exact h
    · next x _ _ =>
      have hevent : ∀ u : State, u.dists = s.dists → Halting causes code (getDist (collEvent u x 0x111 sevError [n, x.seq, cause, detector]) d) :=
        fun u hu => emit_halting _ _ _ _ _ (h.congr hu)
      refine modDist_halting _ (fun y hy => hy) (foldl_halting (fun _ _ hy => hardFault_halting _ _ _ _ hy) _ ?_)
      split
      · exact hevent _ rfl
      · exact foldl_halting (fun _ _ hy => errorMsg_halting _ _ _ _ hy) _ (hevent _ rfl)

theorem modCore_halting (i core : Nat) (f : Core → Core) (h : Halting causes code (getDist s d)) : Halting causes code (getDist (modCore s i core f) d) :=
  modDist_halting i (fun _ hx => hx) h

theorem dropColls_halting (n : Nat) (x : Group) (h : Halting causes code (getDist s d)) : Halting causes code (getDist (dropColls s n x) d) :=
  foldl_halting (fun _ _ hy => modCore_halting _ _ _ hy) _ (h.congr rfl)

end

/-- An early refusal that starts (R343): the notice's causes, the event, and the abort of the program and of every group. -/
theorem earlyStart_state {d pos causes : Nat} {s : State} (hcode : (getDist s d).gate.code = 1 ∨ (getDist s d).gate.code = 2)
    (hnone : (getDist s d).gate.early = none) : let t := earlyStart d pos causes s
    Halting causes (getDist s d).gate.code (getDist t d) ∧
      (⟨s.now, gateSource, 0x183, sevNotice, d, [(getDist s d).gate.step, pos]⟩ : EventRec) ∈ t.emitted := by
  have hmarked := gateEvent_gated d 0x183 sevNotice [(getDist s d).gate.step, pos] (modGate_gated (fun g => { g with early := some causes }) (.refl d s))
  have hlogged := gateEvent_logged (modGate s d fun g => { g with early := some causes }) d 0x183 sevNotice [(getDist s d).gate.step, pos]
  have hstart : earlyStart d pos causes s =
      ((abortRun (gateEvent (modGate s d fun g => { g with early := some causes }) d 0x183 sevNotice [(getDist s d).gate.step, pos]) d none).groups.filter
        fun e => e.2.dist == d).foldl (fun s e => abortHere e.1 7 (dropColls s e.1 e.2))
        (abortRun (gateEvent (modGate s d fun g => { g with early := some causes }) d 0x183 sevNotice [(getDist s d).gate.step, pos]) d none) := by
    unfold earlyStart
    dsimp only
    rw [if_neg (by omega), hnone]
  dsimp only
  rw [hstart]
  generalize gateEvent (modGate s d fun g => { g with early := some causes }) d 0x183 sevNotice [(getDist s d).gate.step, pos] = u at hmarked hlogged
  have habort : Halting causes (getDist s d).gate.code (getDist (abortRun u d none) d) := by
    rw [abortRun, getDist_modDist_self]
    refine ⟨?_, ?_, ?_⟩
    · show (getDist u d).gate.early = some causes
      rw [hmarked.gate]
    · show (getDist u d).gate.code = (getDist s d).gate.code
      rw [hmarked.gate]
    · show (((getDist u d).run.map _).all _) = true
      cases (getDist u d).run <;> rfl
  exact ⟨foldl_halting (fun _ _ h => abortGroup_halting _ _ _ (dropColls_halting _ _ h)) _ habort,
    (Calm.foldl (fun _ _ h => abortGroup_calm _ _ _ (dropColls_calm _ _ h)) _ (abortRun_calm d none (.refl u))).emitted.subset hlogged⟩

theorem earlyStart_opens {d pos causes : Nat} {s : State} (hcode : (getDist s d).gate.code = 1 ∨ (getDist s d).gate.code = 2)
    (hnone : (getDist s d).gate.early = none) : let t := earlyStart d pos causes s
    (getDist t d).gate.early = some causes ∧ (getDist t d).gate.code = (getDist s d).gate.code ∧ ((getDist t d).run.all fun r => r.stopped) = true ∧
      (⟨s.now, 0x887, 0x183, 1, d, [(getDist s d).gate.step, pos]⟩ : EventRec) ∈ t.emitted := by
  obtain ⟨⟨hearly, hkept, hstopped⟩, hlogged⟩ := earlyStart_state (pos := pos) (causes := causes) hcode hnone
  exact ⟨hearly, hkept, hstopped, hlogged⟩

/-! ## Every member has aborted (R343) -/

theorem setGroup_foldl_other {f : Nat × Group → Group} {n : Nat} : ∀ (l : List (Nat × Group)) (s : State), n ∉ l.map (·.1) →
    getGroup (l.foldl (fun s e => setGroup s e.1 (f e)) s) n = getGroup s n
  | [], _, _ => rfl
  | e :: l, s, h => by
    rw [List.map_cons, List.mem_cons, not_or] at h
    exact (setGroup_foldl_other l _ h.2).trans (tfind_tset_ne _ h.1 _)

/-- Groups set one after another: each has what it was given. -/
theorem setGroup_foldl_mem {f : Nat × Group → Group} {n : Nat} {y : Group} : ∀ (l : List (Nat × Group)) (s : State), (l.map (·.1)).Nodup → (n, y) ∈ l →
    getGroup (l.foldl (fun s e => setGroup s e.1 (f e)) s) n = some (f (n, y))
  | [], _, _, h => absurd h List.not_mem_nil
  | e :: l, s, hnodup, h => by
    rw [List.map_cons, List.nodup_cons] at hnodup
    obtain ⟨hfresh, hrest⟩ := hnodup
    rcases List.mem_cons.mp h with rfl | hin
    · exact (setGroup_foldl_other l _ hfresh).trans (getGroup_setGroup_self _ _ _)
    · exact setGroup_foldl_mem l _ hrest hin

/-- A group rewound to where the step found it. -/
def rewound (g : Gate) (e : Nat × Group) : Group := resetGroup e.2 (tget e.2.seq g.seqs e.1)

/-- The district's groups rewound. -/
def groupsRewound (d : Nat) (s : State) : State :=
  (s.groups.filter fun e => e.2.dist == d).foldl (fun t e => setGroup t e.1 (rewound (getDist s d).gate e)) s

theorem setGroup_foldl_dists (f : Nat × Group → Group) : ∀ (l : List (Nat × Group)) (s : State), (l.foldl (fun s e => setGroup s e.1 (f e)) s).dists = s.dists
  | [], _ => rfl
  | e :: l, s => setGroup_foldl_dists f l (setGroup s e.1 (f e))

theorem groupsRewound_gate (d : Nat) (s : State) : (getDist (groupsRewound d s) d).gate = (getDist s d).gate :=
  congrArg Dist.gate (getDist_congr (setGroup_foldl_dists _ _ s) d)

theorem groupsRewound_group {d n : Nat} {s : State} {y : Group} (hnodup : (s.groups.map (·.1)).Nodup) (hy : getGroup s n = some y) (hd : y.dist = d) :
    getGroup (groupsRewound d s) n = some (rewound (getDist s d).gate (n, y)) := by
  refine setGroup_foldl_mem _ s (hnodup.sublist (List.filter_sublist.map _)) (List.mem_filter.mpr ⟨mem_of_tfind hy, ?_⟩)
  simp [hd]

theorem earlyComplete_eq {d k : Nat} {j : Job} {s : State} (hj : (getDist s d).gate.job = some j)
    (hcode : (getDist s d).gate.code = 1 ∨ (getDist s d).gate.code = 2) (hk : (getDist s d).gate.early = some k) (hrun : (getDist s d).run = none) :
    ∃ m now, earlyComplete d s = refuseStep d (64 + k) m (modGate (groupsRewound d s) d fun g => { g with tEval := now }) := by
  refine ⟨{ ownMsg (groupsRewound d s) d j .contribution true with taint := (getDist s d).gate.taint, fault := k / 8 % 2 == 1 },
    time (groupsRewound d s), ?_⟩
  unfold earlyComplete
  dsimp only
  rw [hj, hk]
  exact if_neg (by rw [hrun]; simp; omega)

theorem earlyComplete_state {d k : Nat} {j : Job} {s : State} (hj : (getDist s d).gate.job = some j)
    (hcode : (getDist s d).gate.code = 1 ∨ (getDist s d).gate.code = 2) (hk : (getDist s d).gate.early = some k) (hrun : (getDist s d).run = none)
    (hnodup : (s.groups.map (·.1)).Nodup) : let t := earlyComplete d s
    (getDist t d).gate.record.verdict = 2 ∧ (getDist t d).gate.record.causes = 64 + k ∧ (getDist t d).gate.record.step = (getDist s d).gate.step ∧
      ∀ n y, getGroup s n = some y → y.dist = d →
        ∃ z, getGroup t n = some z ∧ z.seq = tget y.seq (getDist s d).gate.seqs n ∧ z.epoch = (y.epoch + 1) % 256 ∧ z.cur = none := by
  obtain ⟨m, now, hdone⟩ := earlyComplete_eq hj hcode hk hrun
  have hgate := groupsRewound_gate d s
  have hgroups := fun n y => groupsRewound_group (d := d) (n := n) (s := s) (y := y) hnodup
  dsimp only
  rw [hdone]
  generalize groupsRewound d s = u at hgate hgroups
  obtain ⟨g, hg, hrec⟩ := refuseStep_gated (64 + k) m (modGate_gated (fun g => { g with tEval := now }) (.refl d u))
  rw [hg.gate, hrec]
  refine ⟨rfl, rfl, congrArg Gate.step hgate, fun n y hy hd => ⟨rewound (getDist s d).gate (n, y), ?_, rfl, rfl, rfl⟩⟩
  rw [getGroup_congr hg.groups]
  exact hgroups n y hy hd

/-! ## The rounds' last messages (R340, R344) -/

section
variable {d : Nat} {j : Job} {s : State} {m : GateMsg} (hj : (getDist s d).gate.job = some j) (hstate : (getDist s d).state ≠ 5) (hsig : m.sig = j.sig)
  (hfull : isFull j m = true)
include hj hstate hsig hfull

theorem gateTake_refuses (hround : m.round = .contribution) (hcode : (getDist s d).gate.code = 2) (hcauses : msgCauses m ≠ 0) : let t := gateTake d m s
    let o := (getDist t d).gate.record
    o.verdict = 2 ∧ o.causes = msgCauses m ∧ o.step = (getDist s d).gate.step ∧ o.nf = m.nf ∧ o.poison = m.poison ∧ o.loss = m.loss ∧
      (⟨s.now, 0x887, 0x181, 1, d, [(getDist s d).gate.step, msgCauses m, m.nf, min (getDist s d).gate.replay 15]⟩ : EventRec) ∈ t.emitted := by
  have hspread := gateSpread_gated j m (.refl d s)
  dsimp only
  rw [gateTake_verdict hj hstate hsig hround hfull]
  generalize gateSpread s j m = u at hspread
  have hgate := hspread.gate
  rw [takeVerdict_refuses (by rw [hgate]; exact hj) (by rw [hgate]; exact hcode) hcauses]
  obtain ⟨g, hg, hrec⟩ := refuseStep_gated (msgCauses m) m hspread
  have hlogged := refuseStep_logged d (msgCauses m) m u
  rw [hgate, hspread.now] at hlogged
  rw [hg.gate, hrec]
  exact ⟨rfl, rfl, rfl, rfl, rfl, rfl, hlogged⟩

theorem gateTake_commits (hround : m.round = .contribution) (hcode : (getDist s d).gate.code = 2) (hcauses : msgCauses m = 0) (hheld : m.held = false) :
    let h := (getDist (gateTake d m s) d).gate
    h.code = 3 ∧ h.record.verdict = 1 ∧ h.record.causes = 0 ∧ h.record.step = (getDist s d).gate.step ∧ h.record.loss = m.loss ∧
      h.step = (getDist s d).gate.step ∧ h.nf = 0 ∧ h.poison = 0 ∧ h.fault = false := by
  have hspread := gateSpread_gated j m (.refl d s)
  dsimp only
  rw [gateTake_verdict hj hstate hsig hround hfull]
  generalize gateSpread s j m = u at hspread
  have hgate := hspread.gate
  obtain ⟨w, hw⟩ := takeVerdict_commits (d := d) (s := u) (by rw [hgate]; exact hj) (by rw [hgate]; exact hcode) hcauses hheld
  rw [hw.gate, hgate]
  exact ⟨rfl, rfl, rfl, rfl, rfl, rfl, rfl, rfl, rfl⟩

theorem gateTake_clean (hround : m.round = .commit) (hcode : (getDist s d).gate.code = 3) (hclean : m.clean = true) : let t := gateTake d m s
    let h := (getDist t d).gate
    let g := (getDist s d).gate
    h.step = (g.step + 1) % 2 ^ 64 ∧ h.cursor = (g.cursor + j.recs) % 2 ^ 64 ∧ h.replay = 0 ∧ h.record.verdict = 1 ∧ h.code = 0 ∧
      (j.evt = true → (⟨s.now, 0x887, 0x180, 0, d, [g.record.step, g.record.loss, if g.record.approx then 1 else 0]⟩ : EventRec) ∈ t.emitted) := by
  have hspread := gateSpread_gated j m (.refl d s)
  dsimp only
  rw [gateTake_commit hj hstate hsig hround hfull]
  generalize gateSpread s j m = u at hspread
  have hgate := hspread.gate
  have hju : (getDist u d).gate.job = some j := by rw [hgate]; exact hj
  have hcu : (getDist u d).gate.code = 3 := by rw [hgate]; exact hcode
  obtain ⟨t, ht, hrec, hstep, hcursor, hreplay, hzero⟩ := finishCommit_clean (m := m) hju hcu hclean
  have hlogged := fun hevt => finishCommit_logged (m := m) hju hcu hclean hevt
  rw [hgate] at hstep hcursor
  rw [hgate, hspread.now] at hlogged
  rw [ht.gate, hrec]
  exact ⟨hstep, hcursor, hreplay, rfl, hzero, hlogged⟩

theorem gateTake_torn (hround : m.round = .commit) (hcode : (getDist s d).gate.code = 3) (hclean : m.clean = false) : let h := (getDist (gateTake d m s) d).gate
    h.code = 5 ∧ h.step = (getDist s d).gate.step ∧ h.cursor = (getDist s d).gate.cursor ∧ h.record.verdict = 3 ∧ 128 ≤ h.record.causes := by
  have hspread := gateSpread_gated j m (.refl d s)
  dsimp only
  rw [gateTake_commit hj hstate hsig hround hfull]
  generalize gateSpread s j m = u at hspread
  have hgate := hspread.gate
  have ht := finishCommit_torn (m := m) (d := d) (s := u) (by rw [hgate]; exact hj) (by rw [hgate]; exact hcode) hclean
  rw [ht.gate, hgate]
  exact ⟨rfl, rfl, rfl, rfl, Nat.le_add_right _ _⟩

end

/-- The opening of a step, as its parts give it. -/
theorem stepOpen_opens {d : Nat} {j : Job} {s : State} (hj : (getDist s d).gate.job = some j) (hopen : (getDist s d).gate.opening = true)
    (hrun : (getDist s d).gate.run.isSome = true) (hfeed : (getDist s d).gate.feeding = none) (hstate : (getDist s d).state = 3)
    (hpause : (getDist s d).pause = none)
    (hinfo : ∀ e, tfind (getDist s d).segs j.infoSeg = some e → e.tier ≠ 3 ∧ memWf (getBack s e.bid).data = true) : let t := stepOpen d s
    let h := (getDist t d).gate
    let g := (getDist s d).gate
    h.code = 1 ∧ h.opening = false ∧ h.nf = 0 ∧ h.poison = 0 ∧ h.taint = false ∧ h.fault = false ∧ h.approx = false ∧
      h.tOpen = time s ∧ h.step = g.step ∧ h.cursor = g.cursor ∧
      h.feeding = (if j.feedSeg = 0 then none else some (g.cursor + j.recs, g.step + 1)) ∧
      (∀ e, tfind (getDist s d).segs j.infoSeg = some e → segRead t e j.infoOff 64 = infoBytes g (time s)) ∧
      (thas (getDist s d).progs j.compute = true → (getDist t d).run.map (·.handle) = some j.compute) := by
  obtain ⟨⟨seqs, hgate⟩, hbacks, hprog⟩ := stepOpen_state hj hopen hrun hfeed hstate hpause
  dsimp only
  rw [hgate]
  refine ⟨rfl, rfl, rfl, rfl, rfl, rfl, rfl, rfl, rfl, rfl, rfl, fun e he => ?_, hprog⟩
  obtain ⟨htier, hwf⟩ := hinfo e he
  rw [segRead_of_backs htier hbacks, infoWritten_record he htier hwf]

/-! ## The obligation -/

/-- Settles O37: each event by its own lemma. -/
theorem stepAttemptsRun : Obligations.StepAttemptsRun := by
  unfold Obligations.StepAttemptsRun
  intro d j s
  exact fun hj => ⟨fun hopen hrun hfeed hstate hpause hinfo => ⟨_, rfl, stepOpen_opens hj hopen hrun hfeed hstate hpause hinfo⟩,
    fun first step src dst hfeed hready hsrc hdst htier hwf hrecs => ⟨_, rfl, feedDone_state hj hfeed hready hsrc hdst htier hwf hrecs⟩,
    fun hcode hearly hstate hover hfinal hacc => ⟨fun hneeds => ⟨_, rfl, memberReady_waits hj hcode hearly hstate hover hfinal hacc hneeds⟩,
      fun q hneeds hnext => ⟨_, rfl, memberReady_sends hj hcode hearly hstate hover hfinal hacc hneeds hnext⟩⟩,
    fun m hstate => ⟨_, congrArg Host.Outcome.next (if_pos hstate), congrArg Dist.gate (modGate_gate _ _ _), rfl, logs_of_emitted rfl⟩,
    fun m hstate hround hsig hfull hcode => ⟨fun hcauses => ⟨_, rfl, gateTake_refuses hj hstate hsig hfull hround hcode hcauses⟩,
      fun hcauses hheld => ⟨_, rfl, gateTake_commits hj hstate hsig hfull hround hcode hcauses hheld⟩⟩,
    fun m hstate hround hsig hfull hcode => ⟨fun hclean => ⟨_, rfl, gateTake_clean hj hstate hsig hfull hround hcode hclean⟩,
      fun hclean => ⟨_, rfl, gateTake_torn hj hstate hsig hfull hround hcode hclean⟩⟩,
    fun hcode hmine hwait hstate hover hacc hneeds => ⟨_, rfl, updateComplete_waits hj hcode hmine hwait hstate hover hacc hneeds⟩,
    fun hcode hheld hearly hstate hlate => ⟨_, rfl, evalTimeout_state hj hcode hheld hearly hstate hlate⟩,
    fun pos causes sig hsig hno => ⟨_, congrArg Host.Outcome.next (earlyNotice_unsigned hj hsig hno), congrArg Dist.gate (modGate_gate _ _ _), rfl⟩,
    fun pos causes hcode => ⟨fun hnone => ⟨_, congrArg Host.Outcome.next (earlyNotice_signed hj), earlyStart_opens hcode hnone⟩,
      fun k hk => ⟨_, congrArg Host.Outcome.next ((earlyNotice_signed hj).trans (earlyStart_again hcode hk)), congrArg Dist.gate (modGate_gate _ _ _), rfl⟩⟩,
    fun k hcode hk hrun hnodup => ⟨_, rfl, earlyComplete_state hj hcode hk hrun hnodup⟩⟩

end Sys2Proof.Machine
end

section
/-! The page pool (R350, R352, R353): its slots, and the commands that act on it (R365). -/

namespace Sys2Proof.Machine

/-! ## Slots -/

@[simp] theorem getSeq_modSeq_self (p : Pool) (i : Nat) (g : Seq → Seq) : getSeq (modSeq p i g) i = g (getSeq p i) := tget_tmod_self _ _ _ _

theorem getSeq_modSeq_ne (p : Pool) {i k : Nat} (g : Seq → Seq) (h : k ≠ i) : getSeq (modSeq p i g) k = getSeq p k := tget_tmod_ne _ _ _ h

theorem getDist_modPool (s : State) (d : Nat) (g : Pool → Pool) : getDist (modPool s d g) d = { getDist s d with pool := (getDist s d).pool.map g } :=
  getDist_modDist_self _ _ _

theorem modPool_pool {s : State} {d : Nat} {p : Pool} (g : Pool → Pool) (h : (getDist s d).pool = some p) : (getDist (modPool s d g) d).pool = some (g p) := by
  rw [getDist_modPool, h]
  rfl

theorem wakeLoop_pool (s : State) (d : Nat) : (getDist (wakeLoop s d) d).pool = (getDist s d).pool := wakeLoop_field Dist.pool (fun _ _ => rfl) s d d

/-- The loop of a district as a command finds it. -/
theorem wakeLoop_loop {s : State} {d : Nat} {l : Loop} (h : (getDist s d).loop = some l) :
    (getDist (wakeLoop s d) d).loop = some (if l.phase = 1 then { l with phase := 0 } else l) := by
  unfold wakeLoop
  rw [h]
  dsimp only
  split
  · rw [getDist_modDist_self]
  · exact h

theorem wakeLoop_inBoundary (s : State) (d : Nat) : inBoundary (getDist (wakeLoop s d) d) = inBoundary (getDist s d) := by
  cases h : (getDist s d).loop with
  | none => rw [wakeLoop_none h]
  | some l =>
    rw [inBoundary, inBoundary, wakeLoop_loop h, h]
    show (_ != 0) = (l.part != 0)
    split <;> rfl

/-- What a reply leaves of a state: a reply is added to one function. -/
theorem queueReply_adds {s : State} {e : Nat} {r : Reply} (h : (getFn s r.req.fn).epoch = e) : repliesAdd s (queueReply s e r) r.req.fn [r] := by
  rw [repliesAdd, queueReply, if_pos h, getFn_modFn_self]

/-! ## Truncation (R356) -/

/-- A slot without its pending truncations. -/
def editsTaken (y : Seq) : Seq := { y with edits := [] }

/-- The one truncation that a slot's edits hold, taken: answered, and applied where it shortens the slot. -/
theorem takeEdits_one {d i n : Nat} {w : Pend} {p : Pool} {s : State} (hpool : (getDist s d).pool = some p) (hedits : (getSeq p i).edits = [(n, w)])
    (hn : n < (getSeq p i).len) (hepoch : (getFn s w.req.fn).epoch = w.epoch) : let t := takeEdits d i s
    repliesAdd s t w.req.fn [okReply w.req w.cmd []] ∧ (getDist t d).pool = some (truncateSeq (modSeq p i editsTaken) i n true) := by
  have htaken : takeEdits d i s = queueReply (modPool (modPool s d fun p => modSeq p i editsTaken) d fun p =>
      if n < (getSeq p i).len then truncateSeq p i n true else p) w.epoch { req := w.req, cmd := w.cmd } := by
    unfold takeEdits
    rw [hpool]
    dsimp only
    rw [hedits]
    rfl
  dsimp only
  rw [htaken]
  refine ⟨queueReply_adds (s := modPool (modPool s d _) d _) hepoch, ?_⟩
  rw [getDist_queueReply, modPool_pool _ (modPool_pool _ hpool), if_pos (by rw [getSeq_modSeq_self]; exact hn)]

theorem truncateSeq_self (p : Pool) (i n : Nat) : ∃ r v, getSeq (truncateSeq p i n true) i = { getSeq p i with
    table := (getSeq p i).table.filter (fun e => e.1 < cdiv n 16), gen := nextGen (getSeq p i), len := n, hist := min (getSeq p i).hist (n + 1)
    resUsed := r, void := v } ∧ ((getSeq p i).inStep = true → v = true) :=
  ⟨_, (getSeq p i).void || (true && (getSeq p i).inStep), getSeq_modSeq_self _ _ _, fun h => by rw [h]; simp⟩

theorem truncateSeq_ne (p : Pool) {i k : Nat} (n : Nat) (h : k ≠ i) : getSeq (truncateSeq p i n true) k = getSeq p k := getSeq_modSeq_ne _ _ h

theorem applyEdit_waits {d i : Nat} {s : State} (h : walking (getDist s d) i = true ∨ inBoundary (getDist s d) = true) : applyEdit d i s = s := if_pos h

theorem applyEdit_takes {d i : Nat} {s : State} (hwalk : walking (getDist s d) i = false) (hbound : inBoundary (getDist s d) = false) :
    applyEdit d i s = takeEdits d i s := if_neg (by simp [hwalk, hbound])

theorem immediateEditApply_state {d i n : Nat} {w : Pend} {q : Pool} {s : State} (hpool : (getDist s d).pool = some q)
    (hedits : (getSeq q i).edits = [(n, w)]) (hn : n < (getSeq q i).len) (hepoch : (getFn s w.req.fn).epoch = w.epoch)
    (hwalk : walking (getDist s d) i = false) (hbound : inBoundary (getDist s d) = false) : let t := applyEdit d i s
    repliesAdd s t w.req.fn [okReply w.req w.cmd []] ∧ ∃ r, (getDist t d).pool = some r ∧ (getSeq r i).len = n ∧ (getSeq r i).edits = [] ∧
      (getSeq r i).gen = ((getSeq q i).gen + 1) % 65536 ∧ ∀ k, k ≠ i → getSeq r k = getSeq q k := by
  obtain ⟨hreply, hafter⟩ := takeEdits_one hpool hedits hn hepoch
  obtain ⟨e, v, hself, -⟩ := truncateSeq_self (modSeq q i editsTaken) i n
  rw [getSeq_modSeq_self] at hself
  dsimp only
  rw [applyEdit_takes hwalk hbound]
  refine ⟨hreply, _, hafter, ?_, ?_, ?_, fun k hk => ?_⟩
  · rw [hself]
  · rw [hself]
    rfl
  · rw [hself]
    rfl
  · rw [truncateSeq_ne _ _ hk, getSeq_modSeq_ne _ _ hk]

/-! ## SERVE_POOL_CREATE (R350, R351, R365) -/

theorem servePoolCreate_acts {c : FwReq} {s : State} {e : Seg} (hserving : (getDist s (cmdDist c)).serving = true) (h : Sendable specServePoolCreate c s)
    (hlen : c.payload.length = 48) (hzero : zeroAt c.payload [(31, 25), (47, 41), (79, 77), (127, 97), (383, 256)] = true)
    (hargs : poolArgsOk (getDist s (cmdDist c)) c.payload = true) (hstate : (getDist s (cmdDist c)).state ∈ [1, 2])
    (hpool : (getDist s (cmdDist c)).pool = none) (hloop : (getDist s (cmdDist c)).loop = none)
    (hfits : fits s 1 (List.range 8) (tableSize c.payload) = true) (he : tfind (getDist s (cmdDist c)).segs (fld c.payload 7 0) = some e) :
    exec (.servePoolCreate c) s = .next (replyOk (modDist (alloc s 1 (List.range 8) (tableSize c.payload)).2 (cmdDist c) fun x =>
      { x with pool := some (poolOf c.payload e.size s.nextBid), bstep := 0 }) c 0x0700 (pack 16 [(32, (poolOf c.payload e.size s.nextBid).pages),
        (32, (poolOf c.payload e.size s.nextBid).columns), (64, tableSize c.payload)])) := by
  refine (stepCommand_acts h rfl (by simp [hlen, hzero])
    (by simp [notServing, hserving, hargs, legalIn_ok hstate, hpool, hfits])).trans ?_
  dsimp only
  rw [wakeLoop_none hloop, he]
  rfl

theorem poolArgsOk_layers {x : Dist} {p : Bytes} (h : poolArgsOk x p = true) : 1 ≤ fld p 40 32 := by
  simp only [poolArgsOk, Bool.and_eq_true, decide_eq_true_eq] at h
  exact h.1.1.1.1.1.1.1.1.1.1

/-! ## SERVE_POOL_DESTROY (R365) -/

theorem tfind_none_keys {α : Type} {k : Nat} : ∀ {m : AMap α}, tfind m k = none → ∀ e ∈ m, e.1 ≠ k
  | [], _, _, he => absurd he List.not_mem_nil
  | (j, v) :: m, h, e, he => by
    unfold tfind at h
    split at h
    · exact absurd h (by simp)
    · next hne =>
      rcases List.mem_cons.mp he with rfl | hin
      · exact hne
      · exact tfind_none_keys h e hin

/-- A district's change of state leaves its programs, its segments and its pool. -/
theorem setDistState_dist (s : State) (d st : Nat) : ∃ g, getDist (setDistState s d st) d = { getDist s d with state := st, gen := g } := by
  by_cases h : (getDist s d).state = st
  · refine ⟨(getDist s d).gen, ?_⟩
    rw [setDistState, if_pos h, ← h]
  · exact ⟨_, setDistState_self h⟩

/-- A program unloaded: no entry of its handle is left, and the segments stay (R87). -/
theorem unloadProg_progs (s : State) (d handle : Nat) : (∀ e ∈ (getDist (unloadProg s d handle) d).progs, e ∈ (getDist s d).progs ∧ e.1 ≠ handle) ∧
    (getDist (unloadProg s d handle) d).segs = (getDist s d).segs := by
  unfold unloadProg
  cases hfind : tfind (getDist s d).progs handle with
  | none => exact ⟨fun e he => ⟨he, tfind_none_keys hfind e he⟩, rfl⟩
  | some p =>
    dsimp only
    have hdist : getDist { modDist s d (fun x => { x with progs := tdel x.progs handle }) with backs := tdel s.backs p.bid } d =
        { getDist s d with progs := tdel (getDist s d).progs handle } := by simp [getDist, modDist]
    have hleft : ∀ e ∈ tdel (getDist s d).progs handle, e ∈ (getDist s d).progs ∧ e.1 ≠ handle := fun e he => by
      rw [tdel, List.mem_filter] at he
      exact ⟨he.1, by simpa using he.2⟩
    generalize { modDist s d (fun x => { x with progs := tdel x.progs handle }) with backs := tdel s.backs p.bid } = u at hdist
    split
    · obtain ⟨g, hg⟩ := setDistState_dist u d 1
      rw [hg, hdist]
      exact ⟨hleft, rfl⟩
    · rw [hdist]
      exact ⟨hleft, rfl⟩

theorem unloadProgs_progs (d : Nat) : ∀ (hs : List Nat) (s : State), let t := hs.foldl (fun s h => unloadProg s d h) s
    (∀ e ∈ (getDist t d).progs, e ∈ (getDist s d).progs ∧ e.1 ∉ hs) ∧ (getDist t d).segs = (getDist s d).segs
  | [], s => ⟨fun _ he => ⟨he, List.not_mem_nil⟩, rfl⟩
  | h :: hs, s => by
    obtain ⟨hprogs, hsegs⟩ := unloadProgs_progs d hs (unloadProg s d h)
    obtain ⟨hone, hkept⟩ := unloadProg_progs s d h
    refine ⟨fun e he => ?_, hsegs.trans hkept⟩
    obtain ⟨hin, hnot⟩ := hprogs e he
    obtain ⟨hin', hne⟩ := hone e hin
    exact ⟨hin', by simp [hne, hnot]⟩

/-- The programs of a district that use its pool. -/
def poolUsers (x : Dist) (q : Pool) : List Nat := (x.progs.filter fun e => (allDescs x e.2).any (usesPool q.seg)).map (·.1)

theorem not_poolUsers {x : Dist} {q : Pool} {e : Nat × Prog} (he : e ∈ x.progs) (hnot : e.1 ∉ poolUsers x q) : (allDescs x e.2).any (usesPool q.seg) = false := by
  by_contra huses
  exact hnot (List.mem_map_of_mem (List.mem_filter.mpr ⟨he, by simpa using huses⟩))

theorem servePoolDestroy_acts {c : FwReq} {s : State} {q : Pool} (hserving : (getDist s (cmdDist c)).serving = true)
    (hpool : (getDist s (cmdDist c)).pool = some q) (hfree : ∀ e ∈ q.seqs, e.2.state = 0) (h : Sendable specServePoolDestroy c s) (hp : c.payload = [])
    (hstate : (getDist s (cmdDist c)).state ∈ [1, 2, 6]) (hloop : (getDist s (cmdDist c)).loop = none) (hrun : (getDist s (cmdDist c)).run = none) :
    exec (.servePoolDestroy c) s = .next (replyOk { modDist ((poolUsers (getDist s (cmdDist c)) q).foldl (fun s h => unloadProg s (cmdDist c) h) s)
      (cmdDist c) (fun x => { x with pool := none }) with
        backs := tdel ((poolUsers (getDist s (cmdDist c)) q).foldl (fun s h => unloadProg s (cmdDist c) h) s).backs q.bid } c 0x0701 []) := by
  have hbusy : (q.seqs.find? fun e => e.2.state != 0) = none := List.find?_eq_none.mpr fun e he => by simp [hfree e he]
  refine (stepCommand_acts h rfl (by rw [hp]; rfl) (by simp [notServing, noPool, hserving, hpool, legalIn_ok hstate, hrun, hbusy])).trans ?_
  dsimp only
  rw [wakeLoop_none hloop, hpool]
  rfl

theorem poolDestroyed_reply {s : State} {d : Nat} {q : Pool} (c : FwReq) :
    let u := (poolUsers (getDist s d) q).foldl (fun s h => unloadProg s d h) s
    let t := replyOk { modDist u d (fun x => { x with pool := none }) with backs := tdel u.backs q.bid } c 0x0701 []
    (getDist t d).pool = none ∧ okReply c 0x0701 [] ∈ (getFn t c.fn).replies ∧ (getDist t d).segs = (getDist s d).segs ∧
      ∀ e ∈ (getDist t d).progs, (allDescs (getDist s d) e.2).any (usesPool q.seg) = false := by
  obtain ⟨hprogs, hsegs⟩ := unloadProgs_progs d (poolUsers (getDist s d) q) s
  generalize (poolUsers (getDist s d) q).foldl (fun s h => unloadProg s d h) s = u at hprogs hsegs
  have hdist : getDist { modDist u d (fun x => { x with pool := none }) with backs := tdel u.backs q.bid } d = { getDist u d with pool := none } := by
    simp [getDist, modDist]
  dsimp only
  rw [getDist_replyOk, hdist]
  exact ⟨rfl, okReply_mem _ _ _ _, hsegs, fun e he => not_poolUsers (hprogs e he).1 (hprogs e he).2⟩

/-! ## SERVE_JOIN (R360, R363, R365) -/

/-- A slot as SERVE_JOIN queues it. -/
def joinedSeq (p : Bytes) (order : Nat) (w : Pend) (y : Seq) : Seq :=
  { gen := y.gen, state := 1, tag := fld p 63 0, prio := fld p 67 64, admitting := bit p 68, goal := fld p 127 96, hist := fld p 127 96, order := order
    pend := some w }

/-- A pool with a sequence joined. -/
def joinedPool (p : Bytes) (i : Nat) (w : Pend) (q : Pool) : Pool := { modSeq q i (joinedSeq p q.nextOrder w) with nextOrder := q.nextOrder + 1 }

/-- The first reply to a join: the slot it has. -/
def joinReply (c : FwReq) (i : Nat) : Reply := { acceptedReply c 0x0702 with payload := leBytes 8 i }

/-- The state of a join, before its reply. -/
def joinedState (c : FwReq) (q : Pool) (i : Nat) (a b : Seg) (s : State) : State :=
  modPool (segWrite s b (q.histOff + i * q.maxPages * 64) (segRead s a (fld c.payload 191 128) (4 * fld c.payload 127 96))) (cmdDist c)
    (joinedPool c.payload i (pendOf s c 0x0702))

theorem serveJoin_acts {c : FwReq} {s : State} {q : Pool} {i : Nat} {a b : Seg} (hserving : (getDist s (cmdDist c)).serving = true)
    (hpool : (getDist s (cmdDist c)).pool = some q) (hfree : freeSlot (getDist s (cmdDist c)) = some i)
    (ha : tfind (getDist s (cmdDist c)).segs (fld c.payload 79 72) = some a) (hb : tfind (getDist s (cmdDist c)).segs q.histSeg = some b)
    (h : Sendable specServeJoin c s) (hlen : c.payload.length = 32) (hzero : zeroAt c.payload [(71, 69), (95, 80), (255, 192)] = true)
    (hargs : joinOk (getDist s (cmdDist c)) c.payload = true) (hstate : (getDist s (cmdDist c)).state ∈ [1, 2, 3, 4, 5, 6]) :
    exec (.serveJoin c) s = .next (queueReply (joinedState c q i a b (wakeLoop s (cmdDist c))) (pendOf s c 0x0702).epoch (joinReply c i)) := by
  refine (stepCommand_acts h rfl (by simp [hlen, hzero])
    (by simp [notServing, noPool, hserving, hpool, hargs, legalIn_ok (ok := anyState) hstate, hfree])).trans ?_
  dsimp only
  rw [hpool, hfree, ha]
  dsimp only
  rw [hb]
  dsimp only
  have hpend : pendOf (segWrite (wakeLoop s (cmdDist c)) b (q.histOff + i * q.maxPages * 64)
      (segRead (wakeLoop s (cmdDist c)) a (fld c.payload 191 128) (4 * fld c.payload 127 96))) c 0x0702 = pendOf s c 0x0702 := by
    rw [pendOf, getFn_congr (segWrite_fns _ _ _ _), ← pendOf, pendOf_wakeLoop]
  rw [hpend, joinedState, pendOf_wakeLoop]
  rfl

theorem joined_state {c : FwReq} {s : State} {q : Pool} {i : Nat} {a b : Seg} (hpool : (getDist s (cmdDist c)).pool = some q) (htier : b.tier ≠ 3)
    (hwf : memWf (getBack s b.bid).data = true) : let t := queueReply (joinedState c q i a b (wakeLoop s (cmdDist c))) (pendOf s c 0x0702).epoch (joinReply c i)
    repliesAdd s t c.fn [joinReply c i] ∧
      (∃ r, (getDist t (cmdDist c)).pool = some r ∧ (getSeq r i).state = 1 ∧ (getSeq r i).tag = fld c.payload 63 0 ∧ (getSeq r i).prio = fld c.payload 67 64 ∧
        (getSeq r i).goal = fld c.payload 127 96 ∧ r.used = q.used ∧ ∀ k, k ≠ i → getSeq r k = getSeq q k) ∧
      segRead t b (q.histOff + i * q.maxPages * 64) (4 * fld c.payload 127 96) = segRead s a (fld c.payload 191 128) (4 * fld c.payload 127 96) := by
  have hfns : (joinedState c q i a b (wakeLoop s (cmdDist c))).fns = s.fns := (segWrite_fns _ _ _ _).trans (wakeLoop_fns _ _)
  have hafter : (getDist (joinedState c q i a b (wakeLoop s (cmdDist c))) (cmdDist c)).pool = some (joinedPool c.payload i (pendOf s c 0x0702) q) := by
    rw [joinedState, pendOf_wakeLoop]
    exact modPool_pool _ (by rw [getDist_congr (segWrite_dists _ _ _ _), wakeLoop_pool, hpool])
  have hsrc : segRead (wakeLoop s (cmdDist c)) a (fld c.payload 191 128) (4 * fld c.payload 127 96) =
      segRead s a (fld c.payload 191 128) (4 * fld c.payload 127 96) := segRead_congr (wakeLoop_backs _ _) (congrArg _ (wakeLoop_flash _ _)) _ _ _
  have hread : segRead (joinedState c q i a b (wakeLoop s (cmdDist c))) b (q.histOff + i * q.maxPages * 64) (4 * fld c.payload 127 96) =
      segRead s a (fld c.payload 191 128) (4 * fld c.payload 127 96) := by
    have hwrite := segRead_segWrite (s := wakeLoop s (cmdDist c)) htier (by rw [getBack_congr (wakeLoop_backs _ _)]; exact hwf)
      (q.histOff + i * q.maxPages * 64) (segRead s a (fld c.payload 191 128) (4 * fld c.payload 127 96))
    rw [segRead_length] at hwrite
    rw [joinedState, hsrc]
    exact (segRead_of_backs htier rfl _ _).trans hwrite
  generalize joinedState c q i a b (wakeLoop s (cmdDist c)) = u at hfns hafter hread
  dsimp only
  rw [getDist_queueReply, segRead_of_backs htier (queueReply_backs _ _ _)]
  refine ⟨repliesAdd_of_fns_left (queueReply_adds (by rw [getFn_congr hfns]; rfl)) hfns, ⟨_, hafter, ?_⟩, hread⟩
  have hself : getSeq (joinedPool c.payload i (pendOf s c 0x0702) q) i = joinedSeq c.payload q.nextOrder (pendOf s c 0x0702) (getSeq q i) := getSeq_modSeq_self _ _ _
  rw [hself]
  exact ⟨rfl, rfl, rfl, rfl, rfl, fun k hk => getSeq_modSeq_ne _ _ hk⟩

end Sys2Proof.Machine
end

section
/-! The SERVE_ commands on a slot and on the loop (R356, R365, R374), and their obligation. -/

namespace Sys2Proof.Machine

/-! ## The slot that a command names -/

section
variable {c : FwReq} {s : State} {q : Pool} (hserving : (getDist s (cmdDist c)).serving = true) (hpool : (getDist s (cmdDist c)).pool = some q)
  (hslot : fld c.payload 11 0 < q.slots) (hlen : c.payload.length = 8) (hstate : (getDist s (cmdDist c)).state ∈ [1, 2, 3, 4, 5, 6])
include hserving hpool hslot hlen hstate

theorem serveLeave_acts (h : Sendable specServeLeave c s) (hzero : zeroAt c.payload [(63, 12)] = true)
    (hseq : (getSeq q (fld c.payload 11 0)).state ∈ [1, 2, 3, 4, 5]) : exec (.serveLeave c) s = .next (replyOk
      (if (getSeq q (fld c.payload 11 0)).state = 1 then match (getSeq q (fld c.payload 11 0)).pend with
        | some w => finishOk (modPool (wakeLoop s (cmdDist c)) (cmdDist c) fun q => modSeq q (fld c.payload 11 0) fun y => { gen := y.gen }) w (leBytes 8 0)
        | none => modPool (wakeLoop s (cmdDist c)) (cmdDist c) fun q => modSeq q (fld c.payload 11 0) fun y => { gen := y.gen }
      else modPool (wakeLoop s (cmdDist c)) (cmdDist c) fun q => modSeq q (fld c.payload 11 0) fun y => { y with state := 6 }) c 0x0703 []) := by
  refine (stepCommand_acts h rfl (by simp [hlen, hzero]) (by
    simp only [List.mem_cons, List.not_mem_nil, or_false] at hseq
    simp [notServing, noPool, slotBad, slotIn, seqState, hserving, hpool, hslot, legalIn_ok (ok := anyState) hstate, hseq])).trans ?_
  dsimp only
  rw [seqState, hpool]
  rfl

theorem serveTruncate_acts (h : Sendable specServeTruncate c s) (hzero : zeroAt c.payload [(31, 12)] = true) (hn : 0 < fld c.payload 63 32)
    (hshorter : fld c.payload 63 32 < (getSeq q (fld c.payload 11 0)).len) (hseq : (getSeq q (fld c.payload 11 0)).state ∈ [3, 4]) :
    exec (.serveTruncate c) s = .next (applyEdit (cmdDist c) (fld c.payload 11 0) (modPool (wakeLoop s (cmdDist c)) (cmdDist c) fun q =>
      modSeq q (fld c.payload 11 0) fun y => { y with edits := y.edits ++ [(fld c.payload 63 32, pendOf s c 0x0704)] })) := by
  refine (stepCommand_acts h rfl (by simp [hlen, hzero]) (by
    simp only [List.mem_cons, List.not_mem_nil, or_false] at hseq
    simp [notServing, noPool, slotBad, slotIn, seqState, hserving, hpool, hslot, legalIn_ok (ok := anyState) hstate, hseq, hshorter, Nat.ne_of_gt hn])).trans ?_
  rw [pendOf_wakeLoop]

theorem serveSeqInfo_acts (h : Sendable specServeSeqInfo c s) (hzero : zeroAt c.payload [(63, 12)] = true) :
    let y := getSeq q (fld c.payload 11 0)
    exec (.serveSeqInfo c) s = .next (replyOk (wakeLoop s (cmdDist c)) c 0x0705 (pack 32 [(8, y.state), (4, y.prio), (1, b2n y.resUsed), (3, 0), (16, y.gen),
      (32, y.len), (32, y.table.length), (32, 0), (64, y.tag)])) := by
  refine (stepCommand_acts h rfl (by simp [hlen, hzero])
    (by simp [notServing, noPool, slotBad, hserving, hpool, hslot, legalIn_ok (ok := anyState) hstate])).trans ?_
  dsimp only
  rw [hpool]

end

theorem servePoolInfo_acts {c : FwReq} {s : State} {q : Pool} (hserving : (getDist s (cmdDist c)).serving = true)
    (hpool : (getDist s (cmdDist c)).pool = some q) (hstate : (getDist s (cmdDist c)).state ∈ [1, 2, 3, 4, 5, 6]) (h : Sendable specServePoolInfo c s)
    (hp : c.payload = []) : exec (.servePoolInfo c) s = .next (replyOk (wakeLoop s (cmdDist c)) c 0x0706
      (pack 32 [(32, freeCols q), (32, q.columns), (64, q.drops), (64, q.deferrals)])) := by
  refine (stepCommand_acts h rfl (by rw [hp]; rfl)
    (by simp [notServing, noPool, hserving, hpool, legalIn_ok (ok := anyState) hstate])).trans ?_
  rw [hpool]

theorem info_reply (s : State) (c : FwReq) (d cmd : Nat) (b : Bytes) : let t := replyOk (wakeLoop s d) c cmd b
    repliesAdd s t c.fn [okReply c cmd b] ∧ (getDist t d).pool = (getDist s d).pool :=
  ⟨repliesAdd_wakeLoop.mp (replyOk_adds _ _ _ _), by rw [getDist_replyOk, wakeLoop_pool]⟩

/-! ## A slot left (R365) -/

theorem pooled_reply {s : State} {d : Nat} {q : Pool} (c : FwReq) (cmd : Nat) (g : Pool → Pool) (b : Bytes) (hpool : (getDist s d).pool = some q) :
    let t := replyOk (modPool (wakeLoop s d) d g) c cmd b
    repliesAdd s t c.fn [okReply c cmd b] ∧ (getDist t d).pool = some (g q) :=
  ⟨repliesAdd_wakeLoop.mp (replyOk_modDist_adds _ _ _ _ _ _), by rw [getDist_replyOk]; exact modPool_pool _ ((wakeLoop_pool _ _).trans hpool)⟩

theorem leftQueue_reply {s : State} {d i : Nat} {q : Pool} {w : Pend} (c : FwReq) (hpool : (getDist s d).pool = some q)
    (hepoch : (getFn s w.req.fn).epoch = w.epoch) :
    let t := replyOk (finishOk (modPool (wakeLoop s d) d fun q => modSeq q i fun y => { gen := y.gen }) w (leBytes 8 0)) c 0x0703 []
    doneReply w 0 0 (leBytes 8 0) ∈ (getFn t w.req.fn).replies ∧ okReply c 0x0703 [] ∈ (getFn t c.fn).replies ∧
      (getDist t d).pool = some (modSeq q i fun y => { gen := y.gen }) ∧ t.emitted = s.emitted := by
  have hfns : (modPool (wakeLoop s d) d fun q => modSeq q i fun y => { gen := y.gen }).fns = s.fns := wakeLoop_fns s d
  have hdone := finishOk_mem (p := w) (by rw [getFn_congr hfns]; exact hepoch) (leBytes 8 0)
  have hafter := modPool_pool (fun q => modSeq q i fun y => { gen := y.gen }) ((wakeLoop_pool s d).trans hpool)
  have hemitted : (modPool (wakeLoop s d) d fun q => modSeq q i fun y => { gen := y.gen }).emitted = s.emitted := wakeLoop_emitted s d
  generalize (modPool (wakeLoop s d) d fun q => modSeq q i fun y => { gen := y.gen }) = u at hdone hafter hemitted
  dsimp only
  rw [getDist_replyOk, getDist_finishOk, replyOk_emitted, finishOk_emitted]
  exact ⟨((queueReply_calm _ _ (.refl _)).answers _).2.subset hdone, okReply_mem _ _ _ _, hafter, hemitted⟩

/-! ## A slot truncated (R356) -/

section
variable {s : State} {d i n : Nat} {q : Pool} {w : Pend} (hpool : (getDist s d).pool = some q)
include hpool

/-- The state in which a truncation waits for its slot. -/
theorem editQueued_dist : let u := modPool (wakeLoop s d) d fun q => modSeq q i fun y => { y with edits := y.edits ++ [(n, w)] }
    (getDist u d).pool = some (modSeq q i fun y => { y with edits := y.edits ++ [(n, w)] }) ∧ walking (getDist u d) i = walking (getDist s d) i ∧
      inBoundary (getDist u d) = inBoundary (getDist s d) ∧ u.fns = s.fns := by
  refine ⟨modPool_pool _ ((wakeLoop_pool s d).trans hpool), ?_, ?_, wakeLoop_fns s d⟩
  · rw [getDist_modPool]
    exact wakeLoop_field (fun x => walking x i) (fun _ _ => rfl) s d d
  · rw [getDist_modPool]
    exact wakeLoop_inBoundary s d

theorem truncated_state (hn : n < (getSeq q i).len) (hepoch : (getFn s w.req.fn).epoch = w.epoch) (hwalk : walking (getDist s d) i = false)
    (hbound : inBoundary (getDist s d) = false) (hedits : (getSeq q i).edits = []) :
    let t := applyEdit d i (modPool (wakeLoop s d) d fun q => modSeq q i fun y => { y with edits := y.edits ++ [(n, w)] })
    repliesAdd s t w.req.fn [okReply w.req w.cmd []] ∧ ∃ r, (getDist t d).pool = some r ∧ r.used = q.used ∧
      (let y := getSeq r i; let z := getSeq q i
       y.len = n ∧ y.gen = (z.gen + 1) % 65536 ∧ y.table = (z.table.filter fun e => e.1 < cdiv n 16) ∧ (z.inStep = true → y.void = true) ∧
       y.state = z.state) := by
  obtain ⟨hafter, hwalk', hbound', hfns⟩ := editQueued_dist (i := i) (n := n) (w := w) hpool
  have hself := getSeq_modSeq_self q i fun y => { y with edits := y.edits ++ [(n, w)] }
  have hused : (modSeq q i fun y => { y with edits := y.edits ++ [(n, w)] }).used = q.used := rfl
  generalize (modSeq q i fun y => { y with edits := y.edits ++ [(n, w)] }) = p at hafter hself hused
  generalize (modPool (wakeLoop s d) d fun q => modSeq q i fun y => { y with edits := y.edits ++ [(n, w)] }) = u at hafter hwalk' hbound' hfns
  obtain ⟨hreply, hdone⟩ := takeEdits_one (i := i) (n := n) (w := w) hafter (by rw [hself, hedits]; rfl) (by rw [hself]; exact hn)
    (by rw [getFn_congr hfns]; exact hepoch)
  obtain ⟨e, v, hcut, hvoid⟩ := truncateSeq_self (modSeq p i editsTaken) i n
  rw [getSeq_modSeq_self, hself] at hcut hvoid
  dsimp only
  rw [applyEdit_takes (hwalk'.trans hwalk) (hbound'.trans hbound)]
  refine ⟨repliesAdd_of_fns_left hreply hfns, _, hdone, hused, ?_⟩
  rw [hcut]
  exact ⟨rfl, rfl, rfl, hvoid, rfl⟩

theorem truncate_waits_state (hbusy : walking (getDist s d) i = true ∨ inBoundary (getDist s d) = true) :
    let t := applyEdit d i (modPool (wakeLoop s d) d fun q => modSeq q i fun y => { y with edits := y.edits ++ [(n, w)] })
    (∀ f, (getFn t f).replies = (getFn s f).replies) ∧ (getDist t d).pool = some (modSeq q i fun y => { y with edits := y.edits ++ [(n, w)] }) := by
  obtain ⟨hafter, hwalk, hbound, hfns⟩ := editQueued_dist (i := i) (n := n) (w := w) hpool
  dsimp only
  rw [applyEdit_waits (by rw [hwalk, hbound]; exact hbusy)]
  exact ⟨fun f => by rw [getFn_congr hfns], hafter⟩

end

/-! ## SERVE_RUN (R374) -/

/-- A vector that passes its checks is bound. -/
theorem bindVec_bound {s t : State} {d vec : Nat} (purpose : Nat) (harg : vecArgOk vec = true) (hfree : vecFree s d vec = true)
    (hbinds : (getFn t d).binds = (getFn s d).binds) (hring : (getFn t d).ring = (getFn s d).ring) : ∃ v u, bindVec t d vec purpose = some (v, u) := by
  unfold bindVec
  dsimp only
  split
  · exact ⟨_, _, rfl⟩
  · next hnot =>
    have hany : vec = 0xFF := by
      simp only [vecArgOk, Bool.or_eq_true, Bool.and_eq_true, decide_eq_true_eq, beq_iff_eq] at harg
      exact harg.resolve_left hnot
    have hsome : (bindVec s d vec 0).isSome = true := by simpa [vecFree, hany] using hfree
    unfold bindVec at hsome
    dsimp only at hsome
    rw [if_neg hnot, if_pos hany] at hsome
    rw [if_pos hany, hbinds, hring]
    cases hfind : ((List.range 61).map (· + 3)).find? fun v =>
        !((getFn s d).binds.map (·.vec)).contains v && !((getFn s d).ring.enabled && (getFn s d).ring.vector == v) with
    | none =>
      rw [hfind] at hsome
      exact absurd hsome (by simp)
    | some v => exact ⟨_, _, rfl⟩

/-- The loop that SERVE_RUN starts. -/
def startedLoop (c : FwReq) (w : Pend) (v : Nat) : Loop :=
  { pend := w, handle := fld c.payload 15 0, ringBase := fld c.payload 127 64, consAddr := fld c.payload 191 128, log2n := fld c.payload 31 24
    modUs := fld c.payload 47 32, vec := v }

theorem serveRun_acts {c : FwReq} {s : State} (hserving : (getDist s (cmdDist c)).serving = true) (hpool : (getDist s (cmdDist c)).pool.isSome = true)
    (h : Sendable specServeRun c s) (hlen : c.payload.length = 32) (hzero : zeroAt c.payload [(63, 48), (255, 192)] = true)
    (hargs : serveArgsOk (getDist s (cmdDist c)) c.payload = true) (hstate : (getDist s (cmdDist c)).state = 2)
    (hloop : (getDist s (cmdDist c)).loop = none) (hretain : (retainBlocks s).1 = false) (hpwr : s.pwr.state ≠ 2)
    (hvec : vecFree s (cmdDist c) (fld c.payload 23 16) = true) :
    ∃ v u, bindVec (replyAccepted s c 0x0710) (cmdDist c) (fld c.payload 23 16) vbServe = some (v, u) ∧ exec (.serveRun c) s =
      .next (setDistState (modDist u (cmdDist c) fun x => { x with loop := some (startedLoop c (pendOf u c 0x0710) v) }) (cmdDist c) 3) := by
  have harg : vecArgOk (fld c.payload 23 16) = true := by
    simp only [serveArgsOk, Bool.and_eq_true] at hargs
    exact hargs.1.1.1.1.2
  have hsame : (getFn (replyAccepted s c 0x0710) (cmdDist c)).binds = (getFn s (cmdDist c)).binds ∧
      (getFn (replyAccepted s c 0x0710) (cmdDist c)).ring = (getFn s (cmdDist c)).ring := by
    rw [replyAccepted_eq]
    by_cases hfn : cmdDist c = c.fn
    · rw [hfn, getFn_modFn_self]
      exact ⟨rfl, rfl⟩
    · rw [getFn_modFn_ne _ _ hfn]
      exact ⟨rfl, rfl⟩
  obtain ⟨v, u, hbind⟩ := bindVec_bound vbServe harg hvec hsame.1 hsame.2
  have hawake : autoWake s = s := if_neg fun h2 => hpwr h2.1
  obtain ⟨q, hq⟩ := Option.isSome_iff_exists.mp hpool
  refine ⟨v, u, hbind, (stepCommand_acts h rfl (by simp [hlen, hzero])
    (by simp [notServing, noPool, hserving, hq, hargs, legalIn_ok (List.mem_singleton.mpr hstate), hretain, hvec])).trans ?_⟩
  dsimp only
  rw [wakeLoop_none hloop, hawake, hbind]
  rfl

theorem started_state {c : FwReq} {s u : State} {v : Nat} {w : Pend} (hstate : (getDist s (cmdDist c)).state = 2)
    (hbind : bindVec (replyAccepted s c 0x0710) (cmdDist c) (fld c.payload 23 16) vbServe = some (v, u)) :
    let t := setDistState (modDist u (cmdDist c) fun x => { x with loop := some (startedLoop c w v) }) (cmdDist c) 3
    repliesAdd s t c.fn [acceptedReply c 0x0710] ∧ (getDist t (cmdDist c)).state = 3 ∧ (getDist t (cmdDist c)).pool = (getDist s (cmdDist c)).pool ∧
      (getDist t (cmdDist c)).loop = some (startedLoop c w v) := by
  obtain ⟨hdists, -, hfns⟩ := bindVec_keeps hbind
  have hdist : getDist u (cmdDist c) = getDist s (cmdDist c) := by rw [getDist_congr hdists, getDist_replyAccepted]
  have hadds : repliesAdd s u c.fn [acceptedReply c 0x0710] := by
    rw [repliesAdd, (hfns c.fn).1]
    exact replyAccepted_adds s c 0x0710
  have hmod : getDist (modDist u (cmdDist c) fun x => { x with loop := some (startedLoop c w v) }) (cmdDist c) =
      { getDist s (cmdDist c) with loop := some (startedLoop c w v) } := by rw [getDist_modDist_self, hdist]
  dsimp only
  rw [setDistState_self (by rw [hmod]; exact fun h3 => absurd (hstate.symm.trans h3) (by decide)), hmod]
  exact ⟨repliesAdd_of_fns hadds ((setDistState_fns _ _ _).trans rfl), rfl, rfl, rfl⟩

/-! ## SERVE_STOP (R374) -/

/-- The state of a loop told to stop, its command answered. -/
def stopTold (c : FwReq) (s : State) : State :=
  replyOk (modLoop (wakeLoop s (cmdDist c)) (cmdDist c) fun l => { l with stop := true }) c 0x0711 []

theorem serveStop_acts {c : FwReq} {s : State} (hserving : (getDist s (cmdDist c)).serving = true) (hpool : (getDist s (cmdDist c)).pool.isSome = true)
    (h : Sendable specServeStop c s) (hp : c.payload = []) (hstate : (getDist s (cmdDist c)).state ∈ [3, 4, 5]) :
    exec (.serveStop c) s = .next (loopEdge (cmdDist c) (stopTold c s)) := by
  obtain ⟨q, hq⟩ := Option.isSome_iff_exists.mp hpool
  exact stepCommand_acts h rfl (by rw [hp]; rfl) (by simp [notServing, noPool, hserving, hq, legalIn_ok hstate])

/-- A loop told to stop: one that waited for a command is woken first. -/
def stoppedLoop (l : Loop) : Loop := { (if l.phase = 1 then { l with phase := 0 } else l) with stop := true }

theorem stoppedLoop_stop (l : Loop) : (stoppedLoop l).stop = true := rfl

theorem stoppedLoop_pend (l : Loop) : (stoppedLoop l).pend = l.pend := by
  unfold stoppedLoop
  split <;> rfl

theorem stoppedLoop_part (l : Loop) : (stoppedLoop l).part = l.part := by
  unfold stoppedLoop
  split <;> rfl

theorem stoppedLoop_phase {l : Loop} (h : l.phase ≠ 3) : (stoppedLoop l).phase ≠ 3 := by
  unfold stoppedLoop
  split
  · exact Nat.zero_ne_add_one 2
  · exact h

theorem stoppedLoop_busy {l : Loop} (h : l.phase ≠ 1) : stoppedLoop l = { l with stop := true } := by rw [stoppedLoop, if_neg h]

theorem stopTold_dist {c : FwReq} {s : State} {l : Loop} (hloop : (getDist s (cmdDist c)).loop = some l) : getDist (stopTold c s) (cmdDist c) =
    { getDist s (cmdDist c) with loop := some (stoppedLoop l) } := by
  obtain ⟨k, hk⟩ := getDist_wakeLoop s (cmdDist c) (cmdDist c)
  have hwoken := wakeLoop_loop hloop
  rw [hk] at hwoken
  rw [stopTold, getDist_replyOk, modLoop, getDist_modDist_self, hk]
  dsimp only at hwoken ⊢
  rw [hwoken]
  rfl

/-- During a step or a boundary the loop goes on (R375). -/
theorem loopEdge_waits {d : Nat} {s : State} {l : Loop} (hloop : (getDist s d).loop = some l) (hbusy : l.phase = 3 ∨ l.part ≠ 0) : loopEdge d s = s := by
  rw [loopEdge, hloop]
  exact if_pos (hbusy.imp_right .inl)

theorem loopEdge_stops {d : Nat} {s : State} {l : Loop} (hloop : (getDist s d).loop = some l) (hphase : l.phase ≠ 3) (hpart : l.part = 0)
    (hstate : (getDist s d).state = 3) (hstop : l.stop = true) : loopEdge d s = endServe s d 0 := by
  rw [loopEdge, hloop]
  dsimp only
  rw [if_neg (by simp [hphase, hpart, hstate]), if_pos hstop]

theorem stopTold_fn (c : FwReq) (s : State) (f : Nat) : (getFn (stopTold c s) f).epoch = (getFn s f).epoch ∧
    okReply c 0x0711 [] ∈ (getFn (stopTold c s) c.fn).replies ∧ repliesAdd s (stopTold c s) c.fn [okReply c 0x0711 []] := by
  refine ⟨?_, okReply_mem _ _ _ _, repliesAdd_wakeLoop.mp (replyOk_modDist_adds _ _ _ _ _ _)⟩
  have hkept := ((queueReply_calm (getFn (modLoop (wakeLoop s (cmdDist c)) (cmdDist c) fun l => { l with stop := true }) c.fn).epoch (okReply c 0x0711 [])
    (.refl (modLoop (wakeLoop s (cmdDist c)) (cmdDist c) fun l => { l with stop := true }))).answers f).1
  exact hkept.trans (congrArg Fn.epoch (getFn_congr (wakeLoop_fns s _) f))

/-- The serving loop ended: its SERVE_RUN is answered and the district leaves RUNNING (R374). -/
theorem endServe_state {d e : Nat} {s : State} {l : Loop} (hloop : (getDist s d).loop = some l) (hstate : (getDist s d).state = 3)
    (hpause : (getDist s d).pause = none) (hepoch : (getFn s l.pend.req.fn).epoch = l.pend.epoch) : let t := endServe s d e
    doneReply l.pend 0 0 (pack 8 [(8, e)]) ∈ (getFn t l.pend.req.fn).replies ∧ (∀ f, (getFn s f).replies ⊆ (getFn t f).replies) ∧
      (getDist t d).loop = none ∧ (getDist t d).state = loadedState (getDist s d) ∧ (getDist t d).pool = (getDist s d).pool := by
  have hfn := binds_keep (modDist s d fun x => { x with loop := none }) d fun x => x.binds.filter fun b => b.purpose != vbServe
  have hdone := finishOk_mem (s := unbind (modDist s d fun x => { x with loop := none }) d vbServe) (p := l.pend) ((hfn _).2.trans hepoch) (pack 8 [(8, e)])
  have hkept := fun f => ((queueReply_calm l.pend.epoch { req := l.pend.req, cmd := l.pend.cmd, status := 0, state := 0, payload := pack 8 [(8, e)], first := false }
    (.refl (unbind (modDist s d fun x => { x with loop := none }) d vbServe))).answers f).2.subset
  have hended : endServe s d e = leaveRunning (finishOk (unbind (modDist s d fun x => { x with loop := none }) d vbServe) l.pend (pack 8 [(8, e)])) d := by
    rw [endServe, hloop]
  have hdist : getDist (finishOk (unbind (modDist s d fun x => { x with loop := none }) d vbServe) l.pend (pack 8 [(8, e)])) d =
      { getDist s d with loop := none } := by
    rw [getDist_finishOk, ← getDist_modDist_self s d fun x => { x with loop := none }]
    rfl
  have hreplies : ∀ f, (getFn (unbind (modDist s d fun x => { x with loop := none }) d vbServe) f).replies = (getFn s f).replies := fun f => (hfn f).1
  dsimp only
  rw [hended]
  change ∀ f, _ ⊆ (getFn (finishOk _ l.pend (pack 8 [(8, e)])) f).replies at hkept
  generalize unbind (modDist s d fun x => { x with loop := none }) d vbServe = v at hdone hdist hkept hreplies
  generalize finishOk v l.pend (pack 8 [(8, e)]) = u at hdone hdist hkept
  have hleft : leaveRunning u d = setDistState u d (loadedState (getDist u d)) := by
    have hrunning : (getDist u d).state = 3 := by
      rw [hdist]
      exact hstate
    unfold leaveRunning
    dsimp only
    rw [if_pos hrunning]
    exact if_neg (by rw [hdist]; simp [hpause])
  obtain ⟨g, hg⟩ := setDistState_dist u d (loadedState (getDist u d))
  rw [hleft, hg, hdist, getFn_congr (setDistState_fns _ _ _)]
  exact ⟨hdone, fun f => by
    rw [getFn_congr (setDistState_fns _ _ _)]
    exact fun r hr => hkept f (by rw [hreplies f]; exact hr), rfl, rfl, rfl⟩

/-! ## The obligation -/

/-- Settles O38: every command by its `_acts` lemma and what that state holds. -/
theorem servingCommandsComplete : Obligations.ServingCommandsComplete := by
  unfold Obligations.ServingCommandsComplete
  intro c s
  refine fun hserving => ⟨fun h hlen hzero hargs hstate hpool hloop hfits e he =>
      ⟨_, servePoolCreate_acts hserving h hlen hzero hargs hstate hpool hloop hfits he, ?_⟩,
    fun q hpool hfree h hp hstate hloop hrun => ⟨_, servePoolDestroy_acts hserving hpool hfree h hp hstate hloop hrun, ?_⟩,
    fun q i a b hpool hfree ha hb htier hwf h hlen hzero hargs hstate =>
      ⟨_, serveJoin_acts hserving hpool hfree ha hb h hlen hzero hargs hstate, joined_state hpool htier hwf⟩,
    fun q hpool hslot h hlen hzero hstate => ⟨fun hseq => ?_, fun w hseq hw hepoch => ?_⟩,
    fun q hpool hslot h hlen hzero hn hshorter hstate hseq =>
      ⟨fun hwalk hbound hedits => ⟨_, serveTruncate_acts hserving hpool hslot hlen hstate h hzero hn hshorter hseq,
        truncated_state (w := pendOf s c 0x0704) hpool hshorter rfl hwalk hbound hedits⟩,
      fun hbusy => ⟨_, serveTruncate_acts hserving hpool hslot hlen hstate h hzero hn hshorter hseq, truncate_waits_state hpool hbusy⟩⟩,
    fun q i n w hpool hedits hn hepoch => ⟨fun hwalk hbound => ⟨_, rfl, immediateEditApply_state hpool hedits hn hepoch hwalk hbound⟩,
      fun hbusy => congrArg Host.Outcome.next (applyEdit_waits hbusy)⟩,
    fun q hpool hstate => ⟨fun h hlen hzero hslot => ⟨_, serveSeqInfo_acts hserving hpool hslot hlen hstate h hzero, info_reply _ _ _ _ _⟩,
      fun h hp => ⟨_, servePoolInfo_acts hserving hpool hstate h hp, info_reply _ _ _ _ _⟩⟩,
    fun hpool h hlen hzero hargs hstate hloop hretain hpwr hvec => ?_,
    fun l hpool hloop h hp => ⟨fun hbusy hstate => ?_, fun hphase hpart hstate hpause hepoch => ?_⟩⟩
  · have hcols : (poolOf c.payload e.size s.nextBid).columns = min 268435455 (e.size / 8192) / fld c.payload 40 32 :=
      congrArg (min 268435455 (e.size / 8192) / ·) (max_eq_right (poolArgsOk_layers hargs))
    rw [hcols]
    refine ⟨repliesAdd_of_fns_left (replyOk_adds _ _ _ _) rfl, ?_⟩
    rw [getDist_replyOk, getDist_modDist_self, ← hcols]
    exact ⟨rfl, rfl, rfl, rfl⟩
  · exact poolDestroyed_reply c
  · have hact := serveLeave_acts hserving hpool hslot hlen hstate h hzero (List.mem_cons_of_mem _ hseq)
    rw [if_neg (by simp only [List.mem_cons, List.not_mem_nil, or_false] at hseq; omega)] at hact
    exact ⟨_, hact, pooled_reply c _ _ _ hpool⟩
  · have hact := serveLeave_acts hserving hpool hslot hlen hstate h hzero (by rw [hseq]; decide)
    rw [if_pos hseq, hw] at hact
    exact ⟨_, hact, leftQueue_reply c hpool hepoch⟩
  · obtain ⟨v, u, hbind, hact⟩ := serveRun_acts hserving hpool h hlen hzero hargs hstate hloop hretain hpwr hvec
    obtain ⟨hreply, hrunning, hkept, hstarted⟩ := started_state (w := pendOf u c 0x0710) hstate hbind
    refine ⟨_, hact, hreply, hrunning, hkept, ?_⟩
    rw [hstarted]
    rfl
  · refine ⟨_, serveStop_acts hserving hpool h hp hstate, ?_⟩
    have htold := stopTold_dist (c := c) hloop
    rw [stoppedLoop_busy (by omega)] at htold
    have hwaits := loopEdge_waits (s := stopTold c s) (l := { l with stop := true }) (by rw [htold]) (hbusy.imp_right And.right)
    dsimp only
    rw [hwaits, htold]
    exact ⟨(stopTold_fn c s c.fn).2.2, rfl, rfl⟩
  · have htold := stopTold_dist (c := c) hloop
    have hkept : ∀ f, (getFn (stopTold c s) f).epoch = (getFn s f).epoch := fun f => (stopTold_fn c s f).1
    obtain ⟨-, hreply, -⟩ := stopTold_fn c s c.fn
    refine ⟨_, serveStop_acts hserving hpool h hp (by rw [hstate]; decide), ?_⟩
    rw [loopEdge_stops (l := stoppedLoop l) (by rw [htold])
      (stoppedLoop_phase hphase) ((stoppedLoop_part l).trans hpart) (by rw [htold]; exact hstate) (stoppedLoop_stop l)]
    obtain ⟨hdone, hsub, hnone, hleft, hafter⟩ := endServe_state (e := 0) (l := stoppedLoop l) (s := stopTold c s) (by rw [htold])
      (by rw [htold]; exact hstate) (by rw [htold]; exact hpause) (by rw [hkept, stoppedLoop_pend]; exact hepoch)
    rw [stoppedLoop_pend] at hdone
    rw [htold] at hleft hafter
    exact ⟨hsub _ hreply, hdone, hnone, hleft, hafter⟩

end Sys2Proof.Machine
end

section
/-! The boundary of a serving loop (R362–R364): what its phases change is the district's pool. -/

namespace Sys2Proof.Machine

/-- A state that a serving loop reaches from `b` with the pool `p`: of its district the pool is changed and the snapshot engine perhaps
asked, time stands, and the log and the replies so far stay. -/
structure Pooled (d : Nat) (b t : State) (p : Pool) : Prop where
  dist : ∃ n, getDist t d = { getDist b d with pool := some p, snap := n }
  now : t.now = b.now
  emitted : b.emitted ⊆ t.emitted
  answers : ∀ f, (getFn t f).epoch = (getFn b f).epoch ∧ (getFn b f).replies ⊆ (getFn t f).replies

/-- A state that a serving loop reaches from `b` with some pool. -/
def Steady (d : Nat) (b t : State) : Prop := ∃ p, Pooled d b t p

theorem Pooled.refl {d : Nat} {s : State} {p : Pool} (h : (getDist s d).pool = some p) : Pooled d s s p :=
  ⟨⟨(getDist s d).snap, by rw [← h]⟩, rfl, fun _ h => h, fun _ => ⟨rfl, fun _ h => h⟩⟩

section
variable {d : Nat} {b s : State} {p : Pool}

theorem Pooled.pool (h : Pooled d b s p) : (getDist s d).pool = some p := by
  obtain ⟨n, hn⟩ := h.dist
  rw [hn]

theorem Pooled.trans {t : State} {r : Pool} (h : Pooled d b s p) (h' : Pooled d s t r) : Pooled d b t r := by
  obtain ⟨n, hn⟩ := h.dist
  obtain ⟨m, hm⟩ := h'.dist
  refine ⟨⟨m, by rw [hm, hn]⟩, h'.now.trans h.now, List.Subset.trans h.emitted h'.emitted, fun f => ?_⟩
  exact ⟨(h'.answers f).1.trans (h.answers f).1, List.Subset.trans (h.answers f).2 (h'.answers f).2⟩

/-- What leaves the districts and adds to the log and the replies. -/
theorem Pooled.congr {t : State} (h : Pooled d b s p) (hdists : t.dists = s.dists) (hnow : t.now = s.now) (hcalm : s.emitted ⊆ t.emitted)
    (hfns : ∀ f, (getFn t f).epoch = (getFn s f).epoch ∧ (getFn s f).replies ⊆ (getFn t f).replies) : Pooled d b t p :=
  h.trans ⟨⟨(getDist s d).snap, by rw [getDist_congr hdists, ← h.pool]⟩, hnow, hcalm, hfns⟩

/-- The loop, the state, the run and the processor of a district stay. -/
theorem Pooled.keeps (h : Pooled d b s p) : (getDist s d).loop = (getDist b d).loop ∧ (getDist s d).state = (getDist b d).state ∧
    (getDist s d).run = (getDist b d).run ∧ (getDist s d).pause = (getDist b d).pause ∧ (getDist s d).segs = (getDist b d).segs := by
  obtain ⟨n, hn⟩ := h.dist
  rw [hn]
  exact ⟨rfl, rfl, rfl, rfl, rfl⟩

theorem Pooled.source (h : Pooled d b s p) : cpSource s d = cpSource b d := by
  obtain ⟨n, hn⟩ := h.dist
  rw [cpSource, cpSource, hn]

theorem modPool_pooled (g : Pool → Pool) (h : Pooled d b s p) : Pooled d b (modPool s d g) (g p) :=
  h.trans ⟨⟨(getDist s d).snap, by rw [getDist_modPool, h.pool]; rfl⟩, rfl, fun _ h => h, fun _ => ⟨rfl, fun _ h => h⟩⟩

theorem cacheEvent_pooled (kind sev : Nat) (l : List Nat) (h : Pooled d b s p) : Pooled d b (cacheEvent s d kind sev l) p :=
  have hcalm := emit_calm (cpSource s d) kind sev d l (.refl s)
  h.congr (emit_dists _ _ _ _ _ _) (emit_now _ _ _ _ _ _) hcalm.emitted.subset fun f => ⟨(hcalm.answers f).1, (hcalm.answers f).2.subset⟩

theorem queueReply_pooled (e : Nat) (r : Reply) (h : Pooled d b s p) : Pooled d b (queueReply s e r) p :=
  have hcalm := queueReply_calm e r (.refl s)
  h.congr (queueReply_dists _ _ _) (queueReply_now _ _ _) hcalm.emitted.subset fun f => ⟨(hcalm.answers f).1, (hcalm.answers f).2.subset⟩

theorem readAdvisories_pooled (h : Pooled d b s p) : Pooled d b (readAdvisories s d) p := by
  obtain ⟨n, hn⟩ := readAdvisories_dist s d d
  have hcalm := emit_calm (cpSource s d) 0x008 sevInfo 0xFF (advValues s) (.refl s)
  exact h.trans ⟨⟨n, by rw [hn, ← h.pool]⟩, (readAdvisories_keeps s d).2.1, hcalm.emitted.subset,
    fun f => ⟨(hcalm.answers f).1, (hcalm.answers f).2.subset⟩⟩

/-- An event of the cache is logged. -/
theorem cacheEvent_logged (s : State) (d kind sev : Nat) (l : List Nat) : (⟨s.now, cpSource s d, kind, sev, d, l⟩ : EventRec) ∈ (cacheEvent s d kind sev l).emitted := by
  rw [cacheEvent, emit_emitted]
  exact List.mem_append_right _ (List.mem_singleton_self _)

/-! ## Any pool -/

theorem modPool_steady (g : Pool → Pool) (h : Steady d b s) : Steady d b (modPool s d g) := h.elim fun _ hp => ⟨_, modPool_pooled g hp⟩

theorem cacheEvent_steady (kind sev : Nat) (l : List Nat) (h : Steady d b s) : Steady d b (cacheEvent s d kind sev l) :=
  h.elim fun _ hp => ⟨_, cacheEvent_pooled kind sev l hp⟩

theorem queueReply_steady (e : Nat) (r : Reply) (h : Steady d b s) : Steady d b (queueReply s e r) := h.elim fun _ hp => ⟨_, queueReply_pooled e r hp⟩

theorem Steady.ite {c : Prop} [Decidable c] {t u : State} (ht : Steady d b t) (hu : Steady d b u) : Steady d b (if c then t else u) := by
  split
  · exact ht
  · exact hu

theorem Steady.foldl {α : Type} {f : State → α → State} (hf : ∀ s a, Steady d b s → Steady d b (f s a)) :
    ∀ (l : List α) {s : State}, Steady d b s → Steady d b (l.foldl f s)
  | [], _, h => h
  | a :: l, _, h => Steady.foldl hf l (hf _ a h)

/-- A step that reads the pool there is. -/
theorem Steady.read {f : Pool → State} (hf : ∀ p, Steady d b (f p)) (h : Steady d b s) :
    Steady d b (match (getDist s d).pool with | none => s | some p => f p) := by
  obtain ⟨p, hp⟩ := h
  rw [hp.pool]
  exact hf p

theorem takeEdits_steady (i : Nat) (h : Steady d b s) : Steady d b (takeEdits d i s) :=
  .foldl (fun _ _ h => queueReply_steady _ _ (modPool_steady _ h)) _ (modPool_steady _ h)

theorem settleEdits_steady (h : Steady d b s) : Steady d b (settleEdits d s) :=
  .read (fun _ => .foldl (fun _ _ h => takeEdits_steady _ h) _ h) h

theorem endSlot_steady (i : Nat) (h : Steady d b s) : Steady d b (endSlot d s i) :=
  .read (fun _ => cacheEvent_steady _ _ _ (modPool_steady _ (takeEdits_steady _ h))) (takeEdits_steady _ h)

theorem phase1_steady (h : Steady d b s) : Steady d b (phase1 d s) :=
  .read (fun _ => modPool_steady _ (.foldl (fun _ _ h => endSlot_steady _ h) _ h)) h

theorem dropSlot_steady (cause i : Nat) (h : Steady d b s) : Steady d b (dropSlot d cause i s) :=
  .read (fun _ => cacheEvent_steady _ _ _ (modPool_steady _ h)) h

theorem phase2_steady : ∀ (fuel : Nat) {s : State}, Steady d b s → Steady d b (phase2 fuel d s)
  | 0, _, h => h
  | fuel + 1, s, h => by
    refine .read (fun p => .ite h ?_) h
    split
    · exact phase2_steady fuel (dropSlot_steady _ _ h)
    · exact h

theorem grow_steady (i : Nat) (h : Steady d b s) : Steady d b (grow d s i) := by
  refine .read (fun p => .ite (modPool_steady _ h) (.ite (modPool_steady _ h) ?_)) h
  split
  · exact cacheEvent_steady _ _ _ (modPool_steady _ h)
  · exact .ite (modPool_steady _ h) (cacheEvent_steady _ _ _ (modPool_steady _ h))

theorem phase3_steady (h : Steady d b s) : Steady d b (phase3 d s) := .read (fun _ => .foldl (fun _ _ h => grow_steady _ h) _ h) h

theorem admitDrops_steady : ∀ (l : List Nat) (n : Nat) {s : State}, Steady d b s → Steady d b (admitDrops l d n s)
  | [], _, _, h => h
  | _ :: l, n, _, h => .read (fun _ => .ite h (admitDrops_steady l n (dropSlot_steady _ _ h))) h

theorem admitSlot_steady (i : Nat) (h : Steady d b s) : Steady d b (admitSlot d i s) := by
  refine .read (fun p => ?_) h
  dsimp only
  split
  · exact queueReply_steady _ _ (cacheEvent_steady _ _ _ (modPool_steady _ h))
  · exact cacheEvent_steady _ _ _ (modPool_steady _ h)

theorem deferSlot_steady (i : Nat) (h : Steady d b s) : Steady d b (deferSlot d s i) :=
  .read (fun _ => .ite (modPool_steady _ h) (cacheEvent_steady _ _ _ (modPool_steady _ h))) h

theorem phase4_steady : ∀ (l : List Nat) {s : State}, Steady d b s → Steady d b (phase4 l d s)
  | [], _, h => h
  | _ :: l, _, h => by
    refine .read (fun p => .ite (phase4_steady l (admitSlot_steady _ ?_)) (.foldl (fun _ _ h => deferSlot_steady _ h) _ ?_)) h
    · exact .ite (admitDrops_steady _ _ h) h
    · exact .ite (admitDrops_steady _ _ h) h

theorem boundaryPhase_steady (k : Nat) (h : Steady d b s) : Steady d b (boundaryPhase d s k) := by
  refine .read (fun p => settleEdits_steady ?_) h
  split
  · exact phase1_steady (modPool_steady _ (h.elim fun _ hp => ⟨_, readAdvisories_pooled hp⟩))
  · exact .ite h (phase2_steady _ h)
  · exact phase3_steady h
  · exact phase4_steady _ h

end

/-! ## Up to a phase (R362) -/

section
variable {d : Nat} {s : State} {l : Loop} {q : Pool} (hloop : (getDist s d).loop = some l) (hpool : (getDist s d).pool = some q)
  (hstate : (getDist s d).state = 3) (hrun : (getDist s d).run = none) (hpause : (getDist s d).pause = none) (hstop : l.stop = false) (hphase : l.phase = 0)
include hloop hpool hstate hrun hpause hstop hphase

theorem serveBoundary_to (upto : Nat) : serveBoundary d upto s =
    if (if upto = 0 ∨ 4 ≤ upto then 4 else max upto l.part) = 4
    then boundaryEnd d (((List.range (if upto = 0 ∨ 4 ≤ upto then 4 else max upto l.part)).drop l.part).foldl (boundaryPhase d) s)
    else modLoop (((List.range (if upto = 0 ∨ 4 ≤ upto then 4 else max upto l.part)).drop l.part).foldl (boundaryPhase d) s) d
      fun m => { m with part := if upto = 0 ∨ 4 ≤ upto then 4 else max upto l.part } := by
  unfold serveBoundary
  dsimp only
  rw [hloop, hpool]
  dsimp only
  rw [if_neg (by simp [hphase, hstate, hrun]), if_neg (by simp [hstop, hpause])]

theorem serveBoundary_part {k : Nat} (h1 : 1 ≤ k) (h3 : k ≤ 3) (hpart : l.part ≤ k) : let t := serveBoundary d k s
    (getDist t d).loop.map (fun m => (m.phase, m.part, m.produce)) = some (0, k, l.produce) ∧ (getDist t d).pool.isSome = true ∧
      (getDist t d).state = 3 ∧ (getDist t d).run = none := by
  have hlast : (if k = 0 ∨ 4 ≤ k then 4 else max k l.part) = k := by rw [if_neg (by omega), max_eq_left hpart]
  have hrunning := serveBoundary_to hloop hpool hstate hrun hpause hstop hphase k
  rw [hlast, if_neg (by omega)] at hrunning
  obtain ⟨p, hp⟩ : Steady d s (((List.range k).drop l.part).foldl (boundaryPhase d) s) :=
    .foldl (fun _ k h => boundaryPhase_steady k h) _ ⟨q, .refl hpool⟩
  dsimp only
  rw [hrunning]
  generalize ((List.range k).drop l.part).foldl (boundaryPhase d) s = u at hp
  obtain ⟨n, hn⟩ := hp.dist
  rw [modLoop, getDist_modDist_self, hn, hloop, Option.map_some, Option.map_some, hphase]
  exact ⟨rfl, rfl, hstate, hrun⟩

end

end Sys2Proof.Machine
end

section
/-! A boundary's end, and the boundary of a pool with one sequence (R362–R364). -/

namespace Sys2Proof.Machine

/-! ## The boundary's end (R360, R375) -/

theorem segWrite_emitted (s : State) (e : Seg) (off : Nat) (l : Bytes) : (segWrite s e off l).emitted = s.emitted := by
  unfold segWrite
  split <;> rfl

theorem segWrite_pooled {d : Nat} {b s : State} {p : Pool} (e : Seg) (off : Nat) (l : Bytes) (h : Pooled d b s p) : Pooled d b (segWrite s e off l) p :=
  h.congr (segWrite_dists _ _ _ _) (segWrite_now _ _ _ _) (fun _ hr => by rw [segWrite_emitted]; exact hr)
    fun f => by rw [getFn_congr (segWrite_fns _ _ _ _)]; exact ⟨rfl, fun _ h => h⟩

theorem Pooled.foldl {α : Type} {d : Nat} {b : State} {p : Pool} {f : State → α → State} (hf : ∀ s a, Pooled d b s p → Pooled d b (f s a) p) :
    ∀ (l : List α) {s : State}, Pooled d b s p → Pooled d b (l.foldl f s) p
  | [], _, h => h
  | a :: l, _, h => Pooled.foldl hf l (hf _ a h)

/-- A pool as the coming step finds it: each slot has its part. -/
def stepPool (p : Pool) : Pool := { p with seqs := tmap p.seqs fun _ q => setStepSeq p q }

theorem writeBatch_pooled {d : Nat} {b s : State} {p : Pool} (h : Pooled d b s p) : Pooled d b (writeBatch d s) (stepPool p) := by
  have hset := modPool_pooled (fun _ => stepPool p) h
  unfold writeBatch
  rw [h.pool]
  dsimp only
  split
  · exact hset
  · exact .foldl (fun _ _ h => segWrite_pooled _ _ _ (segWrite_pooled _ _ _ h)) _ hset

/-- The slots in the coming step are those that prefill or decode (R356, R364). -/
theorem stepPool_slots {p : Pool} {e : Nat × Seq} (he : e ∈ (stepPool p).seqs) : (e.2.inStep = true ↔ e.2.state = 2 ∨ e.2.state = 3) ∧
    (e.2.state = 3 → e.2.new = 1) ∧ e.2.new ≤ max 1 (stepPool p).window := by
  obtain ⟨⟨i, y⟩, -, rfl⟩ := List.mem_map.mp he
  show ((y.state == 3 || y.state == 2) = true ↔ y.state = 2 ∨ y.state = 3) ∧ (y.state = 3 → newTokens p y = 1) ∧ newTokens p y ≤ max 1 p.window
  refine ⟨?_, fun h3 => if_pos h3, ?_⟩
  · rw [Bool.or_eq_true, beq_iff_eq, beq_iff_eq]
    exact or_comm
  · unfold newTokens
    split
    · exact le_max_left _ _
    · split
      · exact (min_le_left _ _).trans (le_max_right _ _)
      · exact Nat.zero_le _

/-- Where neither a stop nor a pause waits, the loop goes on (R375). -/
theorem loopEdge_goes {d : Nat} {s : State} {l : Loop} (hloop : (getDist s d).loop = some l) (hstop : l.stop = false) (hpause : (getDist s d).pause = none) :
    loopEdge d s = s := by
  unfold loopEdge pauseAtBoundary
  rw [hloop, hpause]
  dsimp only
  rw [hstop, if_neg Bool.false_ne_true]
  exact ite_self s

/-- A boundary that takes neither a stop nor a pause ends with a step that waits, or with none (R375). -/
theorem boundaryEnd_state {d : Nat} {b s : State} {p : Pool} {l : Loop} (h : Pooled d b s p) (hloop : (getDist b d).loop = some l) (hstop : l.stop = false)
    (hstate : (getDist b d).state = 3) (hpause : (getDist b d).pause = none) : let t := boundaryEnd d s
    Pooled d s (writeBatch d s) (stepPool p) ∧ (getDist t d).pool = some (stepPool p) ∧
      (getDist t d).loop.map (fun m => (m.phase, m.part)) = some (if stepSlots (stepPool p) = [] then 1 else 2, 0) ∧ (getDist t d).state = 3 ∧
      (getDist t d).run = (getDist b d).run ∧ t.emitted = (writeBatch d s).emitted ∧ t.fns = (writeBatch d s).fns := by
  have hwritten := writeBatch_pooled h
  have hkept := writeBatch_pooled (.refl h.pool)
  unfold boundaryEnd
  generalize writeBatch d s = u at hwritten hkept
  obtain ⟨n, hn⟩ := hwritten.dist
  dsimp only
  rw [hwritten.pool]
  dsimp only
  have hdist : ∀ k, getDist (modLoop u d fun m => { m with phase := k, part := 0, heldLogged := false }) d =
      { getDist b d with pool := some (stepPool p), snap := n, loop := some { l with phase := k, part := 0, heldLogged := false } } := fun k => by
    rw [modLoop, getDist_modDist_self, hn, hloop]
    rfl
  rw [loopEdge_goes (l := { l with phase := _, part := 0, heldLogged := false }) (by rw [hdist]) hstop (by rw [hdist]; exact hpause), hdist]
  refine ⟨hkept, rfl, ?_, hstate, rfl, rfl, rfl⟩
  simp only [beq_iff_eq]
  rfl

/-- The four phases of a boundary. -/
def phasesRun (d : Nat) (s : State) : State := boundaryPhase d (boundaryPhase d (boundaryPhase d (boundaryPhase d s 0) 1) 2) 3

section
variable {d : Nat} {s : State} {l : Loop} {q : Pool} (hloop : (getDist s d).loop = some l) (hpool : (getDist s d).pool = some q)
  (hstate : (getDist s d).state = 3) (hrun : (getDist s d).run = none) (hpause : (getDist s d).pause = none) (hstop : l.stop = false) (hphase : l.phase = 0)
  (hpart : l.part = 0)
include hloop hpool hstate hrun hpause hstop hphase hpart

theorem serveBoundary_whole : serveBoundary d 0 s = boundaryEnd d (phasesRun d s) := by
  have h := serveBoundary_to hloop hpool hstate hrun hpause hstop hphase 0
  rw [if_pos (Or.inl rfl), if_pos rfl, hpart] at h
  exact h

theorem serveBoundary_state {p : Pool} (h : Pooled d s (phasesRun d s) p) : let t := serveBoundary d 0 s
    (getDist t d).pool = some (stepPool p) ∧ (getDist t d).loop.map (fun m => (m.phase, m.part)) = some (if stepSlots (stepPool p) = [] then 1 else 2, 0) ∧
      (getDist t d).state = 3 ∧ (getDist t d).run = none ∧ (phasesRun d s).emitted ⊆ t.emitted ∧
      ∀ f, (getFn (phasesRun d s) f).replies ⊆ (getFn t f).replies := by
  obtain ⟨hkept, hafter, hnext, hrunning, hidle, hlog, hfns⟩ := boundaryEnd_state h hloop hstop hstate hpause
  dsimp only
  rw [serveBoundary_whole hloop hpool hstate hrun hpause hstop hphase hpart, hlog]
  refine ⟨hafter, hnext, hrunning, hidle.trans hrun, hkept.emitted, fun f => ?_⟩
  rw [getFn_congr hfns]
  exact (hkept.answers f).2

theorem serveBoundary_ends : let t := serveBoundary d 0 s
    ∃ r, (getDist t d).pool = some r ∧ (getDist t d).loop.map (fun m => (m.phase, m.part)) = some (if stepSlots r = [] then 1 else 2, 0) ∧
      (getDist t d).state = 3 ∧ (getDist t d).run = none ∧
      ∀ e ∈ r.seqs, (e.2.inStep = true ↔ e.2.state = 2 ∨ e.2.state = 3) ∧ (e.2.state = 3 → e.2.new = 1) ∧ e.2.new ≤ max 1 r.window := by
  obtain ⟨p, hp⟩ : Steady d s (phasesRun d s) := boundaryPhase_steady 3 (boundaryPhase_steady 2 (boundaryPhase_steady 1 (boundaryPhase_steady 0 ⟨q, .refl hpool⟩)))
  obtain ⟨hafter, hnext, hrunning, hidle, -, -⟩ := serveBoundary_state hloop hpool hstate hrun hpause hstop hphase hpart hp
  exact ⟨stepPool p, hafter, hnext, hrunning, hidle, fun e he => stepPool_slots he⟩

end

/-! ## The phases one by one -/

section
variable {d : Nat} {s : State} {p : Pool} (h : (getDist s d).pool = some p)
include h

theorem boundaryPhase_first : boundaryPhase d s 0 = settleEdits d (phase1 d (modPool (readAdvisories s d) d promote)) := by
  rw [boundaryPhase, h]
  rfl

theorem boundaryPhase_second : boundaryPhase d s 1 = settleEdits d (if p.noDrop then s else phase2 p.slots d s) := by
  rw [boundaryPhase, h]
  rfl

theorem boundaryPhase_third : boundaryPhase d s 2 = settleEdits d ((slotsWhere p continuing).foldl (grow d) s) := by
  rw [boundaryPhase, h]
  dsimp only
  rw [phase3, h]
  rfl

theorem boundaryPhase_fourth : boundaryPhase d s 3 =
    settleEdits d (phase4 (slotsWhere p fun q => q.state == 1 || (q.state == 5 && !q.dropped)) d s) := by
  rw [boundaryPhase, h]
  rfl

/-- What edits gave back is free once phase 1 ends. -/
def backFreed (p : Pool) : Pool := { p with used := p.used.filter fun c => !p.back.contains c, back := [] }

theorem phase1_eq : phase1 d s = modPool ((slotsWhere p fun q => q.state == 6 || (q.state != 0 && q.ends != 0)).foldl (endSlot d) s) d backFreed := by
  rw [phase1, h]
  rfl

theorem phase2_enough (fuel : Nat) (hfits : needCols p ≤ freeCols p) : phase2 fuel d s = s := by
  cases fuel with
  | zero => rfl
  | succ n =>
    rw [phase2, h]
    exact if_pos hfits

end

/-! ## A pool with one sequence -/

section
variable {i : Nat} {z : Seq} {p : Pool} (hp : p.seqs = [(i, z)])
include hp

theorem getSeq_one : getSeq p i = z := by simp [getSeq, tget, tfind, hp]

theorem modSeq_one (g : Seq → Seq) : modSeq p i g = { p with seqs := [(i, g z)] } := by simp [modSeq, tmod, tget, tset, tfind, hp]

theorem modSeq_used (u : NSet) (g : Seq → Seq) : modSeq { p with used := u } i g = { p with used := u, seqs := [(i, g z)] } :=
  modSeq_one (p := { p with used := u }) hp g

theorem slotsWhere_one (f : Seq → Bool) : slotsWhere p f = if f z then [i] else [] := by
  rw [slotsWhere, hp]
  cases h : f z <;> simp [h, insertSlot]

theorem needCols_one : needCols p = if continuing z then b2n z.resUsed + b2n (startsPage z) else 0 := by simp [needCols, hp]

theorem stepPool_one : getSeq (stepPool p) i = setStepSeq p z := by simp [getSeq, stepPool, tmap, tget, tfind, hp]

variable {d : Nat} {b s : State} (h : Pooled d b s p) (hedits : z.edits = [])
include h hedits

theorem settleEdits_one : settleEdits d s = s := by
  unfold settleEdits
  rw [h.pool]
  dsimp only
  rw [hp]
  simp [hedits]

/-- Phase 2 drops nothing where policy forbids it or the columns suffice. -/
theorem phase2_quiet (hfits : p.noDrop = true ∨ needCols p ≤ freeCols p) : boundaryPhase d s 1 = s := by
  have hkept : (if p.noDrop then s else phase2 p.slots d s) = s := by
    split
    · rfl
    · next hno => exact phase2_enough h.pool _ (hfits.resolve_left hno)
  rw [boundaryPhase_second h.pool, hkept]
  exact settleEdits_one hp h hedits

theorem phase3_quiet (hstill : continuing z = false) : boundaryPhase d s 2 = s := by
  rw [boundaryPhase_third h.pool, slotsWhere_one hp, hstill]
  exact settleEdits_one hp h hedits

theorem phase4_quiet (hstill : (z.state == 1 || (z.state == 5 && !z.dropped)) = false) : boundaryPhase d s 3 = s := by
  rw [boundaryPhase_fourth h.pool, slotsWhere_one hp, hstill]
  exact settleEdits_one hp h hedits

end

/-! ## Phase 1 -/

/-- A slot whose earlier drop is forgotten. -/
def undropped (y : Seq) : Seq := { y with dropped := false }

/-- A pool whose one slot's earlier drop is forgotten. -/
def freshPool (q : Pool) (i : Nat) (y : Seq) : Pool := { q with seqs := [(i, undropped y)] }

/-- A slot released for good: its columns return and only its generation stays (R362). -/
def releasedPool (i : Nat) (p : Pool) : Pool := modSeq (releaseSeq p i).2 i fun q => { gen := q.gen }

/-- A pool whose one slot's columns are free. -/
def vacatedPool (q : Pool) (i : Nat) (y : Seq) : Pool := { q with seqs := [(i, { gen := nextGen y })], used := q.used.filter fun c => !(colsOf q y).contains c }

theorem releasedPool_fresh (q : Pool) (i : Nat) (y : Seq) : releasedPool i (modSeq (freshPool q i y) i editsTaken) = vacatedPool q i y := by
  simp [releasedPool, releaseSeq, modSeq, getSeq, tmod, tget, tset, tfind, freshPool, undropped, vacatedPool, editsTaken, nextGen, colsOf]

theorem endSlot_leaves {d i : Nat} {b t : State} {q : Pool} {y : Seq} (h : Pooled d b t (freshPool q i y)) (hedits : y.edits = []) (h6 : y.state = 6) :
    let u := endSlot d t i
    Pooled d b u (vacatedPool q i y) ∧ (⟨b.now, cpSource b d, 0x1C5, 0, d, [i, y.tag, y.len, 0]⟩ : EventRec) ∈ u.emitted := by
  have htaken : takeEdits d i t = modPool t d fun p => modSeq p i editsTaken := by
    unfold takeEdits
    rw [h.pool]
    dsimp only
    rw [getSeq_one (z := undropped y) rfl, show (undropped y).edits = [] from hedits]
    rfl
  have hpooled := modPool_pooled (fun p => modSeq p i editsTaken) h
  have hseq : getSeq (modSeq (freshPool q i y) i editsTaken) i = editsTaken (undropped y) := by
    rw [getSeq_modSeq_self, getSeq_one (z := undropped y) rfl]
  have hended : endSlot d t i = cacheEvent (modPool (modPool t d fun p => modSeq p i editsTaken) d (releasedPool i)) d 0x1C5 sevInfo [i, y.tag, y.len, 0] := by
    unfold endSlot
    rw [htaken]
    dsimp only
    rw [hpooled.pool]
    dsimp only
    rw [hseq]
    exact congrArg (fun k => cacheEvent _ d 0x1C5 sevInfo [i, y.tag, y.len, k]) (if_pos h6)
  have hreleased := modPool_pooled (releasedPool i) hpooled
  rw [releasedPool_fresh] at hreleased
  have hlogged := cacheEvent_logged (modPool (modPool t d fun p => modSeq p i editsTaken) d (releasedPool i)) d 0x1C5 sevInfo [i, y.tag, y.len, 0]
  rw [hreleased.now, hreleased.source] at hlogged
  dsimp only
  rw [hended]
  exact ⟨cacheEvent_pooled _ _ _ hreleased, hlogged⟩

section
variable {d i : Nat} {s : State} {q : Pool} {y : Seq} (hpool : (getDist s d).pool = some q) (hq : q.seqs = [(i, y)]) (hedits : y.edits = [])
include hpool hq

theorem promoted_one (hstate : y.state ≠ 2) : Pooled d s (modPool (readAdvisories s d) d promote) (freshPool q i y) := by
  have h := modPool_pooled promote (readAdvisories_pooled (.refl hpool))
  have hsame : promote q = freshPool q i y := by simp [promote, freshPool, undropped, hq, tmap, hstate]
  rw [hsame] at h
  exact h

include hedits

theorem phase1_quiet (h2 : y.state ≠ 2) (h6 : y.state ≠ 6) (hends : y.ends = 0) (hback : q.back = []) :
    Pooled d s (boundaryPhase d s 0) (freshPool q i y) := by
  have hfresh := promoted_one hpool hq h2
  have hdone := modPool_pooled backFreed hfresh
  have hsame : backFreed (freshPool q i y) = freshPool q i y := by simp [backFreed, freshPool, hback]
  rw [hsame] at hdone
  rw [boundaryPhase_first hpool, phase1_eq hfresh.pool, slotsWhere_one (z := undropped y) rfl, if_neg (by simp [undropped, h6, hends]), List.foldl_nil,
    settleEdits_one (z := undropped y) rfl hdone hedits]
  exact hdone

/-- A pool whose one slot has left: its columns and those that edits gave back are free (R362). -/
def leftPool (q : Pool) (i : Nat) (y : Seq) : Pool := { q with
  seqs := [(i, { gen := nextGen y })], used := (q.used.filter fun c => !(colsOf q y).contains c).filter fun c => !q.back.contains c, back := [] }

theorem phase1_leaves (h6 : y.state = 6) : let u := boundaryPhase d s 0
    Pooled d s u (leftPool q i y) ∧ (⟨s.now, cpSource s d, 0x1C5, 0, d, [i, y.tag, y.len, 0]⟩ : EventRec) ∈ u.emitted := by
  have hfresh := promoted_one hpool hq (by rw [h6]; decide)
  obtain ⟨hended, hlogged⟩ := endSlot_leaves hfresh hedits h6
  have hdone := modPool_pooled backFreed hended
  dsimp only
  rw [boundaryPhase_first hpool, phase1_eq hfresh.pool, slotsWhere_one (z := undropped y) rfl, if_pos (by simp [undropped, h6]), List.foldl_cons, List.foldl_nil,
    settleEdits_one (z := { gen := nextGen y }) rfl hdone rfl]
  exact ⟨hdone, hlogged⟩

/-- A leaving slot is released at the boundary (R362). -/
theorem boundary_leaves (h6 : y.state = 6) : Pooled d s (phasesRun d s) (leftPool q i y) ∧
    (⟨s.now, cpSource s d, 0x1C5, 0, d, [i, y.tag, y.len, 0]⟩ : EventRec) ∈ (phasesRun d s).emitted := by
  obtain ⟨hleft, hlogged⟩ := phase1_leaves hpool hq hedits h6
  have hone : (leftPool q i y).seqs = [(i, { gen := nextGen y })] := rfl
  have hneed : needCols (leftPool q i y) ≤ freeCols (leftPool q i y) := by
    rw [needCols_one hone]
    exact Nat.zero_le _
  rw [phasesRun, phase2_quiet hone hleft rfl (.inr hneed), phase3_quiet hone hleft rfl rfl, phase4_quiet hone hleft rfl rfl]
  exact ⟨hleft, hlogged⟩

end

end Sys2Proof.Machine
end

section
/-! Admission, growth and drops at the boundary of a pool with one sequence (R362–R364). -/

namespace Sys2Proof.Machine

/-! ## Columns taken (R350) -/

theorem takeCols_length : ∀ (n : Nat) (p : Pool), (takeCols n p).1.length = n
  | 0, _ => rfl
  | n + 1, p => congrArg (· + 1) (takeCols_length n { p with used := p.used ++ [lowestCol p.used] })

theorem takeCols_pool : ∀ (n : Nat) (p : Pool), (takeCols n p).2 = { p with used := p.used ++ (takeCols n p).1 }
  | 0, p => by simp [takeCols]
  | n + 1, p => by
    have ih := takeCols_pool n { p with used := p.used ++ [lowestCol p.used] }
    rw [takeCols]
    dsimp only
    rw [ih, List.append_assoc]
    rfl

/-- The pool with its lowest free columns taken and its one slot changed. -/
def grantedPool (n : Nat) (g : List Nat → Seq) (i : Nat) (p : Pool) : Pool :=
  { p with used := p.used ++ (takeCols n p).1, seqs := [(i, g (takeCols n p).1)] }

theorem grantedPool_free {n : Nat} {g : List Nat → Seq} {i : Nat} {p : Pool} (h : n ≤ freeCols p) : freeCols (grantedPool n g i p) + n = freeCols p := by
  have hlen : (grantedPool n g i p).used.length = p.used.length + n := by rw [grantedPool, List.length_append, takeCols_length]
  have hcols : (grantedPool n g i p).columns = p.columns := rfl
  rw [freeCols, hlen, hcols]
  unfold freeCols at h ⊢
  omega

/-! ## Joins (R362, R363) -/

/-- A slot as it is admitted, its columns in order, the last of them its reserve. -/
def admittedSeq (layers : Nat) (z : Seq) (cols : List Nat) : Seq := { z with
  state := 2, goal := if z.state == 5 then z.len else z.goal, len := 0, again := z.state == 5, gen := nextGen z, pend := none, deferred := false
  table := (cols.dropLast.zipIdx).map fun e => (e.2, ⟨e.1 * layers, false, nextGen z⟩)
  spare := cols.getLast?, resUsed := false }

section
variable {d i : Nat} {b s : State} {p : Pool} {z : Seq} (h : Pooled d b s p) (hp : p.seqs = [(i, z)])
include h hp

theorem phase4_one : phase4 [i] d s = if joinCols z ≤ freeCols p then admitSlot d i s else deferSlot d s i := by
  have hnone : (continuing z && decide (z.prio < z.prio)) = false := by simp
  have hlow : (if freeCols p < joinCols z ∧ z.admitting = true ∧ joinCols z ≤ freeCols p + 0 then admitDrops ([] : List Nat) d (joinCols z) s else s) = s := by
    rw [if_neg (by omega)]
  unfold phase4
  rw [h.pool]
  dsimp only
  rw [getSeq_one hp, slotsWhere_one hp, hnone, if_neg Bool.false_ne_true, List.reverse_nil, List.map_nil, List.sum_nil, hlow, h.pool]
  rfl

theorem admitSlot_one {w : Pend} (hw : z.pend = some w) (hepoch : (getFn b w.req.fn).epoch = w.epoch) : let t := admitSlot d i s
    Pooled d b t (grantedPool (joinCols z) (admittedSeq p.layers z) i p) ∧ doneReply w 0 0 (leBytes 8 1) ∈ (getFn t w.req.fn).replies ∧
      (⟨b.now, cpSource b d, 0x1C0, 0, d, [i, z.tag, joinCols z, b2n (z.state == 5)]⟩ : EventRec) ∈ t.emitted := by
  have hgranted : (modSeq (takeCols (joinCols z) p).2 i fun q => { q with
      state := 2, goal := if (z.state == 5) = true then q.len else q.goal, len := 0, again := z.state == 5, gen := nextGen q, pend := none, deferred := false
      table := ((takeCols (joinCols z) p).1.dropLast.zipIdx).map fun e => (e.2, ⟨e.1 * p.layers, false, nextGen q⟩)
      spare := (takeCols (joinCols z) p).1.getLast?, resUsed := false }) = grantedPool (joinCols z) (admittedSeq p.layers z) i p := by
    rw [takeCols_pool, modSeq_used hp]
    rfl
  have hadmitted : admitSlot d i s = finishOk (cacheEvent (modPool s d fun _ => grantedPool (joinCols z) (admittedSeq p.layers z) i p) d 0x1C0 sevInfo
      [i, z.tag, joinCols z, b2n (z.state == 5)]) w (leBytes 8 1) := by
    unfold admitSlot
    rw [h.pool]
    dsimp only
    rw [getSeq_one hp, hgranted, hw]
  have hpooled := modPool_pooled (fun _ => grantedPool (joinCols z) (admittedSeq p.layers z) i p) h
  have hevent := cacheEvent_pooled 0x1C0 sevInfo [i, z.tag, joinCols z, b2n (z.state == 5)] hpooled
  have hlogged := cacheEvent_logged (modPool s d fun _ => grantedPool (joinCols z) (admittedSeq p.layers z) i p) d 0x1C0 sevInfo
    [i, z.tag, joinCols z, b2n (z.state == 5)]
  rw [hpooled.now, hpooled.source] at hlogged
  dsimp only
  rw [hadmitted, finishOk_emitted]
  exact ⟨queueReply_pooled _ _ hevent, finishOk_mem ((hevent.answers _).1.trans hepoch) _, hlogged⟩

/-- The pool with its one slot deferred. -/
def deferredPool (p : Pool) (i : Nat) (z : Seq) : Pool := { p with seqs := [(i, { z with deferred := true })], deferrals := p.deferrals + 1 }

theorem deferSlot_one (h1 : z.state = 1) : let t := deferSlot d s i
    Pooled d b t (deferredPool p i z) ∧
      (z.deferred = false → (⟨b.now, cpSource b d, 0x1C1, 1, d, [i, joinCols z, freeCols p]⟩ : EventRec) ∈ t.emitted) := by
  have hpooled := modPool_pooled (fun p => { modSeq p i fun q => { q with deferred := true } with deferrals := p.deferrals + 1 }) h
  have hsame : { modSeq p i fun q => { q with deferred := true } with deferrals := p.deferrals + 1 } = deferredPool p i z := by
    rw [modSeq_one hp]
    rfl
  have hdeferred : deferSlot d s i = if z.deferred = true ∨ z.state ≠ 1
      then modPool s d fun p => { modSeq p i fun q => { q with deferred := true } with deferrals := p.deferrals + 1 }
      else cacheEvent (modPool s d fun p => { modSeq p i fun q => { q with deferred := true } with deferrals := p.deferrals + 1 }) d 0x1C1 sevNotice
        [i, joinCols z, freeCols p] := by
    unfold deferSlot
    rw [h.pool]
    dsimp only
    rw [getSeq_one hp]
  have hlogged := cacheEvent_logged (modPool s d fun p => { modSeq p i fun q => { q with deferred := true } with deferrals := p.deferrals + 1 }) d 0x1C1 sevNotice
    [i, joinCols z, freeCols p]
  rw [hpooled.now, hpooled.source] at hlogged
  rw [hsame] at hpooled
  dsimp only
  rw [hdeferred]
  split
  · next hcond => exact ⟨hpooled, fun hno => absurd hcond (by simp [hno, h1])⟩
  · exact ⟨cacheEvent_pooled _ _ _ hpooled, fun _ => hlogged⟩

end

section
variable {d i : Nat} {s : State} {q : Pool} {y : Seq} (hpool : (getDist s d).pool = some q) (hq : q.seqs = [(i, y)]) (hedits : y.edits = [])
  (hends : y.ends = 0) (hback : q.back = [])
include hpool hq hedits hends hback

/-- The boundary of a join is its fourth phase. -/
theorem boundary_join (h1 : y.state = 1) : Pooled d s (boundaryPhase d s 0) (freshPool q i y) ∧ phasesRun d s =
    settleEdits d (if joinCols y ≤ freeCols q then admitSlot d i (boundaryPhase d s 0) else deferSlot d (boundaryPhase d s 0) i) := by
  have hfresh := phase1_quiet hpool hq hedits (by rw [h1]; decide) (by rw [h1]; decide) hends hback
  have hone : (freshPool q i y).seqs = [(i, undropped y)] := rfl
  have hneed : needCols (freshPool q i y) = 0 := by simp [needCols_one hone, undropped, continuing, h1]
  refine ⟨hfresh, ?_⟩
  rw [phasesRun, phase2_quiet hone hfresh hedits (.inr (by rw [hneed]; exact Nat.zero_le _)),
    phase3_quiet hone hfresh hedits (by simp [undropped, continuing, h1]), boundaryPhase_fourth hfresh.pool, slotsWhere_one hone, if_pos (by simp [undropped, h1]),
    phase4_one hfresh hone]
  rfl

theorem boundary_admits {w : Pend} (h1 : y.state = 1) (hw : y.pend = some w) (hepoch : (getFn s w.req.fn).epoch = w.epoch) (hfits : joinCols y ≤ freeCols q) :
    Pooled d s (phasesRun d s) (grantedPool (joinCols y) (admittedSeq q.layers (undropped y)) i (freshPool q i y)) ∧
      doneReply w 0 0 (leBytes 8 1) ∈ (getFn (phasesRun d s) w.req.fn).replies ∧
      (⟨s.now, cpSource s d, 0x1C0, 0, d, [i, y.tag, joinCols y, 0]⟩ : EventRec) ∈ (phasesRun d s).emitted := by
  obtain ⟨hfresh, hruns⟩ := boundary_join hpool hq hedits hends hback h1
  obtain ⟨hadmitted, hdone, hlogged⟩ := admitSlot_one (z := undropped y) hfresh rfl hw hepoch
  have hnew : b2n ((undropped y).state == 5) = 0 := congrArg (fun k => b2n (k == 5)) h1
  rw [hnew] at hlogged
  rw [hruns, if_pos hfits, settleEdits_one (z := admittedSeq _ (undropped y) _) rfl hadmitted hedits]
  exact ⟨hadmitted, hdone, hlogged⟩

theorem boundary_defers (h1 : y.state = 1) (hshort : freeCols q < joinCols y) :
    Pooled d s (phasesRun d s) (deferredPool (freshPool q i y) i (undropped y)) ∧
      (y.deferred = false → (⟨s.now, cpSource s d, 0x1C1, 1, d, [i, joinCols y, freeCols q]⟩ : EventRec) ∈ (phasesRun d s).emitted) := by
  obtain ⟨hfresh, hruns⟩ := boundary_join hpool hq hedits hends hback h1
  obtain ⟨hdeferred, hlogged⟩ := deferSlot_one (z := undropped y) hfresh rfl h1
  rw [hruns, if_neg (by omega), settleEdits_one (z := { undropped y with deferred := true }) rfl hdeferred hedits]
  exact ⟨hdeferred, hlogged⟩

end

/-! ## Growth (R362) -/

/-- A slot whose next token has a page. -/
def grownSeq (page : Nat) (res : Bool) (z : Seq) : Seq := { z with
  table := tset z.table (z.len / 16) ⟨page, res, nextGen z⟩, gen := nextGen z, resUsed := z.resUsed || res, state := 3, noPage := false }

section
variable {d i : Nat} {b s : State} {p : Pool} {z : Seq} (h : Pooled d b s p) (hp : p.seqs = [(i, z)]) (hstarts : startsPage z = true)
include h hp hstarts

theorem grow_column (hfree : 0 < freeCols p) (hres : z.resUsed = false) :
    Pooled d b (grow d s i) (grantedPool 1 (fun cols => grownSeq (cols.headD 0 * p.layers) false z) i p) := by
  have hgrown : newReserve (growWith (takeCols 1 p).2 i ((takeCols 1 p).1.headD 0) false) i =
      grantedPool 1 (fun cols => grownSeq (cols.headD 0 * p.layers) false z) i p := by
    have hgranted : growWith (takeCols 1 p).2 i ((takeCols 1 p).1.headD 0) false = grantedPool 1 (fun cols => grownSeq (cols.headD 0 * p.layers) false z) i p := by
      rw [takeCols_pool, growWith, modSeq_used hp]
      rfl
    rw [hgranted, newReserve, getSeq_one (z := grownSeq _ false z) rfl]
    exact if_neg (by simp [grownSeq, hres])
  have hpooled := modPool_pooled (fun _ => newReserve (growWith (takeCols 1 p).2 i ((takeCols 1 p).1.headD 0) false) i) h
  rw [hgrown] at hpooled
  unfold grow
  rw [h.pool]
  dsimp only
  rw [getSeq_one hp, hstarts, if_neg (by decide), if_pos hfree, hgrown]
  exact hpooled

theorem grow_reserve {c : Nat} (hfull : freeCols p = 0) (hres : z.resUsed = false) (hspare : z.spare = some c) :
    Pooled d b (grow d s i) { p with seqs := [(i, grownSeq (c * p.layers) true z)] } ∧
      (⟨b.now, cpSource b d, 0x1C4, 0, d, [i, z.len / 16]⟩ : EventRec) ∈ (grow d s i).emitted := by
  have hpooled := modPool_pooled (fun p => growWith p i c true) h
  have hlogged := cacheEvent_logged (modPool s d fun p => growWith p i c true) d 0x1C4 sevInfo [i, z.len / 16]
  rw [hpooled.now, hpooled.source] at hlogged
  rw [growWith, modSeq_one hp] at hpooled
  have hgrow : grow d s i = cacheEvent (modPool s d fun p => growWith p i c true) d 0x1C4 sevInfo [i, z.len / 16] := by
    unfold grow
    rw [h.pool]
    dsimp only
    rw [getSeq_one hp, hstarts, if_neg (by decide), if_neg (by omega), hspare, hres]
  rw [hgrow]
  exact ⟨cacheEvent_pooled _ _ _ hpooled, hlogged⟩

theorem grow_pauses (hfull : freeCols p = 0) (hres : z.resUsed = true) (hnew : z.noPage = false) :
    Pooled d b (grow d s i) { p with seqs := [(i, { z with state := 4, noPage := true })] } ∧
      (⟨b.now, cpSource b d, 0x1C3, 1, d, [i, z.len]⟩ : EventRec) ∈ (grow d s i).emitted := by
  have hpooled := modPool_pooled (fun p => modSeq p i fun q => { q with state := 4, noPage := true }) h
  have hlogged := cacheEvent_logged (modPool s d fun p => modSeq p i fun q => { q with state := 4, noPage := true }) d 0x1C3 sevNotice [i, z.len]
  rw [hpooled.now, hpooled.source] at hlogged
  rw [modSeq_one hp] at hpooled
  have hgrow : grow d s i = cacheEvent (modPool s d fun p => modSeq p i fun q => { q with state := 4, noPage := true }) d 0x1C3 sevNotice [i, z.len] := by
    unfold grow
    rw [h.pool]
    dsimp only
    rw [getSeq_one hp, hstarts, if_neg (by decide), if_neg (by omega), hres]
    cases z.spare with
    | none => exact if_neg (by rw [hnew]; decide)
    | some c => exact if_neg (by rw [hnew]; decide)
  rw [hgrow]
  exact ⟨cacheEvent_pooled _ _ _ hpooled, hlogged⟩

end

theorem needCols_fresh {q : Pool} {y : Seq} (i : Nat) (h3 : y.state = 3) (hstarts : startsPage y = true) : needCols (freshPool q i y) = b2n y.resUsed + 1 := by
  rw [needCols_one (z := undropped y) rfl, if_pos (by simp [undropped, continuing, h3])]
  exact congrArg (b2n y.resUsed + b2n ·) hstarts

section
variable {d i : Nat} {s : State} {q : Pool} {y : Seq} (hpool : (getDist s d).pool = some q) (hq : q.seqs = [(i, y)]) (hedits : y.edits = [])
  (hends : y.ends = 0) (hback : q.back = []) (h3 : y.state = 3) (hstarts : startsPage y = true)
include hpool hq hedits hends hback h3 hstarts

omit hstarts in
theorem boundary_continues : Pooled d s (boundaryPhase d s 0) (freshPool q i y) :=
  phase1_quiet hpool hq hedits (by rw [h3]; decide) (by rw [h3]; decide) hends hback

/-- The boundary of a slot that starts a page, no drop being due, is its third phase; what that leaves, the fourth does not take. -/
theorem boundary_grows {z : Seq} {p : Pool} (hfits : q.noDrop = true ∨ b2n y.resUsed + 1 ≤ freeCols q) (hp : p.seqs = [(i, z)]) (hz : z.edits = [])
    (hstill : (z.state == 1 || (z.state == 5 && !z.dropped)) = false) (hgrown : Pooled d s (grow d (boundaryPhase d s 0) i) p) :
    phasesRun d s = grow d (boundaryPhase d s 0) i := by
  have hfresh := boundary_continues hpool hq hedits hends hback h3
  have hone : (freshPool q i y).seqs = [(i, undropped y)] := rfl
  have hneed := needCols_fresh (q := q) i h3 hstarts
  have hthird : boundaryPhase d (boundaryPhase d s 0) 2 = grow d (boundaryPhase d s 0) i := by
    rw [boundaryPhase_third hfresh.pool, slotsWhere_one hone, if_pos (by simp [undropped, continuing, h3]), List.foldl_cons, List.foldl_nil,
      settleEdits_one hp hgrown hz]
  rw [phasesRun, phase2_quiet hone hfresh hedits (by rw [hneed]; exact hfits), hthird, phase4_quiet hp hgrown hz hstill]

theorem boundary_column (hfree : 0 < freeCols q) (hres : y.resUsed = false) :
    Pooled d s (phasesRun d s) (grantedPool 1 (fun cols => grownSeq (cols.headD 0 * q.layers) false (undropped y)) i (freshPool q i y)) := by
  have hgrown := grow_column (boundary_continues hpool hq hedits hends hback h3) (z := undropped y) rfl hstarts hfree hres
  rw [boundary_grows hpool hq hedits hends hback h3 hstarts (.inr (by rw [hres]; exact hfree)) (z := grownSeq _ _ (undropped y)) rfl hedits rfl hgrown]
  exact hgrown

theorem boundary_reserve {c : Nat} (hfull : freeCols q = 0) (hnodrop : q.noDrop = true) (hres : y.resUsed = false) (hspare : y.spare = some c) :
    Pooled d s (phasesRun d s) { freshPool q i y with seqs := [(i, grownSeq (c * q.layers) true (undropped y))] } ∧
      (⟨s.now, cpSource s d, 0x1C4, 0, d, [i, y.len / 16]⟩ : EventRec) ∈ (phasesRun d s).emitted := by
  obtain ⟨hgrown, hlogged⟩ := grow_reserve (boundary_continues hpool hq hedits hends hback h3) (z := undropped y) rfl hstarts hfull hres hspare
  rw [boundary_grows hpool hq hedits hends hback h3 hstarts (.inl hnodrop) (z := grownSeq _ _ (undropped y)) rfl hedits rfl hgrown]
  exact ⟨hgrown, hlogged⟩

theorem boundary_pauses (hfull : freeCols q = 0) (hnodrop : q.noDrop = true) (hres : y.resUsed = true) (hnew : y.noPage = false) :
    Pooled d s (phasesRun d s) { freshPool q i y with seqs := [(i, { undropped y with state := 4, noPage := true })] } ∧
      (⟨s.now, cpSource s d, 0x1C3, 1, d, [i, y.len]⟩ : EventRec) ∈ (phasesRun d s).emitted := by
  obtain ⟨hgrown, hlogged⟩ := grow_pauses (boundary_continues hpool hq hedits hends hback h3) (z := undropped y) rfl hstarts hfull hres hnew
  rw [boundary_grows hpool hq hedits hends hback h3 hstarts (.inl hnodrop) (z := { undropped y with state := 4, noPage := true }) rfl hedits rfl hgrown]
  exact ⟨hgrown, hlogged⟩

end

/-! ## Drops (R362) -/

/-- A slot whose columns are dropped. -/
def droppedSeq (z : Seq) : Seq := { z with table := [], spare := none, resUsed := false, gen := nextGen z, state := 5, dropped := true, noPage := false }

/-- The pool with its one slot's columns dropped. -/
def droppedPool (p : Pool) (i : Nat) (z : Seq) : Pool :=
  { p with used := p.used.filter fun c => !(colsOf p z).contains c, seqs := [(i, droppedSeq z)], drops := p.drops + 1 }

theorem dropSlot_one {d i cause : Nat} {b s : State} {p : Pool} {z : Seq} (h : Pooled d b s p) (hp : p.seqs = [(i, z)]) : let t := dropSlot d cause i s
    Pooled d b t (droppedPool p i z) ∧ (⟨b.now, cpSource b d, 0x1C2, 1, d, [i, (colsOf p z).length, cause]⟩ : EventRec) ∈ t.emitted := by
  have hpooled := modPool_pooled (fun _ => droppedPool p i z) h
  have hlogged := cacheEvent_logged (modPool s d fun _ => droppedPool p i z) d 0x1C2 sevNotice [i, (colsOf p z).length, cause]
  rw [hpooled.now, hpooled.source] at hlogged
  have hdropped : dropSlot d cause i s = cacheEvent (modPool s d fun _ => droppedPool p i z) d 0x1C2 sevNotice [i, (colsOf p z).length, cause] := by
    unfold dropSlot releaseSeq
    rw [h.pool]
    dsimp only
    rw [getSeq_one hp, modSeq_used hp, modSeq_one (z := { z with table := [], spare := none, resUsed := false, gen := nextGen z }) rfl]
    rfl
  dsimp only
  rw [hdropped]
  exact ⟨cacheEvent_pooled _ _ _ hpooled, hlogged⟩

theorem boundary_drops {d i : Nat} {s : State} {q : Pool} {y : Seq} (hpool : (getDist s d).pool = some q) (hq : q.seqs = [(i, y)]) (hedits : y.edits = [])
    (hends : y.ends = 0) (hback : q.back = []) (h3 : y.state = 3) (hstarts : startsPage y = true) (hfull : freeCols q = 0)
    (hdrop : q.noDrop = false) (hslots : 0 < q.slots) : Pooled d s (phasesRun d s) (droppedPool (freshPool q i y) i (undropped y)) ∧
      (⟨s.now, cpSource s d, 0x1C2, 1, d, [i, (colsOf q y).length, 1]⟩ : EventRec) ∈ (phasesRun d s).emitted := by
  have hfresh := boundary_continues hpool hq hedits hends hback h3
  have hneed := needCols_fresh (q := q) i h3 hstarts
  have hone : (freshPool q i y).seqs = [(i, undropped y)] := rfl
  obtain ⟨hdropped, hlogged⟩ := dropSlot_one (cause := 1) hfresh hone
  have hone' : (droppedPool (freshPool q i y) i (undropped y)).seqs = [(i, droppedSeq (undropped y))] := rfl
  have hsecond : boundaryPhase d (boundaryPhase d s 0) 1 = dropSlot d 1 i (boundaryPhase d s 0) := by
    have hphase : ∀ fuel, 0 < fuel → phase2 fuel d (boundaryPhase d s 0) = dropSlot d 1 i (boundaryPhase d s 0) := fun fuel hf => by
      obtain ⟨n, rfl⟩ := Nat.exists_eq_add_of_lt hf
      rw [Nat.zero_add, phase2, hfresh.pool]
      dsimp only
      rw [if_neg (by rw [hneed]; exact fun hle => absurd (hle.trans hfull.le) (by simp)), slotsWhere_one hone, if_pos (by simp [undropped, continuing, h3])]
      exact phase2_enough hdropped.pool _ (by rw [needCols_one hone']; exact Nat.zero_le _)
    have hno : ¬(freshPool q i y).noDrop = true := ne_true_of_eq_false hdrop
    rw [boundaryPhase_second hfresh.pool, if_neg hno, hphase (freshPool q i y).slots hslots,
      settleEdits_one hone' hdropped hedits]
  rw [phasesRun, hsecond, phase3_quiet hone' hdropped hedits rfl, phase4_quiet hone' hdropped hedits rfl]
  exact ⟨hdropped, hlogged⟩

end Sys2Proof.Machine
end

section
/-! A serving step, from its start to its tokens (R360, R375, R376), and the obligation on the serving loop. -/

namespace Sys2Proof.Machine

/-! ## The start of a step (R375, R376) -/

section
variable {d : Nat} {s : State} {l : Loop} {q : Pool} (hloop : (getDist s d).loop = some l) (hpool : (getDist s d).pool = some q)
  (hstate : (getDist s d).state = 3) (hrun : (getDist s d).run = none) (hphase : l.phase = 2) (hlink : s.pcie.linkUp = true)
include hloop hpool hstate hrun hphase hlink

/-- A loop as it stands when its step starts. -/
def startedStep (cons : Nat) (l : Loop) : Loop := { l with phase := 3, cons := cons, heldLogged := false }

theorem serveStepStart_starts {cons : Nat} (hroom : (stepSlots q).length ≤ ringRoom l cons) (hprog : thas (getDist s d).progs l.handle = true) :
    let t := serveStepStart d cons s
    (getDist t d).loop = some (startedStep cons l) ∧ (getDist t d).bstep = ((getDist s d).bstep + 1) % 2 ^ 64 ∧
      (getDist t d).run.map (fun r => (r.handle, r.by_, r.tStart)) = some (l.handle, .serve, time s) ∧ (getDist t d).pool = (getDist s d).pool ∧
      t.emitted = s.emitted := by
  obtain ⟨p, hp⟩ := Option.isSome_iff_exists.mp hprog
  have hstart : serveStepStart d cons s = startRun (modDist (modLoop (modLoop s d fun l => { l with cons := cons }) d fun l =>
      { l with phase := 3, heldLogged := false }) d fun x => { x with bstep := (x.bstep + 1) % 2 ^ 64 }) d l.handle .serve (time s) := by
    unfold serveStepStart
    dsimp only
    rw [hloop, hpool]
    dsimp only
    rw [if_neg (by simp [hphase, hstate, hrun, hlink]), if_neg (by omega)]
    rfl
  have hdist : getDist (modDist (modLoop (modLoop s d fun l => { l with cons := cons }) d fun l =>
      { l with phase := 3, heldLogged := false }) d fun x => { x with bstep := (x.bstep + 1) % 2 ^ 64 }) d =
      { getDist s d with loop := some (startedStep cons l), bstep := ((getDist s d).bstep + 1) % 2 ^ 64 } := by
    rw [getDist_modDist_self, modLoop, getDist_modDist_self, modLoop, getDist_modDist_self, hloop]
    rfl
  have hlog : (modDist (modLoop (modLoop s d fun l => { l with cons := cons }) d fun l =>
      { l with phase := 3, heldLogged := false }) d fun x => { x with bstep := (x.bstep + 1) % 2 ^ 64 }).emitted = s.emitted := rfl
  dsimp only
  rw [hstart]
  generalize (modDist (modLoop (modLoop s d fun l => { l with cons := cons }) d fun l =>
    { l with phase := 3, heldLogged := false }) d fun x => { x with bstep := (x.bstep + 1) % 2 ^ 64 }) = u at hdist hlog
  rw [startRun, getDist_modDist_self, hdist]
  dsimp only
  rw [hp]
  exact ⟨rfl, rfl, rfl, rfl, hlog⟩

theorem serveStepStart_holds {cons : Nat} (hroom : ringRoom l cons < (stepSlots q).length) (hnew : l.heldLogged = false) :
    let t := serveStepStart d cons s
    (getDist t d).loop = some { l with cons := cons, heldLogged := true } ∧ (getDist t d).run = none ∧ (getDist t d).bstep = (getDist s d).bstep ∧
      logs s t [(cpSource s d, 0x1E3, 1, d, [(stepSlots q).length, ringRoom l cons])] := by
  have hheld : serveStepStart d cons s = cacheEvent (modLoop (modLoop s d fun l => { l with cons := cons }) d fun l => { l with heldLogged := true }) d 0x1E3
      sevNotice [(stepSlots q).length, ringRoom l cons] := by
    unfold serveStepStart
    dsimp only
    rw [hloop, hpool]
    dsimp only
    rw [if_neg (by simp [hphase, hstate, hrun, hlink]), if_pos hroom, hnew]
    rfl
  have hdist : getDist (modLoop (modLoop s d fun l => { l with cons := cons }) d fun l => { l with heldLogged := true }) d =
      { getDist s d with loop := some { l with cons := cons, heldLogged := true } } := by
    rw [modLoop, getDist_modDist_self, modLoop, getDist_modDist_self, hloop]
    rfl
  have hsource : cpSource (modLoop (modLoop s d fun l => { l with cons := cons }) d fun l => { l with heldLogged := true }) d = cpSource s d := by
    rw [cpSource, hdist, cpSource]
  dsimp only
  rw [hheld, cacheEvent, getDist_emit, hdist, logs, emit_emitted, hsource]
  exact ⟨rfl, hrun, rfl, rfl⟩

end

/-! ## One slot after a step (R356, R375) -/

/-- A slot out of the step. -/
def outOfStep (y : Seq) : Seq := { y with inStep := false, new := 0, last := false, void := false }

/-- A decoding slot after its step: one token longer, and at its end where the program or the length says so (R360, R375). -/
def decodedSeq (p : Pool) (rec_ : Bytes) (y : Seq) : Seq := { outOfStep y with
  len := y.len + y.new, ends := if bit rec_ 32 then 1 else if p.maxPages * 16 ≤ y.len + y.new then 2 else 0, hist := y.len + y.new + 1 }

section
variable {d i : Nat} {s : State} {l : Loop} {q : Pool} {y : Seq} (hpool : (getDist s d).pool = some q) (hq : q.seqs = [(i, y)])
include hpool hq

theorem slotAfter_void (hvoid : y.void = true) : let t := slotAfter d s i
    getDist t d = { getDist s d with pool := some { q with seqs := [(i, outOfStep y)] } } ∧ t.out = s.out ∧
      logs s t [(cpSource s d, 0x1C6, 1, d, [i, (getDist s d).bstep, y.gen])] := by
  have hafter : slotAfter d s i = cacheEvent (modPool s d fun p => modSeq p i fun _ => outOfStep y) d 0x1C6 sevNotice [i, (getDist s d).bstep, y.gen] := by
    unfold slotAfter
    dsimp only
    rw [hpool]
    dsimp only
    rw [getSeq_one hq, if_pos hvoid]
    rfl
  have hdist : getDist (modPool s d fun p => modSeq p i fun _ => outOfStep y) d = { getDist s d with pool := some { q with seqs := [(i, outOfStep y)] } } := by
    rw [getDist_modPool, hpool, Option.map_some, modSeq_one hq]
  have hsource : cpSource (modPool s d fun p => modSeq p i fun _ => outOfStep y) d = cpSource s d := by rw [cpSource, hdist, cpSource]
  dsimp only
  rw [hafter, cacheEvent, getDist_emit, hdist, emit_plain _ _ _ _ _ _ (by decide), logs, hsource]
  exact ⟨rfl, rfl, rfl⟩

end

theorem putToken_state {d : Nat} {s : State} {l : Loop} (hloop : (getDist s d).loop = some l) (y : Seq) (token pos : Nat) : let t := putToken s d y token pos
    getDist t d = { getDist s d with loop := some { l with produce := (l.produce + 1) % 2 ^ 64 } } ∧
      (.tokenWrite d (l.produce % 2 ^ l.log2n) (BitVec.ofNat 64 (l.ringBase + 16 * (l.produce % 2 ^ l.log2n)))
        (tokenRecord y token pos (l.produce / 2 ^ l.log2n % 2 == 0)) : Out) ∈ t.out := by
  unfold putToken
  rw [hloop]
  dsimp only
  refine ⟨?_, List.mem_cons_self⟩
  rw [modLoop, getDist_modDist_self]
  show ({ getDist s d with loop := (getDist s d).loop.map _ } : Dist) = _
  rw [hloop]
  rfl

/-- A decoding slot's pool changed and its token in history (R360). -/
def tokenKept (d i : Nat) (q : Pool) (z : Seq) (rec_ : Bytes) (s : State) : State := match tfind (getDist s d).segs q.histSeg with
  | some e => if z.len < q.maxPages * 16 then segWrite (modPool s d fun p => modSeq p i fun _ => z) e (q.histOff + i * q.maxPages * 64 + 4 * z.len) (slice rec_ 0 4)
    else modPool s d fun p => modSeq p i fun _ => z
  | none => modPool s d fun p => modSeq p i fun _ => z

theorem tokenKept_dists (d i : Nat) (q : Pool) (z : Seq) (rec_ : Bytes) (s : State) :
    (tokenKept d i q z rec_ s).dists = (modPool s d fun p => modSeq p i fun _ => z).dists := by
  unfold tokenKept
  split
  · split
    · exact segWrite_dists _ _ _ _
    · rfl
  · rfl

/-- The token of a decoding slot is written to its history and its record to the token ring (R360, R376). -/
theorem slotAfter_decodes {d i : Nat} {s : State} {l : Loop} {q : Pool} {y : Seq} {e : Seg} (hpool : (getDist s d).pool = some q) (hq : q.seqs = [(i, y)])
    (hloop : (getDist s d).loop = some l) (h3 : y.state = 3) (hlive : y.void = false) (he : tfind (getDist s d).segs q.batchSeg = some e) :
    let rec_ := segRead s e (q.batchOff + 64 * i + 24) 8
    let t := slotAfter d s i
    getDist t d = { getDist s d with pool := some { q with seqs := [(i, decodedSeq q rec_ y)] }, loop := some { l with produce := (l.produce + 1) % 2 ^ 64 } } ∧
      (.tokenWrite d (l.produce % 2 ^ l.log2n) (BitVec.ofNat 64 (l.ringBase + 16 * (l.produce % 2 ^ l.log2n)))
        (tokenRecord (decodedSeq q rec_ y) (fld rec_ 31 0) (y.len + y.new) (l.produce / 2 ^ l.log2n % 2 == 0)) : Out) ∈ t.out := by
  dsimp only
  generalize hrec : segRead s e (q.batchOff + 64 * i + 24) 8 = rec_
  have hafter : slotAfter d s i = putToken (tokenKept d i q (decodedSeq q rec_ y) rec_ s) d (decodedSeq q rec_ y) (fld rec_ 31 0) (y.len + y.new) := by
    have hgives : y.state = 3 ∨ (y.last = true ∧ (!y.again) = true) := .inl h3
    subst hrec
    unfold slotAfter
    dsimp only
    rw [hpool]
    dsimp only
    rw [getSeq_one hq, if_neg (by rw [hlive]; decide), if_neg (by rw [h3]; decide), he]
    simp only [hgives, decide_true, Bool.not_true, Bool.false_eq_true, if_false, if_true]
    rfl
  have hdist : getDist (tokenKept d i q (decodedSeq q rec_ y) rec_ s) d = { getDist s d with pool := some { q with seqs := [(i, decodedSeq q rec_ y)] } } := by
    rw [getDist_congr (tokenKept_dists d i q _ rec_ s), getDist_modPool, hpool, Option.map_some, modSeq_one hq]
  obtain ⟨hput, hout⟩ := putToken_state (s := tokenKept d i q (decodedSeq q rec_ y) rec_ s) (by rw [hdist]; exact hloop) (decodedSeq q rec_ y)
    (fld rec_ 31 0) (y.len + y.new)
  rw [hafter]
  rw [hdist] at hput
  exact ⟨hput, hout⟩

/-! ## The end of a step (R375) -/

theorem raiseVec_out (s : State) (f vec : Nat) : s.out ⊆ (raiseVec s f vec).out := by
  have hmsix : s.out ⊆ (msix s f vec).out := by
    unfold msix
    dsimp only
    split
    · exact fun _ h => h
    · split
      · exact fun _ h => h
      · exact fun _ h => List.mem_cons_of_mem _ h
  unfold raiseVec
  dsimp only
  split
  · split
    · exact fun _ h => h
    · exact hmsix
  · exact hmsix

theorem raiseBound_out (s : State) (d purpose : Nat) : s.out ⊆ (raiseBound s d purpose).out := by
  unfold raiseBound
  split
  · exact raiseVec_out _ _ _
  · exact fun _ h => h

section
variable {d i : Nat} {s : State} {l : Loop} {q : Pool} {y : Seq} (hloop : (getDist s d).loop = some l) (hpool : (getDist s d).pool = some q)
  (hstate : (getDist s d).state = 3) (hrun : (getDist s d).run = none) (hpause : (getDist s d).pause = none) (hstop : l.stop = false) (hphase : l.phase = 3)
  (hlink : s.pcie.linkUp = true) (hq : q.seqs = [(i, y)]) (hedits : y.edits = []) (hstep : y.inStep = true)
include hloop hpool hstate hrun hpause hstop hphase hlink hq hedits hstep

/-- The state after a step's slots, its vector raised where a token was written. -/
def stepRaised (d : Nat) (wrote : Bool) (s : State) : State := if wrote then raiseBound s d vbServe else s

omit hpause hstop in
theorem serveStepComplete_eq : serveStepComplete d s = loopEdge d (modLoop (stepRaised d (match (getDist (slotAfter d s i) d).loop with
    | some k => k.produce != l.produce
    | none => false) (slotAfter d s i)) d fun l => { l with phase := 0 }) := by
  have hslots : stepSlots q = [i] := by simp [stepSlots, hq, hstep]
  unfold serveStepComplete
  dsimp only
  rw [hloop, hpool]
  dsimp only
  rw [if_neg (by simp [hphase, hstate, hrun, hlink]), settleEdits_one hq (.refl hpool) hedits, hslots]
  rfl

omit hstop in
theorem serveStepComplete_dist {k : Loop} (hafter : getDist (slotAfter d s i) d = { getDist s d with pool := (getDist (slotAfter d s i) d).pool, loop := some k })
    (hk : k.stop = false) : ∃ wrote, serveStepComplete d s = modLoop (stepRaised d wrote (slotAfter d s i)) d (fun l => { l with phase := 0 }) ∧
      wrote = (k.produce != l.produce) ∧
      getDist (serveStepComplete d s) d = { getDist s d with pool := (getDist (slotAfter d s i) d).pool, loop := some { k with phase := 0 } } := by
  have hdone := serveStepComplete_eq hloop hpool hstate hrun hphase hlink hq hedits hstep
  generalize slotAfter d s i = u at hafter hdone
  have hdists : ∀ w, (stepRaised d w u).dists = u.dists := fun w => by
    unfold stepRaised
    split
    · exact raiseBound_dists _ _ _
    · rfl
  have hdist : ∀ w, getDist (modLoop (stepRaised d w u) d fun l => { l with phase := 0 }) d =
      { getDist s d with pool := (getDist u d).pool, loop := some { k with phase := 0 } } := fun w => by
    rw [modLoop, getDist_modDist_self, getDist_congr (hdists w), hafter]
    rfl
  rw [hafter] at hdone
  dsimp only at hdone
  rw [loopEdge_goes (l := { k with phase := 0 }) (by rw [hdist]) hk (by rw [hdist]; exact hpause)] at hdone
  exact ⟨_, hdone, rfl, by rw [hdone, hdist]⟩

end

/-! ## The obligation -/

section
variable {d : Nat} {s : State} {l : Loop} {q : Pool} (hloop : (getDist s d).loop = some l) (hpool : (getDist s d).pool = some q)
  (hstate : (getDist s d).state = 3) (hrun : (getDist s d).run = none) (hpause : (getDist s d).pause = none) (hstop : l.stop = false)
include hloop hpool hstate hrun hpause hstop

section
variable (hphase : l.phase = 0) (hpart : l.part = 0) {i : Nat} {y : Seq} (hq : q.seqs = [(i, y)]) (hedits : y.edits = [])
include hphase hpart hq hedits

omit hq hedits in
/-- What the boundary's phases make of one slot, its end hands to the coming step. -/
theorem serveBoundary_one {p : Pool} {z : Seq} (h : Pooled d s (phasesRun d s) p) (hz : p.seqs = [(i, z)]) : let t := serveBoundary d 0 s
    (getDist t d).pool = some (stepPool p) ∧ getSeq (stepPool p) i = setStepSeq p z ∧ (phasesRun d s).emitted ⊆ t.emitted ∧
      ∀ f, (getFn (phasesRun d s) f).replies ⊆ (getFn t f).replies := by
  obtain ⟨hafter, -, -, -, hlog, hreplies⟩ := serveBoundary_state hloop hpool hstate hrun hpause hstop hphase hpart h
  exact ⟨hafter, stepPool_one hz, hlog, hreplies⟩

theorem serveBoundary_leaves (h6 : y.state = 6) : let t := serveBoundary d 0 s
    ∃ r, (getDist t d).pool = some r ∧ getSeq r i = { gen := nextGen y } ∧ (∀ c, c ∈ r.used ↔ c ∈ q.used ∧ c ∉ colsOf q y ∧ c ∉ q.back) ∧
      (⟨s.now, cpSource s d, 0x1C5, 0, d, [i, y.tag, y.len, 0]⟩ : EventRec) ∈ t.emitted := by
  obtain ⟨hleft, hlogged⟩ := boundary_leaves hpool hq hedits h6
  obtain ⟨hafter, hseq, hlog, -⟩ := serveBoundary_one hloop hpool hstate hrun hpause hstop hphase hpart hleft rfl
  refine ⟨_, hafter, hseq, fun c => ?_, hlog hlogged⟩
  show c ∈ (q.used.filter fun c => !(colsOf q y).contains c).filter (fun c => !q.back.contains c) ↔ _
  rw [List.mem_filter, List.mem_filter]
  simp [and_assoc]

section
variable (hends : y.ends = 0) (hback : q.back = [])
include hends hback

theorem serveBoundary_admits {w : Pend} (h1 : y.state = 1) (hw : y.pend = some w) (hepoch : (getFn s w.req.fn).epoch = w.epoch)
    (hfits : joinCols y ≤ freeCols q) : let t := serveBoundary d 0 s
    ∃ r, (getDist t d).pool = some r ∧ (getSeq r i).state = 2 ∧ (getSeq r i).len = 0 ∧ (getSeq r i).new = min q.window y.goal ∧
      (getSeq r i).inStep = true ∧ (getSeq r i).table.length = cdiv y.goal 16 ∧ (getSeq r i).spare.isSome = true ∧
      freeCols r + joinCols y = freeCols q ∧ doneReply w 0 0 (leBytes 8 1) ∈ (getFn t w.req.fn).replies ∧
      (⟨s.now, cpSource s d, 0x1C0, 0, d, [i, y.tag, joinCols y, 0]⟩ : EventRec) ∈ t.emitted := by
  obtain ⟨hadmitted, hdone, hlogged⟩ := boundary_admits hpool hq hedits hends hback h1 hw hepoch hfits
  obtain ⟨hafter, hseq, hlog, hreplies⟩ := serveBoundary_one hloop hpool hstate hrun hpause hstop hphase hpart hadmitted rfl
  have hleft := grantedPool_free (g := admittedSeq q.layers (undropped y)) (i := i) (p := freshPool q i y) hfits
  have hcols := takeCols_length (joinCols y) (freshPool q i y)
  have hjoin : joinCols y = cdiv y.goal 16 + 1 := by rw [joinCols, if_pos h1]
  have hgoal : (if y.state == 5 then y.len else y.goal) = y.goal := if_neg (by rw [h1]; decide)
  refine ⟨_, hafter, ?_, ?_, ?_, ?_, ?_, ?_, hleft, hreplies _ hdone, hlog hlogged⟩
  · rw [hseq]
    rfl
  · rw [hseq]
    rfl
  · rw [hseq]
    exact congrArg (min q.window ·) hgoal
  · rw [hseq]
    rfl
  · rw [hseq]
    show ((takeCols (joinCols y) (freshPool q i y)).1.dropLast.zipIdx.map _).length = _
    rw [List.length_map, List.length_zipIdx, List.length_dropLast, hcols, hjoin, Nat.add_sub_cancel]
  · rw [hseq]
    show (takeCols (joinCols y) (freshPool q i y)).1.getLast?.isSome = true
    rw [List.getLast?_isSome]
    exact List.ne_nil_of_length_pos (by rw [hcols, hjoin]; exact Nat.succ_pos _)

theorem serveBoundary_defers (h1 : y.state = 1) (hshort : freeCols q < joinCols y) : let t := serveBoundary d 0 s
    ∃ r, (getDist t d).pool = some r ∧ (getSeq r i).state = 1 ∧ (getSeq r i).deferred = true ∧ r.used = q.used ∧ r.deferrals = q.deferrals + 1 ∧
      (y.deferred = false → (⟨s.now, cpSource s d, 0x1C1, 1, d, [i, joinCols y, freeCols q]⟩ : EventRec) ∈ t.emitted) := by
  obtain ⟨hdeferred, hlogged⟩ := boundary_defers hpool hq hedits hends hback h1 hshort
  obtain ⟨hafter, hseq, hlog, -⟩ := serveBoundary_one hloop hpool hstate hrun hpause hstop hphase hpart hdeferred rfl
  refine ⟨_, hafter, ?_, ?_, rfl, rfl, fun hno => hlog (hlogged hno)⟩
  · rw [hseq]
    exact h1
  · rw [hseq]
    rfl

variable (h3 : y.state = 3) (hstarts : startsPage y = true)
include h3 hstarts

theorem serveBoundary_column (hfree : 0 < freeCols q) (hres : y.resUsed = false) : let t := serveBoundary d 0 s
    ∃ r, (getDist t d).pool = some r ∧ (getSeq r i).state = 3 ∧ (getSeq r i).inStep = true ∧ thas (getSeq r i).table (y.len / 16) = true ∧
      freeCols r + 1 = freeCols q ∧ (getSeq r i).spare = y.spare ∧ (getSeq r i).gen = nextGen y := by
  have hgrown := boundary_column hpool hq hedits hends hback h3 hstarts hfree hres
  obtain ⟨hafter, hseq, -, -⟩ := serveBoundary_one hloop hpool hstate hrun hpause hstop hphase hpart hgrown rfl
  have hleft := grantedPool_free (g := fun cols => grownSeq (cols.headD 0 * q.layers) false (undropped y)) (i := i) (p := freshPool q i y) hfree
  refine ⟨_, hafter, ?_⟩
  rw [hseq]
  exact ⟨rfl, rfl, congrArg Option.isSome (tfind_tset_self _ _ _), hleft, rfl, rfl⟩

theorem serveBoundary_reserve {c : Nat} (hfull : freeCols q = 0) (hnodrop : q.noDrop = true) (hres : y.resUsed = false) (hspare : y.spare = some c) :
    let t := serveBoundary d 0 s
    ∃ r, (getDist t d).pool = some r ∧ (getSeq r i).state = 3 ∧ (getSeq r i).resUsed = true ∧
      (tfind (getSeq r i).table (y.len / 16)).map (·.page) = some (c * q.layers) ∧
      (⟨s.now, cpSource s d, 0x1C4, 0, d, [i, y.len / 16]⟩ : EventRec) ∈ t.emitted := by
  obtain ⟨hgrown, hlogged⟩ := boundary_reserve hpool hq hedits hends hback h3 hstarts hfull hnodrop hres hspare
  obtain ⟨hafter, hseq, hlog, -⟩ := serveBoundary_one hloop hpool hstate hrun hpause hstop hphase hpart hgrown rfl
  refine ⟨_, hafter, ?_⟩
  rw [hseq]
  exact ⟨rfl, Bool.or_true _, congrArg (Option.map Pte.page) (tfind_tset_self _ _ _), hlog hlogged⟩

theorem serveBoundary_pauses (hfull : freeCols q = 0) (hnodrop : q.noDrop = true) (hres : y.resUsed = true) (hnew : y.noPage = false) :
    let t := serveBoundary d 0 s
    ∃ r, (getDist t d).pool = some r ∧ (getSeq r i).state = 4 ∧ (getSeq r i).inStep = false ∧ (getSeq r i).table = y.table ∧
      (⟨s.now, cpSource s d, 0x1C3, 1, d, [i, y.len]⟩ : EventRec) ∈ t.emitted := by
  obtain ⟨hpaused, hlogged⟩ := boundary_pauses hpool hq hedits hends hback h3 hstarts hfull hnodrop hres hnew
  obtain ⟨hafter, hseq, hlog, -⟩ := serveBoundary_one hloop hpool hstate hrun hpause hstop hphase hpart hpaused rfl
  refine ⟨_, hafter, ?_⟩
  rw [hseq]
  exact ⟨rfl, rfl, rfl, hlog hlogged⟩

theorem serveBoundary_drops (hfull : freeCols q = 0) (hdrop : q.noDrop = false) (hslots : 0 < q.slots) :
    let t := serveBoundary d 0 s
    ∃ r, (getDist t d).pool = some r ∧ (getSeq r i).state = 5 ∧ (getSeq r i).table = [] ∧ (getSeq r i).len = y.len ∧ r.drops = q.drops + 1 ∧
      (⟨s.now, cpSource s d, 0x1C2, 1, d, [i, (colsOf q y).length, 1]⟩ : EventRec) ∈ t.emitted := by
  obtain ⟨hdropped, hlogged⟩ := boundary_drops hpool hq hedits hends hback h3 hstarts hfull hdrop hslots
  obtain ⟨hafter, hseq, hlog, -⟩ := serveBoundary_one hloop hpool hstate hrun hpause hstop hphase hpart hdropped rfl
  refine ⟨_, hafter, ?_⟩
  rw [hseq]
  exact ⟨rfl, rfl, rfl, rfl, hlog hlogged⟩

end
end

section
variable (hphase : l.phase = 3) (hlink : s.pcie.linkUp = true) {i : Nat} {y : Seq} (hq : q.seqs = [(i, y)]) (hedits : y.edits = []) (hstep : y.inStep = true)
include hphase hlink hq hedits hstep

theorem serveStepComplete_decodes {e : Seg} (he : tfind (getDist s d).segs q.batchSeg = some e) (h3 : y.state = 3) (hlive : y.void = false) :
    let rec_ := segRead s e (q.batchOff + 64 * i + 24) 8
    let t := serveStepComplete d s
    ∃ r, (getDist t d).pool = some r ∧ (getSeq r i).len = y.len + y.new ∧ (getSeq r i).inStep = false ∧
      (getSeq r i).ends = (if bit rec_ 32 then 1 else if q.maxPages * 16 ≤ y.len + y.new then 2 else 0) ∧
      (getDist t d).loop = some { l with phase := 0, produce := (l.produce + 1) % 2 ^ 64 } ∧
      (.tokenWrite d (l.produce % 2 ^ l.log2n) (BitVec.ofNat 64 (l.ringBase + 16 * (l.produce % 2 ^ l.log2n)))
        (tokenRecord (getSeq r i) (fld rec_ 31 0) (y.len + y.new) (l.produce / 2 ^ l.log2n % 2 == 0)) : Out) ∈ t.out := by
  dsimp only
  obtain ⟨hafter, hout⟩ := slotAfter_decodes hpool hq hloop h3 hlive he
  generalize segRead s e (q.batchOff + 64 * i + 24) 8 = rec_ at hafter hout
  obtain ⟨wrote, hdone, -, hdist⟩ := serveStepComplete_dist (k := { l with produce := (l.produce + 1) % 2 ^ 64 }) hloop hpool hstate hrun hpause hphase hlink
    hq hedits hstep (by rw [hafter]) hstop
  have hkept : (slotAfter d s i).out ⊆ (serveStepComplete d s).out := by
    rw [hdone]
    unfold stepRaised
    split
    · exact raiseBound_out _ _ _
    · exact fun _ h => h
  have hseq := getSeq_one (p := { q with seqs := [(i, decodedSeq q rec_ y)] }) rfl
  refine ⟨{ q with seqs := [(i, decodedSeq q rec_ y)] }, by rw [hdist, hafter], ?_, ?_, ?_, by rw [hdist], ?_⟩
  · rw [hseq]
    rfl
  · rw [hseq]
    rfl
  · rw [hseq]
    rfl
  · rw [hseq]
    exact hkept hout

theorem serveStepComplete_void (hvoid : y.void = true) : let t := serveStepComplete d s
    ∃ r, (getDist t d).pool = some r ∧ (getSeq r i).len = y.len ∧ (getSeq r i).inStep = false ∧ (getSeq r i).void = false ∧ t.out = s.out ∧
      (getDist t d).loop = some { l with phase := 0 } ∧ logs s t [(cpSource s d, 0x1C6, 1, d, [i, (getDist s d).bstep, y.gen])] := by
  obtain ⟨hafter, hout, hlog⟩ := slotAfter_void hpool hq hvoid
  obtain ⟨wrote, hdone, hwrote, hdist⟩ := serveStepComplete_dist (k := l) hloop hpool hstate hrun hpause hphase hlink hq hedits hstep
    (by rw [hafter, ← hloop]) hstop
  have hquiet : wrote = false := by rw [hwrote, bne_self_eq_false]
  have hseq := getSeq_one (p := { q with seqs := [(i, outOfStep y)] }) rfl
  have hkept : stepRaised d wrote (slotAfter d s i) = slotAfter d s i := if_neg (by rw [hquiet]; decide)
  rw [hkept] at hdone
  refine ⟨{ q with seqs := [(i, outOfStep y)] }, by rw [hdist, hafter], ?_, ?_, ?_, by rw [hdone]; exact hout, by rw [hdist], by rw [hdone]; exact hlog⟩
  · rw [hseq]
    rfl
  · rw [hseq]
    rfl
  · rw [hseq]
    rfl

end
end

/-- Settles O39: each phase of the boundary, and each end of a step, by its own lemma. -/
theorem servingStepsRun : Obligations.ServingStepsRun := by
  unfold Obligations.ServingStepsRun
  intro d l q s
  exact fun hloop hpool hstate hrun hpause hstop =>
    ⟨fun k hphase h1 h3 hpart => ⟨_, rfl, serveBoundary_part hloop hpool hstate hrun hpause hstop hphase h1 h3 hpart⟩,
    fun hphase hpart => ⟨⟨_, rfl, serveBoundary_ends hloop hpool hstate hrun hpause hstop hphase hpart⟩,
      fun i y hq hedits h6 => ⟨_, rfl, serveBoundary_leaves hloop hpool hstate hrun hpause hstop hphase hpart hq hedits h6⟩,
      fun i y w hq hedits h1 hends hback hw hepoch =>
        ⟨fun hfits => ⟨_, rfl, serveBoundary_admits hloop hpool hstate hrun hpause hstop hphase hpart hq hedits hends hback h1 hw hepoch hfits⟩,
        fun hshort => ⟨_, rfl, serveBoundary_defers hloop hpool hstate hrun hpause hstop hphase hpart hq hedits hends hback h1 hshort⟩⟩,
      fun i y hq hedits h3 hends hback hstarts hres =>
        ⟨fun hfree => ⟨_, rfl, serveBoundary_column hloop hpool hstate hrun hpause hstop hphase hpart hq hedits hends hback h3 hstarts hfree hres⟩,
        fun c hfull hnodrop hspare =>
          ⟨_, rfl, serveBoundary_reserve hloop hpool hstate hrun hpause hstop hphase hpart hq hedits hends hback h3 hstarts hfull hnodrop hres hspare⟩⟩,
      fun i y hq hedits h3 hends hback hstarts hres hfull =>
        ⟨fun hnodrop hnew =>
          ⟨_, rfl, serveBoundary_pauses hloop hpool hstate hrun hpause hstop hphase hpart hq hedits hends hback h3 hstarts hfull hnodrop hres hnew⟩,
        fun hdrop hslots =>
          ⟨_, rfl, serveBoundary_drops hloop hpool hstate hrun hpause hstop hphase hpart hq hedits hends hback h3 hstarts hfull hdrop hslots⟩⟩⟩,
    fun cons hphase hlink => ⟨fun hroom hprog => ⟨_, rfl, serveStepStart_starts hloop hpool hstate hrun hphase hlink hroom hprog⟩,
      fun hroom hnew => ⟨_, rfl, serveStepStart_holds hloop hpool hstate hrun hphase hlink hroom hnew⟩⟩,
    fun i y e hphase hlink hq hedits hstep he =>
      ⟨fun h3 hlive => ⟨_, rfl, serveStepComplete_decodes hloop hpool hstate hrun hpause hstop hphase hlink hq hedits hstep he h3 hlive⟩,
      fun hvoid => ⟨_, rfl, serveStepComplete_void hloop hpool hstate hrun hpause hstop hphase hlink hq hedits hstep hvoid⟩⟩⟩

end Sys2Proof.Machine
end

section
/-! The MEDIA_ commands (R387, R399, R400). -/

namespace Sys2Proof.Machine

/-! ## Pipes -/

@[simp] theorem getPipe_modPipe_self (s : State) (k : Nat) (g : Pipe → Pipe) : getPipe (modPipe s k g) k = g (getPipe s k) := tget_tmod_self _ _ _ _

theorem getPipe_modPipe_ne (s : State) {k j : Nat} (g : Pipe → Pipe) (h : j ≠ k) : getPipe (modPipe s k g) j = getPipe s j := tget_tmod_ne _ _ _ h

theorem getPipe_congr {s t : State} (h : t.pipes = s.pipes) (k : Nat) : getPipe t k = getPipe s k := by rw [getPipe, h, getPipe]

/-- A command of a present pipe's district whose checks pass acts on the state with the district's loop woken. -/
theorem mediaCommand_acts {k : Spec} {c : FwReq} {s : State} {fmt : Bool} {present : State → Bool} {own : State → List (Bool × Err)} {eff : State → State}
    (h : Sendable k c s) (hwide : k.wide = false) (hfmt : fmt = true) (hpresent : present s = true) (hown : (own s).all (fun e => !e.1) = true) :
    fwStep k c (fun s => headChecks k fmt (present s) c s ++ own s) eff s = .next (eff (wakeLoop s (cmdDist c))) := by
  refine fwStep_onDistrict h hwide ?_
  rw [firstErr_append, hpresent, firstErr_head h hfmt, Option.none_or]
  exact firstErr_all hown

/-! ## MEDIA_JOB_START (R387) -/

theorem fits_wakeLoop (s : State) (d tier : Nat) (units : List Nat) (size : Nat) : fits (wakeLoop s d) tier units size = fits s tier units size := by
  unfold wakeLoop
  split
  · split <;> rfl
  · rfl

/-- A vector bound changes the functions alone. -/
theorem bindVec_fnsOnly {s t : State} {d vec purpose v : Nat} (h : bindVec s d vec purpose = some (v, t)) : ∃ fns, t = { s with fns := fns } := by
  have hadded : ∀ w, t = modFn s d (fun x => { x with binds := x.binds ++ [⟨purpose, w⟩] }) → ∃ fns, t = { s with fns := fns } := fun w hw => ⟨_, hw⟩
  unfold bindVec at h
  dsimp only at h
  split at h
  · exact hadded _ (Prod.mk.inj (Option.some.inj h)).2.symm
  · split at h
    · split at h
      · exact hadded _ (Prod.mk.inj (Option.some.inj h)).2.symm
      · exact absurd h (by simp)
    · exact absurd h (by simp)

/-- The pipe that a MEDIA_ command names. -/
def cmdPipe (c : FwReq) : Nat := pipeKey (bit c.payload 4) (fld c.payload 3 0)

theorem cmdPipe_eq (c : FwReq) : pipeKey (bit c.payload 4) (fld c.payload 3 0) = cmdPipe c := rfl

/-- The state of a start that is accepted, its frame store allocated. -/
def jobStored (c : FwReq) (s : State) : State :=
  (alloc (replyAccepted s c 0x0800) 2 (replyAccepted s c 0x0800).lpSites (storeBytes c.payload)).2

/-- The state of a start with its vector bound. -/
def jobBound (c : FwReq) (s : State) : State := match bindVec (jobStored c s) (cmdDist c) (fld c.payload 31 24) (vbMedia (cmdPipe c)) with
  | some (_, u) => u
  | none => jobStored c s

/-- The pipe as MEDIA_JOB_START sets it. -/
def startedPipe (c : FwReq) (w : Pend) (bid : Nat) : Pipe := {
  state := if fld c.payload 191 128 = 0 ∧ !bit c.payload 8 then 2 else 1, dist := cmdDist c, pend := some w, job := c.payload, inLen := fld c.payload 191 128
  isEnd := bit c.payload 8, storeBid := bid, bufFull := fld c.payload 511 480 * fld c.payload 447 432 }

theorem jobBound_keeps (c : FwReq) (s : State) : (jobBound c s).dists = s.dists ∧ (jobBound c s).pipes = s.pipes ∧
    (jobBound c s).backs = (jobStored c s).backs ∧ repliesAdd s (jobBound c s) c.fn [acceptedReply c 0x0800] := by
  have hstored : (jobStored c s).dists = s.dists ∧ (jobStored c s).pipes = s.pipes := ⟨replyAccepted_dists _ _ _, replyAccepted_pipes _ _ _⟩
  have hreply : repliesAdd s (jobStored c s) c.fn [acceptedReply c 0x0800] := replyAccepted_adds s c 0x0800
  unfold jobBound
  split
  · next v u hbind =>
    obtain ⟨hdists, hpipes, hfns⟩ := bindVec_keeps hbind
    obtain ⟨fns, rfl⟩ := bindVec_fnsOnly hbind
    refine ⟨hdists.trans hstored.1, hpipes.trans hstored.2, rfl, ?_⟩
    rw [repliesAdd, (hfns c.fn).1]
    exact hreply
  · exact ⟨hstored.1, hstored.2, rfl, hreply⟩

section
variable {c : FwReq} {s : State} (hpresent : pipePresent s (bit c.payload 4) (fld c.payload 3 0) = true)
  (hstate : (getDist s (cmdDist c)).state ∈ [1, 2, 3, 5, 6])
include hpresent hstate

theorem mediaStart_acts (h : Sendable specMediaStart c s) (hlen : c.payload.length = 120) (hzero : zeroAt c.payload (mediaRsvd (bit c.payload 4)) = true)
    (hargs : mediaOk s (getDist s (cmdDist c)) c.payload = true) (hidle : (getPipe s (cmdPipe c)).state = 0) (hretain : (retainBlocks s).1 = false)
    (hpwr : s.pwr.state ≠ 2) (hfits : fits (wakeLoop s (cmdDist c)) 2 s.lpSites (storeBytes c.payload) = true)
    (hvec : vecFree s (cmdDist c) (fld c.payload 31 24) = true) : exec (.mediaJobStart c) s = .next (modPipe (jobBound c (wakeLoop s (cmdDist c))) (cmdPipe c)
      fun _ => startedPipe c (pendOf (jobBound c (wakeLoop s (cmdDist c))) c 0x0800) (replyAccepted (wakeLoop s (cmdDist c)) c 0x0800).nextBid) := by
  have hawake : autoWake (wakeLoop s (cmdDist c)) = wakeLoop s (cmdDist c) := by
    rw [autoWake, if_neg]
    rintro ⟨h2, -⟩
    exact hpwr ((congrArg Pwr.state (wakeLoop_pwr s (cmdDist c))).symm.trans h2)
  rw [fits_wakeLoop] at hfits
  refine (mediaCommand_acts (present := fun s => pipePresent s (bit c.payload 4) (fld c.payload 3 0)) h rfl (by simp [hlen, hzero]) hpresent
    (by simp [hargs, legalIn_ok (ok := mediaStates) hstate, cmdPipe_eq, hidle, hretain, hfits, hvec])).trans ?_
  dsimp only
  rw [hawake]
  rfl

theorem mediaExtend_acts (hdist : (getPipe s (cmdPipe c)).dist = cmdDist c) (hheld : (getPipe s (cmdPipe c)).state ∈ [1, 2])
    (h : Sendable specMediaExtend c s) (hlen : c.payload.length = 16) (hzero : zeroAt c.payload [(7, 5), (63, 9)] = true)
    (hmore : (getPipe s (cmdPipe c)).inLen ≤ fld c.payload 127 64)
    (hrange : mediaRange (getDist s (cmdDist c)) (fld (getPipe s (cmdPipe c)).job 39 32) (fld (getPipe s (cmdPipe c)).job 127 64)
      (fld c.payload 127 64 * (if bit c.payload 4 then slotBytes (jobW (getPipe s (cmdPipe c)).job) (jobH (getPipe s (cmdPipe c)).job)
        (bit (getPipe s (cmdPipe c)).job 352) else 1)) false = true) :
    exec (.mediaJobExtend c) s = .next (replyOk (modPipe (wakeLoop s (cmdDist c)) (cmdPipe c) fun q => { q with
      inLen := fld c.payload 127 64, isEnd := bit c.payload 8, state := if q.inPos < fld c.payload 127 64 ∨ bit c.payload 8 then 1 else q.state }) c 0x0801 []) := by
  simp only [List.mem_cons, List.not_mem_nil, or_false] at hheld
  have hmine : (getPipe s (cmdPipe c)).state = 1 ∨ (getPipe s (cmdPipe c)).state = 2 := hheld
  exact mediaCommand_acts (present := fun s => pipePresent s (bit c.payload 4) (fld c.payload 3 0)) h rfl (by simp [hlen, hzero]) hpresent
    (by simp [legalIn_ok (ok := mediaStates) hstate, pipeHeld, cmdPipe_eq, hdist, hmine, hrange, Nat.not_lt.mpr hmore, -mul_ite])

theorem mediaStop_acts (hdist : (getPipe s (cmdPipe c)).dist = cmdDist c) (hheld : (getPipe s (cmdPipe c)).state ∈ [1, 2])
    (h : Sendable specMediaStop c s) (hlen : c.payload.length = 8) (hzero : zeroAt c.payload [(63, 5)] = true) :
    exec (.mediaJobStop c) s = .next (replyOk (modPipe (wakeLoop s (cmdDist c)) (cmdPipe c) fun q => { q with
      state := 3, ending := some (q.ending.getD 1) }) c 0x0802 []) := by
  simp only [List.mem_cons, List.not_mem_nil, or_false] at hheld
  exact mediaCommand_acts (present := fun s => pipePresent s (bit c.payload 4) (fld c.payload 3 0)) h rfl (by simp [hlen, hzero]) hpresent
    (by simp [legalIn_ok (ok := mediaStates) hstate, pipeHeld, cmdPipe_eq, hdist, hheld])

theorem mediaInfo_acts (h : Sendable specMediaInfo c s) (hlen : c.payload.length = 8) (hzero : zeroAt c.payload [(63, 5)] = true) :
    let q := getPipe s (cmdPipe c)
    exec (.mediaPipeInfo c) s = .next (replyOk (wakeLoop s (cmdDist c)) c 0x0803
      (pack 8 [(8, q.state), (8, if q.state = 0 then 0 else q.dist)] ++ jobRecord q (q.ending.getD 0))) := by
  refine (mediaCommand_acts (present := fun s => pipePresent s (bit c.payload 4) (fld c.payload 3 0)) h rfl (by simp [hlen, hzero]) hpresent
    (by simp [legalIn_ok (ok := mediaStates) hstate])).trans ?_
  dsimp only
  rw [cmdPipe_eq, getPipe_congr (wakeLoop_pipes s (cmdDist c))]

end

theorem started_pipe {c : FwReq} {s : State} {w : Pend} : let u := wakeLoop s (cmdDist c)
    let t := modPipe (jobBound c u) (cmdPipe c) fun _ => startedPipe c w (replyAccepted u c 0x0800).nextBid
    repliesAdd s t c.fn [acceptedReply c 0x0800] ∧
      getPipe t (cmdPipe c) = startedPipe c w (replyAccepted u c 0x0800).nextBid ∧
      (getBack t (replyAccepted u c 0x0800).nextBid).size = storeBytes c.payload ∧ (getBack t (replyAccepted u c 0x0800).nextBid).tier = 2 ∧
      (getDist t (cmdDist c)).state = (getDist s (cmdDist c)).state ∧ ∀ j, j ≠ cmdPipe c → getPipe t j = getPipe s j := by
  dsimp only
  obtain ⟨hdists, hpipes, hbacks, hreply⟩ := jobBound_keeps c (wakeLoop s (cmdDist c))
  have hback : getBack (jobStored c (wakeLoop s (cmdDist c))) (replyAccepted (wakeLoop s (cmdDist c)) c 0x0800).nextBid =
      { tier := 2, units := (replyAccepted (wakeLoop s (cmdDist c)) c 0x0800).lpSites, size := storeBytes c.payload } := tget_tset_self _ _ _ _
  generalize jobBound c (wakeLoop s (cmdDist c)) = u at hdists hpipes hbacks hreply
  refine ⟨repliesAdd_wakeLoop.mp hreply, getPipe_modPipe_self _ _ _, ?_, ?_, ?_, fun j hj => ?_⟩
  · exact (congrArg Backing.size (getBack_congr hbacks _)).trans (congrArg Backing.size hback)
  · exact (congrArg Backing.tier (getBack_congr hbacks _)).trans (congrArg Backing.tier hback)
  · exact (congrArg Dist.state (getDist_congr hdists _)).trans (wakeLoop_state s _ _)
  · rw [getPipe_modPipe_ne _ _ hj, getPipe_congr hpipes, getPipe_congr (wakeLoop_pipes s _)]

/-- A reply after a change of a pipe alone. -/
theorem piped_reply (s : State) (c : FwReq) (d k cmd : Nat) (g : Pipe → Pipe) (b : Bytes) : let t := replyOk (modPipe (wakeLoop s d) k g) c cmd b
    repliesAdd s t c.fn [okReply c cmd b] ∧ getPipe t k = g (getPipe s k) := by
  refine ⟨repliesAdd_of_fns_left (replyOk_adds _ _ _ _) (wakeLoop_fns s d), ?_⟩
  rw [getPipe_congr (replyOk_pipes _ _ _ _), getPipe_modPipe_self, getPipe_congr (wakeLoop_pipes s d)]

/-- The stop of a job that is not yet ending (R399). -/
theorem mediaStopped_reply {s : State} {k : Nat} (c : FwReq) (d : Nat) (hending : (getPipe s k).ending = none) :
    let t := replyOk (modPipe (wakeLoop s d) k fun q => { q with state := 3, ending := some (q.ending.getD 1) }) c 0x0802 []
    repliesAdd s t c.fn [okReply c 0x0802 []] ∧ getPipe t k = { getPipe s k with state := 3, ending := some 1 } := by
  obtain ⟨hreply, hpipe⟩ := piped_reply s c d k 0x0802 (fun q => { q with state := 3, ending := some (q.ending.getD 1) }) []
  rw [hending] at hpipe
  exact ⟨hreply, hpipe⟩

end Sys2Proof.Machine
end

section
/-! Decoded frames and token groups (R390–R392, R396–R398). -/

namespace Sys2Proof.Machine

/-! ## Media events (R387, R399) -/

/-- A vector raised changes the functions and what leaves the device alone. -/
theorem raiseBound_fnsOut (s : State) (d purpose : Nat) : ∃ fns out, raiseBound s d purpose = { s with fns := fns, out := out } := by
  have hmsix : ∀ f vec, ∃ fns out, msix s f vec = { s with fns := fns, out := out } := fun f vec => by
    unfold msix
    dsimp only
    split
    · exact ⟨_, _, rfl⟩
    · split
      · exact ⟨_, _, rfl⟩
      · exact ⟨_, _, rfl⟩
  have hraise : ∀ f vec, ∃ fns out, raiseVec s f vec = { s with fns := fns, out := out } := fun f vec => by
    obtain ⟨fns, out, hm⟩ := hmsix f vec
    unfold raiseVec
    dsimp only
    split
    · split
      · exact ⟨_, _, rfl⟩
      · rw [hm]
        exact ⟨_, _, rfl⟩
    · exact ⟨fns, out, hm⟩
  unfold raiseBound
  split
  · exact hraise _ _
  · exact ⟨_, _, rfl⟩

/-- The source number of a pipe (R35). -/
def pipeSource (k : Nat) : Nat := if k < 8 then 0x890 + k else 0x894 + (k - 8)

/-- A media event logs one record and keeps the pipes and the memories. -/
theorem mediaEvent_state (s : State) (k kind sev : Nat) (l : List Nat) (hsev : sev ≠ 3) : let t := mediaEvent s k kind sev l
    t.pipes = s.pipes ∧ t.backs = s.backs ∧ logs s t [(pipeSource k, kind, sev, (getPipe s k).dist, (k % 8) :: l)] := by
  have hevent : mediaEvent s k kind sev l = raiseBound (emit s (pipeSource k) kind sev (getPipe s k).dist ((k % 8) :: l)) (getPipe s k).dist (vbMedia k) := rfl
  obtain ⟨fns, out, hraised⟩ := raiseBound_fnsOut (emit s (pipeSource k) kind sev (getPipe s k).dist ((k % 8) :: l)) (getPipe s k).dist (vbMedia k)
  dsimp only
  rw [hevent, hraised, emit_plain _ _ _ _ _ _ hsev]
  exact ⟨rfl, rfl, rfl⟩

theorem modPipe_congr {s : State} {k : Nat} {g g' : Pipe → Pipe} (h : g (getPipe s k) = g' (getPipe s k)) : modPipe s k g = modPipe s k g' := by
  rw [modPipe, tmod, ← getPipe, h]
  rfl

theorem segWrite_pipes (s : State) (e : Seg) (off : Nat) (l : Bytes) : (segWrite s e off l).pipes = s.pipes := by
  unfold segWrite
  split <;> rfl

/-! ## A frame's image (R391) -/

theorem flatten_replicate_length (n : Nat) (l : Bytes) : ((List.replicate n l).flatten).length = n * l.length := by
  rw [List.length_flatten, List.map_replicate, List.sum_replicate, smul_eq_mul]

/-- A mid-grey frame fills its slot. -/
theorem greyFrame_length (w h : Nat) (ten : Bool) : (greyFrame w h ten).length = slotBytes w h ten := by
  rw [greyFrame, List.length_flatMap, slotBytes]
  congr 1
  refine List.map_congr_left fun p _ => ?_
  rw [flatten_replicate_length, slice_length, Nat.mul_comm]

/-- A frame whose cause bits make it wholly grey. -/
def wholeGrey (c : Nat) : Bool := c / 8 % 2 == 1 || c / 64 % 2 == 1

/-- A frame's image: as decoded, concealed, or wholly grey. -/
def frameImage (q : Pipe) (f : DecodedFrame) (c : Nat) : Bytes :=
  if wholeGrey c then greyFrame (jobW q.job) (jobH q.job) f.ten
  else (f.damaged.map (·.1)).foldl (concealSb (jobW q.job) (jobH q.job) f.ten q.prev f.width f.sb) (slice f.planes 0 (slotBytes (jobW q.job) (jobH q.job) f.ten))

/-- Superblocks that a frame conceals one by one. -/
def concealCount (f : DecodedFrame) (c : Nat) : Nat := if wholeGrey c then 0 else f.damaged.length

/-- A frame as it is kept for tokens and for concealment. -/
def keptFrame (q : Pipe) (f : DecodedFrame) (c : Nat) : MFrame :=
  { planes := frameImage q f c, poison := c / 16 % 2 == 1, ten := f.ten, mono := f.mono, full := f.full, matrix := f.matrix }

/-- A decode pipe after a frame that is written. -/
def decodedPipe (f : DecodedFrame) (c : Nat) (q : Pipe) : Pipe := { q with
  inPos := q.inPos + f.inBytes, frames := q.frames + 1, damaged := q.damaged + b2n (c % 128 != 0), concealed := q.concealed + concealCount f c
  outBytes := q.outBytes + slotBytes (jobW q.job) (jobH q.job) f.ten, prev := some (keptFrame q f c)
  conc := if concealCount f c = 0 ∧ !wholeGrey c then q.conc else q.conc ++ [q.frames]
  group := if bit q.job 6 then q.group ++ [keptFrame q f c] else q.group
  state := if q.inPos + f.inBytes = q.inLen ∧ !q.isEnd then 2 else 1 }

section
variable {k : Nat} {f : DecodedFrame} {s : State} (hk : k < 8) (hstate : (getPipe s k).state ∈ [1, 2]) (hending : (getPipe s k).ending = none)
  (hgroup : groupFull (getPipe s k) = false) (hrest : (getPipe s k).inPos < (getPipe s k).inLen)
include hk hstate hending hgroup hrest

theorem frameDecode_due : ¬(k ≥ 8 ∨ ((getPipe s k).state ≠ 1 ∧ (getPipe s k).state ≠ 2) ∨ (getPipe s k).ending.isSome ∨ groupFull (getPipe s k) ∨
    (getPipe s k).inLen - (getPipe s k).inPos = 0) := by
  simp only [List.mem_cons, List.not_mem_nil, or_false] at hstate
  simp only [hending, hgroup, Option.isSome_none, Bool.false_eq_true, false_or]
  omega

/-- Input short of a frame, with more to come: the pipe waits (R386). -/
theorem frameDecode_waits (hshort : (getPipe s k).inLen - (getPipe s k).inPos < f.inBytes) (hmore : (getPipe s k).isEnd = false) :
    frameDecode k f s = modPipe s k fun p => { p with state := 2 } := by
  unfold frameDecode
  dsimp only
  rw [if_neg (frameDecode_due hk hstate hending hgroup hrest), if_pos (by simp [hshort, hmore])]

section
variable (hin : f.inBytes ≤ (getPipe s k).inLen - (getPipe s k).inPos) (hwrites : bit (getPipe s k).job 5 = true)
include hin hwrites

/-- A frame past OUT_LEN is not written (R399). -/
theorem frameDecode_full (hfull : fld (getPipe s k).job 319 256 < ((getPipe s k).frames + 1) * slotBytes (jobW (getPipe s k).job) (jobH (getPipe s k).job) f.ten) :
    frameDecode k f s = modPipe s k fun p => { p with ending := some 2, state := 3 } := by
  unfold frameDecode
  dsimp only
  rw [if_neg (frameDecode_due hk hstate hending hgroup hrest), if_neg (fun h => absurd h.1 (by omega)), if_pos ⟨hwrites, hfull⟩]

variable {a b : Seg} (hroom : ((getPipe s k).frames + 1) * slotBytes (jobW (getPipe s k).job) (jobH (getPipe s k).job) f.ten ≤ fld (getPipe s k).job 319 256)
  (ha : tfind (getDist s (getPipe s k).dist).segs (fld (getPipe s k).job 39 32) = some a)
  (hb : tfind (getDist s (getPipe s k).dist).segs (fld (getPipe s k).job 47 40) = some b)
  (hclean : segPoison s a (fld (getPipe s k).job 127 64 + (getPipe s k).inPos) f.inBytes = [])
include hroom ha hb hclean

/-- Where a job's next decoded frame goes. -/
def frameAt (q : Pipe) (f : DecodedFrame) : Nat := fld q.job 255 192 + q.frames * slotBytes (jobW q.job) (jobH q.job) f.ten

/-- The state of a frame that is written, before it is logged. -/
def frameWritten (k : Nat) (f : DecodedFrame) (b : Seg) (c : Nat) (s : State) : State :=
  modPipe (segWrite s b (frameAt (getPipe s k) f) (frameImage (getPipe s k) f c)) k (decodedPipe f c)

theorem frameDecode_writes {c : Nat} (hc : frameCauses (getPipe s k) f false false = c) (hpoison : c / 16 % 2 = 0) : frameDecode k f s =
    if c % 128 != 0 then mediaEvent (frameWritten k f b c s) k 0x200 sevNotice [(getPipe s k).frames, c, concealCount f c] else frameWritten k f b c s := by
  have hused : min ((getPipe s k).inLen - (getPipe s k).inPos) f.inBytes = f.inBytes := min_eq_right hin
  have hwhole : decide ((getPipe s k).inLen - (getPipe s k).inPos < f.inBytes) = false := decide_eq_false (by omega)
  have hpoisoned : ¬(c / 16 % 2 == 1) = true := by simp [hpoison]
  have hpipe := getPipe_congr (segWrite_pipes s b (frameAt (getPipe s k) f) (frameImage (getPipe s k) f c)) k
  have hstep : ∀ {g : Pipe → Pipe}, g (getPipe s k) = decodedPipe f c (getPipe s k) →
      modPipe (segWrite s b (frameAt (getPipe s k) f) (frameImage (getPipe s k) f c)) k g = frameWritten k f b c s :=
    fun hg => modPipe_congr (by rw [hpipe]; exact hg)
  unfold frameDecode
  dsimp only
  rw [if_neg (frameDecode_due hk hstate hending hgroup hrest), if_neg (fun h => absurd h.1 (by omega)), if_neg (fun h => absurd h.2 (by omega)), hused, hwhole, ha]
  simp only [hclean, bne_self_eq_false, hc, hwrites, hb, if_true]
  rw [if_neg hpoisoned]
  change (if (c % 128 != 0) = true
    then mediaEvent (modPipe (segWrite s b (frameAt (getPipe s k) f) (frameImage (getPipe s k) f c)) k _) k 0x200 sevNotice
      [(getPipe s k).frames, c, concealCount f c]
    else modPipe (segWrite s b (frameAt (getPipe s k) f) (frameImage (getPipe s k) f c)) k _) = _
  rw [hstep]
  simp only [decodedPipe, hwrites, if_true]
  rfl

omit hk hstate hending hgroup hrest hin hwrites hroom ha hb hclean

theorem frameWritten_pipe (c : Nat) : getPipe (frameWritten k f b c s) k = decodedPipe f c (getPipe s k) := by
  rw [frameWritten, getPipe_modPipe_self, getPipe_congr (segWrite_pipes _ _ _ _)]

/-- A frame's image stands in its place (R388). -/
theorem frameWritten_read {c : Nat} (htier : b.tier ≠ 3) (hwf : memWf (getBack s b.bid).data = true)
    (hlen : (frameImage (getPipe s k) f c).length = slotBytes (jobW (getPipe s k).job) (jobH (getPipe s k).job) f.ten) :
    segRead (frameWritten k f b c s) b (frameAt (getPipe s k) f) (slotBytes (jobW (getPipe s k).job) (jobH (getPipe s k).job) f.ten) =
      frameImage (getPipe s k) f c := by
  rw [segRead_of_backs htier (t := frameWritten k f b c s) (s := segWrite s b (frameAt (getPipe s k) f) (frameImage (getPipe s k) f c)) rfl, ← hlen]
  exact segRead_segWrite htier hwf _ _

theorem frameWritten_emitted (c : Nat) : (frameWritten k f b c s).emitted = s.emitted := segWrite_emitted _ _ _ _

theorem frameWritten_now (c : Nat) : (frameWritten k f b c s).now = s.now := segWrite_now _ _ _ _

/-- A damaged frame is logged (R387, R391). -/
theorem frameLogged_state (c : Nat) (l : List Nat) : let t := mediaEvent (frameWritten k f b c s) k 0x200 sevNotice l
    getPipe t k = decodedPipe f c (getPipe s k) ∧ t.backs = (frameWritten k f b c s).backs ∧
      logs s t [(pipeSource k, 0x200, 1, (getPipe s k).dist, (k % 8) :: l)] := by
  obtain ⟨hpipes, hbacks, hlogs⟩ := mediaEvent_state (frameWritten k f b c s) k 0x200 sevNotice l (by decide)
  refine ⟨(getPipe_congr hpipes k).trans (frameWritten_pipe c), hbacks, ?_⟩
  rw [logs, frameWritten_emitted, frameWritten_now, frameWritten_pipe] at hlogs
  exact hlogs

end

end

/-! ## The causes of a frame (R391) -/

section
variable {q : Pipe} {f : DecodedFrame} (hwidth : f.width ≤ jobW q.job) (hheight : f.height ≤ jobH q.job) (hrefs : f.refs.any q.conc.contains = false)
include hwidth hheight hrefs

theorem frameCauses_whole : frameCauses q f false false = f.damaged.foldl (fun a e => a ||| 2 ^ e.2) f.causes := by
  have hsize : ¬(jobW q.job < f.width ∨ jobH q.job < f.height) := by omega
  unfold frameCauses
  simp only [Bool.false_eq_true, if_false, if_neg hsize, hrefs]

theorem frameCauses_undamaged (hdamaged : f.damaged = []) : frameCauses q f false false = f.causes := by
  rw [frameCauses_whole hwidth hheight hrefs, hdamaged]
  rfl

theorem frameCauses_one {sb : Nat} (hdamaged : f.damaged = [(sb, 0)]) (hcauses : f.causes = 0) : frameCauses q f false false = 1 := by
  rw [frameCauses_whole hwidth hheight hrefs, hdamaged, hcauses]
  simp

end

/-! ## Tokens (R396–R398) -/

theorem censusAdd_keeps (s : State) (d tag source : Nat) (n : Cnt) : (censusAdd s d tag source n).pipes = s.pipes ∧
    (censusAdd s d tag source n).backs = s.backs := by
  have hemits : ∀ (l : List Nat) (t : State) (pay : Nat → List Nat), (l.foldl (fun s i => emit s source 0x080 sevNotice d (pay i)) t).pipes = t.pipes ∧
      (l.foldl (fun s i => emit s source 0x080 sevNotice d (pay i)) t).backs = t.backs := by
    intro l
    induction l with
    | nil => exact fun _ _ => ⟨rfl, rfl⟩
    | cons a l ih => exact fun t pay => ⟨((ih _ pay).1).trans (emit_pipes _ _ _ _ _ _), ((ih _ pay).2).trans (emit_backs _ _ _ _ _ _)⟩
  exact hemits _ _ fun i => [d, tag, i]

theorem segMark_pipes (s : State) (e : Seg) (gs : List Nat) : (segMark s e gs).pipes = s.pipes := by
  unfold segMark
  split <;> rfl

/-- One patch row written (R397, R398). -/
def patchPut (k : Nat) (q : Pipe) (e : Seg) (s : State) (i : Nat) : State :=
  let row := q.tokRows + i
  let r := patchRow k q.job q.groups q.group (row - q.groups * patchCount q.job)
  let at_ := fld q.job 959 896 + row % max 1 (fld q.job 863 832) * tokPitch q.job
  let s := censusAdd (segWrite s e at_ r.1) q.dist (fld q.job 553 544) (0x890 + k) r.2
  if q.group.any (·.poison) then segMark s e (granules at_ (tokPitch q.job)) else s

theorem patchPut_pipes (k : Nat) (q : Pipe) (e : Seg) (s : State) (i : Nat) : (patchPut k q e s i).pipes = s.pipes := by
  have hput := fun off l => (censusAdd_keeps (segWrite s e off l) q.dist (fld q.job 553 544) (0x890 + k)
    (patchRow k q.job q.groups q.group (q.tokRows + i - q.groups * patchCount q.job)).2).1.trans (segWrite_pipes s e off l)
  unfold patchPut
  dsimp only
  split
  · rw [segMark_pipes, hput]
  · exact hput _ _

theorem patchPuts_pipes (k : Nat) (q : Pipe) (e : Seg) : ∀ (l : List Nat) (s : State), (l.foldl (patchPut k q e) s).pipes = s.pipes
  | [], _ => rfl
  | i :: l, s => (patchPuts_pipes k q e l _).trans (patchPut_pipes k q e s i)

/-- A patch row stands in the token area (R397). -/
theorem patchPut_read {k i : Nat} {q : Pipe} {e : Seg} {s : State} (htier : e.tier ≠ 3) (hwf : memWf (getBack s e.bid).data = true) :
    segRead (patchPut k q e s i) e (fld q.job 959 896 + (q.tokRows + i) % max 1 (fld q.job 863 832) * tokPitch q.job) (tokPitch q.job) =
      (patchRow k q.job q.groups q.group (q.tokRows + i - q.groups * patchCount q.job)).1 := by
  have hlen : (patchRow k q.job q.groups q.group (q.tokRows + i - q.groups * patchCount q.job)).1.length = tokPitch q.job := slice_length _ _ _
  have hwritten := segRead_segWrite htier hwf (fld q.job 959 896 + (q.tokRows + i) % max 1 (fld q.job 863 832) * tokPitch q.job)
    (patchRow k q.job q.groups q.group (q.tokRows + i - q.groups * patchCount q.job)).1
  rw [hlen] at hwritten
  rw [← hwritten]
  generalize hw : segWrite s e (fld q.job 959 896 + (q.tokRows + i) % max 1 (fld q.job 863 832) * tokPitch q.job)
    (patchRow k q.job q.groups q.group (q.tokRows + i - q.groups * patchCount q.job)).1 = u
  have hcounted := fun n => (censusAdd_keeps u q.dist (fld q.job 553 544) (0x890 + k) n).2
  unfold patchPut
  dsimp only
  rw [hw]
  split
  · rw [segRead, if_neg htier, segMark_data, getBack_congr (hcounted _), segRead, if_neg htier]
  · exact segRead_of_backs htier (hcounted _) _ _

section
variable {k : Nat} {s : State} {e : Seg} (hstate : (getPipe s k).state ≠ 0) (hfull : groupFull (getPipe s k) = true) (hfeed : bit (getPipe s k).job 10 = false)
  (he : tfind (getDist s (getPipe s k).dist).segs (fld (getPipe s k).job 55 48) = some e)
  (hrows : (getPipe s k).tokRows = (getPipe s k).groups * patchCount (getPipe s k).job)
include hstate hfull hfeed he hrows

/-- A decode pipe whose group has become its rows. -/
def convertedPipe (q : Pipe) : Pipe := { q with tokRows := (q.groups + 1) * patchCount q.job, groups := q.groups + 1, group := [] }

theorem groupConvert_eq : groupConvert k s = modPipe ((List.range (patchCount (getPipe s k).job)).foldl (patchPut k (getPipe s k) e) s) k convertedPipe := by
  have hlimit : rowLimit s (getPipe s k) (((getPipe s k).groups + 1) * patchCount (getPipe s k).job) = ((getPipe s k).groups + 1) * patchCount (getPipe s k).job := by
    unfold rowLimit
    rw [hfeed]
  have hcount : ((getPipe s k).groups + 1) * patchCount (getPipe s k).job - (getPipe s k).tokRows = patchCount (getPipe s k).job := by
    rw [hrows, Nat.add_mul, Nat.one_mul, Nat.add_sub_cancel_left]
  have hdone : ∀ t : State, t.pipes = s.pipes → modPipe t k (fun p => { p with
      tokRows := max p.tokRows (((getPipe s k).groups + 1) * patchCount (getPipe s k).job)
      groups := if (p.groups + 1) * patchCount (getPipe s k).job ≤ ((getPipe s k).groups + 1) * patchCount (getPipe s k).job then p.groups + 1 else p.groups
      group := if (p.groups + 1) * patchCount (getPipe s k).job ≤ ((getPipe s k).groups + 1) * patchCount (getPipe s k).job then [] else p.group }) =
      modPipe t k convertedPipe := fun t ht => modPipe_congr (by
    rw [getPipe_congr ht, if_pos le_rfl, if_pos le_rfl, max_eq_right (by rw [hrows]; exact Nat.mul_le_mul_right _ (Nat.le_succ _))]
    rfl)
  unfold groupConvert
  dsimp only
  rw [if_neg (by simp [hstate, hfull]), hlimit, hcount, he]
  exact hdone _ (patchPuts_pipes _ _ _ _ _)

theorem groupConvert_state (htier : e.tier ≠ 3) (hwf : memWf (getBack s e.bid).data = true) : let t := groupConvert k s; let q := getPipe s k
    (getPipe t k).tokRows = (q.groups + 1) * patchCount q.job ∧ (getPipe t k).groups = q.groups + 1 ∧ (getPipe t k).group = [] ∧
      (patchCount q.job = 1 → segRead t e (fld q.job 959 896 + q.groups % max 1 (fld q.job 863 832) * tokPitch q.job) (tokPitch q.job) =
        (patchRow k q.job q.groups q.group 0).1) := by
  dsimp only
  rw [groupConvert_eq hstate hfull hfeed he hrows, getPipe_modPipe_self, getPipe_congr (patchPuts_pipes _ _ _ _ _)]
  refine ⟨rfl, rfl, rfl, fun hone => ?_⟩
  have hread := patchPut_read (k := k) (i := 0) (q := getPipe s k) htier hwf
  rw [hrows, hone, Nat.mul_one, Nat.add_zero, Nat.sub_self] at hread
  rw [hone]
  exact (segRead_of_backs htier rfl _ _).trans hread

end

end Sys2Proof.Machine
end

section
/-! Encoded frames, motion vectors and the end of a job (R390, R393–R395, R399), and the obligation on the media engine. -/

namespace Sys2Proof.Machine

/-! ## A frame encoded (R394, R395) -/

/-- The pipe's job uses RC 1. -/
def encodeRc1 (q : Pipe) : Bool := fld q.job 361 360 == 1

/-- The largest size that keeps the buffer from underflowing (R395). -/
def encodeRoom (s : State) (q : Pipe) : Nat := perRate q q.bufFull (freshNat s).1

/-- The encoding kept. -/
def encodeKept (s : State) (q : Pipe) (f : EncodedFrame) : Bytes × Bool × Bool :=
  if encodeRc1 q then encodeBuf q f (encodeRoom s q) else encodeCap q f (freshNat s).1

/-- The smoothing buffer after the frame. -/
def encodeNext (s : State) (q : Pipe) (f : EncodedFrame) : Nat × Bool := bufAfter q (bitsLen (encodeKept s q f).1) (freshNat (freshNat s).2).1

/-- What is appended to the output. -/
def encodeOut (s : State) (q : Pipe) (f : EncodedFrame) : Bytes :=
  if encodeRc1 q && (encodeNext s q f).2 then (encodeKept s q f).1 ++ f.padding else (encodeKept s q f).1

/-- An encode pipe after a frame that is written. -/
def encodedPipe (s : State) (f : EncodedFrame) (q : Pipe) : Pipe := { q with
  inPos := q.inPos + 1, frames := q.frames + 1, outBytes := q.outBytes + (encodeOut s q f).length, reenc := q.reenc + b2n (encodeKept s q f).2.1
  capOver := q.capOver + b2n (!encodeRc1 q && (encodeKept s q f).2.2), fallback := q.fallback + b2n (encodeRc1 q && (encodeKept s q f).2.2)
  window := (bitsLen (encodeKept s q f).1 :: q.window).take (fld q.job 431 416), bufFull := if encodeRc1 q then (encodeNext s q f).1 else q.bufFull
  refs := refsAfter q f (encodeRc1 q && (encodeKept s q f).2.2), windows := (motionAfter q f (encodeRc1 q && (encodeKept s q f).2.2)).1
  vectors := (motionAfter q f (encodeRc1 q && (encodeKept s q f).2.2)).2, state := if q.inPos + 1 = q.inLen ∧ !q.isEnd then 2 else 1 }

/-- The free values that a job without a frame rate draws (log entry 125). -/
def encodeDrawn (q : Pipe) (s : State) : State := if fld q.job 447 432 = 0 then { s with freeCtr := s.freeCtr + 2 } else s

theorem encodeDrawn_keeps (q : Pipe) (s : State) : (encodeDrawn q s).pipes = s.pipes ∧ (encodeDrawn q s).dists = s.dists ∧ (encodeDrawn q s).backs = s.backs ∧
    (encodeDrawn q s).emitted = s.emitted ∧ (encodeDrawn q s).now = s.now := by
  unfold encodeDrawn
  split <;> exact ⟨rfl, rfl, rfl, rfl, rfl⟩

/-- The state of a frame that is written, before a fallback is logged. -/
def frameEncoded (k : Nat) (f : EncodedFrame) (e : Seg) (s : State) : State :=
  modPipe (segWrite (encodeDrawn (getPipe s k) s) e (fld (getPipe s k).job 255 192 + (getPipe s k).outBytes) (encodeOut s (getPipe s k) f)) k (encodedPipe s f)

section
variable {k : Nat} {f : EncodedFrame} {s : State} {e : Seg} (hk : 8 ≤ k) (hstate : (getPipe s k).state ∈ [1, 2]) (hending : (getPipe s k).ending = none)
  (hrest : (getPipe s k).inPos < (getPipe s k).inLen) (he : tfind (getDist s (getPipe s k).dist).segs (fld (getPipe s k).job 47 40) = some e)
  (hfits : (getPipe s k).outBytes + (encodeOut s (getPipe s k) f).length ≤ fld (getPipe s k).job 319 256)
include hk hstate hending hrest he hfits

theorem frameEncode_writes : frameEncode k f s = if encodeRc1 (getPipe s k) && (encodeKept s (getPipe s k) f).2.2
    then mediaEvent (frameEncoded k f e s) k 0x202 sevNotice [(getPipe s k).frames, encodeRoom s (getPipe s k) / 8] else frameEncoded k f e s := by
  have hdue : ¬(k < 8 ∨ ((getPipe s k).state ≠ 1 ∧ (getPipe s k).state ≠ 2) ∨ (getPipe s k).ending.isSome ∨ (getPipe s k).inLen ≤ (getPipe s k).inPos) := by
    simp only [List.mem_cons, List.not_mem_nil, or_false] at hstate
    simp only [hending, Option.isSome_none, Bool.false_eq_true, false_or]
    omega
  have hdrawn : getDist (encodeDrawn (getPipe s k) s) (getPipe s k).dist = getDist s (getPipe s k).dist := getDist_congr (encodeDrawn_keeps _ s).2.1 _
  have hroom : ¬fld (getPipe s k).job 319 256 < (getPipe s k).outBytes + (encodeOut s (getPipe s k) f).length := Nat.not_lt.mpr hfits
  have hpipe : getPipe (segWrite (encodeDrawn (getPipe s k) s) e (fld (getPipe s k).job 255 192 + (getPipe s k).outBytes) (encodeOut s (getPipe s k) f)) k =
      getPipe s k := (getPipe_congr (segWrite_pipes _ _ _ _) k).trans (getPipe_congr (encodeDrawn_keeps _ s).1 k)
  have hstep : ∀ {g : Pipe → Pipe}, g (getPipe s k) = encodedPipe s f (getPipe s k) → modPipe (segWrite (encodeDrawn (getPipe s k) s) e
      (fld (getPipe s k).job 255 192 + (getPipe s k).outBytes) (encodeOut s (getPipe s k) f)) k g = frameEncoded k f e s :=
    fun hg => modPipe_congr (by rw [hpipe]; exact hg)
  unfold frameEncode
  dsimp only
  rw [if_neg hdue]
  change (if fld (getPipe s k).job 319 256 < (getPipe s k).outBytes + (encodeOut s (getPipe s k) f).length then _ else
    if (encodeRc1 (getPipe s k) && (encodeKept s (getPipe s k) f).2.2) = true
    then mediaEvent (modPipe (match tfind (getDist (encodeDrawn (getPipe s k) s) (getPipe s k).dist).segs (fld (getPipe s k).job 47 40) with
        | some e => segWrite (encodeDrawn (getPipe s k) s) e (fld (getPipe s k).job 255 192 + (getPipe s k).outBytes) (encodeOut s (getPipe s k) f)
        | none => encodeDrawn (getPipe s k) s) k _) k 0x202 sevNotice [(getPipe s k).frames, encodeRoom s (getPipe s k) / 8]
    else modPipe (match tfind (getDist (encodeDrawn (getPipe s k) s) (getPipe s k).dist).segs (fld (getPipe s k).job 47 40) with
        | some e => segWrite (encodeDrawn (getPipe s k) s) e (fld (getPipe s k).job 255 192 + (getPipe s k).outBytes) (encodeOut s (getPipe s k) f)
        | none => encodeDrawn (getPipe s k) s) k _) = _
  rw [if_neg hroom, hdrawn, he]
  dsimp only
  rw [hstep]
  rfl

omit hk hstate hending hrest he hfits

theorem frameEncoded_pipe : getPipe (frameEncoded k f e s) k = encodedPipe s f (getPipe s k) := by
  rw [frameEncoded, getPipe_modPipe_self, getPipe_congr (segWrite_pipes _ _ _ _), getPipe_congr (encodeDrawn_keeps _ s).1]

/-- What is appended stands at the end of the output. -/
theorem frameEncoded_read (htier : e.tier ≠ 3) (hwf : memWf (getBack s e.bid).data = true) : segRead (frameEncoded k f e s) e
    (fld (getPipe s k).job 255 192 + (getPipe s k).outBytes) (encodeOut s (getPipe s k) f).length = encodeOut s (getPipe s k) f :=
  (segRead_of_backs htier rfl _ _).trans (segRead_segWrite htier (by rw [getBack_congr (encodeDrawn_keeps _ s).2.2.1]; exact hwf) _ _)

theorem frameEncoded_log : (frameEncoded k f e s).emitted = s.emitted ∧ (frameEncoded k f e s).now = s.now := by
  obtain ⟨-, -, -, hlog, hnow⟩ := encodeDrawn_keeps (getPipe s k) s
  exact ⟨(segWrite_emitted _ _ _ _).trans hlog, (segWrite_now _ _ _ _).trans hnow⟩

theorem encodeKept_rc0 {q : Pipe} (hrc : fld q.job 361 360 = 0) : encodeKept s q f = encodeCap q f (freshNat s).1 ∧
    encodeOut s q f = (encodeCap q f (freshNat s).1).1 ∧ encodeRc1 q = false := by
  have hrc1 : encodeRc1 q = false := by rw [encodeRc1, hrc]; rfl
  have hkept : encodeKept s q f = encodeCap q f (freshNat s).1 := by rw [encodeKept, hrc1, if_neg Bool.false_ne_true]
  refine ⟨hkept, ?_, hrc1⟩
  rw [encodeOut, hrc1, Bool.false_and, if_neg Bool.false_ne_true, hkept]

include hk hstate hending hrest he

/-- RC 0: the frame within the cap is appended (R394). -/
theorem frameEncode_cap (hrc : fld (getPipe s k).job 361 360 = 0) (htier : e.tier ≠ 3) (hwf : memWf (getBack s e.bid).data = true) :
    let q := getPipe s k
    let r := encodeCap q f (freshNat s).1
    q.outBytes + r.1.length ≤ fld q.job 319 256 → let t := frameEncode k f s
    segRead t e (fld q.job 255 192 + q.outBytes) r.1.length = r.1 ∧ (getPipe t k).frames = q.frames + 1 ∧
      (getPipe t k).outBytes = q.outBytes + r.1.length ∧ (getPipe t k).inPos = q.inPos + 1 ∧
      (getPipe t k).reenc = q.reenc + b2n r.2.1 ∧ (getPipe t k).capOver = q.capOver + b2n r.2.2 ∧
      (getPipe t k).refs = refsAfter q f false ∧ (getPipe t k).windows = (motionAfter q f false).1 ∧ (getPipe t k).vectors = (motionAfter q f false).2 := by
  obtain ⟨hkept, hout, hrc1⟩ := encodeKept_rc0 (s := s) (f := f) hrc
  have hread := frameEncoded_read (k := k) (f := f) htier hwf
  have hpipe := frameEncoded_pipe (k := k) (f := f) (e := e) (s := s)
  dsimp only
  intro hfits
  rw [frameEncode_writes hk hstate hending hrest he (by rw [hout]; exact hfits), hrc1, Bool.false_and, if_neg Bool.false_ne_true, hpipe]
  rw [hout] at hread
  unfold encodedPipe
  rw [hkept, hout, hrc1]
  exact ⟨hread, rfl, rfl, rfl, rfl, rfl, rfl, rfl, rfl⟩

/-- RC 1: the frame and its padding are appended, the buffer model advances, and a fallback is logged (R395). -/
theorem frameEncode_buf (hrc : fld (getPipe s k).job 361 360 = 1) (hrate : fld (getPipe s k).job 447 432 ≠ 0) (htier : e.tier ≠ 3)
    (hwf : memWf (getBack s e.bid).data = true) : let q := getPipe s k
    let n := fld q.job 447 432
    let room := q.bufFull / n
    let r := encodeBuf q f room
    let fill := q.bufFull - bitsLen r.1 * n + fld q.job 415 384 * 1000 * fld q.job 463 448
    let full := fld q.job 511 480 * n
    let out := r.1 ++ (if full < fill then f.padding else [])
    q.outBytes + out.length ≤ fld q.job 319 256 → let t := frameEncode k f s
    segRead t e (fld q.job 255 192 + q.outBytes) out.length = out ∧ (getPipe t k).frames = q.frames + 1 ∧
      (getPipe t k).outBytes = q.outBytes + out.length ∧ (getPipe t k).bufFull = min full fill ∧
      (getPipe t k).reenc = q.reenc + b2n r.2.1 ∧ (getPipe t k).fallback = q.fallback + b2n r.2.2 ∧
      (getPipe t k).capOver = q.capOver ∧ (getPipe t k).refs = refsAfter q f r.2.2 ∧
      (if r.2.2 then logs s t [(pipeSource k, 0x202, 1, q.dist, [k % 8, q.frames, room / 8])] else t.emitted = s.emitted) := by
  dsimp only
  have hrc1 : encodeRc1 (getPipe s k) = true := by rw [encodeRc1, hrc]; rfl
  have hroom : encodeRoom s (getPipe s k) = (getPipe s k).bufFull / fld (getPipe s k).job 447 432 := if_neg hrate
  have hkept : encodeKept s (getPipe s k) f = encodeBuf (getPipe s k) f ((getPipe s k).bufFull / fld (getPipe s k).job 447 432) := by
    rw [encodeKept, hrc1, if_pos rfl, hroom]
  have hread := frameEncoded_read (k := k) (f := f) htier hwf
  have hpipe := frameEncoded_pipe (k := k) (f := f) (e := e) (s := s)
  obtain ⟨hlog, hnow⟩ := frameEncoded_log (k := k) (f := f) (e := e) (s := s)
  have hnext : encodeNext s (getPipe s k) f = (min (fld (getPipe s k).job 511 480 * fld (getPipe s k).job 447 432)
      ((getPipe s k).bufFull - bitsLen (encodeBuf (getPipe s k) f ((getPipe s k).bufFull / fld (getPipe s k).job 447 432)).1 * fld (getPipe s k).job 447 432 +
        fld (getPipe s k).job 415 384 * 1000 * fld (getPipe s k).job 463 448),
      decide (fld (getPipe s k).job 511 480 * fld (getPipe s k).job 447 432 < (getPipe s k).bufFull - bitsLen (encodeBuf (getPipe s k) f
        ((getPipe s k).bufFull / fld (getPipe s k).job 447 432)).1 * fld (getPipe s k).job 447 432 +
        fld (getPipe s k).job 415 384 * 1000 * fld (getPipe s k).job 463 448)) := by
    rw [encodeNext, hkept, bufAfter]
    rw [if_neg hrate]
  generalize hr : encodeBuf (getPipe s k) f ((getPipe s k).bufFull / fld (getPipe s k).job 447 432) = r at hkept hnext
  generalize hfill : (getPipe s k).bufFull - bitsLen r.1 * fld (getPipe s k).job 447 432 +
    fld (getPipe s k).job 415 384 * 1000 * fld (getPipe s k).job 463 448 = fill at hnext
  generalize hfull : fld (getPipe s k).job 511 480 * fld (getPipe s k).job 447 432 = full at hnext
  have hout : encodeOut s (getPipe s k) f = r.1 ++ (if full < fill then f.padding else []) := by
    rw [encodeOut, hrc1, Bool.true_and, hnext, hkept]
    by_cases hover : full < fill
    · simp [hover]
    · simp [hover]
  have hafter : encodedPipe s f (getPipe s k) = { getPipe s k with
      inPos := (getPipe s k).inPos + 1, frames := (getPipe s k).frames + 1
      outBytes := (getPipe s k).outBytes + (r.1 ++ (if full < fill then f.padding else [])).length, reenc := (getPipe s k).reenc + b2n r.2.1
      fallback := (getPipe s k).fallback + b2n r.2.2, window := (bitsLen r.1 :: (getPipe s k).window).take (fld (getPipe s k).job 431 416)
      bufFull := min full fill, refs := refsAfter (getPipe s k) f r.2.2, windows := (motionAfter (getPipe s k) f r.2.2).1
      vectors := (motionAfter (getPipe s k) f r.2.2).2
      state := if (getPipe s k).inPos + 1 = (getPipe s k).inLen ∧ !(getPipe s k).isEnd then 2 else 1 } := by
    unfold encodedPipe
    rw [hout, hkept, hnext, hrc1]
    rfl
  intro hfits
  have hdone := frameEncode_writes (f := f) hk hstate hending hrest he (by rw [hout]; exact hfits)
  rw [hrc1, hkept, Bool.true_and, hroom] at hdone
  rw [hout] at hread
  rw [hafter] at hpipe
  generalize frameEncoded k f e s = u at hread hpipe hlog hnow hdone
  cases hfell : r.2.2 with
  | true =>
    obtain ⟨hpipes, hbacks, hlogs⟩ := mediaEvent_state u k 0x202 sevNotice [(getPipe s k).frames, (getPipe s k).bufFull / fld (getPipe s k).job 447 432 / 8] (by decide)
    rw [hfell, if_pos rfl] at hdone
    rw [hdone, getPipe_congr hpipes, hpipe, segRead_of_backs htier hbacks]
    rw [logs, hlog, hnow, hpipe] at hlogs
    exact ⟨hread, rfl, rfl, rfl, rfl, congrArg (fun b => (getPipe s k).fallback + b2n b) hfell, rfl, congrArg (refsAfter (getPipe s k) f) hfell, hlogs⟩
  | false =>
    rw [hfell, if_neg Bool.false_ne_true] at hdone
    rw [hdone, hpipe]
    exact ⟨hread, rfl, rfl, rfl, rfl, congrArg (fun b => (getPipe s k).fallback + b2n b) hfell, rfl, congrArg (refsAfter (getPipe s k) f) hfell, hlog⟩

end

/-! ## The indexes of RC 1 (R395) -/

theorem quantSteps_length (qi : Nat) : (quantSteps qi).length = cdiv (255 - qi) 32 + 1 := by rw [quantSteps, List.length_map, List.length_range]

theorem quantSteps_get {qi i : Nat} (h : i < (quantSteps qi).length) : (quantSteps qi)[i] = min (qi + 32 * i) 255 := by simp [quantSteps]

/-- Beyond the last index asked for, the index stays 255. -/
theorem quantSteps_last {qi i : Nat} (h : (quantSteps qi).length ≤ i) : min (qi + 32 * i) 255 = min (qi + 32 * (i - 1)) 255 ∧ 0 < i := by
  rw [quantSteps_length, cdiv] at h
  omega

theorem encodeBuf_first {q : Pipe} {f : EncodedFrame} {room i : Nat} (hfits : bitsLen (encodedAt f (min (jobQi q.job + 32 * i) 255)) ≤ room)
    (hbefore : ∀ j < i, room < bitsLen (encodedAt f (min (jobQi q.job + 32 * j) 255))) :
    encodeBuf q f room = (encodedAt f (min (jobQi q.job + 32 * i) 255), decide (0 < i), false) := by
  have hin : i < (quantSteps (jobQi q.job)).length := by
    by_contra hout
    obtain ⟨hsame, hpos⟩ := quantSteps_last (Nat.not_lt.mp hout)
    rw [hsame] at hfits
    exact absurd hfits (Nat.not_le.mpr (hbefore (i - 1) (by omega)))
  have hfind : ((quantSteps (jobQi q.job)).findIdx? fun c => decide (bitsLen (encodedAt f c) ≤ room)) = some i := by
    rw [List.findIdx?_eq_some_iff_getElem]
    refine ⟨hin, ?_, fun j hj => ?_⟩
    · rw [quantSteps_get hin]
      exact decide_eq_true hfits
    · rw [quantSteps_get (hj.trans hin)]
      simpa using hbefore j hj
  unfold encodeBuf
  dsimp only
  rw [hfind]
  dsimp only
  rw [List.getD_eq_getElem _ _ hin, quantSteps_get hin]

theorem encodeBuf_none {q : Pipe} {f : EncodedFrame} {room : Nat} (hall : ∀ i, room < bitsLen (encodedAt f (min (jobQi q.job + 32 * i) 255))) :
    (encodeBuf q f room).2.2 = true ∧ (encodeBuf q f room).1 = f.fallback.take (fallbackBound q) := by
  have hfind : ((quantSteps (jobQi q.job)).findIdx? fun c => decide (bitsLen (encodedAt f c) ≤ room)) = none := by
    rw [List.findIdx?_eq_none_iff]
    intro c hc
    obtain ⟨i, -, rfl⟩ := List.mem_map.mp hc
    simpa using hall i
  unfold encodeBuf
  dsimp only
  rw [hfind]
  exact ⟨rfl, rfl⟩

theorem fallbackBound_eq (q : Pipe) : fallbackBound q = if q.frames = 0 ∨ (fld q.job 479 464 ≠ 0 ∧ q.frames % fld q.job 479 464 = 0) then
    1024 + jobW q.job * jobH q.job / 32 else 16 + 2 * (cdiv (jobW q.job) 64 * cdiv (jobH q.job) 64) := by
  have hkey : (keyFrame q = true) = (q.frames = 0 ∨ (fld q.job 479 464 ≠ 0 ∧ q.frames % fld q.job 479 464 = 0)) := by simp [keyFrame]
  have hbytes : (8192 + jobW q.job * jobH q.job / 4) / 8 = 1024 + jobW q.job * jobH q.job / 32 := by omega
  rw [fallbackBound]
  simp only [hkey, hbytes]

/-! ## Vectors and windows (R393) -/

/-- One component: the block stays between the window's edges, and a vector that keeps it there stands. -/
theorem clampMv_inside {at_ size before after : Nat} (v : Int) (hsize : at_ % 64 + size ≤ 64) : let sb : Int := (at_ / 64 * 64 : Nat)
    let inside (v : Int) : Prop := 4 * (sb - before) ≤ 4 * (at_ : Int) + v ∧ 4 * ((at_ : Int) + size) + v ≤ 4 * (sb + 64 + after)
    inside (clampMv at_ size before after v) ∧ (inside v → clampMv at_ size before after v = v) := by
  unfold clampMv
  dsimp only
  omega

theorem loadWindow_slides (f : MFrame) (w h sx sy : Nat) : slideWindow f w h (loadWindow f w h sx sy) = loadWindow f w h (sx + 64) sy := by
  refine congrArg (Window.mk (sx + 64) sy) (List.ext_getElem (by simp [loadWindow]) fun i hi _ => ?_)
  dsimp only [loadWindow] at hi ⊢
  simp only [List.length_append, List.length_drop, List.length_map, List.length_range] at hi
  by_cases hlow : i < 192
  · rw [List.getElem_append_left (by simpa using hlow)]
    simp only [List.getElem_drop, List.getElem_map, List.getElem_range]
    refine congrArg (windowCol f w h sy) ?_
    simp only [Int.ofNat_eq_natCast]
    omega
  · rw [List.getElem_append_right (by simpa using hlow)]
    simp only [List.getElem_map, List.getElem_range, List.length_drop, List.length_map, List.length_range]
    refine congrArg (windowCol f w h sy) ?_
    simp only [Int.ofNat_eq_natCast]
    omega

/-! ## The end of a job (R399) -/

theorem endJob_state {k e : Nat} {w : Pend} {s : State} (hw : (getPipe s k).pend = some w) (hepoch : (getFn s w.req.fn).epoch = w.epoch) :
    let t := endJob k e s
    let q := getPipe s k
    doneReply w 0 0 (jobRecord { q with dropped := q.dropped + b2n (q.group != []) } e) ∈ (getFn t w.req.fn).replies ∧ getPipe t k = {} ∧
      thas t.backs q.storeBid = false ∧ logs s t [(pipeSource k, 0x201, 0, q.dist, [k % 8, e, q.frames, q.damaged])] := by
  have hpipe := getPipe_modPipe_self s k fun p => { p with dropped := p.dropped + b2n (p.group != []) }
  have hended : endJob k e s = let q := { getPipe s k with dropped := (getPipe s k).dropped + b2n ((getPipe s k).group != []) }
      let u := finishOk (mediaEvent (modPipe s k fun p => { p with dropped := p.dropped + b2n (p.group != []) }) k 0x201 sevInfo [e, q.frames, q.damaged]) w (jobRecord q e)
      let v := unbind { u with backs := tdel u.backs q.storeBid } q.dist (vbMedia k)
      { v with pipes := tdel v.pipes k } := by
    unfold endJob
    dsimp only
    rw [hpipe]
    dsimp only
    rw [hw]
  have hlogs := (mediaEvent_state (modPipe s k fun p => { p with dropped := p.dropped + b2n (p.group != []) }) k 0x201 sevInfo
    [e, (getPipe s k).frames, (getPipe s k).damaged] (by decide)).2.2
  have hcalm := (mediaEvent_calm k 0x201 sevInfo [e, (getPipe s k).frames, (getPipe s k).damaged]
    (.refl (modPipe s k fun p => { p with dropped := p.dropped + b2n (p.group != []) }))).answers w.req.fn
  rw [hpipe] at hlogs
  dsimp only at hended ⊢
  rw [hended]
  generalize mediaEvent (modPipe s k fun p => { p with dropped := p.dropped + b2n (p.group != []) }) k 0x201 sevInfo
    [e, (getPipe s k).frames, (getPipe s k).damaged] = u at hlogs hcalm
  have hdone := finishOk_mem (p := w) (hcalm.1.trans hepoch) (jobRecord { getPipe s k with dropped := (getPipe s k).dropped + b2n ((getPipe s k).group != []) } e)
  have hlog := finishOk_emitted u w (jobRecord { getPipe s k with dropped := (getPipe s k).dropped + b2n ((getPipe s k).group != []) } e)
  generalize finishOk u w (jobRecord { getPipe s k with dropped := (getPipe s k).dropped + b2n ((getPipe s k).group != []) } e) = v at hdone hlog
  refine ⟨?_, tget_tdel_self _ _ _, congrArg Option.isSome (tfind_tdel_self _ _), hlog.trans hlogs⟩
  have hkept := unbind_replies { v with backs := tdel v.backs (getPipe s k).storeBid } (getPipe s k).dist (vbMedia k) w.req.fn
  exact hkept.symm ▸ hdone

theorem mediaJobEnd_acts {enc : Bool} {pipe e : Nat} {s : State} (hpipe : pipe < 8) (hstate : (getPipe s (pipeKey enc pipe)).state ≠ 0)
    (hover : jobOver (getPipe s (pipeKey enc pipe)) = some e) : exec (.mediaJobEnd enc pipe) s = .next (endJob (pipeKey enc pipe) e s) := by
  refine congrArg Host.Outcome.next ((when_due _ _ (by simp [hpipe, hstate])).trans ?_)
  rw [hover]

/-! ## The obligation -/

section
variable {pipe : Nat} {f : DecodedFrame} {s : State} {a b : Seg} (hpipe : pipe < 4) (hstate : (getPipe s pipe).state ∈ [1, 2])
  (hending : (getPipe s pipe).ending = none) (hgroup : groupFull (getPipe s pipe) = false) (hrest : (getPipe s pipe).inPos < (getPipe s pipe).inLen)
  (hin : f.inBytes ≤ (getPipe s pipe).inLen - (getPipe s pipe).inPos) (hwrites : bit (getPipe s pipe).job 5 = true)
  (hroom : ((getPipe s pipe).frames + 1) * slotBytes (jobW (getPipe s pipe).job) (jobH (getPipe s pipe).job) f.ten ≤ fld (getPipe s pipe).job 319 256)
  (ha : tfind (getDist s (getPipe s pipe).dist).segs (fld (getPipe s pipe).job 39 32) = some a)
  (hb : tfind (getDist s (getPipe s pipe).dist).segs (fld (getPipe s pipe).job 47 40) = some b)
  (hclean : segPoison s a (fld (getPipe s pipe).job 127 64 + (getPipe s pipe).inPos) f.inBytes = [])
  (hwidth : f.width ≤ jobW (getPipe s pipe).job) (hheight : f.height ≤ jobH (getPipe s pipe).job)
  (hrefs : f.refs.any (getPipe s pipe).conc.contains = false)
include hpipe hstate hending hgroup hrest hin hwrites hroom ha hb hclean hwidth hheight hrefs

/-- An undamaged frame is written whole (R390, R391). -/
theorem frameDecode_undamaged (htier : b.tier ≠ 3) (hwf : memWf (getBack s b.bid).data = true) (hdamaged : f.damaged = []) (hcauses : f.causes = 0) :
    let q := getPipe s pipe
    let slot := slotBytes (jobW q.job) (jobH q.job) f.ten
    let t := frameDecode pipe f s
    segRead t b (fld q.job 255 192 + q.frames * slot) slot = slice f.planes 0 slot ∧ (getPipe t pipe).frames = q.frames + 1 ∧
      (getPipe t pipe).inPos = q.inPos + f.inBytes ∧ (getPipe t pipe).damaged = q.damaged ∧ (getPipe t pipe).outBytes = q.outBytes + slot ∧
      (getPipe t pipe).concealed = q.concealed ∧ t.emitted = s.emitted := by
  have hc := (frameCauses_undamaged hwidth hheight hrefs hdamaged).trans hcauses
  have himage : frameImage (getPipe s pipe) f 0 = slice f.planes 0 (slotBytes (jobW (getPipe s pipe).job) (jobH (getPipe s pipe).job) f.ten) := by
    rw [frameImage, hdamaged]
    rfl
  have hcount : concealCount f 0 = 0 := by rw [concealCount, hdamaged]; rfl
  have hread := frameWritten_read (k := pipe) (f := f) (c := 0) htier hwf (by rw [himage, slice_length])
  have hdone := frameWritten_pipe (k := pipe) (f := f) (s := s) (b := b) 0
  dsimp only
  rw [frameDecode_writes (by omega) hstate hending hgroup hrest hin hwrites hroom ha hb hclean hc rfl, if_neg (by decide), hdone, decodedPipe, hcount]
  exact ⟨hread.trans himage, rfl, rfl, rfl, rfl, rfl, frameWritten_emitted _⟩

/-- A frame that the decoder cannot give is grey, and logged (R391). -/
theorem frameDecode_grey (htier : b.tier ≠ 3) (hwf : memWf (getBack s b.bid).data = true) (hdamaged : f.damaged = []) (hcauses : f.causes = 64) :
    let q := getPipe s pipe
    let slot := slotBytes (jobW q.job) (jobH q.job) f.ten
    let t := frameDecode pipe f s
    segRead t b (fld q.job 255 192 + q.frames * slot) slot = slice (greyFrame (jobW q.job) (jobH q.job) f.ten) 0 slot ∧
      (getPipe t pipe).damaged = q.damaged + 1 ∧ logs s t [(0x890 + pipe, 0x200, 1, q.dist, [pipe, q.frames, 64, 0])] := by
  have hc := (frameCauses_undamaged hwidth hheight hrefs hdamaged).trans hcauses
  have hlen := greyFrame_length (jobW (getPipe s pipe).job) (jobH (getPipe s pipe).job) f.ten
  have hread := frameWritten_read (k := pipe) (f := f) (c := 64) htier hwf hlen
  obtain ⟨hafter, hbacks, hlogs⟩ := frameLogged_state (k := pipe) (f := f) (s := s) (b := b) 64 [(getPipe s pipe).frames, 64, 0]
  dsimp only
  rw [frameDecode_writes (by omega) hstate hending hgroup hrest hin hwrites hroom ha hb hclean hc rfl, if_pos (by decide), show concealCount f 64 = 0 from rfl,
    segRead_of_backs htier hbacks, hafter, slice_all hlen]
  rw [pipeSource, if_pos (by omega), Nat.mod_eq_of_lt (by omega)] at hlogs
  exact ⟨hread, rfl, hlogs⟩

/-- A frame with one damaged superblock conceals it, and is logged (R391). -/
theorem frameDecode_conceals {sb : Nat} (hdamaged : f.damaged = [(sb, 0)]) (hcauses : f.causes = 0) : let q := getPipe s pipe
    let t := frameDecode pipe f s
    (getPipe t pipe).damaged = q.damaged + 1 ∧ (getPipe t pipe).concealed = q.concealed + 1 ∧ q.frames ∈ (getPipe t pipe).conc ∧
      logs s t [(0x890 + pipe, 0x200, 1, q.dist, [pipe, q.frames, 1, 1])] := by
  have hc := frameCauses_one hwidth hheight hrefs hdamaged hcauses
  have hcount : concealCount f 1 = 1 := by rw [concealCount, hdamaged]; rfl
  obtain ⟨hafter, -, hlogs⟩ := frameLogged_state (k := pipe) (f := f) (s := s) (b := b) 1 [(getPipe s pipe).frames, 1, 1]
  dsimp only
  rw [frameDecode_writes (by omega) hstate hending hgroup hrest hin hwrites hroom ha hb hclean hc rfl, if_pos (by decide), hcount, hafter, decodedPipe, hcount]
  rw [pipeSource, if_pos (by omega), Nat.mod_eq_of_lt (by omega)] at hlogs
  exact ⟨rfl, rfl, List.mem_append_right _ (List.mem_singleton_self _), hlogs⟩

end

/-- Settles O40: the commands by their `_acts` lemmas, every event by its own. -/
theorem mediaRequestsComplete : Obligations.MediaRequestsComplete := by
  unfold Obligations.MediaRequestsComplete
  refine ⟨fun c s => ?_, fun pipe s => ⟨fun f hpipe => ?_, fun e hpipe hstate hfull hfeed he htier hwf hrows => ?_,
    fun f e hpipe hstate hending hrest hrc he htier hwf hfits => ?_,
    fun f e hpipe hstate hending hrest hrc hrate he htier hwf hfits => ?_, fun q f room => ?_, fun m hx hy => ?_, fun f w h sx sy => ?_,
    fun enc e w hpipe hstate hover hw hepoch => ⟨_, mediaJobEnd_acts hpipe hstate hover, endJob_state hw hepoch⟩⟩⟩
  · refine fun hpresent hstate => ⟨fun h hlen hzero hargs hidle hretain hpwr hfits hvec =>
        ⟨_, mediaStart_acts hpresent hstate h hlen hzero hargs hidle hretain hpwr hfits hvec, ?_⟩,
      fun hdist hheld => ⟨fun h hlen hzero hmore hrange => ⟨_, mediaExtend_acts hpresent hstate hdist hheld h hlen hzero hmore hrange, piped_reply s c _ _ _ _ _⟩,
        fun h hlen hzero hending => ⟨_, mediaStop_acts hpresent hstate hdist hheld h hlen hzero, mediaStopped_reply c _ hending⟩⟩,
      fun h hlen hzero => ⟨_, mediaInfo_acts hpresent hstate h hlen hzero, repliesAdd_wakeLoop.mp (replyOk_adds _ _ _ _),
        (replyOk_pipes _ _ _ _).trans (wakeLoop_pipes _ _)⟩⟩
    obtain ⟨hreply, hpipe, hsize, htier, hkept, hothers⟩ := started_pipe (c := c) (s := s) (w := pendOf (jobBound c (wakeLoop s (cmdDist c))) c 0x0800)
    dsimp only
    rw [cmdPipe_eq, hpipe]
    refine ⟨hreply, ?_, rfl, rfl, rfl, rfl, rfl, rfl, hsize, htier, hkept, hothers⟩
    simp [startedPipe]
  · refine fun hstate hending hgroup hrest => ⟨fun hshort hmore => ?_, fun hin hwrites hfull => ?_,
      fun a b hin hwrites hroom ha hb htier hwf hclean hwidth hheight => ⟨fun hdamaged hcauses hrefs => ?_, fun hdamaged hcauses hrefs => ?_,
        fun sb hdamaged hcauses hrefs => ?_⟩⟩
    · refine ⟨_, congrArg Host.Outcome.next ((when_due _ _ (decide_eq_true hpipe)).trans (frameDecode_waits (by omega) hstate hending hgroup hrest hshort hmore)),
        getPipe_modPipe_self _ _ _, rfl, rfl⟩
    · exact ⟨_, congrArg Host.Outcome.next ((when_due _ _ (decide_eq_true hpipe)).trans (frameDecode_full (by omega) hstate hending hgroup hrest hin hwrites hfull)),
        getPipe_modPipe_self _ _ _, rfl⟩
    · exact ⟨_, congrArg Host.Outcome.next (when_due _ _ (decide_eq_true hpipe)),
        frameDecode_undamaged hpipe hstate hending hgroup hrest hin hwrites hroom ha hb hclean hwidth hheight hrefs htier hwf hdamaged hcauses⟩
    · exact ⟨_, congrArg Host.Outcome.next (when_due _ _ (decide_eq_true hpipe)),
        frameDecode_grey hpipe hstate hending hgroup hrest hin hwrites hroom ha hb hclean hwidth hheight hrefs htier hwf hdamaged hcauses⟩
    · exact ⟨_, congrArg Host.Outcome.next (when_due _ _ (decide_eq_true hpipe)),
        frameDecode_conceals hpipe hstate hending hgroup hrest hin hwrites hroom ha hb hclean hwidth hheight hrefs hdamaged hcauses⟩
  · exact ⟨_, congrArg Host.Outcome.next (when_due _ _ (decide_eq_true hpipe)), groupConvert_state hstate hfull hfeed he hrows htier hwf⟩
  · exact ⟨_, congrArg Host.Outcome.next (when_due _ _ (decide_eq_true hpipe)),
      frameEncode_cap (Nat.le_add_right 8 pipe) hstate hending hrest he hrc htier hwf hfits⟩
  · have hdone := frameEncode_buf (f := f) (Nat.le_add_right 8 pipe) hstate hending hrest he hrc hrate htier hwf hfits
    have hsource : pipeSource (8 + pipe) = 0x894 + pipe := by rw [pipeSource, if_neg (by omega), Nat.add_sub_cancel_left]
    have hnumber : (8 + pipe) % 8 = pipe := by omega
    rw [hsource, hnumber] at hdone
    exact ⟨_, congrArg Host.Outcome.next (when_due _ _ (decide_eq_true hpipe)), hdone⟩
  · refine ⟨fun i hfits hbefore => ?_, fun hall => ?_⟩
    · have hkept := encodeBuf_first (q := q) (f := f) hfits hbefore
      rw [hkept]
      exact ⟨rfl, rfl, rfl⟩
    · obtain ⟨hfell, hbytes⟩ := encodeBuf_none (q := q) (f := f) hall
      rw [hbytes, ← fallbackBound_eq]
      exact ⟨hfell, List.take_prefix _ _, List.length_take_le _ _⟩
  · obtain ⟨⟨hleft, hright⟩, hhor⟩ := clampMv_inside (before := 96) (after := 96) m.mx hx
    obtain ⟨⟨htop, hbottom⟩, hver⟩ := clampMv_inside (before := 32) (after := 32) m.my hy
    dsimp only [useMv]
    refine ⟨⟨by omega, by omega, by omega, by omega⟩, fun hinside => Prod.ext (hhor ?_) (hver ?_)⟩
    · omega
    · omega
  · exact ⟨loadWindow_slides f w h sx sy, by simp [loadWindow], fun col hcol => by
      obtain ⟨i, -, rfl⟩ := List.mem_map.mp hcol
      simp [windowCol]⟩

end Sys2Proof.Machine
end
